-- ==== Sys2Proof/Word.lean ====
section
/-! DEFINITION. Word types of the Ikiok and the two lists-as-maps every store of the model is built from
(spec/00_scope.md R3 to R5; spec/02_core.md R25). -/

namespace Sys2Proof

/-- A byte. -/
abbrev Byte := BitVec 8
/-- A g, a or b register (R25). -/
abbrev W64 := BitVec 64
/-- A slot word (R94). -/
abbrev W32 := BitVec 32
/-- A lane mask (R25). -/
abbrev Mask := BitVec 128
/-- A vector register (R25). -/
abbrev Vec := BitVec 1024

/-- A sparse map from numbers, kept in one canonical form: keys strictly rising, no entry equal to the default
value of the reader (see `Tbl.set`). -/
abbrev Tbl (α : Type) := List (Nat × α)

/-- Read key `k`; an unlisted key reads as `dflt`. -/
def Tbl.get {α : Type} (dflt : α) : Tbl α → Nat → α
  | [], _ => dflt
  | (j, x) :: t, k => if k = j then x else Tbl.get dflt t k

/-- Put a key that is not listed in its place among rising keys. -/
def Tbl.ins {α : Type} : Tbl α → Nat → α → Tbl α
  | [], k, v => [(k, v)]
  | (j, x) :: t, k, v => if k < j then (k, v) :: (j, x) :: t else (j, x) :: Tbl.ins t k v

/-- Put `v` at key `k`; a value equal to the default only removes the entry. -/
def Tbl.set {α : Type} [DecidableEq α] (dflt : α) (t : Tbl α) (k : Nat) (v : α) : Tbl α :=
  let rest := t.filter (fun e => decide (e.1 ≠ k))
  if v = dflt then rest else Tbl.ins rest k v

/-- Every key of the list is at least `lo`, keys rise strictly, and no entry holds the default. -/
def Tbl.wfFrom {α : Type} [DecidableEq α] (dflt : α) : Nat → Tbl α → Bool
  | _, [] => true
  | lo, (j, x) :: t => decide (lo ≤ j) && decide (x ≠ dflt) && Tbl.wfFrom dflt (j + 1) t

/-- The canonical form of a sparse map. -/
def Tbl.wf {α : Type} [DecidableEq α] (dflt : α) (t : Tbl α) : Bool := Tbl.wfFrom dflt 0 t

/-- The `i`-th element of a list, or a default. -/
def nth {α : Type} (dflt : α) : List α → Nat → α
  | [], _ => dflt
  | x :: _, 0 => x
  | _ :: t, n + 1 => nth dflt t n

/-- Replace the `i`-th element of a list; beyond its end nothing changes. -/
def setNth {α : Type} : List α → Nat → α → List α
  | [], _, _ => []
  | _ :: t, 0, v => v :: t
  | x :: t, n + 1, v => x :: setNth t n v

end Sys2Proof
end

