-- ==== Sys2Proof/Config.lean ====
section
/-! DEFINITION. What the Ikiok's manual leaves open, as uninterpreted constants, and the sizes it fixes. Nothing in Lean can
evaluate a free value: each is opaque and has no body. Every one has an entry in the assumption log. -/

namespace Sys2Proof.Config

/-- A value the manual leaves open, drawn afresh for each index (log entry 3). -/
opaque freeValue : Nat → BitVec 64

/-- A choice between two outcomes that the manual leaves open, for each index (log entry 21). -/
opaque freeChoice : Nat → Bool

/-- Which requests of the bundle that core `n` meets after real cycle `t` are not answered in the cycle they leave the core, by slot
(02_core.md R30; log entry 86). -/
opaque freeSlow : Nat → Nat → BitVec 4

/-- The key of the n-th key slot filled (12_context.md R304): the root of trust makes or unwraps it, so two may be equal (log entry 88). -/
opaque contextKey : Nat → Nat

/-- What a 16-byte piece written under one seal reads as under another: written, read, piece, bytes (12_context.md R304; log entry 88). -/
opaque scramble : Nat → Nat → Nat → BitVec 128 → BitVec 128

/-- Quarters fused out at factory test, by physical number (01_device.md R13, R21; log entry 89). -/
opaque fused : BitVec 18

/-- DEVINFO.STEP: non-zero, otherwise not specified (01_device.md Table 3; log entry 7). -/
opaque stepRaw : BitVec 8

/-- DEVID: drawn by the root of trust at reset `n` (13_inflight_record.md R322; log entry 25). -/
opaque devId : Nat → BitVec 32

/-- The fabric address the fabric-management agent assigns at bring-up (21_link.md R435; log entry 25). -/
opaque fabricAddr : Nat → BitVec 32

/-- SHA-384 digest of the firmware image that runs after reset `n` (22_reliability.md R458, R459; log entry 25). -/
opaque firmwareDigest : Nat → BitVec 384

/-- The two signatures of an attestation report over the bytes given as a number (22_reliability.md R457, R458;
log entry 24): index of a byte of the 64 + 3309 signature bytes. -/
opaque reportSignature : Nat → Nat → BitVec 8

/-- Security version of the firmware image that runs after reset `n` (22_reliability.md R458, R459; log entry 25). -/
opaque securityVersion : Nat → BitVec 32

/-- CRC of a flit: its channel, tree slot or stream number, sequence number and payload (21_link.md R435; log entry 117). -/
opaque flitCrc : Nat → Nat → BitVec 32 → BitVec 512 → BitVec 32

end Sys2Proof.Config
end

