-- ==== Sys2Proof/Syntax.lean ====
section
/-! DEFINITION. The operations and events of the Ikiok, one constructor for each row of the opcode table, with the operand forms
of spec/04_encoding.md R104 Table 2 and R111 Table 4. A slot operation carries its guard (predicate, negation, loop flag) and
its operand fields as the encoding holds them; a device event carries what picks the unit it happens at. -/

namespace Sys2Proof

/-- Rounding modes (03_numbers.md R77 Table 5). -/
inductive RMode where
  | rne | rtz | rup | rdn | rs
deriving DecidableEq, Repr

/-- The mode of a code; 5 to 7 name none (R77). -/
def RMode.ofCode : Nat → Option RMode
  | 0 => some .rne | 1 => some .rtz | 2 => some .rup | 3 => some .rdn | 4 => some .rs | _ => none

/-- The code of a mode (R77). -/
def RMode.code : RMode → BitVec 3
  | .rne => 0 | .rtz => 1 | .rup => 2 | .rdn => 3 | .rs => 4

/-- The loop flag LF of an extension byte (04_encoding.md R103). -/
inductive LoopFlag where
  | always | first | last
deriving DecidableEq, Repr

/-- Predicate field, NEG and LF of a slot (R103, R104). -/
structure Guard where
  p : BitVec 5
  neg : Bool
  flag : LoopFlag
deriving DecidableEq, Repr

/-- Format RR (R104), with SMODE and DNIL (R106, R107). -/
structure RR where
  d : BitVec 6
  s1 : BitVec 6
  s2 : BitVec 6
  mode : BitVec 3
  dnil : Bool
deriving DecidableEq, Repr

/-- Format RI: a 9-bit immediate as extended by the header rule of R105, and SM1. -/
structure RI where
  d : BitVec 6
  s1 : BitVec 6
  imm : BitVec 9
  sm1 : BitVec 2
deriving DecidableEq, Repr

/-- Format RRR: the third source stands in AUX. -/
structure RRR where
  d : BitVec 6
  s1 : BitVec 6
  s2 : BitVec 6
  s3 : BitVec 5
deriving DecidableEq, Repr

/-- Format I12: a 17-bit immediate. -/
structure I12 where
  d : BitVec 6
  imm : BitVec 17
deriving DecidableEq, Repr

/-- Format MEM (R110): data register, address register, address mode, offset in units. -/
structure MEM where
  data : BitVec 6
  a : BitVec 4
  am : BitVec 2
  off : BitVec 11
deriving DecidableEq, Repr

/-- Format J: an offset in bundles. -/
structure JO where
  off : BitVec 23
deriving DecidableEq, Repr

/-- Format JB. -/
structure JB where
  b : BitVec 3
  off : BitVec 20
deriving DecidableEq, Repr

/-- Format BT (R108): four tests with their negations, TB, NT and the loop flag. -/
structure BTO where
  t0 : BitVec 5
  t1 : BitVec 5
  t2 : BitVec 5
  t3 : BitVec 5
  n0 : Bool
  n1 : Bool
  n2 : Bool
  n3 : Bool
  tb : Bool
  nt : BitVec 2
  flag : LoopFlag
deriving DecidableEq, Repr

/-- Format LP. -/
structure LP where
  gc : BitVec 6
  gm : BitVec 6
  len : BitVec 8
deriving DecidableEq, Repr

/-- Format SYS. -/
structure SYS where
  g : BitVec 6
  reg : BitVec 12
deriving DecidableEq, Repr

/-- Format CV. -/
structure CV where
  d : BitVec 6
  s1 : BitVec 6
  part : BitVec 2
  sfmt : BitVec 4
  mode : BitVec 3
  dnil : Bool
deriving DecidableEq, Repr

/-- Format XC (R218). -/
structure XC where
  tile : BitVec 5
  reint : Bool
  a : BitVec 4
  am : BitVec 2
  g : BitVec 6
deriving DecidableEq, Repr

/-- Format XA (R235). -/
structure XA where
  d : BitVec 6
  a : BitVec 4
  am : BitVec 2
  s : BitVec 6
  s3 : BitVec 5
deriving DecidableEq, Repr

/-- Format XO. -/
structure XO where
  g : BitVec 6
  a : BitVec 4
  am : BitVec 2
  scope : BitVec 2
deriving DecidableEq, Repr

/-- MCFG (R111 Table 5). -/
structure MG where
  g : BitVec 6
deriving DecidableEq, Repr

/-- MZERO and MRESCHK. -/
structure MA where
  acc : BitVec 5
deriving DecidableEq, Repr

/-- MSNAP. -/
structure MSN where
  acc : BitVec 5
  row : BitVec 7
  v : BitVec 6
deriving DecidableEq, Repr

/-- MRESRD. -/
structure MRD where
  acc : BitVec 5
  g : BitVec 6
deriving DecidableEq, Repr

/-- MPUSH with WP = 0. -/
structure MPU where
  off : BitVec 13
deriving DecidableEq, Repr

/-- MSHIFT. -/
structure MSH where
  acc : BitVec 5
  rp : Bool
  row : BitVec 7
  v : BitVec 6
  half : Bool
  md : BitVec 2
deriving DecidableEq, Repr

/-- MDRAIN (PART) and MDRAINQ (QSET and HALF in the same three bits). -/
structure MDR where
  acc : BitVec 5
  rp : Bool
  row : BitVec 7
  v : BitVec 6
  part : BitVec 3
deriving DecidableEq, Repr

/-- The scalar and control operations, class 00 (R114 Table 6), the empty word apart. -/
inductive SInstr where
  | add (g : Guard) (o : RR)
  | sub (g : Guard) (o : RR)
  | addi (g : Guard) (o : RI)
  | mul (g : Guard) (o : RR)
  | mulh (g : Guard) (o : RR)
  | mulhn (g : Guard) (o : RR)
  | div (g : Guard) (o : RR)
  | divn (g : Guard) (o : RR)
  | rem (g : Guard) (o : RR)
  | remn (g : Guard) (o : RR)
  | and (g : Guard) (o : RR)
  | or (g : Guard) (o : RR)
  | xor (g : Guard) (o : RR)
  | andn (g : Guard) (o : RR)
  | shl (g : Guard) (o : RR)
  | shr (g : Guard) (o : RR)
  | sar (g : Guard) (o : RR)
  | shli (g : Guard) (o : RI)
  | shri (g : Guard) (o : RI)
  | sari (g : Guard) (o : RI)
  | rot (g : Guard) (o : RR)
  | clz (g : Guard) (o : RR)
  | popc (g : Guard) (o : RR)
  | min (g : Guard) (o : RR)
  | max (g : Guard) (o : RR)
  | minn (g : Guard) (o : RR)
  | maxn (g : Guard) (o : RR)
  | sel (g : Guard) (o : RRR)
  | li (g : Guard) (o : I12)
  | lih (g : Guard) (o : I12)
  | aadd (g : Guard) (o : RR)
  | cmpEq (g : Guard) (o : RR)
  | cmpNe (g : Guard) (o : RR)
  | cmpLt (g : Guard) (o : RR)
  | cmpLe (g : Guard) (o : RR)
  | cmpGt (g : Guard) (o : RR)
  | cmpGe (g : Guard) (o : RR)
  | cmpLtn (g : Guard) (o : RR)
  | cmpLen (g : Guard) (o : RR)
  | cmpGtn (g : Guard) (o : RR)
  | cmpGen (g : Guard) (o : RR)
  | pand (g : Guard) (o : RR)
  | por (g : Guard) (o : RR)
  | pxor (g : Guard) (o : RR)
  | pnot (g : Guard) (o : RR)
  | pmov (g : Guard) (o : RR)
  | amovAG (g : Guard) (o : RR)
  | amovGA (g : Guard) (o : RR)
  | amovAA (g : Guard) (o : RR)
  | ldI8 (g : Guard) (o : MEM)
  | ldN8 (g : Guard) (o : MEM)
  | ldI16 (g : Guard) (o : MEM)
  | ldN16 (g : Guard) (o : MEM)
  | ldI32 (g : Guard) (o : MEM)
  | ldN32 (g : Guard) (o : MEM)
  | ld64 (g : Guard) (o : MEM)
  | astr (g : Guard) (o : RR)
  | st8 (g : Guard) (o : MEM)
  | st16 (g : Guard) (o : MEM)
  | st32 (g : Guard) (o : MEM)
  | st64 (g : Guard) (o : MEM)
  | br (g : Guard) (o : JO)
  | bt (o : BTO)
  | movb (g : Guard) (o : JB)
  | call (g : Guard) (o : JO)
  | ret (g : Guard) (o : RR)
  | loop (g : Guard) (o : LP)
  | lbrk (g : Guard)
  | rotb (g : Guard) (o : RI)
  | stage (g : Guard) (o : RI)
  | halt (g : Guard)
  | quiet (g : Guard) (o : I12)
  | lendb (g : Guard) (o : RI)
  | retb (g : Guard) (o : RI)
  | srd (g : Guard) (o : SYS)
  | swr (g : Guard) (o : SYS)
  | trap (g : Guard) (o : I12)
  | trapen (g : Guard)
  | tret (g : Guard)
  | ctxstat (g : Guard) (o : RR)
  | ctxfreeze (g : Guard) (o : RR)
  | ctxfreezeSave (g : Guard) (o : RR)
  | ctxsave (g : Guard) (o : RR)
  | cutQuery (g : Guard) (o : RR)
  | cutStop (g : Guard) (o : RR)
  | ctxresume (g : Guard) (o : RR)
  | ctxrestoreResume (g : Guard) (o : RR)
  | ctxrestore (g : Guard) (o : RR)
  | wqpush (g : Guard) (o : RR)
  | wqpop (g : Guard) (o : RR)
  | wqclose (g : Guard) (o : RR)
  | wqreopen (g : Guard) (o : RR)
  | wqlen (g : Guard) (o : RR)
  | gpset (g : Guard) (o : RR)
  | gpget (g : Guard) (o : RR)
  | glaunch (g : Guard) (o : RR)
  | kdone (g : Guard) (o : RR)
  | grpid (g : Guard) (o : RR)
  | grpsize (g : Guard) (o : RR)
  | binitReset (g : Guard) (o : RR)
  | binitQuery (g : Guard) (o : RR)
  | barrive (g : Guard) (o : RR)
  | bwait (g : Guard) (o : RR)
  | btry (g : Guard) (o : RR)
  | wvbind (g : Guard) (o : RR)
  | wvunbind (g : Guard) (o : RR)
  | wvslot (g : Guard) (o : RR)
  | wvpublish (g : Guard) (o : RR)
  | wvread (g : Guard) (o : RR)
  | confx (g : Guard) (o : RR)
  | kvcommit (g : Guard) (o : RR)
  | kvmodeSet (g : Guard) (o : RR)
  | kvmodeGet (g : Guard) (o : RR)
  | kvmodeSpec (g : Guard) (o : RR)
  | kvmodeQuery (g : Guard) (o : RR)
  | lktree (g : Guard) (o : RR)
  | lkfree (g : Guard) (o : RR)
  | lkfreeCheck (g : Guard) (o : RR)
  | pgprobe (g : Guard) (o : RR)
  | pginvUpdate (g : Guard) (o : RR)
  | pginvMove (g : Guard) (o : RR)
deriving DecidableEq, Repr

/-- The vector operations, class 01 (R115 Table 7). -/
inductive VInstr where
  | vaddF32 (g : Guard) (rm : RMode) (o : RR)
  | vsubF32 (g : Guard) (rm : RMode) (o : RR)
  | vmulF32 (g : Guard) (rm : RMode) (o : RR)
  | vfmaF32 (g : Guard) (rm : RMode) (o : RR)
  | vfmsF32 (g : Guard) (rm : RMode) (o : RR)
  | vfnmaF32 (g : Guard) (rm : RMode) (o : RR)
  | vminF32 (g : Guard) (rm : RMode) (o : RR)
  | vmaxF32 (g : Guard) (rm : RMode) (o : RR)
  | vaddBf16 (g : Guard) (rm : RMode) (o : RR)
  | vsubBf16 (g : Guard) (rm : RMode) (o : RR)
  | vmulBf16 (g : Guard) (rm : RMode) (o : RR)
  | vfmaBf16 (g : Guard) (rm : RMode) (o : RR)
  | vfmsBf16 (g : Guard) (rm : RMode) (o : RR)
  | vfnmaBf16 (g : Guard) (rm : RMode) (o : RR)
  | vminBf16 (g : Guard) (rm : RMode) (o : RR)
  | vmaxBf16 (g : Guard) (rm : RMode) (o : RR)
  | vaddF16 (g : Guard) (rm : RMode) (o : RR)
  | vsubF16 (g : Guard) (rm : RMode) (o : RR)
  | vmulF16 (g : Guard) (rm : RMode) (o : RR)
  | vfmaF16 (g : Guard) (rm : RMode) (o : RR)
  | vfmsF16 (g : Guard) (rm : RMode) (o : RR)
  | vfnmaF16 (g : Guard) (rm : RMode) (o : RR)
  | vminF16 (g : Guard) (rm : RMode) (o : RR)
  | vmaxF16 (g : Guard) (rm : RMode) (o : RR)
  | vabsF32 (g : Guard) (o : RR)
  | vabsH (g : Guard) (o : RR)
  | vnegF32 (g : Guard) (o : RR)
  | vnegH (g : Guard) (o : RR)
  | vclassF32 (g : Guard) (o : RR)
  | vclassBf16 (g : Guard) (o : RR)
  | vclassF16 (g : Guard) (o : RR)
  | vfinF32 (g : Guard) (o : RR)
  | vfinBf16 (g : Guard) (o : RR)
  | vfinF16 (g : Guard) (o : RR)
  | vfinNfsF32 (g : Guard) (o : RR)
  | vfinNfsBf16 (g : Guard) (o : RR)
  | vfinNfsF16 (g : Guard) (o : RR)
  | vdivF32 (g : Guard) (rm : RMode) (o : RR)
  | vrcpF32 (g : Guard) (rm : RMode) (o : RR)
  | vrsqF32 (g : Guard) (rm : RMode) (o : RR)
  | vsqrtF32 (g : Guard) (rm : RMode) (o : RR)
  | vexp2F32 (g : Guard) (rm : RMode) (o : RR)
  | vlog2F32 (g : Guard) (rm : RMode) (o : RR)
  | vtanhF32 (g : Guard) (rm : RMode) (o : RR)
  | vdivBf16 (g : Guard) (rm : RMode) (o : RR)
  | vrcpBf16 (g : Guard) (rm : RMode) (o : RR)
  | vrsqBf16 (g : Guard) (rm : RMode) (o : RR)
  | vsqrtBf16 (g : Guard) (rm : RMode) (o : RR)
  | vexp2Bf16 (g : Guard) (rm : RMode) (o : RR)
  | vlog2Bf16 (g : Guard) (rm : RMode) (o : RR)
  | vtanhBf16 (g : Guard) (rm : RMode) (o : RR)
  | viadd32 (g : Guard) (o : RR)
  | viadd16 (g : Guard) (o : RR)
  | viadd8 (g : Guard) (o : RR)
  | visub32 (g : Guard) (o : RR)
  | visub16 (g : Guard) (o : RR)
  | visub8 (g : Guard) (o : RR)
  | vimul32 (g : Guard) (o : RR)
  | vimul16 (g : Guard) (o : RR)
  | vimulhI32 (g : Guard) (o : RR)
  | vimulhN32 (g : Guard) (o : RR)
  | viminI32 (g : Guard) (o : RR)
  | viminN32 (g : Guard) (o : RR)
  | viminI16 (g : Guard) (o : RR)
  | viminI8 (g : Guard) (o : RR)
  | vimaxI32 (g : Guard) (o : RR)
  | vimaxN32 (g : Guard) (o : RR)
  | vimaxI16 (g : Guard) (o : RR)
  | vimaxI8 (g : Guard) (o : RR)
  | vshl32 (g : Guard) (o : RR)
  | vshl16 (g : Guard) (o : RR)
  | vshr32 (g : Guard) (o : RR)
  | vshr16 (g : Guard) (o : RR)
  | vsar32 (g : Guard) (o : RR)
  | vsar16 (g : Guard) (o : RR)
  | vand (g : Guard) (o : RR)
  | vor (g : Guard) (o : RR)
  | vxor (g : Guard) (o : RR)
  | vmsel (g : Guard) (o : RRR)
  | vcmpI32 (g : Guard) (o : RR)
  | vcmpN32 (g : Guard) (o : RR)
  | vcmpF32 (g : Guard) (o : RR)
  | vcmpBf16 (g : Guard) (o : RR)
  | vcvtF32 (g : Guard) (rm : RMode) (o : CV)
  | vcvtBf16 (g : Guard) (rm : RMode) (o : CV)
  | vcvtF16 (g : Guard) (rm : RMode) (o : CV)
  | vcvtI8 (g : Guard) (rm : RMode) (o : CV)
  | vcvtN8 (g : Guard) (rm : RMode) (o : CV)
  | vcvtI16 (g : Guard) (rm : RMode) (o : CV)
  | vcvtN16 (g : Guard) (rm : RMode) (o : CV)
  | vcvtI32 (g : Guard) (rm : RMode) (o : CV)
  | vcvtN32 (g : Guard) (rm : RMode) (o : CV)
  | vsrnd (g : Guard) (o : CV)
  | vplsplit (g : Guard) (o : RR)
  | vpljoin (g : Guard) (o : RR)
  | voutapply (g : Guard) (o : RR)
  | vrsumF32 (g : Guard) (rm : RMode) (o : RR)
  | vrsumBf16 (g : Guard) (rm : RMode) (o : RR)
  | vrsumI32 (g : Guard) (rm : RMode) (o : RR)
  | vrmaxF32 (g : Guard) (rm : RMode) (o : RR)
  | vrmaxI32 (g : Guard) (rm : RMode) (o : RR)
  | vrminF32 (g : Guard) (rm : RMode) (o : RR)
  | vrminI32 (g : Guard) (rm : RMode) (o : RR)
  | vrargmaxF32 (g : Guard) (rm : RMode) (o : RR)
  | vperm (g : Guard) (o : RR)
  | vshuf (g : Guard) (o : RR)
  | vbcast (g : Guard) (o : RI)
  | vslide (g : Guard) (o : RI)
  | vzip (g : Guard) (o : RR)
  | vunzip (g : Guard) (o : RR)
  | vtrn4 (g : Guard) (o : RR)
  | vsmmerge (g : Guard) (o : RRR)
  | vrand (g : Guard) (o : RR)
  | vrandf (g : Guard) (o : RR)
  | vrnorm (g : Guard) (o : RR)
  | vrnormt (g : Guard) (o : RR)
  | vrseed (g : Guard) (o : RR)
  | vld (g : Guard) (o : MEM)
  | vst (g : Guard) (o : MEM)
  | vldg (g : Guard) (o : RR)
  | vsts (g : Guard) (o : RR)
  | vldpl (g : Guard) (o : MEM)
deriving DecidableEq, Repr

/-- The transfer operations, class 11 (R117 Table 8), XNOP apart. -/
inductive XInstr where
  | xcopyIn (g : Guard) (o : XC)
  | xcopyOut (g : Guard) (o : XC)
  | xcopyOutAcc (g : Guard) (o : XC)
  | xgather (g : Guard) (o : XC)
  | xscatter (g : Guard) (o : XC)
  | xwbfill (g : Guard) (o : XC)
  | xpref (g : Guard) (o : XC)
  | xsend (g : Guard) (o : RR)
  | xrecv (g : Guard) (o : RR)
  | xrecvaddF32 (g : Guard) (o : RR)
  | xrecvaddI32 (g : Guard) (o : RR)
  | xrecvaddBf16 (g : Guard) (o : RR)
  | xrld (g : Guard) (o : RR)
  | xrst (g : Guard) (o : RR)
  | xamoAdd32 (g : Guard) (o : XA)
  | xamoAdd64 (g : Guard) (o : XA)
  | xamoFaddF32 (g : Guard) (o : XA)
  | xamoMin32 (g : Guard) (o : XA)
  | xamoMin64 (g : Guard) (o : XA)
  | xamoMax32 (g : Guard) (o : XA)
  | xamoMax64 (g : Guard) (o : XA)
  | xamoMinn32 (g : Guard) (o : XA)
  | xamoMinn64 (g : Guard) (o : XA)
  | xamoMaxn32 (g : Guard) (o : XA)
  | xamoMaxn64 (g : Guard) (o : XA)
  | xamoAnd32 (g : Guard) (o : XA)
  | xamoAnd64 (g : Guard) (o : XA)
  | xamoOr32 (g : Guard) (o : XA)
  | xamoOr64 (g : Guard) (o : XA)
  | xamoXor32 (g : Guard) (o : XA)
  | xamoXor64 (g : Guard) (o : XA)
  | xamoSwap32 (g : Guard) (o : XA)
  | xamoSwap64 (g : Guard) (o : XA)
  | xamoCas32 (g : Guard) (o : XA)
  | xamoCas64 (g : Guard) (o : XA)
  | xfence (g : Guard) (o : XO)
  | xrel (g : Guard) (o : XO)
  | xacq (g : Guard) (o : XO)
  | xvld (g : Guard) (o : XA)
  | xnmc (g : Guard) (o : RR)
  | xnmfence (g : Guard)
  | xtagld (g : Guard) (o : RR)
  | xtagst (g : Guard) (o : RR)
  | tstate (g : Guard) (o : RR)
  | tlayoutClaim (g : Guard) (o : RR)
  | tlayoutRelabel (g : Guard) (o : RR)
  | tlayoutCheck (g : Guard) (o : RR)
  | trelease (g : Guard) (o : RR)
  | trjrec (g : Guard) (o : RR)
  | bfpost (g : Guard) (o : RR)
deriving DecidableEq, Repr

/-- The matrix operations, class 10 (R111). -/
inductive MInstr where
  | mcfgMode (g : Guard) (o : MG)
  | mcfgOutlier (g : Guard) (o : MG)
  | mcfgQset (g : Guard) (o : MG)
  | mcfgWbp (g : Guard) (o : MG)
  | mzero (g : Guard) (o : MA)
  | msnap (g : Guard) (o : MSN)
  | mresrd (g : Guard) (o : MRD)
  | mreschk (g : Guard) (o : MA)
  | mpush (g : Guard) (o : MPU)
  | mpushWp (g : Guard)
  | mswap (g : Guard)
  | mshift (g : Guard) (o : MSH)
  | mdrain (g : Guard) (o : MDR)
  | mdrainq (g : Guard) (o : MDR)
deriving DecidableEq, Repr

/-- An operation of a slot, by class; the empty word and XNOP stand apart. -/
inductive SlotInstr where
  | nop
  | xnop
  | s (i : SInstr)
  | v (i : VInstr)
  | x (i : XInstr)
  | m (i : MInstr)
deriving DecidableEq, Repr

/-- A flit (21_link.md R435): its header's virtual channel, tree slot or stream number, sequence number and CRC, and its payload. Where a
block of bulk traffic goes, its tag, and whether it is performed after every earlier write of the peer, go with it (log entry 117). -/
structure Flit where
  vc : Nat
  num : Nat
  seq : BitVec 32
  crc : BitVec 32
  data : BitVec 512
  ctx : Nat
  va : BitVec 64
  tag : BitVec 16
  rel : Bool
deriving DecidableEq, Repr

/-- What happens at the sampling service (R420, R474): it polls a registered block; the runtime registers a block, or withdraws one. -/
inductive SampleEv where
  | poll (i : Nat)
  | register (ctx : Nat) (addr : BitVec 64) (kiosk : Nat)
  | withdraw (i : Nat)
deriving DecidableEq, Repr

/-- What happens at a channel of a link port (R437, R439): a flit arrives, whose header has a tree slot or stream number, a sequence number
and a CRC; the port's next flit leaves; the peer acknowledges the channel's flits up to a sequence number, asks for one again, or returns
credits. -/
inductive LinkEv where
  | arrives (num : Nat) (seq crc : BitVec 32) (rel : Bool)
  | leaves
  | acked (seq : BitVec 32)
  | again (seq : BitVec 32)
  | credit (n : Nat)
deriving DecidableEq, Repr

/-- Who asks for a tree slot (R442): an LKTREE of this device, the slots in `others` being free on the other devices; or a peer, over a
port. -/
inductive TreeAsk where
  | here (others : BitVec 64)
  | peer (port : Nat)
deriving DecidableEq, Repr

/-- The rows of the opcode table. Rows without a word are device events (95_what_each_step_holds.md). -/
inductive Instr where
  | bundleIssue (core : Nat)
  | resultDue (core : Nat)
  | trapEntry (core : Nat) (cause : Nat) (val : Nat) (addr : Nat)
  | impreciseTrap (core : Nat)
  | clkTick (core : Nat)
  | beatDue (core : Nat)
  | rowReload (core : Nat) (tile : Nat)
  | parityError (core : Nat)
  | eccError (space : Nat) (addr : Nat) (src : Nat) (unc : Bool)
  | patrolScrub (blk : Nat) (outcome : Nat)
  | requestAnswer (core : Nat) (entry : Nat)
  | atomicAtHome (core : Nat) (entry : Nat)
  | replicaCommit (idx : Nat)
  | engineBlockConfirm (core : Nat) (entry : Nat)
  | engineResume (core : Nat) (entry : Nat)
  | commandComplete (core : Nat) (entry : Nat)
  | commandEndError (core : Nat) (entry : Nat) (cause : Nat)
  | sendLand (core : Nat) (entry : Nat)
  | xrelPerform (core : Nat) (entry : Nat)
  | fenceClear (core : Nat)
  | nmGroup (core : Nat) (entry : Nat) (unc : Bool)
  | nmCommandEnd (core : Nat) (entry : Nat)
  | shootdownAck (unit : Nat)
  | fbufGetWrite (get : Nat)
  | contextLoadDone (ctx : Nat)
  | contextLoadError (ctx : Nat)
  | partFrozen (ctx : Nat) (q : Nat)
  | saveDone (ctx : Nat)
  | saveFault (ctx : Nat)
  | restoreDone (ctx : Nat)
  | restoreFault (ctx : Nat)
  | scrubDone (ctx : Nat)
  | resumeReplay (core : Nat)
  | quarantine (die : Nat)
  | dcntWindowClear
  | launchRecordRead (k : Nat)
  | priorityAging (k : Nat) (cycles : Nat)
  | groupPlace (k : Nat)
  | groupLoaded (grp : Nat)
  | groupRetire (grp : Nat)
  | kernelComplete (k : Nat)
  | kernelAbort (k : Nat)
  | replayBegin (ctx : Nat) (graph : Nat)
  | replayEnd (ctx : Nat) (graph : Nat)
  | chunkOp (k : Nat) (op : Nat)
  | barrierArrival (core : Nat) (entry : Nat)
  | barrierMemberLeave (core : Nat)
  | publishCommit (ctx : Nat) (t : Nat)
  | readerLeave (idx : Nat)
  | repartitionComplete
  | slotRunGrant (core : Nat)
  | trrRecordWrite (core : Nat) (entry : Nat)
  | voidRecordWrite (idx : Nat)
  | samplingPoll (ev : SampleEv)
  | samplingPhase (i : Nat)
  | kvCompactionCopy (i : Nat)
  | kvCommitPoint (i : Nat)
  | sweeperJobAccept (core : Nat) (entry : Nat)
  | sweeperDispatch
  | sweeperJobComplete (i : Nat)
  | sweeperJobAbort (i : Nat)
  | portEnable (port : Nat)
  | portDisable (port : Nat)
  | portRetrain (port : Nat)
  | trainingUp (port : Nat) (peer : Nat)
  | trainingDegraded (port : Nat) (peer : Nat)
  | trainingFails (port : Nat)
  | errorRateExceeded (port : Nat)
  | peerLost (port : Nat)
  | flitReceive (port : Nat) (vc : Nat) (ctx : Nat) (va : BitVec 64) (data : BitVec 512) (tag : BitVec 16) (ev : LinkEv)
  | portStatusRead (port : Nat)
  | treeReserve (slot : Nat) (ask : TreeAsk) (ctx : Nat) (mode : Nat) (fmt : Nat) (ents : List (BitVec 128))
  | treeReserveAnswer (slot : Nat) (status : Nat) (idx : Nat)
  | hostDoorbell (fn : Nat) (put : Nat) (cmds : List (BitVec 512))
  | hostRegWrite (fn : Nat) (off : Nat) (val : BitVec 256)
  | create (fn : Nat) (cmd : BitVec 512)
  | destroy (fn : Nat) (cmd : BitVec 512)
  | wvdef (fn : Nat) (cmd : BitVec 512)
  | wvrem (fn : Nat) (cmd : BitVec 512)
  | ring (fn : Nat) (cmd : BitVec 512)
  | qcreate (fn : Nat) (cmd : BitVec 512)
  | graphrec (fn : Nat) (cmd : BitVec 512)
  | replay (fn : Nat) (cmd : BitVec 512)
  | launch (fn : Nat) (cmd : BitVec 512)
  | stream (fn : Nat) (cmd : BitVec 512)
  | streamEnd (i : Nat) (status : Nat) (off : Nat)
  | attestRequest
  | errorLogGetWrite (get : Nat)
  | powerMeasure (watts : Nat) (temp : Nat)
  | thermalTrip
  | deviceReset
  | bringupStep (ok : Bool)
  | lscaleWrite (g : Guard) (src : BitVec 6)
  | partWrite (g : Guard) (src : BitVec 6)
  | adoptWrite (g : Guard) (src : BitVec 6)
  | kvpolWrite (g : Guard) (src : BitVec 6)
  | lctlWrite (g : Guard) (src : BitVec 6)
  | lstatWrite (g : Guard) (n : Nat) (src : BitVec 6)
  | wmarkWrite (g : Guard) (n : Nat) (src : BitVec 6)
  | cdiagRead (g : Guard) (dst : BitVec 6)
  | hostMemoryAccess (fn : Nat) (addr : Nat) (write : Bool) (data : List (BitVec 8))
  | attestReportDone (ok : Bool)
  | moveCopyDone
  | copyNodeComplete (k : Nat)
  | nop
  | add (g : Guard) (o : RR)
  | sub (g : Guard) (o : RR)
  | addi (g : Guard) (o : RI)
  | mul (g : Guard) (o : RR)
  | mulh (g : Guard) (o : RR)
  | mulhn (g : Guard) (o : RR)
  | div (g : Guard) (o : RR)
  | divn (g : Guard) (o : RR)
  | rem (g : Guard) (o : RR)
  | remn (g : Guard) (o : RR)
  | and (g : Guard) (o : RR)
  | or (g : Guard) (o : RR)
  | xor (g : Guard) (o : RR)
  | andn (g : Guard) (o : RR)
  | shl (g : Guard) (o : RR)
  | shr (g : Guard) (o : RR)
  | sar (g : Guard) (o : RR)
  | shli (g : Guard) (o : RI)
  | shri (g : Guard) (o : RI)
  | sari (g : Guard) (o : RI)
  | rot (g : Guard) (o : RR)
  | clz (g : Guard) (o : RR)
  | popc (g : Guard) (o : RR)
  | min (g : Guard) (o : RR)
  | max (g : Guard) (o : RR)
  | minn (g : Guard) (o : RR)
  | maxn (g : Guard) (o : RR)
  | sel (g : Guard) (o : RRR)
  | li (g : Guard) (o : I12)
  | lih (g : Guard) (o : I12)
  | aadd (g : Guard) (o : RR)
  | cmpEq (g : Guard) (o : RR)
  | cmpNe (g : Guard) (o : RR)
  | cmpLt (g : Guard) (o : RR)
  | cmpLe (g : Guard) (o : RR)
  | cmpGt (g : Guard) (o : RR)
  | cmpGe (g : Guard) (o : RR)
  | cmpLtn (g : Guard) (o : RR)
  | cmpLen (g : Guard) (o : RR)
  | cmpGtn (g : Guard) (o : RR)
  | cmpGen (g : Guard) (o : RR)
  | pand (g : Guard) (o : RR)
  | por (g : Guard) (o : RR)
  | pxor (g : Guard) (o : RR)
  | pnot (g : Guard) (o : RR)
  | pmov (g : Guard) (o : RR)
  | amovAG (g : Guard) (o : RR)
  | amovGA (g : Guard) (o : RR)
  | amovAA (g : Guard) (o : RR)
  | ldI8 (g : Guard) (o : MEM)
  | ldN8 (g : Guard) (o : MEM)
  | ldI16 (g : Guard) (o : MEM)
  | ldN16 (g : Guard) (o : MEM)
  | ldI32 (g : Guard) (o : MEM)
  | ldN32 (g : Guard) (o : MEM)
  | ld64 (g : Guard) (o : MEM)
  | astr (g : Guard) (o : RR)
  | st8 (g : Guard) (o : MEM)
  | st16 (g : Guard) (o : MEM)
  | st32 (g : Guard) (o : MEM)
  | st64 (g : Guard) (o : MEM)
  | br (g : Guard) (o : JO)
  | bt (o : BTO)
  | movb (g : Guard) (o : JB)
  | call (g : Guard) (o : JO)
  | ret (g : Guard) (o : RR)
  | loop (g : Guard) (o : LP)
  | lbrk (g : Guard)
  | rotb (g : Guard) (o : RI)
  | stage (g : Guard) (o : RI)
  | halt (g : Guard)
  | quiet (g : Guard) (o : I12)
  | lendb (g : Guard) (o : RI)
  | retb (g : Guard) (o : RI)
  | srd (g : Guard) (o : SYS)
  | swr (g : Guard) (o : SYS)
  | trap (g : Guard) (o : I12)
  | trapen (g : Guard)
  | tret (g : Guard)
  | ctxstat (g : Guard) (o : RR)
  | ctxfreeze (g : Guard) (o : RR)
  | ctxfreezeSave (g : Guard) (o : RR)
  | ctxsave (g : Guard) (o : RR)
  | cutQuery (g : Guard) (o : RR)
  | cutStop (g : Guard) (o : RR)
  | ctxresume (g : Guard) (o : RR)
  | ctxrestoreResume (g : Guard) (o : RR)
  | ctxrestore (g : Guard) (o : RR)
  | wqpush (g : Guard) (o : RR)
  | wqpop (g : Guard) (o : RR)
  | wqclose (g : Guard) (o : RR)
  | wqreopen (g : Guard) (o : RR)
  | wqlen (g : Guard) (o : RR)
  | gpset (g : Guard) (o : RR)
  | gpget (g : Guard) (o : RR)
  | glaunch (g : Guard) (o : RR)
  | kdone (g : Guard) (o : RR)
  | grpid (g : Guard) (o : RR)
  | grpsize (g : Guard) (o : RR)
  | binitReset (g : Guard) (o : RR)
  | binitQuery (g : Guard) (o : RR)
  | barrive (g : Guard) (o : RR)
  | bwait (g : Guard) (o : RR)
  | btry (g : Guard) (o : RR)
  | wvbind (g : Guard) (o : RR)
  | wvunbind (g : Guard) (o : RR)
  | wvslot (g : Guard) (o : RR)
  | wvpublish (g : Guard) (o : RR)
  | wvread (g : Guard) (o : RR)
  | confx (g : Guard) (o : RR)
  | kvcommit (g : Guard) (o : RR)
  | kvmodeSet (g : Guard) (o : RR)
  | kvmodeGet (g : Guard) (o : RR)
  | kvmodeSpec (g : Guard) (o : RR)
  | kvmodeQuery (g : Guard) (o : RR)
  | lktree (g : Guard) (o : RR)
  | lkfree (g : Guard) (o : RR)
  | lkfreeCheck (g : Guard) (o : RR)
  | pgprobe (g : Guard) (o : RR)
  | pginvUpdate (g : Guard) (o : RR)
  | pginvMove (g : Guard) (o : RR)
  | vaddF32 (g : Guard) (rm : RMode) (o : RR)
  | vsubF32 (g : Guard) (rm : RMode) (o : RR)
  | vmulF32 (g : Guard) (rm : RMode) (o : RR)
  | vfmaF32 (g : Guard) (rm : RMode) (o : RR)
  | vfmsF32 (g : Guard) (rm : RMode) (o : RR)
  | vfnmaF32 (g : Guard) (rm : RMode) (o : RR)
  | vminF32 (g : Guard) (rm : RMode) (o : RR)
  | vmaxF32 (g : Guard) (rm : RMode) (o : RR)
  | vaddBf16 (g : Guard) (rm : RMode) (o : RR)
  | vsubBf16 (g : Guard) (rm : RMode) (o : RR)
  | vmulBf16 (g : Guard) (rm : RMode) (o : RR)
  | vfmaBf16 (g : Guard) (rm : RMode) (o : RR)
  | vfmsBf16 (g : Guard) (rm : RMode) (o : RR)
  | vfnmaBf16 (g : Guard) (rm : RMode) (o : RR)
  | vminBf16 (g : Guard) (rm : RMode) (o : RR)
  | vmaxBf16 (g : Guard) (rm : RMode) (o : RR)
  | vaddF16 (g : Guard) (rm : RMode) (o : RR)
  | vsubF16 (g : Guard) (rm : RMode) (o : RR)
  | vmulF16 (g : Guard) (rm : RMode) (o : RR)
  | vfmaF16 (g : Guard) (rm : RMode) (o : RR)
  | vfmsF16 (g : Guard) (rm : RMode) (o : RR)
  | vfnmaF16 (g : Guard) (rm : RMode) (o : RR)
  | vminF16 (g : Guard) (rm : RMode) (o : RR)
  | vmaxF16 (g : Guard) (rm : RMode) (o : RR)
  | vabsF32 (g : Guard) (o : RR)
  | vabsH (g : Guard) (o : RR)
  | vnegF32 (g : Guard) (o : RR)
  | vnegH (g : Guard) (o : RR)
  | vclassF32 (g : Guard) (o : RR)
  | vclassBf16 (g : Guard) (o : RR)
  | vclassF16 (g : Guard) (o : RR)
  | vfinF32 (g : Guard) (o : RR)
  | vfinBf16 (g : Guard) (o : RR)
  | vfinF16 (g : Guard) (o : RR)
  | vfinNfsF32 (g : Guard) (o : RR)
  | vfinNfsBf16 (g : Guard) (o : RR)
  | vfinNfsF16 (g : Guard) (o : RR)
  | vdivF32 (g : Guard) (rm : RMode) (o : RR)
  | vrcpF32 (g : Guard) (rm : RMode) (o : RR)
  | vrsqF32 (g : Guard) (rm : RMode) (o : RR)
  | vsqrtF32 (g : Guard) (rm : RMode) (o : RR)
  | vexp2F32 (g : Guard) (rm : RMode) (o : RR)
  | vlog2F32 (g : Guard) (rm : RMode) (o : RR)
  | vtanhF32 (g : Guard) (rm : RMode) (o : RR)
  | vdivBf16 (g : Guard) (rm : RMode) (o : RR)
  | vrcpBf16 (g : Guard) (rm : RMode) (o : RR)
  | vrsqBf16 (g : Guard) (rm : RMode) (o : RR)
  | vsqrtBf16 (g : Guard) (rm : RMode) (o : RR)
  | vexp2Bf16 (g : Guard) (rm : RMode) (o : RR)
  | vlog2Bf16 (g : Guard) (rm : RMode) (o : RR)
  | vtanhBf16 (g : Guard) (rm : RMode) (o : RR)
  | viadd32 (g : Guard) (o : RR)
  | viadd16 (g : Guard) (o : RR)
  | viadd8 (g : Guard) (o : RR)
  | visub32 (g : Guard) (o : RR)
  | visub16 (g : Guard) (o : RR)
  | visub8 (g : Guard) (o : RR)
  | vimul32 (g : Guard) (o : RR)
  | vimul16 (g : Guard) (o : RR)
  | vimulhI32 (g : Guard) (o : RR)
  | vimulhN32 (g : Guard) (o : RR)
  | viminI32 (g : Guard) (o : RR)
  | viminN32 (g : Guard) (o : RR)
  | viminI16 (g : Guard) (o : RR)
  | viminI8 (g : Guard) (o : RR)
  | vimaxI32 (g : Guard) (o : RR)
  | vimaxN32 (g : Guard) (o : RR)
  | vimaxI16 (g : Guard) (o : RR)
  | vimaxI8 (g : Guard) (o : RR)
  | vshl32 (g : Guard) (o : RR)
  | vshl16 (g : Guard) (o : RR)
  | vshr32 (g : Guard) (o : RR)
  | vshr16 (g : Guard) (o : RR)
  | vsar32 (g : Guard) (o : RR)
  | vsar16 (g : Guard) (o : RR)
  | vand (g : Guard) (o : RR)
  | vor (g : Guard) (o : RR)
  | vxor (g : Guard) (o : RR)
  | vmsel (g : Guard) (o : RRR)
  | vcmpI32 (g : Guard) (o : RR)
  | vcmpN32 (g : Guard) (o : RR)
  | vcmpF32 (g : Guard) (o : RR)
  | vcmpBf16 (g : Guard) (o : RR)
  | vcvtF32 (g : Guard) (rm : RMode) (o : CV)
  | vcvtBf16 (g : Guard) (rm : RMode) (o : CV)
  | vcvtF16 (g : Guard) (rm : RMode) (o : CV)
  | vcvtI8 (g : Guard) (rm : RMode) (o : CV)
  | vcvtN8 (g : Guard) (rm : RMode) (o : CV)
  | vcvtI16 (g : Guard) (rm : RMode) (o : CV)
  | vcvtN16 (g : Guard) (rm : RMode) (o : CV)
  | vcvtI32 (g : Guard) (rm : RMode) (o : CV)
  | vcvtN32 (g : Guard) (rm : RMode) (o : CV)
  | vsrnd (g : Guard) (o : CV)
  | vplsplit (g : Guard) (o : RR)
  | vpljoin (g : Guard) (o : RR)
  | voutapply (g : Guard) (o : RR)
  | vrsumF32 (g : Guard) (rm : RMode) (o : RR)
  | vrsumBf16 (g : Guard) (rm : RMode) (o : RR)
  | vrsumI32 (g : Guard) (rm : RMode) (o : RR)
  | vrmaxF32 (g : Guard) (rm : RMode) (o : RR)
  | vrmaxI32 (g : Guard) (rm : RMode) (o : RR)
  | vrminF32 (g : Guard) (rm : RMode) (o : RR)
  | vrminI32 (g : Guard) (rm : RMode) (o : RR)
  | vrargmaxF32 (g : Guard) (rm : RMode) (o : RR)
  | vperm (g : Guard) (o : RR)
  | vshuf (g : Guard) (o : RR)
  | vbcast (g : Guard) (o : RI)
  | vslide (g : Guard) (o : RI)
  | vzip (g : Guard) (o : RR)
  | vunzip (g : Guard) (o : RR)
  | vtrn4 (g : Guard) (o : RR)
  | vsmmerge (g : Guard) (o : RRR)
  | vrand (g : Guard) (o : RR)
  | vrandf (g : Guard) (o : RR)
  | vrnorm (g : Guard) (o : RR)
  | vrnormt (g : Guard) (o : RR)
  | vrseed (g : Guard) (o : RR)
  | vld (g : Guard) (o : MEM)
  | vst (g : Guard) (o : MEM)
  | vldg (g : Guard) (o : RR)
  | vsts (g : Guard) (o : RR)
  | vldpl (g : Guard) (o : MEM)
  | mcfgMode (g : Guard) (o : MG)
  | mcfgOutlier (g : Guard) (o : MG)
  | mcfgQset (g : Guard) (o : MG)
  | mcfgWbp (g : Guard) (o : MG)
  | mzero (g : Guard) (o : MA)
  | msnap (g : Guard) (o : MSN)
  | mresrd (g : Guard) (o : MRD)
  | mreschk (g : Guard) (o : MA)
  | mpush (g : Guard) (o : MPU)
  | mpushWp (g : Guard)
  | mswap (g : Guard)
  | mshift (g : Guard) (o : MSH)
  | mdrain (g : Guard) (o : MDR)
  | mdrainq (g : Guard) (o : MDR)
  | xnop
  | xcopyIn (g : Guard) (o : XC)
  | xcopyOut (g : Guard) (o : XC)
  | xcopyOutAcc (g : Guard) (o : XC)
  | xgather (g : Guard) (o : XC)
  | xscatter (g : Guard) (o : XC)
  | xwbfill (g : Guard) (o : XC)
  | xpref (g : Guard) (o : XC)
  | xsend (g : Guard) (o : RR)
  | xrecv (g : Guard) (o : RR)
  | xrecvaddF32 (g : Guard) (o : RR)
  | xrecvaddI32 (g : Guard) (o : RR)
  | xrecvaddBf16 (g : Guard) (o : RR)
  | xrld (g : Guard) (o : RR)
  | xrst (g : Guard) (o : RR)
  | xamoAdd32 (g : Guard) (o : XA)
  | xamoAdd64 (g : Guard) (o : XA)
  | xamoFaddF32 (g : Guard) (o : XA)
  | xamoMin32 (g : Guard) (o : XA)
  | xamoMin64 (g : Guard) (o : XA)
  | xamoMax32 (g : Guard) (o : XA)
  | xamoMax64 (g : Guard) (o : XA)
  | xamoMinn32 (g : Guard) (o : XA)
  | xamoMinn64 (g : Guard) (o : XA)
  | xamoMaxn32 (g : Guard) (o : XA)
  | xamoMaxn64 (g : Guard) (o : XA)
  | xamoAnd32 (g : Guard) (o : XA)
  | xamoAnd64 (g : Guard) (o : XA)
  | xamoOr32 (g : Guard) (o : XA)
  | xamoOr64 (g : Guard) (o : XA)
  | xamoXor32 (g : Guard) (o : XA)
  | xamoXor64 (g : Guard) (o : XA)
  | xamoSwap32 (g : Guard) (o : XA)
  | xamoSwap64 (g : Guard) (o : XA)
  | xamoCas32 (g : Guard) (o : XA)
  | xamoCas64 (g : Guard) (o : XA)
  | xfence (g : Guard) (o : XO)
  | xrel (g : Guard) (o : XO)
  | xacq (g : Guard) (o : XO)
  | xvld (g : Guard) (o : XA)
  | xnmc (g : Guard) (o : RR)
  | xnmfence (g : Guard)
  | xtagld (g : Guard) (o : RR)
  | xtagst (g : Guard) (o : RR)
  | tstate (g : Guard) (o : RR)
  | tlayoutClaim (g : Guard) (o : RR)
  | tlayoutRelabel (g : Guard) (o : RR)
  | tlayoutCheck (g : Guard) (o : RR)
  | trelease (g : Guard) (o : RR)
  | trjrec (g : Guard) (o : RR)
  | bfpost (g : Guard) (o : RR)
deriving DecidableEq, Repr

/-- The slot operation an instruction is; the rows for one special register are SWR or SRD words; a device event is none. -/
def Instr.slot : Instr → Option SlotInstr
  | .bundleIssue _ => none
  | .resultDue _ => none
  | .trapEntry _ _ _ _ => none
  | .impreciseTrap _ => none
  | .clkTick _ => none
  | .beatDue _ => none
  | .rowReload _ _ => none
  | .parityError _ => none
  | .eccError _ _ _ _ => none
  | .patrolScrub _ _ => none
  | .requestAnswer _ _ => none
  | .atomicAtHome _ _ => none
  | .replicaCommit _ => none
  | .engineBlockConfirm _ _ => none
  | .engineResume _ _ => none
  | .commandComplete _ _ => none
  | .commandEndError _ _ _ => none
  | .sendLand _ _ => none
  | .xrelPerform _ _ => none
  | .fenceClear _ => none
  | .nmGroup _ _ _ => none
  | .nmCommandEnd _ _ => none
  | .shootdownAck _ => none
  | .fbufGetWrite _ => none
  | .contextLoadDone _ => none
  | .contextLoadError _ => none
  | .partFrozen _ _ => none
  | .saveDone _ => none
  | .saveFault _ => none
  | .restoreDone _ => none
  | .restoreFault _ => none
  | .scrubDone _ => none
  | .resumeReplay _ => none
  | .quarantine _ => none
  | .dcntWindowClear => none
  | .launchRecordRead _ => none
  | .priorityAging _ _ => none
  | .groupPlace _ => none
  | .groupLoaded _ => none
  | .groupRetire _ => none
  | .kernelComplete _ => none
  | .kernelAbort _ => none
  | .replayBegin _ _ => none
  | .replayEnd _ _ => none
  | .chunkOp _ _ => none
  | .barrierArrival _ _ => none
  | .barrierMemberLeave _ => none
  | .publishCommit _ _ => none
  | .readerLeave _ => none
  | .repartitionComplete => none
  | .slotRunGrant _ => none
  | .trrRecordWrite _ _ => none
  | .voidRecordWrite _ => none
  | .samplingPoll _ => none
  | .samplingPhase _ => none
  | .kvCompactionCopy _ => none
  | .kvCommitPoint _ => none
  | .sweeperJobAccept _ _ => none
  | .sweeperDispatch => none
  | .sweeperJobComplete _ => none
  | .sweeperJobAbort _ => none
  | .portEnable _ => none
  | .portDisable _ => none
  | .portRetrain _ => none
  | .trainingUp _ _ => none
  | .trainingDegraded _ _ => none
  | .trainingFails _ => none
  | .errorRateExceeded _ => none
  | .peerLost _ => none
  | .flitReceive _ _ _ _ _ _ _ => none
  | .portStatusRead _ => none
  | .treeReserve _ _ _ _ _ _ => none
  | .treeReserveAnswer _ _ _ => none
  | .hostDoorbell _ _ _ => none
  | .hostRegWrite _ _ _ => none
  | .create _ _ => none
  | .destroy _ _ => none
  | .wvdef _ _ => none
  | .wvrem _ _ => none
  | .ring _ _ => none
  | .qcreate _ _ => none
  | .graphrec _ _ => none
  | .replay _ _ => none
  | .launch _ _ => none
  | .stream _ _ => none
  | .streamEnd _ _ _ => none
  | .attestRequest => none
  | .errorLogGetWrite _ => none
  | .powerMeasure _ _ => none
  | .thermalTrip => none
  | .deviceReset => none
  | .bringupStep _ => none
  | .lscaleWrite g src => some (.s (.swr g ⟨src, 0x020⟩))
  | .partWrite g src => some (.s (.swr g ⟨src, 0x101⟩))
  | .adoptWrite g src => some (.s (.swr g ⟨src, 0x100⟩))
  | .kvpolWrite g src => some (.s (.swr g ⟨src, 0x102⟩))
  | .lctlWrite g src => some (.s (.swr g ⟨src, 0x010⟩))
  | .lstatWrite g n src => some (.s (.swr g ⟨src, BitVec.ofNat 12 (0x011 + n % 6)⟩))
  | .wmarkWrite g n src => some (.s (.swr g ⟨src, BitVec.ofNat 12 (0x080 + n % 24)⟩))
  | .cdiagRead g dst => some (.s (.srd g ⟨dst, 0x001⟩))
  | .hostMemoryAccess _ _ _ _ => none
  | .attestReportDone _ => none
  | .moveCopyDone => none
  | .copyNodeComplete _ => none
  | .nop => some .nop
  | .add g o => some (.s (.add g o))
  | .sub g o => some (.s (.sub g o))
  | .addi g o => some (.s (.addi g o))
  | .mul g o => some (.s (.mul g o))
  | .mulh g o => some (.s (.mulh g o))
  | .mulhn g o => some (.s (.mulhn g o))
  | .div g o => some (.s (.div g o))
  | .divn g o => some (.s (.divn g o))
  | .rem g o => some (.s (.rem g o))
  | .remn g o => some (.s (.remn g o))
  | .and g o => some (.s (.and g o))
  | .or g o => some (.s (.or g o))
  | .xor g o => some (.s (.xor g o))
  | .andn g o => some (.s (.andn g o))
  | .shl g o => some (.s (.shl g o))
  | .shr g o => some (.s (.shr g o))
  | .sar g o => some (.s (.sar g o))
  | .shli g o => some (.s (.shli g o))
  | .shri g o => some (.s (.shri g o))
  | .sari g o => some (.s (.sari g o))
  | .rot g o => some (.s (.rot g o))
  | .clz g o => some (.s (.clz g o))
  | .popc g o => some (.s (.popc g o))
  | .min g o => some (.s (.min g o))
  | .max g o => some (.s (.max g o))
  | .minn g o => some (.s (.minn g o))
  | .maxn g o => some (.s (.maxn g o))
  | .sel g o => some (.s (.sel g o))
  | .li g o => some (.s (.li g o))
  | .lih g o => some (.s (.lih g o))
  | .aadd g o => some (.s (.aadd g o))
  | .cmpEq g o => some (.s (.cmpEq g o))
  | .cmpNe g o => some (.s (.cmpNe g o))
  | .cmpLt g o => some (.s (.cmpLt g o))
  | .cmpLe g o => some (.s (.cmpLe g o))
  | .cmpGt g o => some (.s (.cmpGt g o))
  | .cmpGe g o => some (.s (.cmpGe g o))
  | .cmpLtn g o => some (.s (.cmpLtn g o))
  | .cmpLen g o => some (.s (.cmpLen g o))
  | .cmpGtn g o => some (.s (.cmpGtn g o))
  | .cmpGen g o => some (.s (.cmpGen g o))
  | .pand g o => some (.s (.pand g o))
  | .por g o => some (.s (.por g o))
  | .pxor g o => some (.s (.pxor g o))
  | .pnot g o => some (.s (.pnot g o))
  | .pmov g o => some (.s (.pmov g o))
  | .amovAG g o => some (.s (.amovAG g o))
  | .amovGA g o => some (.s (.amovGA g o))
  | .amovAA g o => some (.s (.amovAA g o))
  | .ldI8 g o => some (.s (.ldI8 g o))
  | .ldN8 g o => some (.s (.ldN8 g o))
  | .ldI16 g o => some (.s (.ldI16 g o))
  | .ldN16 g o => some (.s (.ldN16 g o))
  | .ldI32 g o => some (.s (.ldI32 g o))
  | .ldN32 g o => some (.s (.ldN32 g o))
  | .ld64 g o => some (.s (.ld64 g o))
  | .astr g o => some (.s (.astr g o))
  | .st8 g o => some (.s (.st8 g o))
  | .st16 g o => some (.s (.st16 g o))
  | .st32 g o => some (.s (.st32 g o))
  | .st64 g o => some (.s (.st64 g o))
  | .br g o => some (.s (.br g o))
  | .bt o => some (.s (.bt o))
  | .movb g o => some (.s (.movb g o))
  | .call g o => some (.s (.call g o))
  | .ret g o => some (.s (.ret g o))
  | .loop g o => some (.s (.loop g o))
  | .lbrk g => some (.s (.lbrk g))
  | .rotb g o => some (.s (.rotb g o))
  | .stage g o => some (.s (.stage g o))
  | .halt g => some (.s (.halt g))
  | .quiet g o => some (.s (.quiet g o))
  | .lendb g o => some (.s (.lendb g o))
  | .retb g o => some (.s (.retb g o))
  | .srd g o => some (.s (.srd g o))
  | .swr g o => some (.s (.swr g o))
  | .trap g o => some (.s (.trap g o))
  | .trapen g => some (.s (.trapen g))
  | .tret g => some (.s (.tret g))
  | .ctxstat g o => some (.s (.ctxstat g o))
  | .ctxfreeze g o => some (.s (.ctxfreeze g o))
  | .ctxfreezeSave g o => some (.s (.ctxfreezeSave g o))
  | .ctxsave g o => some (.s (.ctxsave g o))
  | .cutQuery g o => some (.s (.cutQuery g o))
  | .cutStop g o => some (.s (.cutStop g o))
  | .ctxresume g o => some (.s (.ctxresume g o))
  | .ctxrestoreResume g o => some (.s (.ctxrestoreResume g o))
  | .ctxrestore g o => some (.s (.ctxrestore g o))
  | .wqpush g o => some (.s (.wqpush g o))
  | .wqpop g o => some (.s (.wqpop g o))
  | .wqclose g o => some (.s (.wqclose g o))
  | .wqreopen g o => some (.s (.wqreopen g o))
  | .wqlen g o => some (.s (.wqlen g o))
  | .gpset g o => some (.s (.gpset g o))
  | .gpget g o => some (.s (.gpget g o))
  | .glaunch g o => some (.s (.glaunch g o))
  | .kdone g o => some (.s (.kdone g o))
  | .grpid g o => some (.s (.grpid g o))
  | .grpsize g o => some (.s (.grpsize g o))
  | .binitReset g o => some (.s (.binitReset g o))
  | .binitQuery g o => some (.s (.binitQuery g o))
  | .barrive g o => some (.s (.barrive g o))
  | .bwait g o => some (.s (.bwait g o))
  | .btry g o => some (.s (.btry g o))
  | .wvbind g o => some (.s (.wvbind g o))
  | .wvunbind g o => some (.s (.wvunbind g o))
  | .wvslot g o => some (.s (.wvslot g o))
  | .wvpublish g o => some (.s (.wvpublish g o))
  | .wvread g o => some (.s (.wvread g o))
  | .confx g o => some (.s (.confx g o))
  | .kvcommit g o => some (.s (.kvcommit g o))
  | .kvmodeSet g o => some (.s (.kvmodeSet g o))
  | .kvmodeGet g o => some (.s (.kvmodeGet g o))
  | .kvmodeSpec g o => some (.s (.kvmodeSpec g o))
  | .kvmodeQuery g o => some (.s (.kvmodeQuery g o))
  | .lktree g o => some (.s (.lktree g o))
  | .lkfree g o => some (.s (.lkfree g o))
  | .lkfreeCheck g o => some (.s (.lkfreeCheck g o))
  | .pgprobe g o => some (.s (.pgprobe g o))
  | .pginvUpdate g o => some (.s (.pginvUpdate g o))
  | .pginvMove g o => some (.s (.pginvMove g o))
  | .vaddF32 g rm o => some (.v (.vaddF32 g rm o))
  | .vsubF32 g rm o => some (.v (.vsubF32 g rm o))
  | .vmulF32 g rm o => some (.v (.vmulF32 g rm o))
  | .vfmaF32 g rm o => some (.v (.vfmaF32 g rm o))
  | .vfmsF32 g rm o => some (.v (.vfmsF32 g rm o))
  | .vfnmaF32 g rm o => some (.v (.vfnmaF32 g rm o))
  | .vminF32 g rm o => some (.v (.vminF32 g rm o))
  | .vmaxF32 g rm o => some (.v (.vmaxF32 g rm o))
  | .vaddBf16 g rm o => some (.v (.vaddBf16 g rm o))
  | .vsubBf16 g rm o => some (.v (.vsubBf16 g rm o))
  | .vmulBf16 g rm o => some (.v (.vmulBf16 g rm o))
  | .vfmaBf16 g rm o => some (.v (.vfmaBf16 g rm o))
  | .vfmsBf16 g rm o => some (.v (.vfmsBf16 g rm o))
  | .vfnmaBf16 g rm o => some (.v (.vfnmaBf16 g rm o))
  | .vminBf16 g rm o => some (.v (.vminBf16 g rm o))
  | .vmaxBf16 g rm o => some (.v (.vmaxBf16 g rm o))
  | .vaddF16 g rm o => some (.v (.vaddF16 g rm o))
  | .vsubF16 g rm o => some (.v (.vsubF16 g rm o))
  | .vmulF16 g rm o => some (.v (.vmulF16 g rm o))
  | .vfmaF16 g rm o => some (.v (.vfmaF16 g rm o))
  | .vfmsF16 g rm o => some (.v (.vfmsF16 g rm o))
  | .vfnmaF16 g rm o => some (.v (.vfnmaF16 g rm o))
  | .vminF16 g rm o => some (.v (.vminF16 g rm o))
  | .vmaxF16 g rm o => some (.v (.vmaxF16 g rm o))
  | .vabsF32 g o => some (.v (.vabsF32 g o))
  | .vabsH g o => some (.v (.vabsH g o))
  | .vnegF32 g o => some (.v (.vnegF32 g o))
  | .vnegH g o => some (.v (.vnegH g o))
  | .vclassF32 g o => some (.v (.vclassF32 g o))
  | .vclassBf16 g o => some (.v (.vclassBf16 g o))
  | .vclassF16 g o => some (.v (.vclassF16 g o))
  | .vfinF32 g o => some (.v (.vfinF32 g o))
  | .vfinBf16 g o => some (.v (.vfinBf16 g o))
  | .vfinF16 g o => some (.v (.vfinF16 g o))
  | .vfinNfsF32 g o => some (.v (.vfinNfsF32 g o))
  | .vfinNfsBf16 g o => some (.v (.vfinNfsBf16 g o))
  | .vfinNfsF16 g o => some (.v (.vfinNfsF16 g o))
  | .vdivF32 g rm o => some (.v (.vdivF32 g rm o))
  | .vrcpF32 g rm o => some (.v (.vrcpF32 g rm o))
  | .vrsqF32 g rm o => some (.v (.vrsqF32 g rm o))
  | .vsqrtF32 g rm o => some (.v (.vsqrtF32 g rm o))
  | .vexp2F32 g rm o => some (.v (.vexp2F32 g rm o))
  | .vlog2F32 g rm o => some (.v (.vlog2F32 g rm o))
  | .vtanhF32 g rm o => some (.v (.vtanhF32 g rm o))
  | .vdivBf16 g rm o => some (.v (.vdivBf16 g rm o))
  | .vrcpBf16 g rm o => some (.v (.vrcpBf16 g rm o))
  | .vrsqBf16 g rm o => some (.v (.vrsqBf16 g rm o))
  | .vsqrtBf16 g rm o => some (.v (.vsqrtBf16 g rm o))
  | .vexp2Bf16 g rm o => some (.v (.vexp2Bf16 g rm o))
  | .vlog2Bf16 g rm o => some (.v (.vlog2Bf16 g rm o))
  | .vtanhBf16 g rm o => some (.v (.vtanhBf16 g rm o))
  | .viadd32 g o => some (.v (.viadd32 g o))
  | .viadd16 g o => some (.v (.viadd16 g o))
  | .viadd8 g o => some (.v (.viadd8 g o))
  | .visub32 g o => some (.v (.visub32 g o))
  | .visub16 g o => some (.v (.visub16 g o))
  | .visub8 g o => some (.v (.visub8 g o))
  | .vimul32 g o => some (.v (.vimul32 g o))
  | .vimul16 g o => some (.v (.vimul16 g o))
  | .vimulhI32 g o => some (.v (.vimulhI32 g o))
  | .vimulhN32 g o => some (.v (.vimulhN32 g o))
  | .viminI32 g o => some (.v (.viminI32 g o))
  | .viminN32 g o => some (.v (.viminN32 g o))
  | .viminI16 g o => some (.v (.viminI16 g o))
  | .viminI8 g o => some (.v (.viminI8 g o))
  | .vimaxI32 g o => some (.v (.vimaxI32 g o))
  | .vimaxN32 g o => some (.v (.vimaxN32 g o))
  | .vimaxI16 g o => some (.v (.vimaxI16 g o))
  | .vimaxI8 g o => some (.v (.vimaxI8 g o))
  | .vshl32 g o => some (.v (.vshl32 g o))
  | .vshl16 g o => some (.v (.vshl16 g o))
  | .vshr32 g o => some (.v (.vshr32 g o))
  | .vshr16 g o => some (.v (.vshr16 g o))
  | .vsar32 g o => some (.v (.vsar32 g o))
  | .vsar16 g o => some (.v (.vsar16 g o))
  | .vand g o => some (.v (.vand g o))
  | .vor g o => some (.v (.vor g o))
  | .vxor g o => some (.v (.vxor g o))
  | .vmsel g o => some (.v (.vmsel g o))
  | .vcmpI32 g o => some (.v (.vcmpI32 g o))
  | .vcmpN32 g o => some (.v (.vcmpN32 g o))
  | .vcmpF32 g o => some (.v (.vcmpF32 g o))
  | .vcmpBf16 g o => some (.v (.vcmpBf16 g o))
  | .vcvtF32 g rm o => some (.v (.vcvtF32 g rm o))
  | .vcvtBf16 g rm o => some (.v (.vcvtBf16 g rm o))
  | .vcvtF16 g rm o => some (.v (.vcvtF16 g rm o))
  | .vcvtI8 g rm o => some (.v (.vcvtI8 g rm o))
  | .vcvtN8 g rm o => some (.v (.vcvtN8 g rm o))
  | .vcvtI16 g rm o => some (.v (.vcvtI16 g rm o))
  | .vcvtN16 g rm o => some (.v (.vcvtN16 g rm o))
  | .vcvtI32 g rm o => some (.v (.vcvtI32 g rm o))
  | .vcvtN32 g rm o => some (.v (.vcvtN32 g rm o))
  | .vsrnd g o => some (.v (.vsrnd g o))
  | .vplsplit g o => some (.v (.vplsplit g o))
  | .vpljoin g o => some (.v (.vpljoin g o))
  | .voutapply g o => some (.v (.voutapply g o))
  | .vrsumF32 g rm o => some (.v (.vrsumF32 g rm o))
  | .vrsumBf16 g rm o => some (.v (.vrsumBf16 g rm o))
  | .vrsumI32 g rm o => some (.v (.vrsumI32 g rm o))
  | .vrmaxF32 g rm o => some (.v (.vrmaxF32 g rm o))
  | .vrmaxI32 g rm o => some (.v (.vrmaxI32 g rm o))
  | .vrminF32 g rm o => some (.v (.vrminF32 g rm o))
  | .vrminI32 g rm o => some (.v (.vrminI32 g rm o))
  | .vrargmaxF32 g rm o => some (.v (.vrargmaxF32 g rm o))
  | .vperm g o => some (.v (.vperm g o))
  | .vshuf g o => some (.v (.vshuf g o))
  | .vbcast g o => some (.v (.vbcast g o))
  | .vslide g o => some (.v (.vslide g o))
  | .vzip g o => some (.v (.vzip g o))
  | .vunzip g o => some (.v (.vunzip g o))
  | .vtrn4 g o => some (.v (.vtrn4 g o))
  | .vsmmerge g o => some (.v (.vsmmerge g o))
  | .vrand g o => some (.v (.vrand g o))
  | .vrandf g o => some (.v (.vrandf g o))
  | .vrnorm g o => some (.v (.vrnorm g o))
  | .vrnormt g o => some (.v (.vrnormt g o))
  | .vrseed g o => some (.v (.vrseed g o))
  | .vld g o => some (.v (.vld g o))
  | .vst g o => some (.v (.vst g o))
  | .vldg g o => some (.v (.vldg g o))
  | .vsts g o => some (.v (.vsts g o))
  | .vldpl g o => some (.v (.vldpl g o))
  | .mcfgMode g o => some (.m (.mcfgMode g o))
  | .mcfgOutlier g o => some (.m (.mcfgOutlier g o))
  | .mcfgQset g o => some (.m (.mcfgQset g o))
  | .mcfgWbp g o => some (.m (.mcfgWbp g o))
  | .mzero g o => some (.m (.mzero g o))
  | .msnap g o => some (.m (.msnap g o))
  | .mresrd g o => some (.m (.mresrd g o))
  | .mreschk g o => some (.m (.mreschk g o))
  | .mpush g o => some (.m (.mpush g o))
  | .mpushWp g => some (.m (.mpushWp g))
  | .mswap g => some (.m (.mswap g))
  | .mshift g o => some (.m (.mshift g o))
  | .mdrain g o => some (.m (.mdrain g o))
  | .mdrainq g o => some (.m (.mdrainq g o))
  | .xnop => some .xnop
  | .xcopyIn g o => some (.x (.xcopyIn g o))
  | .xcopyOut g o => some (.x (.xcopyOut g o))
  | .xcopyOutAcc g o => some (.x (.xcopyOutAcc g o))
  | .xgather g o => some (.x (.xgather g o))
  | .xscatter g o => some (.x (.xscatter g o))
  | .xwbfill g o => some (.x (.xwbfill g o))
  | .xpref g o => some (.x (.xpref g o))
  | .xsend g o => some (.x (.xsend g o))
  | .xrecv g o => some (.x (.xrecv g o))
  | .xrecvaddF32 g o => some (.x (.xrecvaddF32 g o))
  | .xrecvaddI32 g o => some (.x (.xrecvaddI32 g o))
  | .xrecvaddBf16 g o => some (.x (.xrecvaddBf16 g o))
  | .xrld g o => some (.x (.xrld g o))
  | .xrst g o => some (.x (.xrst g o))
  | .xamoAdd32 g o => some (.x (.xamoAdd32 g o))
  | .xamoAdd64 g o => some (.x (.xamoAdd64 g o))
  | .xamoFaddF32 g o => some (.x (.xamoFaddF32 g o))
  | .xamoMin32 g o => some (.x (.xamoMin32 g o))
  | .xamoMin64 g o => some (.x (.xamoMin64 g o))
  | .xamoMax32 g o => some (.x (.xamoMax32 g o))
  | .xamoMax64 g o => some (.x (.xamoMax64 g o))
  | .xamoMinn32 g o => some (.x (.xamoMinn32 g o))
  | .xamoMinn64 g o => some (.x (.xamoMinn64 g o))
  | .xamoMaxn32 g o => some (.x (.xamoMaxn32 g o))
  | .xamoMaxn64 g o => some (.x (.xamoMaxn64 g o))
  | .xamoAnd32 g o => some (.x (.xamoAnd32 g o))
  | .xamoAnd64 g o => some (.x (.xamoAnd64 g o))
  | .xamoOr32 g o => some (.x (.xamoOr32 g o))
  | .xamoOr64 g o => some (.x (.xamoOr64 g o))
  | .xamoXor32 g o => some (.x (.xamoXor32 g o))
  | .xamoXor64 g o => some (.x (.xamoXor64 g o))
  | .xamoSwap32 g o => some (.x (.xamoSwap32 g o))
  | .xamoSwap64 g o => some (.x (.xamoSwap64 g o))
  | .xamoCas32 g o => some (.x (.xamoCas32 g o))
  | .xamoCas64 g o => some (.x (.xamoCas64 g o))
  | .xfence g o => some (.x (.xfence g o))
  | .xrel g o => some (.x (.xrel g o))
  | .xacq g o => some (.x (.xacq g o))
  | .xvld g o => some (.x (.xvld g o))
  | .xnmc g o => some (.x (.xnmc g o))
  | .xnmfence g => some (.x (.xnmfence g))
  | .xtagld g o => some (.x (.xtagld g o))
  | .xtagst g o => some (.x (.xtagst g o))
  | .tstate g o => some (.x (.tstate g o))
  | .tlayoutClaim g o => some (.x (.tlayoutClaim g o))
  | .tlayoutRelabel g o => some (.x (.tlayoutRelabel g o))
  | .tlayoutCheck g o => some (.x (.tlayoutCheck g o))
  | .trelease g o => some (.x (.trelease g o))
  | .trjrec g o => some (.x (.trjrec g o))
  | .bfpost g o => some (.x (.bfpost g o))

/-- The row of a class S operation. -/
noncomputable def SInstr.instr : SInstr → Instr
  | .add g o => .add g o
  | .sub g o => .sub g o
  | .addi g o => .addi g o
  | .mul g o => .mul g o
  | .mulh g o => .mulh g o
  | .mulhn g o => .mulhn g o
  | .div g o => .div g o
  | .divn g o => .divn g o
  | .rem g o => .rem g o
  | .remn g o => .remn g o
  | .and g o => .and g o
  | .or g o => .or g o
  | .xor g o => .xor g o
  | .andn g o => .andn g o
  | .shl g o => .shl g o
  | .shr g o => .shr g o
  | .sar g o => .sar g o
  | .shli g o => .shli g o
  | .shri g o => .shri g o
  | .sari g o => .sari g o
  | .rot g o => .rot g o
  | .clz g o => .clz g o
  | .popc g o => .popc g o
  | .min g o => .min g o
  | .max g o => .max g o
  | .minn g o => .minn g o
  | .maxn g o => .maxn g o
  | .sel g o => .sel g o
  | .li g o => .li g o
  | .lih g o => .lih g o
  | .aadd g o => .aadd g o
  | .cmpEq g o => .cmpEq g o
  | .cmpNe g o => .cmpNe g o
  | .cmpLt g o => .cmpLt g o
  | .cmpLe g o => .cmpLe g o
  | .cmpGt g o => .cmpGt g o
  | .cmpGe g o => .cmpGe g o
  | .cmpLtn g o => .cmpLtn g o
  | .cmpLen g o => .cmpLen g o
  | .cmpGtn g o => .cmpGtn g o
  | .cmpGen g o => .cmpGen g o
  | .pand g o => .pand g o
  | .por g o => .por g o
  | .pxor g o => .pxor g o
  | .pnot g o => .pnot g o
  | .pmov g o => .pmov g o
  | .amovAG g o => .amovAG g o
  | .amovGA g o => .amovGA g o
  | .amovAA g o => .amovAA g o
  | .ldI8 g o => .ldI8 g o
  | .ldN8 g o => .ldN8 g o
  | .ldI16 g o => .ldI16 g o
  | .ldN16 g o => .ldN16 g o
  | .ldI32 g o => .ldI32 g o
  | .ldN32 g o => .ldN32 g o
  | .ld64 g o => .ld64 g o
  | .astr g o => .astr g o
  | .st8 g o => .st8 g o
  | .st16 g o => .st16 g o
  | .st32 g o => .st32 g o
  | .st64 g o => .st64 g o
  | .br g o => .br g o
  | .bt o => .bt o
  | .movb g o => .movb g o
  | .call g o => .call g o
  | .ret g o => .ret g o
  | .loop g o => .loop g o
  | .lbrk g => .lbrk g
  | .rotb g o => .rotb g o
  | .stage g o => .stage g o
  | .halt g => .halt g
  | .quiet g o => .quiet g o
  | .lendb g o => .lendb g o
  | .retb g o => .retb g o
  | .srd g o => .srd g o
  | .swr g o => .swr g o
  | .trap g o => .trap g o
  | .trapen g => .trapen g
  | .tret g => .tret g
  | .ctxstat g o => .ctxstat g o
  | .ctxfreeze g o => .ctxfreeze g o
  | .ctxfreezeSave g o => .ctxfreezeSave g o
  | .ctxsave g o => .ctxsave g o
  | .cutQuery g o => .cutQuery g o
  | .cutStop g o => .cutStop g o
  | .ctxresume g o => .ctxresume g o
  | .ctxrestoreResume g o => .ctxrestoreResume g o
  | .ctxrestore g o => .ctxrestore g o
  | .wqpush g o => .wqpush g o
  | .wqpop g o => .wqpop g o
  | .wqclose g o => .wqclose g o
  | .wqreopen g o => .wqreopen g o
  | .wqlen g o => .wqlen g o
  | .gpset g o => .gpset g o
  | .gpget g o => .gpget g o
  | .glaunch g o => .glaunch g o
  | .kdone g o => .kdone g o
  | .grpid g o => .grpid g o
  | .grpsize g o => .grpsize g o
  | .binitReset g o => .binitReset g o
  | .binitQuery g o => .binitQuery g o
  | .barrive g o => .barrive g o
  | .bwait g o => .bwait g o
  | .btry g o => .btry g o
  | .wvbind g o => .wvbind g o
  | .wvunbind g o => .wvunbind g o
  | .wvslot g o => .wvslot g o
  | .wvpublish g o => .wvpublish g o
  | .wvread g o => .wvread g o
  | .confx g o => .confx g o
  | .kvcommit g o => .kvcommit g o
  | .kvmodeSet g o => .kvmodeSet g o
  | .kvmodeGet g o => .kvmodeGet g o
  | .kvmodeSpec g o => .kvmodeSpec g o
  | .kvmodeQuery g o => .kvmodeQuery g o
  | .lktree g o => .lktree g o
  | .lkfree g o => .lkfree g o
  | .lkfreeCheck g o => .lkfreeCheck g o
  | .pgprobe g o => .pgprobe g o
  | .pginvUpdate g o => .pginvUpdate g o
  | .pginvMove g o => .pginvMove g o

/-- The row of a class V operation. -/
noncomputable def VInstr.instr : VInstr → Instr
  | .vaddF32 g rm o => .vaddF32 g rm o
  | .vsubF32 g rm o => .vsubF32 g rm o
  | .vmulF32 g rm o => .vmulF32 g rm o
  | .vfmaF32 g rm o => .vfmaF32 g rm o
  | .vfmsF32 g rm o => .vfmsF32 g rm o
  | .vfnmaF32 g rm o => .vfnmaF32 g rm o
  | .vminF32 g rm o => .vminF32 g rm o
  | .vmaxF32 g rm o => .vmaxF32 g rm o
  | .vaddBf16 g rm o => .vaddBf16 g rm o
  | .vsubBf16 g rm o => .vsubBf16 g rm o
  | .vmulBf16 g rm o => .vmulBf16 g rm o
  | .vfmaBf16 g rm o => .vfmaBf16 g rm o
  | .vfmsBf16 g rm o => .vfmsBf16 g rm o
  | .vfnmaBf16 g rm o => .vfnmaBf16 g rm o
  | .vminBf16 g rm o => .vminBf16 g rm o
  | .vmaxBf16 g rm o => .vmaxBf16 g rm o
  | .vaddF16 g rm o => .vaddF16 g rm o
  | .vsubF16 g rm o => .vsubF16 g rm o
  | .vmulF16 g rm o => .vmulF16 g rm o
  | .vfmaF16 g rm o => .vfmaF16 g rm o
  | .vfmsF16 g rm o => .vfmsF16 g rm o
  | .vfnmaF16 g rm o => .vfnmaF16 g rm o
  | .vminF16 g rm o => .vminF16 g rm o
  | .vmaxF16 g rm o => .vmaxF16 g rm o
  | .vabsF32 g o => .vabsF32 g o
  | .vabsH g o => .vabsH g o
  | .vnegF32 g o => .vnegF32 g o
  | .vnegH g o => .vnegH g o
  | .vclassF32 g o => .vclassF32 g o
  | .vclassBf16 g o => .vclassBf16 g o
  | .vclassF16 g o => .vclassF16 g o
  | .vfinF32 g o => .vfinF32 g o
  | .vfinBf16 g o => .vfinBf16 g o
  | .vfinF16 g o => .vfinF16 g o
  | .vfinNfsF32 g o => .vfinNfsF32 g o
  | .vfinNfsBf16 g o => .vfinNfsBf16 g o
  | .vfinNfsF16 g o => .vfinNfsF16 g o
  | .vdivF32 g rm o => .vdivF32 g rm o
  | .vrcpF32 g rm o => .vrcpF32 g rm o
  | .vrsqF32 g rm o => .vrsqF32 g rm o
  | .vsqrtF32 g rm o => .vsqrtF32 g rm o
  | .vexp2F32 g rm o => .vexp2F32 g rm o
  | .vlog2F32 g rm o => .vlog2F32 g rm o
  | .vtanhF32 g rm o => .vtanhF32 g rm o
  | .vdivBf16 g rm o => .vdivBf16 g rm o
  | .vrcpBf16 g rm o => .vrcpBf16 g rm o
  | .vrsqBf16 g rm o => .vrsqBf16 g rm o
  | .vsqrtBf16 g rm o => .vsqrtBf16 g rm o
  | .vexp2Bf16 g rm o => .vexp2Bf16 g rm o
  | .vlog2Bf16 g rm o => .vlog2Bf16 g rm o
  | .vtanhBf16 g rm o => .vtanhBf16 g rm o
  | .viadd32 g o => .viadd32 g o
  | .viadd16 g o => .viadd16 g o
  | .viadd8 g o => .viadd8 g o
  | .visub32 g o => .visub32 g o
  | .visub16 g o => .visub16 g o
  | .visub8 g o => .visub8 g o
  | .vimul32 g o => .vimul32 g o
  | .vimul16 g o => .vimul16 g o
  | .vimulhI32 g o => .vimulhI32 g o
  | .vimulhN32 g o => .vimulhN32 g o
  | .viminI32 g o => .viminI32 g o
  | .viminN32 g o => .viminN32 g o
  | .viminI16 g o => .viminI16 g o
  | .viminI8 g o => .viminI8 g o
  | .vimaxI32 g o => .vimaxI32 g o
  | .vimaxN32 g o => .vimaxN32 g o
  | .vimaxI16 g o => .vimaxI16 g o
  | .vimaxI8 g o => .vimaxI8 g o
  | .vshl32 g o => .vshl32 g o
  | .vshl16 g o => .vshl16 g o
  | .vshr32 g o => .vshr32 g o
  | .vshr16 g o => .vshr16 g o
  | .vsar32 g o => .vsar32 g o
  | .vsar16 g o => .vsar16 g o
  | .vand g o => .vand g o
  | .vor g o => .vor g o
  | .vxor g o => .vxor g o
  | .vmsel g o => .vmsel g o
  | .vcmpI32 g o => .vcmpI32 g o
  | .vcmpN32 g o => .vcmpN32 g o
  | .vcmpF32 g o => .vcmpF32 g o
  | .vcmpBf16 g o => .vcmpBf16 g o
  | .vcvtF32 g rm o => .vcvtF32 g rm o
  | .vcvtBf16 g rm o => .vcvtBf16 g rm o
  | .vcvtF16 g rm o => .vcvtF16 g rm o
  | .vcvtI8 g rm o => .vcvtI8 g rm o
  | .vcvtN8 g rm o => .vcvtN8 g rm o
  | .vcvtI16 g rm o => .vcvtI16 g rm o
  | .vcvtN16 g rm o => .vcvtN16 g rm o
  | .vcvtI32 g rm o => .vcvtI32 g rm o
  | .vcvtN32 g rm o => .vcvtN32 g rm o
  | .vsrnd g o => .vsrnd g o
  | .vplsplit g o => .vplsplit g o
  | .vpljoin g o => .vpljoin g o
  | .voutapply g o => .voutapply g o
  | .vrsumF32 g rm o => .vrsumF32 g rm o
  | .vrsumBf16 g rm o => .vrsumBf16 g rm o
  | .vrsumI32 g rm o => .vrsumI32 g rm o
  | .vrmaxF32 g rm o => .vrmaxF32 g rm o
  | .vrmaxI32 g rm o => .vrmaxI32 g rm o
  | .vrminF32 g rm o => .vrminF32 g rm o
  | .vrminI32 g rm o => .vrminI32 g rm o
  | .vrargmaxF32 g rm o => .vrargmaxF32 g rm o
  | .vperm g o => .vperm g o
  | .vshuf g o => .vshuf g o
  | .vbcast g o => .vbcast g o
  | .vslide g o => .vslide g o
  | .vzip g o => .vzip g o
  | .vunzip g o => .vunzip g o
  | .vtrn4 g o => .vtrn4 g o
  | .vsmmerge g o => .vsmmerge g o
  | .vrand g o => .vrand g o
  | .vrandf g o => .vrandf g o
  | .vrnorm g o => .vrnorm g o
  | .vrnormt g o => .vrnormt g o
  | .vrseed g o => .vrseed g o
  | .vld g o => .vld g o
  | .vst g o => .vst g o
  | .vldg g o => .vldg g o
  | .vsts g o => .vsts g o
  | .vldpl g o => .vldpl g o

/-- The row of a class X operation. -/
noncomputable def XInstr.instr : XInstr → Instr
  | .xcopyIn g o => .xcopyIn g o
  | .xcopyOut g o => .xcopyOut g o
  | .xcopyOutAcc g o => .xcopyOutAcc g o
  | .xgather g o => .xgather g o
  | .xscatter g o => .xscatter g o
  | .xwbfill g o => .xwbfill g o
  | .xpref g o => .xpref g o
  | .xsend g o => .xsend g o
  | .xrecv g o => .xrecv g o
  | .xrecvaddF32 g o => .xrecvaddF32 g o
  | .xrecvaddI32 g o => .xrecvaddI32 g o
  | .xrecvaddBf16 g o => .xrecvaddBf16 g o
  | .xrld g o => .xrld g o
  | .xrst g o => .xrst g o
  | .xamoAdd32 g o => .xamoAdd32 g o
  | .xamoAdd64 g o => .xamoAdd64 g o
  | .xamoFaddF32 g o => .xamoFaddF32 g o
  | .xamoMin32 g o => .xamoMin32 g o
  | .xamoMin64 g o => .xamoMin64 g o
  | .xamoMax32 g o => .xamoMax32 g o
  | .xamoMax64 g o => .xamoMax64 g o
  | .xamoMinn32 g o => .xamoMinn32 g o
  | .xamoMinn64 g o => .xamoMinn64 g o
  | .xamoMaxn32 g o => .xamoMaxn32 g o
  | .xamoMaxn64 g o => .xamoMaxn64 g o
  | .xamoAnd32 g o => .xamoAnd32 g o
  | .xamoAnd64 g o => .xamoAnd64 g o
  | .xamoOr32 g o => .xamoOr32 g o
  | .xamoOr64 g o => .xamoOr64 g o
  | .xamoXor32 g o => .xamoXor32 g o
  | .xamoXor64 g o => .xamoXor64 g o
  | .xamoSwap32 g o => .xamoSwap32 g o
  | .xamoSwap64 g o => .xamoSwap64 g o
  | .xamoCas32 g o => .xamoCas32 g o
  | .xamoCas64 g o => .xamoCas64 g o
  | .xfence g o => .xfence g o
  | .xrel g o => .xrel g o
  | .xacq g o => .xacq g o
  | .xvld g o => .xvld g o
  | .xnmc g o => .xnmc g o
  | .xnmfence g => .xnmfence g
  | .xtagld g o => .xtagld g o
  | .xtagst g o => .xtagst g o
  | .tstate g o => .tstate g o
  | .tlayoutClaim g o => .tlayoutClaim g o
  | .tlayoutRelabel g o => .tlayoutRelabel g o
  | .tlayoutCheck g o => .tlayoutCheck g o
  | .trelease g o => .trelease g o
  | .trjrec g o => .trjrec g o
  | .bfpost g o => .bfpost g o

/-- The row of a class M operation. -/
noncomputable def MInstr.instr : MInstr → Instr
  | .mcfgMode g o => .mcfgMode g o
  | .mcfgOutlier g o => .mcfgOutlier g o
  | .mcfgQset g o => .mcfgQset g o
  | .mcfgWbp g o => .mcfgWbp g o
  | .mzero g o => .mzero g o
  | .msnap g o => .msnap g o
  | .mresrd g o => .mresrd g o
  | .mreschk g o => .mreschk g o
  | .mpush g o => .mpush g o
  | .mpushWp g => .mpushWp g
  | .mswap g => .mswap g
  | .mshift g o => .mshift g o
  | .mdrain g o => .mdrain g o
  | .mdrainq g o => .mdrainq g o

/-- The row of the opcode table a slot operation stands under. -/
noncomputable def SlotInstr.instr : SlotInstr → Instr
  | .nop => .nop
  | .xnop => .xnop
  | .s i => i.instr
  | .v i => i.instr
  | .x i => i.instr
  | .m i => i.instr

end Sys2Proof
end

