-- ==== Sys2Proof/Machine/Numbers.lean ====
section
/-! DEFINITION. Number formats and arithmetic of spec/03_numbers.md: exact values, the rounding functions RoundF and
RoundInt (R78, R80), nested integers (R63), the generator (R88), and the exact real functions that are used only inside
a stated rounding (R93 Table 10). -/

namespace Sys2Proof.Machine

/-! ### Integers -/

/-- SignExtend(x, w) of R93: the low `w` bits read as two's complement. -/
def sext (x w : Nat) : Int :=
  let y := x % 2 ^ w
  if y < 2 ^ (w - 1) then (y : Int) else (y : Int) - (2 ^ w : Nat)

/-- WrapN(x, w) of R93. -/
def wrapN (x : Int) (w : Nat) : Nat := (x % ((2 ^ w : Nat) : Int)).toNat

/-- Wrap(x, w) of R93. -/
def wrapS (x : Int) (w : Nat) : Int := sext (wrapN x w) w

/-- Sat(x, lo, hi) of R93. -/
def sat (x lo hi : Int) : Int := if x < lo then lo else if x > hi then hi else x

/-- Bits [h:l] of a number. -/
def bits (x h l : Nat) : Nat := (x >>> l) % 2 ^ (h + 1 - l)

/-- Bit i of a number, as 0 or 1 (R93 Bit). -/
def bitN (x i : Nat) : Nat := (x >>> i) % 2

/-- POPC on the low `n` bits. -/
def popcN : Nat → Nat → Nat
  | 0, _ => 0
  | n + 1, x => x % 2 + popcN n (x / 2)

/-- Number of leading zero bits of the low `n` bits. -/
def clzN : Nat → Nat → Nat
  | 0, _ => 0
  | n + 1, x => if x.testBit n then 0 else 1 + clzN n x

/-- Nest(c, k) of R63. -/
def nest (c k : Nat) : Int :=
  if k ≥ 8 then sext c 8
  else sext (((c % 256) >>> (8 - k)) * 2 ^ (8 - k) + 2 ^ (7 - k)) 8

/-! ### Exact positive reals, as their scaled floors -/

/-- A positive real x, given by k ↦ (⌊x × 2^k⌋, whether x × 2^k is an integer). -/
abbrev Pos := Int → Nat × Bool

/-- n / d for n, d > 0. -/
def Pos.ratio (n d : Nat) : Pos := fun k =>
  if k ≥ 0 then ((n <<< k.toNat) / d, (n <<< k.toNat) % d = 0)
  else (n / (d <<< (-k).toNat), n % (d <<< (-k).toNat) = 0)

/-- n × 2^e for n > 0. -/
def Pos.dyadic (n : Nat) (e : Int) : Pos := fun k =>
  let j := k + e
  if j ≥ 0 then (n <<< j.toNat, true)
  else if -j > (n.log2 : Int) then (0, n = 0)
  else (n >>> (-j).toNat, n % (2 ^ (-j).toNat) = 0)

/-- One pass of the digit-by-digit square root: `b` counts the result bits still to settle. -/
def isqrtGo (n : Nat) : Nat → Nat → Nat
  | 0, r => r
  | b + 1, r =>
    let t := r + 2 ^ b
    isqrtGo n b (if t * t ≤ n then t else r)

/-- ⌊√n⌋. -/
def isqrt (n : Nat) : Nat := isqrtGo n (n.log2 / 2 + 1) 0

/-- √(n / d). -/
def Pos.sqrtRatio (n d : Nat) : Pos := fun k =>
  let (q, ex) := Pos.ratio n d (2 * k)
  let r := isqrt q
  (r, ex && r * r = q)

/-- √(d / n) = 1 / √(n / d). -/
def Pos.rsqrtRatio (n d : Nat) : Pos := Pos.sqrtRatio d n

/-! ### Formats and rounding -/

/-- A floating-point format of R59 Table 2: E exponent bits, F fraction bits. -/
inductive Fmt where
  | f32 | f16 | bf16
deriving DecidableEq, Repr

def Fmt.E : Fmt → Nat | .f32 => 8 | .f16 => 5 | .bf16 => 8
def Fmt.F : Fmt → Nat | .f32 => 23 | .f16 => 10 | .bf16 => 7
/-- Width in bits. -/
def Fmt.w (f : Fmt) : Nat := 1 + f.E + f.F
def Fmt.bias (f : Fmt) : Int := ((2 ^ (f.E - 1) : Nat) : Int) - 1
/-- Exponent of the smallest normal value. -/
def Fmt.emin (f : Fmt) : Int := 1 - f.bias
def Fmt.emax (f : Fmt) : Int := f.bias
/-- Canonical NaN (R59, R61). -/
def Fmt.nan (f : Fmt) : Nat := (2 ^ f.E - 1) * 2 ^ f.F + 2 ^ (f.F - 1)
/-- Infinity of a sign. -/
def Fmt.inf (f : Fmt) (neg : Bool) : Nat := (if neg then 2 ^ (f.E + f.F) else 0) + (2 ^ f.E - 1) * 2 ^ f.F
def Fmt.zero (f : Fmt) (neg : Bool) : Nat := if neg then 2 ^ (f.E + f.F) else 0
/-- Largest finite value of a sign. -/
def Fmt.maxFin (f : Fmt) (neg : Bool) : Nat := f.inf neg - 1

/-- The value a pattern encodes (R93 Val): NaN, an infinity, or (−1)^neg × mag × 2^exp. -/
inductive FVal where
  | nan
  | inf (neg : Bool)
  | fin (neg : Bool) (mag : Nat) (exp : Int)
deriving DecidableEq, Repr

/-- Val(fmt, bits) of R93, by R59. -/
def Fmt.val (f : Fmt) (x : Nat) : FVal :=
  let neg := x.testBit (f.E + f.F)
  let e := bits x (f.E + f.F - 1) f.F
  let m := x % 2 ^ f.F
  if e = 2 ^ f.E - 1 then (if m = 0 then .inf neg else .nan)
  else if e = 0 then .fin neg m (f.emin - f.F)
  else .fin neg (m + 2 ^ f.F) ((e : Int) - f.bias - f.F)

/-- The choice of the larger magnitude, made from the floor at the ulp, one more bit, and the stochastic fraction. -/
def roundUpMag (rm : RMode) (neg : Bool) (p : Pos) (k : Int) (u : Nat) : Bool :=
  let (m, ex) := p k
  if ex then false else
  match rm with
  | .rne =>
    let (m1, ex1) := p (k + 1)
    m1 % 2 = 1 && (!ex1 || m % 2 = 1)
  | .rtz => false
  | .rup => !neg
  | .rdn => neg
  | .rs =>
    let (m32, ex32) := p (k + 32)
    let fr := m32 - m * 2 ^ 32
    if neg then !(u < 2 ^ 32 - (fr + (if ex32 then 0 else 1))) else u < fr

/-- RoundF of a non-zero exact real (R78): sign `neg`, magnitude `p`, `u` the drawn word of the stochastic mode, `e0` the
exponent of the magnitude, exact where it is at least the format's least. DESIGN CHOICE (log entry 46): the stochastic mode of
a magnitude beyond the largest finite value, which R78 gives no neighbours a and b, delivers the largest finite value. -/
def roundAt (f : Fmt) (rm : RMode) (u : Nat) (neg : Bool) (e0 : Int) (p : Pos) : Nat :=
  let e := if e0 < f.emin then f.emin else e0
  let k := (f.F : Int) - e
  let m := (p k).1
  let up := roundUpMag rm neg p k u
  let m1 := if up then m + 1 else m
  let beyond := e > f.emax
  let sgn := f.zero neg
  if beyond then
    match rm with
    | .rne => f.inf neg
    | .rtz => f.maxFin neg
    | .rup => if neg then f.maxFin neg else f.inf neg
    | .rdn => if neg then f.inf neg else f.maxFin neg
    | .rs => if up then f.inf neg else f.maxFin neg
  else if m1 ≥ 2 ^ (f.F + 1) then
    (if e = f.emax then f.inf neg else sgn + ((e + 1 + f.bias).toNat) * 2 ^ f.F)
  else if m1 < 2 ^ f.F then sgn + m1
  else sgn + (e + f.bias).toNat * 2 ^ f.F + (m1 - 2 ^ f.F)

/-- RoundF of a non-zero exact real whose exponent is read off its first 200 fraction bits (every result format ends
above 2^−200). -/
def roundPos (f : Fmt) (rm : RMode) (u : Nat) (neg : Bool) (p : Pos) : Nat :=
  let q := (p 200).1
  roundAt f rm u neg (if q = 0 then f.emin else (q.log2 : Int) - 200) p

/-- An exact value with a common shape for sums: num × 2^exp. -/
structure Dy where
  num : Int
  exp : Int
deriving DecidableEq, Repr

/-- Exact sum of two dyadics. -/
def Dy.add (a b : Dy) : Dy :=
  if a.exp ≤ b.exp then ⟨a.num + b.num * ((2 ^ (b.exp - a.exp).toNat : Nat) : Int), a.exp⟩
  else ⟨a.num * ((2 ^ (a.exp - b.exp).toNat : Nat) : Int) + b.num, b.exp⟩

def Dy.mul (a b : Dy) : Dy := ⟨a.num * b.num, a.exp + b.exp⟩
def Dy.neg (a : Dy) : Dy := ⟨-a.num, a.exp⟩
def Dy.ofInt (x : Int) : Dy := ⟨x, 0⟩
/-- a < b, exactly. -/
def Dy.lt (a b : Dy) : Bool := (Dy.add a (Dy.neg b)).num < 0
def Dy.le (a b : Dy) : Bool := (Dy.add a (Dy.neg b)).num ≤ 0

/-- The dyadic a finite value stands for. -/
def FVal.dy : FVal → Dy
  | .fin neg m e => ⟨if neg then -(m : Int) else m, e⟩
  | _ => ⟨0, 0⟩

def FVal.isNan : FVal → Bool | .nan => true | _ => false
def FVal.isInf : FVal → Bool | .inf _ => true | _ => false
def FVal.isFin : FVal → Bool | .fin _ _ _ => true | _ => false
def FVal.neg : FVal → Bool | .inf n => n | .fin n _ _ => n | .nan => false
def FVal.isZero : FVal → Bool | .fin _ m _ => m == 0 | _ => false
def FVal.flip : FVal → FVal
  | .nan => .nan | .inf n => .inf (!n) | .fin n m e => .fin (!n) m e

/-- RoundF of an exact dyadic; `zneg` is the sign of a zero result (R62, R78). -/
def roundDy (f : Fmt) (rm : RMode) (u : Nat) (zneg : Bool) (d : Dy) : Nat :=
  if d.num = 0 then f.zero zneg
  else roundPos f rm u (d.num < 0) (Pos.dyadic d.num.natAbs d.exp)

/-- RoundF of a quotient of dyadics with a non-zero numerator and denominator. -/
def roundQuot (f : Fmt) (rm : RMode) (u : Nat) (a b : Dy) : Nat :=
  let neg := (a.num < 0) != (b.num < 0)
  let e := a.exp - b.exp
  let n := a.num.natAbs
  let d := b.num.natAbs
  let p := if e ≥ 0 then Pos.ratio (n * 2 ^ e.toNat) d else Pos.ratio n (d * 2 ^ (-e).toNat)
  roundPos f rm u neg p

/-- The exact sum of two values under R61 and R62: NaN, infinity or a dyadic with the sign of a zero. -/
inductive Sum where
  | nan
  | inf (neg : Bool)
  | val (zneg : Bool) (d : Dy)
deriving DecidableEq, Repr

/-- Sum of a and b; a zero of like signs keeps the sign, an exact zero otherwise takes the mode's (R62). -/
def addVal (rm : RMode) (a b : FVal) : Sum :=
  match a, b with
  | .nan, _ => .nan
  | _, .nan => .nan
  | .inf n, .inf m => if n = m then .inf n else .nan
  | .inf n, .fin _ _ _ => .inf n
  | .fin _ _ _, .inf n => .inf n
  | .fin n ma _, .fin m mb _ =>
    let z := if ma = 0 ∧ mb = 0 ∧ n = m then n else (rm = .rdn)
    .val z (Dy.add a.dy b.dy)

/-- Product of a and b (R61, R62), as a value: exact. -/
def mulVal (a b : FVal) : FVal :=
  match a, b with
  | .nan, _ => .nan
  | _, .nan => .nan
  | .inf n, .inf m => .inf (n != m)
  | .inf n, .fin m k _ => if k = 0 then .nan else .inf (n != m)
  | .fin m k _, .inf n => if k = 0 then .nan else .inf (n != m)
  | .fin n ma ea, .fin m mb eb => .fin (n != m) (ma * mb) (ea + eb)

/-- RoundF of a sum. -/
def roundSum (f : Fmt) (rm : RMode) (u : Nat) : Sum → Nat
  | .nan => f.nan
  | .inf n => f.inf n
  | .val z d => roundDy f rm u z d

/-- RoundF of a single value (R78): the format conversion of R171. -/
def roundVal (f : Fmt) (rm : RMode) (u : Nat) : FVal → Nat
  | .nan => f.nan
  | .inf n => f.inf n
  | .fin n m e => if m = 0 then f.zero n else roundPos f rm u n (Pos.dyadic m e)

/-- RoundInt(x, rm) of R80 on an exact dyadic. -/
def roundIntDy (rm : RMode) (u : Nat) (d : Dy) : Int :=
  if d.num = 0 then 0 else
  let neg : Bool := d.num < 0
  let p := Pos.dyadic d.num.natAbs d.exp
  let m := (p 0).1 + (if roundUpMag rm neg p 0 u then 1 else 0)
  if neg then -(m : Int) else m

/-- Conversion of a float value to an integer range (R80). -/
def valToInt (rm : RMode) (u : Nat) (lo hi : Int) : FVal → Int
  | .nan => 0
  | .inf n => if n then lo else hi
  | v => sat (roundIntDy rm u v.dy) lo hi

/-- RoundFP32(a + b, RNE) on patterns, R61 and R62 applied. -/
def addF32 (a b : Nat) : Nat := roundSum .f32 .rne 0 (addVal .rne (Fmt.f32.val a) (Fmt.f32.val b))
/-- RoundFP32(a × b, RNE) on patterns. -/
def mulF32 (a b : Nat) : Nat := roundVal .f32 .rne 0 (mulVal (Fmt.f32.val a) (Fmt.f32.val b))
def negF32 (a : Nat) : Nat := Nat.xor a (2 ^ 31)

/-! ### Exact real functions used inside a stated rounding (R93): interval bounds in fixed point

Every function answers bounds (lo, hi) of the real value times 2^P, with lo ≤ value × 2^P ≤ hi; a floor is taken when the
bounds agree on it, and P grows otherwise. (DEDUCED: R165 asks for the correctly rounded value; log entry 27.) -/

/-- Sum of y^(2i+1)/(2i+1) × 2^P for a fixed-point y ≤ 1/3, `t` the running power. -/
def atanhGo (P y2 : Nat) : Nat → Nat → Nat → Nat → Nat
  | 0, _, _, acc => acc
  | n + 1, i, t, acc => atanhGo P y2 n (i + 1) ((t * y2) >>> P) (acc + t / (2 * i + 1))

/-- Bounds of 2 × atanh(n/d) × 2^P for 0 ≤ n/d ≤ 1/3. -/
def atanh2 (P n d : Nat) : Nat × Nat :=
  let y := (n <<< P) / d
  let y2 := (y * y) >>> P
  let terms := P / 3 + 2
  let s := atanhGo P y2 terms 0 y 0
  (2 * s, 2 * (s + 4 * terms + 8))

/-- Bounds of ln 2. -/
def ln2B (P : Nat) : Nat × Nat := atanh2 P 1 3

/-- Sum of y^i/i! × 2^P. -/
def expGo (P y : Nat) : Nat → Nat → Nat → Nat → Nat
  | 0, _, _, acc => acc
  | n + 1, i, t, acc => expGo P y n (i + 1) (((t * y) >>> P) / (i + 1)) (acc + t)

/-- Bounds of e^y × 2^P for y in [ylo, yhi] × 2^−P, 0 ≤ y ≤ 1. -/
def expB (P ylo yhi : Nat) : Nat × Nat :=
  let terms := P / 2 + 8
  let s := expGo P ylo terms 0 (2 ^ P) 0
  (s, s + 3 * (yhi - ylo) + 4 * terms + 16)

/-- A floor settled by growing precision: `f P` gives bounds of x × 2^P. -/
def settle (f : Nat → Nat × Nat) (k : Int) : List Nat → Nat
  | [] => 0
  | P :: rest =>
    let (lo, hi) := f P
    let sh (z : Nat) : Nat := if k ≤ P then z >>> ((P : Int) - k).toNat else z <<< (k - P).toNat
    if rest.isEmpty then sh lo
    else if sh lo = sh hi ∧ k ≤ P then sh lo else settle f k rest

/-- The precisions tried. -/
def precisions : List Nat := [96, 192, 384, 768]

/-- ⌊x⌋ of a dyadic with a negative exponent. -/
def Dy.floor (x : Dy) : Int :=
  if x.exp ≥ 0 then x.num * ((2 ^ x.exp.toNat : Nat) : Int) else x.num / ((2 ^ (-x.exp).toNat : Nat) : Int)

/-- 2^x for a dyadic x ≥ −400 that is not an integer. -/
def Pos.exp2 (x : Dy) : Pos := fun k =>
  let den := (2 ^ (-x.exp).toNat : Nat)
  let i := x.num / (den : Int)
  let r := (x.num % (den : Int)).toNat
  let bounds (P : Nat) : Nat × Nat :=
    let (llo, lhi) := ln2B P
    let ylo := (llo * r) / den
    let yhi := (lhi * r) / den + 1
    expB P ylo yhi
  (settle bounds (k + i) precisions, false)

/-- RoundF(2^x) for a finite dyadic x (R165 VEXP2): integers give exact powers; below 2^−400 only the sign of the inexactness
counts. -/
def roundExp2 (f : Fmt) (rm : RMode) (u : Nat) (x : Dy) : Nat :=
  let i := x.floor
  if i < -400 then roundAt f rm u false f.emin (fun _ => (0, false))
  else if x.exp ≥ 0 ∨ x.num % ((2 ^ (-x.exp).toNat : Nat) : Int) = 0 then
    roundAt f rm u false i (Pos.dyadic 1 i)
  else roundAt f rm u false i (Pos.exp2 x)

/-- Bounds of ln(n/d) × 2^P for 1 ≤ n/d < 2. -/
def lnB (P n d : Nat) : Nat × Nat := atanh2 P (n - d) (n + d)

/-- log2 of m × 2^e with m > 0 not a power of two: sign and magnitude. -/
def log2Parts (m : Nat) (e : Int) : Bool × Pos :=
  let j := m.log2
  let ip : Int := e + j
  let neg := decide (ip < 0)
  let bounds (P : Nat) : Nat × Nat :=
    let (nlo, nhi) := lnB P m (2 ^ j)
    let (llo, lhi) := ln2B P
    let flo := (nlo <<< P) / lhi
    let fhi := (nhi <<< P) / llo + 1
    if neg then
      let top := ip.natAbs * 2 ^ P
      (top - fhi, top - flo)
    else (ip.natAbs * 2 ^ P + flo, ip.natAbs * 2 ^ P + fhi)
  (neg, fun k => (settle bounds k precisions, false))

/-- tanh of a positive dyadic. -/
def Pos.tanh (a : Dy) : Pos := fun k =>
  let n := a.num.natAbs
  let top : Int := (n.log2 : Int) + a.exp
  if top < -40 then
    let (q, ex) := Pos.dyadic n a.exp k
    (if ex then q - 1 else q, false)
  else if top ≥ 6 then (2 ^ k.toNat - 1, false)
  else
    let bounds (P : Nat) : Nat × Nat :=
      -- 2a = c × ln 2 + r with 0 ≤ r < ln 2; e^(−2a) = 2^(−c) × e^(−r)
      let (llo, lhi) := ln2B P
      let two := (Pos.dyadic n a.exp ((P : Int) + 1))
      let xlo := two.1
      let xhi := if two.2 then two.1 else two.1 + 1
      let c := xlo / lhi
      let rlo := xlo - c * lhi
      let rhi := xhi - c * llo
      let (elo, ehi) := expB P rlo rhi
      let inv (z : Nat) : Nat := (2 ^ (2 * P)) / z
      let tlo := inv ehi >>> c
      let thi := (inv elo >>> c) + 2
      (((2 ^ P - thi) <<< P) / (2 ^ P + thi), ((2 ^ P - tlo) <<< P) / (2 ^ P + tlo) + 1)
    (settle bounds k precisions, false)

/-- Sum for arctan(1/q): ± 1/((2i+1) q^(2i+1)). -/
def arctanGo (q2 : Nat) : Nat → Nat → Nat → Int → Int
  | 0, _, _, acc => acc
  | n + 1, i, t, acc =>
    let term : Int := (t / (2 * i + 1) : Nat)
    arctanGo q2 n (i + 1) (t / q2) (if i % 2 = 0 then acc + term else acc - term)

/-- Bounds of π × 2^P (Machin's formula). -/
def piB (P : Nat) : Nat × Nat :=
  let terms := P / 4 + 4
  let a (q : Nat) : Int := arctanGo (q * q) terms 0 ((2 ^ P) / q) 0
  let s := (16 * a 5 - 4 * a 239).toNat
  let e := 40 * terms
  (s - e, s + e)

/-- Alternating Taylor sum t_i with t_{i+1} = t_i × y2 / ((2i+b)(2i+b+1)). -/
def trigGo (P y2 b : Nat) : Nat → Nat → Nat → Int → Int
  | 0, _, _, acc => acc
  | n + 1, i, t, acc =>
    trigGo P y2 b n (i + 1) (((t * y2) >>> P) / ((2 * i + b) * (2 * i + b + 1)))
      (if i % 2 = 0 then acc + (t : Int) else acc - (t : Int))

/-- Bounds of |cos(2π i / 2^24)| × 2^P, with i reduced to the first quadrant as the turn fraction t/2^24, t ≤ 2^22. -/
def cosB (P t : Nat) : Nat × Nat :=
  let (plo, phi) := piB P
  let terms := P / 4 + 8
  -- angle 2π t / 2^24; below an eighth of a turn by cosine, above by sine of the complement
  let cosine := t ≤ 2 ^ 21
  let s := if cosine then t else 2 ^ 22 - t
  let y := (plo * s) >>> 23
  let yh := ((phi * s) >>> 23) + 1
  let y2 := (y * y) >>> P
  let v := if cosine then trigGo P y2 1 terms 0 (2 ^ P) 0 else trigGo P y2 2 terms 0 y 0
  let e := 2 * (yh - y) + 8 * terms + 8
  (v.toNat - e, v.toNat + e)

/-- √(−2 ln u1) × cos(2π u2) of R91, u1 = j/2^24 with 1 ≤ j < 2^24, u2 = i/2^24 not a quarter turn: sign and magnitude. -/
def rnormParts (j i : Nat) : Bool × Pos :=
  let quad := i / 2 ^ 22
  let r := i % 2 ^ 22
  let t := if quad % 2 = 0 then r else 2 ^ 22 - r
  let neg := quad = 1 || quad = 2
  let l := j.log2
  let bounds (P : Nat) : Nat × Nat :=
    -- −ln u1 = (24 − l) ln 2 − ln(j/2^l)
    let (llo, lhi) := ln2B P
    let (nlo, nhi) := lnB P j (2 ^ l)
    let lo := (24 - l) * llo - nhi
    let hi := (24 - l) * lhi - nlo
    let slo := isqrt ((2 * lo) <<< P)
    let shi := isqrt ((2 * hi) <<< P) + 1
    let (clo, chi) := cosB P t
    ((slo * clo) >>> P, ((shi * chi) >>> P) + 1)
  (neg, fun k => (settle bounds k precisions, false))

/-- RoundFP32 of R91's VRNORM expression for its two words. DESIGN CHOICE (log entry 47): an exact zero is +0; the rule gives
that zero no sign. -/
def rnormBits (w1 w2 : Nat) : Nat :=
  let j := (w1 >>> 8) + 1
  let i := w2 >>> 8
  if j = 2 ^ 24 ∨ i = 2 ^ 22 ∨ i = 3 * 2 ^ 22 then 0
  else
    let (neg, p) := rnormParts j i
    roundPos .f32 .rne 0 neg p

/-- Sum of y^(2i+1) / (1·3·5…(2i+1)) × 2^P. -/
def phiGo (P y2 : Nat) : Nat → Nat → Nat → Nat → Nat
  | 0, _, _, acc => acc
  | n + 1, i, t, acc => phiGo P y2 n (i + 1) (((t * y2) >>> P) / (2 * i + 3)) (acc + t)

/-- Whether Φ(y) < 0.5 + j/8192 for the dyadic y = m × 2^e ≥ 0 (R92): compares ∫ exactly enough at P = 192. -/
def phiBelow (m : Nat) (e : Int) (j : Nat) : Bool :=
  let P : Nat := 192
  let y := (Pos.dyadic m e (P : Int)).1
  let y2 := (y * y) >>> P
  let s := phiGo P y2 160 0 y 0
  -- Φ(y) − 1/2 = e^(−y²/2) / √(2π) × s ; compare s × 8192 with j × √(2π) × e^(y²/2)
  let h := y2 / 2
  let c := h >>> P
  let e1 := (expB P (2 ^ P) (2 ^ P)).1
  let pw := (List.range c).foldl (fun (acc : Nat) _ => (acc * e1) >>> P) (2 ^ P)
  let ex := ((expB P (h - c * 2 ^ P) (h - c * 2 ^ P)).1 * pw) >>> P
  let rt := isqrt ((2 * (piB P).1) <<< P)
  s * 8192 < j * ((rt * ex) >>> P)

/-- Greatest 27-bit count n with Φ(n × 2^−24) < p, by bisection (values up to 4). -/
def invPhiGo (j : Nat) : Nat → Nat → Nat
  | 0, r => r
  | b + 1, r =>
    let t := r + 2 ^ b
    invPhiGo j b (if phiBelow t (-60) j then t else r)

/-- T[j] of R92: RoundFP32(Φ^−1(0.5 + j/8192), RNE). -/
def normRom (j : Nat) : Nat :=
  if j = 0 then 0 else
  let r := invPhiGo j 62 0
  roundPos .f32 .rne 0 false (fun k => ((Pos.dyadic r (-60) k).1, false))

/-- NormT(w) of R92. -/
def normT (w : Nat) : Nat :=
  let j := bits w 30 19
  let y := if j = 4095 then normRom 4095 else
    let t0 := normRom j
    let d := addF32 (normRom (j + 1)) (negF32 t0)
    let df := roundVal .f32 .rne 0 (mulVal (Fmt.f32.val d) (.fin false (w % 2 ^ 19) (-19)))
    addF32 t0 df
  if w.testBit 31 then negF32 y else y

/-! ### The generator (R88) -/

/-- One round of Block(C, K). -/
def blockRound (i : Nat) (s : (Nat × Nat × Nat × Nat) × (Nat × Nat × Nat × Nat)) :
    (Nat × Nat × Nat × Nat) × (Nat × Nat × Nat × Nat) :=
  let ((c0, c1, c2, c3), (k0, k1, k2, k3)) := s
  let (ka, kb) := if i % 2 = 0 then (k0, k1) else (k2, k3)
  let p := 0xD3A16B4F * c0
  let q := 0xCB458E97 * c2
  let c := (Nat.xor (Nat.xor (q / 2 ^ 32) c1) ka, q % 2 ^ 32, Nat.xor (Nat.xor (p / 2 ^ 32) c3) kb, p % 2 ^ 32)
  let k := if i % 2 = 0 then ((k0 + 0x9A27C3D5) % 2 ^ 32, (k1 + 0xB6E14F2B) % 2 ^ 32, k2, k3)
    else (k0, k1, (k2 + 0x9A27C3D5) % 2 ^ 32, (k3 + 0xB6E14F2B) % 2 ^ 32)
  (c, k)

/-- Block(C, K) of R88: four words. -/
def rngBlock (C K : Nat) : List Nat :=
  let w (x i : Nat) := (x >>> (32 * i)) % 2 ^ 32
  let s0 := ((w C 0, w C 1, w C 2, w C 3), (w K 0, w K 1, w K 2, w K 3))
  let ((c0, c1, c2, c3), _) := (List.range 10).foldl (fun s i => blockRound i s) s0
  [c0, c1, c2, c3]

/-- `n` successive blocks from counter C (R89). -/
def rngBlocks (K : Nat) : Nat → Nat → List Nat
  | 0, _ => []
  | n + 1, C => rngBlock C K ++ rngBlocks K n ((C + 1) % 2 ^ 128)

/-! ### Lanes -/

/-- Lane i of width w of a vector (R157). -/
def lane (v : Vec) (w i : Nat) : Nat := (v.toNat >>> (w * i)) % 2 ^ w

/-- A number built from lanes of width w, lane 0 lowest. -/
def packLanes (w : Nat) : List Nat → Nat
  | [] => 0
  | x :: t => x % 2 ^ w + 2 ^ w * packLanes w t

/-- A vector built from lanes. -/
def vecOf (w : Nat) (l : List Nat) : Vec := BitVec.ofNat 1024 (packLanes w l)

/-- All lanes of a vector. -/
def lanes (v : Vec) (w : Nat) : List Nat := (List.range (1024 / w)).map (lane v w)

/-- A lane-wise unary or indexed operation. -/
def mapLanes (w : Nat) (f : Nat → Nat) : Vec := vecOf w ((List.range (1024 / w)).map f)

/-- Tree(y, n, op) of R83 on a list whose length is a power of two; one level. -/
def pairUp (op : Nat → Nat → Nat) : List Nat → List Nat
  | a :: b :: t => op a b :: pairUp op t
  | l => l

/-- `n` levels of the tree. -/
def treeLevels (op : Nat → Nat → Nat) : Nat → List Nat → List Nat
  | 0, l => l
  | n + 1, l => treeLevels op n (pairUp op l)

/-! ### Z order (R199) -/

/-- Morton(a, b) on the low n bits. -/
def morton : Nat → Nat → Nat → Nat
  | 0, _, _ => 0
  | n + 1, a, b => b % 2 + 2 * (a % 2) + 4 * morton n (a / 2) (b / 2)

/-- Z(k, n) of R199. -/
def zOrder (k n : Nat) : Nat := 16 * morton 6 (k / 4) (n / 4) + 4 * (k % 4) + n % 4

end Sys2Proof.Machine
end

