-- ==== Sys2Proof/Machine/State.lean ====
section
/-! DEFINITION. The state of the Ikiok as plain data: everything the spec gives the machine (INVENTORY.md, State), the reasons a
step can stop, and the machine right after reset. Tables are sparse (`Tbl`): an unlisted key holds the table's default. -/

namespace Sys2Proof.Machine

/-! ### Memory -/

/-- Bytes and block tags of one space: the DRAM of both tiers by physical address, a scratchpad, a weight buffer, host memory.
An unlisted byte reads 0 and an unlisted block tag (0, 0): what bring-up leaves (22_reliability.md R460 step 4; log entry 2). -/
structure Memory where
  cells : List Host.Cell
  tags : Tbl (BitVec 16)
deriving DecidableEq, Repr

def Memory.empty : Memory := ⟨[], []⟩

/-- Bytes in rising order of address from `lo`, none of them 0. -/
def cellsWf : Nat → List Host.Cell → Bool
  | _, [] => true
  | lo, (a, b) :: t => decide (lo ≤ a) && decide (b ≠ 0) && cellsWf (a + 1) t

/-- The canonical form of a memory. -/
def Memory.wf (m : Memory) : Bool := cellsWf 0 m.cells && Tbl.wf 0 m.tags

/-! ### A core -/

/-- The six units (02_core.md R23). -/
inductive UnitId where
  | s | v0 | v1 | m | x0 | x1
deriving DecidableEq, Repr

/-- Units in the order of R34. -/
def UnitId.idx : UnitId → Nat
  | .s => 0 | .v0 => 1 | .v1 => 2 | .m => 3 | .x0 => 4 | .x1 => 5

/-- Register files a result goes to (13_inflight_record.md R326 Table 6 FILE). -/
inductive RegFile where
  | g | a | p | b | v | m | latch
deriving DecidableEq, Repr

/-- A result in the exposed pipeline (R29, R326): it falls due at issue cycle `due`. -/
structure Pending where
  unit : UnitId
  file : RegFile
  reg : Nat
  value : Vec
  issued : Nat
  due : Nat
deriving DecidableEq, Repr

/-- LCTL (R50 Table 7). -/
structure LoopCtl where
  lact : BitVec 6
  roten : Bool
  rotlvl : BitVec 3
  vrot : BitVec 5
deriving DecidableEq, Repr

/-- LSTATn (R50 Table 8). -/
structure LStat where
  icount : BitVec 24
  epi : BitVec 8
  amask : BitVec 16
  beg : BitVec 8
  fin : BitVec 8
deriving DecidableEq, Repr

def LoopCtl.zero : LoopCtl := ⟨0, false, 0, 0⟩
def LStat.zero : LStat := ⟨0, 0, 0, 0, 0⟩

/-- A trap frame (14_trap.md R337, R339): latches, held operands, loop state, BKSUP, LBIX, ORPC, ERPC. -/
structure Frame where
  latches : Tbl Vec
  held : Tbl Vec
  latv : BitVec 24
  holdv : BitVec 18
  lctl : LoopCtl
  lstat : Tbl LStat
  steps : Tbl W32
  wrapped : BitVec 6
  /-- A LOOP has loaded the loop buffer since the entry (R342). -/
  stale : Bool
  /-- Bundles of the body that stood in the loop buffer. -/
  body : Nat
  bksup : Bool
  lbix : Option Nat
  orpc : BitVec 44
  erpc : BitVec 44
deriving DecidableEq, Repr

/-- A pending imprecise report (R335): the in-flight record entry, its cause and address. A report that belongs to no entry has a
number of 128 or more; TRAPVAL shows it modulo 128. -/
structure Report where
  entry : Nat
  cause : BitVec 8
  addr : W64
deriving DecidableEq, Repr

/-- Tile states (10_tile.md R270). -/
inductive TileSt where
  | empty | filling | ready | draining
deriving DecidableEq, Repr

/-- A tile's state word fields (R270, R279). -/
structure Tile where
  st : TileSt
  layout : BitVec 16
  ncmd : Nat
  err : Bool
  relp : Bool
deriving DecidableEq, Repr

def Tile.fresh : Tile := ⟨.empty, 0, 0, false, false⟩

/-- Classes of in-flight record entries (R319, R321). -/
inductive IfrClass where
  | idem | tagged | member | keyed
deriving DecidableEq, Repr

/-- An in-flight record entry (R319 Table 1, R320 Table 2). `ts` is the time of the last write of a command, and of an answered request of
kind 1 the time it was read at; `rejected` tells a rejected XNMC, and of a request of kind 1 an answer without a value. `opnd` is OPND as bytes in a number; `payload` holds what the engine
carries on chip besides it (a payload sent, converted rows of a drain, an index list); `posted` says a page fault of this wait is
posted (R289); `failed` counts failed near-memory groups (R243). STAT's WAIT is `waitX` or `waitN`: held behind an XFENCE or an
XNMFENCE, whose points are `wseq` and `wseqN`. -/
structure IfrEntry where
  cls : IfrClass
  kind : Nat
  seq : Nat
  started : Bool
  sent : Bool
  waitX : Bool
  waitN : Bool
  wscope : Nat
  ended : Bool
  rpl : Bool
  ans : Bool
  wseq : Nat
  wseqN : Nat
  prog : Nat
  devId : BitVec 32
  home : Nat
  result : W64
  opnd : BitVec 512
  payload : List Nat
  posted : Option Nat
  failed : Nat
  rejected : Bool
  ts : Nat
deriving DecidableEq, Repr

/-- A plane of B operands (07_matrix.md R187): rows of 256 cells of 16 bits, the recorded FM and FF, the rows whose contents are
left open (R195), the index its open cells are drawn from, and whether a bit of its storage has been 1. -/
structure Plane where
  rows : Tbl (BitVec 4096)
  fm : Bool
  ff : Bool
  bad : BitVec 256
  seed : Nat
  ever : Bool
deriving DecidableEq, Repr

def Plane.zero : Plane := ⟨[], false, false, 0, 0, false⟩

/-- MCFG mode word (R192 Table 3). -/
structure ModeWord where
  gsel : BitVec 16
  fm : Bool
  ff : Bool
  sgna : Bool
  sgnb : Bool
  ak : BitVec 4
  bk : BitVec 4
  sat : Bool
  tr : Bool
  zb : Bool
  unsc : Bool
  govr : Bool
  drm : BitVec 3
  dfmt : BitVec 3
  snc : BitVec 3
deriving DecidableEq, Repr

def ModeWord.reset : ModeWord :=
  ⟨0, false, false, true, true, 8, 8, false, false, false, false, false, 0, 0, 0⟩

/-- A quantisation set (R192 Table 5). -/
structure QSet where
  sgn : Bool
  base : BitVec 13
deriving DecidableEq, Repr

def QSet.reset : QSet := ⟨true, 0⟩

/-- WMARKn and RESIDn (R205 Table 7, R211, R212 Table 9). -/
structure AccStat where
  steps : BitVec 12
  snstep : BitVec 12
  gen : BitVec 16
  rptr : BitVec 7
  gv : Bool
  tv : Bool
  tmode : Bool
  satf : Bool
  unck : Bool
  mism : Bool
  wm : BitVec 8
  resHi : BitVec 32
  resLo : BitVec 32
deriving DecidableEq, Repr

def AccStat.reset : AccStat := ⟨0, 0, 0, 0, false, false, false, false, false, false, 128, 0, 0⟩

/-- A matrix beat in flight (R201 to R203): the exact sums of products of its elements, and the expected residue term. -/
structure Beat where
  tile : Nat
  row : Nat
  issued : Nat
  due : Nat
  fm : Bool
  ovw : Bool
  sat : Bool
  prods : List Sum
  expect : Dy
  nonfin : Bool
deriving DecidableEq, Repr

/-- A matrix-log entry (13_inflight_record.md R328). -/
structure MLog where
  kind : Nat
  issued : Nat
  mode : ModeWord
  acc : Nat
  row : Nat
  md : Nat
  half : Bool
  fph : Nat
  planeFm : Bool
  planeFf : Bool
  data : BitVec 4096
deriving DecidableEq, Repr

/-- The matrix engine (R187 Table 1). -/
structure Matrix where
  active : Plane
  shadow : Plane
  prow : BitVec 8
  wbp : BitVec 13
  fph : BitVec 2
  mode : ModeWord
  obase : BitVec 13
  ocnt : BitVec 13
  qsets : Tbl QSet
  acc : Tbl (BitVec 8192)
  stat : Tbl AccStat
  beats : List Beat
  log : List MLog
  reload : Tbl (BitVec 8192)
deriving DecidableEq, Repr

def Matrix.reset : Matrix :=
  ⟨.zero, .zero, 0, 0, 0, .reset, 0, 0, [], [], [], [], [], []⟩

/-- A loss-scale generation (03_numbers.md R84): scale and reciprocal. -/
structure ScaleGen where
  scale : W32
  recip : W32
deriving DecidableEq, Repr

/-- A line copy in a core's first-level data cache (09_memory_model.md R254): its bytes, its tag and its lease end. -/
structure Copy where
  data : BitVec 512
  tag : BitVec 16
  lease : Nat
deriving DecidableEq, Repr

/-- What a core has been asked to do at its next bundle boundary (12_context.md R301, R311, R312). -/
inductive StopReq where
  | none | now | cutQuery | cutStop (m : Nat)
deriving DecidableEq, Repr

/-- What a core is doing. -/
inductive RunSt where
  | idle       -- no core program
  | loaded     -- launch state written, first bundle not released (R377)
  | running
  | halted     -- HALT issued (R55)
  | stopped    -- stopped by a freeze of its part (R33)
  | dead       -- frozen by a double trap (R338)
  | aborted    -- its kernel is aborted (R362)
deriving DecidableEq, Repr

/-- A core's place in its group, cohort and kernel (17_group.md R374; 12_context.md R307 Table 11). -/
structure Member where
  kref : Nat
  grp : Nat
  cohort : Nat
  gidx : Nat
  cidx : Nat
  qmask : BitVec 32
  ngrp : Nat
  midx : Nat
  cpos : Nat
  gsize : Nat
  csize : Nat
deriving DecidableEq, Repr

def Member.none : Member := ⟨0, 0, 0, 0, 0, 0, 0, 0, 0, 0, 0⟩

/-- A binding register (19_weight_versions.md R403). -/
structure Bind where
  v : Bool
  t : Nat
  slot : Nat
  ver : BitVec 32
  stale : Bool
deriving DecidableEq, Repr

def Bind.none : Bind := ⟨false, 0, 0, 0, false⟩

/-- An entry of a receive channel (08_transfer.md R232). -/
structure ChanEntry where
  value : Vec
  sender : Nat
deriving DecidableEq, Repr

/-- A core: registers, exposed pipeline, loop sequencer, trap state, matrix engine, scratchpad, in-flight record and its place in
the work hierarchy. -/
structure Core where
  run : RunSt
  ctx : Nat
  pc : W64
  /-- Loop-buffer index of the next bundle when it issues from the loop buffer (R45, R153). -/
  lbix : Option Nat
  /-- Bundles of the loop buffer by index; none where the load met a page or block that a fetch cannot read, so that the bundle is
  fetched when it is reached. -/
  loopBuf : Tbl (Option (BitVec 128))
  /-- Bundles of the body that the last LOOP at level 0 loaded (R143, R153). -/
  body : Nat
  /-- Bit j: the request that slot j of the next bundle sends is not answered in the cycle it leaves the core (R30; log entry 86). -/
  slow : BitVec 4
  g : Tbl W64
  a : Tbl W64
  stride : Tbl W64
  p : Tbl Bool
  b : Tbl W64
  v : Tbl Vec
  m : Tbl Mask
  latches : Tbl Vec
  latv : BitVec 24
  held : Tbl Vec
  holdv : BitVec 18
  pend : List Pending
  /-- Issue cycles so far (R28). -/
  ic : Nat
  /-- Clock ticks of R255 counted so far. -/
  ticks : Nat
  lctl : LoopCtl
  lstat : Tbl LStat
  steps : Tbl W32
  /-- Bit L: level L has wrapped since it was entered (R42). -/
  wrapped : BitVec 6
  lent : BitVec 4
  frzcyc : BitVec 32
  latinv : Bool
  holdinv : Bool
  diagunit : BitVec 3
  scales : Tbl ScaleGen
  gen : BitVec 16
  nopen : Nat
  rngK : BitVec 128
  rngC : BitVec 128
  nfs : Bool
  cause : BitVec 8
  rpc : BitVec 44
  tval : W64
  faddr : W64
  dcause : BitVec 8
  imp : Bool
  hbase : BitVec 44
  twin : Bool
  frames : List Frame
  reports : List Report
  bksup : Bool
  clk : Nat
  /-- Latest time of a write made by the core's engines: what a release carries besides CLK (R263; log entry 32). -/
  wts : Nat
  copies : Tbl Copy
  /-- Lines of code in the instruction cache, by the address they were read at (R14, R15; log entry 45). -/
  icache : Tbl Copy
  mx : Matrix
  wbuf : Memory
  spad : Memory
  tiles : Tbl Tile
  ifr : List (Nat × IfrEntry)
  nextSeq : Nat
  fseq : Nat
  fseqN : Nat
  fscope : Nat
  fenceX : Bool
  fenceN : Bool
  fenceR : Bool
  relblk : List Nat
  chan : Tbl (List ChanEntry)
  /-- Pages whose fault the held bundle has posted (R289). -/
  posted : List Nat
  heldBundle : Bool
  /-- The record's entries are still to be sent again before the next bundle (R330). -/
  replay : Bool
  cutEp : Nat
  cutN : Option Nat
  stop : StopReq
  mem : Member
  bnd : Tbl Bind
  sv : BitVec 32
  mix : Bool
  nslot : Nat
  nleft : Nat
  spa : Nat
  xearly : Bool
  xl : BitVec 8
  /-- A held TRJREC has asked the recorder for a run (20_generation.md R417). -/
  slotReq : Bool
  /-- Real cycle in which the core may next act (R24: one bundle a cycle). -/
  nextAt : Nat
  dutyGroup : Nat
  dutyUsed : Nat
deriving DecidableEq, Repr

/-- The loss-scale entry an unlisted generation reads as. -/
def ScaleGen.none : ScaleGen := ⟨0, 0⟩

/-- A core without a program; the launch state of R54 and R188 apart from what the launch record gives. -/
def Core.idle : Core where
  run := .idle
  ctx := 0
  pc := 0
  lbix := none
  loopBuf := []
  body := 0
  slow := 0
  g := []
  a := []
  stride := []
  p := []
  b := []
  v := []
  m := []
  latches := []
  latv := 0
  held := []
  holdv := 0
  pend := []
  ic := 0
  ticks := 0
  lctl := .zero
  lstat := []
  steps := []
  wrapped := 0
  lent := 0
  frzcyc := 0
  latinv := false
  holdinv := false
  diagunit := 0
  scales := [(0, ⟨0x3F800000, 0x3F800000⟩)]
  gen := 0
  nopen := 0
  rngK := 0
  rngC := 0
  nfs := false
  cause := 0
  rpc := 0
  tval := 0
  faddr := 0
  dcause := 0
  imp := false
  hbase := 0
  twin := true
  frames := []
  reports := []
  bksup := false
  clk := 0
  wts := 0
  copies := []
  icache := []
  mx := .reset
  wbuf := .empty
  spad := .empty
  tiles := []
  ifr := []
  nextSeq := 0
  fseq := 0
  fseqN := 0
  fscope := 0
  fenceX := false
  fenceN := false
  fenceR := false
  relblk := []
  chan := []
  posted := []
  heldBundle := false
  replay := false
  cutEp := 0
  cutN := none
  stop := .none
  mem := .none
  bnd := []
  sv := 0
  mix := false
  nslot := 0
  nleft := 0
  spa := 0
  xearly := false
  xl := 0
  slotReq := false
  nextAt := 0
  dutyGroup := 0
  dutyUsed := 0

/-! ### Device parts -/

/-- A send on its way (R232): it lands at real cycle `land`. -/
structure Send where
  src : Nat
  entry : Nat
  dst : Nat
  chan : Nat
  land : Nat
  value : Vec
deriving DecidableEq, Repr

/-- A posted or held page fault (11_page.md R290 Table 4). -/
structure PageFault where
  va : W64
  ctx : Nat
  kind : Nat
  src : Nat
  need : Nat
  ifr : Nat
deriving DecidableEq, Repr

/-- The fault buffer (R290). -/
structure Fbuf where
  put : Nat
  get : Nat
  ovf : Nat
  entries : Tbl PageFault
  held : List PageFault
  /-- The time the latest add to PUT released (R291). -/
  time : Nat
deriving DecidableEq, Repr

/-- An error-log entry (22_reliability.md R450 Table 2), and of an error of a block the model's number for that block, by which R451
counts errors of one block together. -/
structure LogEntry where
  kind : Nat
  ctx : Nat
  src : Nat
  aux : Nat
  count : Nat
  addr : W64
  time : Nat
  blk : Nat
deriving DecidableEq, Repr

/-- The error log (R450 Table 1). -/
structure ErrLog where
  put : Nat
  get : Nat
  lost : Nat
  thresh : BitVec 16
  entries : Tbl LogEntry
  /-- The time the latest add to PUT released (R291, R450). -/
  time : Nat
deriving DecidableEq, Repr

/-- Context states (12_context.md R300 Table 2). -/
inductive CtxSt where
  | free | loading | ready | active | faulted | dead
deriving DecidableEq, Repr

/-- Part states (R300 Table 3). -/
inductive PartSt where
  | absent | running | freezing | frozen | saving | saved | restoring
deriving DecidableEq, Repr

/-- A context request in progress (R303, R316): operation code as LAST[15:8] holds it, the parts, the target of a cut stop, the
parts' states before. -/
structure Request where
  resume : Bool
  op : Nat
  parts : BitVec 16
  named : BitVec 16
  target : Nat
  before : Tbl PartSt
  /-- The page of the save area whose fault the save or restore has posted (R309). -/
  posted : Option Nat
deriving DecidableEq, Repr

/-- A mark of a KV entry (20_generation.md R422). -/
inductive KvMark where
  | plain | spec (grp : Nat) | pending
deriving DecidableEq, Repr

/-- Work-queue states (15_queue.md R348). -/
inductive QueueSt where
  | open | draining | closed
deriving DecidableEq, Repr

/-- An item as the queue unit moves it: 64 bytes, their tag, the time its push released. -/
structure QItem where
  num : Nat
  data : BitVec 512
  tag : BitVec 16
  time : Nat
deriving DecidableEq, Repr

/-- The outcome that the unit has reserved for an operation of a held bundle (R353): a slot for a push, an item, a status, or a close or
reopen with the state before it and the waiters it answered. -/
inductive QOut where
  | push (num : Nat)
  | item (x : QItem)
  | status (st : Nat)
  | close (prev : QueueSt) (woken : List Nat)
deriving DecidableEq, Repr

/-- A work queue (R346 to R354). An operation of a held bundle goes by four times its core plus its slot: `waiters` oldest first, `outs` the
outcomes reserved, in the order of their reservation. `front` holds items whose reservation was withdrawn, `holes` the slots of pushes whose
reservation was withdrawn while later ones stood. -/
structure Queue where
  base : W64
  cap : Nat
  head : Nat
  tail : Nat
  st : QueueSt
  waiters : List Nat
  outs : List (Nat × QOut)
  front : List QItem
  holes : List Nat
deriving DecidableEq, Repr

/-- A weight-slot state (19_weight_versions.md R398). -/
inductive SlotSt where
  | free | writing | published | retiring
deriving DecidableEq, Repr

/-- One slot of a tensor entry. -/
structure WvSlot where
  base : W64
  npg : Nat
  st : SlotSt
  rc : Nat
deriving DecidableEq, Repr

/-- A tensor entry (R397); `pub` says that ACT was made active by a publish (R400 step 1). -/
structure WvEntry where
  ver : BitVec 32
  act : Nat
  cmt : Bool
  pub : Bool
  s0 : WvSlot
  s1 : WvSlot
  /-- The time the publish of the active version released. -/
  time : Nat
  /-- The latest time of a reader that has left one of its slots. -/
  left : Nat
deriving DecidableEq, Repr

def WvSlot.none : WvSlot := ⟨0, 0, .free, 0⟩
def WvEntry.none : WvEntry := ⟨0, 0, false, false, .none, .none, 0, 0⟩

/-- A node of a command graph (16_kernel.md R366 Table 3). -/
structure Node where
  kind : Nat
  npred : Nat
  prio : Nat
  recva : W64
  succ : List Nat
  patch : List W32
deriving DecidableEq, Repr

/-- Node states (R360 Table 2). -/
inductive NodeSt where
  | recorded | pending | queued | placed | running | completed | aborted
deriving DecidableEq, Repr

/-- A recorded graph (R366, R367). -/
structure Graph where
  nodes : List Node
  gp : Tbl W64
  status : W64
  running : Bool
  counter : W64
  waiting : List W64
  snap : Tbl W64
  st : Tbl NodeSt
  cnt : Tbl Nat
  err : Tbl Nat
  posted : Option Nat
deriving DecidableEq, Repr

/-- The trajectory ring of a context (20_generation.md R416): what the recorder holds of it, GET as last taken over. -/
structure Ring where
  base : W64
  cap : Nat
  grant : Nat
  get : Nat
  voids : Nat
  posted : Option Nat
deriving DecidableEq, Repr

/-- A context (R298 Table 1, R300, R404, R421). -/
structure Ctx where
  st : CtxSt
  own : BitVec 16
  /-- The key in the context's key slot of the encryption engines (R304), by the model's own number for it; no instruction reads it. -/
  key : Nat
  priv : Bool
  wsel : BitVec 10
  ptbase : W64
  savva : W64
  savsz : W64
  ccnt : W64
  last : W64
  qpos : W64
  /-- Adds that the request counter has still to take, its page being absent (R303). -/
  owes : Nat
  creator : Nat
  tag : Nat
  parts : Tbl PartSt
  cutHeld : BitVec 16
  /-- Target of the cut stop that a part stands at, by quarter (R312). -/
  cutAt : Tbl (Option Nat)
  holdQ : BitVec 16
  req : Option Request
  svf : Bool
  pol : Bool
  kvpg : BitVec 16
  kvnp : BitVec 12
  elog : BitVec 3
  mlock : Bool
  kvproxy : Bool
  marks : Tbl KvMark
  ring : Option Ring
  queues : Tbl (Option Queue)
  graphs : Tbl (Option Graph)
  wvt : Tbl WvEntry
deriving DecidableEq, Repr

def Ctx.none : Ctx where
  st := .free
  own := 0
  key := 0
  priv := false
  wsel := 0
  ptbase := 0
  savva := 0
  savsz := 0
  ccnt := 0
  last := 0
  qpos := 0
  owes := 0
  creator := 0
  tag := 0
  parts := []
  cutHeld := 0
  cutAt := []
  holdQ := 0
  req := Option.none
  svf := false
  pol := false
  kvpg := 0
  kvnp := 0
  elog := 0
  mlock := false
  kvproxy := false
  marks := []
  ring := Option.none
  queues := []
  graphs := []
  wvt := []

/-- A kernel's launch record (R358 Table 1). -/
structure LaunchRec where
  entry : W64
  handler : W64
  param : W64
  done : W64
  gsize : Nat
  csize : Nat
  ngrp : Nat
  prio : Nat
  role : Nat
  kdcnt : Nat
  rkey : BitVec 128
  rctr : BitVec 128
deriving DecidableEq, Repr

def LaunchRec.none : LaunchRec := ⟨0, 0, 0, 0, 0, 0, 0, 0, 0, 0, 0, 0⟩

/-- A chunk operation of a running collective (R369). -/
structure ChunkOp where
  op : Nat
  src : W64
  dst : W64
  len : Nat
  peer : Nat
  dep : Nat
  succ : List Nat
  done : Bool
  /-- Ended without completion (21_link.md R443). -/
  failed : Bool
deriving DecidableEq, Repr

/-- A kernel, copy or collective on its way through the command processor (R360 to R365). `node` names its graph node; a one-node
launch has none. -/
structure Kernel where
  ctx : Nat
  kind : Nat
  node : Option (Nat × Nat)
  recva : W64
  hasRec : Bool
  lrec : LaunchRec
  st : NodeSt
  err : Nat
  waited : Nat
  order : Nat
  counter : W64
  placed : Nat
  retired : Nat
  kdone : List Nat
  completed : Bool
  /-- What a one-node launch still owes its counter, whose page was absent (R368). -/
  owed : Nat
  job : Option Nat
  posted : Option Nat
  chunks : List ChunkOp
  /-- The collective this kernel executes. -/
  exec : Option Nat
  /-- The latest time its cores released (R363). -/
  time : Nat
  /-- What the command processor has received of an address outside the window: the address and the core or engine (11_page.md R281). -/
  outside : Option (W64 × Nat)
  /-- Blocks a copy node has written (R366). -/
  copied : Nat
  /-- Of a collective's executor kernel: payloads its cores have sent, taken and added that no chunk operation has counted, by
  32 × operation + peer (R369). -/
  moves : Tbl Nat
deriving DecidableEq, Repr

/-- Group states (17_group.md R376 Table 1). -/
inductive GroupSt where
  | forming | coResident | running | frozen | retired
deriving DecidableEq, Repr

/-- A group (R374): its kernel, its quarter, its members' core indices in ascending order. -/
structure Group where
  k : Nat
  ctx : Nat
  gidx : Nat
  cohort : Option Nat
  q : Nat
  members : List Nat
  st : GroupSt
  /-- The page the Sweeper waits for in the group's retirement (R424). -/
  posted : Option Nat
deriving DecidableEq, Repr

/-- A cohort (R374, R385): its groups in position order and its four device-barrier slots. -/
structure Cohort where
  k : Nat
  ctx : Nat
  cidx : Nat
  groups : List Nat
  slots : List Nat
  released : Bool
deriving DecidableEq, Repr

/-- Barrier states (18_barrier.md R387). -/
inductive BarSt where
  | idle | collecting | released | broken
deriving DecidableEq, Repr

/-- An arrival held for a future phase (R388, R389). -/
structure HeldArr where
  core : Nat
  entry : Nat
  bit : Nat
  phase : BitVec 32
  value : W32
  time : Nat
deriving DecidableEq, Repr

/-- A barrier (R387). `exp` and `arr` are member masks: a core index in the quarter; or 32 j + m for a cohort and 512 + k for
kiosk core k. -/
structure Barrier where
  st : BarSt
  op : Nat
  ph : BitVec 32
  exp : BitVec 528
  arr : BitVec 528
  acc : W32
  res : W32
  held : List HeldArr
  waiters : List (Nat × BitVec 32)
  /-- The latest time an arrival released (R391). -/
  time : Nat
deriving DecidableEq, Repr

def Barrier.fresh : Barrier := ⟨.idle, 0, 0, 0, 0, 0, 0, [], [], 0⟩

/-- A device-barrier slot (R385). -/
structure DevSlot where
  gen : BitVec 21
  owner : Option Nat
  bar : Barrier
deriving DecidableEq, Repr

def DevSlot.fresh : DevSlot := ⟨0, none, .fresh⟩

/-- A tag-table entry (13_inflight_record.md R322). -/
structure TagEntry where
  ctx : Nat
  core : Nat
  space : Nat
  tag : Nat
  result : W64
deriving DecidableEq, Repr

/-- Tag tables and EVSEQ (R322, R323). -/
structure TagTables where
  tables : Tbl (List TagEntry)
  evseq : List ((Nat × Nat × Nat) × Nat)
deriving DecidableEq, Repr

/-- A lock asked for or held by an ordinary store to a replicated line (09_memory_model.md R257). -/
structure LineLock where
  core : Nat
  line : Nat
  granted : Bool
deriving DecidableEq, Repr

/-- A release store of core or quarter scope (R262): the word it wrote, the value, the core, the scope, the time it carries. -/
structure RelMark where
  word : Nat
  value : Nat
  core : Nat
  scope : Nat
  time : Nat
deriving DecidableEq, Repr

/-- A publish accepted at the WVT (R400, R401): the sequence number its core stood at, the point of an XNMFENCE that was then in force, the
time of the writes it releases. -/
structure Publish where
  ctx : Nat
  t : Nat
  v : BitVec 32
  core : Nat
  done : Bool
  attended : Bool
  seq : Nat
  nm : Option Nat
  time : Nat
deriving DecidableEq, Repr

/-- A reader leaving a slot (R406): `reg` is the binding register whose held bundle asks for it, none where nothing waits for it; `done`
tells that it has left and its bundle has not been answered. -/
structure Leave where
  core : Nat
  ctx : Nat
  t : Nat
  slot : Nat
  seq : Nat
  reg : Option Nat
  done : Bool
deriving DecidableEq, Repr

/-- A PGINV in progress (11_page.md R295, R296): the entry being written and the translation units still to acknowledge. -/
structure PgOp where
  core : Nat
  ctx : Nat
  page : Nat
  move : Bool
  npfn : Nat
  old : W64
  entry : W64
  units : List Nat
  phase : Nat
  status : Nat
  attended : Bool
deriving DecidableEq, Repr

/-- An accepted KVCOMMIT (20_generation.md R425). -/
structure KvCommit where
  ctx : Nat
  grp : Nat
  pairs : List (Nat × Nat)
  cca : W64
  idx : Nat
  prog : Nat
  posted : Option Nat
  /-- The time of the last block copied (09_memory_model.md R259). -/
  ts : Nat
  /-- The destinations are plain, and the counter's add is still to come. -/
  marked : Bool
deriving DecidableEq, Repr

/-- An accepted Sweeper job (R428, R429). -/
structure Job where
  ctx : Nat
  core : Nat
  jid : W64
  addr : W64
  lrec : W64
  e0 : Nat
  n : Nat
  done : W64
  kernel : Option Nat
  posted : Option Nat
  /-- Its entries are plain, and the add at DONE is still to come. -/
  marked : Bool
deriving DecidableEq, Repr

/-- The Sweeper: jobs in acceptance order and the highest JID by context and core. -/
structure Sweeper where
  jobs : List Job
  hiJid : List ((Nat × Nat) × W64)
deriving DecidableEq, Repr

/-- A registered sampling block (R420; 26_prog_actors.md R474). -/
structure SampleBlk where
  ctx : Nat
  addr : W64
  kiosk : Nat
  active : Bool
  lrb : W32
  trb : W32
  t : BitVec 32
  posted : Option Nat
deriving DecidableEq, Repr

/-- Void records still to write (R417). -/
structure VoidRun where
  ctx : Nat
  core : Nat
  first : Nat
  count : Nat
  posted : Option Nat
deriving DecidableEq, Repr

/-- Link port states (21_link.md R436). -/
inductive PortSt where
  | down | training | up | degraded
deriving DecidableEq, Repr

/-- A link port (R435 to R439). By virtual channel: the sequence numbers of the next flit to arrive and the next to leave, and the
credits. `out` holds flits ready to leave, `unacked` the sender's copies, oldest first. -/
structure Port where
  st : PortSt
  en : Bool
  peer : W32
  retry : Nat
  rtx : Nat
  rxSeq : Tbl W32
  txSeq : Tbl W32
  credits : Tbl Nat
  out : List Flit
  unacked : List Flit
  /-- Flits sent, and which of the last 2^20 were sent again (R436). -/
  flits : Nat
  again : List Nat
  /-- The run of 16 flit times in which channel 3 has had its own, plus 1; turns that channels 1 and 2 have had (R439). -/
  bulkRun : Nat
  share : Nat
  /-- Real cycle of the last acknowledgement, or of the last change of state. -/
  ackAt : Nat
  /-- The latest time of a write that arrived here (R440). -/
  rxTime : Nat
deriving DecidableEq, Repr

def Port.reset : Port := ⟨.down, false, 0, 0, 0, [], [], [], [], [], 0, [], 0, 0, 0, 0⟩

/-- An entry of a tree (R441, R442). -/
structure TreeEntry where
  dev : W32
  parent : Nat
  uport : Nat
  dport : Nat
  ecore : Nat
deriving DecidableEq, Repr

inductive TreeSt where
  | free | reserved | allocated
deriving DecidableEq, Repr

/-- A tree slot (R441, R442): free, reserved or allocated to a context, with its descriptor's entries. `ended`: the tree has ended (R443);
`freed`: it was freed, and the slot is free once no chunk operation runs on it (R445). -/
structure Tree where
  st : TreeSt
  ctx : Nat
  mode : Nat
  fmt : Nat
  ents : List TreeEntry
  ended : Bool
  freed : Bool
deriving DecidableEq, Repr

def Tree.free : Tree := ⟨.free, 0, 0, 0, [], false, false⟩

/-- An LKTREE on its way (R442, R444): the slot of the held bundle that asked (four times its core plus the slot), whether it still
waits for the answer, the tree asked for, the tree slot reserved. -/
structure TreeReq where
  key : Nat
  wanted : Bool
  tree : Tree
  slot : Option Nat
deriving DecidableEq, Repr

/-- A host function's registers (R448 Table 7); `taken` counts the commands taken from the ring, `busy` is the one in progress, `posted` the
page whose fault it has posted. The rings' entries stand in host memory. `quota` is how many contexts the physical function lets it create
(R447). -/
structure HostFn where
  cqbase : W64
  rqbase : W64
  qent : BitVec 16
  cput : W32
  rput : W32
  rget : W32
  taken : W32
  busy : Option (BitVec 512)
  posted : Option Nat
  quota : Nat
deriving DecidableEq, Repr

def HostFn.reset : HostFn := ⟨0, 0, 0, 0, 0, 0, 0, none, none, 0⟩

/-- A running stream to a peer (R446): from `src` of its context to `dst` of the peer's context `pctx`; `step` counts the blocks sent, and
`lost` tells that a port or the peer has ended it. Its function's number is its stream number. -/
structure Stream where
  fn : Nat
  ctx : Nat
  form : Nat
  bytes : Nat
  src : W64
  peer : W32
  pctx : Nat
  dst : W64
  step : Nat
  lost : Bool
deriving DecidableEq, Repr

/-- PART (R409 Table 3), and the role mask of a repartition in progress. -/
structure PartReg where
  chg : BitVec 16
  busy : Bool
  hold : Bool
  lrn : BitVec 16
  lrnNew : BitVec 16
deriving DecidableEq, Repr

/-- What a page of a service's window is mapped to (01_device.md R16; R290, R438, R450). -/
inductive DevPage where
  | fbuf | errlog | links | fabric
deriving DecidableEq, Repr

/-- What a launch puts into each core of a program besides the launch record: a tile declared with `.tile` and the blocks of its
`.data` (R54; 04_encoding.md R124; 10_tile.md R270), or a region of the weight buffer from block `first` on that the launch fills
(07_matrix.md R188). It comes with the program, by the context and entry address of the kernel (log entry 40). -/
structure Preload where
  ctx : Nat
  entry : W64
  tile : Option Nat
  layout : BitVec 16
  first : Nat
  blocks : List (BitVec 512 × BitVec 16)
deriving DecidableEq, Repr

/-- Root of trust and bring-up (R458 to R460). -/
structure Root where
  step : BitVec 4
  ready : Bool
  fail : Bool
  anonce : BitVec 256
  adst : W64
  astat : BitVec 2
  boots : Nat
deriving DecidableEq, Repr

/-- The machine. `fresh` is the model's own counter of free values (log entry 3), `agenda` the events its surroundings have chosen
to happen next (log entry 5), `cur` the core whose operations `exec` runs. -/
structure State where
  now : Nat
  fresh : Nat
  agenda : List Instr
  cur : Nat
  root : Root
  /-- DRAM of both tiers by physical address. -/
  mem : Memory
  /-- The seal of each 16-byte piece of DRAM: under which key, owner tag and virtual page it was written (12_context.md R304). Runs of
  pieces, newest first: first piece, count, seal. -/
  seals : List (Nat × Nat × Nat)
  /-- Keys the root of trust has made so far. -/
  keys : Nat
  /-- Rows of the replica directories, by 65536 × context + RIDX: the frames of the replicas on compute dies 1 to 8 (11_page.md R284). -/
  dirs : Tbl (List Nat)
  hostMem : Memory
  lineTimes : Tbl (Nat × Nat)
  locks : List LineLock
  /-- Release stores of core and quarter scope, as later loads meet them (09_memory_model.md R262, R263). -/
  rels : List RelMark
  cores : Tbl Core
  answers : Tbl (Option W64)
  sends : List Send
  ctxs : Tbl Ctx
  xlate : Tbl (Tbl W64)
  devMap : List ((Nat × Nat) × DevPage)
  fbuf : Fbuf
  /-- What the command processor has received of addresses outside a window: the address, and the core or engine that used it, newest
  first (11_page.md R281). -/
  outsides : List (W64 × Nat)
  log : ErrLog
  dcnt : Tbl Nat
  deadDies : BitVec 9
  qmap : Tbl (Option Nat)
  outQ : BitVec 16
  spares : List Nat
  kiosk : List Nat
  part : PartReg
  kernels : Tbl (Option Kernel)
  nextKernel : Nat
  groups : Tbl (Option Group)
  nextGroup : Nat
  cohorts : Tbl (Option Cohort)
  nextCohort : Nat
  qbar : Tbl Barrier
  dbar : Tbl DevSlot
  tags : TagTables
  pubs : List Publish
  leaves : List Leave
  pgops : List PgOp
  kvcommits : List KvCommit
  tickets : List ((Nat × Nat) × Nat)
  sweeper : Sweeper
  samples : List SampleBlk
  voids : List VoidRun
  ports : Tbl Port
  trees : Tbl Tree
  treeReqs : List TreeReq
  fns : Tbl HostFn
  streams : List Stream
  /-- What the last host read of device memory returned (21_link.md R447). -/
  hostData : List (BitVec 8)
  preloads : List Preload
  duty : BitVec 2
  /-- Cores as their parts' last saves found them, by 1024 × context + core: what the image has no place for (log entry 11). -/
  kept : Tbl Core
deriving DecidableEq, Repr

/-! ### Why a step stops -/

/-- Faults: the machine stops because the spec gives what was asked no effect. Each is safe: no claim follows from a stop. -/
inductive Fault where
  /-- A translation used a present entry whose PFN names no frame of R285 (11_page.md): an address that does not exist. Raised by
  any access. Safe. -/
  | noFrame (pa : Nat)
  /-- An event of a state table's cell that holds "—": it cannot arise in that state (00_scope.md R8), or names a unit, core or
  entry that does not exist. Raised by the event rows. Safe. -/
  | eventCannotArise (row : String)
deriving DecidableEq, Repr

/-- Refusals: the model answers by name instead of giving a meaning. -/
inductive Refusal where
  /-- The row of the opcode table has no meaning yet. Raised by `exec`'s refused arms only. Safe. -/
  | notModelled (mnemonic : String)
deriving DecidableEq, Repr

/-- The machine right after reset: bring-up at its first step, no context, no program (22_reliability.md R460). -/
def State.reset : State where
  now := 0
  fresh := 0
  agenda := []
  cur := 0
  root := ⟨0, false, false, 0, 0, 0, 0⟩
  mem := .empty
  seals := []
  keys := 0
  dirs := []
  hostMem := .empty
  lineTimes := []
  locks := []
  rels := []
  cores := []
  answers := []
  sends := []
  ctxs := []
  xlate := []
  devMap := []
  fbuf := ⟨0, 0, 0, [], [], 0⟩
  outsides := []
  log := ⟨0, 0, 0, 0, [], 0⟩
  dcnt := []
  deadDies := 0
  qmap := []
  outQ := 0
  spares := [16, 17]
  kiosk := [0, 0, 0, 0, 1, 1, 1, 1, 1, 1, 1, 1, 2, 2, 3, 4]
  part := ⟨0, false, false, 0xFF00, 0xFF00⟩
  kernels := []
  nextKernel := 0
  groups := []
  nextGroup := 0
  cohorts := []
  nextCohort := 0
  qbar := []
  dbar := []
  tags := ⟨[], []⟩
  pubs := []
  leaves := []
  pgops := []
  kvcommits := []
  tickets := []
  sweeper := ⟨[], []⟩
  samples := []
  voids := []
  ports := []
  trees := []
  treeReqs := []
  fns := []
  streams := []
  hostData := []
  preloads := []
  duty := 0
  kept := []

end Sys2Proof.Machine
end

