-- ==== Sys2Proof/Machine/Memory.lean ====
section
/-! DEFINITION. Access to the parts of the state, bytes and tags of the memories, logical times (09_memory_model.md), translation
(11_page.md) and the marks and slots an access is examined against (19_weight_versions.md R399; 20_generation.md R422, R423). -/

namespace Sys2Proof.Machine

/-! ### Parts of the state -/

def State.core (s : State) (n : Nat) : Core := Tbl.get .idle s.cores n
def State.setCore (s : State) (n : Nat) (c : Core) : State := { s with cores := Tbl.set .idle s.cores n c }
def State.upd (s : State) (n : Nat) (f : Core → Core) : State := s.setCore n (f (s.core n))
def State.ctx (s : State) (x : Nat) : Ctx := Tbl.get .none s.ctxs x
def State.setCtx (s : State) (x : Nat) (c : Ctx) : State := { s with ctxs := Tbl.set .none s.ctxs x c }
def State.updCtx (s : State) (x : Nat) (f : Ctx → Ctx) : State := s.setCtx x (f (s.ctx x))
def State.kernel (s : State) (k : Nat) : Option Kernel := Tbl.get none s.kernels k
def State.setKernel (s : State) (k : Nat) (v : Kernel) : State := { s with kernels := Tbl.set none s.kernels k (some v) }
def State.group (s : State) (g : Nat) : Option Group := Tbl.get none s.groups g
def State.setGroup (s : State) (g : Nat) (v : Group) : State := { s with groups := Tbl.set none s.groups g (some v) }

/-- The next free value (log entry 3). -/
def State.draw (s : State) : W64 × State := (Config.freeValue s.fresh, { s with fresh := s.fresh + 1 })

/-- The next free choice (log entry 21). -/
def State.choose (s : State) : Bool × State := (Config.freeChoice s.fresh, { s with fresh := s.fresh + 1 })

/-- Kiosk core k stands at 512 + k. -/
def isKiosk (n : Nat) : Bool := decide (512 ≤ n)
/-- The core exists. -/
def coreExists (n : Nat) : Bool := decide (n < 528)
/-- Logical quarter of a quarter core (R13). -/
def quarterOf (n : Nat) : Nat := n / 32
/-- The translation unit a core uses (R282): its quarter's, or its own. -/
def tuOf (n : Nat) : Nat := if isKiosk n then n - 496 else n / 32
/-- SRC code of a core (R290 Table 4) and its number in records (R418): kiosk core k is 0x200 + k, the model's 512 + k. -/
def srcOf (n : Nat) : Nat := n

/-! ### Bytes and tags -/

def Memory.byte (m : Memory) (a : Nat) : Byte := Tbl.get 0 m.cells a
def Memory.setByte (m : Memory) (a : Nat) (b : Byte) : Memory := { m with cells := Tbl.set 0 m.cells a b }
/-- `n` bytes from `a`, little-endian (R5). -/
def Memory.read (m : Memory) (a : Nat) : Nat → Nat
  | 0 => 0
  | n + 1 => (m.byte a).toNat + 256 * m.read (a + 1) n
/-- Store the low `n` bytes of `v` at `a`, little-endian. -/
def Memory.write (m : Memory) (a : Nat) : Nat → Nat → Memory
  | 0, _ => m
  | n + 1, v => (m.setByte a (BitVec.ofNat 8 v)).write (a + 1) n (v / 256)
/-- Tag of block `k` (bytes 64k to 64k + 63). -/
def Memory.tag (m : Memory) (k : Nat) : BitVec 16 := Tbl.get 0 m.tags k
def Memory.setTag (m : Memory) (k : Nat) (t : BitVec 16) : Memory := { m with tags := Tbl.set 0 m.tags k t }
/-- A block's 64 bytes. -/
def Memory.block (m : Memory) (k : Nat) : BitVec 512 := BitVec.ofNat 512 (m.read (64 * k) 64)
/-- A whole-block write: bytes and tag. -/
def Memory.setBlock (m : Memory) (k : Nat) (d : BitVec 512) (t : BitVec 16) : Memory :=
  (m.write (64 * k) 64 d.toNat).setTag k t
/-- Drop every cell and tag of [lo, hi), both multiples of 64. -/
def Memory.clear (m : Memory) (lo hi : Nat) : Memory :=
  ⟨m.cells.filter (fun c => c.1 < lo || hi ≤ c.1), m.tags.filter (fun c => c.1 < lo / 64 || hi / 64 ≤ c.1)⟩

/-! ### DRAM as a context reaches it (12_context.md R304; 09_memory_model.md R250)

An address of DRAM carries above its physical address (bits 45 to 0) the seal it is reached under (from bit 50): key, owner tag and
virtual page of the access, 0 for an access in the clear. -/

/-- Where the bytes stand. -/
def loc (a : Nat) : Nat := a % 2 ^ 50
def phys (a : Nat) : Nat := a % 2 ^ 46
def sealOf (a : Nat) : Nat := a / 2 ^ 50
/-- The same byte of the page in frame `f`. -/
def inFrame (a f : Nat) : Nat := a - phys a / 2 ^ 22 * 2 ^ 22 + f * 2 ^ 22

/-- The seal of context `x` at `va`: two accesses have one seal when they use one key and one tweak. -/
def State.sealNo (s : State) (x : Nat) (va : W64) : Nat :=
  1 + va.toNat / 2 ^ 22 + 2 ^ 42 * ((s.ctx x).own.toNat + 2 ^ 16 * (s.ctx x).key)

/-- The 16-byte pieces of `n` bytes at `a`. -/
def piecesOf (a n : Nat) : List Nat := (List.range (((loc a + n - 1) / 16 + 1) - loc a / 16)).map (fun j => loc a / 16 + j)

/-- The seal piece `p` was written under; 0 where the machine's surroundings left it (log entry 2). -/
def State.sealAt (s : State) (p : Nat) : Nat :=
  match s.seals.find? (fun r => decide (r.1 ≤ p) && decide (p < r.1 + r.2.1)) with | some r => r.2.2 | none => 0

/-- Piece `p` reads as it was written. -/
def State.pieceOpen (s : State) (z p : Nat) : Bool := s.sealAt p = 0 || s.sealAt p = z

/-- Piece `p` as an access under seal `z` decrypts it. -/
def State.openPiece (s : State) (z : Nat) (m : Memory) (p : Nat) : Memory :=
  if s.pieceOpen z p then m
  else m.write (16 * p) 16 (Config.scramble (s.sealAt p) z p (BitVec.ofNat 128 (m.read (16 * p) 16))).toNat

/-- Memory as an access to `n` bytes at `a` sees it. -/
def State.decrypted (s : State) (a n : Nat) : Memory := (piecesOf a n).foldl (s.openPiece (sealOf a)) s.mem

/-- Every piece of `n` bytes at `a` reads as it was written. -/
def State.plain (s : State) (a n : Nat) : Bool := (piecesOf a n).all (s.pieceOpen (sealOf a))

/-- Read `n` bytes of DRAM. -/
def State.rd (s : State) (a n : Nat) : Nat := (s.decrypted a n).read (loc a) n
/-- The pieces of `n` bytes at `a` take the access's seal. -/
def State.sealed (s : State) (a n : Nat) : List (Nat × Nat × Nat) :=
  if (piecesOf a n).all (fun p => s.sealAt p = sealOf a) then s.seals else (loc a / 16, (piecesOf a n).length, sealOf a) :: s.seals
/-- Write `n` bytes of DRAM. -/
def State.put (s : State) (a n v : Nat) : State := { s with mem := (s.decrypted a n).write (loc a) n v, seals := s.sealed a n }
/-- The block that holds `a`, and its tag. -/
def State.rdBlock (s : State) (a : Nat) : BitVec 512 := BitVec.ofNat 512 (s.rd (a / 64 * 64) 64)
def State.tagOf (s : State) (a : Nat) : BitVec 16 := s.mem.tag (loc a / 64)
def State.putTag (s : State) (a : Nat) (t : BitVec 16) : State := { s with mem := s.mem.setTag (loc a / 64) t }
def State.putBlock (s : State) (a : Nat) (d : BitVec 512) (t : BitVec 16) : State := (s.put (a / 64 * 64) 64 d.toNat).putTag a t

/-- A poisoned tag (R69). -/
def poisoned (t : BitVec 16) : Bool := t.toNat / 256 = 0xFF || t.toNat % 256 = 255
/-- Format code of a tag. -/
def tagCode (t : BitVec 16) : Nat := t.toNat / 256
def tagScale (t : BitVec 16) : Nat := t.toNat % 256
def mkTag (code scale : Nat) : BitVec 16 := BitVec.ofNat 16 (code % 256 * 256 + scale % 256)
/-- The tag a poisoned write gives (R225). DESIGN CHOICE (log entry 61): the spec gives its code 0xFF and no scale byte; the model takes 0. -/
def poisonTag : BitVec 16 := 0xFF00
/-- A code of Table 3 of 03_numbers.md. -/
def codeDefined (c : Nat) : Bool :=
  c ≤ 6 || (0x10 ≤ c && c ≤ 0x17) || c = 0x20 || c = 0x30 || c = 0xFF

/-! ### Logical time (R254) -/

/-- Key of line `l` of global memory in the table of line times. -/
def globalLine (pa : Nat) : Nat := loc pa / 64
/-- Key of the line of byte `off` of core `n`'s scratchpad. -/
def spadLine (n off : Nat) : Nat := 2 ^ 45 + n * 2 ^ 14 + off / 64

/-- Key of the line that holds the marks of page `p` of context `x` at its home (20_generation.md R422). -/
def markLine (x p : Nat) : Nat := 2 ^ 46 + x * 2 ^ 16 + p

/-- Key of the state of tile `t` of core `n` (10_tile.md R275). -/
def tileLine (n t : Nat) : Nat := 2 ^ 45 + n * 2 ^ 14 + 2 ^ 13 + t

/-- A read at the home by a core: the lease is extended and the core's clock follows the write time. Answers how long the core reads
its copy: the lease, and less than 1024 beyond the time it reads at, so that eight ticks of CLK spend it (R255; log entry 16). -/
def State.readTime (s : State) (n line : Nat) : State × Nat :=
  let (w, r) := Tbl.get (0, 0) s.lineTimes line
  let clk := (s.core n).clk
  let r' := max r (max clk w + 1024)
  ({ s with lineTimes := Tbl.set (0, 0) s.lineTimes line (w, r') }.upd n (fun c => { c with clk := max clk w }), min r' (max clk w + 1023))

/-- A write at the home by a writer whose clock is `clk`: answers the timestamp. -/
def State.writeTime (s : State) (clk line : Nat) : State × Nat :=
  let r := (Tbl.get (0, 0) s.lineTimes line).2
  let ts := max clk (r + 1)
  ({ s with lineTimes := Tbl.set (0, 0) s.lineTimes line (ts, ts) }, ts)

/-- A write by core `n`: its clock becomes the timestamp and its own copy of the line goes. -/
def State.coreWriteTime (s : State) (n line : Nat) : State :=
  let (s, ts) := s.writeTime (s.core n).clk line
  s.upd n (fun c => { c with clk := ts, copies := c.copies.filter (fun k => k.1 % 2 ^ 44 ≠ line) })

/-- Store `n` bytes at a physical address as a writer whose clock is `clk`. -/
def State.timedStore (s : State) (clk pa n v : Nat) : State :=
  let l := globalLine pa
  let m := globalLine (pa + n - 1)
  let (s, ts) := s.writeTime clk l
  let s := if m = l then s else (s.writeTime ts m).1
  s.put pa n v

/-- Store `n` bytes at a physical address as a writer without a clock (engines, atomics, recorder, service). -/
def State.engineStore (s : State) (pa n v : Nat) : State :=
  let (s, _) := s.writeTime 0 (globalLine pa)
  s.put pa n v

/-- A whole-block write of an engine. -/
def State.engineBlock (s : State) (pa : Nat) (d : BitVec 512) (t : BitVec 16) : State :=
  let (s, _) := s.writeTime 0 (globalLine pa)
  s.putBlock pa d t

/-- A whole-block write of an engine that has written by time `clk` before: its own time. -/
def State.blockWrite (s : State) (clk pa : Nat) (d : BitVec 512) (t : BitVec 16) : State × Nat :=
  let (s, ts) := s.writeTime clk (globalLine pa)
  (s.putBlock pa d t, ts)

/-- An engine of core `n` has written at time `ts`. -/
def State.noteWrite (s : State) (n ts : Nat) : State := s.upd n (fun c => { c with wts := max c.wts ts })

/-- One write of `n` bytes at `pa` takes one time on every line it touches (R253, R254). -/
def State.writeTimes (s : State) (clk pa n : Nat) : State × Nat :=
  let l := globalLine pa
  let m := globalLine (pa + n - 1)
  let (s, ts) := s.writeTime clk l
  if m = l then (s, ts)
  else
    let (s, ts) := s.writeTime ts m
    ({ s with lineTimes := Tbl.set (0, 0) s.lineTimes l (ts, ts) }, ts)

/-- Entry `k` of core `n` changes. -/
def State.updEntry (s : State) (n k : Nat) (f : IfrEntry → IfrEntry) : State :=
  s.upd n (fun c => { c with ifr := c.ifr.map (fun x => if x.1 = k then (k, f x.2) else x) })

/-- The time a command's next write is no earlier than: its blocks are performed in ascending order (R259). -/
def State.cmdTime (s : State) (n k : Nat) : Nat :=
  match (s.core n).ifr.find? (fun x => x.1 = k) with | some x => x.2.ts | none => 0

/-- Command `k` of core `c` has written at time `ts`. -/
def State.noteCmd (s : State) (c k ts : Nat) : State := (s.noteWrite c ts).updEntry c k (fun e => { e with ts := ts })

/-- Store `n` bytes as command `k` of core `c`, no earlier than `clk`. -/
def State.asyncStore (s : State) (c k clk pa n v : Nat) : State :=
  let (s, ts) := s.writeTimes (max clk (s.cmdTime c k)) pa n
  (s.put pa n v).noteCmd c k ts

/-- A whole-block write of command `k` of core `c`. -/
def State.asyncBlock (s : State) (c k pa : Nat) (d : BitVec 512) (t : BitVec 16) : State :=
  let (s, ts) := s.writeTime (s.cmdTime c k) (globalLine pa)
  (s.putBlock pa d t).noteCmd c k ts

/-- What a store by software of `n` bytes `v` at `va` leaves: the bytes stored, but in the header of a trajectory ring, whose fields other
than GET are read-only and whose GET does not pass GRANT (20_generation.md R416, R417). -/
def State.ringValue (s : State) (x : Nat) (va : W64) (pa n v : Nat) : Nat :=
  match (s.ctx x).ring with
  | none => v
  | some r =>
    if va.toNat / 64 ≠ r.base.toNat / 64 then v else
    let o := va.toNat % 64
    let m := 8 * min n (64 - o)
    let b := s.rd (pa / 64 * 64) 64
    let field (w : Nat) : Nat := w / 2 ^ 64 % 2 ^ 64
    let get := field (b % 2 ^ (8 * o) + v % 2 ^ m * 2 ^ (8 * o) + b / 2 ^ (8 * o + m) * 2 ^ (8 * o + m))
    let get := if get ≤ r.grant then get else field b
    (b % 2 ^ 64 + get * 2 ^ 64 + b / 2 ^ 128 * 2 ^ 128) / 2 ^ (8 * o) % 2 ^ m + v / 2 ^ m * 2 ^ m

/-- Store `len` bytes at `va` as command `k` of core `n`. -/
def State.commandStore (s : State) (n k : Nat) (va : W64) (pa len v : Nat) : State :=
  s.asyncStore n k 0 pa len (s.ringValue (s.core n).ctx va pa len v)

/-- A whole-block write at `va` of command `k` of core `n`. -/
def State.commandBlock (s : State) (n k : Nat) (va : W64) (pa : Nat) (d : BitVec 512) (t : BitVec 16) : State :=
  s.asyncBlock n k pa (BitVec.ofNat 512 (s.ringValue (s.core n).ctx va pa 64 d.toNat)) t

/-- The time a release of core `n` carries (R263; log entry 32). -/
def State.relTime (s : State) (n : Nat) : Nat := max (s.core n).clk (s.core n).wts

/-- Core `n` acquires what was released by time `t`. -/
def State.acquire (s : State) (n t : Nat) : State := s.upd n (fun c => { c with clk := max c.clk t })

/-- Store by core `n`, as an ordinary access. -/
def State.coreStore (s : State) (n pa k v : Nat) : State :=
  (s.coreWriteTime n (globalLine pa)).put pa k v

/-- A line is one of these. -/
def lineIn (l : List Nat) (k : Nat) : Bool := l.any (fun a => globalLine a = k % 2 ^ 44)

/-- A core's copies of lines go, and the values with which requests of a held bundle for them were answered: the load that waits returns
what the home then holds (R258). A request whose line is not known is one of them. -/
def Core.forget (l : List Nat) (c : Core) : Core :=
  { c with copies := c.copies.filter (fun k => !lineIn l k.1),
           ifr := c.ifr.map (fun e => if 96 ≤ e.1 ∧ e.2.kind = 1 ∧ (e.2.payload = [] ∨ e.2.payload.any (lineIn l)) then (e.1, { e.2 with rejected := e.2.ans }) else e) }

/-- One write to every replica of a line, all at one time (R257): `put` stores at one place. -/
def State.commit (s : State) (n : Nat) (places : List Nat) (put : State → Nat → State) : State :=
  let ts := max (s.core n).clk (places.foldl (fun m a => max m (Tbl.get (0, 0) s.lineTimes (globalLine a)).2) 0 + 1)
  let s := places.foldl (fun s a => put { s with lineTimes := Tbl.set (0, 0) s.lineTimes (globalLine a) (ts, ts) } a) s
  { s with cores := s.cores.map (fun (c : Nat × Core) => (c.1, { c.2.forget places with copies := c.2.copies })) }.upd n (fun c => { c.forget places with clk := ts })

/-- A core lies within the scope of a release of another (R262 Table 3). -/
def scopeHolds (scope a b : Nat) : Bool :=
  match scope with
  | 0 => a = b
  | 1 => a = b || (!isKiosk a && !isKiosk b && quarterOf a = quarterOf b)
  | _ => true

/-- A load by core `n` that returns the value of a release store whose scope holds it acquires what the release carries (R263). -/
def State.meetRelease (s : State) (n pa k : Nat) : State :=
  s.rels.foldl (fun s r =>
    if decide (loc pa ≤ loc r.word + 7) && decide (loc r.word < loc pa + k) && decide (s.rd r.word 8 = r.value) && scopeHolds r.scope r.core n
    then s.acquire n r.time else s) s

/-- The copy core `n` holds of line `line`, by the address it was read at, when its lease is not spent. -/
def State.liveCopy (s : State) (n line : Nat) : Option Copy :=
  let c := s.core n
  let k := Tbl.get ⟨0, 0, 0⟩ c.copies line
  if k.lease ≠ 0 ∧ c.clk ≤ k.lease then some k else none

/-- Lines of a core's first-level data cache (R14, R15). -/
def dataLines (n : Nat) : Nat := if isKiosk n then 1024 else 8192
/-- Lines of a core's instruction cache (R14, R15). -/
def codeLines : Nat := 2048

/-- A full cache of `limit` lines gives up one, which a free value names (log entry 45). -/
def makeRoom {α : Type} (limit free : Nat) (t : Tbl α) : Tbl α := if t.length < limit then t else t.eraseIdx (free % t.length)

/-- The line of code that a fetch of core `n` at `pa` meets: the one its instruction cache holds or, by the `j`-th free choice, what memory
holds; no rule says when a cache lets a line go (log entry 45). -/
def State.codeLine (s : State) (n pa j : Nat) : Copy :=
  let k := Tbl.get ⟨0, 0, 0⟩ (s.core n).icache (pa / 64)
  if k.lease ≠ 0 && Config.freeChoice j then k else ⟨s.rdBlock pa, s.tagOf pa, 1⟩

/-- A core's instruction cache holds the line at `k`, and gives up another where it is full. -/
def Core.takeCode (free k : Nat) (v : Copy) (c : Core) : Core :=
  { c with icache := Tbl.set ⟨0, 0, 0⟩ (makeRoom codeLines free (c.icache.filter (fun x => x.1 ≠ k))) k v }

/-- Core `n` takes a copy of the line at `k` into its data cache. -/
def State.takeCopy (s : State) (n k : Nat) (v : Copy) : State :=
  if (s.core n).copies.length < dataLines n then s.upd n (fun c => { c with copies := Tbl.set ⟨0, 0, 0⟩ c.copies k v })
  else
    let (u, s) := s.draw
    s.upd n (fun c => { c with copies := Tbl.set ⟨0, 0, 0⟩ (makeRoom (dataLines n) u.toNat (c.copies.filter (fun x => x.1 ≠ k))) k v })

/-- Read at the home: the value, its block's tag, and the copy taken. -/
def State.homeLoad (s : State) (n pa k : Nat) : (Nat × BitVec 16) × State :=
  let (s, lease) := (s.meetRelease n pa k).readTime n (globalLine pa)
  let d := s.rdBlock pa
  let t := s.tagOf pa
  ((s.rd pa k, t), s.takeCopy n (pa / 64) ⟨d, t, lease⟩)

/-- Bytes of a block held as a number. -/
def blockBytes (d : BitVec 512) (off n : Nat) : Nat := (d.toNat >>> (8 * off)) % 2 ^ (8 * n)

/-! ### Translation (R280 to R287) -/

/-- Permission bits, in the order of R287 Table 3 with bit 11 for SL. -/
def permSL : Nat := 0x800
def permSS : Nat := 0x400
def permVT : Nat := 0x200
def permXR : Nat := 0x100
def permXW : Nat := 0x080
def permX1 : Nat := 0x040
def permWB : Nat := 0x020
def permNM : Nat := 0x010
def permTR : Nat := 0x008
def permBF : Nat := 0x004
def permLK : Nat := 0x002
def permSV : Nat := 0x001

/-- Fields of a page entry (R283 Table 1). -/
def peState (e : W64) : Nat := bits e.toNat 39 37
def pePfn (e : W64) : Nat := e.toNat >>> 40
def pePerm (e : W64) : Nat := bits e.toNat 31 20
def peRidx (e : W64) : Nat := bits e.toNat 19 4
def peWith (e : W64) (st : Nat) : W64 := BitVec.ofNat 64 (e.toNat - peState e * 2 ^ 37 + st * 2 ^ 37)
def peWithPfn (e : W64) (p : Nat) : W64 := BitVec.ofNat 64 (e.toNat % 2 ^ 40 + p % 2 ^ 24 * 2 ^ 40)
def peWithRidx (e : W64) (r : Nat) : W64 := BitVec.ofNat 64 (e.toNat - peRidx e * 16 + r % 2 ^ 16 * 16)

/-- PFN names a frame (R285 Table 2). -/
def frameNamed (p : Nat) : Bool :=
  (p < 2 ^ 18 && p / 2 ^ 14 ≤ 11 && p % 2 ^ 14 < 15258) || (2 ^ 23 ≤ p && p - 2 ^ 23 < 366210)
/-- Home of a physical address: 0 to 11 a stack, 12 the second tier (R319). -/
def homeOf (a : Nat) : Nat := if phys a / 2 ^ 45 = 1 then 12 else phys a / 2 ^ 36

/-- The physical quarter a logical quarter stands on (01_device.md R13): its own number until it is substituted (log entry 91). -/
def State.physOf (s : State) (q : Nat) : Nat := (Tbl.get none s.qmap q).getD q
/-- The compute die that serves a core (01_device.md R12); kiosk cores use the primary (R250). -/
def State.dieOf (s : State) (n : Nat) : Nat := if isKiosk n then 0 else s.physOf (quarterOf n) / 2

/-- Window test (R280). -/
def inWindow (c : Ctx) (va : W64) : Bool := va.toNat / 2 ^ 38 = c.wsel.toNat
def pageOf (va : W64) : Nat := bits va.toNat 37 22
def windowBase (c : Ctx) : Nat := c.wsel.toNat * 2 ^ 38

/-- The entry a translation unit holds for a page of a context. -/
def State.entry (s : State) (tu ctx page : Nat) : W64 := Tbl.get 0 (Tbl.get [] s.xlate (64 * tu + ctx)) page
def State.setEntry (s : State) (tu ctx page : Nat) (e : W64) : State :=
  { s with xlate := Tbl.set [] s.xlate (64 * tu + ctx) (Tbl.set 0 (Tbl.get [] s.xlate (64 * tu + ctx)) page e) }

/-- What a translation finds (R286 Table 3a). -/
inductive Xl where
  | outside
  | absent (kind : Nat)
  | poisonedPage
  | denied
  | noFrame (pa : Nat)
  | dev (d : DevPage) (off : Nat)
  | ok (pa : Nat) (repl : Bool)
deriving DecidableEq, Repr

/-- The device page mapped at a page of a context (R290, R438, R450). -/
def devAt : List ((Nat × Nat) × DevPage) → Nat → Nat → Option DevPage
  | [], _, _ => none
  | ((x, p), d) :: t, ctx, page => if x = ctx ∧ p = page then some d else devAt t ctx page

/-- Translate `va` of context `ctx` at unit `tu` for a requester that needs the permission bits `need`: window, STATE, PERM. -/
def translate (s : State) (tu ctx : Nat) (va : W64) (need : Nat) : Xl :=
  if !inWindow (s.ctx ctx) va then .outside else
  match devAt s.devMap ctx (pageOf va) with
  | some d => if need = permSL ∨ need = permSS ∨ (need = permXR ∧ (d = .fbuf ∨ d = .errlog)) then .dev d (va.toNat % 2 ^ 22) else .denied
  | none =>
    let e := s.entry tu ctx (pageOf va)
    let st := peState e
    if st = 4 then .poisonedPage
    else if st = 2 then .absent 2
    else if st ≠ 1 ∧ st ≠ 3 then .absent 1
    else if Nat.land (pePerm e) need ≠ need then .denied
    else
      let pa := pePfn e * 2 ^ 22 + va.toNat % 2 ^ 22
      if frameNamed (pePfn e) then .ok (pa + 2 ^ 50 * s.sealNo ctx va) (st = 3) else .noFrame pa

/-! ### KV entries (R422) and tensor slots (R397, R399) -/

/-- The KV region is defined and holds `va`: the entry. -/
def kvEntry (c : Ctx) (va : W64) : Option Nat :=
  let base := windowBase c + c.kvpg.toNat * 2 ^ 22
  if c.kvnp = 0 ∨ va.toNat < base ∨ base + c.kvnp.toNat * 2 ^ 22 ≤ va.toNat then none
  else some ((va.toNat - base) / (64 * 2 ^ c.elog.toNat))
def kvMark (c : Ctx) (e : Nat) : KvMark := Tbl.get .plain c.marks e
/-- Address of entry e, and of the proxy of an address. -/
def kvAddr (c : Ctx) (e : Nat) : Nat := windowBase c + c.kvpg.toNat * 2 ^ 22 + e * (64 * 2 ^ c.elog.toNat)
def kvProxyAddr (c : Ctx) (va : W64) : W64 := va + BitVec.ofNat 64 (c.kvnp.toNat * 2 ^ 22)
/-- Number of entries, and entries of a page. -/
def kvCount (c : Ctx) : Nat := c.kvnp.toNat * 2 ^ (16 - c.elog.toNat)
def kvPerPage (c : Ctx) : Nat := 2 ^ (16 - c.elog.toNat)

/-- What an entry's mark makes of a block access by a requester of group `grp` (none: of no group), R423 Table 5. -/
inductive KvSays where
  | perform | refuse | wait | proxy
deriving DecidableEq, Repr

def kvSays (c : Ctx) (grp : Option Nat) (write : Bool) (va : W64) : KvSays :=
  match kvEntry c va with
  | none => .perform
  | some e =>
    match kvMark c e with
    | .plain => .perform
    | .spec g => if grp = some g then .perform else .refuse
    | .pending => if write then .perform else if c.kvproxy then .proxy else .wait

/-- Marks of entries of page `p` change, as one store by a writer whose clock is `clk` (R422). -/
def State.markStore (s : State) (x p clk : Nat) : State × Nat := s.writeTime clk (markLine x p)

/-- A read of core `n` at the home of a block of a KV entry examines its mark there: the read stands between the mark's changes, and the
copy taken is readable no longer than until the next (R423). -/
def State.readMark (s : State) (n x : Nat) (va : W64) (line : Nat) : State :=
  if (kvEntry (s.ctx x) va).isNone then s else
  let (s, lease) := s.readTime n (markLine x (pageOf va))
  s.upd n (fun c =>
    let k := Tbl.get ⟨0, 0, 0⟩ c.copies line
    { c with copies := Tbl.set ⟨0, 0, 0⟩ c.copies line { k with lease := min k.lease lease } })

/-- The slot whose range holds `va`, with its state. -/
def wvSlotGo (va : Nat) : Tbl WvEntry → Option SlotSt
  | [] => none
  | (_, e) :: t =>
    let has (w : WvSlot) := decide (e.ver ≠ 0 ∧ w.npg ≠ 0 ∧ w.base.toNat ≤ va ∧ va < w.base.toNat + w.npg * 2 ^ 22)
    if has e.s0 then some e.s0.st else if has e.s1 then some e.s1.st else wvSlotGo va t
def wvSlotAt (c : Ctx) (va : W64) : Option SlotSt := wvSlotGo va.toNat c.wvt

/-- The lines of a slot whose publish commits are locked (09_memory_model.md R257, R258). -/
def wvLocked (c : Ctx) (va : W64) : Bool :=
  c.wvt.any (fun t =>
    let w := if t.2.act = 0 then t.2.s1 else t.2.s0
    t.2.cmt && decide (w.base.toNat ≤ va.toNat) && decide (va.toNat < w.base.toNat + w.npg * 2 ^ 22))

/-- Frames of the replicas on compute dies 1 to 8 of a page, from its directory row (11_page.md R284). -/
def State.replicaFrames (s : State) (x : Nat) (e : W64) : List Nat := Tbl.get [] s.dirs (65536 * x + peRidx e)

/-- The replica on compute die `d` of the place `pa` of a page with entry `e`: on die 0 the primary. -/
def State.onDie (s : State) (x : Nat) (e : W64) (pa d : Nat) : Nat := if d = 0 then pa else inFrame pa (nth (pePfn e) (s.replicaFrames x e) (d - 1))

/-- Where a load of core `n` in context `x` reads: on a replicated page the replica of its own die (R250), but the primary of a slot
that is being written (19_weight_versions.md R399). -/
def State.ownReplica (s : State) (n x : Nat) (va : W64) (pa : Nat) : Nat :=
  let e := s.entry (tuOf n) x (pageOf va)
  if peState e = 3 && decide (wvSlotAt (s.ctx x) va ≠ some .writing) then s.onDie x e pa (s.dieOf n) else pa

/-- Every replica of the place `pa` of `va`, the primary first. -/
def State.replicas (s : State) (n x : Nat) (va : W64) (pa : Nat) : List Nat :=
  pa :: (s.replicaFrames x (s.entry (tuOf n) x (pageOf va))).map (inFrame pa)

/-- A write to the slot that holds `va` is shut out (R399). -/
def wvBars (c : Ctx) (va : W64) : Bool :=
  match wvSlotAt c va with
  | none => false
  | some st => decide (st ≠ .writing)

/-! ### Faults posted (R289 to R292) -/

/-- Post a page fault, or hold it where the buffer is full. The add to PUT is a release (R291; log entry 32). -/
def State.postFault (s : State) (f : PageFault) : State :=
  let b := s.fbuf
  if b.put - b.get < 1024 then
    { s with fbuf := { b with put := b.put + 1, time := s.lineTimes.foldl (fun m l => max m (max l.2.1 l.2.2)) b.time, entries := Tbl.set ⟨0, 0, 0, 0, 0, 0⟩ b.entries (b.put % 1024) f } }
  else { s with fbuf := { b with ovf := (b.ovf + 1) % 2 ^ 64, held := b.held ++ [f] } }

/-- The held bundle of core `n` meets an absent page: one fault a wait. -/
def State.bundleFault (s : State) (n ctx : Nat) (va : W64) (kind need : Nat) (write : Bool) : State :=
  if (s.core n).posted.contains (pageOf va) then s
  else (s.postFault ⟨va, ctx, kind, srcOf n, need + (if write then 2 ^ 15 else 0), 255⟩).upd n
    (fun c => { c with posted := pageOf va :: c.posted })

/-! ### Error log (R450) -/

def LogEntry.none : LogEntry := ⟨0, 0, 0, 0, 0, 0, 0, 0⟩

/-- Write an error-log entry; a full log drops it. -/
def State.logEntry (s : State) (e : LogEntry) : State :=
  let l := s.log
  if l.put - l.get < 4096 then
    { s with log := { l with put := l.put + 1, entries := Tbl.set .none l.entries (l.put % 4096) e,
                             time := s.lineTimes.foldl (fun m l => max m (max l.2.1 l.2.2)) l.time } }
  else { s with log := { l with lost := (l.lost + 1) % 2 ^ 64 } }

/-- An event of no block. -/
def State.logError (s : State) (kind ctx src aux : Nat) (addr : W64) : State := s.logEntry ⟨kind, ctx, src, aux, 1, addr, s.now, 0⟩

/-- An uncorrectable error of block `blk`. -/
def State.logLost (s : State) (ctx src blk : Nat) (addr : W64) : State := s.logEntry ⟨3, ctx, src, 0, 1, addr, s.now, blk⟩

/-- A correctable error of block `blk`: one of the block that the newest entry names is counted there (R451). -/
def State.logCorrected (s : State) (ctx src blk : Nat) (addr : W64) : State :=
  let l := s.log
  let last := Tbl.get .none l.entries ((l.put - 1) % 4096)
  if l.put ≠ 0 ∧ last.kind = 2 ∧ last.blk = blk then
    { s with log := { l with entries := Tbl.set .none l.entries ((l.put - 1) % 4096) { last with count := min (last.count + 1) 0xFFFF } } }
  else s.logEntry ⟨2, ctx, src, 0, 1, addr, s.now, blk⟩

end Sys2Proof.Machine
end

