-- ==== Sys2Proof/Machine/BarrierUnit.lean ====
section
/-! DEFINITION. The barrier units (18_barrier.md): reductions, arrivals, completion, held arrivals, leaving members and breaks.
Entries of the in-flight record are freed here when an arrival is acknowledged (R394). -/

namespace Sys2Proof.Machine

/-- Free an entry of a core's in-flight record (R319). -/
def Core.freeEntry (c : Core) (e : Nat) : Core := { c with ifr := c.ifr.filter (fun x => x.1 ≠ e) }

/-- An entry of a core's in-flight record. -/
def Core.entry (c : Core) (e : Nat) : Option IfrEntry := (c.ifr.find? (fun x => x.1 = e)).map (·.2)

/-- Replace an entry that stands in the record. -/
def Core.setEntry (c : Core) (e : Nat) (v : IfrEntry) : Core :=
  { c with ifr := c.ifr.map (fun x => if x.1 = e then (e, v) else x) }

/-- `n` bytes of OPND from offset `off`. -/
def IfrEntry.field (e : IfrEntry) (off n : Nat) : Nat := (e.opnd.toNat >>> (8 * off)) % 2 ^ (8 * n)

/-- What a barrier event answers besides the new barrier. -/
structure BarOut where
  bar : Barrier
  acks : List (Nat × Nat)
  ans : List (Nat × W64)
deriving DecidableEq, Repr

/-- Identity of a reduction (R387 Table 1). -/
def barIdentity (op : Nat) : W32 :=
  match op with
  | 1 => 0xFFFFFFFF | 2 => 0x80000000 | 3 => 0x7FFFFFFF | _ => 0

/-- Combination of a reduction (R387 Table 1). -/
def barCombine (op : Nat) (a v : W32) : W32 :=
  match op with
  | 0 => a ||| v
  | 1 => a &&& v
  | 2 => if a.toInt < v.toInt then v else a
  | 3 => if v.toInt < a.toInt then v else a
  | _ => a + v

/-- Result word of R395: status and value. -/
def barWord (status : Nat) (v : W32) : W64 := BitVec.ofNat 64 (status * 2 ^ 32 + v.toNat)

/-- Phase `p` is past (R387). -/
def barPast (ph p : BitVec 32) : Bool := let d := (ph - p).toNat; decide (1 ≤ d ∧ d ≤ 2 ^ 31 - 1)

/-- Every expected member has arrived, and one is expected (R388). -/
def barFull (b : Barrier) : Bool := decide (b.exp ≠ 0) && decide (b.exp &&& b.arr = b.exp)

/-- Completion of the current phase (R388). -/
def Barrier.complete (b : Barrier) : BarOut :=
  let done := b.waiters.filter (fun w => w.2 = b.ph)
  ⟨{ b with res := b.acc, ph := b.ph + 1, arr := 0, acc := barIdentity b.op, st := .released,
            waiters := b.waiters.filter (fun w => w.2 ≠ b.ph) },
   [], done.map (fun w => (w.1, barWord 0 b.acc))⟩

/-- One arrival at the current phase, a past phase or a future phase (R388 Table 2). -/
def Barrier.arrive (b : Barrier) (a : HeldArr) : BarOut :=
  let member := b.exp.getLsbD a.bit
  if b.st = .broken ∨ !member ∨ barPast b.ph a.phase then ⟨b, [(a.core, a.entry)], []⟩
  else if a.phase ≠ b.ph then ⟨{ b with held := b.held ++ [a] }, [], []⟩
  else if b.arr.getLsbD a.bit then ⟨b, [(a.core, a.entry)], []⟩
  else
    let b := { b with st := .collecting, time := max b.time a.time, arr := b.arr ||| BitVec.ofNat 528 (2 ^ a.bit), acc := barCombine b.op b.acc a.value }
    if barFull b then let o := b.complete; { o with acks := [(a.core, a.entry)] }
    else ⟨b, [(a.core, a.entry)], []⟩

/-- Apply the held arrivals whose phase has come, in the unit's order (R389); one that is left over when its phase completes is a past
arrival, ignored and acknowledged. `n` bounds the rounds. -/
def Barrier.applyHeld : Nat → BarOut → BarOut
  | 0, o => o
  | n + 1, o =>
    match o.bar.held.find? (fun a => a.phase = o.bar.ph || barPast o.bar.ph a.phase) with
    | none => o
    | some a =>
      let b := { o.bar with held := o.bar.held.erase a }
      let o' := b.arrive a
      Barrier.applyHeld n ⟨o'.bar, o.acks ++ o'.acks, o.ans ++ o'.ans⟩

/-- An arrival with what follows from it. -/
def Barrier.arrival (b : Barrier) (a : HeldArr) : BarOut :=
  let o := b.arrive a
  Barrier.applyHeld o.bar.held.length o

/-- A member leaves the expected set; an arrival it has made still counts (R388, R390). -/
def Barrier.leave (b : Barrier) (bit : Nat) : BarOut :=
  let b := { b with exp := b.exp &&& ~~~ BitVec.ofNat 528 (2 ^ bit) }
  if (b.st = .idle ∨ b.st = .collecting) ∧ b.arr ≠ 0 ∧ barFull b then
    Barrier.applyHeld b.held.length b.complete
  else ⟨b, [], []⟩

/-- A double trap of a member breaks the barrier and answers every waiter with status 2 (R390). -/
def Barrier.break' (b : Barrier) : BarOut :=
  if b.st = .broken then ⟨b, [], []⟩
  else ⟨{ b with st := .broken, waiters := [] }, [], b.waiters.map (fun w => (w.1, barWord 2 0))⟩

/-- BINIT's reset (R393). -/
def Barrier.reset (b : Barrier) (op : Nat) (exp : BitVec 528) : BarOut :=
  ⟨{ st := .idle, op := op, ph := 0, exp := exp, arr := 0, acc := barIdentity op, res := 0, held := [], waiters := [], time := b.time },
   b.held.map (fun a => (a.core, a.entry)), b.waiters.map (fun w => (w.1, barWord 2 0))⟩

/-- Carry out the acknowledgements and answers of a barrier event. -/
def State.barSettle (s : State) (o : BarOut) : State :=
  let s := o.acks.foldl (fun s a => s.upd a.1 (fun c => c.freeEntry a.2)) s
  { s with answers := o.ans.foldl (fun t a => Tbl.set none t a.1 (some a.2)) s.answers }

/-- Names of a barrier: quarter and hardware barrier, or device slot. -/
inductive BarName where
  | quarter (hb : Nat)
  | device (slot : Nat)
deriving DecidableEq, Repr

def State.bar (s : State) : BarName → Barrier
  | .quarter hb => Tbl.get .fresh s.qbar hb
  | .device k => (Tbl.get .fresh s.dbar k).bar

def State.setBar (s : State) (b : BarName) (v : Barrier) : State :=
  match b with
  | .quarter hb => { s with qbar := Tbl.set .fresh s.qbar hb v }
  | .device k => { s with dbar := Tbl.set .fresh s.dbar k { Tbl.get .fresh s.dbar k with bar := v } }

/-- A held core stands still until real cycle `t`, its frozen cycles counted (R28, R39). -/
def Core.standTo (t : Nat) (c : Core) : Core :=
  { c with frzcyc := BitVec.ofNat 32 (min (c.frzcyc.toNat + (t - c.nextAt)) 0xFFFFFFFF), nextAt := max t c.nextAt }

/-- The held bundles of these cores are examined next in one and the same real cycle: the first in which each of them can be (R391). -/
def State.meetAt (s : State) (cores : List Nat) : State :=
  let t := cores.foldl (fun t n => max t (s.core n).nextAt) s.now
  cores.eraseDups.foldl (fun s n => s.upd n (Core.standTo t)) s

/-- Put a barrier event's outcome into the state. The waiters of a quarter barrier are answered in one real cycle (R391). -/
def State.barDo (s : State) (b : BarName) (o : BarOut) : State :=
  let s := (s.setBar b o.bar).barSettle o
  match b with
  | .quarter _ => s.meetAt (o.ans.map (fun a => a.1 / 4))
  | .device _ => s

/-- The member bit of core `n` at a barrier (R387): its index in the quarter, or its place in the cohort, or its kiosk bit. -/
def State.barBit (s : State) (n : Nat) : BarName → Nat
  | .quarter _ => n % 32
  | .device _ => if isKiosk n then n else 32 * (s.core n).mem.cpos + (s.core n).mem.midx

/-- Hardware barrier 2 × (core of member ⌊b/2⌋) + (b mod 2) of the quarter of core `n` (R384). -/
def State.localBar (s : State) (n b : Nat) : BarName :=
  match s.group (s.core n).mem.grp with
  | none => .quarter 0
  | some g => .quarter (64 * quarterOf n + 2 * (nth 0 g.members (b / 2) % 32) + b % 2)

/-- Every barrier whose expected set may hold core `n`: the barriers of its group and of its cohort, and for a kiosk core
every slot. -/
def State.barsOf (s : State) (n : Nat) : List BarName :=
  if isKiosk n then (s.dbar.map (fun d => BarName.device d.1))
  else
    let g := match s.group (s.core n).mem.grp with
      | none => []
      | some g => g.members.flatMap (fun m => [BarName.quarter (64 * g.q + 2 * (m % 32)), BarName.quarter (64 * g.q + 2 * (m % 32) + 1)])
    let d := match s.group (s.core n).mem.grp with
      | none => []
      | some g => match g.cohort with
        | none => []
        | some h => match Tbl.get none s.cohorts h with
          | none => []
          | some h => h.slots.map BarName.device
    g ++ d

/-- A double trap of core `n` breaks every barrier whose EXP holds it (R390). -/
def State.breakBarriers (s : State) (n : Nat) : State :=
  (s.barsOf n).foldl (fun s b => if (s.bar b).exp.getLsbD (s.barBit n b) then s.barDo b (s.bar b).break' else s) s

/-- Core `n` leaves the expected set of every barrier of its group and cohort (R390). -/
def State.leaveBarriers (s : State) (n : Nat) : State :=
  (s.barsOf n).foldl (fun s b => if (s.bar b).exp.getLsbD (s.barBit n b) then s.barDo b ((s.bar b).leave (s.barBit n b)) else s) s

/-! ### Slots of a trajectory run (20_generation.md R417) -/

/-- The slots left in the run of a core that stops for good become void records. -/
def State.voidRun (s : State) (n : Nat) : State :=
  let c := s.core n
  if c.nleft = 0 then s
  else
    let v : VoidRun := ⟨c.ctx, n, c.nslot, c.nleft, none⟩
    let s : State := { s with voids := s.voids ++ [v] }
    s.upd n (fun c => { c with nleft := 0 })

/-! ### Requests of a held bundle that is given up (12_context.md; 02_core.md R33) -/

/-- LEN: the items held, reserved ones taken as R353 says. -/
def Queue.len (q : Queue) : Nat := q.tail - q.head - q.holes.length

/-- The outcome reserved for operation `key`. -/
def Queue.out (q : Queue) (key : Nat) : Option QOut := (q.outs.find? (fun o => o.1 = key)).map (·.2)

/-- The reservation of operation `key` is over. -/
def Queue.drop (q : Queue) (key : Nat) : Queue := { q with outs := q.outs.filter (fun o => o.1 ≠ key) }

/-- The outcome of operation `key` is reserved. -/
def Queue.keep (q : Queue) (key : Nat) (o : QOut) : Queue := { q with outs := q.outs ++ [(key, o)] }

/-- Waiters receive status 2 as the queue closes. -/
def Queue.wake (q : Queue) : Queue := { q with st := .closed, waiters := [], outs := q.outs ++ q.waiters.map (fun w => (w, QOut.status 2)) }

/-- A queue is draining only while it holds items (R348). -/
def Queue.settle (q : Queue) : Queue := if q.st = .draining ∧ q.len = 0 then q.wake else q

/-- HEAD passes the slots released. -/
def Queue.skip : Nat → Queue → Queue
  | 0, q => q
  | k + 1, q => if q.front.isEmpty && q.holes.contains q.head then Queue.skip k { q with head := q.head + 1, holes := q.holes.erase q.head } else q

/-- TAIL falls below the slots released at the end. -/
def Queue.trim : Nat → Queue → Queue
  | 0, q => q
  | k + 1, q => if q.holes.contains (q.tail - 1) && decide (q.head < q.tail) then Queue.trim k { q with tail := q.tail - 1, holes := q.holes.erase (q.tail - 1) } else q

/-- A reserved close or reopen is undone: a later one acts on the state before it, and waiters it answered wait again. -/
def Queue.undo (q : Queue) (key : Nat) (prev : QueueSt) (woken : List Nat) : Queue :=
  let past := (q.outs.dropWhile (fun o => o.1 ≠ key)).drop 1
  let still := woken.filter (fun w => q.outs.contains (w, .status 2))
  let next := past.find? (fun o => match o.2 with | .close _ _ => true | _ => false)
  let outs := (q.outs.filter (fun o => !(still.contains o.1 && o.2 = .status 2))).map (fun o =>
    if some o = next then (o.1, match o.2 with | .close _ w => .close prev w | r => r) else o)
  { q with outs := outs, waiters := still ++ q.waiters, st := if next.isNone then prev else q.st }

/-- A reservation of operation `key` is withdrawn (15_queue.md R354): an item goes back ahead of every other, a slot is released, a close or
reopen is undone. -/
def Queue.giveBack (q : Queue) (key : Nat) : Queue :=
  match q.out key with
  | some (.item x) => { q.drop key with head := q.head - 1, front := x :: q.front, st := if q.st = .closed then .draining else q.st }
  | some (.push num) => let r := { q.drop key with holes := num :: q.holes }; r.trim r.holes.length
  | some (.close prev woken) => (q.undo key prev woken).drop key
  | some (.status _) => q.drop key
  | none => q

/-- What the held bundle of core `n` waits for or has reserved goes back (R354). -/
def Queue.withdraw (q : Queue) (n : Nat) : Queue :=
  let q := { q with waiters := q.waiters.filter (fun w => w / 4 ≠ n) }
  (((List.range 4).map (fun j => 4 * n + 3 - j)).foldl Queue.giveBack q).settle

/-- The waiter list of a barrier without core `n`; a waiter is four times its core plus the slot of its BWAIT. -/
def Barrier.dropWaiter (b : Barrier) (n : Nat) : Barrier := { b with waiters := b.waiters.filter (fun w => w.1 / 4 ≠ n) }

/-- Phases of an operation: waiting its turn, first shoot-down, copying a frame, last shoot-down, ended. -/
def pgWaiting : Nat := 0
def pgFirst : Nat := 1
def pgCopy : Nat := 2
def pgLast : Nat := 3
def pgDone : Nat := 4

/-- The requests of core `n`'s held bundle are withdrawn: queue reservations, barrier waits, line locks; a
publish goes on unattended (19_weight_versions.md R401), and so does an operation on a page entry that has begun; one that has not is
withdrawn. -/
def State.withdraw (s : State) (n : Nat) : State :=
  let x := (s.core n).ctx
  let c := s.ctx x
  let s := s.upd n (fun c => { c with slotReq := false })
  let s := s.setCtx x { c with queues := c.queues.map (fun q => (q.1, q.2.map (fun v => v.withdraw n))) }
  { s with qbar := s.qbar.map (fun b => (b.1, b.2.dropWaiter n)), dbar := s.dbar.map (fun d => (d.1, { d.2 with bar := d.2.bar.dropWaiter n })),
           answers := s.answers.filter (fun a => a.1 / 4 ≠ n),
           treeReqs := s.treeReqs.map (fun r => if r.key / 4 = n then { r with wanted := false } else r),
           pgops := (s.pgops.filter (fun o => o.core ≠ n || decide (o.phase ≠ pgDone ∧ o.phase ≠ pgWaiting))).map (fun o => if o.core = n then { o with attended := false } else o),
           locks := s.locks.filter (fun l => l.core ≠ n),
           leaves := s.leaves.filter (fun l => !(l.core = n && l.reg.isSome)),
           pubs := (s.pubs.filter (fun p => p.core ≠ n || !p.done)).map (fun p => if p.core = n then { p with attended := false } else p) }

end Sys2Proof.Machine
end

