-- ==== Sys2Proof/Machine/Ops.lean ====
section
/-! DEFINITION. The shared operations of a core: its registers, latches and results in flight (02_core.md), taking a trap and a
double trap (14_trap.md R337, R338), returning from one (R342), stopping a kernel (11_page.md R281) and freezing a part
(12_context.md R301). -/

namespace Sys2Proof.Machine

/-! ### Registers (R25) -/

def Core.getG (c : Core) (r : Nat) : W64 := if r = 0 then 0 else Tbl.get 0 c.g r
def Core.getA (c : Core) (r : Nat) : W64 := Tbl.get 0 c.a r
def Core.getStride (c : Core) (r : Nat) : W64 := Tbl.get 0 c.stride r
def Core.getP (c : Core) (r : Nat) : Bool := if r = 0 then true else Tbl.get false c.p r
/-- Bits [63:48] of a b register read as zero. -/
def Core.getB (c : Core) (r : Nat) : W64 := BitVec.ofNat 64 ((Tbl.get 0 c.b r).toNat % 2 ^ 48)
def Core.getM (c : Core) (r : Nat) : Mask := if r = 0 then BitVec.allOnes 128 else Tbl.get 0 c.m r
/-- v by physical register. -/
def Core.getV (c : Core) (r : Nat) : Vec := Tbl.get 0 c.v r

def Core.setG (c : Core) (r : Nat) (x : W64) : Core := if r = 0 then c else { c with g := Tbl.set 0 c.g r x }
def Core.setA (c : Core) (r : Nat) (x : W64) : Core := { c with a := Tbl.set 0 c.a r x }
def Core.setStride (c : Core) (r : Nat) (x : W64) : Core := { c with stride := Tbl.set 0 c.stride r x }
def Core.setP (c : Core) (r : Nat) (x : Bool) : Core := if r = 0 then c else { c with p := Tbl.set false c.p r x }
def Core.setB (c : Core) (r : Nat) (x : W64) : Core := { c with b := Tbl.set 0 c.b r (BitVec.ofNat 64 (x.toNat % 2 ^ 48)) }
def Core.setM (c : Core) (r : Nat) (x : Mask) : Core := if r = 0 then c else { c with m := Tbl.set 0 c.m r x }
def Core.setV (c : Core) (r : Nat) (x : Vec) : Core := { c with v := Tbl.set 0 c.v r x }

/-- Physical register of a v name under rotation (R48). -/
def Core.physV (c : Core) (n : Nat) : Nat :=
  if c.lctl.roten ∧ 32 ≤ n then 32 + (n - 32 + c.lctl.vrot.toNat) % 32 else n

/-- The bank of a physical v register is lent (R51). -/
def Core.isLent (c : Core) (r : Nat) : Bool := c.lent.getLsbD (r / 16)

/-- Rotate (R49). -/
def Core.rotate (c : Core) (newp : Bool) : Core :=
  let old := c
  let c := (List.range 7).foldl (fun (c : Core) i => c.setP (15 - i) (old.getP (14 - i))) c
  { c.setP 8 newp with lctl := { c.lctl with vrot := c.lctl.vrot - 1 } }

/-! ### Latches, held operands and results (R29, R34 to R38) -/

/-- A result enters x0 of its unit and the chain moves (R34). -/
def Core.pushLatch (c : Core) (u : UnitId) (x : Vec) : Core :=
  let i := 4 * u.idx
  let sh (j : Nat) (c : Core) : Core :=
    { c with latches := Tbl.set 0 c.latches (i + j) (Tbl.get 0 c.latches (i + j - 1)),
             latv := if c.latv.getLsbD (i + j - 1) then c.latv ||| BitVec.ofNat 24 (2 ^ (i + j))
                     else c.latv &&& ~~~ BitVec.ofNat 24 (2 ^ (i + j)) }
  let c := sh 1 (sh 2 (sh 3 c))
  { c with latches := Tbl.set 0 c.latches i x, latv := c.latv ||| BitVec.ofNat 24 (2 ^ i) }

/-- The S unit's view of a 64-bit value as a result. -/
def vec64 (x : W64) : Vec := x.setWidth 1024

/-- Write a result that falls due: its destination, then its unit's latch chain (R29, R34, R38). -/
def Core.landOne (c : Core) (p : Pending) : Core :=
  let c := match p.file with
    | .g => c.setG p.reg (p.value.setWidth 64)
    | .a => c.setA p.reg (p.value.setWidth 64)
    | .p => c.setP p.reg (p.value.getLsbD 0)
    | .b => c.setB p.reg (p.value.setWidth 64)
    | .v => c.setV p.reg p.value
    | .m => c.setM p.reg (p.value.setWidth 128)
    | .latch => c
  c.pushLatch p.unit p.value

/-- Write every result due by the current issue cycle, in issue order. -/
def Core.land (c : Core) : Core :=
  let due := c.pend.filter (fun p => p.due ≤ c.ic)
  due.foldl Core.landOne { c with pend := c.pend.filter (fun p => c.ic < p.due) }

/-- One issue cycle passes, with a bundle or without one (R28; R337 step 1, R342): results that fall due are written. -/
def Core.idleCycle (c : Core) : Core := Core.land { c with ic := c.ic + 1 }

/-- `n` such cycles. -/
def Core.idleCycles : Nat → Core → Core
  | 0, c => c
  | n + 1, c => Core.idleCycles n c.idleCycle

/-- Issue cycles until every result in the exposed pipeline has fallen due. -/
def Core.depth (c : Core) : Nat := c.pend.foldl (fun m p => max m (p.due - c.ic)) 0

/-- `n` issue cycles pass: each result is written in the cycle in which it falls due (R29), and once the pipeline is empty only the count
goes on. -/
def Core.pass (n : Nat) (c : Core) : Core := { Core.idleCycles (min n c.depth) c with ic := c.ic + n }

/-- The issue cycles that have passed at a halted core by real cycle `now` (R28, R150): results in flight are written as they fall due. -/
def Core.catchUp (now : Nat) (c : Core) : Core :=
  if c.run = .halted then { c.pass (now - c.nextAt) with nextAt := max now c.nextAt } else c

/-- The cycles for which a stopped core has stood still by real cycle `now` are frozen cycles (R28, R33, R39). -/
def Core.countFrozen (now : Nat) (c : Core) : Core :=
  if c.run = .stopped then
    { c with frzcyc := BitVec.ofNat 32 (min (c.frzcyc.toNat + (now - c.nextAt)) 0xFFFFFFFF), nextAt := max now c.nextAt }
  else c

/-- Wait until every result in the exposed pipeline has fallen due. -/
def Core.drain (c : Core) : Core := Core.idleCycles c.depth c

/-- Latches and held operands become invalid (R35). -/
def Core.invalidate (c : Core) : Core := { c with latv := 0, holdv := 0 }

/-- A read of an invalid latch or held operand is noted in CDIAG (R37, R39). -/
def Core.noteInvalid (c : Core) (u : UnitId) (latch : Bool) : Core :=
  let first := !c.latinv && !c.holdinv
  { c with latinv := c.latinv || latch, holdinv := c.holdinv || !latch,
           diagunit := if first then BitVec.ofNat 3 u.idx else c.diagunit }

/-- CLK rises by 128 every 1024 issue cycles (R255): the ticks not yet counted. -/
def Core.ticksDue (c : Core) : Nat := c.ic / 1024 - c.ticks
def Core.tick (c : Core) : Core := { c with clk := c.clk + 128 * c.ticksDue, ticks := max c.ticks (c.ic / 1024) }

/-! ### Contexts, parts and kernels that stop -/

/-- The parts of a context that exist. -/
def Ctx.part (c : Ctx) (q : Nat) : PartSt := Tbl.get .absent c.parts q
def Ctx.setPart (c : Ctx) (q : Nat) (p : PartSt) : Ctx := { c with parts := Tbl.set .absent c.parts q p }

/-- The cores of a part. -/
def State.partCores (s : State) (x q : Nat) : List Nat :=
  ((List.range 32).map (fun i => 32 * q + i)).filter (fun n => (s.core n).ctx = x ∧ (s.core n).run ≠ .idle)

/-- A core stops at its bundle boundary (R33): every boundary lies between two steps. A halted core stands still from real cycle `now` on. -/
def Core.stopNow (now : Nat) (c : Core) : Core :=
  match c.run with
  | .running => { c with run := .stopped, stop := .none }
  | _ => { c.catchUp now with stop := .none }

/-- A core of a part that freezes already stops: a halted one that no cut request has left going stands still since the freeze began. -/
def Core.stopAgain (now : Nat) (c : Core) : Core := if c.run = .halted ∧ c.stop = .none then c else c.stopNow now

/-- A running part begins to freeze, and its cores stop (R301); those of a part that freezes for a cut stop too (R300). -/
def State.freezePart (s : State) (x q : Nat) : State :=
  match (s.ctx x).part q with
  | .running => (s.partCores x q).foldl (fun s n => (s.withdraw n).upd n (Core.stopNow s.now)) (s.updCtx x (fun c => c.setPart q .freezing))
  | .freezing => (s.partCores x q).foldl (fun s n => (s.withdraw n).upd n (Core.stopAgain s.now)) s
  | _ => s

/-- A fatal error: the context becomes faulted and every part freezes (R300). -/
def State.faultCtx (s : State) (x : Nat) : State :=
  let c := s.ctx x
  if c.st = .active ∨ c.st = .ready then
    (List.range 16).foldl (fun s q => s.freezePart x q) (s.setCtx x { c with st := .faulted })
  else s

/-- A report that still waits in PEND when its core halts is a report at a halted core: the context becomes faulted (R225, R300). -/
def State.haltReports (s : State) (n : Nat) : State := if (s.core n).reports = [] then s else s.faultCtx (s.core n).ctx

/-- Core `m` runs for group `gid`; a saved part's members run for none. -/
def State.holds (s : State) (gid : Nat) (g : Group) (m : Nat) : Bool :=
  decide ((s.core m).run ≠ .idle) && decide ((s.core m).ctx = g.ctx) && decide ((s.core m).mem.grp = gid)

/-- The cores a kernel's placed groups hold. -/
def State.kernelCores (s : State) (k : Nat) : List Nat :=
  s.groups.flatMap (fun g => match g.2 with | some v => if v.k = k then v.members.filter (s.holds g.1 v) else [] | none => [])

/-- A core of an aborted kernel stops at its bundle boundary. -/
def Core.abortNow (c : Core) : Core :=
  match c.run with
  | .running | .loaded | .stopped => { c with run := .aborted }
  | _ => c

/-- The command processor receives an address outside a window, and the number of the core or engine that used it (R281). -/
def State.hears (s : State) (va : W64) (src : Nat) : State := { s with outsides := (va, src) :: s.outsides }

/-- The kernel of core `n` is aborted by an address outside its window that `src` used, the core or an engine that serves it (R281): its
cores stop; the command processor receives the address and that number, and what it then does is the kernelAbort event; a kernel that has
completed stays so (16_kernel.md R360). A kiosk core belongs to no kernel and stops alone. -/
def State.abortFrom (s : State) (n src : Nat) (va : W64) : State :=
  let s := (((s.hears va src).withdraw n).voidRun n).upd n Core.abortNow
  if isKiosk n then s else
  let k := (s.core n).mem.kref
  let s := (s.kernelCores k).foldl (fun s m => ((s.withdraw m).voidRun m).upd m Core.abortNow) s
  match s.kernel k with
  | none => s
  | some v => s.setKernel k { v with st := if v.completed then v.st else .aborted, outside := some (v.outside.getD (va, src)) }

/-- The address is one that core `n` itself used. -/
def State.abortBy (s : State) (n : Nat) (va : W64) : State := s.abortFrom n (srcOf n) va

/-! ### Traps -/

/-- Whether a trap now would be a double trap (R338). -/
def Core.trapShut (c : Core) : Bool := !c.twin || decide (3 ≤ c.frames.length) || decide (c.hbase = 0)

/-- A double trap (R338): the core freezes with DCAUSE, its barriers break, the context becomes faulted. -/
def State.doubleTrap (s : State) (n : Nat) (cause : Nat) : State :=
  let x := (s.core n).ctx
  let s := s.upd n (fun c => { c with run := .dead, dcause := BitVec.ofNat 8 cause, stop := .none })
  ((s.withdraw n).breakBarriers n).faultCtx x

/-- The frame a trap pushes (R337 step 2). -/
def Core.frame (c : Core) (ret : W64) (lbix : Option Nat) : Frame :=
  { latches := c.latches, held := c.held, latv := c.latv, holdv := c.holdv, lctl := c.lctl, lstat := c.lstat,
    steps := c.steps, wrapped := c.wrapped, stale := false, body := c.body, bksup := c.bksup, lbix := lbix, orpc := c.rpc, erpc := BitVec.ofNat 44 (ret.toNat / 16) }

/-- Entry into the handler (R337), with the window open. -/
def Core.enter (c : Core) (cause : Nat) (val addr ret : W64) (lbix : Option Nat) (imp : Bool) : Core :=
  let c := c.drain
  { c.invalidate with
    frames := c.frame ret lbix :: c.frames
    cause := BitVec.ofNat 8 cause, rpc := BitVec.ofNat 44 (ret.toNat / 16), tval := val, faddr := addr, imp := imp
    twin := false, lctl := .zero, wrapped := 0, bksup := false, heldBundle := false, posted := []
    pc := BitVec.ofNat 64 (c.hbase.toNat * 16), lbix := none }

/-- Taking a trap: the handler's entry, or a double trap. -/
def State.takeTrap (s : State) (n cause : Nat) (val addr ret : W64) (lbix : Option Nat) (imp : Bool) : State :=
  if (s.core n).trapShut then s.doubleTrap n cause
  else s.upd n (fun c => c.enter cause val addr ret lbix imp)

/-- A precise trap of the bundle that core `n` was to issue (R335): TRAPPC is its address. -/
def State.preciseTrap (s : State) (n cause : Nat) (val addr : W64) : State :=
  s.takeTrap n cause val addr (s.core n).pc (s.core n).lbix false

/-- The answer to an acknowledged request is forgotten (R322). -/
def TagTables.forget (t : TagTables) (x n sp tag : Nat) : TagTables :=
  let keep (e : TagEntry) : Bool := !(e.ctx = x && e.core = n && e.space = sp && e.tag = tag)
  let l := t.tables.map (fun h => (h.1, h.2.filter keep))
  { t with tables := l.filter (fun h => h.2 ≠ []) }

/-- Free a command entry: its answer is acknowledged, so its tags go (R319, R322). -/
def State.freeCommand (s : State) (n k : Nat) : State :=
  match (s.core n).entry k with
  | none => s
  | some e =>
    let x := (s.core n).ctx
    let t := s.tags.forget x n 0 e.seq
    let t := if e.kind = 9 then t.forget x n 1 (e.field 56 4) else t
    { s with tags := t }.upd n (fun c => c.freeEntry k)

/-- The oldest pending report is taken at a boundary (R335); its entry is freed, and the answer to it forgotten. -/
def State.takeReport (s : State) (n : Nat) : State :=
  match (s.core n).reports with
  | [] => s
  | r :: t =>
    let c := s.core n
    if c.trapShut then s.doubleTrap n r.cause.toNat
    else
      ((s.freeCommand n r.entry).upd n (fun c => { c with reports := t })).takeTrap n r.cause.toNat (BitVec.ofNat 64 (r.entry % 128)) r.addr
        c.pc c.lbix true

/-- TRET's return (R342): the innermost frame is put back; the next bundle comes from the loop buffer when the return address is
the one entry wrote and the frame holds an index, else from memory. A loop buffer the handler has loaded is loaded again: `buf` is what
memory gives. -/
def Core.trapReturn (buf : Tbl (Option (BitVec 128))) (c : Core) : Core :=
  match c.frames with
  | [] => c
  | f :: rest =>
    { c with
      latches := f.latches, held := f.held, latv := f.latv, holdv := f.holdv, lctl := f.lctl, lstat := f.lstat,
      steps := f.steps, wrapped := f.wrapped, rpc := f.orpc, frames := rest, twin := true, bksup := true
      pc := BitVec.ofNat 64 (c.rpc.toNat * 16)
      lbix := if c.rpc = f.erpc then f.lbix else none
      loopBuf := if f.stale && decide (f.lctl.lact ≠ 0) then buf else c.loopBuf, body := f.body }

/-- A report reaches a core (R225, R335): it waits in PEND; at a halted core it makes the context faulted. The entry stays, ended. -/
def State.report (s : State) (n : Nat) (entry cause : Nat) (addr : W64) : State :=
  let s := s.upd n (fun c =>
    let c := match c.entry entry with | some e => c.setEntry entry { e with ended := true } | none => c
    { c with reports := c.reports ++ [⟨entry, BitVec.ofNat 8 cause, addr⟩] })
  if (s.core n).run = .halted then s.faultCtx (s.core n).ctx else s

/-! ### Operations of a bundle's slots -/

/-- Why a bundle does not issue. -/
inductive Stop where
  /-- A precise trap; TRAPVAL is the slot and its word (R334). -/
  | trap (cause : Nat) (addr : W64)
  /-- The stuck-tile trap of R274. -/
  | stuck (tile : Nat)
  /-- A freeze condition (R30); `note` is what the wait does outside the core: a fault posted, a request sent. -/
  | freeze (note : State → State)
  /-- An address outside the window (R281). -/
  | abort (va : W64)
  /-- The model stops. -/
  | fault (f : Fault)

/-- A freeze that asks for nothing. -/
def Stop.wait : Stop := .freeze id

/-- A bundle on its way through issue: the core's number, the core before the bundle, the state so far, the sums of address updates
(R43), what is done at the end of the bundle in slot order, a taken transfer, and the slot that runs. `rm` is the bundle's rounding mode. -/
structure Issue where
  n : Nat
  pre : Core
  s : State
  incs : List (Nat × W64)
  post : State → State
  taken : Option W64
  /-- Done to the core after everything else (TRET's return, R342). -/
  final : Core → Core
  trapAfter : Option W64
  /-- What the running slots have reserved, if another condition holds the bundle (15_queue.md R353). -/
  reserve : State → State
  /-- A level was entered or left by an operation (R35). -/
  level : Bool
  halted : Bool
  /-- Index at which issue goes on in the loop buffer after a LOOP. -/
  loopAt : Option Nat
  /-- Commands started, with their slots (R319). -/
  cmds : List (Nat × IfrEntry)
  rm : RMode
  unit : UnitId
  slot : Nat
  word : W32

/-- One slot's work. -/
abbrev Op := Issue → Except Stop Issue

/-- Illegal operand, access violation and their kin, with no address. -/
def trapOp (cause : Nat) : Except Stop Issue := .error (.trap cause 0)
def illegalOperand : Except Stop Issue := .error (.trap 4 0)

def Issue.core (i : Issue) : Core := i.s.core i.n
def Issue.upd (i : Issue) (f : Core → Core) : Issue := { i with s := i.s.upd i.n f }
/-- Done at the end of the bundle, after every slot (R153, R148). -/
def Issue.after (i : Issue) (f : State → State) : Issue := { i with post := fun s => f (i.post s) }
def Issue.afterCore (i : Issue) (f : Core → Core) : Issue := i.after (fun s => s.upd i.n f)

/-- A result at latency `lat` (R27, R29). -/
def Issue.result (i : Issue) (file : RegFile) (reg : Nat) (value : Vec) (lat : Nat) : Issue :=
  i.upd (fun c => { c with pend := c.pend ++ [⟨i.unit, file, reg, value, i.pre.ic, i.pre.ic + lat⟩] })

/-- A 64-bit result to g. -/
def Issue.resultG (i : Issue) (reg : Nat) (value : W64) (lat : Nat) : Issue := i.result .g reg (vec64 value) lat

/-- An address register's post-increment (R43). -/
def Issue.increment (i : Issue) (a : Nat) : Issue := { i with incs := i.incs ++ [(a, i.pre.getStride a)] }

/-- A new in-flight record entry (R319 Table 1); SEQ and the fence marks are given when it is allocated. -/
def IfrEntry.new (cls : IfrClass) (kind : Nat) (opnd : BitVec 512) (payload : List Nat) : IfrEntry :=
  { cls := cls, kind := kind, seq := 0, started := false, sent := false, waitX := false, waitN := false, wscope := 0,
    ended := false, rpl := false, ans := false, wseq := 0, wseqN := 0, prog := 0, devId := 0, home := 0xFFFF, result := 0,
    opnd := opnd, payload := payload, posted := none, failed := 0, rejected := false, ts := 0 }

/-- The command entries in use (R318). -/
def Core.commands (c : Core) : List (Nat × IfrEntry) := c.ifr.filter (fun e => e.1 < 96)

/-- The lowest free command entry. -/
def Core.freeSlot (c : Core) : Nat := ((List.range 96).find? (fun k => (c.entry k).isNone)).getD 95

/-- SEQ `a` is earlier than `b`, counted within 2^23 (R319, R323). -/
def seqBefore (a b : Nat) : Bool := let d := (b + 2 ^ 24 - a % 2 ^ 24) % 2 ^ 24; decide (0 < d ∧ d < 2 ^ 23)

/-- Global bytes that hold every byte an entry's request or command touches: first addresses and lengths. -/
def IfrEntry.spans (e : IfrEntry) : List (Nat × Nat) :=
  let va := e.field 0 8
  let n := bits (e.field 8 8) 9 0
  match e.kind with
  | 2 => [(va / 8 * 8, 8)]
  | 3 | 4 | 13 => [(va, 64 * n)]
  | 5 => [(0, 2 ^ 64)]
  | 6 => [(va, 1024 * n)]
  | 8 => [(va, 8)]
  | 9 => let len := 4 * e.field 4 4
         [(e.field 8 8, len), (e.field 16 8, len), (e.field 24 8, 2 * len)]
  | 11 => [(va, 32)]
  | _ => []

/-- Two ranges share a byte. -/
def spansMeet (a b : Nat × Nat) : Bool := decide (a.1 < b.1 + b.2) && decide (b.1 < a.1 + a.2)

/-- A request that a resume has sent again, allocated before `seq`, is still to be performed on one of these bytes (13_inflight_record.md
R330, R331). -/
def Core.replayBars (c : Core) (seq : Nat) (l : List (Nat × Nat)) : Bool :=
  c.ifr.any (fun x => x.2.rpl && !x.2.ended && !x.2.ans && seqBefore x.2.seq seq && x.2.spans.any (fun a => l.any (spansMeet a)))

/-- A request sent again that is one message, an atomic, a record or a job, has still to reach its home: it comes before every request of
the resumed core's new bundles (R330). One that its fences hold back is not on its way. -/
def Core.replayFirst (c : Core) : Bool :=
  c.ifr.any (fun x => x.2.rpl && !x.2.ended && !x.2.ans && !x.2.waitX && !x.2.waitN && (x.2.kind = 2 || x.2.kind = 11 || x.2.kind = 12))

/-- What a resume has sent again holds back an access of a new bundle to `size` bytes at `va`. -/
def Core.replayHolds (c : Core) (va size : Nat) : Bool := c.replayFirst || c.replayBars c.nextSeq [(va, size)]

/-- Allocate an entry at a place (R319): it takes SEQ and the marks of the fences that hold it back (R326). -/
def State.allocate (s : State) (n place : Nat) (e : IfrEntry) : State :=
  s.upd n (fun c =>
    { c with nextSeq := (c.nextSeq + 1) % 2 ^ 24,
             ifr := (c.ifr.filter (fun x => x.1 ≠ place)) ++
               [(place, { e with seq := c.nextSeq, devId := Config.devId s.root.boots, waitX := c.fenceX && !seqBefore c.nextSeq c.fseq,
                                 waitN := c.fenceN && !seqBefore c.nextSeq c.fseqN,
                                 wscope := if c.fenceN && !seqBefore c.nextSeq c.fseqN then 3 else c.fscope, wseq := c.fseq, wseqN := c.fseqN })] })

/-- An async operation starts a command; with all 96 entries in use it traps (R222 order 9). -/
def Issue.command (i : Issue) (e : IfrEntry) : Except Stop Issue :=
  if i.core.commands.length + i.cmds.length ≥ 96 then .error (.trap 13 0)
  else .ok { i with cmds := i.cmds ++ [(i.slot, e)] }

/-- The context that runs, and its privilege (R113). -/
def Issue.ctxNo (i : Issue) : Nat := i.pre.ctx
def Issue.ctx (i : Issue) : Ctx := i.s.ctx i.pre.ctx

end Sys2Proof.Machine
end

