-- ==== Sys2Proof/Machine/Devices.lean ====
section
/-! DEFINITION. The pages the I/O die maps into the services' windows: fault buffer (11_page.md R290 to R292), error log
(22_reliability.md R450), link ports (21_link.md R436 to R438), services of the kiosk cores (01_device.md R16), as loads and stores reach them; and the events of a port. -/

namespace Sys2Proof.Machine

/-! ### Fault buffer and error log: GET -/

/-- Post held faults while slots are free (R292); `n` bounds them. -/
def State.postHeld : Nat → State → State
  | 0, s => s
  | n + 1, s =>
    match s.fbuf.held with
    | [] => s
    | f :: t =>
      if s.fbuf.put - s.fbuf.get < 1024 then
        State.postHeld n ({ s with fbuf := { s.fbuf with held := t } }.postFault f)
      else s

/-- The count a stored n32 GET stands for: `put` less the difference it leaves, when that lies in 0 to `cap` (R291). -/
def newGet (put cap v : Nat) : Option Nat :=
  let d := (put + 2 ^ 32 - v % 2 ^ 32) % 2 ^ 32
  if d ≤ cap ∧ d ≤ put then some (put - d) else none

/-- The service stores GET of the fault buffer (R291). -/
def State.setFbufGet (s : State) (v : Nat) : State :=
  match newGet s.fbuf.put 1024 v with
  | none => s
  | some g => State.postHeld s.fbuf.held.length { s with fbuf := { s.fbuf with get := g } }

/-- The service stores GET of the error log (R450). -/
def State.setLogGet (s : State) (v : Nat) : State :=
  match newGet s.log.put 4096 v with
  | none => s
  | some g => { s with log := { s.log with get := g } }

/-! ### Corruption events (R214, R455) -/

/-- A corruption event of core `n` in tile `t`: logged, and counted at its compute die. -/
def State.corruption (s : State) (n t : Nat) : State :=
  let s := s.logError 1 (s.core n).ctx (srcOf n) t 0
  let d := s.physOf (quarterOf n) / 2
  { s with dcnt := Tbl.set 0 s.dcnt d (Tbl.get 0 s.dcnt d + 1) }

/-! ### Ports -/

def State.port (s : State) (p : Nat) : Port := Tbl.get .reset s.ports p
def State.setPort (s : State) (p : Nat) (v : Port) : State := { s with ports := Tbl.set .reset s.ports p v }
def State.tree (s : State) (k : Nat) : Tree := Tbl.get .free s.trees k
def State.setTree (s : State) (k : Nat) (v : Tree) : State := { s with trees := Tbl.set .free s.trees k v }

/-- Whether a chunk operation 4 or 5 of context `x` runs on tree slot `k`: one whose dependency count has reached zero. -/
def State.treeBusy (s : State) (k x : Nat) : Bool :=
  s.kernels.any (fun e => match e.2 with
    | some v => v.kind = 3 && decide (v.st = .running) && v.ctx = x
        && v.chunks.any (fun o => decide (4 ≤ o.op) && o.peer = k && !o.done && !o.failed && decide (o.dep = 0))
    | none => false)

/-- A tree slot as it stands: one that was freed is free once every chunk operation on it has ended (R445). -/
def State.treeAt (s : State) (k : Nat) : Tree :=
  let t := s.tree k
  if t.freed && !s.treeBusy k t.ctx then Tree.free else t

/-- The tree in a slot is freed on this device (R443, R445). -/
def State.freeTree (s : State) (k : Nat) : State :=
  let t := s.treeAt k
  if t.st = .allocated then s.setTree k { t with ended := true, freed := true } else s

/-- The device's fabric address, assigned at bring-up (R435; log entry 25). -/
def State.fabric (s : State) : W32 := Config.fabricAddr s.root.boots

/-- A tree uses port `p` of this device (R437): toward a parent, or toward a child. -/
def Tree.usesPort (t : Tree) (me : W32) (p : Nat) : Bool :=
  t.ents.any (fun e => (e.dev = me && e.uport = p) ||
    (e.dport = p && (match t.ents[e.parent]? with | some q => decide (q.dev = me) | none => false)))

/-- A port leaves the up and degraded states: every tree that uses it ends (R437, R443), and every stream to its peer (R446). -/
def State.endTrees (s : State) (p : Nat) : State :=
  { s with trees := s.trees.map (fun t => if t.2.st = .allocated && t.2.usesPort s.fabric p then (t.1, { t.2 with ended := true }) else t),
           streams := s.streams.map (fun t => if t.peer = (s.port p).peer then { t with lost := true } else t) }

/-- The port works. -/
def PortSt.works (st : PortSt) : Bool := st = .up || st = .degraded

/-- A port enters state `st` at real cycle `now` without a peer: the flits it held are discarded, and its channels begin anew (R437). -/
def Port.begin (v : Port) (st : PortSt) (now : Nat) : Port :=
  { v with st := st, peer := 0, rxSeq := [], txSeq := [], credits := [], out := [], unacked := [], again := [], ackAt := now }

/-- Enable (R436 Table 1). -/
def State.portEnable (s : State) (p : Nat) : State :=
  let v := s.port p
  if v.st = .down then s.setPort p { v.begin .training s.now with en := true } else s.setPort p { v with en := true }

/-- The port goes down, by disable or by the loss of its peer. -/
def State.portDown (s : State) (p : Nat) : State :=
  let v := s.port p
  (if v.st.works then s.endTrees p else s).setPort p (v.begin .down s.now)

def State.portDisable (s : State) (p : Nat) : State :=
  let s := s.portDown p
  s.setPort p { s.port p with en := false }

/-- Training forced from up or degraded (R438 RTRN), or because the error rate is exceeded (R436). -/
def State.portRetrain (s : State) (p : Nat) : State :=
  let v := s.port p
  if v.st.works then (s.endTrees p).setPort p (v.begin .training s.now) else s

/-! ### Flits that leave (R437, R439) -/

/-- A flit is ready to leave port `p`. -/
def State.queueFlit (s : State) (p : Nat) (f : Flit) : State :=
  let v := s.port p
  if v.st.works then s.setPort p { v with out := v.out ++ [f] } else s

/-- Control messages, by the first byte of their payload: a reservation granted or refused, a slot to reserve or to release, a stream
refused (log entry 117). -/
inductive Control where
  | grant | refuse | reserve | release | stop
deriving DecidableEq, Repr

def Control.code : Control → Nat
  | .grant => 1 | .refuse => 2 | .reserve => 3 | .release => 4 | .stop => 5

/-- A control message about tree slot or stream `num`. -/
def State.sendControl (s : State) (p : Nat) (m : Control) (num : Nat) : State :=
  s.queueFlit p ⟨0, num, 0, 0, BitVec.ofNat 512 m.code, 0, 0, 0, false⟩

/-- The port by which a device is reached: one whose peer it is, else the first that works. -/
def State.routeTo (s : State) (dev : W32) : Option Nat :=
  let ps := (List.range 24).filter (fun p => (s.port p).st.works)
  match ps.find? (fun p => (s.port p).peer = dev) with
  | some p => some p
  | none => ps.head?

/-- A control message about tree slot `k` to every other device of a tree. -/
def State.tellTree (s : State) (t : Tree) (k : Nat) (m : Control) : State :=
  (t.ents.filter (fun e => e.dev ≠ s.fabric)).foldl (fun s e => match s.routeTo e.dev with | some p => s.sendControl p m k | none => s) s

/-- A channel has a flit ready and a credit. -/
def Port.ready (v : Port) (c : Nat) : Bool := v.out.any (fun f => f.vc = c) && decide (0 < Tbl.get 0 v.credits c)

/-- The channel the port gives its next flit time to (R439). DESIGN CHOICE (log entry 117): channel 3's flit time of a run is the first for
which it has a flit ready; of four turns channel 1 has the first three, and a channel without a flit leaves its turn to the other. -/
def Port.pick (v : Port) : Option Nat :=
  if v.ready 3 && decide (v.bulkRun ≠ v.flits / 16 + 1) then some 3
  else if v.ready 0 then some 0
  else if v.ready 1 && (decide (v.share % 4 ≠ 3) || !v.ready 2) then some 1
  else if v.ready 2 then some 2
  else if v.ready 3 then some 3 else none

/-- The next flit leaves: it takes its channel's sequence number and its CRC, and the port keeps a copy. -/
def Port.send (v : Port) : Option Port :=
  match v.pick with
  | none => none
  | some c =>
    match v.out.find? (fun f => f.vc = c) with
    | none => none
    | some f =>
      let q := Tbl.get 0 v.txSeq c
      let g := { f with seq := q, crc := Config.flitCrc c f.num q f.data }
      some { v with
        out := v.out.erase f, unacked := v.unacked ++ [g], txSeq := Tbl.set 0 v.txSeq c (q + 1), credits := Tbl.set 0 v.credits c (Tbl.get 0 v.credits c - 1)
        flits := v.flits + 1, bulkRun := if c = 3 then v.flits / 16 + 1 else v.bulkRun, share := if c = 1 ∨ c = 2 then v.share + 1 else v.share }

/-- More than 16 of the last 2^20 flits were sent again (R436). -/
def Port.exceeded (v : Port) : Bool := decide (16 < (v.again.filter (fun k => v.flits < k + 2 ^ 20)).length)

/-- Status word (R438 Table 2). -/
def Port.status (v : Port) : W64 :=
  let lanes := match v.st with | .up => 8 | .degraded => 4 | _ => 0
  let st := match v.st with | .down => 0 | .training => 1 | .up => 2 | .degraded => 3
  let peer := match v.st with | .up | .degraded => v.peer.toNat | _ => 0
  BitVec.ofNat 64 (peer * 2 ^ 32 + min v.retry 0xFFFF * 2 ^ 16 + min (v.rtx / 2 ^ 10) 0xFF * 2 ^ 8 + lanes * 2 ^ 4 + st)

/-! ### Words of the pages -/

/-- The 64-bit word at byte offset 8w of the fault-buffer page (R290 Table 4). -/
def Fbuf.word (b : Fbuf) (w : Nat) : Nat :=
  if w = 0 then b.put % 2 ^ 32 + b.get % 2 ^ 32 * 2 ^ 32
  else if w = 1 then b.ovf
  else if w = 2 then b.held.length % 2 ^ 32
  else if w < 8 ∨ 8 + 4 * 1024 ≤ w then 0
  else
    let e := Tbl.get ⟨0, 0, 0, 0, 0, 0⟩ b.entries ((w - 8) / 4)
    match (w - 8) % 4 with
    | 0 => e.va.toNat
    | 1 => e.ctx % 2 ^ 8 + e.kind % 2 ^ 8 * 2 ^ 8 + e.src % 2 ^ 16 * 2 ^ 16 + e.need % 2 ^ 16 * 2 ^ 32 + e.ifr % 2 ^ 8 * 2 ^ 48
    | _ => 0

/-- DCNT of die d. -/
def State.dcntOf (s : State) (d : Nat) : Nat := Tbl.get 0 s.dcnt d % 2 ^ 16

/-- The word at 8w of the error-log page (R450 Tables 1 and 2). -/
def State.logWord (s : State) (w : Nat) : Nat :=
  let l := s.log
  if w = 0 then l.put % 2 ^ 32 + l.get % 2 ^ 32 * 2 ^ 32
  else if w = 1 then l.lost
  else if w = 2 then l.thresh.toNat
  else if w = 3 then s.dcntOf 0 + s.dcntOf 1 * 2 ^ 16 + s.dcntOf 2 * 2 ^ 32 + s.dcntOf 3 * 2 ^ 48
  else if w = 4 then s.dcntOf 4 + s.dcntOf 5 * 2 ^ 16 + s.dcntOf 6 * 2 ^ 32 + s.dcntOf 7 * 2 ^ 48
  else if w = 5 then s.dcntOf 8
  else if w < 8 ∨ 8 + 4 * 4096 ≤ w then 0
  else
    let e := Tbl.get .none l.entries ((w - 8) / 4)
    match (w - 8) % 4 with
    | 0 => e.kind % 2 ^ 8 + e.ctx % 2 ^ 8 * 2 ^ 8 + e.src % 2 ^ 16 * 2 ^ 16 + e.aux % 2 ^ 16 * 2 ^ 32 + e.count % 2 ^ 16 * 2 ^ 48
    | 1 => e.addr.toNat
    | 2 => e.time % 2 ^ 64
    | _ => 0

/-- The word at 8w of the link page (R438). -/
def State.linkWord (s : State) (w : Nat) : Nat :=
  if 24 * 8 ≤ w then 0
  else if w % 8 = 0 then (s.port (w / 8)).status.toNat
  else if w % 8 = 1 then (if (s.port (w / 8)).en then 1 else 0)
  else 0

/-- The assignment of services to kiosk cores, a byte a core (01_device.md R16): 0 command processor, 1 sampling stage, 2 fault and
migration service, 3 fabric-management agent, 4 context service (log entry 90). -/
def State.fabricWord (s : State) (w : Nat) : Nat :=
  if 2 ≤ w then 0 else (List.range 8).foldl (fun v j => v + nth 0 s.kiosk (8 * w + j) % 2 ^ 8 * 2 ^ (8 * j)) 0

/-- Firmware moves services: the bytes `lo` to `hi - 1` of word `w` are stored (R16). -/
def State.moveServices (s : State) (w lo hi v : Nat) : State :=
  { s with kiosk := (List.range 16).map (fun k =>
      let b := v / 2 ^ (8 * (k % 8)) % 2 ^ 8
      if k / 8 = w ∧ lo ≤ k % 8 ∧ k % 8 < hi ∧ b < 5 then b else nth 0 s.kiosk k) }

def State.devWord (s : State) (d : DevPage) (w : Nat) : Nat :=
  match d with
  | .fbuf => s.fbuf.word w
  | .errlog => s.logWord w
  | .links => s.linkWord w
  | .fabric => s.fabricWord w

/-- What a load of PUT acquires: the adds to it are releases at device scope (11_page.md R291; 22_reliability.md R450). -/
def State.putTime (s : State) (d : DevPage) (off : Nat) : Nat :=
  match d with
  | .fbuf => if off < 4 then s.fbuf.time else 0
  | .errlog => if off < 4 then s.log.time else 0
  | _ => 0

/-- A load by core `c` of `n` bytes from a device page; reading a port's RTX clears it (R438). -/
def State.devRead (s : State) (c : Nat) (d : DevPage) (off n : Nat) : Nat × State :=
  let s := s.acquire c (s.putTime d off)
  let w := off / 8
  let v := (s.devWord d w >>> (8 * (off % 8))) % 2 ^ (8 * n)
  let touches := decide (off % 8 ≤ 1) && decide (1 < off % 8 + n)
  if d = .links ∧ w % 8 = 0 ∧ w < 24 * 8 ∧ touches then
    (v, s.setPort (w / 8) { s.port (w / 8) with rtx := 0 })
  else (v, s)

/-- A store of `n` bytes to a device page; fields that are not RW ignore it (R7). -/
def State.devWrite (s : State) (d : DevPage) (off n v : Nat) : State :=
  let w := off / 8
  let sh := 8 * (off % 8)
  let old := s.devWord d w
  let merged := old - ((old >>> sh) % 2 ^ (8 * n)) * 2 ^ sh + (v % 2 ^ (8 * n)) * 2 ^ sh
  let touches (lo hi : Nat) : Bool := decide (off % 8 < hi) && decide (lo < off % 8 + n)
  match d with
  | .fbuf => if w = 0 ∧ touches 4 8 then s.setFbufGet (merged / 2 ^ 32) else s
  | .errlog =>
    if w = 0 ∧ touches 4 8 then s.setLogGet (merged / 2 ^ 32)
    else if w = 2 ∧ touches 0 2 then { s with log := { s.log with thresh := BitVec.ofNat 16 merged } }
    else s
  | .links =>
    if w % 8 = 1 ∧ w < 24 * 8 ∧ touches 0 1 then
      let p := w / 8
      let s := if merged % 2 = 1 then s.portEnable p else s.portDisable p
      if merged / 2 % 2 = 1 ∧ merged % 2 = 1 then s.portRetrain p else s
    else s
  | .fabric => s.moveServices w (off % 8) (off % 8 + n) merged

end Sys2Proof.Machine
end

