-- ==== Sys2Proof/Machine/Beats.lean ====
section
/-! DEFINITION. Matrix beats falling due (07_matrix.md R201 to R203), the residue registers (R211, R212) and the words of the
status registers (R205 Table 7, Table 9). -/

namespace Sys2Proof.Machine

/-! ### Exact sums -/

/-- A value as a sum of one term. -/
def Sum.ofVal : FVal → Sum
  | .nan => .nan
  | .inf n => .inf n
  | .fin n m e => .val n (FVal.dy (.fin n m e))

/-- Exact sum under R61 and R62; an exact zero of unlike signs is +0. -/
def Sum.plus (a b : Sum) : Sum :=
  match a, b with
  | .nan, _ => .nan
  | _, .nan => .nan
  | .inf n, .inf m => if n = m then .inf n else .nan
  | .inf n, .val _ _ => .inf n
  | .val _ _, .inf n => .inf n
  | .val za da, .val zb db => .val (da.num = 0 && db.num = 0 && za && zb) (Dy.add da db)

/-- The exact dyadic of a finite sum. -/
def Sum.dy : Sum → Dy
  | .val _ d => d
  | _ => ⟨0, 0⟩
def Sum.isFinite : Sum → Bool
  | .val _ _ => true
  | _ => false

def Dy.zero : Dy := ⟨0, 0⟩
def Dy.sum (l : List Dy) : Dy := l.foldl Dy.add .zero

/-! ### Planes and accumulators -/

/-- A cell that R195 leaves open: a value of the cell width, drawn from free values, and 0 where no bit of the storage has been 1. -/
def Plane.openCell (p : Plane) (k n : Nat) : Nat :=
  let u := (Config.freeValue (p.seed + 256 * k + n)).toNat
  if !p.ever then 0 else if p.fm then u % 2 ^ 16 else wrapN (((u % 384 : Nat) : Int) - 128) 16

/-- Cell (k, n) of a plane as 16 bits: what its row was pushed with, or an open cell (R195). -/
def Plane.bitsAt (p : Plane) (k n : Nat) : Nat :=
  if p.bad.getLsbD k then p.openCell k n
  else ((Tbl.get 0 p.rows k).toNat >>> (16 * n)) % 2 ^ 16

/-- Integer cell. -/
def Plane.int (p : Plane) (k n : Nat) : Int := sext (p.bitsAt k n) 16

/-- The format of float cells and A lanes. -/
def ffFmt (ff : Bool) : Fmt := if ff then .f16 else .bf16

/-- Float cell. -/
def Plane.val (p : Plane) (k n : Nat) : FVal := (ffFmt p.ff).val (p.bitsAt k n)

/-- Row `r` of accumulator tile `t`. -/
def Matrix.row (m : Matrix) (t r : Nat) : BitVec 8192 := Tbl.get 0 m.acc (128 * t + r)
def Matrix.setRow (m : Matrix) (t r : Nat) (x : BitVec 8192) : Matrix := { m with acc := Tbl.set 0 m.acc (128 * t + r) x }
/-- Element n of a row. -/
def rowElem (x : BitVec 8192) (n : Nat) : Nat := (x.toNat >>> (32 * n)) % 2 ^ 32
def rowOf (l : List Nat) : BitVec 8192 := BitVec.ofNat 8192 (packLanes 32 l)

def Matrix.st (m : Matrix) (t : Nat) : AccStat := Tbl.get .reset m.stat t
def Matrix.setSt (m : Matrix) (t : Nat) (x : AccStat) : Matrix := { m with stat := Tbl.set .reset m.stat t x }

/-! ### Beats that fall due -/

/-- Ulp of R212 as a dyadic. -/
def ulpDy (x : FVal) : Dy :=
  match x with
  | .fin _ m e => if m = 0 then ⟨1, -149⟩ else ⟨1, max ((m.log2 : Int) + e) (-126) - 23⟩
  | _ => ⟨0, 0⟩

/-- The same as a sum: an infinite DIFF, which only an overflow leaves, has an infinite ulp. -/
def ulpSum (x : FVal) : Sum := if x.isFin then .val false (ulpDy x) else .inf false

/-- Row `r` of tile `t` as beats meet it: a row that awaits reload is met as the image holds it (R204). -/
def Matrix.heldRow (m : Matrix) (t r : Nat) : BitVec 8192 := if r < (m.st t).wm.toNat then m.row t r else Tbl.get 0 m.reload (128 * t + r)
def Matrix.setHeldRow (m : Matrix) (t r : Nat) (x : BitVec 8192) : Matrix :=
  if r < (m.st t).wm.toNat then m.setRow t r x else { m with reload := Tbl.set 0 m.reload (128 * t + r) x }

/-- An integer beat falls due (R201, R203, R211). -/
def Matrix.dueInt (m : Matrix) (b : Beat) : Matrix :=
  let old := m.heldRow b.tile b.row
  let st := m.st b.tile
  let sums := (List.range 256).map (fun n =>
    (nth (Sum.val false .zero) b.prods n).dy.num + (if b.ovw then 0 else sext (rowElem old n) 32))
  let clamp := b.sat && sums.any (fun s => sat s (-(2 ^ 31)) (2 ^ 31 - 1) ≠ s)
  let new := sums.map (fun s => wrapN (if b.sat then sat s (-(2 ^ 31)) (2 ^ 31 - 1) else s) 32)
  let olds := (List.range 256).map (fun n => sext (rowElem old n) 32)
  let total (l : List Int) : Int := l.foldl (· + ·) 0
  let act : Int := total (new.map (fun x => sext x 32)) - total olds
  let exp : Int := b.expect.num - (if b.ovw then total olds else 0)
  (m.setHeldRow b.tile b.row (rowOf new)).setSt b.tile
    { st with steps := st.steps + 1, satf := st.satf || clamp, unck := st.unck || clamp,
              resLo := st.resLo + BitVec.ofInt 32 act, resHi := st.resHi + BitVec.ofInt 32 exp }

/-- A float beat falls due (R202, R203, R212). -/
def Matrix.dueFloat (m : Matrix) (b : Beat) : Matrix :=
  let old := m.heldRow b.tile b.row
  let st := m.st b.tile
  let oldV := (List.range 64).map (fun n => Fmt.f32.val (rowElem old n))
  let new := (List.range 64).map (fun n =>
    let p := nth (Sum.val false .zero) b.prods n
    roundSum .f32 .rne 0 (if b.ovw then p else p.plus (Sum.ofVal (nth .nan oldV n))))
  let newV := new.map Fmt.f32.val
  let high := (List.range 192).map (fun n => rowElem old (64 + n))
  let m := m.setHeldRow b.tile b.row (rowOf (new ++ high))
  let bad := b.nonfin || newV.any (fun v => !v.isFin) || oldV.any (fun v => !v.isFin)
  let st := { st with steps := st.steps + 1 }
  if bad then m.setSt b.tile { st with unck := true }
  else
    let rho := Dy.add (Dy.sum (newV.map FVal.dy))
      (Dy.neg (Dy.add b.expect (if b.ovw then .zero else Dy.sum (oldV.map FVal.dy))))
    let diff := roundSum .f32 .rne 0 ((Sum.ofVal (Fmt.f32.val st.resLo.toNat)).plus (.val false rho))
    let ulps := (Sum.val false (Dy.sum (newV.map ulpDy))).plus (ulpSum (Fmt.f32.val diff))
    let bound := roundSum .f32 .rup 0 ((Sum.ofVal (Fmt.f32.val st.resHi.toNat)).plus ulps)
    m.setSt b.tile { st with resLo := BitVec.ofNat 32 diff, resHi := BitVec.ofNat 32 bound }

def Matrix.dueBeat (m : Matrix) (b : Beat) : Matrix := if b.fm then m.dueFloat b else m.dueInt b

/-- Every beat due by issue cycle `t` falls due, in issue order (R203); the log keeps what was issued in the 264 cycles before. -/
def Core.settleAt (c : Core) (t : Nat) : Core :=
  let due := c.mx.beats.filter (fun b => b.due ≤ t)
  { c with mx := due.foldl Matrix.dueBeat { c.mx with beats := c.mx.beats.filter (fun b => t < b.due),
                                                      log := c.mx.log.filter (fun l => t < l.issued + 264) } }

/-- Every beat due by the core's next issue cycle falls due: that cycle begins. -/
def Core.settle (c : Core) : Core := c.settleAt c.ic

/-- Every beat due by the last issue cycle has fallen due. -/
def Core.settled (c : Core) : Core := c.settleAt (c.ic - 1)

/-! ### Status words -/

def b2n (b : Bool) : Nat := if b then 1 else 0

/-- WMARKn (R205 Table 7). -/
def AccStat.wmark (a : AccStat) : W64 :=
  BitVec.ofNat 64 (a.steps.toNat * 2 ^ 52 + a.snstep.toNat * 2 ^ 40 + a.gen.toNat * 2 ^ 24 + a.rptr.toNat * 2 ^ 17 + b2n a.gv * 2 ^ 16
    + b2n a.tv * 2 ^ 15 + b2n a.tmode * 2 ^ 14 + b2n a.satf * 2 ^ 13 + b2n a.unck * 2 ^ 12 + b2n a.mism * 2 ^ 11 + a.wm.toNat)

/-- RESIDn (Table 9). -/
def AccStat.resid (a : AccStat) : W64 := BitVec.ofNat 64 (a.resHi.toNat * 2 ^ 32 + a.resLo.toNat)

/-- An SWR to WMARKn: RPTR, and the W1C bits SATF and MISM (R205). -/
def AccStat.write (a : AccStat) (x : W64) : AccStat :=
  { a with rptr := BitVec.ofNat 7 (bits x.toNat 23 17), satf := a.satf && !x.getLsbD 13, mism := a.mism && !x.getLsbD 11 }

end Sys2Proof.Machine
end

