-- ==== Sys2Proof/Machine/Flags.lean ====
section
/-! DEFINITION. Conditions of the compares (05_scalar_control.md R134) and the words of the system registers a core holds: CDIAG,
LCTL, LSTAT (02_core.md R39, R50), the loss scale (03_numbers.md R84), the trap state (14_trap.md R336) and DEVINFO
(01_device.md R21). -/

namespace Sys2Proof.Machine

/-! ### Compare conditions (R134 Table 3) -/

inductive Cond where
  | eq | ne | lt | le | gt | ge | ltn | len | gtn | gen
deriving DecidableEq, Repr

/-- The condition on two 64-bit values. -/
def Cond.holds (k : Cond) (x y : W64) : Bool :=
  match k with
  | .eq => x == y
  | .ne => x != y
  | .lt => decide (x.toInt < y.toInt)
  | .le => decide (x.toInt ≤ y.toInt)
  | .gt => decide (y.toInt < x.toInt)
  | .ge => decide (y.toInt ≤ x.toInt)
  | .ltn => decide (x.toNat < y.toNat)
  | .len => decide (x.toNat ≤ y.toNat)
  | .gtn => decide (y.toNat < x.toNat)
  | .gen => decide (y.toNat ≤ x.toNat)

/-! ### CDIAG (R39) -/

def Core.cdiag (c : Core) : W64 :=
  BitVec.ofNat 64 (c.frzcyc.toNat * 2 ^ 16 + b2n c.latinv * 2 ^ 7 + b2n c.holdinv * 2 ^ 6 + c.diagunit.toNat * 2 ^ 3)

/-- A read clears FRZCYC. -/
def Core.cdiagRead (c : Core) : Core := { c with frzcyc := 0 }

/-- A write clears the sticky bits it holds ones for. -/
def Core.cdiagWrite (c : Core) (x : W64) : Core :=
  { c with latinv := c.latinv && !x.getLsbD 7, holdinv := c.holdinv && !x.getLsbD 6 }

/-! ### LCTL and LSTAT (R50 Tables 7 and 8) -/

def LoopCtl.word (l : LoopCtl) : W64 :=
  BitVec.ofNat 64 (l.lact.toNat * 2 ^ 16 + b2n l.roten * 2 ^ 15 + l.rotlvl.toNat * 2 ^ 12 + l.vrot.toNat)

def LoopCtl.ofWord (x : W64) : LoopCtl :=
  ⟨BitVec.ofNat 6 (bits x.toNat 21 16), x.getLsbD 15, BitVec.ofNat 3 (bits x.toNat 14 12), BitVec.ofNat 5 (bits x.toNat 4 0)⟩

def LStat.word (l : LStat) : W64 :=
  BitVec.ofNat 64 (l.icount.toNat * 2 ^ 40 + l.epi.toNat * 2 ^ 32 + l.amask.toNat * 2 ^ 16 + l.beg.toNat * 2 ^ 8 + l.fin.toNat)

def LStat.ofWord (x : W64) : LStat :=
  ⟨BitVec.ofNat 24 (bits x.toNat 63 40), BitVec.ofNat 8 (bits x.toNat 39 32), BitVec.ofNat 16 (bits x.toNat 31 16),
   BitVec.ofNat 8 (bits x.toNat 15 8), BitVec.ofNat 8 (bits x.toNat 7 0)⟩

/-! ### Loss scale (R84) -/

/-- The current generation's entry. -/
def Core.scaleNow (c : Core) : ScaleGen := Tbl.get .none c.scales (c.gen.toNat % 8)
def Core.lscale (c : Core) : W64 := (c.scaleNow.scale).setWidth 64
def Core.lsgen (c : Core) : W64 := BitVec.ofNat 64 (c.scaleNow.recip.toNat * 2 ^ 32 + c.gen.toNat)

/-- A positive, finite, normal FP32. -/
def scaleLegal (x : W32) : Bool :=
  let e := bits x.toNat 30 23
  !x.getLsbD 31 && decide (1 ≤ e ∧ e ≤ 254)

/-- A write of LSCALE opens a generation. -/
def Core.openScale (c : Core) (x : W32) : Core :=
  let gen := c.gen + 1
  let one : Dy := ⟨1, 0⟩
  let recip := BitVec.ofNat 32 (roundQuot .f32 .rne 0 one (Fmt.f32.val x.toNat).dy)
  { c with gen := gen, scales := Tbl.set .none c.scales (gen.toNat % 8) ⟨x, recip⟩, nopen := min 7 (c.nopen + 1) }

/-- Generation `g` is open (R85). -/
def Core.genOpen (c : Core) (g : BitVec 16) : Bool := decide ((c.gen - g).toNat ≤ min 7 c.nopen)

/-! ### Trap state (R336 Table 2) -/

def Core.trapstat (c : Core) : W64 :=
  BitVec.ofNat 64 (c.dcause.toNat * 2 ^ 56 + min c.reports.length 96 * 2 ^ 49 + b2n c.imp * 2 ^ 48 + c.hbase.toNat * 2 ^ 4
    + c.frames.length % 4 * 2 ^ 2 + b2n c.twin * 2)

/-- Bits [47:4] of a written word: RPC or HBASE. -/
def addr44 (x : W64) : BitVec 44 := BitVec.ofNat 44 (bits x.toNat 47 4)

/-! ### Generator registers (03_numbers.md R87) -/

def half128 (x : BitVec 128) (hi : Bool) : W64 := BitVec.ofNat 64 (if hi then x.toNat / 2 ^ 64 else x.toNat % 2 ^ 64)
def setHalf128 (x : BitVec 128) (hi : Bool) (v : W64) : BitVec 128 :=
  BitVec.ofNat 128 (if hi then v.toNat * 2 ^ 64 + x.toNat % 2 ^ 64 else x.toNat / 2 ^ 64 * 2 ^ 64 + v.toNat)

/-! ### DEVINFO (R21) -/

/-- STEP is non-zero and otherwise not specified (log entry 7). -/
def devStep : Nat := if Config.stepRaw = 0 then 1 else Config.stepRaw.toNat

def State.devinfo (s : State) : W64 :=
  BitVec.ofNat 64 (0x9768 * 2 ^ 48 + devStep * 2 ^ 40 + (16 - popcN 16 s.outQ.toNat) * 2 ^ 35 + s.spares.length % 32 * 2 ^ 30
    + 12 * 2 ^ 24 + 24 * 2 ^ 16 + 16 * 2 ^ 8)

end Sys2Proof.Machine
end

