-- ==== Sys2Proof/WellFormed.lean ====
section
/-! DEFINITION. Which operations the decoder accepts: the field ranges, source modes and reserved bits of
spec/04_encoding.md R104 to R111 and of each instruction's own field rules. -/

namespace Sys2Proof

/-- The values a field may hold, and whether SMODE may select a latch, a hold capture or a held value for it. -/
structure FieldRange where
  lo : Nat
  hi : Nat
  latch : Bool
deriving DecidableEq, Repr

/-- A field in its range. -/
def FieldRange.has (r : FieldRange) (x : BitVec 6) : Bool := decide (r.lo ≤ x.toNat) && decide (x.toNat < r.hi)

/-- A latch field: bits [5:2] zero (R106). -/
def latchField (x : BitVec 6) : Bool := decide (x.toNat < 4)

/-- Predicate codes 0 to 23 (R104). -/
def Guard.ok (g : Guard) : Bool := decide (g.p.toNat < 24)

/-- SMODE against the two sources (R106 Table 3). -/
def modeOk (k1 k2 : FieldRange) (mode : BitVec 3) (s1 s2 : BitVec 6) : Bool :=
  match mode.toNat with
  | 0 => true
  | 1 => k1.latch && latchField s1
  | 2 => k2.latch && latchField s2
  | 3 => k1.latch && k2.latch && latchField s1 && latchField s2
  | 4 => k1.latch
  | 5 => k2.latch
  | 6 => k1.latch && decide (s1 = 0)
  | _ => k2.latch && decide (s2 = 0)

/-- Whether the first source field names a register of its file under this mode. -/
def s1Reg (mode : BitVec 3) : Bool := mode.toNat ≠ 1 && mode.toNat ≠ 3 && mode.toNat ≠ 6

/-- Format RR: ranges of d, s1, s2, the source mode, DNIL (R105 to R107). -/
def RR.ok (o : RR) (d k1 k2 : FieldRange) (dn : Bool) : Bool :=
  d.has o.d && k1.has o.s1 && k2.has o.s2 && modeOk k1 k2 o.mode o.s1 o.s2 &&
    (!o.dnil || (dn && decide (o.d = 0)))

/-- SM1 of format RI (R106): 1 latch, 2 hold capture, 3 held read. -/
def sm1Ok (k : FieldRange) (sm1 : BitVec 2) (s1 : BitVec 6) : Bool :=
  match sm1.toNat with
  | 0 => true
  | 1 => k.latch && latchField s1
  | 2 => k.latch
  | _ => k.latch && decide (s1 = 0)

/-- Format RI with an immediate below `hi`. -/
def RI.ok (o : RI) (d k1 : FieldRange) (hi : Nat) : Bool :=
  d.has o.d && k1.has o.s1 && sm1Ok k1 o.sm1 o.s1 && decide (o.imm.toNat < hi)

/-- Format MEM (R110): no offset outside mode 1. -/
def MEM.ok (o : MEM) : Bool := decide (o.am.toNat < 3) && (decide (o.am = 1) || decide (o.off = 0))

/-- VLDPL: modes 0 and 2, slots within four, reserved offset bits zero (R115, R186). -/
def MEM.plOk (o : MEM) : Bool :=
  (decide (o.am = 0) || decide (o.am = 2)) && decide (o.off.toNat < 64) && decide (o.off.toNat % 4 = 0) &&
    decide (o.off.toNat / 16 + (o.off.toNat / 4) % 4 < 4)

/-- Modes 0 and 2 only (R110, R218). -/
def amPlain (am : BitVec 2) : Bool := decide (am = 0) || decide (am = 2)

/-- BT (R108, R142). The tests above NT are zero; the rule names no value for their negations, and either is taken (log entry 95). -/
def BTO.ok (o : BTO) : Bool :=
  decide (o.t0.toNat < 24) && decide (o.t1.toNat < 24) && decide (o.t2.toNat < 24) && decide (o.t3.toNat < 24) &&
    (decide (1 ≤ o.nt.toNat) || decide (o.t1 = 0)) && (decide (2 ≤ o.nt.toNat) || decide (o.t2 = 0)) &&
    (decide (3 ≤ o.nt.toNat) || decide (o.t3 = 0))

/-- Width in bits of a format code of R116. -/
def cvWidth (c : Nat) : Nat :=
  match c with
  | 0 => 32 | 1 => 16 | 2 => 16 | 3 => 8 | 4 => 8 | 5 => 16 | 6 => 16 | 7 => 32 | _ => 32

/-- CV: source mode, SFMT, PART below the width ratio (R106, R116, R170); `wd` is the destination width. -/
def CV.ok (o : CV) (ws wd : Nat) : Bool :=
  (match o.mode.toNat with
   | 0 => true | 1 => latchField o.s1 | 4 => true | 6 => decide (o.s1 = 0) | _ => false) &&
    decide (o.sfmt.toNat < 9) && decide (o.part.toNat < max ws wd / min ws wd) && (!o.dnil || decide (o.d = 0))

/-- XC: a descriptor triple within g0 to g63 (R218). XPREF does not use REINT (R105, R231); a tile field other than 0 is an illegal operand
of XPREF and XWBFILL at issue (R221). -/
def XC.ok (o : XC) : Bool := amPlain o.am && decide (o.g.toNat < 62)

/-- XA: the third source is the CAS comparand only (R235, R240). -/
def XA.ok (o : XA) (cas : Bool) : Bool := amPlain o.am && (cas || decide (o.s3 = 0))

/-- An accumulator number (R105). -/
def accOk (a : BitVec 5) : Bool := decide (a.toNat < 24)

/-- The class S operations the decoder accepts. -/
def SInstr.ok : SInstr → Bool
  | .add g o => g.ok && o.ok ⟨0, 64, false⟩ ⟨0, 64, true⟩ ⟨0, 64, true⟩ true
  | .sub g o => g.ok && o.ok ⟨0, 64, false⟩ ⟨0, 64, true⟩ ⟨0, 64, true⟩ true
  | .addi g o => g.ok && o.ok ⟨0, 64, false⟩ ⟨0, 64, true⟩ 512
  | .mul g o => g.ok && o.ok ⟨0, 64, false⟩ ⟨0, 64, true⟩ ⟨0, 64, true⟩ true
  | .mulh g o => g.ok && o.ok ⟨0, 64, false⟩ ⟨0, 64, true⟩ ⟨0, 64, true⟩ true
  | .mulhn g o => g.ok && o.ok ⟨0, 64, false⟩ ⟨0, 64, true⟩ ⟨0, 64, true⟩ true
  | .div g o => g.ok && o.ok ⟨0, 64, false⟩ ⟨0, 64, true⟩ ⟨0, 64, true⟩ true
  | .divn g o => g.ok && o.ok ⟨0, 64, false⟩ ⟨0, 64, true⟩ ⟨0, 64, true⟩ true
  | .rem g o => g.ok && o.ok ⟨0, 64, false⟩ ⟨0, 64, true⟩ ⟨0, 64, true⟩ true
  | .remn g o => g.ok && o.ok ⟨0, 64, false⟩ ⟨0, 64, true⟩ ⟨0, 64, true⟩ true
  | .and g o => g.ok && o.ok ⟨0, 64, false⟩ ⟨0, 64, true⟩ ⟨0, 64, true⟩ true
  | .or g o => g.ok && o.ok ⟨0, 64, false⟩ ⟨0, 64, true⟩ ⟨0, 64, true⟩ true
  | .xor g o => g.ok && o.ok ⟨0, 64, false⟩ ⟨0, 64, true⟩ ⟨0, 64, true⟩ true
  | .andn g o => g.ok && o.ok ⟨0, 64, false⟩ ⟨0, 64, true⟩ ⟨0, 64, true⟩ true
  | .shl g o => g.ok && o.ok ⟨0, 64, false⟩ ⟨0, 64, true⟩ ⟨0, 64, true⟩ true
  | .shr g o => g.ok && o.ok ⟨0, 64, false⟩ ⟨0, 64, true⟩ ⟨0, 64, true⟩ true
  | .sar g o => g.ok && o.ok ⟨0, 64, false⟩ ⟨0, 64, true⟩ ⟨0, 64, true⟩ true
  | .shli g o => g.ok && o.ok ⟨0, 64, false⟩ ⟨0, 64, true⟩ 64
  | .shri g o => g.ok && o.ok ⟨0, 64, false⟩ ⟨0, 64, true⟩ 64
  | .sari g o => g.ok && o.ok ⟨0, 64, false⟩ ⟨0, 64, true⟩ 64
  | .rot g o => g.ok && o.ok ⟨0, 64, false⟩ ⟨0, 64, true⟩ ⟨0, 64, true⟩ true
  | .clz g o => g.ok && o.ok ⟨0, 64, false⟩ ⟨0, 64, true⟩ ⟨0, 1, false⟩ true
  | .popc g o => g.ok && o.ok ⟨0, 64, false⟩ ⟨0, 64, true⟩ ⟨0, 1, false⟩ true
  | .min g o => g.ok && o.ok ⟨0, 64, false⟩ ⟨0, 64, true⟩ ⟨0, 64, true⟩ true
  | .max g o => g.ok && o.ok ⟨0, 64, false⟩ ⟨0, 64, true⟩ ⟨0, 64, true⟩ true
  | .minn g o => g.ok && o.ok ⟨0, 64, false⟩ ⟨0, 64, true⟩ ⟨0, 64, true⟩ true
  | .maxn g o => g.ok && o.ok ⟨0, 64, false⟩ ⟨0, 64, true⟩ ⟨0, 64, true⟩ true
  | .sel g o => g.ok && decide (o.s3.toNat < 24)
  | .li g _ => g.ok
  | .lih g o => g.ok && decide (o.imm.toNat < 65536)
  | .aadd g o => g.ok && o.ok ⟨0, 16, false⟩ ⟨0, 16, false⟩ ⟨0, 64, true⟩ true
  | .cmpEq g o => g.ok && o.ok ⟨0, 24, false⟩ ⟨0, 64, true⟩ ⟨0, 64, true⟩ true
  | .cmpNe g o => g.ok && o.ok ⟨0, 24, false⟩ ⟨0, 64, true⟩ ⟨0, 64, true⟩ true
  | .cmpLt g o => g.ok && o.ok ⟨0, 24, false⟩ ⟨0, 64, true⟩ ⟨0, 64, true⟩ true
  | .cmpLe g o => g.ok && o.ok ⟨0, 24, false⟩ ⟨0, 64, true⟩ ⟨0, 64, true⟩ true
  | .cmpGt g o => g.ok && o.ok ⟨0, 24, false⟩ ⟨0, 64, true⟩ ⟨0, 64, true⟩ true
  | .cmpGe g o => g.ok && o.ok ⟨0, 24, false⟩ ⟨0, 64, true⟩ ⟨0, 64, true⟩ true
  | .cmpLtn g o => g.ok && o.ok ⟨0, 24, false⟩ ⟨0, 64, true⟩ ⟨0, 64, true⟩ true
  | .cmpLen g o => g.ok && o.ok ⟨0, 24, false⟩ ⟨0, 64, true⟩ ⟨0, 64, true⟩ true
  | .cmpGtn g o => g.ok && o.ok ⟨0, 24, false⟩ ⟨0, 64, true⟩ ⟨0, 64, true⟩ true
  | .cmpGen g o => g.ok && o.ok ⟨0, 24, false⟩ ⟨0, 64, true⟩ ⟨0, 64, true⟩ true
  | .pand g o => g.ok && o.ok ⟨0, 24, false⟩ ⟨0, 24, false⟩ ⟨0, 24, false⟩ true
  | .por g o => g.ok && o.ok ⟨0, 24, false⟩ ⟨0, 24, false⟩ ⟨0, 24, false⟩ true
  | .pxor g o => g.ok && o.ok ⟨0, 24, false⟩ ⟨0, 24, false⟩ ⟨0, 24, false⟩ true
  | .pnot g o => g.ok && o.ok ⟨0, 24, false⟩ ⟨0, 24, false⟩ ⟨0, 1, false⟩ true
  | .pmov g o => g.ok && o.ok ⟨0, 24, false⟩ ⟨0, 24, false⟩ ⟨0, 1, false⟩ true
  | .amovAG g o => g.ok && o.ok ⟨0, 16, false⟩ ⟨0, 64, true⟩ ⟨0, 1, false⟩ true
  | .amovGA g o => g.ok && o.ok ⟨0, 64, false⟩ ⟨0, 16, false⟩ ⟨1, 2, false⟩ true
  | .amovAA g o => g.ok && o.ok ⟨0, 16, false⟩ ⟨0, 16, false⟩ ⟨2, 3, false⟩ true
  | .ldI8 g o => g.ok && o.ok
  | .ldN8 g o => g.ok && o.ok
  | .ldI16 g o => g.ok && o.ok
  | .ldN16 g o => g.ok && o.ok
  | .ldI32 g o => g.ok && o.ok
  | .ldN32 g o => g.ok && o.ok
  | .ld64 g o => g.ok && o.ok
  | .astr g o => g.ok && o.ok ⟨0, 16, false⟩ ⟨0, 64, true⟩ ⟨0, 1, false⟩ false
  | .st8 g o => g.ok && o.ok
  | .st16 g o => g.ok && o.ok
  | .st32 g o => g.ok && o.ok
  | .st64 g o => g.ok && o.ok
  | .br g _ => g.ok
  | .bt o => o.ok
  | .movb g _ => g.ok
  | .call g _ => g.ok
  | .ret g o => g.ok && o.ok ⟨0, 1, false⟩ ⟨0, 8, false⟩ ⟨0, 1, false⟩ false
  | .loop g _ => g.ok
  | .lbrk g => g.ok
  | .rotb g o => g.ok && o.ok ⟨0, 1, false⟩ ⟨0, 1, false⟩ 64 && (decide (o.imm.toNat < 6) || decide (o.imm = 63))
  | .stage g o => g.ok && o.ok ⟨0, 1, false⟩ ⟨0, 1, false⟩ 256
  | .halt g => g.ok
  | .quiet g o => g.ok && decide (o.d = 0)
  | .lendb g o => g.ok && o.ok ⟨0, 1, false⟩ ⟨0, 1, false⟩ 4
  | .retb g o => g.ok && o.ok ⟨0, 1, false⟩ ⟨0, 1, false⟩ 4
  | .srd g _ => g.ok
  | .swr g _ => g.ok
  | .trap g o => g.ok && decide (o.d = 0)
  | .trapen g => g.ok
  | .tret g => g.ok
  | .ctxstat g o => g.ok && o.ok ⟨0, 64, false⟩ ⟨0, 64, true⟩ ⟨0, 1, false⟩ true
  | .ctxfreeze g o => g.ok && o.ok ⟨0, 64, false⟩ ⟨0, 64, true⟩ ⟨0, 64, true⟩ true
  | .ctxfreezeSave g o => g.ok && o.ok ⟨0, 64, false⟩ ⟨0, 64, true⟩ ⟨0, 64, true⟩ true
  | .ctxsave g o => g.ok && o.ok ⟨0, 64, false⟩ ⟨0, 64, true⟩ ⟨0, 64, true⟩ true
  | .cutQuery g o => g.ok && o.ok ⟨0, 64, false⟩ ⟨0, 64, true⟩ ⟨0, 64, true⟩ true
  | .cutStop g o => g.ok && o.ok ⟨0, 64, false⟩ ⟨0, 64, true⟩ ⟨0, 64, true⟩ true
  | .ctxresume g o => g.ok && o.ok ⟨0, 64, false⟩ ⟨0, 64, true⟩ ⟨0, 64, true⟩ true
  | .ctxrestoreResume g o => g.ok && o.ok ⟨0, 64, false⟩ ⟨0, 64, true⟩ ⟨0, 64, true⟩ true
  | .ctxrestore g o => g.ok && o.ok ⟨0, 64, false⟩ ⟨0, 64, true⟩ ⟨0, 64, true⟩ true
  | .wqpush g o => g.ok && o.ok ⟨0, 64, false⟩ ⟨0, 64, true⟩ ⟨0, 64, true⟩ true
  | .wqpop g o => g.ok && o.ok ⟨0, 64, false⟩ ⟨0, 64, true⟩ ⟨0, 64, true⟩ true
  | .wqclose g o => g.ok && o.ok ⟨0, 64, false⟩ ⟨0, 64, true⟩ ⟨0, 64, false⟩ true
  | .wqreopen g o => g.ok && o.ok ⟨0, 64, false⟩ ⟨0, 64, true⟩ ⟨0, 64, false⟩ true
  | .wqlen g o => g.ok && o.ok ⟨0, 64, false⟩ ⟨0, 64, true⟩ ⟨0, 64, false⟩ true
  | .gpset g o => g.ok && o.ok ⟨0, 64, false⟩ ⟨0, 64, true⟩ ⟨0, 64, true⟩ false
  | .gpget g o => g.ok && o.ok ⟨0, 64, false⟩ ⟨0, 64, true⟩ ⟨0, 1, false⟩ true
  | .glaunch g o => g.ok && o.ok ⟨0, 64, false⟩ ⟨0, 64, true⟩ ⟨0, 64, true⟩ true
  | .kdone g o => g.ok && o.ok ⟨0, 64, false⟩ ⟨0, 1, false⟩ ⟨0, 1, false⟩ true
  | .grpid g o => g.ok && o.ok ⟨0, 64, false⟩ ⟨0, 1, false⟩ ⟨0, 1, false⟩ true
  | .grpsize g o => g.ok && o.ok ⟨0, 64, false⟩ ⟨0, 1, false⟩ ⟨0, 1, false⟩ true
  | .binitReset g o => g.ok && o.ok ⟨0, 64, false⟩ ⟨0, 64, true⟩ ⟨0, 64, true⟩ true
  | .binitQuery g o => g.ok && o.ok ⟨0, 64, false⟩ ⟨0, 64, true⟩ ⟨0, 64, true⟩ true
  | .barrive g o => g.ok && o.ok ⟨0, 1, false⟩ ⟨0, 64, true⟩ ⟨0, 64, true⟩ false
  | .bwait g o => g.ok && o.ok ⟨0, 64, false⟩ ⟨0, 64, true⟩ ⟨0, 64, true⟩ true
  | .btry g o => g.ok && o.ok ⟨0, 64, false⟩ ⟨0, 64, true⟩ ⟨0, 64, true⟩ true
  | .wvbind g o => g.ok && o.ok ⟨0, 64, false⟩ ⟨0, 64, true⟩ ⟨0, 64, false⟩ true
  | .wvunbind g o => g.ok && o.ok ⟨0, 64, false⟩ ⟨0, 64, true⟩ ⟨0, 64, false⟩ true
  | .wvslot g o => g.ok && o.ok ⟨0, 64, false⟩ ⟨0, 64, true⟩ ⟨0, 64, false⟩ true
  | .wvpublish g o => g.ok && o.ok ⟨0, 64, false⟩ ⟨0, 64, true⟩ ⟨0, 64, true⟩ true
  | .wvread g o => g.ok && o.ok ⟨0, 64, false⟩ ⟨0, 64, true⟩ ⟨0, 64, false⟩ true
  | .confx g o => g.ok && o.ok ⟨0, 64, false⟩ ⟨0, 64, true⟩ ⟨0, 64, true⟩ true
  | .kvcommit g o => g.ok && o.ok ⟨0, 64, false⟩ ⟨0, 64, true⟩ ⟨0, 64, false⟩ true
  | .kvmodeSet g o => g.ok && o.ok ⟨0, 64, false⟩ ⟨0, 64, true⟩ ⟨0, 64, true⟩ true
  | .kvmodeGet g o => g.ok && o.ok ⟨0, 64, false⟩ ⟨0, 64, true⟩ ⟨0, 64, true⟩ true
  | .kvmodeSpec g o => g.ok && o.ok ⟨0, 64, false⟩ ⟨0, 64, true⟩ ⟨0, 64, true⟩ true
  | .kvmodeQuery g o => g.ok && o.ok ⟨0, 64, false⟩ ⟨0, 64, true⟩ ⟨0, 64, true⟩ true
  | .lktree g o => g.ok && o.ok ⟨0, 64, false⟩ ⟨0, 64, true⟩ ⟨0, 64, true⟩ true
  | .lkfree g o => g.ok && o.ok ⟨0, 64, false⟩ ⟨0, 64, true⟩ ⟨0, 1, false⟩ true
  | .lkfreeCheck g o => g.ok && o.ok ⟨0, 64, false⟩ ⟨0, 64, true⟩ ⟨0, 1, false⟩ true
  | .pgprobe g o => g.ok && o.ok ⟨0, 64, false⟩ ⟨0, 64, true⟩ ⟨0, 1, false⟩ true
  | .pginvUpdate g o => g.ok && o.ok ⟨0, 64, false⟩ ⟨0, 64, true⟩ ⟨0, 64, true⟩ true
  | .pginvMove g o => g.ok && o.ok ⟨0, 64, false⟩ ⟨0, 64, true⟩ ⟨0, 64, true⟩ true

/-- The class V operations the decoder accepts. -/
def VInstr.ok : VInstr → Bool
  | .vaddF32 g _ o => g.ok && o.ok ⟨0, 64, false⟩ ⟨0, 64, true⟩ ⟨0, 64, true⟩ true
  | .vsubF32 g _ o => g.ok && o.ok ⟨0, 64, false⟩ ⟨0, 64, true⟩ ⟨0, 64, true⟩ true
  | .vmulF32 g _ o => g.ok && o.ok ⟨0, 64, false⟩ ⟨0, 64, true⟩ ⟨0, 64, true⟩ true
  | .vfmaF32 g _ o => g.ok && o.ok ⟨0, 64, false⟩ ⟨0, 64, true⟩ ⟨0, 64, true⟩ false
  | .vfmsF32 g _ o => g.ok && o.ok ⟨0, 64, false⟩ ⟨0, 64, true⟩ ⟨0, 64, true⟩ false
  | .vfnmaF32 g _ o => g.ok && o.ok ⟨0, 64, false⟩ ⟨0, 64, true⟩ ⟨0, 64, true⟩ false
  | .vminF32 g _ o => g.ok && o.ok ⟨0, 64, false⟩ ⟨0, 64, true⟩ ⟨0, 64, true⟩ true
  | .vmaxF32 g _ o => g.ok && o.ok ⟨0, 64, false⟩ ⟨0, 64, true⟩ ⟨0, 64, true⟩ true
  | .vaddBf16 g _ o => g.ok && o.ok ⟨0, 64, false⟩ ⟨0, 64, true⟩ ⟨0, 64, true⟩ true
  | .vsubBf16 g _ o => g.ok && o.ok ⟨0, 64, false⟩ ⟨0, 64, true⟩ ⟨0, 64, true⟩ true
  | .vmulBf16 g _ o => g.ok && o.ok ⟨0, 64, false⟩ ⟨0, 64, true⟩ ⟨0, 64, true⟩ true
  | .vfmaBf16 g _ o => g.ok && o.ok ⟨0, 64, false⟩ ⟨0, 64, true⟩ ⟨0, 64, true⟩ false
  | .vfmsBf16 g _ o => g.ok && o.ok ⟨0, 64, false⟩ ⟨0, 64, true⟩ ⟨0, 64, true⟩ false
  | .vfnmaBf16 g _ o => g.ok && o.ok ⟨0, 64, false⟩ ⟨0, 64, true⟩ ⟨0, 64, true⟩ false
  | .vminBf16 g _ o => g.ok && o.ok ⟨0, 64, false⟩ ⟨0, 64, true⟩ ⟨0, 64, true⟩ true
  | .vmaxBf16 g _ o => g.ok && o.ok ⟨0, 64, false⟩ ⟨0, 64, true⟩ ⟨0, 64, true⟩ true
  | .vaddF16 g _ o => g.ok && o.ok ⟨0, 64, false⟩ ⟨0, 64, true⟩ ⟨0, 64, true⟩ true
  | .vsubF16 g _ o => g.ok && o.ok ⟨0, 64, false⟩ ⟨0, 64, true⟩ ⟨0, 64, true⟩ true
  | .vmulF16 g _ o => g.ok && o.ok ⟨0, 64, false⟩ ⟨0, 64, true⟩ ⟨0, 64, true⟩ true
  | .vfmaF16 g _ o => g.ok && o.ok ⟨0, 64, false⟩ ⟨0, 64, true⟩ ⟨0, 64, true⟩ false
  | .vfmsF16 g _ o => g.ok && o.ok ⟨0, 64, false⟩ ⟨0, 64, true⟩ ⟨0, 64, true⟩ false
  | .vfnmaF16 g _ o => g.ok && o.ok ⟨0, 64, false⟩ ⟨0, 64, true⟩ ⟨0, 64, true⟩ false
  | .vminF16 g _ o => g.ok && o.ok ⟨0, 64, false⟩ ⟨0, 64, true⟩ ⟨0, 64, true⟩ true
  | .vmaxF16 g _ o => g.ok && o.ok ⟨0, 64, false⟩ ⟨0, 64, true⟩ ⟨0, 64, true⟩ true
  | .vabsF32 g o => g.ok && o.ok ⟨0, 64, false⟩ ⟨0, 64, true⟩ ⟨0, 1, false⟩ true
  | .vabsH g o => g.ok && o.ok ⟨0, 64, false⟩ ⟨0, 64, true⟩ ⟨0, 1, false⟩ true
  | .vnegF32 g o => g.ok && o.ok ⟨0, 64, false⟩ ⟨0, 64, true⟩ ⟨0, 1, false⟩ true
  | .vnegH g o => g.ok && o.ok ⟨0, 64, false⟩ ⟨0, 64, true⟩ ⟨0, 1, false⟩ true
  | .vclassF32 g o => g.ok && o.ok ⟨0, 64, false⟩ ⟨0, 64, true⟩ ⟨0, 1, false⟩ true
  | .vclassBf16 g o => g.ok && o.ok ⟨0, 64, false⟩ ⟨0, 64, true⟩ ⟨0, 1, false⟩ true
  | .vclassF16 g o => g.ok && o.ok ⟨0, 64, false⟩ ⟨0, 64, true⟩ ⟨0, 1, false⟩ true
  | .vfinF32 g o => g.ok && o.ok ⟨0, 24, false⟩ ⟨0, 64, true⟩ ⟨0, 8, false⟩ true
  | .vfinBf16 g o => g.ok && o.ok ⟨0, 24, false⟩ ⟨0, 64, true⟩ ⟨0, 8, false⟩ true
  | .vfinF16 g o => g.ok && o.ok ⟨0, 24, false⟩ ⟨0, 64, true⟩ ⟨0, 8, false⟩ true
  | .vfinNfsF32 g o => g.ok && o.ok ⟨0, 24, false⟩ ⟨0, 1, false⟩ ⟨32, 33, false⟩ true
  | .vfinNfsBf16 g o => g.ok && o.ok ⟨0, 24, false⟩ ⟨0, 1, false⟩ ⟨32, 33, false⟩ true
  | .vfinNfsF16 g o => g.ok && o.ok ⟨0, 24, false⟩ ⟨0, 1, false⟩ ⟨32, 33, false⟩ true
  | .vdivF32 g _ o => g.ok && o.ok ⟨0, 64, false⟩ ⟨0, 64, true⟩ ⟨0, 64, true⟩ true
  | .vrcpF32 g _ o => g.ok && o.ok ⟨0, 64, false⟩ ⟨0, 64, true⟩ ⟨0, 1, false⟩ true
  | .vrsqF32 g _ o => g.ok && o.ok ⟨0, 64, false⟩ ⟨0, 64, true⟩ ⟨0, 1, false⟩ true
  | .vsqrtF32 g _ o => g.ok && o.ok ⟨0, 64, false⟩ ⟨0, 64, true⟩ ⟨0, 1, false⟩ true
  | .vexp2F32 g _ o => g.ok && o.ok ⟨0, 64, false⟩ ⟨0, 64, true⟩ ⟨0, 1, false⟩ true
  | .vlog2F32 g _ o => g.ok && o.ok ⟨0, 64, false⟩ ⟨0, 64, true⟩ ⟨0, 1, false⟩ true
  | .vtanhF32 g _ o => g.ok && o.ok ⟨0, 64, false⟩ ⟨0, 64, true⟩ ⟨0, 1, false⟩ true
  | .vdivBf16 g _ o => g.ok && o.ok ⟨0, 64, false⟩ ⟨0, 64, true⟩ ⟨0, 64, true⟩ true
  | .vrcpBf16 g _ o => g.ok && o.ok ⟨0, 64, false⟩ ⟨0, 64, true⟩ ⟨0, 1, false⟩ true
  | .vrsqBf16 g _ o => g.ok && o.ok ⟨0, 64, false⟩ ⟨0, 64, true⟩ ⟨0, 1, false⟩ true
  | .vsqrtBf16 g _ o => g.ok && o.ok ⟨0, 64, false⟩ ⟨0, 64, true⟩ ⟨0, 1, false⟩ true
  | .vexp2Bf16 g _ o => g.ok && o.ok ⟨0, 64, false⟩ ⟨0, 64, true⟩ ⟨0, 1, false⟩ true
  | .vlog2Bf16 g _ o => g.ok && o.ok ⟨0, 64, false⟩ ⟨0, 64, true⟩ ⟨0, 1, false⟩ true
  | .vtanhBf16 g _ o => g.ok && o.ok ⟨0, 64, false⟩ ⟨0, 64, true⟩ ⟨0, 1, false⟩ true
  | .viadd32 g o => g.ok && o.ok ⟨0, 64, false⟩ ⟨0, 64, true⟩ ⟨0, 64, true⟩ true
  | .viadd16 g o => g.ok && o.ok ⟨0, 64, false⟩ ⟨0, 64, true⟩ ⟨0, 64, true⟩ true
  | .viadd8 g o => g.ok && o.ok ⟨0, 64, false⟩ ⟨0, 64, true⟩ ⟨0, 64, true⟩ true
  | .visub32 g o => g.ok && o.ok ⟨0, 64, false⟩ ⟨0, 64, true⟩ ⟨0, 64, true⟩ true
  | .visub16 g o => g.ok && o.ok ⟨0, 64, false⟩ ⟨0, 64, true⟩ ⟨0, 64, true⟩ true
  | .visub8 g o => g.ok && o.ok ⟨0, 64, false⟩ ⟨0, 64, true⟩ ⟨0, 64, true⟩ true
  | .vimul32 g o => g.ok && o.ok ⟨0, 64, false⟩ ⟨0, 64, true⟩ ⟨0, 64, true⟩ true
  | .vimul16 g o => g.ok && o.ok ⟨0, 64, false⟩ ⟨0, 64, true⟩ ⟨0, 64, true⟩ true
  | .vimulhI32 g o => g.ok && o.ok ⟨0, 64, false⟩ ⟨0, 64, true⟩ ⟨0, 64, true⟩ true
  | .vimulhN32 g o => g.ok && o.ok ⟨0, 64, false⟩ ⟨0, 64, true⟩ ⟨0, 64, true⟩ true
  | .viminI32 g o => g.ok && o.ok ⟨0, 64, false⟩ ⟨0, 64, true⟩ ⟨0, 64, true⟩ true
  | .viminN32 g o => g.ok && o.ok ⟨0, 64, false⟩ ⟨0, 64, true⟩ ⟨0, 64, true⟩ true
  | .viminI16 g o => g.ok && o.ok ⟨0, 64, false⟩ ⟨0, 64, true⟩ ⟨0, 64, true⟩ true
  | .viminI8 g o => g.ok && o.ok ⟨0, 64, false⟩ ⟨0, 64, true⟩ ⟨0, 64, true⟩ true
  | .vimaxI32 g o => g.ok && o.ok ⟨0, 64, false⟩ ⟨0, 64, true⟩ ⟨0, 64, true⟩ true
  | .vimaxN32 g o => g.ok && o.ok ⟨0, 64, false⟩ ⟨0, 64, true⟩ ⟨0, 64, true⟩ true
  | .vimaxI16 g o => g.ok && o.ok ⟨0, 64, false⟩ ⟨0, 64, true⟩ ⟨0, 64, true⟩ true
  | .vimaxI8 g o => g.ok && o.ok ⟨0, 64, false⟩ ⟨0, 64, true⟩ ⟨0, 64, true⟩ true
  | .vshl32 g o => g.ok && o.ok ⟨0, 64, false⟩ ⟨0, 64, true⟩ ⟨0, 64, true⟩ true
  | .vshl16 g o => g.ok && o.ok ⟨0, 64, false⟩ ⟨0, 64, true⟩ ⟨0, 64, true⟩ true
  | .vshr32 g o => g.ok && o.ok ⟨0, 64, false⟩ ⟨0, 64, true⟩ ⟨0, 64, true⟩ true
  | .vshr16 g o => g.ok && o.ok ⟨0, 64, false⟩ ⟨0, 64, true⟩ ⟨0, 64, true⟩ true
  | .vsar32 g o => g.ok && o.ok ⟨0, 64, false⟩ ⟨0, 64, true⟩ ⟨0, 64, true⟩ true
  | .vsar16 g o => g.ok && o.ok ⟨0, 64, false⟩ ⟨0, 64, true⟩ ⟨0, 64, true⟩ true
  | .vand g o => g.ok && o.ok ⟨0, 64, false⟩ ⟨0, 64, true⟩ ⟨0, 64, true⟩ true
  | .vor g o => g.ok && o.ok ⟨0, 64, false⟩ ⟨0, 64, true⟩ ⟨0, 64, true⟩ true
  | .vxor g o => g.ok && o.ok ⟨0, 64, false⟩ ⟨0, 64, true⟩ ⟨0, 64, true⟩ true
  | .vmsel g o => g.ok && decide (o.s3.toNat < 8)
  | .vcmpI32 g o => g.ok && o.ok ⟨0, 48, false⟩ ⟨0, 64, true⟩ ⟨0, 64, true⟩ false
  | .vcmpN32 g o => g.ok && o.ok ⟨0, 48, false⟩ ⟨0, 64, true⟩ ⟨0, 64, true⟩ false
  | .vcmpF32 g o => g.ok && o.ok ⟨0, 48, false⟩ ⟨0, 64, true⟩ ⟨0, 64, true⟩ false
  | .vcmpBf16 g o => g.ok && o.ok ⟨0, 48, false⟩ ⟨0, 64, true⟩ ⟨0, 64, true⟩ false
  | .vcvtF32 g _ o => g.ok && o.ok (cvWidth o.sfmt.toNat) 32
  | .vcvtBf16 g _ o => g.ok && o.ok (cvWidth o.sfmt.toNat) 16
  | .vcvtF16 g _ o => g.ok && o.ok (cvWidth o.sfmt.toNat) 16
  | .vcvtI8 g _ o => g.ok && o.ok (cvWidth o.sfmt.toNat) 8
  | .vcvtN8 g _ o => g.ok && o.ok (cvWidth o.sfmt.toNat) 8
  | .vcvtI16 g _ o => g.ok && o.ok (cvWidth o.sfmt.toNat) 16
  | .vcvtN16 g _ o => g.ok && o.ok (cvWidth o.sfmt.toNat) 16
  | .vcvtI32 g _ o => g.ok && o.ok (cvWidth o.sfmt.toNat) 32
  | .vcvtN32 g _ o => g.ok && o.ok (cvWidth o.sfmt.toNat) 32
  | .vsrnd g o => g.ok && decide (o.sfmt ≠ 0) && o.ok 32 (cvWidth o.sfmt.toNat)
  | .vplsplit g o => g.ok && o.ok ⟨0, 64, false⟩ ⟨0, 64, true⟩ ⟨0, 4, false⟩ true
  | .vpljoin g o => g.ok && o.ok ⟨0, 64, false⟩ ⟨0, 64, true⟩ ⟨0, 4, false⟩ true
  | .voutapply g o => g.ok && o.ok ⟨0, 64, false⟩ ⟨0, 64, true⟩ ⟨0, 64, true⟩ true
  | .vrsumF32 g _ o => g.ok && o.ok ⟨0, 64, false⟩ ⟨0, 64, true⟩ ⟨0, 8, false⟩ true
  | .vrsumBf16 g _ o => g.ok && o.ok ⟨0, 64, false⟩ ⟨0, 64, true⟩ ⟨0, 8, false⟩ true
  | .vrsumI32 g _ o => g.ok && o.ok ⟨0, 64, false⟩ ⟨0, 64, true⟩ ⟨0, 8, false⟩ true
  | .vrmaxF32 g _ o => g.ok && o.ok ⟨0, 64, false⟩ ⟨0, 64, true⟩ ⟨0, 8, false⟩ true
  | .vrmaxI32 g _ o => g.ok && o.ok ⟨0, 64, false⟩ ⟨0, 64, true⟩ ⟨0, 8, false⟩ true
  | .vrminF32 g _ o => g.ok && o.ok ⟨0, 64, false⟩ ⟨0, 64, true⟩ ⟨0, 8, false⟩ true
  | .vrminI32 g _ o => g.ok && o.ok ⟨0, 64, false⟩ ⟨0, 64, true⟩ ⟨0, 8, false⟩ true
  | .vrargmaxF32 g _ o => g.ok && o.ok ⟨0, 64, false⟩ ⟨0, 64, true⟩ ⟨0, 8, false⟩ true
  | .vperm g o => g.ok && o.ok ⟨0, 64, false⟩ ⟨0, 64, true⟩ ⟨0, 64, true⟩ true
  | .vshuf g o => g.ok && o.ok ⟨0, 64, false⟩ ⟨0, 64, true⟩ ⟨0, 64, true⟩ true
  | .vbcast g o => g.ok && o.ok ⟨0, 64, false⟩ ⟨0, 64, true⟩ 32
  | .vslide g o => g.ok && o.ok ⟨0, 64, false⟩ ⟨0, 64, true⟩ 32
  | .vzip g o => g.ok && o.ok ⟨0, 64, false⟩ ⟨0, 64, true⟩ ⟨0, 64, true⟩ true
  | .vunzip g o => g.ok && o.ok ⟨0, 64, false⟩ ⟨0, 64, true⟩ ⟨0, 64, true⟩ true
  | .vtrn4 g o => g.ok && o.ok ⟨0, 64, false⟩ ⟨0, 64, true⟩ ⟨0, 1, false⟩ true
  | .vsmmerge g o => g.ok && decide (o.s3.toNat < 32)
  | .vrand g o => g.ok && o.ok ⟨0, 64, false⟩ ⟨0, 1, false⟩ ⟨0, 1, false⟩ true
  | .vrandf g o => g.ok && o.ok ⟨0, 64, false⟩ ⟨0, 1, false⟩ ⟨0, 1, false⟩ true
  | .vrnorm g o => g.ok && o.ok ⟨0, 64, false⟩ ⟨0, 1, false⟩ ⟨0, 1, false⟩ true
  | .vrnormt g o => g.ok && o.ok ⟨0, 64, false⟩ ⟨0, 1, false⟩ ⟨0, 1, false⟩ true
  | .vrseed g o => g.ok && o.ok ⟨0, 1, false⟩ ⟨0, 64, true⟩ ⟨0, 1, false⟩ false
  | .vld g o => g.ok && o.ok
  | .vst g o => g.ok && o.ok
  | .vldg g o => g.ok && o.ok ⟨0, 64, false⟩ ⟨0, 64, true⟩ ⟨0, 16, false⟩ false
  | .vsts g o => g.ok && o.ok ⟨0, 64, false⟩ ⟨0, 64, true⟩ ⟨0, 16, false⟩ false
  | .vldpl g o => g.ok && o.plOk

/-- The class X operations the decoder accepts. -/
def XInstr.ok : XInstr → Bool
  | .xcopyIn g o => g.ok && o.ok
  | .xcopyOut g o => g.ok && o.ok
  | .xcopyOutAcc g o => g.ok && o.ok
  | .xgather g o => g.ok && o.ok
  | .xscatter g o => g.ok && o.ok
  | .xwbfill g o => g.ok && o.ok
  | .xpref g o => g.ok && o.ok && !o.reint
  | .xsend g o => g.ok && o.ok ⟨0, 4, false⟩ ⟨0, 64, true⟩ ⟨0, 64, false⟩ false
  | .xrecv g o => g.ok && o.ok ⟨0, 64, false⟩ ⟨0, 4, false⟩ ⟨0, 1, false⟩ true
  | .xrecvaddF32 g o => g.ok && o.ok ⟨0, 64, false⟩ ⟨0, 64, true⟩ ⟨0, 4, false⟩ true
  | .xrecvaddI32 g o => g.ok && o.ok ⟨0, 64, false⟩ ⟨0, 64, true⟩ ⟨0, 4, false⟩ true
  | .xrecvaddBf16 g o => g.ok && o.ok ⟨0, 64, false⟩ ⟨0, 64, true⟩ ⟨0, 4, false⟩ true
  | .xrld g o => g.ok && o.ok ⟨0, 64, false⟩ ⟨0, 16, false⟩ ⟨0, 64, false⟩ true
  | .xrst g o => g.ok && o.ok ⟨0, 64, false⟩ ⟨0, 16, false⟩ ⟨0, 64, false⟩ false
  | .xamoAdd32 g o => g.ok && o.ok false
  | .xamoAdd64 g o => g.ok && o.ok false
  | .xamoFaddF32 g o => g.ok && o.ok false
  | .xamoMin32 g o => g.ok && o.ok false
  | .xamoMin64 g o => g.ok && o.ok false
  | .xamoMax32 g o => g.ok && o.ok false
  | .xamoMax64 g o => g.ok && o.ok false
  | .xamoMinn32 g o => g.ok && o.ok false
  | .xamoMinn64 g o => g.ok && o.ok false
  | .xamoMaxn32 g o => g.ok && o.ok false
  | .xamoMaxn64 g o => g.ok && o.ok false
  | .xamoAnd32 g o => g.ok && o.ok false
  | .xamoAnd64 g o => g.ok && o.ok false
  | .xamoOr32 g o => g.ok && o.ok false
  | .xamoOr64 g o => g.ok && o.ok false
  | .xamoXor32 g o => g.ok && o.ok false
  | .xamoXor64 g o => g.ok && o.ok false
  | .xamoSwap32 g o => g.ok && o.ok false
  | .xamoSwap64 g o => g.ok && o.ok false
  | .xamoCas32 g o => g.ok && o.ok true
  | .xamoCas64 g o => g.ok && o.ok true
  | .xfence g o => g.ok && decide (o.g = 0) && decide (o.a = 0) && decide (o.am = 0)
  | .xrel g o => g.ok && amPlain o.am
  | .xacq g o => g.ok && amPlain o.am
  | .xvld g o => g.ok && o.ok false
  | .xnmc g o => g.ok && o.ok ⟨0, 1, false⟩ ⟨0, 16, false⟩ ⟨0, 1, false⟩ false
  | .xnmfence g => g.ok
  | .xtagld g o => g.ok && o.ok ⟨0, 64, false⟩ ⟨0, 16, false⟩ ⟨0, 1, false⟩ false
  | .xtagst g o => g.ok && o.ok ⟨0, 1, false⟩ ⟨0, 16, false⟩ ⟨0, 64, true⟩ false
  | .tstate g o => g.ok && o.ok ⟨0, 64, false⟩ ⟨0, 32, false⟩ ⟨0, 1, false⟩ false
  | .tlayoutClaim g o => g.ok && o.ok ⟨0, 64, false⟩ ⟨0, 32, false⟩ ⟨0, 64, true⟩ false
  | .tlayoutRelabel g o => g.ok && o.ok ⟨0, 64, false⟩ ⟨0, 32, false⟩ ⟨0, 64, true⟩ false
  | .tlayoutCheck g o => g.ok && o.ok ⟨0, 64, false⟩ ⟨0, 32, false⟩ ⟨0, 64, true⟩ false
  | .trelease g o => g.ok && o.ok ⟨0, 1, false⟩ ⟨0, 32, false⟩ ⟨0, 1, false⟩ false
  | .trjrec g o => g.ok && o.ok ⟨0, 1, false⟩ ⟨0, 64, true⟩ ⟨0, 64, true⟩ false
  | .bfpost g o => g.ok && o.ok ⟨0, 1, false⟩ ⟨0, 64, true⟩ ⟨0, 1, false⟩ false

/-- The class M operations the decoder accepts. -/
def MInstr.ok : MInstr → Bool
  | .mcfgMode g _ => g.ok
  | .mcfgOutlier g _ => g.ok
  | .mcfgQset g _ => g.ok
  | .mcfgWbp g _ => g.ok
  | .mzero g o => g.ok && accOk o.acc
  | .msnap g o => g.ok && accOk o.acc
  | .mresrd g o => g.ok && accOk o.acc
  | .mreschk g o => g.ok && accOk o.acc
  | .mpush g _ => g.ok
  | .mpushWp g => g.ok
  | .mswap g => g.ok
  | .mshift g o => g.ok && accOk o.acc && decide (o.md ≠ 3)
  | .mdrain g o => g.ok && accOk o.acc
  | .mdrainq g o => g.ok && accOk o.acc

/-- The operations the decoder accepts. -/
def SlotInstr.ok : SlotInstr → Bool
  | .nop => true
  | .xnop => true
  | .s i => i.ok
  | .v i => i.ok
  | .x i => i.ok
  | .m i => i.ok

/-- The instructions the decoder accepts; an event has no word, its numbers are free. -/
def wellFormed (i : Instr) : Bool :=
  match i.slot with
  | some j => j.ok
  | none => true

end Sys2Proof
end

