-- ==== Sys2Proof/Decode.lean ====
section
/-! DEFINITION. Reading slot words and writing them: the slot formats, the opcode maps and the header's extension bytes of
spec/04_encoding.md (R94 to R118), and after them the encoder, from the same tables.
decodeTableWord alone is marked noncomputable: the code generator of Lean gives no constructor beyond the 244th a tag of its own
(log entry 6), and the kernel evaluates it as any other; the decoder and the machine build slot operations by class. -/

namespace Sys2Proof

/-- Why a slot word names no operation (each is the illegal-instruction cause, R112). -/
inductive Reject where
  /-- The class, opcode, kind or sub-operation is not assigned (R111, R114, R115, R117). -/
  | unassigned
  /-- A reserved AUX bit, a loop flag of 3, or a non-zero byte behind an empty slot or XNOP (R96, R103, R118). -/
  | reservedExtension
  /-- A reserved bit of the slot word itself (R104, R105, R111). -/
  | reservedField
  /-- A field outside its register file, source mode or immediate range (R105 to R110). -/
  | badField
  /-- An instruction of more bits than a slot has: only 32-bit words are slots (R94). -/
  | notASlot
deriving DecidableEq, Repr

/-! ### Fields -/

/-- Bits [l + n − 1 : l] of a slot word. -/
def fld (w : W32) (l n : Nat) : BitVec n := w.extractLsb' l n

/-- LF (R103). -/
def decFlag (e : Byte) : Option LoopFlag :=
  match (e.extractLsb' 5 2).toNat with
  | 0 => some .always | 1 => some .first | 2 => some .last | _ => none

def encFlag : LoopFlag → BitVec 2
  | .always => 0 | .first => 1 | .last => 2

/-- AUX (R103). -/
def aux (e : Byte) : BitVec 5 := e.extractLsb' 0 5

def decRR (w : W32) (e : Byte) : RR :=
  ⟨fld w 12 6, fld w 6 6, fld w 0 6, e.extractLsb' 2 3, e.getLsbD 1⟩

/-- A 9-bit immediate; without a header the six slot bits alone are extended (R105). -/
def decRI (signed hdr : Bool) (w : W32) (e : Byte) : RI :=
  let low := fld w 0 6
  ⟨fld w 12 6, fld w 6 6,
    if hdr then e.extractLsb' 0 3 ++ low else if signed then low.signExtend 9 else low.setWidth 9, e.extractLsb' 3 2⟩

def decRRR (w : W32) (e : Byte) : RRR := ⟨fld w 12 6, fld w 6 6, fld w 0 6, aux e⟩

def decI12 (signed hdr : Bool) (w : W32) (e : Byte) : I12 :=
  let low := fld w 0 12
  ⟨fld w 12 6, if hdr then aux e ++ low else if signed then low.signExtend 17 else low.setWidth 17⟩

def decMEM (signed hdr : Bool) (w : W32) (e : Byte) : MEM :=
  let low := fld w 0 6
  ⟨fld w 12 6, fld w 8 4, fld w 6 2,
    if hdr then aux e ++ low else if signed then low.signExtend 11 else low.setWidth 11⟩

def decJ (hdr : Bool) (w : W32) (e : Byte) : JO :=
  let low := fld w 0 18
  ⟨if hdr then aux e ++ low else low.signExtend 23⟩

def decJB (hdr : Bool) (w : W32) (e : Byte) : JB :=
  let low := fld w 0 15
  ⟨fld w 15 3, if hdr then aux e ++ low else low.signExtend 20⟩

def decBT (w : W32) (e : Byte) (f : LoopFlag) : BTO :=
  ⟨fld w 18 5, fld w 13 5, fld w 8 5, fld w 3 5, e.getLsbD 7, e.getLsbD 2, e.getLsbD 3, e.getLsbD 4,
    w.getLsbD 2, fld w 0 2, f⟩

def decLP (w : W32) (e : Byte) : LP := ⟨fld w 12 6, fld w 6 6, e.extractLsb' 0 2 ++ fld w 0 6⟩

def decSYS (w : W32) : SYS := ⟨fld w 12 6, fld w 0 12⟩

def decCV (w : W32) (e : Byte) : CV :=
  ⟨fld w 12 6, fld w 6 6, fld w 4 2, fld w 0 4, e.extractLsb' 2 3, e.getLsbD 1⟩

def decXC (w : W32) : XC := ⟨fld w 13 5, w.getLsbD 12, fld w 8 4, fld w 6 2, fld w 0 6⟩

def decXA (w : W32) (e : Byte) : XA := ⟨fld w 12 6, fld w 8 4, fld w 6 2, fld w 0 6, aux e⟩

def decXO (w : W32) : XO := ⟨fld w 12 6, fld w 8 4, fld w 6 2, fld w 4 2⟩

def decMSH (w : W32) : MSH := ⟨fld w 17 5, w.getLsbD 16, fld w 9 7, fld w 3 6, w.getLsbD 2, fld w 0 2⟩

def decMDR (w : W32) : MDR := ⟨fld w 17 5, w.getLsbD 16, fld w 9 7, fld w 3 6, fld w 0 3⟩

/-- Accept `i` when the reserved AUX bits are zero. -/
def ifAux {α : Type} (ok : Bool) (i : α) : Except Reject α := if ok then .ok i else .error .reservedExtension

/-- Accept `i` when the reserved word bits are zero. -/
def ifWord {α : Type} (ok : Bool) (i : Except Reject α) : Except Reject α := if ok then i else .error .reservedField


/-- The S-class opcode map (R114 Table 6), the empty word apart. -/
def decodeS (hdr : Bool) (g : Guard) (e : Byte) (w : W32) : Except Reject SInstr :=
  match (fld w 23 7).toNat with
  | 1 => ifAux (!e.getLsbD 0) (.add g (decRR w e))
  | 2 => ifAux (!e.getLsbD 0) (.sub g (decRR w e))
  | 3 => .ok (.addi g (decRI true hdr w e))
  | 4 => ifAux (!e.getLsbD 0) (.mul g (decRR w e))
  | 5 => ifAux (!e.getLsbD 0) (.mulh g (decRR w e))
  | 6 => ifAux (!e.getLsbD 0) (.mulhn g (decRR w e))
  | 7 => ifAux (!e.getLsbD 0) (.div g (decRR w e))
  | 8 => ifAux (!e.getLsbD 0) (.divn g (decRR w e))
  | 9 => ifAux (!e.getLsbD 0) (.rem g (decRR w e))
  | 10 => ifAux (!e.getLsbD 0) (.remn g (decRR w e))
  | 11 => ifAux (!e.getLsbD 0) (.and g (decRR w e))
  | 12 => ifAux (!e.getLsbD 0) (.or g (decRR w e))
  | 13 => ifAux (!e.getLsbD 0) (.xor g (decRR w e))
  | 14 => ifAux (!e.getLsbD 0) (.andn g (decRR w e))
  | 15 => ifAux (!e.getLsbD 0) (.shl g (decRR w e))
  | 16 => ifAux (!e.getLsbD 0) (.shr g (decRR w e))
  | 17 => ifAux (!e.getLsbD 0) (.sar g (decRR w e))
  | 18 => .ok (.shli g (decRI false hdr w e))
  | 19 => .ok (.shri g (decRI false hdr w e))
  | 20 => .ok (.sari g (decRI false hdr w e))
  | 21 => ifAux (!e.getLsbD 0) (.rot g (decRR w e))
  | 22 => ifAux (!e.getLsbD 0) (.clz g (decRR w e))
  | 23 => ifAux (!e.getLsbD 0) (.popc g (decRR w e))
  | 24 => ifAux (!e.getLsbD 0) (.min g (decRR w e))
  | 25 => ifAux (!e.getLsbD 0) (.max g (decRR w e))
  | 26 => ifAux (!e.getLsbD 0) (.minn g (decRR w e))
  | 27 => ifAux (!e.getLsbD 0) (.maxn g (decRR w e))
  | 28 => .ok (.sel g (decRRR w e))
  | 29 => .ok (.li g (decI12 true hdr w e))
  | 30 => .ok (.lih g (decI12 false hdr w e))
  | 31 => ifAux (!e.getLsbD 0) (.aadd g (decRR w e))
  | 32 => ifAux (!e.getLsbD 0) (.cmpEq g (decRR w e))
  | 33 => ifAux (!e.getLsbD 0) (.cmpNe g (decRR w e))
  | 34 => ifAux (!e.getLsbD 0) (.cmpLt g (decRR w e))
  | 35 => ifAux (!e.getLsbD 0) (.cmpLe g (decRR w e))
  | 36 => ifAux (!e.getLsbD 0) (.cmpGt g (decRR w e))
  | 37 => ifAux (!e.getLsbD 0) (.cmpGe g (decRR w e))
  | 38 => ifAux (!e.getLsbD 0) (.cmpLtn g (decRR w e))
  | 39 => ifAux (!e.getLsbD 0) (.cmpLen g (decRR w e))
  | 40 => ifAux (!e.getLsbD 0) (.cmpGtn g (decRR w e))
  | 41 => ifAux (!e.getLsbD 0) (.cmpGen g (decRR w e))
  | 42 => ifAux (!e.getLsbD 0) (.pand g (decRR w e))
  | 43 => ifAux (!e.getLsbD 0) (.por g (decRR w e))
  | 44 => ifAux (!e.getLsbD 0) (.pxor g (decRR w e))
  | 45 => ifAux (!e.getLsbD 0) (.pnot g (decRR w e))
  | 46 => ifAux (!e.getLsbD 0) (.pmov g (decRR w e))
  | 47 =>
    match (fld w 0 6).toNat with
    | 0 => ifAux (!e.getLsbD 0) (.amovAG g (decRR w e))
    | 1 => ifAux (!e.getLsbD 0) (.amovGA g (decRR w e))
    | 2 => ifAux (!e.getLsbD 0) (.amovAA g (decRR w e))
    | _ => .error .badField
  | 48 => .ok (.ldI8 g (decMEM true hdr w e))
  | 49 => .ok (.ldN8 g (decMEM true hdr w e))
  | 50 => .ok (.ldI16 g (decMEM true hdr w e))
  | 51 => .ok (.ldN16 g (decMEM true hdr w e))
  | 52 => .ok (.ldI32 g (decMEM true hdr w e))
  | 53 => .ok (.ldN32 g (decMEM true hdr w e))
  | 54 => .ok (.ld64 g (decMEM true hdr w e))
  | 55 => ifAux (!e.getLsbD 0) (.astr g (decRR w e))
  | 56 => .ok (.st8 g (decMEM true hdr w e))
  | 57 => .ok (.st16 g (decMEM true hdr w e))
  | 58 => .ok (.st32 g (decMEM true hdr w e))
  | 59 => .ok (.st64 g (decMEM true hdr w e))
  | 64 => .ok (.br g (decJ hdr w e))
  | 65 => ifAux (decide (e.extractLsb' 0 2 = 0)) (.bt (decBT w e g.flag))
  | 66 => .ok (.movb g (decJB hdr w e))
  | 67 => .ok (.call g (decJ hdr w e))
  | 68 => ifAux (!e.getLsbD 0) (.ret g (decRR w e))
  | 69 => ifAux (decide (e.extractLsb' 2 3 = 0)) (.loop g (decLP w e))
  | 70 => ifWord (decide (fld w 0 18 = 0)) (ifAux (decide (aux e = 0)) (.lbrk g))
  | 71 => .ok (.rotb g (decRI false hdr w e))
  | 72 => .ok (.stage g (decRI false hdr w e))
  | 80 => ifWord (decide (fld w 0 18 = 0)) (ifAux (decide (aux e = 0)) (.halt g))
  | 81 => .ok (.quiet g (decI12 false hdr w e))
  | 82 => .ok (.lendb g (decRI false hdr w e))
  | 83 => .ok (.retb g (decRI false hdr w e))
  | 84 => ifAux (decide (aux e = 0)) (.srd g (decSYS w))
  | 85 => ifAux (decide (aux e = 0)) (.swr g (decSYS w))
  | 86 => .ok (.trap g (decI12 false hdr w e))
  | 87 => ifWord (decide (fld w 0 18 = 0)) (ifAux (decide (aux e = 0)) (.trapen g))
  | 88 => ifWord (decide (fld w 0 18 = 0)) (ifAux (decide (aux e = 0)) (.tret g))
  | 89 => ifAux (!e.getLsbD 0) (.ctxstat g (decRR w e))
  | 90 => ifAux (!e.getLsbD 0) (.ctxfreeze g (decRR w e))
  | 91 => ifAux (!e.getLsbD 0) (.ctxresume g (decRR w e))
  | 96 => ifAux (!e.getLsbD 0) (.wqpush g (decRR w e))
  | 97 => ifAux (!e.getLsbD 0) (.wqpop g (decRR w e))
  | 98 => ifAux (!e.getLsbD 0) (.wqclose g (decRR w e))
  | 99 => ifAux (!e.getLsbD 0) (.wqlen g (decRR w e))
  | 100 => ifAux (!e.getLsbD 0) (.gpset g (decRR w e))
  | 101 => ifAux (!e.getLsbD 0) (.gpget g (decRR w e))
  | 102 => ifAux (!e.getLsbD 0) (.glaunch g (decRR w e))
  | 103 => ifAux (!e.getLsbD 0) (.kdone g (decRR w e))
  | 104 => ifAux (!e.getLsbD 0) (.grpid g (decRR w e))
  | 105 => ifAux (!e.getLsbD 0) (.grpsize g (decRR w e))
  | 106 => ifAux (!e.getLsbD 0) (.binitReset g (decRR w e))
  | 107 => ifAux (!e.getLsbD 0) (.barrive g (decRR w e))
  | 108 => ifAux (!e.getLsbD 0) (.bwait g (decRR w e))
  | 109 => ifAux (!e.getLsbD 0) (.btry g (decRR w e))
  | 112 => ifAux (!e.getLsbD 0) (.wvbind g (decRR w e))
  | 113 => ifAux (!e.getLsbD 0) (.wvunbind g (decRR w e))
  | 114 => ifAux (!e.getLsbD 0) (.wvslot g (decRR w e))
  | 115 => ifAux (!e.getLsbD 0) (.wvpublish g (decRR w e))
  | 116 => ifAux (!e.getLsbD 0) (.wvread g (decRR w e))
  | 117 => ifAux (!e.getLsbD 0) (.confx g (decRR w e))
  | 118 => ifAux (!e.getLsbD 0) (.kvcommit g (decRR w e))
  | 119 => ifAux (!e.getLsbD 0) (.kvmodeSet g (decRR w e))
  | 120 => ifAux (!e.getLsbD 0) (.lktree g (decRR w e))
  | 121 => ifAux (!e.getLsbD 0) (.lkfree g (decRR w e))
  | 122 => ifAux (!e.getLsbD 0) (.pgprobe g (decRR w e))
  | 123 => ifAux (!e.getLsbD 0) (.pginvUpdate g (decRR w e))
  | _ => .error .unassigned

/-- The V-class opcode map (R115 Table 7). DESIGN CHOICE (log entry 120): the offset of VLD and VST is kept as the bits that the format
has, and read as signed (`Machine.Issue.address`). -/
def decodeV (hdr : Bool) (rm : RMode) (g : Guard) (e : Byte) (w : W32) : Except Reject VInstr :=
  match (fld w 23 7).toNat with
  | 0 => ifAux (!e.getLsbD 0) (.vaddF32 g rm (decRR w e))
  | 1 => ifAux (!e.getLsbD 0) (.vsubF32 g rm (decRR w e))
  | 2 => ifAux (!e.getLsbD 0) (.vmulF32 g rm (decRR w e))
  | 3 => ifAux (!e.getLsbD 0) (.vfmaF32 g rm (decRR w e))
  | 4 => ifAux (!e.getLsbD 0) (.vfmsF32 g rm (decRR w e))
  | 5 => ifAux (!e.getLsbD 0) (.vfnmaF32 g rm (decRR w e))
  | 6 => ifAux (!e.getLsbD 0) (.vminF32 g rm (decRR w e))
  | 7 => ifAux (!e.getLsbD 0) (.vmaxF32 g rm (decRR w e))
  | 8 => ifAux (!e.getLsbD 0) (.vaddBf16 g rm (decRR w e))
  | 9 => ifAux (!e.getLsbD 0) (.vsubBf16 g rm (decRR w e))
  | 10 => ifAux (!e.getLsbD 0) (.vmulBf16 g rm (decRR w e))
  | 11 => ifAux (!e.getLsbD 0) (.vfmaBf16 g rm (decRR w e))
  | 12 => ifAux (!e.getLsbD 0) (.vfmsBf16 g rm (decRR w e))
  | 13 => ifAux (!e.getLsbD 0) (.vfnmaBf16 g rm (decRR w e))
  | 14 => ifAux (!e.getLsbD 0) (.vminBf16 g rm (decRR w e))
  | 15 => ifAux (!e.getLsbD 0) (.vmaxBf16 g rm (decRR w e))
  | 16 => ifAux (!e.getLsbD 0) (.vaddF16 g rm (decRR w e))
  | 17 => ifAux (!e.getLsbD 0) (.vsubF16 g rm (decRR w e))
  | 18 => ifAux (!e.getLsbD 0) (.vmulF16 g rm (decRR w e))
  | 19 => ifAux (!e.getLsbD 0) (.vfmaF16 g rm (decRR w e))
  | 20 => ifAux (!e.getLsbD 0) (.vfmsF16 g rm (decRR w e))
  | 21 => ifAux (!e.getLsbD 0) (.vfnmaF16 g rm (decRR w e))
  | 22 => ifAux (!e.getLsbD 0) (.vminF16 g rm (decRR w e))
  | 23 => ifAux (!e.getLsbD 0) (.vmaxF16 g rm (decRR w e))
  | 24 => ifAux (!e.getLsbD 0) (.vabsF32 g (decRR w e))
  | 25 => ifAux (!e.getLsbD 0) (.vabsH g (decRR w e))
  | 26 => ifAux (!e.getLsbD 0) (.vnegF32 g (decRR w e))
  | 27 => ifAux (!e.getLsbD 0) (.vnegH g (decRR w e))
  | 28 => ifAux (!e.getLsbD 0) (.vclassF32 g (decRR w e))
  | 29 => ifAux (!e.getLsbD 0) (.vclassBf16 g (decRR w e))
  | 30 => ifAux (!e.getLsbD 0) (.vclassF16 g (decRR w e))
  | 31 =>
    if (fld w 0 6).toNat = 32 then ifAux (!e.getLsbD 0) (.vfinNfsF32 g (decRR w e))
    else ifAux (!e.getLsbD 0) (.vfinF32 g (decRR w e))
  | 32 =>
    if (fld w 0 6).toNat = 32 then ifAux (!e.getLsbD 0) (.vfinNfsBf16 g (decRR w e))
    else ifAux (!e.getLsbD 0) (.vfinBf16 g (decRR w e))
  | 33 =>
    if (fld w 0 6).toNat = 32 then ifAux (!e.getLsbD 0) (.vfinNfsF16 g (decRR w e))
    else ifAux (!e.getLsbD 0) (.vfinF16 g (decRR w e))
  | 34 => ifAux (!e.getLsbD 0) (.vdivF32 g rm (decRR w e))
  | 35 => ifAux (!e.getLsbD 0) (.vrcpF32 g rm (decRR w e))
  | 36 => ifAux (!e.getLsbD 0) (.vrsqF32 g rm (decRR w e))
  | 37 => ifAux (!e.getLsbD 0) (.vsqrtF32 g rm (decRR w e))
  | 38 => ifAux (!e.getLsbD 0) (.vexp2F32 g rm (decRR w e))
  | 39 => ifAux (!e.getLsbD 0) (.vlog2F32 g rm (decRR w e))
  | 40 => ifAux (!e.getLsbD 0) (.vtanhF32 g rm (decRR w e))
  | 41 => ifAux (!e.getLsbD 0) (.vdivBf16 g rm (decRR w e))
  | 42 => ifAux (!e.getLsbD 0) (.vrcpBf16 g rm (decRR w e))
  | 43 => ifAux (!e.getLsbD 0) (.vrsqBf16 g rm (decRR w e))
  | 44 => ifAux (!e.getLsbD 0) (.vsqrtBf16 g rm (decRR w e))
  | 45 => ifAux (!e.getLsbD 0) (.vexp2Bf16 g rm (decRR w e))
  | 46 => ifAux (!e.getLsbD 0) (.vlog2Bf16 g rm (decRR w e))
  | 47 => ifAux (!e.getLsbD 0) (.vtanhBf16 g rm (decRR w e))
  | 48 => ifAux (!e.getLsbD 0) (.viadd32 g (decRR w e))
  | 49 => ifAux (!e.getLsbD 0) (.viadd16 g (decRR w e))
  | 50 => ifAux (!e.getLsbD 0) (.viadd8 g (decRR w e))
  | 51 => ifAux (!e.getLsbD 0) (.visub32 g (decRR w e))
  | 52 => ifAux (!e.getLsbD 0) (.visub16 g (decRR w e))
  | 53 => ifAux (!e.getLsbD 0) (.visub8 g (decRR w e))
  | 54 => ifAux (!e.getLsbD 0) (.vimul32 g (decRR w e))
  | 55 => ifAux (!e.getLsbD 0) (.vimul16 g (decRR w e))
  | 56 => ifAux (!e.getLsbD 0) (.vimulhI32 g (decRR w e))
  | 57 => ifAux (!e.getLsbD 0) (.vimulhN32 g (decRR w e))
  | 58 => ifAux (!e.getLsbD 0) (.viminI32 g (decRR w e))
  | 59 => ifAux (!e.getLsbD 0) (.viminN32 g (decRR w e))
  | 60 => ifAux (!e.getLsbD 0) (.viminI16 g (decRR w e))
  | 61 => ifAux (!e.getLsbD 0) (.viminI8 g (decRR w e))
  | 62 => ifAux (!e.getLsbD 0) (.vimaxI32 g (decRR w e))
  | 63 => ifAux (!e.getLsbD 0) (.vimaxN32 g (decRR w e))
  | 64 => ifAux (!e.getLsbD 0) (.vimaxI16 g (decRR w e))
  | 65 => ifAux (!e.getLsbD 0) (.vimaxI8 g (decRR w e))
  | 66 => ifAux (!e.getLsbD 0) (.vshl32 g (decRR w e))
  | 67 => ifAux (!e.getLsbD 0) (.vshl16 g (decRR w e))
  | 68 => ifAux (!e.getLsbD 0) (.vshr32 g (decRR w e))
  | 69 => ifAux (!e.getLsbD 0) (.vshr16 g (decRR w e))
  | 70 => ifAux (!e.getLsbD 0) (.vsar32 g (decRR w e))
  | 71 => ifAux (!e.getLsbD 0) (.vsar16 g (decRR w e))
  | 72 => ifAux (!e.getLsbD 0) (.vand g (decRR w e))
  | 73 => ifAux (!e.getLsbD 0) (.vor g (decRR w e))
  | 74 => ifAux (!e.getLsbD 0) (.vxor g (decRR w e))
  | 75 => .ok (.vmsel g (decRRR w e))
  | 76 => ifAux (!e.getLsbD 0) (.vcmpI32 g (decRR w e))
  | 77 => ifAux (!e.getLsbD 0) (.vcmpN32 g (decRR w e))
  | 78 => ifAux (!e.getLsbD 0) (.vcmpF32 g (decRR w e))
  | 79 => ifAux (!e.getLsbD 0) (.vcmpBf16 g (decRR w e))
  | 80 => ifAux (!e.getLsbD 0) (.vcvtF32 g rm (decCV w e))
  | 81 => ifAux (!e.getLsbD 0) (.vcvtBf16 g rm (decCV w e))
  | 82 => ifAux (!e.getLsbD 0) (.vcvtF16 g rm (decCV w e))
  | 83 => ifAux (!e.getLsbD 0) (.vcvtI8 g rm (decCV w e))
  | 84 => ifAux (!e.getLsbD 0) (.vcvtN8 g rm (decCV w e))
  | 85 => ifAux (!e.getLsbD 0) (.vcvtI16 g rm (decCV w e))
  | 86 => ifAux (!e.getLsbD 0) (.vcvtN16 g rm (decCV w e))
  | 87 => ifAux (!e.getLsbD 0) (.vcvtI32 g rm (decCV w e))
  | 88 => ifAux (!e.getLsbD 0) (.vcvtN32 g rm (decCV w e))
  | 89 => ifAux (!e.getLsbD 0) (.vsrnd g (decCV w e))
  | 90 => ifAux (!e.getLsbD 0) (.vplsplit g (decRR w e))
  | 91 => ifAux (!e.getLsbD 0) (.vpljoin g (decRR w e))
  | 92 => ifAux (!e.getLsbD 0) (.voutapply g (decRR w e))
  | 96 => ifAux (!e.getLsbD 0) (.vrsumF32 g rm (decRR w e))
  | 97 => ifAux (!e.getLsbD 0) (.vrsumBf16 g rm (decRR w e))
  | 98 => ifAux (!e.getLsbD 0) (.vrsumI32 g rm (decRR w e))
  | 99 => ifAux (!e.getLsbD 0) (.vrmaxF32 g rm (decRR w e))
  | 100 => ifAux (!e.getLsbD 0) (.vrmaxI32 g rm (decRR w e))
  | 101 => ifAux (!e.getLsbD 0) (.vrminF32 g rm (decRR w e))
  | 102 => ifAux (!e.getLsbD 0) (.vrminI32 g rm (decRR w e))
  | 103 => ifAux (!e.getLsbD 0) (.vrargmaxF32 g rm (decRR w e))
  | 104 => ifAux (!e.getLsbD 0) (.vperm g (decRR w e))
  | 105 => ifAux (!e.getLsbD 0) (.vshuf g (decRR w e))
  | 106 => .ok (.vbcast g (decRI false hdr w e))
  | 107 => .ok (.vslide g (decRI false hdr w e))
  | 108 => ifAux (!e.getLsbD 0) (.vzip g (decRR w e))
  | 109 => ifAux (!e.getLsbD 0) (.vunzip g (decRR w e))
  | 110 => ifAux (!e.getLsbD 0) (.vtrn4 g (decRR w e))
  | 111 => .ok (.vsmmerge g (decRRR w e))
  | 112 => ifAux (!e.getLsbD 0) (.vrand g (decRR w e))
  | 113 => ifAux (!e.getLsbD 0) (.vrandf g (decRR w e))
  | 114 => ifAux (!e.getLsbD 0) (.vrnorm g (decRR w e))
  | 115 => ifAux (!e.getLsbD 0) (.vrnormt g (decRR w e))
  | 116 => ifAux (!e.getLsbD 0) (.vrseed g (decRR w e))
  | 120 => .ok (.vld g (decMEM true hdr w e))
  | 121 => .ok (.vst g (decMEM true hdr w e))
  | 122 => ifAux (!e.getLsbD 0) (.vldg g (decRR w e))
  | 123 => ifAux (!e.getLsbD 0) (.vsts g (decRR w e))
  | 124 => .ok (.vldpl g (decMEM false hdr w e))
  | _ => .error .unassigned

/-- The X-class opcode map (R117 Table 8), XNOP apart. -/
def decodeX (g : Guard) (e : Byte) (w : W32) : Except Reject XInstr :=
  match (fld w 23 7).toNat with
  | 1 => ifAux (decide (aux e = 0)) (.xcopyIn g (decXC w))
  | 2 => ifAux (decide (aux e = 0)) (.xcopyOut g (decXC w))
  | 3 => ifAux (decide (aux e = 0)) (.xgather g (decXC w))
  | 4 => ifAux (decide (aux e = 0)) (.xscatter g (decXC w))
  | 5 => ifAux (decide (aux e = 0)) (.xwbfill g (decXC w))
  | 6 => ifAux (decide (aux e = 0)) (.xpref g (decXC w))
  | 32 => ifAux (!e.getLsbD 0) (.xsend g (decRR w e))
  | 33 => ifAux (!e.getLsbD 0) (.xrecv g (decRR w e))
  | 34 => ifAux (!e.getLsbD 0) (.xrecvaddF32 g (decRR w e))
  | 35 => ifAux (!e.getLsbD 0) (.xrecvaddI32 g (decRR w e))
  | 36 => ifAux (!e.getLsbD 0) (.xrecvaddBf16 g (decRR w e))
  | 37 => ifAux (!e.getLsbD 0) (.xrld g (decRR w e))
  | 38 => ifAux (!e.getLsbD 0) (.xrst g (decRR w e))
  | 48 => .ok (.xamoAdd32 g (decXA w e))
  | 49 => .ok (.xamoAdd64 g (decXA w e))
  | 50 => .ok (.xamoFaddF32 g (decXA w e))
  | 51 => .ok (.xamoMin32 g (decXA w e))
  | 52 => .ok (.xamoMin64 g (decXA w e))
  | 53 => .ok (.xamoMax32 g (decXA w e))
  | 54 => .ok (.xamoMax64 g (decXA w e))
  | 55 => .ok (.xamoMinn32 g (decXA w e))
  | 56 => .ok (.xamoMinn64 g (decXA w e))
  | 57 => .ok (.xamoMaxn32 g (decXA w e))
  | 58 => .ok (.xamoMaxn64 g (decXA w e))
  | 59 => .ok (.xamoAnd32 g (decXA w e))
  | 60 => .ok (.xamoAnd64 g (decXA w e))
  | 61 => .ok (.xamoOr32 g (decXA w e))
  | 62 => .ok (.xamoOr64 g (decXA w e))
  | 63 => .ok (.xamoXor32 g (decXA w e))
  | 64 => .ok (.xamoXor64 g (decXA w e))
  | 65 => .ok (.xamoSwap32 g (decXA w e))
  | 66 => .ok (.xamoSwap64 g (decXA w e))
  | 67 => .ok (.xamoCas32 g (decXA w e))
  | 68 => .ok (.xamoCas64 g (decXA w e))
  | 80 => ifWord (decide (fld w 0 4 = 0)) (ifAux (decide (aux e = 0)) (.xfence g (decXO w)))
  | 81 => ifWord (decide (fld w 0 4 = 0)) (ifAux (decide (aux e = 0)) (.xrel g (decXO w)))
  | 82 => ifWord (decide (fld w 0 4 = 0)) (ifAux (decide (aux e = 0)) (.xacq g (decXO w)))
  | 83 => .ok (.xvld g (decXA w e))
  | 96 => ifAux (!e.getLsbD 0) (.xnmc g (decRR w e))
  | 97 => ifWord (decide (fld w 0 18 = 0)) (ifAux (decide (aux e = 0)) (.xnmfence g))
  | 112 => ifAux (!e.getLsbD 0) (.xtagld g (decRR w e))
  | 113 => ifAux (!e.getLsbD 0) (.xtagst g (decRR w e))
  | 114 => ifAux (!e.getLsbD 0) (.tstate g (decRR w e))
  | 115 => ifAux (!e.getLsbD 0) (.tlayoutClaim g (decRR w e))
  | 116 => ifAux (!e.getLsbD 0) (.trelease g (decRR w e))
  | 117 => ifAux (!e.getLsbD 0) (.trjrec g (decRR w e))
  | 118 => ifAux (!e.getLsbD 0) (.bfpost g (decRR w e))
  | _ => .error .unassigned

/-- The M slot (R111 Tables 4 and 5). -/
def decodeM (g : Guard) (w : W32) : Except Reject MInstr :=
  match (fld w 27 3).toNat with
  | 0 =>
    match (fld w 18 4).toNat with
    | 0 => ifWord (decide (fld w 0 12 = 0)) (.ok (.mcfgMode g ⟨fld w 12 6⟩))
    | 1 => ifWord (decide (fld w 0 13 = 0)) (.ok (.mzero g ⟨fld w 13 5⟩))
    | 2 => .ok (.msnap g ⟨fld w 13 5, fld w 6 7, fld w 0 6⟩)
    | 3 => ifWord (decide (fld w 6 7 = 0)) (.ok (.mresrd g ⟨fld w 13 5, fld w 0 6⟩))
    | 4 => ifWord (decide (fld w 0 13 = 0)) (.ok (.mreschk g ⟨fld w 13 5⟩))
    | _ => .error .unassigned
  | 1 =>
    if w.getLsbD 8 then ifWord (decide (fld w 0 8 = 0) && decide (fld w 9 13 = 0)) (.ok (.mpushWp g))
    else ifWord (decide (fld w 0 8 = 0)) (.ok (.mpush g ⟨fld w 9 13⟩))
  | 2 => ifWord (decide (fld w 0 22 = 0)) (.ok (.mswap g))
  | 3 => .ok (.mshift g (decMSH w))
  | 4 => .ok (.mdrain g (decMDR w))
  | 5 => .ok (.mdrainq g (decMDR w))
  | _ => .error .unassigned

/-- Move an operation of one class among all. -/
def inClass {α β : Type} (f : α → β) : Except Reject α → Except Reject β
  | .ok i => .ok (f i)
  | .error r => .error r

/-- The operation of a slot word before its field ranges are checked: `hdr` says whether a header stands in slot 0, `rm` is its
BRM, `e` the slot's extension byte (R94 to R118). -/
def rawDecode (hdr : Bool) (rm : RMode) (e : Byte) (w : W32) : Except Reject SlotInstr :=
  match decFlag e with
  | none => .error .reservedExtension
  | some f =>
    match (fld w 30 2).toNat with
    | 0 =>
      if w = 0 then ifAux (decide (e = 0)) .nop
      else inClass .s (decodeS hdr ⟨fld w 18 5, e.getLsbD 7, f⟩ e w)
    | 1 => inClass .v (decodeV hdr rm ⟨fld w 18 5, e.getLsbD 7, f⟩ e w)
    | 2 => if aux e = 0 then inClass .m (decodeM ⟨fld w 22 5, e.getLsbD 7, f⟩ w) else .error .reservedExtension
    | _ =>
      if fld w 23 7 = 0 then
        (if w = 0xC0000000 then ifAux (decide (e = 0)) .xnop else .error .reservedField)
      else inClass .x (decodeX ⟨fld w 18 5, e.getLsbD 7, f⟩ e w)

/-- The operation a slot word names, or why it names none. -/
def decodeSlot (hdr : Bool) (rm : RMode) (e : Byte) (w : W32) : Except Reject SlotInstr :=
  match rawDecode hdr rm e w with
  | .error r => .error r
  | .ok i => if i.ok then .ok i else .error .badField

/-- The reading of an instruction of the opcode table given by its bits, without a header: every row has 32 bits, all of them
given. -/
noncomputable def decodeTableWord (nbits w : Nat) : Option Instr :=
  if nbits ≤ 32 then
    match decodeSlot false .rne 0 (BitVec.ofNat 32 w) with
    | .ok i => some i.instr
    | .error _ => none
  else none

/-! ### The encoder -/

/-- A word of class, opcode, predicate and operand area (R104). -/
def encWord (cls : BitVec 2) (op : BitVec 7) (p : BitVec 5) (area : BitVec 18) : W32 := cls ++ op ++ p ++ area

/-- An extension byte of a guard and AUX (R103). -/
def encExt (g : Guard) (a : BitVec 5) : Byte := BitVec.ofBool g.neg ++ encFlag g.flag ++ a

def encRR (cls : BitVec 2) (op : BitVec 7) (g : Guard) (o : RR) : W32 × Byte :=
  (encWord cls op g.p (o.d ++ o.s1 ++ o.s2), encExt g (o.mode ++ BitVec.ofBool o.dnil ++ 0#1))

def encRI (cls : BitVec 2) (op : BitVec 7) (g : Guard) (o : RI) : W32 × Byte :=
  (encWord cls op g.p (o.d ++ o.s1 ++ o.imm.extractLsb' 0 6), encExt g (o.sm1 ++ o.imm.extractLsb' 6 3))

def encRRR (cls : BitVec 2) (op : BitVec 7) (g : Guard) (o : RRR) : W32 × Byte :=
  (encWord cls op g.p (o.d ++ o.s1 ++ o.s2), encExt g o.s3)

def encI12 (cls : BitVec 2) (op : BitVec 7) (g : Guard) (o : I12) : W32 × Byte :=
  (encWord cls op g.p (o.d ++ o.imm.extractLsb' 0 12), encExt g (o.imm.extractLsb' 12 5))

def encMEM (cls : BitVec 2) (op : BitVec 7) (g : Guard) (o : MEM) : W32 × Byte :=
  (encWord cls op g.p (o.data ++ o.a ++ o.am ++ o.off.extractLsb' 0 6), encExt g (o.off.extractLsb' 6 5))

def encJ (cls : BitVec 2) (op : BitVec 7) (g : Guard) (o : JO) : W32 × Byte :=
  (encWord cls op g.p (o.off.extractLsb' 0 18), encExt g (o.off.extractLsb' 18 5))

def encJB (cls : BitVec 2) (op : BitVec 7) (g : Guard) (o : JB) : W32 × Byte :=
  (encWord cls op g.p (o.b ++ o.off.extractLsb' 0 15), encExt g (o.off.extractLsb' 15 5))

def encBT (o : BTO) : W32 × Byte :=
  (encWord 0 0x41 o.t0 (o.t1 ++ o.t2 ++ o.t3 ++ BitVec.ofBool o.tb ++ o.nt),
    BitVec.ofBool o.n0 ++ encFlag o.flag ++ (BitVec.ofBool o.n3 ++ BitVec.ofBool o.n2 ++ BitVec.ofBool o.n1 ++ 0#2))

def encLP (cls : BitVec 2) (op : BitVec 7) (g : Guard) (o : LP) : W32 × Byte :=
  (encWord cls op g.p (o.gc ++ o.gm ++ o.len.extractLsb' 0 6), encExt g (0#3 ++ o.len.extractLsb' 6 2))

def encSYS (cls : BitVec 2) (op : BitVec 7) (g : Guard) (o : SYS) : W32 × Byte :=
  (encWord cls op g.p (o.g ++ o.reg), encExt g 0)

def encZ (cls : BitVec 2) (op : BitVec 7) (g : Guard) : W32 × Byte := (encWord cls op g.p 0, encExt g 0)

def encCV (cls : BitVec 2) (op : BitVec 7) (g : Guard) (o : CV) : W32 × Byte :=
  (encWord cls op g.p (o.d ++ o.s1 ++ o.part ++ o.sfmt), encExt g (o.mode ++ BitVec.ofBool o.dnil ++ 0#1))

def encXC (cls : BitVec 2) (op : BitVec 7) (g : Guard) (o : XC) : W32 × Byte :=
  (encWord cls op g.p (o.tile ++ BitVec.ofBool o.reint ++ o.a ++ o.am ++ o.g), encExt g 0)

def encXA (cls : BitVec 2) (op : BitVec 7) (g : Guard) (o : XA) : W32 × Byte :=
  (encWord cls op g.p (o.d ++ o.a ++ o.am ++ o.s), encExt g o.s3)

def encXO (cls : BitVec 2) (op : BitVec 7) (g : Guard) (o : XO) : W32 × Byte :=
  (encWord cls op g.p (o.g ++ o.a ++ o.am ++ o.scope ++ 0#4), encExt g 0)

/-- An M word of kind, predicate and fields (R111). -/
def encMWord (kind : BitVec 3) (g : Guard) (area : BitVec 22) : W32 × Byte := (2#2 ++ kind ++ g.p ++ area, encExt g 0)

/-- The word and extension byte of a class S operation. -/
def SInstr.enc : SInstr → W32 × Byte
  | .add g o => encRR 0 1 g o
  | .sub g o => encRR 0 2 g o
  | .addi g o => encRI 0 3 g o
  | .mul g o => encRR 0 4 g o
  | .mulh g o => encRR 0 5 g o
  | .mulhn g o => encRR 0 6 g o
  | .div g o => encRR 0 7 g o
  | .divn g o => encRR 0 8 g o
  | .rem g o => encRR 0 9 g o
  | .remn g o => encRR 0 10 g o
  | .and g o => encRR 0 11 g o
  | .or g o => encRR 0 12 g o
  | .xor g o => encRR 0 13 g o
  | .andn g o => encRR 0 14 g o
  | .shl g o => encRR 0 15 g o
  | .shr g o => encRR 0 16 g o
  | .sar g o => encRR 0 17 g o
  | .shli g o => encRI 0 18 g o
  | .shri g o => encRI 0 19 g o
  | .sari g o => encRI 0 20 g o
  | .rot g o => encRR 0 21 g o
  | .clz g o => encRR 0 22 g o
  | .popc g o => encRR 0 23 g o
  | .min g o => encRR 0 24 g o
  | .max g o => encRR 0 25 g o
  | .minn g o => encRR 0 26 g o
  | .maxn g o => encRR 0 27 g o
  | .sel g o => encRRR 0 28 g o
  | .li g o => encI12 0 29 g o
  | .lih g o => encI12 0 30 g o
  | .aadd g o => encRR 0 31 g o
  | .cmpEq g o => encRR 0 32 g o
  | .cmpNe g o => encRR 0 33 g o
  | .cmpLt g o => encRR 0 34 g o
  | .cmpLe g o => encRR 0 35 g o
  | .cmpGt g o => encRR 0 36 g o
  | .cmpGe g o => encRR 0 37 g o
  | .cmpLtn g o => encRR 0 38 g o
  | .cmpLen g o => encRR 0 39 g o
  | .cmpGtn g o => encRR 0 40 g o
  | .cmpGen g o => encRR 0 41 g o
  | .pand g o => encRR 0 42 g o
  | .por g o => encRR 0 43 g o
  | .pxor g o => encRR 0 44 g o
  | .pnot g o => encRR 0 45 g o
  | .pmov g o => encRR 0 46 g o
  | .amovAG g o => encRR 0 47 g o
  | .amovGA g o => encRR 0 47 g o
  | .amovAA g o => encRR 0 47 g o
  | .ldI8 g o => encMEM 0 48 g o
  | .ldN8 g o => encMEM 0 49 g o
  | .ldI16 g o => encMEM 0 50 g o
  | .ldN16 g o => encMEM 0 51 g o
  | .ldI32 g o => encMEM 0 52 g o
  | .ldN32 g o => encMEM 0 53 g o
  | .ld64 g o => encMEM 0 54 g o
  | .astr g o => encRR 0 55 g o
  | .st8 g o => encMEM 0 56 g o
  | .st16 g o => encMEM 0 57 g o
  | .st32 g o => encMEM 0 58 g o
  | .st64 g o => encMEM 0 59 g o
  | .br g o => encJ 0 64 g o
  | .bt o => encBT o
  | .movb g o => encJB 0 66 g o
  | .call g o => encJ 0 67 g o
  | .ret g o => encRR 0 68 g o
  | .loop g o => encLP 0 69 g o
  | .lbrk g => encZ 0 70 g
  | .rotb g o => encRI 0 71 g o
  | .stage g o => encRI 0 72 g o
  | .halt g => encZ 0 80 g
  | .quiet g o => encI12 0 81 g o
  | .lendb g o => encRI 0 82 g o
  | .retb g o => encRI 0 83 g o
  | .srd g o => encSYS 0 84 g o
  | .swr g o => encSYS 0 85 g o
  | .trap g o => encI12 0 86 g o
  | .trapen g => encZ 0 87 g
  | .tret g => encZ 0 88 g
  | .ctxstat g o => encRR 0 89 g o
  | .ctxfreeze g o => encRR 0 90 g o
  | .ctxfreezeSave g o => encRR 0 90 g o
  | .ctxsave g o => encRR 0 90 g o
  | .cutQuery g o => encRR 0 90 g o
  | .cutStop g o => encRR 0 90 g o
  | .ctxresume g o => encRR 0 91 g o
  | .ctxrestoreResume g o => encRR 0 91 g o
  | .ctxrestore g o => encRR 0 91 g o
  | .wqpush g o => encRR 0 96 g o
  | .wqpop g o => encRR 0 97 g o
  | .wqclose g o => encRR 0 98 g o
  | .wqreopen g o => encRR 0 98 g o
  | .wqlen g o => encRR 0 99 g o
  | .gpset g o => encRR 0 100 g o
  | .gpget g o => encRR 0 101 g o
  | .glaunch g o => encRR 0 102 g o
  | .kdone g o => encRR 0 103 g o
  | .grpid g o => encRR 0 104 g o
  | .grpsize g o => encRR 0 105 g o
  | .binitReset g o => encRR 0 106 g o
  | .binitQuery g o => encRR 0 106 g o
  | .barrive g o => encRR 0 107 g o
  | .bwait g o => encRR 0 108 g o
  | .btry g o => encRR 0 109 g o
  | .wvbind g o => encRR 0 112 g o
  | .wvunbind g o => encRR 0 113 g o
  | .wvslot g o => encRR 0 114 g o
  | .wvpublish g o => encRR 0 115 g o
  | .wvread g o => encRR 0 116 g o
  | .confx g o => encRR 0 117 g o
  | .kvcommit g o => encRR 0 118 g o
  | .kvmodeSet g o => encRR 0 119 g o
  | .kvmodeGet g o => encRR 0 119 g o
  | .kvmodeSpec g o => encRR 0 119 g o
  | .kvmodeQuery g o => encRR 0 119 g o
  | .lktree g o => encRR 0 120 g o
  | .lkfree g o => encRR 0 121 g o
  | .lkfreeCheck g o => encRR 0 121 g o
  | .pgprobe g o => encRR 0 122 g o
  | .pginvUpdate g o => encRR 0 123 g o
  | .pginvMove g o => encRR 0 123 g o

/-- The word and extension byte of a class V operation. -/
def VInstr.enc : VInstr → W32 × Byte
  | .vaddF32 g _ o => encRR 1 0 g o
  | .vsubF32 g _ o => encRR 1 1 g o
  | .vmulF32 g _ o => encRR 1 2 g o
  | .vfmaF32 g _ o => encRR 1 3 g o
  | .vfmsF32 g _ o => encRR 1 4 g o
  | .vfnmaF32 g _ o => encRR 1 5 g o
  | .vminF32 g _ o => encRR 1 6 g o
  | .vmaxF32 g _ o => encRR 1 7 g o
  | .vaddBf16 g _ o => encRR 1 8 g o
  | .vsubBf16 g _ o => encRR 1 9 g o
  | .vmulBf16 g _ o => encRR 1 10 g o
  | .vfmaBf16 g _ o => encRR 1 11 g o
  | .vfmsBf16 g _ o => encRR 1 12 g o
  | .vfnmaBf16 g _ o => encRR 1 13 g o
  | .vminBf16 g _ o => encRR 1 14 g o
  | .vmaxBf16 g _ o => encRR 1 15 g o
  | .vaddF16 g _ o => encRR 1 16 g o
  | .vsubF16 g _ o => encRR 1 17 g o
  | .vmulF16 g _ o => encRR 1 18 g o
  | .vfmaF16 g _ o => encRR 1 19 g o
  | .vfmsF16 g _ o => encRR 1 20 g o
  | .vfnmaF16 g _ o => encRR 1 21 g o
  | .vminF16 g _ o => encRR 1 22 g o
  | .vmaxF16 g _ o => encRR 1 23 g o
  | .vabsF32 g o => encRR 1 24 g o
  | .vabsH g o => encRR 1 25 g o
  | .vnegF32 g o => encRR 1 26 g o
  | .vnegH g o => encRR 1 27 g o
  | .vclassF32 g o => encRR 1 28 g o
  | .vclassBf16 g o => encRR 1 29 g o
  | .vclassF16 g o => encRR 1 30 g o
  | .vfinF32 g o => encRR 1 31 g o
  | .vfinBf16 g o => encRR 1 32 g o
  | .vfinF16 g o => encRR 1 33 g o
  | .vfinNfsF32 g o => encRR 1 31 g o
  | .vfinNfsBf16 g o => encRR 1 32 g o
  | .vfinNfsF16 g o => encRR 1 33 g o
  | .vdivF32 g _ o => encRR 1 34 g o
  | .vrcpF32 g _ o => encRR 1 35 g o
  | .vrsqF32 g _ o => encRR 1 36 g o
  | .vsqrtF32 g _ o => encRR 1 37 g o
  | .vexp2F32 g _ o => encRR 1 38 g o
  | .vlog2F32 g _ o => encRR 1 39 g o
  | .vtanhF32 g _ o => encRR 1 40 g o
  | .vdivBf16 g _ o => encRR 1 41 g o
  | .vrcpBf16 g _ o => encRR 1 42 g o
  | .vrsqBf16 g _ o => encRR 1 43 g o
  | .vsqrtBf16 g _ o => encRR 1 44 g o
  | .vexp2Bf16 g _ o => encRR 1 45 g o
  | .vlog2Bf16 g _ o => encRR 1 46 g o
  | .vtanhBf16 g _ o => encRR 1 47 g o
  | .viadd32 g o => encRR 1 48 g o
  | .viadd16 g o => encRR 1 49 g o
  | .viadd8 g o => encRR 1 50 g o
  | .visub32 g o => encRR 1 51 g o
  | .visub16 g o => encRR 1 52 g o
  | .visub8 g o => encRR 1 53 g o
  | .vimul32 g o => encRR 1 54 g o
  | .vimul16 g o => encRR 1 55 g o
  | .vimulhI32 g o => encRR 1 56 g o
  | .vimulhN32 g o => encRR 1 57 g o
  | .viminI32 g o => encRR 1 58 g o
  | .viminN32 g o => encRR 1 59 g o
  | .viminI16 g o => encRR 1 60 g o
  | .viminI8 g o => encRR 1 61 g o
  | .vimaxI32 g o => encRR 1 62 g o
  | .vimaxN32 g o => encRR 1 63 g o
  | .vimaxI16 g o => encRR 1 64 g o
  | .vimaxI8 g o => encRR 1 65 g o
  | .vshl32 g o => encRR 1 66 g o
  | .vshl16 g o => encRR 1 67 g o
  | .vshr32 g o => encRR 1 68 g o
  | .vshr16 g o => encRR 1 69 g o
  | .vsar32 g o => encRR 1 70 g o
  | .vsar16 g o => encRR 1 71 g o
  | .vand g o => encRR 1 72 g o
  | .vor g o => encRR 1 73 g o
  | .vxor g o => encRR 1 74 g o
  | .vmsel g o => encRRR 1 75 g o
  | .vcmpI32 g o => encRR 1 76 g o
  | .vcmpN32 g o => encRR 1 77 g o
  | .vcmpF32 g o => encRR 1 78 g o
  | .vcmpBf16 g o => encRR 1 79 g o
  | .vcvtF32 g _ o => encCV 1 80 g o
  | .vcvtBf16 g _ o => encCV 1 81 g o
  | .vcvtF16 g _ o => encCV 1 82 g o
  | .vcvtI8 g _ o => encCV 1 83 g o
  | .vcvtN8 g _ o => encCV 1 84 g o
  | .vcvtI16 g _ o => encCV 1 85 g o
  | .vcvtN16 g _ o => encCV 1 86 g o
  | .vcvtI32 g _ o => encCV 1 87 g o
  | .vcvtN32 g _ o => encCV 1 88 g o
  | .vsrnd g o => encCV 1 89 g o
  | .vplsplit g o => encRR 1 90 g o
  | .vpljoin g o => encRR 1 91 g o
  | .voutapply g o => encRR 1 92 g o
  | .vrsumF32 g _ o => encRR 1 96 g o
  | .vrsumBf16 g _ o => encRR 1 97 g o
  | .vrsumI32 g _ o => encRR 1 98 g o
  | .vrmaxF32 g _ o => encRR 1 99 g o
  | .vrmaxI32 g _ o => encRR 1 100 g o
  | .vrminF32 g _ o => encRR 1 101 g o
  | .vrminI32 g _ o => encRR 1 102 g o
  | .vrargmaxF32 g _ o => encRR 1 103 g o
  | .vperm g o => encRR 1 104 g o
  | .vshuf g o => encRR 1 105 g o
  | .vbcast g o => encRI 1 106 g o
  | .vslide g o => encRI 1 107 g o
  | .vzip g o => encRR 1 108 g o
  | .vunzip g o => encRR 1 109 g o
  | .vtrn4 g o => encRR 1 110 g o
  | .vsmmerge g o => encRRR 1 111 g o
  | .vrand g o => encRR 1 112 g o
  | .vrandf g o => encRR 1 113 g o
  | .vrnorm g o => encRR 1 114 g o
  | .vrnormt g o => encRR 1 115 g o
  | .vrseed g o => encRR 1 116 g o
  | .vld g o => encMEM 1 120 g o
  | .vst g o => encMEM 1 121 g o
  | .vldg g o => encRR 1 122 g o
  | .vsts g o => encRR 1 123 g o
  | .vldpl g o => encMEM 1 124 g o

/-- The word and extension byte of a class X operation. -/
def XInstr.enc : XInstr → W32 × Byte
  | .xcopyIn g o => encXC 3 1 g o
  | .xcopyOut g o => encXC 3 2 g o
  | .xcopyOutAcc g o => encXC 3 2 g o
  | .xgather g o => encXC 3 3 g o
  | .xscatter g o => encXC 3 4 g o
  | .xwbfill g o => encXC 3 5 g o
  | .xpref g o => encXC 3 6 g o
  | .xsend g o => encRR 3 32 g o
  | .xrecv g o => encRR 3 33 g o
  | .xrecvaddF32 g o => encRR 3 34 g o
  | .xrecvaddI32 g o => encRR 3 35 g o
  | .xrecvaddBf16 g o => encRR 3 36 g o
  | .xrld g o => encRR 3 37 g o
  | .xrst g o => encRR 3 38 g o
  | .xamoAdd32 g o => encXA 3 48 g o
  | .xamoAdd64 g o => encXA 3 49 g o
  | .xamoFaddF32 g o => encXA 3 50 g o
  | .xamoMin32 g o => encXA 3 51 g o
  | .xamoMin64 g o => encXA 3 52 g o
  | .xamoMax32 g o => encXA 3 53 g o
  | .xamoMax64 g o => encXA 3 54 g o
  | .xamoMinn32 g o => encXA 3 55 g o
  | .xamoMinn64 g o => encXA 3 56 g o
  | .xamoMaxn32 g o => encXA 3 57 g o
  | .xamoMaxn64 g o => encXA 3 58 g o
  | .xamoAnd32 g o => encXA 3 59 g o
  | .xamoAnd64 g o => encXA 3 60 g o
  | .xamoOr32 g o => encXA 3 61 g o
  | .xamoOr64 g o => encXA 3 62 g o
  | .xamoXor32 g o => encXA 3 63 g o
  | .xamoXor64 g o => encXA 3 64 g o
  | .xamoSwap32 g o => encXA 3 65 g o
  | .xamoSwap64 g o => encXA 3 66 g o
  | .xamoCas32 g o => encXA 3 67 g o
  | .xamoCas64 g o => encXA 3 68 g o
  | .xfence g o => encXO 3 80 g o
  | .xrel g o => encXO 3 81 g o
  | .xacq g o => encXO 3 82 g o
  | .xvld g o => encXA 3 83 g o
  | .xnmc g o => encRR 3 96 g o
  | .xnmfence g => encZ 3 97 g
  | .xtagld g o => encRR 3 112 g o
  | .xtagst g o => encRR 3 113 g o
  | .tstate g o => encRR 3 114 g o
  | .tlayoutClaim g o => encRR 3 115 g o
  | .tlayoutRelabel g o => encRR 3 115 g o
  | .tlayoutCheck g o => encRR 3 115 g o
  | .trelease g o => encRR 3 116 g o
  | .trjrec g o => encRR 3 117 g o
  | .bfpost g o => encRR 3 118 g o

/-- The word and extension byte of a class M operation. -/
def MInstr.enc : MInstr → W32 × Byte
  | .mcfgMode g o => encMWord 0 g (0#4 ++ o.g ++ 0#12)
  | .mcfgOutlier g o => encMWord 0 g (0#4 ++ o.g ++ 0#12)
  | .mcfgQset g o => encMWord 0 g (0#4 ++ o.g ++ 0#12)
  | .mcfgWbp g o => encMWord 0 g (0#4 ++ o.g ++ 0#12)
  | .mzero g o => encMWord 0 g (1#4 ++ o.acc ++ 0#13)
  | .msnap g o => encMWord 0 g (2#4 ++ o.acc ++ o.row ++ o.v)
  | .mresrd g o => encMWord 0 g (3#4 ++ o.acc ++ 0#7 ++ o.g)
  | .mreschk g o => encMWord 0 g (4#4 ++ o.acc ++ 0#13)
  | .mpush g o => encMWord 1 g (o.off ++ 0#9)
  | .mpushWp g => encMWord 1 g 0x100
  | .mswap g => encMWord 2 g 0
  | .mshift g o => encMWord 3 g (o.acc ++ BitVec.ofBool o.rp ++ o.row ++ o.v ++ BitVec.ofBool o.half ++ o.md)
  | .mdrain g o => encMWord 4 g (o.acc ++ BitVec.ofBool o.rp ++ o.row ++ o.v ++ o.part)
  | .mdrainq g o => encMWord 5 g (o.acc ++ BitVec.ofBool o.rp ++ o.row ++ o.v ++ o.part)

/-- The word and extension byte of a slot operation. -/
def SlotInstr.enc : SlotInstr → W32 × Byte
  | .nop => (0, 0)
  | .xnop => (0xC0000000, 0)
  | .s i => i.enc
  | .v i => i.enc
  | .x i => i.enc
  | .m i => i.enc

/-- The word and extension byte of an instruction; an event has none. -/
def encode (i : Instr) : Option (W32 × Byte) := i.slot.map SlotInstr.enc

/-- Without a header the word does not read the immediate of its slot bits alone: the immediate is signed and the top one of those bits
is set (R105). -/
def signedTop (w : W32) : Bool :=
  match decodeSlot false .rne 0 w with
  | .ok i => decide (i.enc.2 ≠ 0)
  | .error _ => true

/-- The word of an operation alone in its bundle stands behind a header (R97, R123): QUIET, an extension byte, a rounding mode or an
immediate that the slot bits alone would read otherwise asks for one. -/
def wordNeedsHeader (w : W32) (ext : Byte) (rm : RMode) : Bool :=
  decide (fld w 30 2 = 0 ∧ fld w 23 7 = 0x51) || decide (ext ≠ 0) || decide (rm ≠ .rne) || signedTop w

/-- The rows of the opcode table that share one word decode to the first of them; which variant runs is chosen by operand
registers at issue. -/
def SInstr.canon : SInstr → SInstr
  | .ctxfreezeSave g o => .ctxfreeze g o
  | .ctxsave g o => .ctxfreeze g o
  | .cutQuery g o => .ctxfreeze g o
  | .cutStop g o => .ctxfreeze g o
  | .ctxrestoreResume g o => .ctxresume g o
  | .ctxrestore g o => .ctxresume g o
  | .wqreopen g o => .wqclose g o
  | .binitQuery g o => .binitReset g o
  | .kvmodeGet g o => .kvmodeSet g o
  | .kvmodeSpec g o => .kvmodeSet g o
  | .kvmodeQuery g o => .kvmodeSet g o
  | .lkfreeCheck g o => .lkfree g o
  | .pginvMove g o => .pginvUpdate g o
  | i => i

/-- The rows of the opcode table that share one word decode to the first of them; which variant runs is chosen by operand
registers at issue. -/
def XInstr.canon : XInstr → XInstr
  | .xcopyOutAcc g o => .xcopyOut g o
  | .tlayoutRelabel g o => .tlayoutClaim g o
  | .tlayoutCheck g o => .tlayoutClaim g o
  | i => i

/-- The rows of the opcode table that share one word decode to the first of them; which variant runs is chosen by operand
registers at issue. -/
def MInstr.canon : MInstr → MInstr
  | .mcfgOutlier g o => .mcfgMode g o
  | .mcfgQset g o => .mcfgMode g o
  | .mcfgWbp g o => .mcfgMode g o
  | i => i

/-- The operation the decoder answers for a row's word. -/
def SlotInstr.canon : SlotInstr → SlotInstr
  | .s i => .s i.canon
  | .x i => .x i.canon
  | .m i => .m i.canon
  | i => i

/-- The bundle rounding mode an operation carries (R100); the others run under any. -/
def VInstr.brm : VInstr → RMode
  | .vaddF32 _ rm _ => rm
  | .vsubF32 _ rm _ => rm
  | .vmulF32 _ rm _ => rm
  | .vfmaF32 _ rm _ => rm
  | .vfmsF32 _ rm _ => rm
  | .vfnmaF32 _ rm _ => rm
  | .vminF32 _ rm _ => rm
  | .vmaxF32 _ rm _ => rm
  | .vaddBf16 _ rm _ => rm
  | .vsubBf16 _ rm _ => rm
  | .vmulBf16 _ rm _ => rm
  | .vfmaBf16 _ rm _ => rm
  | .vfmsBf16 _ rm _ => rm
  | .vfnmaBf16 _ rm _ => rm
  | .vminBf16 _ rm _ => rm
  | .vmaxBf16 _ rm _ => rm
  | .vaddF16 _ rm _ => rm
  | .vsubF16 _ rm _ => rm
  | .vmulF16 _ rm _ => rm
  | .vfmaF16 _ rm _ => rm
  | .vfmsF16 _ rm _ => rm
  | .vfnmaF16 _ rm _ => rm
  | .vminF16 _ rm _ => rm
  | .vmaxF16 _ rm _ => rm
  | .vdivF32 _ rm _ => rm
  | .vrcpF32 _ rm _ => rm
  | .vrsqF32 _ rm _ => rm
  | .vsqrtF32 _ rm _ => rm
  | .vexp2F32 _ rm _ => rm
  | .vlog2F32 _ rm _ => rm
  | .vtanhF32 _ rm _ => rm
  | .vdivBf16 _ rm _ => rm
  | .vrcpBf16 _ rm _ => rm
  | .vrsqBf16 _ rm _ => rm
  | .vsqrtBf16 _ rm _ => rm
  | .vexp2Bf16 _ rm _ => rm
  | .vlog2Bf16 _ rm _ => rm
  | .vtanhBf16 _ rm _ => rm
  | .vcvtF32 _ rm _ => rm
  | .vcvtBf16 _ rm _ => rm
  | .vcvtF16 _ rm _ => rm
  | .vcvtI8 _ rm _ => rm
  | .vcvtN8 _ rm _ => rm
  | .vcvtI16 _ rm _ => rm
  | .vcvtN16 _ rm _ => rm
  | .vcvtI32 _ rm _ => rm
  | .vcvtN32 _ rm _ => rm
  | .vrsumF32 _ rm _ => rm
  | .vrsumBf16 _ rm _ => rm
  | .vrsumI32 _ rm _ => rm
  | .vrmaxF32 _ rm _ => rm
  | .vrmaxI32 _ rm _ => rm
  | .vrminF32 _ rm _ => rm
  | .vrminI32 _ rm _ => rm
  | .vrargmaxF32 _ rm _ => rm
  | _ => .rne

def SlotInstr.brm : SlotInstr → RMode
  | .v i => i.brm
  | _ => .rne

end Sys2Proof
end

