-- ==== Sys2Proof/Machine/Operands.lean ====
section
/-! DEFINITION. Operand forms: guards (02_core.md R40 to R42), source modes (04_encoding.md R106), destinations, address modes
(R110), and the examination of a global access at issue (05_scalar_control.md R137; 08_transfer.md R222 orders 4 to 8). -/

namespace Sys2Proof.Machine

/-! ### Guards -/

/-- The innermost active level (R44). -/
def innermost (lact : BitVec 6) : Option Nat :=
  if lact.getLsbD 5 then some 5 else if lact.getLsbD 4 then some 4 else if lact.getLsbD 3 then some 3
  else if lact.getLsbD 2 then some 2 else if lact.getLsbD 1 then some 1 else if lact.getLsbD 0 then some 0 else none

/-- The loop flag lets the operation execute (R42). -/
def Core.flagOk (c : Core) (f : LoopFlag) : Bool :=
  match f, innermost c.lctl.lact with
  | .always, _ => true
  | _, none => true
  | .first, some l => !c.wrapped.getLsbD l
  | .last, some l => let t := Tbl.get .zero c.lstat l; decide (t.icount = 0 ∧ t.epi = 0)

/-- Predicate and loop flag of a slot, read before the bundle (R41, R42). -/
def Core.guardOk (c : Core) (g : Guard) : Bool := (c.getP g.p.toNat != g.neg) && c.flagOk g.flag

/-- A slot under its guard: the post-increment happens in any case, the operation only when the guard holds (R40). -/
def guarded (g : Guard) (inc : Option Nat) (op : Op) : Op := fun i =>
  let i := match inc with | some a => i.increment a | none => i
  if i.pre.guardOk g then op i else .ok i

/-- The matrix duty level holds core `n` back (22_reliability.md R462). -/
def State.dutyHolds (s : State) (n : Nat) : Bool :=
  let c := s.core n
  decide (s.duty ≠ 0) && decide (c.dutyGroup = s.now / 4) && decide (4 - s.duty.toNat ≤ c.dutyUsed)

/-- A core is counted in its group of four cycles for the M operation its bundle issues (R462). -/
def State.dutyCount (s : State) (n : Nat) : State :=
  s.upd n (fun c => if c.dutyGroup = s.now / 4 then { c with dutyUsed := c.dutyUsed + 1 }
    else { c with dutyGroup := s.now / 4, dutyUsed := 1 })

/-- An M operation under its guard (R40): its bundle waits for the duty level, and one that issues is counted. -/
def guardedM (g : Guard) (op : Op) : Op :=
  guarded g none (fun i =>
    if i.s.dutyHolds i.n then .error .wait
    else do
      let j ← op i
      .ok (j.after (fun s => s.dutyCount i.n)))

/-- An operation that a unit of the I/O die performs when the answer is there: its bundle is held until then (R30; log entry 86). -/
def awaiting (op : Op) : Op := fun i => if i.pre.slow.getLsbD i.slot then .error .wait else op i

/-- The key of the answer that slot `slot` of core `n` waits for. -/
def answerKey (n slot : Nat) : Nat := 4 * n + slot

/-- What an operand read and a result change in a core. -/
def Core.takeOperands (c j : Core) : Core :=
  { c with pend := j.pend, held := j.held, holdv := j.holdv, latinv := j.latinv, holdinv := j.holdinv, diagunit := j.diagunit }

/-- The value of the newest result in flight. -/
def Core.lastValue (c : Core) : W64 := match c.pend.getLast? with | some p => p.value.setWidth 64 | none => 0
def Core.setLastValue (c : Core) (v : W64) : Core :=
  match c.pend.getLast? with | some p => { c with pend := c.pend.dropLast ++ [{ p with value := vec64 v }] } | none => c

/-- The unit performs the request of the running slot while its bundle is held; the answer is on its way. -/
def Issue.perform (i : Issue) (op : Op) (s : State) : State :=
  match op { i with s := s, post := id } with
  | .error _ => s
  | .ok j =>
    let t := j.post j.s
    { t.upd i.n (fun c => c.takeOperands (s.core i.n)) with
      answers := Tbl.set none t.answers (answerKey i.n i.slot) (some j.core.lastValue) }

/-- The bundle whose request has been performed issues with the answer. -/
def Issue.withAnswer (i : Issue) (op : Op) (w : W64) : Except Stop Issue := do
  let j ← op i
  .ok { j with post := i.post, s := { i.s with answers := Tbl.set none i.s.answers (answerKey i.n i.slot) none }.upd i.n
                      (fun c => if j.core.pend.length = i.core.pend.length then c.takeOperands j.core else (c.takeOperands j.core).setLastValue w) }

/-- A request of the generation unit takes no entry of the record, nor do the loads of its descriptor (20_generation.md R425, R431). -/
def unrecorded (op : Op) : Op := fun i => do
  let j ← op { i with pre := { i.pre with slow := 0 } }
  .ok { j with pre := i.pre }

/-- An operation that asks a unit of the I/O die for a value: the unit performs the request when it arrives, and the bundle is held
until the answer is back (R30; 16_kernel.md R373; log entry 86). -/
def asking (op : Op) : Op := fun i =>
  match Tbl.get none i.s.answers (answerKey i.n i.slot) with
  | some w => i.withAnswer op w
  | none =>
    if i.pre.slow.getLsbD i.slot then
      match op i with
      | .error e => .error e
      | .ok _ => .error (.freeze (i.perform op))
    else op i

/-- The register a memory operand post-increments (AM 0b10, R110). -/
def incOf (a : BitVec 4) (am : BitVec 2) : Option Nat := if am = 2 then some a.toNat else none

/-! ### Sources -/

inductive Src where
  | reg | latch | capture | held
deriving DecidableEq, Repr

/-- SMODE (R106 Table 3). -/
def smode (m : BitVec 3) : Src × Src :=
  match m.toNat with
  | 1 => (.latch, .reg) | 2 => (.reg, .latch) | 3 => (.latch, .latch) | 4 => (.capture, .reg)
  | 5 => (.reg, .capture) | 6 => (.held, .reg) | 7 => (.reg, .held) | _ => (.reg, .reg)

/-- SM1 of RI. -/
def sm1 (m : BitVec 2) : Src :=
  match m.toNat with
  | 1 => .latch | 2 => .capture | 3 => .held | _ => .reg

/-- A register as it stands before the bundle, by file; a v register of a lent bank is a lent-bank violation (R51). -/
def Issue.readReg (i : Issue) (f : RegFile) (r : Nat) : Except Stop Vec :=
  match f with
  | .g => .ok (vec64 (i.pre.getG r))
  | .a => .ok (vec64 (i.pre.getA r))
  | .p => .ok (if i.pre.getP r then 1 else 0)
  | .b => .ok (vec64 (i.pre.getB r))
  | .v => if i.core.isLent (i.pre.physV r) then .error (.trap 5 0) else .ok (i.pre.getV (i.pre.physV r))
  | .m => .ok ((i.pre.getM r).setWidth 1024)
  | .latch => .ok 0

/-- A source operand at position `pos` (R36, R37, R106). -/
def Issue.source (i : Issue) (pos : Nat) (k : Src) (f : RegFile) (r : Nat) : Except Stop (Vec × Issue) :=
  match k with
  | .reg => do
    let x ← i.readReg f r
    .ok (x, i)
  | .capture => do
    let x ← i.readReg f r
    let h := 3 * i.unit.idx + pos
    .ok (x, i.upd (fun c => { c with held := Tbl.set 0 c.held h x, holdv := c.holdv ||| BitVec.ofNat 18 (2 ^ h) }))
  | .latch =>
    let l := 4 * i.unit.idx + r % 4
    if i.pre.latv.getLsbD l then .ok (Tbl.get 0 i.pre.latches l, i) else .ok (0, i.upd (fun c => c.noteInvalid i.unit true))
  | .held =>
    let h := 3 * i.unit.idx + pos
    if i.pre.holdv.getLsbD h then .ok (Tbl.get 0 i.pre.held h, i) else .ok (0, i.upd (fun c => c.noteInvalid i.unit false))

/-- The two sources of an RR operation. -/
def Issue.rrSources (i : Issue) (o : RR) (f1 f2 : RegFile) : Except Stop (Vec × Vec × Issue) := do
  let (x, i) ← i.source 0 (smode o.mode).1 f1 o.s1.toNat
  let (y, i) ← i.source 1 (smode o.mode).2 f2 o.s2.toNat
  .ok (x, y, i)

/-- Both sources as 64-bit values of g. -/
def Issue.rrG (i : Issue) (o : RR) : Except Stop (W64 × W64 × Issue) := do
  let (x, y, i) ← i.rrSources o .g .g
  .ok (x.setWidth 64, y.setWidth 64, i)

/-- First source of an RR operation that names g. -/
def Issue.rrG1 (i : Issue) (o : RR) : Except Stop (W64 × Issue) := do
  let (x, i) ← i.source 0 (smode o.mode).1 .g o.s1.toNat
  .ok (x.setWidth 64, i)

/-- Second source of an RR operation that names g. -/
def Issue.rrG2 (i : Issue) (o : RR) : Except Stop (W64 × Issue) := do
  let (y, i) ← i.source 1 (smode o.mode).2 .g o.s2.toNat
  .ok (y.setWidth 64, i)

/-- The file of a g destination (R107). -/
def gFile (dnil : Bool) : RegFile := if dnil then .latch else .g

/-- A v destination: the physical register, mapped when the operation issues (R148); a lent bank is a violation (R51). -/
def Issue.destV (i : Issue) (d : Nat) (dnil : Bool) : Except Stop (RegFile × Nat) :=
  if dnil then .ok (.latch, 0)
  else if i.core.isLent (i.pre.physV d) then .error (.trap 5 0)
  else .ok (.v, i.pre.physV d)

/-! ### Global addresses -/

/-- Effective address of a memory operand: a from before the bundle, plus offset × unit under AM 0b01 (R110). DESIGN CHOICE (log entry
120): R136 says that the offset of LD and ST is signed, and no rule says it of VLD and VST; it is signed there too. -/
def Issue.address (i : Issue) (o : MEM) (offBits unit : Nat) : W64 :=
  let base := i.pre.getA o.a.toNat
  if o.am = 1 then base + BitVec.ofInt 64 (sext o.off.toNat offBits * unit) else base

/-- The group of a core, for the marks of KV entries (R423). -/
def State.grpOf (s : State) (n : Nat) : Option Nat := if isKiosk n then none else some (s.core n).mem.grp

/-- What an ordinary access may reach: a place in memory, or a device page. -/
inductive Place where
  | mem (pa : Nat) (repl : Bool)
  | dev (d : DevPage) (off : Nat)
deriving DecidableEq, Repr

/-- An S access waits behind a fence: XFENCE and XNMFENCE hold every S load and store, XREL those of its block (R237, R238, R245). -/
def Core.sMisses (c : Core) (va : W64) : Bool := c.fenceX || c.fenceN || (c.fenceR && c.relblk.contains (va.toNat / 64 * 64))

/-- The checks of R137 Table 5, orders 1 to 5, for an access of `size` bytes at `va` that needs the permission `need`; `sUnit` tells
an access of the S unit. Poison is examined when the bytes are read. -/
def Issue.examine (i : Issue) (va : W64) (size need : Nat) (write sUnit : Bool) : Except Stop Place :=
  let x := i.ctxNo
  if va.toNat % size ≠ 0 then .error (.trap 7 va) else
  match translate i.s (tuOf i.n) x va need with
  | .outside => .error (.abort va)
  | .absent k => .error (.freeze (fun s => s.bundleFault i.n x va k need write))
  | .poisonedPage => .error (.trap 10 (BitVec.ofNat 64 (va.toNat / 64 * 64)))
  | .denied => .error (.trap 9 va)
  | .noFrame pa => .error (.fault (.noFrame pa))
  | .dev d off => .ok (.dev d off)
  | .ok pa repl =>
    if write && wvBars (i.s.ctx x) va then .error (.trap 9 va)
    else if i.pre.replayHolds va.toNat size then .error .wait
    else if sUnit && i.pre.sMisses va then .error .wait
    else if wvLocked (i.s.ctx x) va then .error (.freeze (fun s => s.upd i.n (fun c => c.forget (s.replicas i.n x va pa))))
    else .ok (.mem pa repl)

/-- The place a read at the home takes its bytes from, by the mark of a KV entry (R423): the address itself, or the proxy's. -/
def Issue.readPlace (i : Issue) (va : W64) (pa need : Nat) (s : State) : Except Stop Nat :=
  match kvSays (s.ctx i.ctxNo) (s.grpOf i.n) false va with
  | .perform => .ok (s.ownReplica i.n i.ctxNo va pa)
  | .refuse => .error (.trap 9 va)
  | .wait => .error .wait
  | .proxy =>
    let pv := kvProxyAddr (s.ctx i.ctxNo) va
    match translate s (tuOf i.n) i.ctxNo pv need with
    | .ok ppa _ => .ok ppa
    | .absent k => .error (.freeze (fun s => s.bundleFault i.n i.ctxNo pv k need false))
    | .poisonedPage => .error (.trap 10 (BitVec.ofNat 64 (va.toNat / 64 * 64)))
    | .outside => .error (.abort pv)
    | .noFrame p => .error (.fault (.noFrame p))
    | .denied => .error (.trap 9 pv)
    | .dev _ _ => .error (.trap 9 pv)

/-- The request of the running slot has been answered, or is answered in the cycle it leaves the core. Where it is not, it takes the
slot's request entry and its bundle is held (R30; 13_inflight_record.md R318; log entry 86). -/
def Issue.sent (i : Issue) (e : IfrEntry) : Except Stop Unit :=
  match i.pre.entry (96 + i.slot) with
  | some f => if f.ans then .ok () else .error .wait
  | none =>
    if i.pre.slow.getLsbD i.slot then .error (.freeze (fun s => s.allocate i.n (96 + i.slot) { e with sent := true })) else .ok ()

/-- A store of the S unit that misses the data cache waits until the line is there; it takes no entry of the record (R30 Table 4; 05_scalar_control.md
R137 order 5; log entry 86). -/
def Issue.lineHere (i : Issue) : Except Stop Unit := if i.pre.slow.getLsbD i.slot then .error .wait else .ok ()

/-- A request of kind 1 (13_inflight_record.md R320): its address and size. -/
def readRequest (va : W64) (size home : Nat) : IfrEntry :=
  { IfrEntry.new .idem 1 (BitVec.ofNat 512 (va.toNat + size * 2 ^ 64)) [] with home := home }

/-- A live copy of the line at `p` that the core still holds answers (R254), but not a load that has waited (R255). -/
def Issue.tryCopy (i : Issue) (p : Nat) : Option Copy × Issue :=
  match (if i.pre.heldBundle then none else i.s.liveCopy i.n (p / 64)) with
  | some k => let (held, s) := i.s.choose; (if held then some k else none, { i with s := s })
  | none => (none, i)

/-- A read at the home of `p`. -/
def Issue.readHome (i : Issue) (va : W64) (p size need : Nat) : Except Stop ((Nat × BitVec 16) × Issue) := do
  i.sent (readRequest va (if size = 1 && need = permXR then 64 else size) (homeOf p))
  let r := i.s.homeLoad i.n p size
  .ok (r.1, { i with s := r.2.readMark i.n i.ctxNo va (p / 64) })

/-- An ordinary read at a place examined: the value and the tag of its block. A copy read under its lease stands in the order before a
change of its KV entry's mark, and needs no examination of it (20_generation.md R423); every other read examines the mark (R266, R267). -/
def Issue.readAt (i : Issue) (va : W64) (pa size need : Nat) : Except Stop ((Nat × BitVec 16) × Issue) :=
  match i.tryCopy (i.s.ownReplica i.n i.ctxNo va pa) with
  | (some k, i) => .ok ((blockBytes k.data (pa % 64) size, k.tag), i)
  | (none, i) => do
    let p ← i.readPlace va pa need i.s
    i.readHome va p size need

/-- The answer that the request entry of the slot holds, of kind 1 (13_inflight_record.md R320, R330). A load takes its place when its
bundle issues (09_memory_model.md R251): the value answered stands there as long as the core's clock is the one it was read at, and else
the load reads again (R254, R255; log entry 17). -/
def Issue.answered (i : Issue) : Option W64 :=
  match i.pre.entry (96 + i.slot) with
  | some e => if e.kind = 1 && e.ans && !e.rejected && decide (i.core.clk = e.ts) then some e.result else none
  | none => none

/-- An ordinary load of `size` bytes at a place examined; poison traps (R69). -/
def Issue.loadAt (i : Issue) (va : W64) (pa size need : Nat) : Except Stop (Nat × Issue) := do
  match i.answered, decide (size ≤ 8) with
  | some v, true => .ok (v.toNat % 2 ^ (8 * size), i)
  | _, _ =>
  let ((v, t), i) ← i.readAt va pa size need
  if poisoned t then .error (.trap 10 (BitVec.ofNat 64 (va.toNat / 64 * 64))) else .ok (v, i)

/-- The tag of the block at a place, as an ordinary access (R246). -/
def Issue.tagAt (i : Issue) (va : W64) (pa need : Nat) : Except Stop (BitVec 16 × Issue) := do
  match i.answered with
  | some v => .ok (v.setWidth 16, i)
  | none =>
  let ((_, t), i) ← i.readAt va (pa / 64 * 64) 1 need
  .ok (t, i)

/-- A store to a replicated line. In a tensor slot it is made at the primary (19_weight_versions.md R399); else it is a commit of one
line (R257): the first attempt asks for the locks, and the commit engine makes the store when it has them all. `primary` stores at the
primary, `put` at one place. -/
def Issue.commitLine (i : Issue) (va : W64) (pa : Nat) (primary : State → State) (put : State → Nat → State) : Except Stop Issue :=
  let line := globalLine pa
  if (wvSlotAt i.ctx va).isSome then .ok { i with s := primary i.s }
  else
    match i.s.locks.find? (fun l => l.core = i.n && l.line = line) with
    | some l => if l.granted then .ok { i with s := i.s.commit i.n (i.s.replicas i.n i.ctxNo va pa) put } else .error .wait
    | none =>
      .error (.freeze (fun s =>
        if s.locks.any (fun l => l.core = i.n && l.line = line) then s
        else { s with locks := s.locks ++ [⟨i.n, line, false⟩] }))

/-- An ordinary store of `size` bytes at a place examined. -/
def Issue.storeAt (i : Issue) (va : W64) (pa size v : Nat) (repl : Bool) : Except Stop Issue :=
  match kvSays (i.s.ctx i.ctxNo) (i.s.grpOf i.n) true va with
  | .refuse => .error (.trap 9 va)
  | _ =>
    let v := i.s.ringValue i.ctxNo va pa size v
    if repl then i.commitLine va pa (fun s => s.coreStore i.n pa size v) (fun s a => s.put a size v)
    else .ok { i with s := i.s.coreStore i.n pa size v }

/-! ### The core's own scratchpad -/

/-- Size of a core's scratchpad (R14, R15). -/
def spadSize (n : Nat) : Nat := if isKiosk n then 2 ^ 18 else 2 ^ 20
def tileOf (off : Nat) : Nat := off / 2 ^ 15
def Core.tile (c : Core) (t : Nat) : Tile := Tbl.get .fresh c.tiles t
def Core.setTile (c : Core) (t : Nat) (v : Tile) : Core := { c with tiles := Tbl.set .fresh c.tiles t v }

/-- An operation of core `i.n` meets tile `t` of its own in a state it does not accept: it freezes, or the freeze cannot end
(R273, R274). -/
def Issue.notReady (i : Issue) (t : Nat) : Except Stop Issue :=
  if (i.core.tile t).ncmd = 0 then .error (.stuck t) else .error .wait

/-- A scratchpad read: bytes, with the line's time (R254). -/
def Issue.spadRead (i : Issue) (owner off n : Nat) : Nat × Issue :=
  let (s, _) := i.s.readTime i.n (spadLine owner off)
  ((s.core owner).spad.read off n, { i with s := s })

/-- A scratchpad write of data bytes only (R71). -/
def Issue.spadWrite (i : Issue) (owner off n v : Nat) : Issue :=
  let s := i.s.coreWriteTime i.n (spadLine owner off)
  { i with s := s.upd owner (fun c => { c with spad := c.spad.write off n v }) }

end Sys2Proof.Machine
end

