-- ==== Sys2Proof/Machine/Issue.lean ====
section
/-! DEFINITION. Issue of one bundle (02_core.md R23 to R49; 04_encoding.md R94 to R113): decode checks, the slots in unit order,
freezes, traps, the end of the bundle with loop sequencer, results and address updates. -/

namespace Sys2Proof.Machine

/-! ### What a slot word says -/

/-- Class of a slot word (R94): 0 S, 1 V, 2 M, 3 X. -/
def wordClass (w : W32) : Nat := w.toNat / 2 ^ 30
/-- Opcode of an S, V or X word (R104). -/
def wordOp (w : W32) : Nat := bits w.toNat 29 23
def wordField (w : W32) (h l : Nat) : Nat := bits w.toNat h l

/-- V opcodes of format RR or CV, which have DNIL (R104, R107). -/
def vHasNil (op : Nat) : Bool := !(op = 0x4B || op = 0x6F || op = 0x6A || op = 0x6B || op ≥ 0x78)

/-- S opcodes of format RR (R114 Table 6), which have DNIL (R107). -/
def sHasNil (op : Nat) : Bool :=
  op = 1 || op = 2 || (4 ≤ op && op ≤ 0x11) || (0x15 ≤ op && op ≤ 0x1B) || (0x1F ≤ op && op ≤ 0x2F) || op = 0x37 || op = 0x44
    || (0x59 ≤ op && op ≤ 0x5B) || (0x60 ≤ op && op ≤ 0x6D) || (0x70 ≤ op && op ≤ 0x7B)

/-- The destination register an operation names (R29): file and number; none for nil, for no destination, for registers that discard
writes, and for an opcode that Tables 6 to 8 leave unassigned, which names no operation. -/
def wordDest (w : W32) (ext : Byte) : Option (RegFile × Nat) :=
  let op := wordOp w
  let d := wordField w 17 12
  let nil := ext.getLsbD 1
  let g (r : Nat) : Option (RegFile × Nat) := if r = 0 then none else some (.g, r)
  let p (r : Nat) : Option (RegFile × Nat) := if r = 0 then none else some (.p, r)
  match wordClass w with
  | 0 =>
    if sHasNil op && nil then none
    else if op = 0x1F then some (.a, d)
    else if 0x20 ≤ op ∧ op ≤ 0x2E then p d
    else if op = 0x2F then (if wordField w 5 0 = 1 then g d else some (.a, d))
    else if op = 0x42 then some (.b, wordField w 17 15)
    else if op = 0x43 then some (.b, 7)
    else if op ≤ 0x36 ∧ op ≠ 0 then g d
    else if op = 0x54 ∨ (0x59 ≤ op ∧ op ≤ 0x5B) ∨ (0x60 ≤ op ∧ op ≤ 0x6D ∧ op ≠ 0x64 ∧ op ≠ 0x6B) ∨ (0x70 ≤ op ∧ op ≤ 0x7B) then g d
    else none
  | 1 =>
    if vHasNil op && nil then none
    else if 0x1F ≤ op ∧ op ≤ 0x21 then p d
    else if 0x4C ≤ op ∧ op ≤ 0x4F then (if wordField w 14 12 = 0 then none else some (.m, wordField w 14 12))
    else if (0x5D ≤ op ∧ op ≤ 0x5F) ∨ (0x74 ≤ op ∧ op ≤ 0x77) ∨ op = 0x79 ∨ op = 0x7B ∨ 0x7D ≤ op then none
    else some (.v, d)
  | 2 =>
    match wordField w 29 27 with
    | 4 => some (.v, wordField w 8 3)
    | 5 => some (.v, wordField w 8 3)
    | 0 => if wordField w 21 18 = 2 then some (.v, wordField w 5 0)
           else if wordField w 21 18 = 3 then g (wordField w 5 0) else none
    | _ => none
  | _ =>
    if 0x21 ≤ op ∧ op ≤ 0x25 then (if nil then none else some (.v, d))
    else if 0x30 ≤ op ∧ op ≤ 0x44 then g d
    else if op = 0x52 ∨ op = 0x53 ∨ op = 0x70 ∨ op = 0x72 ∨ op = 0x73 then g d
    else none

/-- Privileged operations, marked ‡ in R114. -/
def wordPrivileged (w : W32) : Bool :=
  let op := wordOp w
  wordClass w = 0 && ((0x59 ≤ op && op ≤ 0x5B) || (0x78 ≤ op && op ≤ 0x7B))

/-- Operations valid only on X0, and only on X1 (R117). -/
def x0Only (op : Nat) : Bool :=
  (1 ≤ op && op ≤ 6) || (0x30 ≤ op && op ≤ 0x44) || (0x51 ≤ op && op ≤ 0x53) || op = 0x60 || op = 0x61 || op = 0x70 || op = 0x71
    || op = 0x75 || op = 0x76
def x1Only (op : Nat) : Bool := 0x20 ≤ op && op ≤ 0x26

/-- Unit restrictions (R24, R15): an operation on a unit that does not execute it, or on a kiosk core that lacks it. XCOPY.out names
a tile or an accumulator by its descriptor, so its number is examined at issue (R228). -/
def unitBars (kiosk : Bool) (u : UnitId) (w : W32) : Bool :=
  let op := wordOp w
  match u with
  | .s => kiosk && (op = 0x52 || op = 0x53 || op = 0x68 || op = 0x69 || op = 0x75)
  | .v0 => false
  | .v1 => kiosk
  | .m => kiosk
  | .x0 => x1Only op || (kiosk && (op = 5 || ((op = 1 || op = 3 || op = 4) && 8 ≤ wordField w 17 13)
      || (0x72 ≤ op && op ≤ 0x74 && 8 ≤ wordField w 11 6)))
  | .x1 => x0Only op || (kiosk && op ≠ 0)

/-- A source mode that the unit does not allow (08_transfer.md R216): TLAYOUT's s2 names a g register, so on X1 it is read from the
register. -/
def modeBars (u : UnitId) (w : W32) (e : Byte) : Bool :=
  u = .x1 && wordClass w = 3 && wordOp w = 0x73 && decide (e.extractLsb' 2 3 ≠ 0)

/-! ### A bundle -/

/-- One slot as decoding leaves it: `dec` is absent when the slot is an illegal instruction. -/
structure Slot where
  idx : Nat
  word : W32
  ext : Byte
  dec : Option Op

/-- A bundle as decoding leaves it. `badHead` tells a header that names no rounding mode (R100); `head` is the slot-0 word. -/
structure Bundle where
  head : W32
  quiet : Bool
  bkpt : Bool
  badHead : Bool
  rm : RMode
  slots : List Slot

/-- Operations of class `k`. -/
def Bundle.ofClass (b : Bundle) (k : Nat) : List Slot := b.slots.filter (fun s => s.word ≠ 0 && wordClass s.word = k)

/-- A wait-kind XAMO: it is performed before its bundle's ordinary accesses (09_memory_model.md R264). -/
def Slot.waitAmo (s : Slot) : Bool :=
  let op := wordOp s.word
  wordClass s.word = 3 && decide (0x30 ≤ op ∧ op ≤ 0x44) && decide (wordField s.word 17 12 ≠ 0)

/-- Slots with the units that execute them, in the order S, V0, V1, M, X0, X1 (R24, R252), a wait-kind XAMO before them all. -/
def Bundle.units (b : Bundle) : List (UnitId × Slot) :=
  let two (k : Nat) (u v : UnitId) : List (UnitId × Slot) :=
    match b.ofClass k with
    | [] => []
    | [x] => [(u, x)]
    | x :: y :: _ => [(u, x), (v, y)]
  let all := ((b.ofClass 0).take 1).map (fun x => (UnitId.s, x)) ++ two 1 .v0 .v1 ++ ((b.ofClass 2).take 1).map (fun x => (UnitId.m, x))
    ++ two 3 .x0 .x1
  all.filter (fun u => u.2.waitAmo) ++ all.filter (fun u => !u.2.waitAmo)

/-- A slot beyond a class's limit (R97). -/
def Bundle.excess (b : Bundle) : Option Slot :=
  match (b.ofClass 0).drop 1 ++ (b.ofClass 1).drop 2 ++ (b.ofClass 2).drop 1 ++ (b.ofClass 3).drop 2 with
  | [] => none
  | x :: _ => some x

/-- The QUIET of a bundle (R101). -/
def Bundle.quietSlot (b : Bundle) : Option Slot := b.slots.find? (fun s => wordClass s.word = 0 && s.word ≠ 0 && wordOp s.word = 0x51)

/-- A later slot that names a destination an earlier one names (R29). -/
def clash : List Slot → Option Slot
  | [] => none
  | x :: t =>
    match wordDest x.word x.ext with
    | none => clash t
    | some d => match t.find? (fun y => wordDest y.word y.ext = some d) with
      | some y => some y
      | none => clash t

/-- TRET stands only beside empty slots and XNOPs (R342). -/
def Bundle.tretBad (b : Bundle) : Option Slot :=
  match b.slots.find? (fun s => wordClass s.word = 0 && s.word ≠ 0 && wordOp s.word = 0x58) with
  | none => none
  | some t => if b.slots.any (fun s => s.idx ≠ t.idx && s.word ≠ 0xC0000000 && s.word ≠ 0) then some t else none

/-- TRAPVAL of a slot (R112). -/
def slotVal (idx : Nat) (w : W32) : W64 := BitVec.ofNat 64 (w.toNat * 2 ^ 32 + idx)

/-- The slot that an illegal bundle's TRAPVAL names is the model's choice (log entry 42): the first beyond a class's limit, slot 0 for
a QUIET bit without its operation, the QUIET itself, the later of two slots with one destination. What follows are the decode checks of
R112: the cause and TRAPVAL of the trap taken. -/
def Bundle.decodeFault (b : Bundle) (priv kiosk : Bool) : Option (Nat × W64) :=
  let at' (cause : Nat) (s : Slot) : Option (Nat × W64) := some (cause, slotVal s.idx s.word)
  match b.excess with
  | some s => at' 1 s
  | none =>
    if b.quiet && b.quietSlot.isNone then some (1, slotVal 0 b.head) else
    match (if b.quiet then none else b.quietSlot) with
    | some s => at' 1 s
    | none =>
      match clash b.slots with
      | some s => at' 1 s
      | none =>
        if b.badHead then some (2, slotVal 0 b.head) else
        match b.slots.find? (fun s => s.dec.isNone || (match b.tretBad with | some t => t.idx = s.idx | none => false)
            || b.units.any (fun u => u.2.idx = s.idx && modeBars u.1 s.word s.ext)) with
        | some s => at' 2 s
        | none =>
          match (if priv then none else b.slots.find? (fun s => wordPrivileged s.word)) with
          | some s => at' 3 s
          | none =>
            match b.slots.find? (fun s => b.units.any (fun u => u.2.idx = s.idx && unitBars kiosk u.1 s.word)) with
            | some s => at' 2 s
            | none => none

/-! ### The slots of a bundle -/

/-- What running the slots gives: an issued bundle, a held bundle with what its waits ask for, or an end. -/
inductive Ran where
  | issued (i : Issue)
  | held (note : State → State)
  | stop (slot : Nat) (word : W32) (e : Stop)

/-- What the waits of a bundle's slots ask for, in slot order (13_inflight_record.md R319). -/
def allNotes (l : List (Nat × (State → State))) (s : State) : State :=
  ((List.range 4).flatMap (fun k => l.filter (fun e => e.1 = k))).foldl (fun s e => e.2 s) s

/-- Run the slots in unit order. A slot that waits holds the bundle; a trap or an abort of any slot prevails (log entry 12). -/
def runSlots : List (UnitId × Slot) → Issue → List (Nat × (State → State)) → Ran
  | [], i, [] => .issued i
  | [], i, w :: l => .held (fun s => allNotes (w :: l) (i.reserve s))
  | (u, s) :: t, i, w =>
    match s.dec with
    | none => runSlots t i w
    | some op =>
      match op { i with unit := u, slot := s.idx, word := s.word } with
      | .ok i' => runSlots t i' w
      | .error (.freeze f) => runSlots t i (w ++ [(s.idx, f)])
      | .error e => .stop s.idx s.word e

/-! ### The end of a bundle -/

/-- A wrap of level L (R45): counts, the steps as address updates, rotation. -/
def Core.wrap (c : Core) (l : Nat) : Core × List (Nat × W64) :=
  let t := Tbl.get .zero c.lstat l
  let newp := decide (t.icount ≠ 0)
  let t' := if newp then { t with icount := t.icount - 1 } else { t with epi := t.epi - 1 }
  let incs := ((List.range 16).filter (fun k => t.amask.getLsbD k)).map
    (fun k => (k, (Tbl.get 0 c.steps (16 * l + k)).signExtend 64))
  let c := { c with lstat := Tbl.set .zero c.lstat l t', wrapped := c.wrapped ||| BitVec.ofNat 6 (2 ^ l) }
  (if c.lctl.roten && decide (c.lctl.rotlvl.toNat = l) then c.rotate newp else c, incs)

/-- What the sequencer does at loop-buffer index `idx` from level `n - 1` outward (R45): the core, address updates, the index wrapped
to, and whether a level was left. As in the rule's pseudocode every level below the innermost active one is counted through. -/
def Core.sequence (c : Core) (idx : Nat) : Nat → Bool → Core × List (Nat × W64) × Option Nat × Bool
  | 0, ex => (c, [], none, ex)
  | l + 1, ex =>
    let t := Tbl.get .zero c.lstat l
    if t.fin.toNat ≠ idx then (c, [], none, ex)
    else if t.icount ≠ 0 ∨ t.epi ≠ 0 then
      let (c, incs) := c.wrap l
      (c, incs, some t.beg.toNat, ex)
    else
      Core.sequence { c with lctl := { c.lctl with lact := c.lctl.lact &&& ~~~ BitVec.ofNat 6 (2 ^ l) } } idx l true

/-- How many levels the sequencer looks at: up to the innermost active one. -/
def Core.levels (c : Core) : Nat := match innermost c.lctl.lact with | some l => l + 1 | none => 0

/-- Add the address updates (R43). -/
def Core.addIncs (c : Core) (l : List (Nat × W64)) : Core := l.foldl (fun c x => c.setA x.1 (c.getA x.1 + x.2)) c

/-- The request entries 96 to 99 of a bundle that issues or is abandoned are freed (R320; log entry 29). -/
def State.endRequests (s : State) (n : Nat) : State :=
  if (s.core n).ifr.all (fun e => e.1 < 96) then s else s.upd n (fun c => { c with ifr := c.ifr.filter (fun e => e.1 < 96) })

/-- A held bundle is abandoned: its requests go. -/
def State.abandon (s : State) (n : Nat) : State := (s.endRequests n).withdraw n

/-- Start a command in the lowest free entry; the payload of an XSEND lands 12 cycles later (08_transfer.md R232). -/
def State.startOne (s : State) (n : Nat) (e : IfrEntry) : State :=
  let k := (s.core n).freeSlot
  let s := s.allocate n k e
  match e.kind, e.payload with
  | 7, [v, dst] => { s with sends := s.sends ++ [⟨n, k, dst, e.opnd.toNat / 256 % 256, s.now + 12, BitVec.ofNat 1024 v⟩] }
  | _, _ => s

/-- Start the commands of a bundle in slot order (R319). -/
def startAll (s : State) (n : Nat) (l : List (Nat × IfrEntry)) : State :=
  let ordered := (List.range 4).flatMap (fun k => l.filter (fun e => e.1 = k))
  ordered.foldl (fun s e => s.startOne n e.2) s

/-- POS of a core (R311). -/
def Core.pos (c : Core) : Nat := c.cutEp * 2 ^ 17 + c.cutN.getD 0

/-- A core under a cut query stops after a quiet bundle; under a cut stop after one whose POS reaches M (R311, R312). -/
def Core.cutCheck (c : Core) (quiet : Bool) : Core :=
  match c.stop with
  | .cutQuery => if quiet && decide (c.run = .running) then { c with run := .stopped, stop := .none } else c
  | .cutStop m => if quiet && decide (c.run = .running) && decide (m ≤ c.pos) then { c with run := .stopped, stop := .none } else c
  | _ => c

/-- The sequencer at the end of a bundle that issued from the loop buffer and transferred nowhere: the core, the steps of its address
registers, the index wrapped to, whether a level was left. -/
def Issue.sequenced (i : Issue) : Core × List (Nat × W64) × Option Nat × Bool :=
  match i.pre.lbix, i.taken, i.loopAt with
  | some idx, none, none => i.core.sequence idx i.core.levels false
  | _, _, _ => (i.core, [], none, false)

/-- The loop-buffer index of address `t` when the bundle at `here` issues at index `idx` of a body of `n` bundles (R153). -/
def bodyIndex (here t : W64) (idx n : Nat) : Option Nat :=
  let d := (t - here + BitVec.ofNat 64 (16 * idx)).toNat
  if d % 16 = 0 ∧ d / 16 < n then some (d / 16) else none

/-- Where the next bundle comes from: the pc and the loop-buffer index. Issue that goes on through the body a LOOP loaded stays in the
loop buffer, by a taken transfer inside the body too (R144, R153; log entry 87). DESIGN CHOICE (log entry 115): a level that SWR has made
active may wrap to an index beyond the body that the last LOOP loaded; issue goes on there, with the bundle that memory holds. -/
def Issue.next (i : Issue) (c : Core) (back : Option Nat) : W64 × Option Nat :=
  let here := i.pre.pc
  match i.taken with
  | some t => (t, match i.pre.lbix with | some idx => bodyIndex here t idx c.body | none => none)
  | none =>
    match i.pre.lbix, i.loopAt with
    | _, some k => (here + 16, some k)
    | none, none => (here + 16, none)
    | some idx, none =>
      match back with
      | some b => (here - BitVec.ofNat 64 (16 * idx) + BitVec.ofNat 64 (16 * b), some b)
      | none => (here + 16, if idx + 1 < c.body then some (idx + 1) else none)

/-- The core goes on from a bundle: the sums of address updates, CLK, the next bundle's place, which of that bundle's requests are not
answered at once. -/
def Core.leave (c : Core) (incs : List (Nat × W64)) (next : W64 × Option Nat) (slow : BitVec 4) : Core :=
  { (c.addIncs incs).tick with slow := slow, pc := next.1, lbix := next.2, heldBundle := false, posted := [], bksup := false }

/-- The end of an issued bundle, in the order of R148: the sequencer, then results that fall due, then register writes of the
bundle, then the sums of address updates. -/
def Issue.finish (i : Issue) (quiet : Bool) : State :=
  let q := i.sequenced
  let next := i.next q.1 q.2.2.1
  let c := if i.taken.isSome || i.level || q.2.2.2 then q.1.invalidate else q.1
  let s := i.post (i.s.setCore i.n c.idleCycle)
  let s := s.upd i.n (fun c =>
    let c := c.leave (i.incs ++ q.2.1) next (Config.freeSlow i.n c.nextAt)
    i.final (if i.halted then { c with run := .halted } else c.cutCheck quiet))
  let s := startAll (s.endRequests i.n) i.n i.cmds
  match i.trapAfter with
  | none => s
  | some v => s.takeTrap i.n 0x11 v 0 next.1 next.2 false

/-- Time passes to the cycle in which the core may act, and the bundle takes one cycle (R24). -/
def State.spendCycle (s : State) (n : Nat) : State :=
  let t := max s.now (s.core n).nextAt
  { s with now := t }.upd n (fun c => { c with nextAt := t + 1 })

/-- A bundle held by a freeze condition (R30, R31): nothing of it takes effect; the frozen cycle is counted (R39). -/
def State.freezeBundle (s : State) (n : Nat) : State :=
  s.upd n (fun c => { c with heldBundle := true, frzcyc := if c.frzcyc = BitVec.allOnes 32 then c.frzcyc else c.frzcyc + 1 })

/-- What becomes of a step in the model. -/
abbrev Result := Host.Outcome State Fault Refusal

/-- A bundle reaches issue on core `n`, at a boundary where nothing else is to happen: decode checks, breakpoint, slots, end. A
bundle with BKPT that fails a decode check takes the decode fault (log entry 44). The beats that fall due in its cycle do so if it issues:
else the cycle is none (R28, R203). -/
def issueBundle (n : Nat) (b : Bundle) (s0 : State) : Result :=
  let before := s0.spendCycle n
  let s := before.upd n Core.settle
  let c := s.core n
  match b.decodeFault (s.ctx c.ctx).priv (isKiosk n) with
  | some (cause, val) => .next ((before.abandon n).preciseTrap n cause val 0)
  | none =>
    if b.bkpt && !c.bksup then .next (before.preciseTrap n 0x10 0 0) else
    let i : Issue := { n := n, pre := c, s := s, incs := [], post := id, taken := none, final := id, trapAfter := none, reserve := id, level := false,
                       halted := false, loopAt := none, cmds := [], rm := b.rm, unit := .s, slot := 0, word := 0 }
    match runSlots b.units i [] with
    | .issued i => .next (i.finish b.quiet)
    | .held note => .next (note (before.freezeBundle n))
    | .stop slot word e =>
      match e with
      | .trap cause addr => .next ((before.abandon n).preciseTrap n cause (slotVal slot word) addr)
      | .stuck t =>
        if c.twin && decide (c.reports ≠ []) then .next ((before.abandon n).takeReport n)
        else .next ((before.abandon n).preciseTrap n 0x12 (BitVec.ofNat 64 t) 0)
      | .abort va => .next (before.abortBy n va)
      | .fault f => .fault f
      | .freeze note => .next (note (before.freezeBundle n))

/-- A boundary of core `n`: a pending report is taken before the next bundle (R335, R344). A core that resumed sends its record's
entries again before any bundle (13_inflight_record.md R330). -/
def boundary (n : Nat) (k : State → Result) (s : State) : Result :=
  let c := s.core n
  if c.run ≠ .running ∨ c.replay then .fault (.eventCannotArise "BUNDLE_ISSUE")
  else if c.twin && decide (c.reports ≠ []) && !c.heldBundle then .next ((s.spendCycle n).takeReport n)
  else k s

/-! ### One operation alone in its bundle -/

/-- The slot the assembler gives an operation that stands alone (R123): slot 0, slot 1 behind an empty slot for S opcodes above 0x3F
and behind XNOP for X1-only operations, slot 1 after a header when one is needed. -/
def soloSlot (w : W32) (hdr : Bool) : Nat :=
  if hdr || (wordClass w = 0 && decide (0x40 ≤ wordOp w)) || (wordClass w = 3 && x1Only (wordOp w)) then 1 else 0

/-- The bundle of one operation. -/
def soloBundle (i : SlotInstr) (op : Op) : Bundle :=
  let (w, ext) := i.enc
  let quiet := decide (wordClass w = 0 ∧ wordOp w = 0x51)
  let hdr := wordNeedsHeader w ext i.brm
  let idx := (if hdr && wordClass w = 3 && x1Only (wordOp w) then 2 else soloSlot w hdr)
  let lead : List Slot := if wordClass w = 3 && x1Only (wordOp w) then [⟨idx - 1, 0xC0000000, 0, some .ok⟩] else []
  { head := 0, quiet := quiet, bkpt := false, badHead := false, rm := i.brm,
    slots := lead ++ [⟨idx, w, ext, if i.ok then some op else none⟩] }

/-- Core `s.cur` meets a bundle that holds operation `i` alone. -/
def issueSolo (i : SlotInstr) (op : Op) (s : State) : Result := boundary s.cur (issueBundle s.cur (soloBundle i op)) s

end Sys2Proof.Machine
end

