-- ==== Sys2Proof/Machine/Scalar.lean ====
section
/-! DEFINITION. Integer, address, compare and predicate operations (05_scalar_control.md R126 to R135). -/

namespace Sys2Proof.Machine

/-! ### Shared forms -/

/-- A result to g[d], or to the latch alone under nil (R38, R107). -/
def Issue.toG (i : Issue) (o : RR) (v : W64) (lat : Nat) : Issue := i.result (gFile o.dnil) o.d.toNat (vec64 v) lat

/-- An operation on two g sources with a g result (R128). -/
def Issue.alu (i : Issue) (o : RR) (lat : Nat) (f : W64 → W64 → W64) : Except Stop Issue := do
  let (x, y, i) ← i.rrG o
  .ok (i.toG o (f x y) lat)

/-- An operation on one g source with a g result. -/
def Issue.alu1 (i : Issue) (o : RR) (lat : Nat) (f : W64 → W64) : Except Stop Issue := do
  let (x, i) ← i.rrG1 o
  .ok (i.toG o (f x) lat)

/-- An operation on a g source and an immediate; the 9-bit field as extended by R105. -/
def Issue.aluImm (i : Issue) (o : RI) (f : W64 → W64) : Except Stop Issue := do
  let (x, i) ← i.source 0 (sm1 o.sm1) .g o.s1.toNat
  .ok (i.resultG o.d.toNat (f (x.setWidth 64)) 1)

/-- A compare: p[d] and the latch receive 0 or 1 (R126, R134). -/
def Issue.cmp (i : Issue) (o : RR) (k : Cond) : Except Stop Issue := do
  let (x, y, i) ← i.rrG o
  .ok (i.result (if o.dnil then .latch else .p) o.d.toNat (if k.holds x y then 1 else 0) 1)

/-- An operation on predicates (R135). -/
def Issue.predOp (i : Issue) (o : RR) (f : Bool → Bool → Bool) : Issue :=
  i.result (if o.dnil then .latch else .p) o.d.toNat (if f (i.pre.getP o.s1.toNat) (i.pre.getP o.s2.toNat) then 1 else 0) 1

/-- A result to a[d] (R132). -/
def Issue.toA (i : Issue) (o : RR) (v : W64) : Issue := i.result (if o.dnil then .latch else .a) o.d.toNat (vec64 v) 1

/-- Shift amount y[5:0] (R129). -/
def shamt (y : W64) : Nat := y.toNat % 64

/-- Quotient and remainder of R130 on the values the operands are read as. -/
def divQ (x y : Int) : Int := if y = 0 then -1 else Int.tdiv x y
def divR (x y : Int) : Int := if y = 0 then x else Int.tmod x y

def w64 (x : Int) : W64 := BitVec.ofInt 64 x

/-! ### Integer operations (R128 Table 1) -/

/-- ADD (R128): x + y. -/
def opAdd (g : Guard) (o : RR) : Op := guarded g none (fun i => i.alu o 1 (fun x y => x + y))

/-- `ADD` alone in its bundle. -/
def execAdd (g : Guard) (o : RR) (s : State) : Result := issueSolo (.s (.add g o)) (opAdd g o) s

/-- SUB (R128): x − y. -/
def opSub (g : Guard) (o : RR) : Op := guarded g none (fun i => i.alu o 1 (fun x y => x - y))

/-- `SUB` alone in its bundle. -/
def execSub (g : Guard) (o : RR) (s : State) : Result := issueSolo (.s (.sub g o)) (opSub g o) s

/-- ADDI (R128, R129): x plus a signed 9-bit immediate. -/
def opAddi (g : Guard) (o : RI) : Op := guarded g none (fun i => i.aluImm o (fun x => x + o.imm.signExtend 64))

/-- `ADDI` alone in its bundle. -/
def execAddi (g : Guard) (o : RI) (s : State) : Result := issueSolo (.s (.addi g o)) (opAddi g o) s

/-- MUL (R128), latency 3. -/
def opMul (g : Guard) (o : RR) : Op := guarded g none (fun i => i.alu o 3 (fun x y => x * y))

/-- `MUL` alone in its bundle. -/
def execMul (g : Guard) (o : RR) (s : State) : Result := issueSolo (.s (.mul g o)) (opMul g o) s

/-- MULH (R128): bits [127:64] of the signed product. -/
def opMulh (g : Guard) (o : RR) : Op := guarded g none (fun i => i.alu o 3 (fun x y => w64 (x.toInt * y.toInt / 2 ^ 64)))

/-- `MULH` alone in its bundle. -/
def execMulh (g : Guard) (o : RR) (s : State) : Result := issueSolo (.s (.mulh g o)) (opMulh g o) s

/-- MULHN (R128): bits [127:64] of the unsigned product. -/
def opMulhn (g : Guard) (o : RR) : Op := guarded g none (fun i => i.alu o 3 (fun x y => BitVec.ofNat 64 (x.toNat * y.toNat / 2 ^ 64)))

/-- `MULHN` alone in its bundle. -/
def execMulhn (g : Guard) (o : RR) (s : State) : Result := issueSolo (.s (.mulhn g o)) (opMulhn g o) s

/-- DIV (R130), signed, latency 20. -/
def opDiv (g : Guard) (o : RR) : Op := guarded g none (fun i => i.alu o 20 (fun x y => w64 (divQ x.toInt y.toInt)))

/-- `DIV` alone in its bundle. -/
def execDiv (g : Guard) (o : RR) (s : State) : Result := issueSolo (.s (.div g o)) (opDiv g o) s

/-- DIVN (R130), unsigned. -/
def opDivn (g : Guard) (o : RR) : Op := guarded g none (fun i => i.alu o 20 (fun x y => w64 (divQ x.toNat y.toNat)))

/-- `DIVN` alone in its bundle. -/
def execDivn (g : Guard) (o : RR) (s : State) : Result := issueSolo (.s (.divn g o)) (opDivn g o) s

/-- REM (R130), signed. -/
def opRem (g : Guard) (o : RR) : Op := guarded g none (fun i => i.alu o 20 (fun x y => w64 (divR x.toInt y.toInt)))

/-- `REM` alone in its bundle. -/
def execRem (g : Guard) (o : RR) (s : State) : Result := issueSolo (.s (.rem g o)) (opRem g o) s

/-- REMN (R130), unsigned. -/
def opRemn (g : Guard) (o : RR) : Op := guarded g none (fun i => i.alu o 20 (fun x y => w64 (divR x.toNat y.toNat)))

/-- `REMN` alone in its bundle. -/
def execRemn (g : Guard) (o : RR) (s : State) : Result := issueSolo (.s (.remn g o)) (opRemn g o) s

/-- AND (R128). -/
def opAnd (g : Guard) (o : RR) : Op := guarded g none (fun i => i.alu o 1 (fun x y => x &&& y))

/-- `AND` alone in its bundle. -/
def execAnd (g : Guard) (o : RR) (s : State) : Result := issueSolo (.s (.and g o)) (opAnd g o) s

/-- OR (R128). -/
def opOr (g : Guard) (o : RR) : Op := guarded g none (fun i => i.alu o 1 (fun x y => x ||| y))

/-- `OR` alone in its bundle. -/
def execOr (g : Guard) (o : RR) (s : State) : Result := issueSolo (.s (.or g o)) (opOr g o) s

/-- XOR (R128). -/
def opXor (g : Guard) (o : RR) : Op := guarded g none (fun i => i.alu o 1 (fun x y => x ^^^ y))

/-- `XOR` alone in its bundle. -/
def execXor (g : Guard) (o : RR) (s : State) : Result := issueSolo (.s (.xor g o)) (opXor g o) s

/-- ANDN (R128): x and not y. -/
def opAndn (g : Guard) (o : RR) : Op := guarded g none (fun i => i.alu o 1 (fun x y => x &&& ~~~ y))

/-- `ANDN` alone in its bundle. -/
def execAndn (g : Guard) (o : RR) (s : State) : Result := issueSolo (.s (.andn g o)) (opAndn g o) s

/-- SHL (R128, R129). -/
def opShl (g : Guard) (o : RR) : Op := guarded g none (fun i => i.alu o 1 (fun x y => x <<< shamt y))

/-- `SHL` alone in its bundle. -/
def execShl (g : Guard) (o : RR) (s : State) : Result := issueSolo (.s (.shl g o)) (opShl g o) s

/-- SHR (R128, R129). -/
def opShr (g : Guard) (o : RR) : Op := guarded g none (fun i => i.alu o 1 (fun x y => x >>> shamt y))

/-- `SHR` alone in its bundle. -/
def execShr (g : Guard) (o : RR) (s : State) : Result := issueSolo (.s (.shr g o)) (opShr g o) s

/-- SAR (R128, R129). -/
def opSar (g : Guard) (o : RR) : Op := guarded g none (fun i => i.alu o 1 (fun x y => x.sshiftRight (shamt y)))

/-- `SAR` alone in its bundle. -/
def execSar (g : Guard) (o : RR) (s : State) : Result := issueSolo (.s (.sar g o)) (opSar g o) s

/-- SHLI (R128): an immediate of 0 to 63. -/
def opShli (g : Guard) (o : RI) : Op := guarded g none (fun i => i.aluImm o (fun x => x <<< o.imm.toNat))

/-- `SHLI` alone in its bundle. -/
def execShli (g : Guard) (o : RI) (s : State) : Result := issueSolo (.s (.shli g o)) (opShli g o) s

/-- SHRI (R128). -/
def opShri (g : Guard) (o : RI) : Op := guarded g none (fun i => i.aluImm o (fun x => x >>> o.imm.toNat))

/-- `SHRI` alone in its bundle. -/
def execShri (g : Guard) (o : RI) (s : State) : Result := issueSolo (.s (.shri g o)) (opShri g o) s

/-- SARI (R128). -/
def opSari (g : Guard) (o : RI) : Op := guarded g none (fun i => i.aluImm o (fun x => x.sshiftRight o.imm.toNat))

/-- `SARI` alone in its bundle. -/
def execSari (g : Guard) (o : RI) (s : State) : Result := issueSolo (.s (.sari g o)) (opSari g o) s

/-- ROT (R128): left by y[5:0]. -/
def opRot (g : Guard) (o : RR) : Op := guarded g none (fun i => i.alu o 1 (fun x y => x.rotateLeft (shamt y)))

/-- `ROT` alone in its bundle. -/
def execRot (g : Guard) (o : RR) (s : State) : Result := issueSolo (.s (.rot g o)) (opRot g o) s

/-- CLZ (R128): leading zero bits, 0 to 64. -/
def opClz (g : Guard) (o : RR) : Op := guarded g none (fun i => i.alu1 o 1 (fun x => BitVec.ofNat 64 (clzN 64 x.toNat)))

/-- `CLZ` alone in its bundle. -/
def execClz (g : Guard) (o : RR) (s : State) : Result := issueSolo (.s (.clz g o)) (opClz g o) s

/-- POPC (R128). -/
def opPopc (g : Guard) (o : RR) : Op := guarded g none (fun i => i.alu1 o 1 (fun x => BitVec.ofNat 64 (popcN 64 x.toNat)))

/-- `POPC` alone in its bundle. -/
def execPopc (g : Guard) (o : RR) (s : State) : Result := issueSolo (.s (.popc g o)) (opPopc g o) s

/-- MIN (R128), signed. -/
def opMin (g : Guard) (o : RR) : Op := guarded g none (fun i => i.alu o 1 (fun x y => if x.toInt ≤ y.toInt then x else y))

/-- `MIN` alone in its bundle. -/
def execMin (g : Guard) (o : RR) (s : State) : Result := issueSolo (.s (.min g o)) (opMin g o) s

/-- MAX (R128), signed. -/
def opMax (g : Guard) (o : RR) : Op := guarded g none (fun i => i.alu o 1 (fun x y => if x.toInt ≤ y.toInt then y else x))

/-- `MAX` alone in its bundle. -/
def execMax (g : Guard) (o : RR) (s : State) : Result := issueSolo (.s (.max g o)) (opMax g o) s

/-- MINN (R128), unsigned. -/
def opMinn (g : Guard) (o : RR) : Op := guarded g none (fun i => i.alu o 1 (fun x y => if x.toNat ≤ y.toNat then x else y))

/-- `MINN` alone in its bundle. -/
def execMinn (g : Guard) (o : RR) (s : State) : Result := issueSolo (.s (.minn g o)) (opMinn g o) s

/-- MAXN (R128), unsigned. -/
def opMaxn (g : Guard) (o : RR) : Op := guarded g none (fun i => i.alu o 1 (fun x y => if x.toNat ≤ y.toNat then y else x))

/-- `MAXN` alone in its bundle. -/
def execMaxn (g : Guard) (o : RR) (s : State) : Result := issueSolo (.s (.maxn g o)) (opMaxn g o) s


/-! ### Selection and immediates -/

/-- SEL (R128):  x if p[q] is true, else y. -/
def opSel (g : Guard) (o : RRR) : Op :=
  guarded g none (fun i => .ok (i.resultG o.d.toNat (if i.pre.getP o.s3.toNat then i.pre.getG o.s1.toNat else i.pre.getG o.s2.toNat) 1))

/-- `SEL` alone in its bundle. -/
def execSel (g : Guard) (o : RRR) (s : State) : Result := issueSolo (.s (.sel g o)) (opSel g o) s

/-- LI (R131): the sign-extended immediate. -/
def opLi (g : Guard) (o : I12) : Op := guarded g none (fun i => .ok (i.resultG o.d.toNat (o.imm.signExtend 64) 1))

/-- `LI` alone in its bundle. -/
def execLi (g : Guard) (o : I12) (s : State) : Result := issueSolo (.s (.li g o)) (opLi g o) s

/-- LIH (R131): (g[d] << 16) or imm. -/
def opLih (g : Guard) (o : I12) : Op :=
  guarded g none (fun i => .ok (i.resultG o.d.toNat ((i.pre.getG o.d.toNat <<< 16) ||| o.imm.setWidth 64) 1))

/-- `LIH` alone in its bundle. -/
def execLih (g : Guard) (o : I12) (s : State) : Result := issueSolo (.s (.lih g o)) (opLih g o) s


/-! ### Address operations (R132) -/

/-- AADD (R132): a[s1] + g[s2]. -/
def opAadd (g : Guard) (o : RR) : Op :=
  guarded g none (fun i => do
  let (y, i) ← i.rrG2 o
  .ok (i.toA o (i.pre.getA o.s1.toNat + y)))

/-- `AADD` alone in its bundle. -/
def execAadd (g : Guard) (o : RR) (s : State) : Result := issueSolo (.s (.aadd g o)) (opAadd g o) s

/-- AMOV ad, gs (R132). -/
def opAmovAG (g : Guard) (o : RR) : Op :=
  guarded g none (fun i => do
  let (x, i) ← i.rrG1 o
  .ok (i.toA o x))

/-- `AMOV_A_G` alone in its bundle. -/
def execAmovAG (g : Guard) (o : RR) (s : State) : Result := issueSolo (.s (.amovAG g o)) (opAmovAG g o) s

/-- AMOV gd, as (R132). -/
def opAmovGA (g : Guard) (o : RR) : Op := guarded g none (fun i => .ok (i.toG o (i.pre.getA o.s1.toNat) 1))

/-- `AMOV_G_A` alone in its bundle. -/
def execAmovGA (g : Guard) (o : RR) (s : State) : Result := issueSolo (.s (.amovGA g o)) (opAmovGA g o) s

/-- AMOV ad, as (R132). -/
def opAmovAA (g : Guard) (o : RR) : Op := guarded g none (fun i => .ok (i.toA o (i.pre.getA o.s1.toNat)))

/-- `AMOV_A_A` alone in its bundle. -/
def execAmovAA (g : Guard) (o : RR) (s : State) : Result := issueSolo (.s (.amovAA g o)) (opAmovAA g o) s

/-- ASTR (R132): the stride of a[d]; it has no result. -/
def opAstr (g : Guard) (o : RR) : Op :=
  guarded g none (fun i => do
  let (x, i) ← i.rrG1 o
  .ok (i.afterCore (fun c => c.setStride o.d.toNat x)))

/-- `ASTR` alone in its bundle. -/
def execAstr (g : Guard) (o : RR) (s : State) : Result := issueSolo (.s (.astr g o)) (opAstr g o) s


/-! ### Compare and predicate operations (R134, R135) -/

/-- CMP.eq (R134). -/
def opCmpEq (g : Guard) (o : RR) : Op := guarded g none (fun i => i.cmp o .eq)

/-- `CMP_EQ` alone in its bundle. -/
def execCmpEq (g : Guard) (o : RR) (s : State) : Result := issueSolo (.s (.cmpEq g o)) (opCmpEq g o) s

/-- CMP.ne (R134). -/
def opCmpNe (g : Guard) (o : RR) : Op := guarded g none (fun i => i.cmp o .ne)

/-- `CMP_NE` alone in its bundle. -/
def execCmpNe (g : Guard) (o : RR) (s : State) : Result := issueSolo (.s (.cmpNe g o)) (opCmpNe g o) s

/-- CMP.lt (R134). -/
def opCmpLt (g : Guard) (o : RR) : Op := guarded g none (fun i => i.cmp o .lt)

/-- `CMP_LT` alone in its bundle. -/
def execCmpLt (g : Guard) (o : RR) (s : State) : Result := issueSolo (.s (.cmpLt g o)) (opCmpLt g o) s

/-- CMP.le (R134). -/
def opCmpLe (g : Guard) (o : RR) : Op := guarded g none (fun i => i.cmp o .le)

/-- `CMP_LE` alone in its bundle. -/
def execCmpLe (g : Guard) (o : RR) (s : State) : Result := issueSolo (.s (.cmpLe g o)) (opCmpLe g o) s

/-- CMP.gt (R134). -/
def opCmpGt (g : Guard) (o : RR) : Op := guarded g none (fun i => i.cmp o .gt)

/-- `CMP_GT` alone in its bundle. -/
def execCmpGt (g : Guard) (o : RR) (s : State) : Result := issueSolo (.s (.cmpGt g o)) (opCmpGt g o) s

/-- CMP.ge (R134). -/
def opCmpGe (g : Guard) (o : RR) : Op := guarded g none (fun i => i.cmp o .ge)

/-- `CMP_GE` alone in its bundle. -/
def execCmpGe (g : Guard) (o : RR) (s : State) : Result := issueSolo (.s (.cmpGe g o)) (opCmpGe g o) s

/-- CMP.ltn (R134). -/
def opCmpLtn (g : Guard) (o : RR) : Op := guarded g none (fun i => i.cmp o .ltn)

/-- `CMP_LTN` alone in its bundle. -/
def execCmpLtn (g : Guard) (o : RR) (s : State) : Result := issueSolo (.s (.cmpLtn g o)) (opCmpLtn g o) s

/-- CMP.len (R134). -/
def opCmpLen (g : Guard) (o : RR) : Op := guarded g none (fun i => i.cmp o .len)

/-- `CMP_LEN` alone in its bundle. -/
def execCmpLen (g : Guard) (o : RR) (s : State) : Result := issueSolo (.s (.cmpLen g o)) (opCmpLen g o) s

/-- CMP.gtn (R134). -/
def opCmpGtn (g : Guard) (o : RR) : Op := guarded g none (fun i => i.cmp o .gtn)

/-- `CMP_GTN` alone in its bundle. -/
def execCmpGtn (g : Guard) (o : RR) (s : State) : Result := issueSolo (.s (.cmpGtn g o)) (opCmpGtn g o) s

/-- CMP.gen (R134). -/
def opCmpGen (g : Guard) (o : RR) : Op := guarded g none (fun i => i.cmp o .gen)

/-- `CMP_GEN` alone in its bundle. -/
def execCmpGen (g : Guard) (o : RR) (s : State) : Result := issueSolo (.s (.cmpGen g o)) (opCmpGen g o) s

/-- PAND (R135). -/
def opPand (g : Guard) (o : RR) : Op := guarded g none (fun i => .ok (i.predOp o (fun x y => x && y)))

/-- `PAND` alone in its bundle. -/
def execPand (g : Guard) (o : RR) (s : State) : Result := issueSolo (.s (.pand g o)) (opPand g o) s

/-- POR (R135). -/
def opPor (g : Guard) (o : RR) : Op := guarded g none (fun i => .ok (i.predOp o (fun x y => x || y)))

/-- `POR` alone in its bundle. -/
def execPor (g : Guard) (o : RR) (s : State) : Result := issueSolo (.s (.por g o)) (opPor g o) s

/-- PXOR (R135). -/
def opPxor (g : Guard) (o : RR) : Op := guarded g none (fun i => .ok (i.predOp o (fun x y => x != y)))

/-- `PXOR` alone in its bundle. -/
def execPxor (g : Guard) (o : RR) (s : State) : Result := issueSolo (.s (.pxor g o)) (opPxor g o) s

/-- PNOT (R135). -/
def opPnot (g : Guard) (o : RR) : Op := guarded g none (fun i => .ok (i.predOp o (fun x _ => !x)))

/-- `PNOT` alone in its bundle. -/
def execPnot (g : Guard) (o : RR) (s : State) : Result := issueSolo (.s (.pnot g o)) (opPnot g o) s

/-- PMOV (R135). -/
def opPmov (g : Guard) (o : RR) : Op := guarded g none (fun i => .ok (i.predOp o (fun x _ => x)))

/-- `PMOV` alone in its bundle. -/
def execPmov (g : Guard) (o : RR) (s : State) : Result := issueSolo (.s (.pmov g o)) (opPmov g o) s


end Sys2Proof.Machine
end

