-- ==== Sys2Proof/Machine/Access.lean ====
section
/-! DEFINITION. Scalar loads and stores (05_scalar_control.md R136 to R139). -/

namespace Sys2Proof.Machine

/-- A load of `size` bytes to g, latency 4 (R137, R138); `ext` makes the 64-bit value of the bytes. -/
def Issue.scalarLoad (i : Issue) (o : MEM) (size : Nat) (ext : Nat → W64) : Except Stop Issue := do
  let va := i.address o 11 size
  match ← i.examine va size permSL false true with
  | .mem pa _ =>
    let (v, i) ← i.loadAt va pa size permSL
    .ok (i.resultG o.data.toNat (ext v) 4)
  | .dev d off =>
    let (v, s) := i.s.devRead i.n d off size
    .ok ({ i with s := s }.resultG o.data.toNat (ext v) 4)

/-- A store of the low `size` bytes of g (R137). -/
def Issue.scalarStore (i : Issue) (o : MEM) (size : Nat) : Except Stop Issue := do
  let va := i.address o 11 size
  let v := (i.pre.getG o.data.toNat).toNat % 2 ^ (8 * size)
  match ← i.examine va size permSS true true with
  | .mem pa repl =>
    i.lineHere
    i.storeAt va pa size v repl
  | .dev d off => .ok { i with s := i.s.devWrite d off size v }

/-- LD.i8 (R136): the byte, sign-extended. -/
def opLdI8 (g : Guard) (o : MEM) : Op := guarded g (incOf o.a o.am) (fun i => i.scalarLoad o 1 (fun v => w64 (sext v 8)))

/-- `LD_I8` alone in its bundle. -/
def execLdI8 (g : Guard) (o : MEM) (s : State) : Result := issueSolo (.s (.ldI8 g o)) (opLdI8 g o) s

/-- LD.n8 (R136): the byte, zero-extended. -/
def opLdN8 (g : Guard) (o : MEM) : Op := guarded g (incOf o.a o.am) (fun i => i.scalarLoad o 1 (fun v => BitVec.ofNat 64 v))

/-- `LD_N8` alone in its bundle. -/
def execLdN8 (g : Guard) (o : MEM) (s : State) : Result := issueSolo (.s (.ldN8 g o)) (opLdN8 g o) s

/-- LD.i16 (R136). -/
def opLdI16 (g : Guard) (o : MEM) : Op := guarded g (incOf o.a o.am) (fun i => i.scalarLoad o 2 (fun v => w64 (sext v 16)))

/-- `LD_I16` alone in its bundle. -/
def execLdI16 (g : Guard) (o : MEM) (s : State) : Result := issueSolo (.s (.ldI16 g o)) (opLdI16 g o) s

/-- LD.n16 (R136). -/
def opLdN16 (g : Guard) (o : MEM) : Op := guarded g (incOf o.a o.am) (fun i => i.scalarLoad o 2 (fun v => BitVec.ofNat 64 v))

/-- `LD_N16` alone in its bundle. -/
def execLdN16 (g : Guard) (o : MEM) (s : State) : Result := issueSolo (.s (.ldN16 g o)) (opLdN16 g o) s

/-- LD.i32 (R136). -/
def opLdI32 (g : Guard) (o : MEM) : Op := guarded g (incOf o.a o.am) (fun i => i.scalarLoad o 4 (fun v => w64 (sext v 32)))

/-- `LD_I32` alone in its bundle. -/
def execLdI32 (g : Guard) (o : MEM) (s : State) : Result := issueSolo (.s (.ldI32 g o)) (opLdI32 g o) s

/-- LD.n32 (R136). -/
def opLdN32 (g : Guard) (o : MEM) : Op := guarded g (incOf o.a o.am) (fun i => i.scalarLoad o 4 (fun v => BitVec.ofNat 64 v))

/-- `LD_N32` alone in its bundle. -/
def execLdN32 (g : Guard) (o : MEM) (s : State) : Result := issueSolo (.s (.ldN32 g o)) (opLdN32 g o) s

/-- LD.64 (R136). -/
def opLd64 (g : Guard) (o : MEM) : Op := guarded g (incOf o.a o.am) (fun i => i.scalarLoad o 8 (fun v => BitVec.ofNat 64 v))

/-- `LD_64` alone in its bundle. -/
def execLd64 (g : Guard) (o : MEM) (s : State) : Result := issueSolo (.s (.ld64 g o)) (opLd64 g o) s

/-- ST.8 (R136). -/
def opSt8 (g : Guard) (o : MEM) : Op := guarded g (incOf o.a o.am) (fun i => i.scalarStore o 1)

/-- `ST_8` alone in its bundle. -/
def execSt8 (g : Guard) (o : MEM) (s : State) : Result := issueSolo (.s (.st8 g o)) (opSt8 g o) s

/-- ST.16 (R136). -/
def opSt16 (g : Guard) (o : MEM) : Op := guarded g (incOf o.a o.am) (fun i => i.scalarStore o 2)

/-- `ST_16` alone in its bundle. -/
def execSt16 (g : Guard) (o : MEM) (s : State) : Result := issueSolo (.s (.st16 g o)) (opSt16 g o) s

/-- ST.32 (R136). -/
def opSt32 (g : Guard) (o : MEM) : Op := guarded g (incOf o.a o.am) (fun i => i.scalarStore o 4)

/-- `ST_32` alone in its bundle. -/
def execSt32 (g : Guard) (o : MEM) (s : State) : Result := issueSolo (.s (.st32 g o)) (opSt32 g o) s

/-- ST.64 (R136). -/
def opSt64 (g : Guard) (o : MEM) : Op := guarded g (incOf o.a o.am) (fun i => i.scalarStore o 8)

/-- `ST_64` alone in its bundle. -/
def execSt64 (g : Guard) (o : MEM) (s : State) : Result := issueSolo (.s (.st64 g o)) (opSt64 g o) s


end Sys2Proof.Machine
end

