-- ==== Sys2Proof/Machine/Lanes.lean ====
section
/-! DEFINITION. Shared forms of the vector operations (06_vector.md R156 to R162): v sources and destinations, drawn words, float
lanes, masks, the special operands of R166 and the conversions of R171. -/

namespace Sys2Proof.Machine

/-! ### Sources, destinations, words -/

/-- A result to v[d], or to the latch alone under nil. -/
def Issue.toV (i : Issue) (d : Nat) (dnil : Bool) (x : Vec) (lat : Nat) : Except Stop Issue := do
  let (f, r) ← i.destV d dnil
  .ok (i.result f r x lat)

/-- v[d] of an operation that keeps or adds to its destination (R159): zero under nil. -/
def Issue.kept (i : Issue) (d : Nat) (dnil : Bool) : Except Stop Vec := if dnil then .ok 0 else i.readReg .v d

/-- First v source of an RR operation. -/
def Issue.v1 (i : Issue) (o : RR) : Except Stop (Vec × Issue) := i.source 0 (smode o.mode).1 .v o.s1.toNat

/-- Take `n` words from the generator, a whole number of blocks (R89). -/
def Issue.words (i : Issue) (n : Nat) : List Nat × Issue :=
  let c := i.core
  let blocks := (n + 3) / 4
  (rngBlocks c.rngK.toNat blocks c.rngC.toNat, i.upd (fun c => { c with rngC := c.rngC + BitVec.ofNat 128 blocks }))

/-- The words of a stochastic rounding, one for each of `n` elements (R79); none in the other modes. -/
def Issue.roundWords (i : Issue) (rm : RMode) (n : Nat) : List Nat × Issue := if rm = .rs then i.words n else ([], i)

/-- An operation on two v sources whose lanes of width `w` take a drawn word each under the stochastic mode. -/
def Issue.vec2 (i : Issue) (o : RR) (rm : RMode) (w lat : Nat) (f : Nat → Nat → Nat → Nat) : Except Stop Issue := do
  let (x, y, i) ← i.rrSources o .v .v
  let (ws, i) := i.roundWords rm (1024 / w)
  i.toV o.d.toNat o.dnil (mapLanes w (fun k => f (lane x w k) (lane y w k) (nth 0 ws k))) lat

/-- The same on one source. -/
def Issue.vec1 (i : Issue) (o : RR) (rm : RMode) (w lat : Nat) (f : Nat → Nat → Nat) : Except Stop Issue := do
  let (x, i) ← i.v1 o
  let (ws, i) := i.roundWords rm (1024 / w)
  i.toV o.d.toNat o.dnil (mapLanes w (fun k => f (lane x w k) (nth 0 ws k))) lat

/-- A float operation on two sources (R161): one rounding of an exact sum. -/
def Issue.vecSum (i : Issue) (o : RR) (rm : RMode) (f : Fmt) (g : FVal → FVal → Sum) : Except Stop Issue :=
  i.vec2 o rm f.w 4 (fun x y u => roundSum f rm u (g (f.val x) (f.val y)))

/-- A fused operation (R161), which reads v[d] lane by lane. -/
def Issue.vecFma (i : Issue) (o : RR) (rm : RMode) (f : Fmt) (g : FVal → FVal → FVal → Sum) : Except Stop Issue := do
  let c ← i.readReg .v o.d.toNat
  let (x, y, i) ← i.rrSources o .v .v
  let (ws, i) := i.roundWords rm (1024 / f.w)
  i.toV o.d.toNat false
    (mapLanes f.w (fun k => roundSum f rm (nth 0 ws k) (g (f.val (lane x f.w k)) (f.val (lane y f.w k)) (f.val (lane c f.w k))))) 4

/-! ### Order of floats -/

/-- a < b among numbers, by value. -/
def FVal.lt (a b : FVal) : Bool :=
  match a, b with
  | .nan, _ => false
  | _, .nan => false
  | .inf n, .inf m => n && !m
  | .inf n, .fin _ _ _ => n
  | .fin _ _ _, .inf m => !m
  | .fin _ _ _, .fin _ _ _ => Dy.lt a.dy b.dy

/-- Equal by value; a NaN equals nothing. -/
def FVal.eqv (a b : FVal) : Bool := !a.isNan && !b.isNan && !a.lt b && !b.lt a

/-- VMIN and VMAX on patterns (R162): −0 below +0; a NaN gives way. -/
def fminmax (f : Fmt) (isMax : Bool) (x y : Nat) : Nat :=
  let a := f.val x
  let b := f.val y
  if a.isNan then (if b.isNan then f.nan else y)
  else if b.isNan then x
  else
    let below := a.lt b || (a.isZero && b.isZero && a.neg && !b.neg)
    if below != isMax then x else y

/-- Float comparison (R168): a NaN makes every condition false but ne. -/
def fcond (k : Nat) (a b : FVal) : Bool :=
  match k with
  | 0 => a.eqv b
  | 1 => !a.eqv b
  | 2 => a.lt b
  | 3 => a.lt b || a.eqv b
  | 4 => b.lt a
  | _ => b.lt a || a.eqv b

/-- Integer comparison. -/
def icond (k : Nat) (a b : Int) : Bool :=
  match k with
  | 0 => decide (a = b)
  | 1 => decide (a ≠ b)
  | 2 => decide (a < b)
  | 3 => decide (a ≤ b)
  | 4 => decide (b < a)
  | _ => decide (b ≤ a)

/-! ### Division, roots and transcendentals (R165, R166) -/

/-- VDIV. -/
def fdiv (f : Fmt) (rm : RMode) (u : Nat) (a b : FVal) : Nat :=
  let neg := a.neg != b.neg
  if a.isNan || b.isNan then f.nan
  else if a.isInf then (if b.isInf then f.nan else f.inf neg)
  else if b.isInf then f.zero neg
  else if b.isZero then (if a.isZero then f.nan else f.inf neg)
  else if a.isZero then f.zero neg
  else roundQuot f rm u a.dy b.dy

/-- Numerator and denominator of a positive dyadic. -/
def Dy.frac (d : Dy) : Nat × Nat :=
  if d.exp ≥ 0 then (d.num.natAbs * 2 ^ d.exp.toNat, 1) else (d.num.natAbs, 2 ^ (-d.exp).toNat)

/-- VRCP. -/
def frcp (f : Fmt) (rm : RMode) (u : Nat) (a : FVal) : Nat := fdiv f rm u (.fin false 1 0) a

/-- VRSQ. -/
def frsq (f : Fmt) (rm : RMode) (u : Nat) (a : FVal) : Nat :=
  if a.isNan then f.nan
  else if a.isZero then f.inf a.neg
  else if a.neg then f.nan
  else if a.isInf then f.zero false
  else let (n, d) := a.dy.frac; roundPos f rm u false (Pos.rsqrtRatio n d)

/-- VSQRT. -/
def fsqrt (f : Fmt) (rm : RMode) (u : Nat) (a : FVal) : Nat :=
  if a.isNan then f.nan
  else if a.isZero then f.zero a.neg
  else if a.neg then f.nan
  else if a.isInf then f.inf false
  else let (n, d) := a.dy.frac; roundPos f rm u false (Pos.sqrtRatio n d)

/-- VEXP2. -/
def fexp2 (f : Fmt) (rm : RMode) (u : Nat) (a : FVal) : Nat :=
  if a.isNan then f.nan
  else if a.isInf then (if a.neg then f.zero false else f.inf false)
  else roundExp2 f rm u a.dy

/-- VLOG2. -/
def flog2 (f : Fmt) (rm : RMode) (u : Nat) (a : FVal) : Nat :=
  if a.isNan then f.nan
  else if a.isZero then f.inf true
  else if a.neg then f.nan
  else
    match a with
    | .fin _ m e =>
      if m = 2 ^ m.log2 then roundDy f rm u false (Dy.ofInt ((m.log2 : Int) + e))
      else let (neg, p) := log2Parts m e; roundPos f rm u neg p
    | _ => f.inf false

/-- VTANH. -/
def ftanh (f : Fmt) (rm : RMode) (u : Nat) (a : FVal) : Nat :=
  if a.isNan then f.nan
  else if a.isInf then roundVal f .rne 0 (.fin a.neg 1 0)
  else if a.isZero then f.zero a.neg
  else roundPos f rm u a.neg (Pos.tanh a.dy)

/-! ### Conversions (R116, R170, R171) -/

/-- A conversion format, by the codes of R116. -/
inductive CFmt where
  | flt (f : Fmt)
  | int (w : Nat) (signed : Bool)
deriving DecidableEq, Repr

def cfmt (code : Nat) : CFmt :=
  match code with
  | 0 => .flt .f32 | 1 => .flt .bf16 | 2 => .flt .f16 | 3 => .int 8 true | 4 => .int 8 false
  | 5 => .int 16 true | 6 => .int 16 false | 7 => .int 32 true | _ => .int 32 false

def CFmt.w : CFmt → Nat
  | .flt f => f.w
  | .int w _ => w

/-- Range of an integer format. -/
def intLo (w : Nat) (signed : Bool) : Int := if signed then -((2 ^ (w - 1) : Nat) : Int) else 0
def intHi (w : Nat) (signed : Bool) : Int := if signed then ((2 ^ (w - 1) : Nat) : Int) - 1 else ((2 ^ w : Nat) : Int) - 1

/-- The value of an integer pattern. -/
def intVal (w : Nat) (signed : Bool) (x : Nat) : Int := if signed then sext x w else ((x % 2 ^ w : Nat) : Int)

/-- One element (R171 Table 8). -/
def convert (src dst : CFmt) (rm : RMode) (u x : Nat) : Nat :=
  if src = dst then x else
  match src, dst with
  | .flt a, .flt b => roundVal b rm u (a.val x)
  | .flt a, .int w sg => wrapN (valToInt rm u (intLo w sg) (intHi w sg) (a.val x)) w
  | .int w sg, .flt b => roundDy b rm u false (Dy.ofInt (intVal w sg x))
  | .int w sg, .int w' sg' => wrapN (sat (intVal w sg x) (intLo w' sg') (intHi w' sg')) w'

/-- The smaller or larger of two patterns under a signedness. -/
def iminmax (w : Nat) (signed isMax : Bool) (x y : Nat) : Nat :=
  if decide (intVal w signed x ≤ intVal w signed y) != isMax then x else y

/-- A conversion of a register (R170): the narrower side uses the lanes of the part. -/
def convVec (src dst : CFmt) (rm : RMode) (part : Nat) (ws : List Nat) (x old : Vec) : Vec :=
  let n := 1024 / max src.w dst.w
  let pos (w : Nat) (k : Nat) := if w < max src.w dst.w then part * n + k else k
  let el (k : Nat) := convert src dst rm (nth 0 ws k) (lane x src.w (pos src.w k))
  mapLanes dst.w (fun j => if dst.w < src.w then (if part * n ≤ j ∧ j < part * n + n then el (j - part * n) else lane old dst.w j) else el j)

/-- VCVT and VSRND. -/
def Issue.cvt (i : Issue) (o : CV) (src dst : CFmt) (rm : RMode) : Except Stop Issue := do
  let old ← if dst.w < src.w then i.kept o.d.toNat o.dnil else .ok 0
  let (x, i) ← i.source 0 (smode o.mode).1 .v o.s1.toNat
  let (ws, i) := i.roundWords rm (1024 / max src.w dst.w)
  i.toV o.d.toNat o.dnil (convVec src dst rm o.part.toNat ws x old) 4

/-! ### Masks and reductions (R157, R176, R177) -/

/-- Lane k of width w is enabled. -/
def laneOn (m : Mask) (w k : Nat) : Bool := m.getLsbD (k * w / 8)

/-- The 128 mask bits of lanes of width w. -/
def maskOf (w : Nat) (f : Nat → Bool) : Mask :=
  BitVec.ofNat 128 (packLanes (w / 8) ((List.range (1024 / w)).map (fun k => if f k then 2 ^ (w / 8) - 1 else 0)))

/-- A reduction: lanes with the identity where the mask excludes them, the fixed tree, one block drawn under the stochastic mode. -/
def Issue.reduce (i : Issue) (o : RR) (rm : RMode) (w ident : Nat) (f : List Nat → Nat → List Nat) : Except Stop Issue := do
  let (x, i) ← i.v1 o
  let m := i.pre.getM o.s2.toNat
  let (ws, i) := i.roundWords rm 4
  let ls := (List.range (1024 / w)).map (fun k => if laneOn m w k then lane x w k else ident)
  i.toV o.d.toNat o.dnil (vecOf w (f ls (nth 0 ws 0))) 6

/-- A float sum: FP32 tree, the last combination rounded to `f`. -/
def treeSum (f : Fmt) (rm : RMode) (n : Nat) (l : List Nat) (u : Nat) : Nat :=
  match treeLevels addF32 n l with
  | a :: b :: _ => roundSum f rm u (addVal rm (Fmt.f32.val a) (Fmt.f32.val b))
  | _ => 0

/-- Head of a tree run to its root. -/
def treeRoot (op : Nat → Nat → Nat) (n : Nat) (l : List Nat) : Nat := nth 0 (treeLevels op n l) 0

/-- VRARGMAX's node (R177): the greater rank, the lower lane on a tie; NaN below every number. The pair is value and index in one
number. -/
def argNode (a b : Nat) : Nat :=
  let x := Fmt.f32.val (a % 2 ^ 32)
  let y := Fmt.f32.val (b % 2 ^ 32)
  if (x.isNan && !y.isNan) || x.lt y then b else a

end Sys2Proof.Machine
end

