-- ==== Sys2Proof/Machine/Push.lean ====
section
/-! DEFINITION. The weight buffer as MPUSH reads it: blocks accepted (07_matrix.md R194 Table 6), compressed blocks
(03_numbers.md R75, R76), Z order (R199), the outlier window (R196), and the row pushed. -/

namespace Sys2Proof.Machine

/-- Size of the weight buffer. -/
def wbSize : Nat := 2 ^ 19

/-- A narrow block of a float-mode push. -/
def isNarrow (code : Nat) : Bool := decide (code = 0x04 ∨ code = 0x05 ∨ code = 0x30)

/-- A push accepts a block of this code under the mode word (Table 6). -/
def pushAccepts (m : ModeWord) (code : Nat) : Bool :=
  if m.fm then
    match code with
    | 0x00 => true
    | 0x04 => true
    | 0x05 => true
    | 0x30 => !m.zb
    | 0x02 => !m.ff
    | 0x03 => m.ff
    | _ => false
  else
    match code with
    | 0x00 => true
    | 0x04 => m.sgnb
    | 0x05 => !m.sgnb
    | 0x30 => m.sgnb && !m.zb
    | _ => false

/-- The weight at position `p` of a compressed block of `k` planes; 0 where it is absent (R75). -/
def compressed (d : Nat) (k p : Nat) : Int :=
  let mask := d % 2 ^ 64
  if !mask.testBit p then 0
  else
    let j := popcN p mask
    nest ((((d >>> 64) >>> (k * j)) % 2 ^ k) * 2 ^ (8 - k)) k

/-- A code of a byte block. -/
def byteCode (signed : Bool) (b : Nat) : Int := if signed then sext b 8 else ((b % 256 : Nat) : Int)

/-- The integer code of the weight at position `p` of a block. -/
def blockCode (m : ModeWord) (code d p : Nat) : Int :=
  let b := (d >>> (8 * p)) % 256
  match code with
  | 0x30 => compressed d m.bk.toNat p
  | 0x04 => byteCode true b
  | 0x05 => byteCode false b
  | _ => byteCode m.sgnb b

/-- Element offsets, in cells from the push's base, of the row's cells in ascending column (R194, R199). -/
def pushElems (m : ModeWord) (w : Nat) : List Nat :=
  (List.range (if m.fm then 64 else 256)).map (fun n =>
    if m.zb then (if m.tr then zOrder n w else zOrder w n) else n)

/-- The values of the window's entries for element `e` (R196). -/
def windowOf (c : Core) : List (Nat × Nat) :=
  (List.range c.mx.ocnt.toNat).map (fun k =>
    let a := c.mx.obase.toNat * 64 + 8 * k
    (c.wbuf.read a 4, c.wbuf.read (a + 4) 4))

/-- A dequantised narrow weight with its outliers, rounded once (R196). -/
def narrowCell (m : ModeWord) (win : List (Nat × Nat)) (code d scale e : Nat) : Nat :=
  let v : Sum := .val false ⟨blockCode m code d (e % 64), (scale : Int) - 127⟩
  roundSum (ffFmt m.ff) .rne 0 (win.foldl (fun (a : Sum) w => if w.1 = e then a.plus (.ofVal (Fmt.f32.val w.2)) else a) v)

/-- What a push finds: a stop, or the row as 256 cells of 16 bits and the 64-byte units consumed in row-major layout. DESIGN CHOICE (log
entry 124): in Z layout, a base block whose tag is neither narrow nor of a 16-bit format makes two-byte cells, and is itself examined only
where the row reads it. -/
def pushRow (c : Core) (off : Nat) : Except Stop (BitVec 4096 × Nat) :=
  let m := c.mx.mode
  let base := off * 64
  let baseCode := tagCode (c.wbuf.tag off)
  let narrow := isNarrow baseCode
  let two := m.fm && !narrow && decide (m.zb ∨ baseCode = 0 ∨ baseCode = 2 ∨ baseCode = 3)
  let es := pushElems m c.mx.prow.toNat
  let bytes (e : Nat) : Nat := if two then 2 * e else e
  let last := es.foldl (fun k e => max k (bytes e + (if two then 2 else 1))) 0
  if wbSize < base + last then illegal else
  let blocks := (es.map (fun e => (base + bytes e) / 64)).eraseDups
  let winBlocks := if m.fm && narrow && decide (c.mx.ocnt ≠ 0) then
      (List.range ((c.mx.ocnt.toNat * 8 + 63) / 64)).map (fun k => c.mx.obase.toNat + k) else []
  match (blocks ++ winBlocks).find? (fun k => poisoned (c.wbuf.tag k)) with
  | some k => .error (.trap 10 (BitVec.ofNat 64 (64 * k)))
  | none =>
    let first := tagCode (c.wbuf.tag (nth 0 blocks 0))
    let bad (k : Nat) : Bool :=
      let code := tagCode (c.wbuf.tag k)
      !pushAccepts m code || code ≠ first || (m.fm && (isNarrow code != narrow))
        || (code = 0x30 && m.bk = 8 && decide (56 < popcN 64 (c.wbuf.read (64 * k) 8)))
    match blocks.find? bad with
    | some k => .error (.trap 11 (BitVec.ofNat 64 (64 * k)))
    | none =>
      let win := if m.fm && narrow then windowOf c else []
      let data := blocks.map (fun k => (k, (c.wbuf.block k).toNat))
      let blockOf (k : Nat) : Nat := match data.find? (fun x => x.1 = k) with | some x => x.2 | none => 0
      let cell (e : Nat) : Nat :=
        let a := base + bytes e
        let d := blockOf (a / 64)
        if two then (d >>> (8 * (a % 64))) % 2 ^ 16
        else if m.fm then narrowCell m win first d (if first = 0 then 127 else tagScale (c.wbuf.tag (a / 64))) a
        else wrapN (blockCode m first d (a % 64)) 16
      .ok (BitVec.ofNat 4096 (packLanes 16 (es.map cell)), (last + 63) / 64)
where
  /-- The illegal-operand trap of an overrun. -/
  illegal : Except Stop (BitVec 4096 × Nat) := .error (.trap 4 0)

/-- The shadow plane after row `w` is pushed under a mode: a change of the recorded mode leaves the other rows open (R194, R195). -/
def Plane.pushed (p : Plane) (fm ff : Bool) (w : Nat) (x : BitVec 4096) (seed : Nat) : Plane :=
  let same := p.fm = fm && (!fm || p.ff = ff)
  let keep := BitVec.ofNat 256 (2 ^ 256 - 1 - 2 ^ w)
  { rows := Tbl.set 0 p.rows w x, fm := fm, ff := ff, bad := if same then p.bad &&& keep else keep, seed := if same then p.seed else seed,
    ever := p.ever || decide (x ≠ 0) }

/-- Row `w` of a plane as its storage holds it. -/
def Plane.rowBits (p : Plane) (w : Nat) : BitVec 4096 := Tbl.get 0 p.rows w

end Sys2Proof.Machine
end

