-- ==== Sys2Proof/Machine/MatrixOps.lean ====
section
/-! DEFINITION. The M operations (07_matrix.md R189 to R214). -/

namespace Sys2Proof.Machine

/-! ### Configuration (R192) -/

/-- The fields of the mode word of Table 3; reserved bits are ignored (R2). -/
def modeFields (x : W64) : ModeWord :=
  let n := x.toNat
  { gsel := BitVec.ofNat 16 (bits n 47 32), fm := x.getLsbD 31, ff := x.getLsbD 30, sgna := x.getLsbD 29, sgnb := x.getLsbD 28,
      ak := BitVec.ofNat 4 (bits n 27 24), bk := BitVec.ofNat 4 (bits n 23 20), sat := x.getLsbD 19, tr := x.getLsbD 18,
      zb := x.getLsbD 17, unsc := x.getLsbD 16, govr := x.getLsbD 15, drm := BitVec.ofNat 3 (bits n 14 12),
      dfmt := BitVec.ofNat 3 (bits n 11 9), snc := BitVec.ofNat 3 (bits n 8 6) }

/-- The mode word of Table 3, unless its value is forbidden. -/
def modeWord (x : W64) : Option ModeWord :=
  let n := x.toNat
  let m := modeFields x
  if bits n 59 48 ≠ 0 ∨ bits n 5 0 ≠ 0 ∨ m.ak.toNat < 2 ∨ 8 < m.ak.toNat ∨ m.bk.toNat < 2 ∨ 8 < m.bk.toNat ∨ 4 < m.drm.toNat
      ∨ 2 < m.dfmt.toNat ∨ (m.tr ∧ !m.zb) ∨ (m.fm ∧ 1 < m.snc.toNat) then none
  else some m

/-- MCFG: what the value writes from the next bundle on; none where it is an illegal operand. -/
def mcfgWrite (x : W64) : Option (Matrix → Matrix) :=
  let n := x.toNat
  let lo := bits n 12 0
  let hi := bits n 25 13
  match bits n 63 60 with
  | 0 => (modeWord x).map (fun m mx => { mx with mode := m, fph := 0 })
  | 1 =>
    if bits n 59 26 ≠ 0 ∨ wbSize < hi * 64 + lo * 8 then none
    else some (fun mx => { mx with obase := BitVec.ofNat 13 hi, ocnt := BitVec.ofNat 13 lo })
  | 2 =>
    if bits n 59 16 ≠ 0 ∨ wbSize < lo * 64 + 2048 then none
    else some (fun mx => { mx with qsets := Tbl.set .reset mx.qsets (bits n 15 14) ⟨x.getLsbD 13, BitVec.ofNat 13 lo⟩ })
  | 3 => if bits n 59 13 ≠ 0 then none else some (fun mx => { mx with wbp := BitVec.ofNat 13 lo })
  | _ => none

def Core.updMx (c : Core) (f : Matrix → Matrix) : Core := { c with mx := f c.mx }

def Issue.mcfg (i : Issue) (o : MG) : Except Stop Issue :=
  match mcfgWrite (i.pre.getG o.g.toNat) with
  | none => illegalOperand
  | some f => .ok (i.afterCore (fun c => c.updMx f))

/-- MCFG (R192); SEL of the register's value chooses the word, here the mode word. -/
def opMcfgMode (g : Guard) (o : MG) : Op := guardedM g (fun i => i.mcfg o)

/-- `MCFG_MODE` alone in its bundle. -/
def execMcfgMode (g : Guard) (o : MG) (s : State) : Result := issueSolo (.m (.mcfgMode g o)) (opMcfgMode g o) s

/-- MCFG (R192), the outlier window. -/
def opMcfgOutlier (g : Guard) (o : MG) : Op := guardedM g (fun i => i.mcfg o)

/-- `MCFG_OUTLIER` alone in its bundle. -/
def execMcfgOutlier (g : Guard) (o : MG) (s : State) : Result := issueSolo (.m (.mcfgOutlier g o)) (opMcfgOutlier g o) s

/-- MCFG (R192), a quantisation set. -/
def opMcfgQset (g : Guard) (o : MG) : Op := guardedM g (fun i => i.mcfg o)

/-- `MCFG_QSET` alone in its bundle. -/
def execMcfgQset (g : Guard) (o : MG) (s : State) : Result := issueSolo (.m (.mcfgQset g o)) (opMcfgQset g o) s

/-- MCFG (R192), the weight-buffer pointer. -/
def opMcfgWbp (g : Guard) (o : MG) : Op := guardedM g (fun i => i.mcfg o)

/-- `MCFG_WBP` alone in its bundle. -/
def execMcfgWbp (g : Guard) (o : MG) (s : State) : Result := issueSolo (.m (.mcfgWbp g o)) (opMcfgWbp g o) s


/-! ### Pushing and swapping (R193 to R198) -/

/-- An entry of the matrix log (13_inflight_record.md R328). -/
def Issue.logM (i : Issue) (kind : Nat) (acc row md : Nat) (half : Bool) (data : BitVec 4096) : Issue :=
  let m := i.pre.mx
  let e : MLog := ⟨kind, i.pre.ic, m.mode, acc, row, md, half, m.fph.toNat, m.shadow.fm, m.shadow.ff, data⟩
  i.upd (fun c => c.updMx (fun mx => { mx with log := mx.log ++ [e] }))

/-- MPUSH from 64-byte unit `off`; `wp` tells the pointer form. DESIGN CHOICE (log entry 123): a float push while PROW is above 63, as
integer pushes leave it, writes row PROW of the storage, and PROW becomes (PROW + 1) mod 64. -/
def Issue.push (i : Issue) (off : Nat) (wp : Bool) : Except Stop Issue := do
  let m := i.pre.mx.mode
  let w := i.pre.mx.prow.toNat
  let (x, used) ← pushRow { i.core with mx := i.pre.mx } off
  let i := i.logM 1 0 w 0 false (i.pre.mx.shadow.rowBits w)
  let seed := i.s.fresh
  let i := { i with s := { i.s with fresh := i.s.fresh + 65536 } }
  .ok (i.upd (fun c => c.updMx (fun mx =>
    { mx with shadow := mx.shadow.pushed m.fm m.ff w x seed,
              prow := BitVec.ofNat 8 (if m.fm then (w + 1) % 64 else w + 1),
              wbp := if wp && !m.zb then mx.wbp + BitVec.ofNat 13 used else mx.wbp })))

/-- MPUSH (R193) with WP = 0. -/
def opMpush (g : Guard) (o : MPU) : Op := guardedM g (fun i => i.push o.off.toNat false)

/-- `MPUSH` alone in its bundle. -/
def execMpush (g : Guard) (o : MPU) (s : State) : Result := issueSolo (.m (.mpush g o)) (opMpush g o) s

/-- MPUSH (R193) with WP = 1: from WBP, which advances in row-major layout. -/
def opMpushWp (g : Guard) : Op := guardedM g (fun i => i.push i.pre.mx.wbp.toNat true)

/-- `MPUSH_WP` alone in its bundle. -/
def execMpushWp (g : Guard) (s : State) : Result := issueSolo (.m (.mpushWp g)) (opMpushWp g) s

/-- MSWAP (R198). -/
def opMswap (g : Guard) : Op :=
  guardedM g (fun i => .ok ((i.logM 2 0 0 0 false 0).upd (fun c => c.updMx (fun mx => { mx with active := mx.shadow, shadow := mx.active, prow := 0 }))))

/-- `MSWAP` alone in its bundle. -/
def execMswap (g : Guard) (s : State) : Result := issueSolo (.m (.mswap g)) (opMswap g) s


/-! ### Rows, the watermark and lent registers -/

/-- The row an operation names, and the row pointer after it (R111, R200). -/
def rowSel (st : AccStat) (rp : Bool) (row : BitVec 7) : Nat := if rp then st.rptr.toNat else row.toNat

/-- RPTR's advance prevails over an SWR of the bundle (R205). -/
def Issue.advance (i : Issue) (t : Nat) (rp : Bool) (row : BitVec 7) : Issue :=
  if rp then
    let r := (i.pre.mx.st t).rptr + row
    i.afterCore (fun c => c.updMx (fun mx => mx.setSt t { mx.st t with rptr := r }))
  else i

/-- The physical register of a name whose bank must be lent (R51, R52). -/
def Issue.lentReg (i : Issue) (v : BitVec 6) : Except Stop Nat :=
  let r := i.pre.physV v.toNat
  if i.core.isLent r then .ok r else .error (.trap 5 0)

/-- The mode that governs a drain (R206). -/
def Matrix.governs (m : Matrix) (t : Nat) : Bool := if (m.st t).tv then (m.st t).tmode else m.mode.fm

/-! ### Shift beats (R200 to R202) -/

/-- W(j) of R201. -/
def planeW (sgna : Bool) (j : Nat) : Int := if j < 7 then ((2 ^ j : Nat) : Int) else if sgna then -128 else 128

/-- A[e] of an integer beat (R201). -/
def feedInt (m : ModeWord) (fph : Nat) (half : Bool) (v : Vec) (e : Nat) : Int :=
  let ak := m.ak.toNat
  let nph := (ak + 1) / 2
  let h := b2n half
  let a := (bitN v.toNat (256 * (2 * h) + e) : Int) * planeW m.sgna (7 - 2 * fph)
  let a := if 6 - 2 * fph ≥ 8 - ak then a + (bitN v.toNat (256 * (2 * h + 1) + e) : Int) * planeW m.sgna (6 - 2 * fph) else a
  if fph = nph - 1 ∧ ak < 8 then a + ((2 ^ (7 - ak) : Nat) : Int) else a

def sumInt (l : List Int) : Int := l.foldl (· + ·) 0

/-- Exact products of an integer beat and the expected residue term (R201, R211). -/
def prodsInt (p : Plane) (a : List Int) : List Sum × Dy :=
  let rows := (a.zip (List.range 256)).filter (fun x => x.1 ≠ 0)
  let cells := rows.map (fun x => (x.1, (List.range 256).map (p.int x.2)))
  let prods := (List.range 256).map (fun n => Sum.val false (Dy.ofInt (sumInt (cells.map (fun x => x.1 * nth 0 x.2 n)))))
  (prods, Dy.ofInt (sumInt (cells.map (fun x => x.1 * sumInt x.2))))

/-- Exact products of a float beat, the expected residue term, and whether an A[k] or S[k] is not finite (R202, R212). -/
def prodsFloat (p : Plane) (a : List FVal) : List Sum × Dy × Bool :=
  let cells := (List.range 64).map (fun k => (List.range 64).map (p.val k))
  let rows := a.zip cells
  let zero : Sum := .val true .zero
  let prods := (List.range 64).map (fun n => rows.foldl (fun (s : Sum) r => s.plus (.ofVal (mulVal r.1 (nth .nan r.2 n)))) zero)
  let sums := rows.map (fun r => (r.1, r.2.foldl (fun (s : Sum) x => s.plus (.ofVal x)) zero))
  let bad := sums.any (fun r => !r.1.isFin || !r.2.isFinite)
  (prods, Dy.sum (sums.map (fun r => Dy.mul r.1.dy r.2.dy)), bad)

/-- The beat of a shift issued at cycle `ic`. -/
def shiftBeat (m : ModeWord) (p : Plane) (fph acc row md : Nat) (half : Bool) (v : Vec) (ic : Nat) : Beat :=
  if m.fm then
    let (prods, e, bad) := prodsFloat p ((List.range 64).map (fun k => (ffFmt m.ff).val (lane v 16 k)))
    ⟨acc, row, ic, ic + 72, true, decide (md = 1), false, prods, e, bad⟩
  else
    let (prods, e) := prodsInt p ((List.range 256).map (feedInt m fph half v))
    ⟨acc, row, ic, ic + 264, false, decide (md = 1), decide (md = 2) || m.sat, prods, e, false⟩

/-- First accumulation records mode and generation (R200). -/
def AccStat.record (a : AccStat) (fm : Bool) (gen : BitVec 16) : AccStat :=
  if a.tv then a else { a with tv := true, tmode := fm, gv := true, gen := gen }

/-- MSHIFT (R200). -/
def Issue.shift (i : Issue) (o : MSH) : Except Stop Issue := do
  let r ← i.lentReg o.v
  let mx := i.pre.mx
  let m := mx.mode
  let t := o.acc.toNat
  let st := mx.st t
  let md := o.md.toNat
  if mx.active.fm ≠ m.fm ∨ (m.fm ∧ mx.active.ff ≠ m.ff) ∨ (st.tv ∧ st.tmode ≠ m.fm) ∨ (m.fm ∧ (o.half ∨ md = 2)) then illegalOperand else
  let row := rowSel st o.rp o.row
  if st.wm.toNat ≤ row then .error .wait else
  let v := i.pre.getV r
  let data := if m.fm then v.setWidth 4096 else ((v >>> (if o.half then 512 else 0)).setWidth 512).setWidth 4096
  let i := i.logM 3 t row md o.half data
  let b := shiftBeat m mx.active mx.fph.toNat t row md o.half v i.pre.ic
  let nph := (m.ak.toNat + 1) / 2
  let i := i.upd (fun c => c.updMx (fun x =>
    { x.setSt t ((x.st t).record m.fm i.pre.gen) with
      beats := x.beats ++ [b], fph := if m.fm then x.fph else BitVec.ofNat 2 ((x.fph.toNat + 1) % nph) }))
  .ok (i.advance t o.rp o.row)

/-- MSHIFT (R200 to R203). -/
def opMshift (g : Guard) (o : MSH) : Op := guardedM g (fun i => i.shift o)

/-- `MSHIFT` alone in its bundle. -/
def execMshift (g : Guard) (o : MSH) (s : State) : Result := issueSolo (.m (.mshift g o)) (opMshift g o) s


/-! ### Drains (R206, R207) -/

/-- The unscaling of a float drain: the reciprocal, or none where no unscaling is asked for; a generation that is not open traps. -/
def Core.unscale (c : Core) (t : Nat) : Except Stop (Option W32) :=
  let m := c.mx.mode
  let st := c.mx.st t
  if !(m.unsc && st.gv) then .ok none
  else
    let g := if m.govr then m.gsel else st.gen
    if c.genOpen g then .ok (some (Tbl.get .none c.scales (g.toNat % 8)).recip) else .error (.trap 12 0)

/-- Element of a float row as a drain reads it (R206). -/
def unscaled (recip : Option W32) (x : Nat) : Nat :=
  match recip with
  | none => x
  | some r => mulF32 x r.toNat

/-- MDRAIN (R206). -/
def Issue.drain (i : Issue) (o : MDR) : Except Stop Issue := do
  let r ← i.lentReg o.v
  let c := i.pre
  let m := c.mx.mode
  let t := o.acc.toNat
  let st := c.mx.st t
  let part := o.part.toNat
  let fm := c.mx.governs t
  if (!fm ∧ m.dfmt ≠ 0) ∨ (fm ∧ m.dfmt = 0 ∧ 1 < part) ∨ (fm ∧ m.dfmt ≠ 0 ∧ 0 < part) then illegalOperand else
  let row := rowSel st o.rp o.row
  if st.wm.toNat ≤ row then .error .wait else
  let x := c.mx.row t row
  let recip ← if fm then c.unscale t else .ok none
  let raw (k : Nat) : Nat := let e := rowElem x (32 * part + k); if fm then unscaled recip e else e
  if m.dfmt = 0 then
    .ok ((i.result .v r (mapLanes 32 raw) 6).advance t o.rp o.row)
  else
    let f : Fmt := if m.dfmt = 1 then .bf16 else .f16
    let rm := (RMode.ofCode m.drm.toNat).getD .rne
    let (ws, i) := i.roundWords rm 64
    let out := mapLanes 16 (fun k => roundVal f rm (nth 0 ws k) (Fmt.f32.val (unscaled recip (rowElem x k))))
    .ok ((i.result .v r out 6).advance t o.rp o.row)

/-- MDRAIN (R206). -/
def opMdrain (g : Guard) (o : MDR) : Op := guardedM g (fun i => i.drain o)

/-- `MDRAIN` alone in its bundle. -/
def execMdrain (g : Guard) (o : MDR) (s : State) : Result := issueSolo (.m (.mdrain g o)) (opMdrain g o) s


/-- One requantised lane (R207): entry bytes as a number. -/
def requant (q : QSet) (rm : RMode) (u ent elem : Nat) : Nat :=
  let mult := sext (ent % 2 ^ 32) 32
  let shift := min ((ent >>> 32) % 256) 63
  let y := roundIntDy rm u ⟨sext elem 32 * mult, -(shift : Int)⟩ + sext (ent >>> 48) 16
  wrapN (if q.sgn then sat y (-128) 127 else sat y 0 255) 8

/-- MDRAINQ (R207). -/
def Issue.drainq (i : Issue) (o : MDR) : Except Stop Issue := do
  let r ← i.lentReg o.v
  let c := i.pre
  let t := o.acc.toNat
  let st := c.mx.st t
  let half := o.part.toNat % 2
  let q := Tbl.get .reset c.mx.qsets (o.part.toNat / 2)
  if c.mx.governs t then illegalOperand else
  let row := rowSel st o.rp o.row
  if st.wm.toNat ≤ row then .error .wait else
  let base := q.base.toNat * 64 + 1024 * half
  let wb := i.core.wbuf
  match (List.range 16).find? (fun k => poisoned (wb.tag (base / 64 + k))) with
  | some k => .error (.trap 10 (BitVec.ofNat 64 (base + 64 * k)))
  | none =>
    let rm := (RMode.ofCode c.mx.mode.drm.toNat).getD .rne
    let (ws, i) := i.roundWords rm 128
    let x := c.mx.row t row
    let out := mapLanes 8 (fun k => requant q rm (nth 0 ws k) (wb.read (base + 8 * k) 8) (rowElem x (128 * half + k)))
    .ok ((i.result .v r out 6).advance t o.rp o.row)

/-- MDRAINQ (R207). -/
def opMdrainq (g : Guard) (o : MDR) : Op := guardedM g (fun i => i.drainq o)

/-- `MDRAINQ` alone in its bundle. -/
def execMdrainq (g : Guard) (o : MDR) (s : State) : Result := issueSolo (.m (.mdrainq g o)) (opMdrainq g o) s


/-! ### Zeroing, snapshots and residues (R209 to R214) -/

/-- MZERO (R209): the tile's beats in flight are cancelled; the log keeps their shifts as entries of kind 0, which give no beat
(13_inflight_record.md R328; log entry 28). -/
def Matrix.zero (m : Matrix) (t : Nat) : Matrix :=
  let keep (x : Nat × BitVec 8192) : Bool := x.1 / 128 ≠ t
  { m with acc := m.acc.filter keep, reload := m.reload.filter keep, stat := Tbl.set .reset m.stat t .reset,
           beats := m.beats.filter (fun b => b.tile ≠ t),
           log := m.log.map (fun l => if l.kind = 3 ∧ l.acc = t then { l with kind := 0 } else l) }

/-- MZERO (R209). -/
def opMzero (g : Guard) (o : MA) : Op := guardedM g (fun i => .ok (i.upd (fun c => c.updMx (fun m => m.zero o.acc.toNat))))

/-- `MZERO` alone in its bundle. -/
def execMzero (g : Guard) (o : MA) (s : State) : Result := issueSolo (.m (.mzero g o)) (opMzero g o) s


/-- MSNAP (R210). -/
def Issue.snap (i : Issue) (o : MSN) : Except Stop Issue := do
  let (f, r) ← i.destV o.v.toNat false
  let mx := i.pre.mx
  let t := o.acc.toNat
  let st := mx.st t
  if st.wm.toNat ≤ o.row.toNat then .error .wait else
  let x := mx.row t o.row.toNat
  let i := i.upd (fun c => c.updMx (fun m => m.setSt t { m.st t with snstep := (m.st t).steps }))
  .ok (i.result f r (mapLanes 32 (fun k => rowElem x (32 * mx.mode.snc.toNat + k))) 6)

/-- MSNAP (R210). -/
def opMsnap (g : Guard) (o : MSN) : Op := guardedM g (fun i => i.snap o)

/-- `MSNAP` alone in its bundle. -/
def execMsnap (g : Guard) (o : MSN) (s : State) : Result := issueSolo (.m (.msnap g o)) (opMsnap g o) s

/-- MRESRD (R213). -/
def opMresrd (g : Guard) (o : MRD) : Op := guardedM g (fun i => .ok (i.resultG o.g.toNat (i.pre.mx.st o.acc.toNat).resid 4))

/-- `MRESRD` alone in its bundle. -/
def execMresrd (g : Guard) (o : MRD) (s : State) : Result := issueSolo (.m (.mresrd g o)) (opMresrd g o) s


/-- The residue registers do not agree (R214). -/
def AccStat.mismatch (a : AccStat) : Bool :=
  if a.unck || !a.tv then false
  else if a.tmode then
    let d := Fmt.f32.val (a.resLo.toNat % 2 ^ 31)
    let b := Fmt.f32.val a.resHi.toNat
    !d.isFin || !b.isFin || b.lt d
  else a.resLo != a.resHi

/-- MRESCHK (R214): a mismatch is marked and a corruption event posted. -/
def Issue.reschk (i : Issue) (t : Nat) : Issue :=
  if (i.pre.mx.st t).mismatch then
    let i := i.upd (fun c => c.updMx (fun m => m.setSt t { m.st t with mism := true }))
    { i with s := i.s.corruption i.n t }
  else i

/-- MRESCHK (R214). -/
def opMreschk (g : Guard) (o : MA) : Op := guardedM g (fun i => .ok (i.reschk o.acc.toNat))

/-- `MRESCHK` alone in its bundle. -/
def execMreschk (g : Guard) (o : MA) (s : State) : Result := issueSolo (.m (.mreschk g o)) (opMreschk g o) s


end Sys2Proof.Machine
end

