-- ==== Sys2Proof/Machine/VecMem.lean ====
section
/-! DEFINITION. Scratchpad access of the V units (06_vector.md R182 to R186; 10_tile.md R273, R274). -/

namespace Sys2Proof.Machine

/-- A tile takes a V load or store, an XRLD or XRST (R273 Table 2). -/
def Tile.takesLoad (t : Tile) : Bool := decide (t.st = .ready ∨ t.st = .draining)
def Tile.takesStore (t : Tile) : Bool := decide (t.st = .ready)

/-- The checks of R183 Table 13, orders 1 to 4, on accesses of `size` bytes at byte offsets. DESIGN CHOICE (log entry 122): where several
lanes fail the same check, FAULTADDR is of the lowest; of several tiles that are not ready, one that cannot become ready decides. -/
def Issue.spadCheck (i : Issue) (addrs : List Nat) (size align : Nat) (store : Bool) : Except Stop Issue :=
  match addrs.find? (fun a => a % align ≠ 0) with
  | some a => .error (.trap 7 (BitVec.ofNat 64 a))
  | none =>
    match addrs.find? (fun a => spadSize i.n < a + size) with
    | some a => .error (.trap 9 (BitVec.ofNat 64 a))
    | none =>
      let c := i.core
      let bad := addrs.filter (fun a => let t := c.tile (tileOf a); !(if store then t.takesStore else t.takesLoad))
      match bad.find? (fun a => (c.tile (tileOf a)).ncmd = 0) with
      | some a => .error (.stuck (tileOf a))
      | none =>
        if bad ≠ [] then .error .wait else
        match (if store then none else addrs.find? (fun a => poisoned (c.spad.tag (a / 64)) || poisoned (c.spad.tag ((a + size - 1) / 64)))) with
        | some a =>
          let b := if poisoned (c.spad.tag (a / 64)) then a / 64 else (a + size - 1) / 64
          .error (.trap 10 (BitVec.ofNat 64 (64 * b)))
        | none => .ok i

/-- Read 128 bytes of the core's own scratchpad, both lines. -/
def Issue.spadRead128 (i : Issue) (off : Nat) : Nat × Issue :=
  let (lo, i) := i.spadRead i.n off 64
  let (hi, i) := i.spadRead i.n (off + 64) 64
  (lo + 2 ^ 512 * hi, i)

/-- Write 128 bytes. -/
def Issue.spadWrite128 (i : Issue) (off v : Nat) : Issue :=
  (i.spadWrite i.n off 64 (v % 2 ^ 512)).spadWrite i.n (off + 64) 64 (v / 2 ^ 512)

/-- VLD. DESIGN CHOICE (log entry 121): Table 13 comes before the lent-bank examination of the destination. -/
def Issue.vld (i : Issue) (o : MEM) : Except Stop Issue := do
  let a := (i.address o 11 128).toNat
  let i ← i.spadCheck [a] 128 128 false
  let (v, i) := i.spadRead128 a
  i.toV o.data.toNat false (BitVec.ofNat 1024 v) 5

/-- VST. DESIGN CHOICE (log entry 121): the lent-bank examination of the source comes before Table 13. -/
def Issue.vst (i : Issue) (o : MEM) : Except Stop Issue := do
  let a := (i.address o 11 128).toNat
  let x ← i.readReg .v o.data.toNat
  let i ← i.spadCheck [a] 128 128 true
  .ok (i.spadWrite128 a x.toNat)

/-- The 32 addresses of a gather or scatter: a[k] plus the n32 index lanes, without wrap (R183). -/
def Issue.laneAddrs (i : Issue) (o : RR) (x : Vec) : List Nat :=
  (lanes x 32).map (fun k => (i.pre.getA o.s2.toNat).toNat + k)

/-- Read the words at the addresses in ascending lane order. -/
def Issue.spadWords (i : Issue) : List Nat → List Nat × Issue
  | [] => ([], i)
  | a :: t =>
    let (v, i) := i.spadRead i.n a 4
    let (vs, i) := i.spadWords t
    (v :: vs, i)

/-- VLDG. -/
def Issue.vldg (i : Issue) (o : RR) : Except Stop Issue := do
  let (x, i) ← i.v1 o
  let as := i.laneAddrs o x
  let i ← i.spadCheck as 4 4 false
  let (vs, i) := i.spadWords as
  i.toV o.d.toNat false (vecOf 32 vs) 5

/-- VSTS. -/
def Issue.vsts (i : Issue) (o : RR) : Except Stop Issue := do
  let d ← i.readReg .v o.d.toNat
  let (x, i) ← i.v1 o
  let as := i.laneAddrs o x
  let i ← i.spadCheck as 4 4 true
  .ok ((as.zip (lanes d 32)).foldl (fun (i : Issue) p => i.spadWrite i.n p.1 4 p.2) i)

/-- VLDPL (R186): slots f to f + c − 1 receive the 32-byte pieces at a + 64 i. DESIGN CHOICE (log entry 121): the lent-bank examination of
the register, which is a source too, comes before Table 13. -/
def Issue.vldpl (i : Issue) (o : MEM) : Except Stop Issue := do
  let a := (i.address o 11 0).toNat
  let f := bits o.off.toNat 5 4
  let c := bits o.off.toNat 3 2 + 1
  let j := a % 512 / 64
  let old ← i.readReg .v o.data.toNat
  if 8 < j + c then .error (.trap 7 (BitVec.ofNat 64 a)) else
  let as := (List.range c).map (fun k => a + 64 * k)
  let i ← i.spadCheck as 32 32 false
  let sp := i.core.spad
  match (List.range c).find? (fun k => let t := tagCode (sp.tag ((a + 64 * k) / 64)); t ≠ 0 ∧ t ≠ 0x17 - (j + k)) with
  | some k => .error (.trap 11 (BitVec.ofNat 64 ((a + 64 * k) / 64 * 64)))
  | none =>
    let step (r : Nat × Issue) (k : Nat) : Nat × Issue :=
      let (v, i) := r.2.spadRead r.2.n (a + 64 * k) 32
      (r.1 - ((r.1 >>> (256 * (f + k))) % 2 ^ 256) * 2 ^ (256 * (f + k)) + v * 2 ^ (256 * (f + k)), i)
    let (v, i) := (List.range c).foldl step (old.toNat, i)
    i.toV o.data.toNat false (BitVec.ofNat 1024 v) 5

/-- VLD (R182). -/
def opVld (g : Guard) (o : MEM) : Op := guarded g (incOf o.a o.am) (fun i => i.vld o)

/-- `VLD` alone in its bundle. -/
def execVld (g : Guard) (o : MEM) (s : State) : Result := issueSolo (.v (.vld g o)) (opVld g o) s

/-- VST (R182, R184). -/
def opVst (g : Guard) (o : MEM) : Op := guarded g (incOf o.a o.am) (fun i => i.vst o)

/-- `VST` alone in its bundle. -/
def execVst (g : Guard) (o : MEM) (s : State) : Result := issueSolo (.v (.vst g o)) (opVst g o) s

/-- VLDG (R182, R185). -/
def opVldg (g : Guard) (o : RR) : Op := guarded g none (fun i => i.vldg o)

/-- `VLDG` alone in its bundle. -/
def execVldg (g : Guard) (o : RR) (s : State) : Result := issueSolo (.v (.vldg g o)) (opVldg g o) s

/-- VSTS (R182, R185). -/
def opVsts (g : Guard) (o : RR) : Op := guarded g none (fun i => i.vsts o)

/-- `VSTS` alone in its bundle. -/
def execVsts (g : Guard) (o : RR) (s : State) : Result := issueSolo (.v (.vsts g o)) (opVsts g o) s

/-- VLDPL (R186). -/
def opVldpl (g : Guard) (o : MEM) : Op := guarded g (incOf o.a o.am) (fun i => i.vldpl o)

/-- `VLDPL` alone in its bundle. -/
def execVldpl (g : Guard) (o : MEM) (s : State) : Result := issueSolo (.v (.vldpl g o)) (opVldpl g o) s


end Sys2Proof.Machine
end

