-- ==== Sys2Proof/Machine/Tiles.lean ====
section
/-! DEFINITION. Tiles (10_tile.md): states, layout words, the changes commands make, and TSTATE, TLAYOUT, TRELEASE. -/

namespace Sys2Proof.Machine

/-! ### States and layouts (R270 to R275) -/

def TileSt.code : TileSt → Nat
  | .empty => 0 | .filling => 1 | .ready => 2 | .draining => 3

/-- Tile state word (R279 Table 6). -/
def Tile.word (t : Tile) : W64 :=
  BitVec.ofNat 64 (t.layout.toNat * 2 ^ 16 + t.ncmd % 128 * 2 ^ 4 + b2n t.relp * 8 + b2n t.err * 4 + t.st.code)

/-- A layout word that may be stated (R221, R271). -/
def layoutOk (l : Nat) : Bool := decide (l / 2 ^ 9 = 0) && codeDefined (l % 256) && decide (l % 256 ≠ 0xFF)

def nestedCode (f : Nat) : Bool := decide (0x10 ≤ f ∧ f ≤ 0x17)

/-- A stated layout matches a layout word (R272). -/
def layoutMatches (l t : Nat) : Bool :=
  let f := l % 256
  let g := t % 256
  decide (l / 256 % 2 = t / 256 % 2) && (f = g || f = 0 || g = 0 || (nestedCode f && nestedCode g))

/-- The format code block `b` of a tile carries under stated format `f` (R65, R271). -/
def planeCode (f b : Nat) : Nat := if nestedCode f then 0x17 - b % 8 else f

/-- A fill starts (R275 Table 3). -/
def Tile.fillStart (t : Tile) (layout : BitVec 16) : Tile :=
  match t.st with
  | .empty => { t with st := .filling, layout := layout, ncmd := 1, err := false }
  | _ => { t with ncmd := t.ncmd + 1 }

/-- A drain starts. -/
def Tile.drainStart (t : Tile) (rel : Bool) : Tile :=
  match t.st with
  | .draining => { t with ncmd := t.ncmd + 1, relp := t.relp || rel }
  | _ => { t with st := .draining, ncmd := 1, err := false, relp := rel }

/-- A command on the tile completes. -/
def Tile.complete (t : Tile) : Tile :=
  let n := t.ncmd - 1
  if n ≠ 0 ∨ t.err then { t with ncmd := n }
  else match t.st with
    | .draining => { t with ncmd := n, st := if t.relp then .empty else .ready, relp := false }
    | _ => { t with ncmd := n, st := .ready }

/-- A command on the tile ends without completion. -/
def Tile.fail (t : Tile) : Tile := { t with ncmd := t.ncmd - 1, err := true }

/-! ### Tile instructions (R278, R279) -/

/-- The tags a claim writes (R278). -/
def claimTag (f b : Nat) : BitVec 16 := if f = 0 then 0 else mkTag (planeCode f b) 0x7F

/-- A claim's bytes and tags. -/
def Core.claimTile (c : Core) (t f : Nat) : Core :=
  let m := c.spad.clear (t * 2 ^ 15) ((t + 1) * 2 ^ 15)
  { c with spad := (List.range 512).foldl (fun (m : Memory) b => m.setTag (t * 512 + b) (claimTag f b)) m }

/-- A tile's state changes at issue, where the operation stands in the order (R275). -/
def Issue.putTile (i : Issue) (k : Nat) (v : Tile) : Issue :=
  { i with s := (i.s.coreWriteTime i.n (tileLine i.n k)).upd i.n (fun c => c.setTile k v) }

/-- TLAYOUT. -/
def Issue.tlayout (i : Issue) (o : RR) : Except Stop Issue := do
  let (x, i) ← i.rrG2 o
  let k := o.s1.toNat
  let n := x.toNat
  let l := n % 2 ^ 16
  if bits n 59 16 ≠ 0 ∨ bits n 63 62 ≠ 0 ∨ !layoutOk l then illegalOperand else
  let t := i.core.tile k
  let old := i.resultG o.d.toNat ((i.pre.tile k).layout.setWidth 64) 2
  match bits n 61 60, t.st with
  | 0, .empty =>
    .ok ((old.upd (fun c => c.claimTile k (l % 256))).putTile k { t with st := .ready, layout := BitVec.ofNat 16 l })
  | 1, .ready => .ok (old.putTile k { t with layout := BitVec.ofNat 16 l })
  | 2, .empty => illegalOperand
  | 2, _ => if layoutMatches l t.layout.toNat then .ok old else .error (.trap 11 (BitVec.ofNat 64 (k * 2 ^ 15)))
  | _, _ => illegalOperand

/-- TRELEASE (R275 Table 4). -/
def Issue.trelease (i : Issue) (k : Nat) : Except Stop Issue :=
  let t := i.core.tile k
  match t.st with
  | .empty => .ok i
  | .ready => .ok (i.putTile k { t with st := .empty })
  | .filling => if t.ncmd ≠ 0 then illegalOperand else .ok (i.putTile k { t with st := .empty, err := false })
  | .draining =>
    if t.ncmd ≠ 0 then illegalOperand
    else .ok (i.putTile k { t with st := .empty, err := false, relp := false })

/-- TSTATE (R279). -/
def opTstate (g : Guard) (o : RR) : Op := guarded g none (fun i => .ok (i.resultG o.d.toNat (i.core.tile o.s1.toNat).word 2))

/-- `TSTATE` alone in its bundle. -/
def execTstate (g : Guard) (o : RR) (s : State) : Result := issueSolo (.x (.tstate g o)) (opTstate g o) s

/-- TLAYOUT (R279), claim; MODE of the register chooses the form. -/
def opTlayoutClaim (g : Guard) (o : RR) : Op := guarded g none (fun i => i.tlayout o)

/-- `TLAYOUT_CLAIM` alone in its bundle. -/
def execTlayoutClaim (g : Guard) (o : RR) (s : State) : Result := issueSolo (.x (.tlayoutClaim g o)) (opTlayoutClaim g o) s

/-- TLAYOUT (R279), relabel. -/
def opTlayoutRelabel (g : Guard) (o : RR) : Op := guarded g none (fun i => i.tlayout o)

/-- `TLAYOUT_RELABEL` alone in its bundle. -/
def execTlayoutRelabel (g : Guard) (o : RR) (s : State) : Result := issueSolo (.x (.tlayoutRelabel g o)) (opTlayoutRelabel g o) s

/-- TLAYOUT (R279), check. -/
def opTlayoutCheck (g : Guard) (o : RR) : Op := guarded g none (fun i => i.tlayout o)

/-- `TLAYOUT_CHECK` alone in its bundle. -/
def execTlayoutCheck (g : Guard) (o : RR) (s : State) : Result := issueSolo (.x (.tlayoutCheck g o)) (opTlayoutCheck g o) s

/-- TRELEASE (R275). -/
def opTrelease (g : Guard) (o : RR) : Op := guarded g none (fun i => i.trelease o.s1.toNat)

/-- `TRELEASE` alone in its bundle. -/
def execTrelease (g : Guard) (o : RR) (s : State) : Result := issueSolo (.x (.trelease g o)) (opTrelease g o) s


end Sys2Proof.Machine
end

