-- ==== Sys2Proof/Machine/Transfer.lean ====
section
/-! DEFINITION. Commands started at issue (08_transfer.md R218 to R231): descriptors, checks, in-flight record entries; and the
quarter network (R232 to R234). -/

namespace Sys2Proof.Machine

/-! ### Descriptors (R218 to R221) -/

/-- D0, D1 and D2 of an XC operation. -/
structure Desc where
  d0 : Nat
  d1 : Nat
  d2 : Nat
deriving DecidableEq, Repr

def Issue.desc (i : Issue) (o : XC) : Desc :=
  ⟨(i.pre.getG o.g.toNat).toNat, (i.pre.getG (o.g.toNat + 1)).toNat, (i.pre.getG (o.g.toNat + 2)).toNat⟩

/-- Bits of D0 that only other operations use are zero (R218): `used` lists the fields of the operation. -/
def d0Only (d0 : Nat) (used : List (Nat × Nat)) : Bool :=
  let m := used.foldl (fun m f => Nat.lor m ((2 ^ (f.1 + 1 - f.2) - 1) * 2 ^ f.2)) 0
  decide (Nat.land d0 m = d0)

/-- D1 names no counter or a well-formed one (R220). -/
def d1Ok (d1 : Nat) : Bool := d1 = 0 || (decide (d1 % 8 = 0) && decide (d1 < 2 ^ 48))

def Desc.nblk (d : Desc) : Nat := bits d.d0 9 0
def Desc.toff (d : Desc) : Nat := bits d.d0 18 10
def Desc.woff (d : Desc) : Nat := bits d.d0 22 10
def Desc.rblk (d : Desc) : Nat := bits d.d0 25 19
def Desc.row0 (d : Desc) : Nat := bits d.d0 25 19
def Desc.rm (d : Desc) : Nat := bits d.d0 29 27
def Desc.srca (d : Desc) : Bool := d.d0.testBit 30
def Desc.rel (d : Desc) : Bool := d.d0.testBit 31
def Desc.layout (d : Desc) : Nat := bits d.d0 47 32
def Desc.scl (d : Desc) : Nat := bits d.d0 55 48
def Desc.fmt (d : Desc) : Nat := bits d.d0 63 56

def fLAYOUT : Nat × Nat := (47, 32)
def fREL : Nat × Nat := (31, 31)
def fSRCA : Nat × Nat := (30, 30)
def fRM : Nat × Nat := (29, 27)
def fROW : Nat × Nat := (25, 19)
def fTOFF : Nat × Nat := (18, 10)
def fWOFF : Nat × Nat := (22, 10)
def fNBLK : Nat × Nat := (9, 0)
def fFMT : Nat × Nat := (63, 56)
def fSCL : Nat × Nat := (55, 48)

/-- A block count of R221 Table 3. -/
def nblkOk (n : Nat) : Bool := decide (1 ≤ n ∧ n ≤ 512)

/-- OPND of the copy kinds (13_inflight_record.md R320 Table 2). -/
def opndXC (va : W64) (d : Desc) (tile : Nat) (reint : Bool) (withD2 : Bool) : BitVec 512 :=
  BitVec.ofNat 512 (va.toNat + d.d0 * 2 ^ 64 + d.d1 * 2 ^ 128 + (tile % 32 + b2n reint * 32) * 2 ^ 192
    + (if withD2 then d.d2 * 2 ^ 256 else 0))

/-! ### Orders 4 and 5 of R222 Table 4 -/

/-- Alignment of a global address, then the window test of a contiguous range. -/
def Issue.range (i : Issue) (va : W64) (align len : Nat) : Except Stop Unit :=
  if va.toNat % align ≠ 0 then .error (.trap 7 va)
  else if !inWindow i.ctx va then .error (.abort va)
  else if !inWindow i.ctx (va + BitVec.ofNat 64 (len - 1)) then .error (.abort (va + BitVec.ofNat 64 (len - 1)))
  else .ok ()

/-- A fill may start on a tile (R223 Table 5). -/
def Tile.takesFill (t : Tile) (layout : Nat) : Bool :=
  match t.st with
  | .empty => true
  | .filling => decide (t.layout.toNat = layout)
  | _ => false

/-- Start a command on a tile. -/
def Issue.tileCommand (i : Issue) (t : Nat) (f : Tile → Tile) (e : IfrEntry) : Except Stop Issue := do
  let i ← i.command e
  .ok (i.putTile t (f (i.core.tile t)))

/-! ### Copies (R226, R227, R230, R231) -/

/-- XCOPY.in (R226). -/
def Issue.copyIn (i : Issue) (o : XC) : Except Stop Issue := do
  let d := i.desc o
  let t := o.tile.toNat
  let va := i.pre.getA o.a.toNat
  if !d0Only d.d0 [fLAYOUT, fTOFF, fNBLK] || !nblkOk d.nblk || decide (512 < d.toff + d.nblk) || !layoutOk d.layout || !d1Ok d.d1
      || !(i.core.tile t).takesFill d.layout then illegalOperand else
  i.range va 64 (64 * d.nblk)
  i.tileCommand t (fun x => x.fillStart (BitVec.ofNat 16 d.layout)) (.new .idem 3 (opndXC va d t o.reint false) [])

/-- XCOPY.out from a tile (R227). -/
def Issue.copyOutTile (i : Issue) (o : XC) : Except Stop Issue := do
  let d := i.desc o
  let t := o.tile.toNat
  let va := i.pre.getA o.a.toNat
  if isKiosk i.n && decide (8 ≤ t) then .error (.trap 2 0) else
  if !d0Only d.d0 [fREL, fSRCA, fTOFF, fNBLK] || !nblkOk d.nblk || decide (512 < d.toff + d.nblk) || !d1Ok d.d1
      || decide ((i.core.tile t).st = .empty) then illegalOperand else
  i.range va 64 (64 * d.nblk)
  if (i.core.tile t).st = .filling then i.notReady t else
  i.tileCommand t (fun x => x.drainStart d.rel) (.new .idem 4 (opndXC va d t o.reint false) [])

/-- Bytes a row takes in an output format, by governing mode (R228 Table 6). -/
def drainBytes (fm : Bool) (fmt : Nat) : Option Nat :=
  match fmt, fm with
  | 0x06, false => some 1024
  | 0x01, true => some 256
  | 0x02, true => some 128
  | 0x03, true => some 128
  | 0x04, false => some 256
  | 0x05, false => some 256
  | 0x17, false => some 256
  | 0x04, true => some 64
  | 0x05, true => some 64
  | 0x17, true => some 64
  | _, _ => none

/-- XCOPY.out from an accumulator (R228). The payload is the governing mode, then per element the value and the word drawn for it. -/
def Issue.copyOutAcc (i : Issue) (o : XC) : Except Stop Issue := do
  let d := i.desc o
  let t := o.tile.toNat
  let va := i.pre.getA o.a.toNat
  if isKiosk i.n then illegalOperand else
  let fm := i.pre.mx.governs t
  let per := if fm then 64 else 256
  let stripe := if d.fmt = 0x17 then (if fm then 8 else 2) else 1
  match drainBytes fm d.fmt with
  | none => illegalOperand
  | some rowBytes =>
    if !d0Only d.d0 [fFMT, fSCL, fSRCA, fRM, fROW, fNBLK] || decide (d.nblk = 0) || decide (128 < d.row0 + d.nblk) || decide (23 < t)
        || decide (4 < d.rm) || decide (d.scl = 255) || !d1Ok d.d1 || decide (d.row0 % stripe ≠ 0) || decide (d.nblk % stripe ≠ 0)
        || decide (d.d2 % 64 ≠ 0) || decide (2 ^ 48 ≤ d.d2) then illegalOperand else
    let recip ← if fm then i.pre.unscale t else .ok none
    i.range va (if d.fmt = 0x17 then 512 else 64) (rowBytes * d.nblk)
    if (i.core.mx.st t).wm.toNat < d.row0 + d.nblk then .error .wait else
    let mx := i.core.mx
    let xs := (List.range d.nblk).flatMap (fun r =>
      let row := mx.row t (d.row0 + r)
      (List.range per).map (fun n => let x := rowElem row n; if fm then unscaled recip x else x))
    let draws := d.rm = 4 ∧ d.fmt ≠ 0x06 ∧ d.fmt ≠ 0x01
    let (ws, i) := i.roundWords (if draws then .rs else .rne) xs.length
    let payload := b2n fm :: (if draws then (xs.zip ws).map (fun p => p.1 + 2 ^ 32 * p.2) else xs)
    i.command (.new .idem 6 (opndXC va d t o.reint true) payload)

/-- XCOPY.out: SRCA chooses the source. -/
def Issue.copyOut (i : Issue) (o : XC) : Except Stop Issue := if (i.desc o).srca then i.copyOutAcc o else i.copyOutTile o

/-- XWBFILL (R230). -/
def Issue.wbFill (i : Issue) (o : XC) : Except Stop Issue := do
  let d := i.desc o
  let va := i.pre.getA o.a.toNat
  if !d0Only d.d0 [fFMT, fWOFF, fNBLK] || !nblkOk d.nblk || decide (8192 < d.woff + d.nblk) || !codeDefined d.fmt || decide (d.fmt = 0xFF)
      || !d1Ok d.d1 || decide (o.tile ≠ 0) then illegalOperand else
  i.range va 64 (64 * d.nblk)
  i.command (.new .idem 13 (opndXC va d 0 o.reint false) [])

/-- XPREF (R231): it changes no state that software can see. -/
def Issue.prefetch (i : Issue) (o : XC) : Except Stop Issue :=
  let d := i.desc o
  let va := i.pre.getA o.a.toNat
  if !d0Only d.d0 [fNBLK] || !nblkOk d.nblk || decide (o.tile ≠ 0) then illegalOperand
  else if va.toNat % 64 ≠ 0 then .error (.trap 7 va)
  else .ok i

/-! ### Gathers and scatters (R229) -/

/-- Byte ranges of the core's own scratchpad that an X operation reads at issue: the tiles they touch accept it (R273). -/
def Issue.tilesReadable (i : Issue) (off len : Nat) : Except Stop Unit :=
  let ts := (List.range (tileOf (off + len - 1) + 1 - tileOf off)).map (· + tileOf off)
  match ts.filter (fun t => !(i.core.tile t).takesLoad) with
  | [] => .ok ()
  | t :: l =>
    match (t :: l).find? (fun t => (i.core.tile t).ncmd = 0) with
    | some t => .error (.stuck t)
    | none => .error .wait

/-- The layout word of a tile that already holds data disagrees with a stated layout (R272). -/
def Issue.layoutBars (i : Issue) (off len l : Nat) : Bool :=
  ((List.range (tileOf (off + len - 1) + 1 - tileOf off)).map (· + tileOf off)).any
    (fun t => decide ((i.core.tile t).st ≠ .empty) && !layoutMatches l (i.core.tile t).layout.toNat)

/-- A block of the scratchpad that an X operation reads at issue is poisoned (R69). -/
def Issue.notPoisoned (i : Issue) (off len : Nat) : Except Stop Unit :=
  match (List.range ((off + len - 1) / 64 + 1 - off / 64)).find? (fun j => poisoned (i.core.spad.tag (off / 64 + j))) with
  | some j => .error (.trap 10 (BitVec.ofNat 64 (64 * (off / 64 + j))))
  | none => .ok ()

/-- XGATHER and XSCATTER (R229): the index list is read at issue. DESIGN CHOICE (log entry 126): R229 names no outcome for a list whose
offset is not a multiple of 4; it is an illegal operand, as a nonzero reserved field is. -/
def Issue.rowsCommand (i : Issue) (o : XC) (gather : Bool) : Except Stop Issue := do
  let d := i.desc o
  let t := o.tile.toNat
  let va := i.pre.getA o.a.toNat
  let n := d.nblk / (d.rblk + 1)
  let list := bits d.d2 19 0
  let st := (i.core.tile t)
  if !d0Only d.d0 (if gather then [fLAYOUT, fROW, fTOFF, fNBLK] else [fREL, fROW, fTOFF, fNBLK]) || !nblkOk d.nblk
      || decide (512 < d.toff + d.nblk) || decide (d.nblk % (d.rblk + 1) ≠ 0) || (gather && !layoutOk d.layout) || !d1Ok d.d1
      || decide (list % 4 ≠ 0) || decide (bits d.d2 31 20 ≠ 0) || decide (d.d2 / 2 ^ 32 % 64 ≠ 0)
      || (if gather then !st.takesFill d.layout else decide (st.st = .empty)) then illegalOperand else
  if decide (list + 4 * n ≤ spadSize i.n) && !o.reint && i.layoutBars list (4 * n) 0x06 then
    .error (.trap 11 (BitVec.ofNat 64 (list / 64 * 64))) else
  if va.toNat % 64 ≠ 0 then .error (.trap 7 va) else
  if spadSize i.n < list + 4 * n then .error (.trap 9 (BitVec.ofNat 64 list)) else
  i.tilesReadable list (4 * n)
  if !gather && decide (st.st = .filling) then i.notReady t else
  i.notPoisoned list (4 * n)
  let idx := (List.range n).map (fun k => i.core.spad.read (list + 4 * k) 4)
  let e := IfrEntry.new .idem 5 (opndXC va d t o.reint true) idx
  i.tileCommand t (fun x => if gather then x.fillStart (BitVec.ofNat 16 d.layout) else x.drainStart d.rel) e

/-! ### The quarter network (R232 to R234) -/

/-- The member of the core's group with index `k` in the quarter. -/
def State.memberAt (s : State) (n k : Nat) : Option Nat :=
  match s.group (s.core n).mem.grp with
  | none => none
  | some g => g.members.find? (fun m => m % 32 = k)

/-- A core of a collective's executor kernel has sent (1), taken (2) or added (3) a payload (16_kernel.md R369). -/
def State.noteMove (s : State) (n op peer : Nat) : State :=
  let k := (s.core n).mem.kref
  match s.kernel k with
  | some v =>
    if v.exec.isSome && !isKiosk n then
      s.setKernel k { v with moves := Tbl.set 0 v.moves (32 * op + peer % 32) (Tbl.get 0 v.moves (32 * op + peer % 32) + 1) }
    else s
  | none => s

/-- A payload lands in its channel and its entry is freed (R232, R320). -/
def State.landSend (s : State) (x : Send) : State :=
  let s := { s with sends := s.sends.filter (fun y => !(y.src = x.src && y.entry = x.entry)) }
  let s := s.upd x.dst (fun c => { c with chan := Tbl.set [] c.chan x.chan (Tbl.get [] c.chan x.chan ++ [⟨x.value, x.src⟩]) })
  (s.upd x.src (fun c => c.freeEntry x.entry)).noteMove x.src 1 x.dst

/-- The send that lands next among `l`: by cycle, then by sender. -/
def firstSend : List Send → Option Send
  | [] => none
  | x :: t =>
    match firstSend t with
    | none => some x
    | some y => if x.land < y.land ∨ (x.land = y.land ∧ x.src ≤ y.src) then some x else some y

/-- Every send whose payload is readable by now lands, in order; `k` bounds them. -/
def State.landSends : Nat → State → State
  | 0, s => s
  | k + 1, s =>
    match firstSend (s.sends.filter (fun x => x.land ≤ s.now)) with
    | none => s
    | some x => State.landSends k (s.landSend x)

/-- Entries held, in flight and not yet taken of a channel (R232). -/
def State.chanCount (s : State) (dst ch : Nat) : Nat :=
  (Tbl.get [] (s.core dst).chan ch).length + (s.sends.filter (fun x => x.dst = dst && x.chan = ch)).length

/-- XSEND (R232); the payload leaves with its record entry. -/
def Issue.send (i : Issue) (o : RR) : Except Stop Issue := do
  let (v, i) ← i.source 0 (smode o.mode).1 .v o.s1.toNat
  let k := (i.pre.getG o.s2.toNat).toNat
  let ch := o.d.toNat
  match (if k < 32 then i.s.memberAt i.n k else none) with
  | none => illegalOperand
  | some dst =>
    if 4 ≤ i.s.chanCount dst ch then .error (.trap 14 0)
    else i.command (.new .idem 7 (BitVec.ofNat 512 (dst % 32 + ch * 256)) [v.toNat, dst])

/-- Take the oldest readable entry of a channel (R233), as operation `op` of a chunk table. -/
def Issue.receive (i : Issue) (ch op : Nat) : Except Stop (Vec × Issue) :=
  let i := { i with s := i.s.landSends i.s.sends.length }
  match Tbl.get [] i.core.chan ch with
  | [] => .error (.trap 15 0)
  | e :: t =>
    let i := i.upd (fun c => { c with chan := Tbl.set [] c.chan ch t })
    .ok (e.value, { i with s := i.s.noteMove i.n op e.sender })

/-- XRECV. -/
def Issue.recv (i : Issue) (o : RR) : Except Stop Issue := do
  let (x, i) ← i.receive o.s1.toNat 2
  i.toV o.d.toNat o.dnil x 2

/-- XRECVADD with lanes of `w` bits. -/
def Issue.recvAdd (i : Issue) (o : RR) (w : Nat) (f : Nat → Nat → Nat) : Except Stop Issue := do
  let (a, i) ← i.source 0 (smode o.mode).1 .v o.s1.toNat
  let (x, i) ← i.receive o.s2.toNat 3
  i.toV o.d.toNat o.dnil (mapLanes w (fun k => f (lane a w k) (lane x w k))) 14

/-- Sum of R233 in a float format. -/
def recvSum (f : Fmt) (a x : Nat) : Nat := roundSum f .rne 0 (addVal .rne (f.val a) (f.val x))

/-- The member and byte offset of XRLD and XRST (R234), with the checks of an access to it. DESIGN CHOICE (log entry 127): a core number
of no member is examined before the alignment, and an offset of 2^20 or more is an access violation (cause 9). -/
def Issue.remote (i : Issue) (o : RR) (store : Bool) : Except Stop (Nat × Nat) :=
  let off := (i.pre.getA o.s1.toNat).toNat
  let k := (i.pre.getG o.s2.toNat).toNat
  if 32 ≤ k then .error (.trap 4 0) else
  match i.s.memberAt i.n k with
  | none => .error (.trap 9 (BitVec.ofNat 64 off))
  | some m =>
    if off % 128 ≠ 0 then .error (.trap 7 (BitVec.ofNat 64 off))
    else if 2 ^ 20 ≤ off then .error (.trap 9 (BitVec.ofNat 64 off))
    else
      let c := i.s.core m
      let t := c.tile (tileOf off)
      if !(if store then t.takesStore else t.takesLoad) then
        .error (if m = i.n ∧ t.ncmd = 0 then .stuck (tileOf off) else .wait)
      else match (if store then none else [off / 64, off / 64 + 1].find? (fun b => poisoned (c.spad.tag b))) with
        | some b => .error (.trap 10 (BitVec.ofNat 64 (64 * b)))
        | none => .ok (m, off)

/-- The access has seen the member's tile as its last change left it (R275, 09_memory_model.md R254). -/
def Issue.tileSeen (i : Issue) (m off : Nat) : Issue := { i with s := (i.s.readTime i.n (tileLine m (tileOf off))).1 }

/-- XRLD. Its request takes the slot's entry while its bundle is held (13_inflight_record.md R318); its 128 bytes have no place in RESULT,
so that the member's scratchpad is read as the bundle issues. -/
def Issue.remoteLoad (i : Issue) (o : RR) : Except Stop Issue := do
  let (m, off) ← i.remote o false
  i.sent (readRequest (BitVec.ofNat 64 off) 128 13)
  let (lo, i) := (i.tileSeen m off).spadRead m off 64
  let (hi, i) := i.spadRead m (off + 64) 64
  i.toV o.d.toNat o.dnil (BitVec.ofNat 1024 (lo + 2 ^ 512 * hi)) 16

/-- XRST: v[d] is a source. -/
def Issue.remoteStore (i : Issue) (o : RR) : Except Stop Issue := do
  let x ← i.readReg .v o.d.toNat
  let (m, off) ← i.remote o true
  .ok (((i.tileSeen m off).spadWrite m off 64 (x.toNat % 2 ^ 512)).spadWrite m (off + 64) 64 (x.toNat / 2 ^ 512))

/-- XNOP (R118): it occupies its position and does nothing. -/
def opXnop : Op := .ok

/-- `XNOP` alone in its bundle. -/
def execXnop (s : State) : Result := issueSolo .xnop opXnop s

/-- XCOPY.in (R226). -/
def opXcopyIn (g : Guard) (o : XC) : Op := guarded g (incOf o.a o.am) (fun i => i.copyIn o)

/-- `XCOPY_IN` alone in its bundle. -/
def execXcopyIn (g : Guard) (o : XC) (s : State) : Result := issueSolo (.x (.xcopyIn g o)) (opXcopyIn g o) s

/-- XCOPY.out (R227); SRCA of D0 names the source. -/
def opXcopyOut (g : Guard) (o : XC) : Op := guarded g (incOf o.a o.am) (fun i => i.copyOut o)

/-- `XCOPY_OUT` alone in its bundle. -/
def execXcopyOut (g : Guard) (o : XC) (s : State) : Result := issueSolo (.x (.xcopyOut g o)) (opXcopyOut g o) s

/-- XCOPY.out (R228) from an accumulator. -/
def opXcopyOutAcc (g : Guard) (o : XC) : Op := guarded g (incOf o.a o.am) (fun i => i.copyOut o)

/-- `XCOPY_OUT_ACC` alone in its bundle. -/
def execXcopyOutAcc (g : Guard) (o : XC) (s : State) : Result := issueSolo (.x (.xcopyOutAcc g o)) (opXcopyOutAcc g o) s

/-- XGATHER (R229). -/
def opXgather (g : Guard) (o : XC) : Op := guarded g (incOf o.a o.am) (fun i => i.rowsCommand o true)

/-- `XGATHER` alone in its bundle. -/
def execXgather (g : Guard) (o : XC) (s : State) : Result := issueSolo (.x (.xgather g o)) (opXgather g o) s

/-- XSCATTER (R229). -/
def opXscatter (g : Guard) (o : XC) : Op := guarded g (incOf o.a o.am) (fun i => i.rowsCommand o false)

/-- `XSCATTER` alone in its bundle. -/
def execXscatter (g : Guard) (o : XC) (s : State) : Result := issueSolo (.x (.xscatter g o)) (opXscatter g o) s

/-- XWBFILL (R230). -/
def opXwbfill (g : Guard) (o : XC) : Op := guarded g (incOf o.a o.am) (fun i => i.wbFill o)

/-- `XWBFILL` alone in its bundle. -/
def execXwbfill (g : Guard) (o : XC) (s : State) : Result := issueSolo (.x (.xwbfill g o)) (opXwbfill g o) s

/-- XPREF (R231). -/
def opXpref (g : Guard) (o : XC) : Op := guarded g (incOf o.a o.am) (fun i => i.prefetch o)

/-- `XPREF` alone in its bundle. -/
def execXpref (g : Guard) (o : XC) (s : State) : Result := issueSolo (.x (.xpref g o)) (opXpref g o) s

/-- XSEND (R232). -/
def opXsend (g : Guard) (o : RR) : Op := guarded g none (fun i => i.send o)

/-- `XSEND` alone in its bundle. -/
def execXsend (g : Guard) (o : RR) (s : State) : Result := issueSolo (.x (.xsend g o)) (opXsend g o) s

/-- XRECV (R233). -/
def opXrecv (g : Guard) (o : RR) : Op := guarded g none (fun i => i.recv o)

/-- `XRECV` alone in its bundle. -/
def execXrecv (g : Guard) (o : RR) (s : State) : Result := issueSolo (.x (.xrecv g o)) (opXrecv g o) s

/-- XRECVADD.f32 (R233). -/
def opXrecvaddF32 (g : Guard) (o : RR) : Op := guarded g none (fun i => i.recvAdd o 32 (recvSum .f32))

/-- `XRECVADD_F32` alone in its bundle. -/
def execXrecvaddF32 (g : Guard) (o : RR) (s : State) : Result := issueSolo (.x (.xrecvaddF32 g o)) (opXrecvaddF32 g o) s

/-- XRECVADD.i32 (R233). -/
def opXrecvaddI32 (g : Guard) (o : RR) : Op := guarded g none (fun i => i.recvAdd o 32 (fun a x => (a + x) % 2 ^ 32))

/-- `XRECVADD_I32` alone in its bundle. -/
def execXrecvaddI32 (g : Guard) (o : RR) (s : State) : Result := issueSolo (.x (.xrecvaddI32 g o)) (opXrecvaddI32 g o) s

/-- XRECVADD.bf16 (R233). -/
def opXrecvaddBf16 (g : Guard) (o : RR) : Op := guarded g none (fun i => i.recvAdd o 16 (recvSum .bf16))

/-- `XRECVADD_BF16` alone in its bundle. -/
def execXrecvaddBf16 (g : Guard) (o : RR) (s : State) : Result := issueSolo (.x (.xrecvaddBf16 g o)) (opXrecvaddBf16 g o) s

/-- XRLD (R234). -/
def opXrld (g : Guard) (o : RR) : Op := guarded g none (fun i => i.remoteLoad o)

/-- `XRLD` alone in its bundle. -/
def execXrld (g : Guard) (o : RR) (s : State) : Result := issueSolo (.x (.xrld g o)) (opXrld g o) s

/-- XRST (R234). -/
def opXrst (g : Guard) (o : RR) : Op := guarded g none (fun i => i.remoteStore o)

/-- `XRST` alone in its bundle. -/
def execXrst (g : Guard) (o : RR) (s : State) : Result := issueSolo (.x (.xrst g o)) (opXrst g o) s


end Sys2Proof.Machine
end

