-- ==== Sys2Proof/Machine/Ordering.lean ====
section
/-! DEFINITION. Tag tables at the homes (13_inflight_record.md R321 to R323), atomics and ordering operations (08_transfer.md R235 to
R241, R244 to R246; 09_memory_model.md R262 to R265). -/

namespace Sys2Proof.Machine

/-! ### Tagged requests -/

/-- The answer to a tagged request. -/
inductive TagAns where
  | value (v : W64)
  | lost
deriving DecidableEq, Repr

/-- EVSEQ of a context, core and space, when an eviction has set it. -/
def TagTables.evseqOf (t : TagTables) (x n sp : Nat) : Option Nat := (t.evseq.find? (fun e => e.1 = (x, n, sp))).map (·.2)

/-- Tag `a` is not after `b` in its space (R323). -/
def notAfter (sp a b : Nat) : Bool :=
  let w := if sp = 0 then 24 else 32
  decide ((b + 2 ^ w - a % 2 ^ w) % 2 ^ w < 2 ^ (w - 1))

/-- Raise EVSEQ to an evicted tag when it is later. -/
def TagTables.raise (t : TagTables) (e : TagEntry) : TagTables :=
  let k := (e.ctx, e.core, e.space)
  match t.evseqOf e.ctx e.core e.space with
  | none => { t with evseq := t.evseq ++ [(k, e.tag)] }
  | some v => if notAfter e.space e.tag v then t else { t with evseq := t.evseq.map (fun x => if x.1 = k then (k, e.tag) else x) }

/-- An entry is inserted at a home; a full table loses the entry inserted earliest. -/
def TagTables.insert (t : TagTables) (home : Nat) (e : TagEntry) : TagTables :=
  let l := (Tbl.get [] t.tables home).filter (fun x => !(x.ctx = e.ctx && x.core = e.core && x.space = e.space && x.tag = e.tag))
  match decide (8192 ≤ l.length), l with
  | true, x :: r => TagTables.raise { t with tables := Tbl.set [] t.tables home (r ++ [e]) } x
  | _, _ => { t with tables := Tbl.set [] t.tables home (l ++ [e]) }

/-- A tagged request at its home (R322 Table 3): `apply` performs it and gives its result. Where the page has moved to another home since
the request was applied, the table of the home it then had answers (11_page.md R297). -/
def State.tagged (s : State) (home x n sp tag : Nat) (rpl : Bool) (apply : State → W64 × State) : TagAns × State :=
  let run : TagAns × State :=
    let (v, s) := apply s
    (.value v, { s with tags := s.tags.insert home ⟨x, n, sp, tag, v⟩ })
  if !rpl then run else
  match (s.tags.tables.flatMap (·.2)).find? (fun e => e.ctx = x && e.core = n && e.space = sp && e.tag = tag) with
  | some e => (.value e.result, s)
  | none =>
    match s.tags.evseqOf x n sp with
    | some v => if notAfter sp tag v then (.lost, s) else run
    | none => run

/-! ### Progress of commands (R224, R237, R238) -/

/-- Bytes of a command's range. -/
def IfrEntry.total (e : IfrEntry) : Nat :=
  let d : Desc := ⟨e.field 8 8, e.field 16 8, e.field 32 8⟩
  if e.kind = 6 then
    match drainBytes (nth 0 e.payload 0 = 1) d.fmt with
    | some b => b * d.nblk
    | none => 0
  else 64 * d.nblk

/-- The entry's command copies blocks. -/
def IfrEntry.copies (e : IfrEntry) : Bool := e.kind = 3 || e.kind = 4 || e.kind = 5 || e.kind = 6 || e.kind = 13

/-- Every write of the command has been performed; its counter's add is one of them (R249). -/
def IfrEntry.writesDone (e : IfrEntry) : Bool :=
  e.ended || e.ans || e.kind = 7 || e.kind = 10 || e.kind = 12 || (e.copies && decide (e.total ≤ e.prog) && decide (e.field 16 8 = 0))

/-- The command has been performed: it is ended, or answered. -/
def IfrEntry.performed (e : IfrEntry) : Bool := e.ended || e.ans

/-- Every asynchronous command with an earlier SEQ, XNMC excluded, has been performed (R237). -/
def Core.allPerformed (c : Core) (seq : Nat) : Bool :=
  c.commands.all (fun x => x.2.kind = 9 || x.2.kind = 7 || !seqBefore x.2.seq seq || x.2.performed)

/-- Every asynchronous write with an earlier SEQ, XNMC excluded, has been performed (R238, R391). -/
def Core.allWritten (c : Core) (seq : Nat) : Bool :=
  c.commands.all (fun x => x.2.kind = 9 || !seqBefore x.2.seq seq || x.2.writesDone)

/-- Every XNMC with an earlier SEQ has ended (R245). -/
def Core.allNmDone (c : Core) (seq : Nat) : Bool :=
  c.commands.all (fun x => x.2.kind ≠ 9 || !seqBefore x.2.seq seq || x.2.performed)

/-- A command held behind a fence may start (R326). -/
def Core.released (c : Core) (e : IfrEntry) : Bool := (!e.waitX || c.allPerformed e.wseq) && (!e.waitN || c.allNmDone e.wseqN)

/-! ### Atomics (R235, R264) -/

inductive AmoOp where
  | add | fadd | min | max | minn | maxn | and | or | xor | swap | cas
deriving DecidableEq, Repr

/-- Operation and width of an opcode. -/
def amoOf (opc : Nat) : AmoOp × Nat :=
  match opc with
  | 0x30 => (.add, 32) | 0x31 => (.add, 64) | 0x32 => (.fadd, 32) | 0x33 => (.min, 32) | 0x34 => (.min, 64) | 0x35 => (.max, 32)
  | 0x36 => (.max, 64) | 0x37 => (.minn, 32) | 0x38 => (.minn, 64) | 0x39 => (.maxn, 32) | 0x3A => (.maxn, 64) | 0x3B => (.and, 32)
  | 0x3C => (.and, 64) | 0x3D => (.or, 32) | 0x3E => (.or, 64) | 0x3F => (.xor, 32) | 0x40 => (.xor, 64) | 0x41 => (.swap, 32)
  | 0x42 => (.swap, 64) | 0x43 => (.cas, 32) | _ => (.cas, 64)

/-- The new value of `w` bits. -/
def AmoOp.new (k : AmoOp) (w old x c : Nat) : Nat :=
  let y := x % 2 ^ w
  match k with
  | .add => (old + y) % 2 ^ w
  | .fadd => addF32 old y
  | .min => if sext old w ≤ sext y w then old else y
  | .max => if sext y w ≤ sext old w then old else y
  | .minn => if old ≤ y then old else y
  | .maxn => if y ≤ old then old else y
  | .and => Nat.land old y
  | .or => Nat.lor old y
  | .xor => Nat.xor old y
  | .swap => y
  | .cas => if old = c % 2 ^ w then y else old

/-- The old value as it is returned. -/
def AmoOp.ret (k : AmoOp) (w old : Nat) : W64 :=
  match k with
  | .add | .min | .max => w64 (sext old w)
  | _ => BitVec.ofNat 64 old

/-- The read-modify-write at the home; `put` is the write. -/
def amoApply (opc pa : Nat) (x c : W64) (put : State → Nat → Nat → Nat → State) (s : State) : W64 × State :=
  let (k, w) := amoOf opc
  let old := s.rd pa (w / 8)
  (k.ret w old, put s pa (w / 8) (k.new w old x.toNat c.toNat))

/-- OPND of kind 2. -/
def opndAmo (va x c : W64) (opc d : Nat) : BitVec 512 :=
  BitVec.ofNat 512 (va.toNat + x.toNat * 2 ^ 64 + c.toNat * 2 ^ 128 + opc * 2 ^ 192 + d * 2 ^ 200)

/-- An earlier atomic of the core to the same word is still to be performed (R264). -/
def Core.amoPending (c : Core) (va : W64) (seq : Nat) : Bool :=
  c.commands.any (fun x => x.2.kind = 2 && !x.2.performed && seqBefore x.2.seq seq && decide (x.2.field 0 8 / 8 = va.toNat / 8))

/-- The wait kind of XAMO. Once its request has left the core it stands in the slot's request entry, where ATOMIC_AT_HOME performs it
(R235; 13_inflight_record.md R318, R330); a request answered lost traps at the held bundle (R323). -/
def Issue.amoWait (i : Issue) (o : XA) (opc : Nat) (va x c : W64) : Except Stop Issue := do
  let k := 96 + i.slot
  let size := (amoOf opc).2 / 8
  let done (i : Issue) (v : W64) : Except Stop Issue := .ok (i.resultG o.d.toNat v 4)
  let answered := match i.pre.entry k with | some e => if e.ans then some e else none | none => none
  match answered with
  | some e => done { i with s := { i.s with tags := i.s.tags.forget i.ctxNo i.n 0 e.seq } } e.result
  | none =>
    if (match i.pre.entry k with | some e => e.ended || e.devId ≠ Config.devId i.s.root.boots | none => false) then .error (.trap 0x14 va) else
    match ← i.examine va size (permXR + permXW) true false with
    | .dev _ _ => .error (.trap 9 va)
    | .mem pa _ =>
      if kvSays i.ctx (i.s.grpOf i.n) true va = .refuse then .error (.trap 9 va)
      else if i.core.amoPending va i.pre.nextSeq then .error .wait
      else if poisoned (i.s.tagOf pa) then .error (.trap 10 (BitVec.ofNat 64 (va.toNat / 64 * 64)))
      else
        i.sent { IfrEntry.new .tagged 2 (opndAmo va x c opc o.d.toNat) [] with home := homeOf pa }
        let seq := i.core.nextSeq
        let s := i.s.upd i.n (fun c => { c with nextSeq := (c.nextSeq + 1) % 2 ^ 24 })
        let (a, s) := s.tagged (homeOf pa) i.ctxNo i.n 0 seq false (amoApply opc pa x c (fun s a n v => s.coreStore i.n a n (s.ringValue i.ctxNo va a n v)))
        let s := { s with tags := s.tags.forget i.ctxNo i.n 0 seq }
        match a with
        | .value v => done { i with s := s } v
        | .lost => .error (.trap 0x14 va)

/-- XAMO (R235). -/
def Issue.amo (i : Issue) (o : XA) (opc : Nat) : Except Stop Issue := do
  let va := i.pre.getA o.a.toNat
  let x := i.pre.getG o.s.toNat
  let c := i.pre.getG o.s3.toNat
  if o.d ≠ 0 then i.amoWait o opc va x c
  else
    let size := (amoOf opc).2 / 8
    i.range va size size
    i.command (.new .tagged 2 (opndAmo va x c opc 0) [])

/-! ### Fences, releases and acquires (R236 to R240, R245) -/

/-- The SEQ of the first entry allocated after an operation of this slot. -/
def Issue.pointSeq (i : Issue) : Nat := (i.core.nextSeq + (i.cmds.filter (fun c => c.1 < i.slot)).length) % 2 ^ 24

/-- XFENCE (R237). -/
def Issue.fence (i : Issue) (scope : Nat) : Issue :=
  let q := i.pointSeq
  i.upd (fun c => { c with fenceX := true, fseq := q, fscope := scope })

/-- XNMFENCE (R245). -/
def Issue.nmFence (i : Issue) : Issue :=
  let q := i.pointSeq
  i.upd (fun c => { c with fenceN := true, fseqN := q })

/-- XREL (R238). -/
def Issue.release (i : Issue) (o : XO) : Except Stop Issue := do
  let va := i.pre.getA o.a.toNat
  let x := i.pre.getG o.g.toNat
  i.range va 8 8
  if wvBars i.ctx va then .error (.trap 9 va) else
  let e := IfrEntry.new .tagged 8 (BitVec.ofNat 512 (va.toNat + x.toNat * 2 ^ 64 + o.scope.toNat * 2 ^ 128)) []
  let i ← i.command e
  .ok (i.upd (fun c => { c with fenceR := true, relblk := c.relblk ++ [va.toNat / 64 * 64] }))

/-- A 64-bit load of X0 with latency 4. The fault buffer's page is read so too (11_page.md R291). -/
def Issue.xLoad (i : Issue) (d : Nat) (va : W64) : Except Stop Issue := do
  match ← i.examine va 8 permXR false false with
  | .dev d' off =>
    let (v, s) := i.s.devRead i.n d' off 8
    .ok ({ i with s := s }.resultG d (BitVec.ofNat 64 v) 4)
  | .mem pa _ =>
    let (v, i) ← i.loadAt va pa 8 permXR
    .ok (i.resultG d (BitVec.ofNat 64 v) 4)

/-- XVLD (R240). -/
def Issue.xvld (i : Issue) (o : XA) : Except Stop Issue := do
  let x := (i.pre.getG o.s.toNat).toNat
  let va := i.pre.getA o.a.toNat
  let e := Tbl.get .none i.ctx.wvt (x % 2 ^ 12)
  if bits x 31 12 ≠ 0 ∨ e.ver = 0 then illegalOperand else
  match ← i.examine va 8 permXR false false with
  | .dev _ _ => .error (.trap 9 va)
  | .mem pa _ =>
    if 2 ^ 31 ≤ (e.ver.toNat + 2 ^ 32 - x / 2 ^ 32) % 2 ^ 32 then .error .wait else
    let i := { i with s := i.s.acquire i.n e.time }
    let (v, i) ← i.loadAt va pa 8 permXR
    .ok (i.resultG o.d.toNat (BitVec.ofNat 64 v) 4)

/-! ### Near-memory commands and tags (R241, R246) -/

/-- XNMC (R241): the 64 bytes are read at issue. -/
def Issue.nmCommand (i : Issue) (o : RR) : Except Stop Issue := do
  let off := (i.pre.getA o.s1.toNat).toNat
  if decide (off + 64 ≤ spadSize i.n) && i.layoutBars off 64 0 then .error (.trap 11 (BitVec.ofNat 64 (off / 64 * 64))) else
  if off % 64 ≠ 0 then .error (.trap 7 (BitVec.ofNat 64 off)) else
  if spadSize i.n < off + 64 then .error (.trap 9 (BitVec.ofNat 64 off)) else
  i.tilesReadable off 64
  i.notPoisoned off 64
  i.command (.new .tagged 9 (i.core.spad.block (off / 64)) [])

/-- XTAGLD. -/
def Issue.tagLoad (i : Issue) (o : RR) : Except Stop Issue := do
  let va := i.pre.getA o.s1.toNat
  match ← i.examine va 64 permXR false false with
  | .dev _ _ => .error (.trap 9 va)
  | .mem pa _ =>
    let (t, i) ← i.tagAt va pa permXR
    .ok (i.resultG o.d.toNat (t.setWidth 64) 4)

/-- XTAGST. -/
def Issue.tagStore (i : Issue) (o : RR) : Except Stop Issue := do
  let va := i.pre.getA o.s1.toNat
  let (x, i) ← i.rrG2 o
  if 2 ^ 16 ≤ x.toNat ∨ !codeDefined (x.toNat / 256) then illegalOperand else
  match ← i.examine va 64 permXW true false with
  | .dev _ _ => .error (.trap 9 va)
  | .mem pa repl =>
    if kvSays i.ctx (i.s.grpOf i.n) true va = .refuse then .error (.trap 9 va) else
    if poisoned (i.s.tagOf pa) then .error (.trap 10 va) else
    let store (s : State) : State := (s.coreWriteTime i.n (globalLine pa)).putTag pa (x.setWidth 16)
    if repl then i.commitLine va pa store (fun s a => s.putTag a (x.setWidth 16))
    else .ok { i with s := store i.s }

/-- XAMO.add.32 (R235). -/
def opXamoAdd32 (g : Guard) (o : XA) : Op := guarded g (incOf o.a o.am) (fun i => i.amo o 0x30)

/-- `XAMO_ADD_32` alone in its bundle. -/
def execXamoAdd32 (g : Guard) (o : XA) (s : State) : Result := issueSolo (.x (.xamoAdd32 g o)) (opXamoAdd32 g o) s

/-- XAMO.add.64 (R235). -/
def opXamoAdd64 (g : Guard) (o : XA) : Op := guarded g (incOf o.a o.am) (fun i => i.amo o 0x31)

/-- `XAMO_ADD_64` alone in its bundle. -/
def execXamoAdd64 (g : Guard) (o : XA) (s : State) : Result := issueSolo (.x (.xamoAdd64 g o)) (opXamoAdd64 g o) s

/-- XAMO.fadd.f32 (R235). -/
def opXamoFaddF32 (g : Guard) (o : XA) : Op := guarded g (incOf o.a o.am) (fun i => i.amo o 0x32)

/-- `XAMO_FADD_F32` alone in its bundle. -/
def execXamoFaddF32 (g : Guard) (o : XA) (s : State) : Result := issueSolo (.x (.xamoFaddF32 g o)) (opXamoFaddF32 g o) s

/-- XAMO.min.32 (R235). -/
def opXamoMin32 (g : Guard) (o : XA) : Op := guarded g (incOf o.a o.am) (fun i => i.amo o 0x33)

/-- `XAMO_MIN_32` alone in its bundle. -/
def execXamoMin32 (g : Guard) (o : XA) (s : State) : Result := issueSolo (.x (.xamoMin32 g o)) (opXamoMin32 g o) s

/-- XAMO.min.64 (R235). -/
def opXamoMin64 (g : Guard) (o : XA) : Op := guarded g (incOf o.a o.am) (fun i => i.amo o 0x34)

/-- `XAMO_MIN_64` alone in its bundle. -/
def execXamoMin64 (g : Guard) (o : XA) (s : State) : Result := issueSolo (.x (.xamoMin64 g o)) (opXamoMin64 g o) s

/-- XAMO.max.32 (R235). -/
def opXamoMax32 (g : Guard) (o : XA) : Op := guarded g (incOf o.a o.am) (fun i => i.amo o 0x35)

/-- `XAMO_MAX_32` alone in its bundle. -/
def execXamoMax32 (g : Guard) (o : XA) (s : State) : Result := issueSolo (.x (.xamoMax32 g o)) (opXamoMax32 g o) s

/-- XAMO.max.64 (R235). -/
def opXamoMax64 (g : Guard) (o : XA) : Op := guarded g (incOf o.a o.am) (fun i => i.amo o 0x36)

/-- `XAMO_MAX_64` alone in its bundle. -/
def execXamoMax64 (g : Guard) (o : XA) (s : State) : Result := issueSolo (.x (.xamoMax64 g o)) (opXamoMax64 g o) s

/-- XAMO.minn.32 (R235). -/
def opXamoMinn32 (g : Guard) (o : XA) : Op := guarded g (incOf o.a o.am) (fun i => i.amo o 0x37)

/-- `XAMO_MINN_32` alone in its bundle. -/
def execXamoMinn32 (g : Guard) (o : XA) (s : State) : Result := issueSolo (.x (.xamoMinn32 g o)) (opXamoMinn32 g o) s

/-- XAMO.minn.64 (R235). -/
def opXamoMinn64 (g : Guard) (o : XA) : Op := guarded g (incOf o.a o.am) (fun i => i.amo o 0x38)

/-- `XAMO_MINN_64` alone in its bundle. -/
def execXamoMinn64 (g : Guard) (o : XA) (s : State) : Result := issueSolo (.x (.xamoMinn64 g o)) (opXamoMinn64 g o) s

/-- XAMO.maxn.32 (R235). -/
def opXamoMaxn32 (g : Guard) (o : XA) : Op := guarded g (incOf o.a o.am) (fun i => i.amo o 0x39)

/-- `XAMO_MAXN_32` alone in its bundle. -/
def execXamoMaxn32 (g : Guard) (o : XA) (s : State) : Result := issueSolo (.x (.xamoMaxn32 g o)) (opXamoMaxn32 g o) s

/-- XAMO.maxn.64 (R235). -/
def opXamoMaxn64 (g : Guard) (o : XA) : Op := guarded g (incOf o.a o.am) (fun i => i.amo o 0x3A)

/-- `XAMO_MAXN_64` alone in its bundle. -/
def execXamoMaxn64 (g : Guard) (o : XA) (s : State) : Result := issueSolo (.x (.xamoMaxn64 g o)) (opXamoMaxn64 g o) s

/-- XAMO.and.32 (R235). -/
def opXamoAnd32 (g : Guard) (o : XA) : Op := guarded g (incOf o.a o.am) (fun i => i.amo o 0x3B)

/-- `XAMO_AND_32` alone in its bundle. -/
def execXamoAnd32 (g : Guard) (o : XA) (s : State) : Result := issueSolo (.x (.xamoAnd32 g o)) (opXamoAnd32 g o) s

/-- XAMO.and.64 (R235). -/
def opXamoAnd64 (g : Guard) (o : XA) : Op := guarded g (incOf o.a o.am) (fun i => i.amo o 0x3C)

/-- `XAMO_AND_64` alone in its bundle. -/
def execXamoAnd64 (g : Guard) (o : XA) (s : State) : Result := issueSolo (.x (.xamoAnd64 g o)) (opXamoAnd64 g o) s

/-- XAMO.or.32 (R235). -/
def opXamoOr32 (g : Guard) (o : XA) : Op := guarded g (incOf o.a o.am) (fun i => i.amo o 0x3D)

/-- `XAMO_OR_32` alone in its bundle. -/
def execXamoOr32 (g : Guard) (o : XA) (s : State) : Result := issueSolo (.x (.xamoOr32 g o)) (opXamoOr32 g o) s

/-- XAMO.or.64 (R235). -/
def opXamoOr64 (g : Guard) (o : XA) : Op := guarded g (incOf o.a o.am) (fun i => i.amo o 0x3E)

/-- `XAMO_OR_64` alone in its bundle. -/
def execXamoOr64 (g : Guard) (o : XA) (s : State) : Result := issueSolo (.x (.xamoOr64 g o)) (opXamoOr64 g o) s

/-- XAMO.xor.32 (R235). -/
def opXamoXor32 (g : Guard) (o : XA) : Op := guarded g (incOf o.a o.am) (fun i => i.amo o 0x3F)

/-- `XAMO_XOR_32` alone in its bundle. -/
def execXamoXor32 (g : Guard) (o : XA) (s : State) : Result := issueSolo (.x (.xamoXor32 g o)) (opXamoXor32 g o) s

/-- XAMO.xor.64 (R235). -/
def opXamoXor64 (g : Guard) (o : XA) : Op := guarded g (incOf o.a o.am) (fun i => i.amo o 0x40)

/-- `XAMO_XOR_64` alone in its bundle. -/
def execXamoXor64 (g : Guard) (o : XA) (s : State) : Result := issueSolo (.x (.xamoXor64 g o)) (opXamoXor64 g o) s

/-- XAMO.swap.32 (R235). -/
def opXamoSwap32 (g : Guard) (o : XA) : Op := guarded g (incOf o.a o.am) (fun i => i.amo o 0x41)

/-- `XAMO_SWAP_32` alone in its bundle. -/
def execXamoSwap32 (g : Guard) (o : XA) (s : State) : Result := issueSolo (.x (.xamoSwap32 g o)) (opXamoSwap32 g o) s

/-- XAMO.swap.64 (R235). -/
def opXamoSwap64 (g : Guard) (o : XA) : Op := guarded g (incOf o.a o.am) (fun i => i.amo o 0x42)

/-- `XAMO_SWAP_64` alone in its bundle. -/
def execXamoSwap64 (g : Guard) (o : XA) (s : State) : Result := issueSolo (.x (.xamoSwap64 g o)) (opXamoSwap64 g o) s

/-- XAMO.cas.32 (R235). -/
def opXamoCas32 (g : Guard) (o : XA) : Op := guarded g (incOf o.a o.am) (fun i => i.amo o 0x43)

/-- `XAMO_CAS_32` alone in its bundle. -/
def execXamoCas32 (g : Guard) (o : XA) (s : State) : Result := issueSolo (.x (.xamoCas32 g o)) (opXamoCas32 g o) s

/-- XAMO.cas.64 (R235). -/
def opXamoCas64 (g : Guard) (o : XA) : Op := guarded g (incOf o.a o.am) (fun i => i.amo o 0x44)

/-- `XAMO_CAS_64` alone in its bundle. -/
def execXamoCas64 (g : Guard) (o : XA) (s : State) : Result := issueSolo (.x (.xamoCas64 g o)) (opXamoCas64 g o) s

/-- XFENCE (R237). -/
def opXfence (g : Guard) (o : XO) : Op := guarded g (incOf o.a o.am) (fun i => .ok (i.fence o.scope.toNat))

/-- `XFENCE` alone in its bundle. -/
def execXfence (g : Guard) (o : XO) (s : State) : Result := issueSolo (.x (.xfence g o)) (opXfence g o) s

/-- XREL (R238). -/
def opXrel (g : Guard) (o : XO) : Op := guarded g (incOf o.a o.am) (fun i => i.release o)

/-- `XREL` alone in its bundle. -/
def execXrel (g : Guard) (o : XO) (s : State) : Result := issueSolo (.x (.xrel g o)) (opXrel g o) s

/-- XACQ (R239). -/
def opXacq (g : Guard) (o : XO) : Op := guarded g (incOf o.a o.am) (fun i => i.xLoad o.g.toNat (i.pre.getA o.a.toNat))

/-- `XACQ` alone in its bundle. -/
def execXacq (g : Guard) (o : XO) (s : State) : Result := issueSolo (.x (.xacq g o)) (opXacq g o) s

/-- XVLD (R240). -/
def opXvld (g : Guard) (o : XA) : Op := guarded g (incOf o.a o.am) (fun i => i.xvld o)

/-- `XVLD` alone in its bundle. -/
def execXvld (g : Guard) (o : XA) (s : State) : Result := issueSolo (.x (.xvld g o)) (opXvld g o) s

/-- XNMC (R241). -/
def opXnmc (g : Guard) (o : RR) : Op := guarded g none (fun i => i.nmCommand o)

/-- `XNMC` alone in its bundle. -/
def execXnmc (g : Guard) (o : RR) (s : State) : Result := issueSolo (.x (.xnmc g o)) (opXnmc g o) s

/-- XNMFENCE (R245). -/
def opXnmfence (g : Guard) : Op := guarded g none (fun i => .ok i.nmFence)

/-- `XNMFENCE` alone in its bundle. -/
def execXnmfence (g : Guard) (s : State) : Result := issueSolo (.x (.xnmfence g)) (opXnmfence g) s

/-- XTAGLD (R246). -/
def opXtagld (g : Guard) (o : RR) : Op := guarded g none (fun i => i.tagLoad o)

/-- `XTAGLD` alone in its bundle. -/
def execXtagld (g : Guard) (o : RR) (s : State) : Result := issueSolo (.x (.xtagld g o)) (opXtagld g o) s

/-- XTAGST (R246). -/
def opXtagst (g : Guard) (o : RR) : Op := guarded g none (fun i => i.tagStore o)

/-- `XTAGST` alone in its bundle. -/
def execXtagst (g : Guard) (o : RR) (s : State) : Result := issueSolo (.x (.xtagst g o)) (opXtagst g o) s


end Sys2Proof.Machine
end

