-- ==== Sys2Proof/Machine/Queues.lean ====
section
/-! DEFINITION. Work queues (15_queue.md R346 to R357): header and slots in memory, WQPUSH, WQPOP, WQCLOSE, WQLEN. -/

namespace Sys2Proof.Machine

/-! ### Queues and their storage (R346, R347) -/

def Ctx.queue (c : Ctx) (q : Nat) : Option Queue := Tbl.get Option.none c.queues q
def State.setQueue (s : State) (x q : Nat) (v : Queue) : State := s.updCtx x (fun c => { c with queues := Tbl.set none c.queues q (some v) })

def QueueSt.code : QueueSt → Nat
  | .open => 0 | .draining => 1 | .closed => 2

def Queue.slotAddr (q : Queue) (n : Nat) : W64 := q.base + BitVec.ofNat 64 (64 + 64 * (n % q.cap))
/-- Number of the oldest item that stands in a slot: withdrawn items come before it. -/
def Queue.first (q : Queue) : Nat := q.head + q.front.length

/-- The header's 24 bytes (Table 1): TAIL is HEAD + LEN. -/
def Queue.header (q : Queue) : Nat := q.head % 2 ^ 64 + (q.head + q.len) % 2 ^ 64 * 2 ^ 64 + q.cap * 2 ^ 128 + q.st.code * 2 ^ 160

/-- The unit's new state of a queue, written to its header at `pa`; a header on a page in state poisoned takes no write. -/
def State.putQueue (s : State) (x q : Nat) (pa : Option Nat) (v : Queue) : State :=
  match pa with
  | some pa => (s.setQueue x q v).engineStore pa 24 v.header
  | none => s.setQueue x q v

/-! ### At issue (R357 Table 5) -/

/-- Check 4: the pages of the header, the slot and the buffer; every absent one is posted (11_page.md R289). -/
def Issue.queuePages (i : Issue) (l : List (W64 × Nat × Bool)) : Except Stop Unit :=
  let absent := l.filterMap (fun p => match translate i.s (tuOf i.n) i.ctxNo p.1 0 with
    | .absent k => some (fun (s : State) => s.bundleFault i.n i.ctxNo p.1 k p.2.1 p.2.2)
    | _ => none)
  if absent.isEmpty then .ok () else .error (.freeze (fun s => absent.foldl (fun s f => f s) s))

/-- The header or a slot of a queue, as the unit reaches it; none on a page in state poisoned, where a read delivers its block poisoned
(11_page.md R286). -/
def Issue.queuePlace (i : Issue) (va : W64) : Except Stop (Option Nat) :=
  match translate i.s (tuOf i.n) i.ctxNo va 0 with
  | .ok pa _ => .ok (some pa)
  | .poisonedPage => .ok none
  | .outside => .error (.abort va)
  | .absent _ => .error .wait
  | .noFrame pa => .error (.fault (.noFrame pa))
  | _ => .error (.trap 9 va)

/-- The queue a selector names. -/
def Issue.queueOf (i : Issue) (sel : W64) (used : Nat) : Except Stop (Nat × Queue) :=
  let q := bits sel.toNat 5 0
  if sel.toNat - q - bits sel.toNat 9 6 * 2 ^ 6 ≠ 0 ∨ bits sel.toNat 7 6 ≠ 0 ∨ used < bits sel.toNat 9 8 then .error (.trap 4 0) else
  match i.ctx.queue q with
  | none => .error (.trap 4 0)
  | some v => .ok (q, v)

/-- Checks 2 and 3. -/
def Issue.queueAddrs (i : Issue) (va : W64) (l : List W64) : Except Stop Unit :=
  if va.toNat % 64 ≠ 0 then .error (.trap 7 va) else
  match (va :: l).find? (fun a => !inWindow i.ctx a) with
  | some a => .error (.abort a)
  | none => .ok ()

/-- Result of WQPUSH and WQPOP (R356). -/
def queueWord (status num : Nat) : W64 := BitVec.ofNat 64 (status + (if status = 0 then num % 2 ^ 32 * 2 ^ 32 else 0))

/-! ### WQPUSH -/

/-- The unit reserves an outcome for operation `key` when its request arrives, unless it has one. -/
def State.reserveQueue (s : State) (x qn key : Nat) (f : Queue → Queue) : State :=
  match (s.ctx x).queue qn with
  | some v => if (v.out key).isSome then s else s.setQueue x qn (f v)
  | none => s

/-- The slot a push takes: one released, else the next. -/
def Queue.nextSlot (q : Queue) : Nat := q.holes.foldl min q.tail

/-- The outcome of a push (R348 Table 2), reserved for operation `key`. -/
def Queue.planPush (q : Queue) (key : Nat) : Queue :=
  if (q.out key).isSome then q
  else if q.st ≠ .open then q.keep key (.status 2)
  else if q.cap ≤ q.len then q.keep key (.status 1)
  else if q.holes = [] then { q.keep key (.push q.tail) with tail := q.tail + 1 }
  else { q.keep key (.push q.nextSlot) with holes := q.holes.erase q.nextSlot }

/-- The block that stands at a place of the unit. -/
def State.unitBlock (s : State) (pa : Option Nat) : BitVec 512 × BitVec 16 :=
  match pa with | some pa => (s.rdBlock pa, s.tagOf pa) | none => (0, poisonTag)

/-- The unit writes a slot. -/
def State.storeSlot (s : State) (time : Nat) (pa : Option Nat) (d : BitVec 512) (t : BitVec 16) : State :=
  match pa with | some pa => (s.writeTime time (globalLine pa)).1.engineBlock pa d t | none => s

/-- Item `num` is accepted (R348): the oldest waiter's where it is the next item, else its slot's, at `pa`. `q` no longer holds its
reservation. -/
def State.accept (s : State) (x qn num : Nat) (pa hpa : Option Nat) (q : Queue) (d : BitVec 512) (t : BitVec 16) (time : Nat) : State :=
  let q := q.skip q.holes.length
  match q.waiters with
  | w :: r =>
    if q.head = num ∧ q.front = [] then
      s.putQueue x qn hpa { q with waiters := r, head := q.head + 1, outs := q.outs ++ [(w, QOut.item ⟨num, d, t, time⟩)] }.settle
    else (s.storeSlot time pa d t).putQueue x qn hpa q
  | [] => (s.storeSlot time pa d t).putQueue x qn hpa q

/-- WQPUSH; `slow` tells that the unit's answer is still on its way. The record is taken after every earlier asynchronous write of the core
(R350). The unit reserves the outcome when the request reaches it, and the item is accepted when the bundle issues (R353). -/
def Issue.wqpush (i : Issue) (slow : Bool) (o : RR) : Except Stop Issue := do
  let (sel, va, i) ← i.rrG o
  let (qn, q0) ← i.queueOf sel 0
  let key := answerKey i.n i.slot
  let q := q0.planPush key
  let out := (q.out key).getD (.status 2)
  let num := match out with | .push num => num | _ => q0.nextSlot
  let slot := q.slotAddr num
  i.queueAddrs va [slot, q.base]
  i.queuePages [(q.base, 0, true), (slot, 0, true), (va, permSL, false)]
  let hpa ← i.queuePlace q.base
  let spa ← i.queuePlace slot
  match ← i.examine va 64 permSL false true with
  | .dev _ _ => .error (.trap 9 va)
  | .mem pa _ =>
    if !i.core.allWritten i.pointSeq then .error .wait else
    let i := { i with s := i.s.acquire i.n (i.s.relTime i.n) }
    let ((d, t), i) ← i.readAt va pa 64 permSL
    if poisoned t then .error (.trap 10 va) else
    let note (s : State) : State := s.reserveQueue i.ctxNo qn key (fun v => v.planPush key)
    if slow then .error (.freeze note) else
    let (st, s) := match out with
      | .push num => (0, i.s.accept i.ctxNo qn num spa hpa (q.drop key) (BitVec.ofNat 512 d) t (i.s.relTime i.n))
      | .status st => (st, i.s.putQueue i.ctxNo qn hpa (q.drop key))
      | _ => (2, i.s)
    .ok { { i with s := s }.resultG o.d.toNat (queueWord st num) 4 with reserve := fun s => note (i.reserve s) }

/-! ### WQPOP -/

/-- What a pop finds. -/
inductive PopOut where
  | item (q : Queue) (x : QItem)
  | status (st : Nat) (q : Queue)
  | waits
  | later
deriving DecidableEq, Repr

/-- A pop by operation `key`; slot HEAD stands at `pa`. An outcome reserved for it comes first; an item goes to the oldest waiter, and one whose
push is reserved and not yet accepted is waited for (R349). -/
def State.pop (s : State) (key : Nat) (pa : Option Nat) (blk : Bool) (q : Queue) : PopOut :=
  match q.out key with
  | some (.item x) => .item (q.drop key) x
  | some (.status st) => .status st (q.drop key)
  | _ =>
    let q1 := { q with waiters := q.waiters.filter (· ≠ key) }
    if q.st = .closed then .status 2 q1
    else if q.len = 0 then (if blk then .waits else .status 1 q)
    else if q.waiters.head?.any (· ≠ key) then (if blk then .waits else .later)
    else if q.front.isEmpty && q.outs.any (fun o => o.2 = .push q.head) then .later
    else
      let q' := { q1 with head := q.head + 1 }
      match q.front with
      | x :: r => .item { q' with front := r }.settle x
      | [] =>
        let b := s.unitBlock pa
        .item q'.settle ⟨q.head, b.1, b.2, match pa with | some pa => (Tbl.get (0, 0) s.lineTimes (globalLine pa)).1 | none => 0⟩

/-- The outcome of a pop, reserved for operation `key`. -/
def State.planPop (s : State) (key : Nat) (pa : Option Nat) (blk : Bool) (q : Queue) : Queue :=
  match s.pop key pa blk (q.skip q.holes.length) with
  | .item r x => r.keep key (.item x)
  | .status st r => r.keep key (.status st)
  | _ => q

/-- Operation `key` becomes a waiter (R352). -/
def State.queueWait (s : State) (x qn key : Nat) : State :=
  match (s.ctx x).queue qn with
  | none => s
  | some q => if q.waiters.contains key then s else s.setQueue x qn { q with waiters := q.waiters ++ [key] }

/-- WQPOP: the item is written as one block (R357). -/
def Issue.wqpop (i : Issue) (o : RR) : Except Stop Issue := do
  let (sel, va, i) ← i.rrG o
  let (qn, q) ← i.queueOf sel 1
  let key := answerKey i.n i.slot
  let q := q.skip q.holes.length
  let slot := q.slotAddr q.first
  i.queueAddrs va [slot, q.base]
  i.queuePages [(q.base, 0, true), (slot, 0, false), (va, permSS, true)]
  let hpa ← i.queuePlace q.base
  let spa ← i.queuePlace slot
  match ← i.examine va 64 permSS true true with
  | .dev _ _ => .error (.trap 9 va)
  | .mem pa repl =>
    let slow := i.pre.slow.getLsbD i.slot && (q.out key).isNone
    let note (s : State) : State := s.reserveQueue i.ctxNo qn key (fun v => s.planPop key spa (sel.getLsbD 8) v)
    match i.s.pop key spa (sel.getLsbD 8) q with
    | .waits => .error (.freeze (fun s => s.queueWait i.ctxNo qn key))
    | .later => .error .wait
    | .status st q =>
      if slow then .error (.freeze note)
      else .ok { { i with s := i.s.putQueue i.ctxNo qn hpa q }.resultG o.d.toNat (queueWord st 0) 4 with
                 reserve := fun s => note (i.reserve s) }
    | .item q x =>
      if kvSays i.ctx (i.s.grpOf i.n) true va = .refuse then .error (.trap 9 va) else
      if slow then .error (.freeze note) else
      let taken := { i with s := (i.s.putQueue i.ctxNo qn hpa q).acquire i.n x.time }
      let store (s : State) : State := (s.coreWriteTime i.n (globalLine pa)).putBlock pa x.data x.tag
      let i' ← (match (if repl then taken.commitLine va pa store (fun s a => s.putBlock a x.data x.tag) else .ok { taken with s := store taken.s }) with
        | .error (.freeze f) => .error (.freeze (fun s => f (note s)))
        | r => r)
      .ok { i'.resultG o.d.toNat (queueWord 0 x.num) 4 with reserve := fun s => note (i.reserve s) }

/-! ### WQCLOSE and WQLEN -/

/-- Close or reopen (R348 Table 2), reserved for operation `key`. -/
def Queue.planClose (q : Queue) (key : Nat) (reopen : Bool) : Queue :=
  if (q.out key).isSome then q else
  match reopen, q.st with
  | false, .open => if q.len = 0 then q.wake.keep key (.close .open q.waiters) else { q.keep key (.close .open []) with st := .draining }
  | true, .closed => { q.keep key (.close .closed []) with st := .open }
  | _, _ => q.keep key (.status 1)

/-- The queue of a bundle that names only its header. -/
def Issue.queueHeader (i : Issue) (sel : W64) (used : Nat) (s2 : BitVec 6) : Except Stop (Nat × Queue × Option Nat) := do
  let (qn, q) ← i.queueOf sel used
  if s2 ≠ 0 then .error (.trap 4 0)
  if !inWindow i.ctx q.base then .error (.abort q.base) else
  i.queuePages [(q.base, 0, true)]
  let hpa ← i.queuePlace q.base
  .ok (qn, q, hpa)

/-- WQCLOSE. -/
def Issue.wqclose (i : Issue) (o : RR) : Except Stop Issue := do
  let (sel, i) ← i.rrG1 o
  let (qn, q, hpa) ← i.queueHeader sel 1 o.s2
  let key := answerKey i.n i.slot
  let q := q.planClose key (sel.getLsbD 8)
  let note (s : State) : State := s.reserveQueue i.ctxNo qn key (fun v => v.planClose key (sel.getLsbD 8))
  if i.pre.slow.getLsbD i.slot then .error (.freeze note) else
  let st := match q.out key with | some (.status st) => st | _ => 0
  .ok { { i with s := i.s.putQueue i.ctxNo qn hpa (q.drop key) }.resultG o.d.toNat (BitVec.ofNat 64 st) 4 with reserve := fun s => note (i.reserve s) }

/-- The state word (R356 Table 4). -/
def Queue.word (q : Queue) : W64 :=
  BitVec.ofNat 64 (q.len * 2 ^ 32 + q.waiters.length % 2 ^ 10 * 2 ^ 22 + q.st.code * 2 ^ 4 + (Nat.log2 q.cap - 1))

/-- WQLEN. -/
def Issue.wqlen (i : Issue) (o : RR) : Except Stop Issue := do
  let (sel, i) ← i.rrG1 o
  let (qn, q, hpa) ← i.queueHeader sel 0 o.s2
  .ok ({ i with s := i.s.putQueue i.ctxNo qn hpa q }.resultG o.d.toNat q.word 4)

/-- WQPUSH (R355 to R357). -/
def opWqpush (g : Guard) (o : RR) : Op := guarded g none (fun i => unrecorded (fun j => j.wqpush (i.pre.slow.getLsbD i.slot) o) i)

/-- `WQPUSH` alone in its bundle. -/
def execWqpush (g : Guard) (o : RR) (s : State) : Result := issueSolo (.s (.wqpush g o)) (opWqpush g o) s

/-- WQPOP (R355 to R357). -/
def opWqpop (g : Guard) (o : RR) : Op := guarded g none (fun i => i.wqpop o)

/-- `WQPOP` alone in its bundle. -/
def execWqpop (g : Guard) (o : RR) (s : State) : Result := issueSolo (.s (.wqpop g o)) (opWqpop g o) s

/-- WQCLOSE (R356); OP of the selector chooses close or reopen. -/
def opWqclose (g : Guard) (o : RR) : Op := guarded g none (fun i => i.wqclose o)

/-- `WQCLOSE` alone in its bundle. -/
def execWqclose (g : Guard) (o : RR) (s : State) : Result := issueSolo (.s (.wqclose g o)) (opWqclose g o) s

/-- WQCLOSE, reopen. -/
def opWqreopen (g : Guard) (o : RR) : Op := guarded g none (fun i => i.wqclose o)

/-- `WQREOPEN` alone in its bundle. -/
def execWqreopen (g : Guard) (o : RR) (s : State) : Result := issueSolo (.s (.wqreopen g o)) (opWqreopen g o) s

/-- WQLEN (R356). -/
def opWqlen (g : Guard) (o : RR) : Op := guarded g none (asking (fun i => i.wqlen o))

/-- `WQLEN` alone in its bundle. -/
def execWqlen (g : Guard) (o : RR) (s : State) : Result := issueSolo (.s (.wqlen g o)) (opWqlen g o) s


end Sys2Proof.Machine
end

