-- ==== Sys2Proof/Machine/Barriers.lean ====
section
/-! DEFINITION. Barrier instructions (18_barrier.md R392 to R395) and the barrier events (R389, R390). -/

namespace Sys2Proof.Machine

/-! ### Names (R392) -/

/-- What a selector names: a barrier, or a stale handle. -/
inductive BarSel where
  | bar (b : BarName)
  | stale
deriving DecidableEq, Repr

/-- The device slot of local device barrier `b` of core `n`'s cohort. -/
def State.cohortBar (s : State) (n b : Nat) : Option Nat :=
  match Tbl.get none s.cohorts (s.core n).mem.cohort with
  | some h => h.slots[b]?
  | none => none

/-- The slot a handle names, while its generation is the slot's. -/
def State.handleBar (s : State) (h : Nat) : BarSel :=
  let k := h % 2 ^ 11
  if (Tbl.get .fresh s.dbar k).gen.toNat = h / 2 ^ 11 then .bar (.device k) else .stale

/-- The selector of a barrier instruction on core `n`; none where it is an illegal operand. -/
def State.barSelect (s : State) (n : Nat) (x : W64) : Option BarSel :=
  let b := bits x.toNat 7 0
  let m := (s.core n).mem
  if bits x.toNat 31 10 ≠ 0 then none
  else if isKiosk n then
    if x.getLsbD 9 ∧ b = 0 ∧ ¬ x.getLsbD 8 then some (s.handleBar (x.toNat / 2 ^ 32)) else none
  else if x.getLsbD 9 ∨ x.toNat / 2 ^ 32 ≠ 0 then none
  else if x.getLsbD 8 then
    if m.csize = 0 ∨ 4 ≤ b then none else (s.cohortBar n b).map (fun k => .bar (.device k))
  else if 2 * m.gsize ≤ b then none
  else some (.bar (s.localBar n b))

/-! ### BINIT (R393) -/

/-- The expected set a configuration gives (Table 4); none where a mask bit is out of range. -/
def State.barExp (s : State) (n : Nat) (device : Bool) (x : W64) : Option (BitVec 528) :=
  let m := (s.core n).mem
  let hi := x.toNat / 2 ^ 32
  if device then
    let g := hi % 2 ^ 16
    let k := hi / 2 ^ 16
    if 2 ^ m.csize ≤ g then none
    else
      let cores := ((List.range 16).filter g.testBit).foldl (fun a j => a + (2 ^ m.gsize - 1) * 2 ^ (32 * j)) 0
      some (BitVec.ofNat 528 (cores + k * 2 ^ 512))
  else if 2 ^ m.gsize ≤ hi then none
  else match s.group m.grp with
    | none => none
    | some v => some (BitVec.ofNat 528 (((List.range 32).filter hi.testBit).foldl (fun a j => a + 2 ^ (nth 0 v.members j % 32)) 0))

/-- The handle a device barrier answers with. -/
def State.handleOf (s : State) : BarName → Nat
  | .quarter _ => 0
  | .device k => (Tbl.get .fresh s.dbar k).gen.toNat * 2 ^ 11 + k

/-- BINIT's answer. -/
def State.binitWord (s : State) (b : BarName) (st : Nat) : W64 := BitVec.ofNat 64 (s.handleOf b * 2 ^ 32 + st)

/-- ST as a code. -/
def Barrier.code (b : Barrier) : Nat :=
  match b.st with
  | .idle => 0 | .collecting => 1 | .released => 2 | .broken => 3

/-- BINIT. -/
def Issue.binit (i : Issue) (o : RR) : Except Stop Issue := do
  let (x, y, i) ← i.rrG o
  if isKiosk i.n then illegalOperand else
  match i.s.barSelect i.n x with
  | none => illegalOperand
  | some .stale => illegalOperand
  | some (.bar b) =>
    if bits y.toNat 31 5 ≠ 0 ∨ y.getLsbD 3 then illegalOperand
    else if y.getLsbD 4 then
      if y.toNat ≠ 16 then illegalOperand else .ok (i.resultG o.d.toNat (i.s.binitWord b (i.s.bar b).code) 4)
    else
      match i.s.barExp i.n (x.getLsbD 8) y with
      | none => illegalOperand
      | some e =>
        let op := bits y.toNat 2 0
        if 5 ≤ op ∨ e = 0 then illegalOperand
        else .ok ({ i with s := i.s.barDo b ((i.s.bar b).reset op e) }.resultG o.d.toNat (i.s.binitWord b 0) 4)

/-! ### BARRIVE (R394) -/

/-- OPND of kind 10 (13_inflight_record.md R320 Table 2). The barrier number of a kiosk core's arrival is the low half of its handle; the
record of a service context is never saved (12_context.md R299), so that the half on the chip is never lost (log entry 99). -/
def opndArrive (n : Nat) (x y : W64) : BitVec 512 :=
  BitVec.ofNat 512 ((if isKiosk n then bits x.toNat 47 32 else bits x.toNat 7 0) + bits x.toNat 9 8 * 2 ^ 16 + y.toNat % 2 ^ 32 * 2 ^ 32 + y.toNat / 2 ^ 32 * 2 ^ 64)

/-- BARRIVE: a handle travels with the entry. -/
def Issue.barrive (i : Issue) (o : RR) : Except Stop Issue := do
  let (x, y, i) ← i.rrG o
  match i.s.barSelect i.n x with
  | none => illegalOperand
  | some _ => i.command (.new .member 10 (opndArrive i.n x y) [x.toNat / 2 ^ 32])

/-! ### BWAIT and BTRY (R395) -/

/-- The result word of phase `p`; none while the phase is not complete. -/
def Barrier.result (b : Barrier) (p : BitVec 32) : Option W64 :=
  if b.ph = p + 1 then some (barWord 0 b.res)
  else if barPast b.ph p then some (barWord 1 0)
  else if b.st = .broken then some (barWord 2 0)
  else none

/-- A result of status 0 or 1 acquires what the arrivals released (R391). -/
def State.barAcquire (s : State) (n : Nat) (b : BarName) (w : W64) : State :=
  if bits w.toNat 33 32 ≤ 1 then s.acquire n (s.bar b).time else s

/-- Operands of BWAIT and BTRY: the barrier and the phase. -/
def Issue.barOperands (i : Issue) (o : RR) : Except Stop (BarSel × BitVec 32 × Issue) := do
  let (x, y, i) ← i.rrG o
  match i.s.barSelect i.n x with
  | none => .error (.trap 4 0)
  | some b => if y.toNat / 2 ^ 32 ≠ 0 then .error (.trap 4 0) else .ok (b, y.setWidth 32, i)

/-- BWAIT: the core becomes a waiter, and a later attempt finds the answer. -/
def Issue.bwait (i : Issue) (o : RR) : Except Stop Issue := do
  let (b, p, i) ← i.barOperands o
  let key := 4 * i.n + i.slot
  match Tbl.get none i.s.answers key, b with
  | some w, b =>
    let s := { i.s with answers := Tbl.set none i.s.answers key none }
    let s := match b with | .bar b => s.barAcquire i.n b w | .stale => s
    .ok ({ i with s := s }.resultG o.d.toNat w 4)
  | none, .stale => .ok (i.resultG o.d.toNat (barWord 2 0) 4)
  | none, .bar b =>
    match (i.s.bar b).result p with
    | some w => .ok ({ i with s := i.s.barAcquire i.n b w }.resultG o.d.toNat w 4)
    | none =>
      .error (.freeze (fun s =>
        if (s.bar b).waiters.any (fun w => w.1 = key) then s
        else s.setBar b { s.bar b with waiters := (s.bar b).waiters ++ [(key, p)] }))

/-- BTRY. -/
def Issue.btry (i : Issue) (o : RR) : Except Stop Issue := do
  let (b, p, i) ← i.barOperands o
  match b with
  | .stale => .ok (i.resultG o.d.toNat (barWord 2 0) 4)
  | .bar b =>
    let w := ((i.s.bar b).result p).getD (barWord 3 0)
    .ok ({ i with s := i.s.barAcquire i.n b w }.resultG o.d.toNat w 4)

/-- BINIT (R393), MODE 0; MODE of the configuration chooses the form. -/
def opBinitReset (g : Guard) (o : RR) : Op := guarded g none (asking (fun i => i.binit o))

/-- `BINIT_RESET` alone in its bundle. -/
def execBinitReset (g : Guard) (o : RR) (s : State) : Result := issueSolo (.s (.binitReset g o)) (opBinitReset g o) s

/-- BINIT, MODE 1. -/
def opBinitQuery (g : Guard) (o : RR) : Op := guarded g none (asking (fun i => i.binit o))

/-- `BINIT_QUERY` alone in its bundle. -/
def execBinitQuery (g : Guard) (o : RR) (s : State) : Result := issueSolo (.s (.binitQuery g o)) (opBinitQuery g o) s

/-- BARRIVE (R394). -/
def opBarrive (g : Guard) (o : RR) : Op := guarded g none (fun i => i.barrive o)

/-- `BARRIVE` alone in its bundle. -/
def execBarrive (g : Guard) (o : RR) (s : State) : Result := issueSolo (.s (.barrive g o)) (opBarrive g o) s

/-- BWAIT (R395). -/
def opBwait (g : Guard) (o : RR) : Op := guarded g none (awaiting (fun i => i.bwait o))

/-- `BWAIT` alone in its bundle. -/
def execBwait (g : Guard) (o : RR) (s : State) : Result := issueSolo (.s (.bwait g o)) (opBwait g o) s

/-- BTRY (R395). -/
def opBtry (g : Guard) (o : RR) : Op := guarded g none (asking (fun i => i.btry o))

/-- `BTRY` alone in its bundle. -/
def execBtry (g : Guard) (o : RR) (s : State) : Result := issueSolo (.s (.btry g o)) (opBtry g o) s


/-! ### Events -/

/-- The barrier an arrival's entry names; none where its group no longer holds one. -/
def State.arrivalBar (s : State) (n : Nat) (e : IfrEntry) : Option BarSel :=
  let b := e.field 0 2
  let f := e.field 2 1
  if isKiosk n then some (s.handleBar (nth 0 e.payload 0))
  else if f % 2 = 1 then (s.cohortBar n b).map (fun k => .bar (.device k))
  else if (s.group (s.core n).mem.grp).isSome then some (.bar (s.localBar n b)) else none

/-- An earlier arrival of the core at the same barrier has still to be made (R389). -/
def Core.arrivalBefore (c : Core) (e : IfrEntry) (held : List HeldArr) (n : Nat) : Bool :=
  c.commands.any (fun x => x.2.kind = 10 && !x.2.ended && seqBefore x.2.seq e.seq && x.2.field 0 3 = e.field 0 3 && nth 0 x.2.payload 0 = nth 0 e.payload 0
    && !held.any (fun h => h.core = n && h.entry = x.1))

/-- An arrival reaches its barrier (R388, R391). -/
def State.arrive (s : State) (n k : Nat) : Result :=
  let no : Result := .fault (.eventCannotArise "BARRIER_ARRIVAL")
  let c := s.core n
  match c.entry k with
  | none => no
  | some e =>
    if e.kind ≠ 10 ∨ e.ended ∨ c.replay ∨ !c.released e ∨ !c.allWritten e.seq then no else
    match s.arrivalBar n e with
    | none => .next (s.upd n (fun c => c.freeEntry k))
    | some .stale => let (a, s) := s.draw; .next (s.report n k 0x13 a)
    | some (.bar b) =>
      let v := s.bar b
      if v.held.any (fun h => h.core = n && h.entry = k) ∨ c.arrivalBefore e v.held n then no else
      .next (s.barDo b (v.arrival ⟨n, k, s.barBit n b, BitVec.ofNat 32 (e.field 8 4), BitVec.ofNat 32 (e.field 4 4), s.relTime n⟩))

/-- A halted member, its arrivals acknowledged, leaves the expected sets (R390). -/
def State.memberLeave (s : State) (n : Nat) : Result :=
  let c := s.core n
  if c.run ≠ .halted ∨ c.commands.any (fun e => e.2.kind = 10 && !e.2.ended)
      ∨ !(s.barsOf n).any (fun b => (s.bar b).exp.getLsbD (s.barBit n b)) then
    .fault (.eventCannotArise "BARRIER_MEMBER_LEAVE")
  else .next (s.leaveBarriers n)

/-- An arrival reaches its barrier (R388). -/
def execBarrierArrival (core : Nat) (entry : Nat) (s : State) : Result := s.arrive core entry

/-- A halted member leaves the expected sets (R390). -/
def execBarrierMemberLeave (core : Nat) (s : State) : Result := s.memberLeave core


end Sys2Proof.Machine
end

