-- ==== Sys2Proof/Machine/Engines.lean ====
section
/-! DEFINITION. What the engines do at each step of a command (08_transfer.md R224 to R230, R238, R242 to R244): one block, one row
of a gather, one stripe of a drain, an atomic, a release store, one near-memory group. -/

namespace Sys2Proof.Machine

/-! ### An engine at a page (11_page.md R286, R287) -/

/-- What an engine finds at an address. -/
inductive EngAt where
  | go (pa : Nat)
  | absent (kind : Nat)
  | hold
  | deny
  | poison
  | outside
  | bad (pa : Nat)
deriving DecidableEq, Repr

/-- An engine of the I/O die, or of a core of group `grp`, at `va` of context `x`, through the copy of unit `tu`: the page, a shut tensor slot (19_weight_versions.md R399), the mark of a KV entry
(20_generation.md R423), a locked line (09_memory_model.md R258). A read in proxy mode goes to the proxy. -/
def State.placeAt (s : State) (x tu : Nat) (grp : Option Nat) (va : W64) (need : Nat) (write : Bool) : EngAt :=
  let page (va : W64) : EngAt :=
    match translate s tu x va need with
    | .outside => .outside
    | .absent k => .absent k
    | .poisonedPage => .poison
    | .denied => .deny
    | .noFrame pa => .bad pa
    | .dev _ _ => .deny
    | .ok pa _ => if wvLocked (s.ctx x) va then .hold else .go pa
  match page va with
  | .go pa =>
    if write && wvBars (s.ctx x) va then .deny else
    match kvSays (s.ctx x) grp write va with
    | .perform => .go pa
    | .refuse => .deny
    | .wait => .hold
    | .proxy => page (kvProxyAddr (s.ctx x) va)
  | r => r

/-- The address whose block a requester of group `grp` gets at `va` of context `x`: the proxy's where the mark says so (20_generation.md
R423). -/
def State.markedAddr (s : State) (x : Nat) (grp : Option Nat) (write : Bool) (va : W64) : W64 :=
  if kvSays (s.ctx x) grp write va = .proxy then kvProxyAddr (s.ctx x) va else va

/-- The engine of core `n` at `va`: a read of a replicated page is one of the replica of the core's die, a write or an atomic one of the
primary (09_memory_model.md R250; 11_page.md R286). -/
def State.engineAt (s : State) (n : Nat) (va : W64) (need : Nat) (write : Bool) : EngAt :=
  let x := (s.core n).ctx
  match s.placeAt x (tuOf n) (s.grpOf n) va need write with
  | .go pa => .go (if write then pa else s.ownReplica n x (s.markedAddr x (s.grpOf n) write va) pa)
  | r => r

/-- What becomes of a command's next step. -/
inductive EngOut where
  | done (s : State)
  | absent (va : W64) (kind need : Nat) (write : Bool)
  | hold
  | fail (va : W64) (cause : Nat)
  | outside (va : W64)
  | bad (pa : Nat)
deriving DecidableEq, Repr

/-- Reach `va`, then go on with its physical address. A read of a page in state poisoned goes on with none. -/
def State.reach (s : State) (n : Nat) (va : W64) (need : Nat) (write : Bool) (k : Option Nat → EngOut) : EngOut :=
  match s.engineAt n va need write with
  | .go pa => k (some pa)
  | .absent kd => .absent va kd need write
  | .hold => .hold
  | .deny => .fail va 0x13
  | .poison => if write then .fail va 0x13 else k none
  | .outside => .outside va
  | .bad pa => .bad pa

/-- A source block as it arrives: a block of a poisoned page comes poisoned (R286). -/
def State.arriving (s : State) (pa : Option Nat) : BitVec 512 × BitVec 16 :=
  match pa with
  | some pa => (s.rdBlock pa, s.tagOf pa)
  | none => (0, poisonTag)

/-! ### Blocks of copies (R226, R227, R230) -/

/-- A later block of a nested stripe of format `f`, of tag `tag`, has another scale than block 0, of tag `head`; an untagged block 0 has
scale 1 (03_numbers.md R65, R70). -/
def scaleTorn (f : Nat) (head tag : BitVec 16) : Bool :=
  !poisoned head && ((decide (tagCode head = planeCode f 0) && decide (tagScale tag ≠ tagScale head))
    || (decide (tagCode head = 0) && decide (tagScale tag ≠ 0x7F)))

/-- The tag XCOPY.in stores block `b` of a tile with; none for a layout fault. `sp` is the scratchpad as it stands, `t` the tile, and
`lead` the tag that block 0 of the stripe arrived with, where the same command brings it: a later block of a stripe that arrives in
nested form with another scale is a layout fault (03_numbers.md R65). A command that begins inside a stripe finds block 0 in the tile
(log entry 57). -/
def storedTag (f b : Nat) (reint : Bool) (tag : BitVec 16) (sp : Memory) (t : Nat) (lead : Option (BitVec 16)) : Option (BitVec 16) :=
  let c := tagCode tag
  let own := planeCode f b
  let head := sp.tag (512 * t + b - b % 8)
  let torn := nestedCode f && !reint && decide (b % 8 ≠ 0) && (match lead with
    | some l => scaleTorn f l tag
    | none => decide (tagCode head = planeCode f 0) && scaleTorn f head tag)
  if poisoned tag then some tag
  else if !codeDefined c then none
  else if f = 0 then some tag
  else if c = own then (if torn then none else some tag)
  else if c = 0 ∨ reint then
    some (mkTag own (if nestedCode f ∧ b % 8 ≠ 0 ∧ !poisoned head then tagScale head else 0x7F))
  else none

/-- A block that leaves a tile agrees with its layout word (R227). A later block of a stripe carries the scale of block 0, whose tag is
`head` (03_numbers.md R65). -/
def leavesOk (layout b : Nat) (reint : Bool) (head tag : BitVec 16) : Bool :=
  let f := layout % 256
  let c := tagCode tag
  let torn := nestedCode f && !reint && decide (b % 8 ≠ 0) && decide (c = planeCode f b) && scaleTorn f head tag
  poisoned tag || (codeDefined c && !torn && (f = 0 || c = 0 || c = planeCode f b || reint))

/-- The home of an entry's request (13_inflight_record.md R319 Table 1 HOME). -/
def State.entryHome (s : State) (n : Nat) (e : IfrEntry) : Nat :=
  match e.kind with
  | 7 => 13
  | 10 => 14
  | 11 | 12 => 15
  | k =>
    let va : W64 := BitVec.ofNat 64 (e.field (if k = 9 then 8 else 0) 8)
    let reads := k = 1 || k = 3 || k = 13 || (k = 5 && ((s.core n).tile (e.field 24 1 % 32)).st = .filling)
    match translate s (tuOf n) (s.core n).ctx va 0 with
    | .ok pa _ => homeOf (if reads then s.ownReplica n (s.core n).ctx va pa else pa)
    | _ => 0xFFFF

/-- A request of the entry has left the core for its home. -/
def State.entrySent (s : State) (n k h : Nat) : State :=
  s.updEntry n k (fun e => { e with sent := true, home := if e.home = 0xFFFF then h else e.home })

/-- Advance PROG. -/
def State.advance (s : State) (n k bytes : Nat) : State :=
  s.upd n (fun c => match c.entry k with
    | some e => c.setEntry k { e with prog := e.prog + bytes, started := true }
    | none => c)

/-- The tag that block 0 of the stripe of tile block `b` arrived with, where block `b` is the `j`th of a run that began in that stripe
or before it. -/
def State.leadTag (s : State) (n b j : Nat) (va : W64) : Option (BitVec 16) :=
  if b % 8 = 0 ∨ j < b % 8 then none else
  match s.engineAt n (va - BitVec.ofNat 64 (64 * (b % 8))) (permXR + permVT) false with
  | .go pa => some (s.tagOf pa)
  | _ => none

/-- One block into tile block `b`, the `j`th of a run of consecutive addresses. -/
def State.blockIn (s : State) (n : Nat) (d : Desc) (t b j : Nat) (reint : Bool) (va : W64) (next : State → EngOut) : EngOut :=
  s.reach n va (permXR + permVT) false (fun pa =>
    let (data, tag) := s.arriving pa
    match storedTag (d.layout % 256) b reint tag (s.core n).spad t (s.leadTag n b j va) with
    | none => .fail va 0x0B
    | some tg =>
      let s := (s.writeTime 0 (spadLine n (64 * (512 * t + b)))).1
      next (s.upd n (fun c => { c with spad := c.spad.setBlock (512 * t + b) data tg })))

/-- One block from tile block `b`. -/
def State.blockOut (s : State) (n k : Nat) (t b : Nat) (reint : Bool) (va : W64) (next : State → EngOut) : EngOut :=
  let c := s.core n
  let tag := c.spad.tag (512 * t + b)
  if !leavesOk (c.tile t).layout.toNat b reint (c.spad.tag (512 * t + b - b % 8)) tag then .fail va 0x0B else
  s.reach n va (permXW + permVT) true (fun pa =>
    match pa with
    | none => .fail va 0x13
    | some pa => next (s.commandBlock n k va pa (c.spad.block (512 * t + b)) tag))

/-- One block into the weight buffer. -/
def State.blockWb (s : State) (n : Nat) (d : Desc) (j : Nat) (reint : Bool) (va : W64) (next : State → EngOut) : EngOut :=
  s.reach n va permWB false (fun pa =>
    let (data, tag) := s.arriving pa
    let c := tagCode tag
    if !poisoned tag && (!codeDefined c || !(d.fmt = 0 || c = d.fmt || c = 0 || reint)) then .fail va 0x0B
    else next (s.upd n (fun c => { c with wbuf := c.wbuf.setBlock (d.woff + j) data tag })))

/-- The blocks of one row of a gather or scatter, `cnt` of them from block `j` of the command. -/
def State.rowBlocks (n k : Nat) (d : Desc) (t : Nat) (reint gather : Bool) (va : W64) : Nat → Nat → State → EngOut
  | 0, _, s => .done s
  | cnt + 1, j, s =>
    let go := State.rowBlocks n k d t reint gather (va + 64) cnt (j + 1)
    if gather then s.blockIn n d t (d.toff + j) (j % (d.rblk + 1)) reint va go else s.blockOut n k t (d.toff + j) reint va go

/-! ### Accumulator drains (R228; 03_numbers.md R72, R73) -/

/-- An element of a drain: its 32-bit pattern and the word drawn for it. -/
def drainElem (e : IfrEntry) (k : Nat) : Nat × Nat := let p := nth 0 e.payload (k + 1); (p % 2 ^ 32, p / 2 ^ 32)

/-- The element's value. -/
def elemVal (fm : Bool) (x : Nat) : FVal :=
  if fm then Fmt.f32.val x else let v := sext x 32; .fin (v < 0) v.natAbs 0

/-- RoundInt(x / Scale(s), rm) of a finite x. -/
def drainInt (rm : RMode) (u scl : Nat) (v : FVal) : Int := roundIntDy rm u ⟨v.dy.num, v.dy.exp + 127 - (scl : Int)⟩

/-- What R73 makes of an element: a narrow code, or an outlier with what it becomes when the list has no room. -/
inductive Narrow where
  | code (q : Int)
  | outlier (bits : Nat) (sat : Int)
deriving DecidableEq, Repr

def narrowElem (fm : Bool) (rm : RMode) (scl : Nat) (lo hi : Int) (x u : Nat) : Narrow :=
  let v := elemVal fm x
  match v with
  | .nan => .outlier Fmt.f32.nan 0
  | .inf n => .outlier (Fmt.f32.inf n) (if n then lo else hi)
  | .fin _ _ _ =>
    let q := drainInt rm u scl v
    if lo ≤ q ∧ q ≤ hi then .code q else .outlier (roundVal .f32 .rne 0 v) (sat q lo hi)

/-- Append outliers to the list at physical address by address `list`: the codes of the elements, or where the engine stops. -/
def State.appendAll (n k : Nat) (list : W64) : List (Nat × Narrow) → State → (State × List Int) ⊕ EngOut
  | [], s => .inl (s, [])
  | (_, .code q) :: t, s =>
    match State.appendAll n k list t s with
    | .inl (s, l) => .inl (s, q :: l)
    | .inr o => .inr o
  | (idx, .outlier bits sat) :: t, s =>
    let cont (s : State) (q : Int) : (State × List Int) ⊕ EngOut :=
      match State.appendAll n k list t s with
      | .inl (s, l) => .inl (s, q :: l)
      | .inr o => .inr o
    if list = 0 then cont s sat else
    match s.reach n list permXW true (fun pa => match pa with | some pa => .bad pa | none => .hold) with
    | .bad pa =>
      if poisoned (s.tagOf pa) then .inr (.fail list 0x13) else
      let cap := s.rd pa 4
      let count := s.rd (pa + 4) 4
      if count < cap then
        let va := list + BitVec.ofNat 64 (64 + 8 * count)
        match s.reach n va permXW true (fun pa => match pa with | some pa => .bad pa | none => .hold) with
        | .bad pe =>
          if tagCode (s.tagOf pe) ≠ 0x20 ∧ tagCode (s.tagOf pe) ≠ 0 ∧ ¬ poisoned (s.tagOf pe) then .inr (.fail va 0x0B) else
          let s := s.commandStore n k va pe 8 (idx % 2 ^ 32 + bits * 2 ^ 32)
          cont (s.commandStore n k (list + 4) (pa + 4) 4 (count + 1)) 0
        | o => .inr o
      else cont (s.commandStore n k (list + 8) (pa + 8) 4 (Nat.lor (s.rd (pa + 8) 4) 1)) sat
    | o => .inr o

/-- Plane blocks of 512 codes (R64): block j holds plane 7 − j. -/
def stripeBlock (codes : List Int) (j : Nat) : BitVec 512 :=
  BitVec.ofNat 512 (packLanes 1 (codes.map (fun q => bitN (wrapN q 8) (7 - j))))

/-- Write consecutive blocks with their tags. -/
def State.writeBlocks (n k need : Nat) (va : W64) : List (BitVec 512 × BitVec 16) → State → EngOut
  | [], s => .done s
  | (d, t) :: l, s =>
    s.reach n va need true (fun pa => match pa with
      | none => .fail va 0x13
      | some pa => State.writeBlocks n k need (va + 64) l (s.commandBlock n k va pa d t))

/-- The list a drain names is well formed (R72): examined before the first block. -/
def State.listOk (s : State) (n : Nat) (list : W64) (next : EngOut) : EngOut :=
  if list = 0 then next else
  s.reach n list permXW true (fun pa => match pa with
    | none => .fail list 0x13
    | some pa =>
      let c := tagCode (s.tagOf pa)
      if poisoned (s.tagOf pa) then .fail list 0x13
      else if (c = 0x20 ∨ c = 0) ∧ 8 ≤ s.rd pa 4 then next else .fail list 0x0B)

/-- The next block, or stripe, of a drain. -/
def State.drainStep (s : State) (n k : Nat) (e : IfrEntry) (d : Desc) (va : W64) : EngOut :=
  let fm := decide (nth 0 e.payload 0 = 1)
  let rm := (RMode.ofCode d.rm).getD .rne
  let at' := va + BitVec.ofNat 64 e.prog
  let elems (first cnt : Nat) : List (Nat × Nat) := (List.range cnt).map (fun j => drainElem e (first + j))
  let put (s : State) (l : List (BitVec 512 × BitVec 16)) : EngOut :=
    match State.writeBlocks n k (permXW + permVT) at' l s with
    | .done s => .done (s.advance n k (64 * l.length))
    | o => o
  let plain (w : Nat) (f : Nat × Nat → Nat) : EngOut :=
    let per := 512 / w
    put s [(BitVec.ofNat 512 (packLanes w ((elems (e.prog / 64 * per) per).map f)), mkTag d.fmt (if d.fmt = 6 then d.scl else 0x7F))]
  let narrow (lo hi : Int) (per : Nat) (blocks : List Int → List (BitVec 512 × BitVec 16)) : EngOut :=
    let list := BitVec.ofNat 64 d.d2
    let first := if per = 512 then e.prog else e.prog / 64 * per
    let go : EngOut :=
      let es := (List.range per).zip (elems first per)
      match State.appendAll n k list (es.map (fun x => (first + x.1, narrowElem fm rm d.scl lo hi x.2.1 x.2.2))) s with
      | .inl (s, codes) => put s (blocks codes)
      | .inr o => o
    if e.prog = 0 then s.listOk n list go else go
  match d.fmt with
  | 0x06 => plain 32 (fun x => x.1)
  | 0x01 => plain 32 (fun x => roundVal .f32 .rne 0 (Fmt.f32.val x.1))
  | 0x02 => plain 16 (fun x => roundVal .bf16 rm x.2 (Fmt.f32.val x.1))
  | 0x03 => plain 16 (fun x => roundVal .f16 rm x.2 (Fmt.f32.val x.1))
  | 0x04 => narrow (-128) 127 64 (fun l => [(BitVec.ofNat 512 (packLanes 8 (l.map (fun q => wrapN q 8))), mkTag 0x04 d.scl)])
  | 0x05 => narrow 0 255 64 (fun l => [(BitVec.ofNat 512 (packLanes 8 (l.map (fun q => wrapN q 8))), mkTag 0x05 d.scl)])
  | _ => narrow (-128) 127 512 (fun l => (List.range 8).map (fun j => (stripeBlock l j, mkTag (0x17 - j) d.scl)))

/-! ### One step of a copy command -/

/-- The tile the gather or scatter works on is being filled. -/
def Core.gathers (c : Core) (t : Nat) : Bool := (c.tile t).st = .filling

/-- The next block, row or stripe of a copying command (R224). -/
def State.copyStep (s : State) (n k : Nat) (e : IfrEntry) : EngOut :=
  let d : Desc := ⟨e.field 8 8, e.field 16 8, e.field 32 8⟩
  let va : W64 := BitVec.ofNat 64 (e.field 0 8)
  let t := e.field 24 1 % 32
  let reint := (e.field 24 1).testBit 5
  let j := e.prog / 64
  let at' := va + BitVec.ofNat 64 e.prog
  let adv (s : State) : EngOut := .done (s.advance n k 64)
  match e.kind with
  | 3 => s.blockIn n d t (d.toff + j) j reint at' adv
  | 4 => s.blockOut n k t (d.toff + j) reint at' adv
  | 13 => s.blockWb n d j reint at' adv
  | 6 => s.drainStep n k e d va
  | 5 =>
    let per := d.rblk + 1
    let pitch := d.d2 / 2 ^ 32
    let list := bits d.d2 19 0
    let row := j / per
    let idx := nth ((s.core n).spad.read (list + 4 * row) 4) e.payload row
    let rva := va + BitVec.ofNat 64 (idx * pitch)
    let last := rva + BitVec.ofNat 64 (64 * per - 1)
    if !inWindow (s.ctx (s.core n).ctx) rva || !inWindow (s.ctx (s.core n).ctx) last then .outside rva else
    match State.rowBlocks n k d t reint ((s.core n).gathers t) rva per (row * per) s with
    | .done s => .done (s.advance n k (64 * per))
    | o => o
  | _ => .hold

/-! ### Completion (R220, R224; 13_inflight_record.md R321, R323) -/

/-- The tile of command `k` changes, after the command's last write (10_tile.md R275). -/
def State.tileChange (s : State) (n k : Nat) (e : IfrEntry) (f : Tile → Tile) : State :=
  if e.kind = 3 ∨ e.kind = 4 ∨ e.kind = 5 then
    let t := e.field 24 1 % 32
    (s.writeTime (s.cmdTime n k) (tileLine n t)).1.upd n (fun c => c.setTile t (f (c.tile t)))
  else s

/-- The tile of a completed command changes. -/
def State.tileDone (s : State) (n k : Nat) (e : IfrEntry) : State := s.tileChange n k e Tile.complete

/-- The answer stands in the entry. -/
def State.answer (s : State) (n k : Nat) (v : W64) : State :=
  s.upd n (fun c => match c.entry k with
    | some e => c.setEntry k { e with ans := true, sent := true, result := v }
    | none => c)

/-- The counter's add, then the tile's change; the entry is freed at once or, by a free choice, when the answer to the add has come
(13_inflight_record.md R329). A replayed add that is answered lost has been made before or is never made, and the command is complete all
the same (R323). -/
def State.completeStep (s : State) (n k : Nat) (e : IfrEntry) : EngOut :=
  let va : W64 := BitVec.ofNat 64 (e.field 16 8)
  if va = 0 then .done ((s.tileDone n k e).freeCommand n k)
  else
    s.reach n va permXW true (fun pa => match pa with
      | none => .fail va 0x13
      | some pa =>
        if poisoned (s.tagOf pa) then .fail (BitVec.ofNat 64 (va.toNat / 64 * 64)) 0x13 else
        let (a, s) := s.tagged (homeOf pa) (s.core n).ctx n 0 e.seq e.rpl
          (fun s => (0, s.commandStore n k va pa 8 (s.rd pa 8 + 1)))
        let (now, s) := s.choose
        match a with
        | .value _ => .done (if now then (s.tileDone n k e).freeCommand n k else s.answer n k 0)
        | .lost => .done ((s.tileDone n k e).report n k 0x14 va))

/-! ### Atomics and release stores -/

/-- A replayed request of another device's instance is not sent (R322). -/
def State.foreign (s : State) (e : IfrEntry) : Bool := e.rpl && e.devId ≠ Config.devId s.root.boots

/-- An XAMO at its home (R235). The request of a held bundle is an access of its core (09_memory_model.md R264); its bundle meets pages,
permissions, poison and a lost answer itself. -/
def State.amoStep (s : State) (n k : Nat) (e : IfrEntry) : EngOut :=
  let va : W64 := BitVec.ofNat 64 (e.field 0 8)
  let opc := e.field 24 1
  if s.foreign e then .fail va 0x14 else
  if (s.core n).amoPending va e.seq then .hold else
  s.reach n va (permXR + permXW) true (fun pa => match pa with
    | none => .fail va 0x13
    | some pa =>
      if poisoned (s.tagOf pa) then .fail (BitVec.ofNat 64 (va.toNat / 64 * 64)) 0x13 else
      let (a, s) := s.tagged (homeOf pa) (s.core n).ctx n 0 e.seq e.rpl
        (amoApply opc pa (BitVec.ofNat 64 (e.field 8 8)) (BitVec.ofNat 64 (e.field 16 8))
          (fun s a b v => if 96 ≤ k then s.coreStore n a b (s.ringValue (s.core n).ctx va a b v) else s.commandStore n k va a b v))
      match a with
      | .value v => .done (s.answer n k v)
      | .lost => .done (if 96 ≤ k then s.updEntry n k (fun e => { e with ended := true }) else s.report n k 0x14 va))

/-- Its block no longer makes the core's accesses miss (R238). -/
def Core.dropRelblk (c : Core) (blk : Nat) : Core :=
  let l := c.relblk.erase blk
  { c with relblk := l, fenceR := decide (l ≠ []) }

/-- A release store (R238). At device or system scope it carries the time of every write of its core and engines to every reader; at core
or quarter scope to readers within the scope only (R262, R263). -/
def State.relStep (s : State) (n k : Nat) (e : IfrEntry) : EngOut :=
  let va : W64 := BitVec.ofNat 64 (e.field 0 8)
  let open' (s : State) : State := s.upd n (fun c => c.dropRelblk (va.toNat / 64 * 64))
  if s.foreign e then .fail va 0x14 else
  if !(s.core n).allWritten e.seq then .hold else
  s.reach n va permXW true (fun pa => match pa with
    | none => .fail va 0x13
    | some pa =>
      let scope := e.field 16 1
      let wide := decide (2 ≤ scope)
      let s := if wide then s.acquire n (s.relTime n) else s
      let (a, s) := s.tagged (homeOf pa) (s.core n).ctx n 0 e.seq e.rpl (fun s =>
        let t : State := s.coreStore n pa 8 (s.ringValue (s.core n).ctx va pa 8 (e.field 8 8))
        (0, { t with rels := t.rels.filter (fun r => loc r.word ≠ loc pa) ++ (if wide then [] else [⟨pa, e.field 8 8, n, scope, s.relTime n⟩]) }))
      match a with
      | .value v => .done (open' (s.answer n k v))
      | .lost => .done (open' (s.report n k 0x14 va)))

/-! ### Near-memory commands (R241 to R244) -/

structure NmCmd where
  opc : Nat
  count : Nat
  bw : W64
  bg : W64
  bm : W64
  h0 : FVal
  h1 : FVal
  h2 : FVal
  h3 : FVal
  h4 : FVal
  h0bits : Nat
  cca : W64
  seq : Nat
deriving DecidableEq, Repr

def IfrEntry.nm (e : IfrEntry) : NmCmd :=
  let f (off : Nat) : FVal := Fmt.f32.val (e.field off 4)
  ⟨e.field 0 1, e.field 4 4, BitVec.ofNat 64 (e.field 8 8), BitVec.ofNat 64 (e.field 16 8), BitVec.ofNat 64 (e.field 24 8),
   f 32, f 36, f 40, f 44, f 60, e.field 32 4, BitVec.ofNat 64 (e.field 48 8), e.field 56 4⟩

def NmCmd.usesG (c : NmCmd) : Bool := decide (c.opc ≤ 4)
def NmCmd.usesM (c : NmCmd) : Bool := c.opc = 2 || c.opc = 3
def NmCmd.groups (c : NmCmd) : Nat := (c.count + 15) / 16

/-- The operand ranges: base and length. -/
def NmCmd.ranges (c : NmCmd) : List (W64 × Nat) :=
  [(c.bw, 4 * c.count)] ++ (if c.usesG then [(c.bg, 4 * c.count)] else [])
    ++ (if c.usesM then [(c.bm, if c.opc = 3 then 8 * c.count else 4 * c.count)] else [])

/-- The first operand that makes a command rejected for what it says (R243). -/
def NmCmd.malformed (c : NmCmd) : Option W64 :=
  if c.opc = 0 ∨ 7 ≤ c.opc ∨ c.count = 0 ∨ 2 ^ 20 < c.count then some 0 else
  match c.ranges.find? (fun r => decide (r.1.toNat % 64 ≠ 0) || decide (2 ^ 22 < r.1.toNat % 2 ^ 22 + r.2)) with
  | some r => some r.1
  | none => if c.cca.toNat % 16 ≠ 0 then some c.cca else none

/-- What the unit finds at the command's pages. -/
inductive NmAt where
  | stack (h : Nat)
  | reject (va : W64)
  | absent (va : W64) (kind : Nat)
  | hold
deriving DecidableEq, Repr

/-- Each page of the command: present with the near-memory permission, first tier, in one stack (R241, R243). -/
def State.nmPages (s : State) (n : Nat) : List W64 → Option Nat → NmAt
  | [], h => .stack (h.getD 0)
  | va :: t, h =>
    match translate s (tuOf n) (s.core n).ctx va permNM with
    | .absent k => .absent va k
    | .ok pa _ =>
      if wvBars (s.ctx (s.core n).ctx) va then .reject va
      else if homeOf pa = 12 ∨ (h.isSome ∧ h ≠ some (homeOf pa)) then .reject va
      else s.nmPages n t (some (homeOf pa))
    | _ => .reject va

/-- The pages: BW and BM are written, BG is only read, so a tensor slot may hold it whatever its state, and a page in state poisoned
delivers its blocks poisoned (11_page.md R286). -/
def State.nmExamine (s : State) (n : Nat) (c : NmCmd) : NmAt :=
  match c.malformed with
  | some va => .reject va
  | none =>
    let w := [c.bw] ++ (if c.usesM then [c.bm] else []) ++ (if c.cca = 0 then [] else [c.cca])
    match s.nmPages n w none with
    | .stack h =>
      if !c.usesG then .stack h else
      match translate s (tuOf n) (s.core n).ctx c.bg permNM with
      | .absent k => .absent c.bg k
      | .ok pa _ => if homeOf pa = h then .stack h else .reject c.bg
      | .poisonedPage => .stack h
      | _ => .reject c.bg
    | r => r

/-- An exact sum as a value. -/
def Sum.value : Sum → FVal
  | .nan => .nan
  | .inf n => .inf n
  | .val z d => if d.num = 0 then .fin z 0 0 else .fin (d.num < 0) d.num.natAbs d.exp

def addX (a b : FVal) : FVal := (addVal .rne a b).value
def rnd (v : FVal) : FVal := Fmt.f32.val (roundVal .f32 .rne 0 v)

/-- t × |√(q 2^qe) + e| ≤ p on integers brought to one scale: Q under the root, E and P. -/
def leRoot (Q : Nat) (E : Int) (P : Nat) (t : Nat) : Bool :=
  if 0 ≤ E ∨ (Q : Int) > E * E then
    let r := (P : Int) - t * E
    decide (0 ≤ r) && decide (((t * t * Q : Nat) : Int) ≤ r * r)
  else
    let r := (t : Int) * (-E) - P
    decide (r ≤ 0) || decide (r * r ≤ ((t * t * Q : Nat) : Int))

/-- Equality in the test above. -/
def eqRoot (Q : Nat) (E : Int) (P : Nat) (t : Nat) : Bool :=
  let r := if 0 ≤ E ∨ (Q : Int) > E * E then (P : Int) - t * E else (t : Int) * (-E) - P
  decide (0 ≤ r) && decide (((t * t * Q : Nat) : Int) = r * r)

/-- Largest t below 2^b above `r` that satisfies a falling test. -/
def largest (f : Nat → Bool) : Nat → Nat → Nat
  | 0, r => r
  | b + 1, r => largest f b (if f (r + 2 ^ b) then r + 2 ^ b else r)

/-- |m| / |√s + h| for finite m ≠ 0, s ≥ 0 and a sum that is not 0. -/
def Pos.overRoot (m s h : Dy) : Pos := fun k =>
  let c : Nat := (max (max (-s.exp) (-h.exp)) (max (-(m.exp + k)) 0)).toNat
  let Q := s.num.natAbs * 2 ^ (s.exp + 2 * c).toNat
  let E := h.num * ((2 ^ (h.exp + c).toNat : Nat) : Int)
  let P := m.num.natAbs * 2 ^ (m.exp + k + c).toNat
  let t := largest (leRoot Q E P) 1024 0
  (t, eqRoot Q E P t)

/-- RoundFP32(m / (Sqrt(s) + h)) (R242). -/
def overRoot (m s h : FVal) : FVal :=
  match m, s, h with
  | .nan, _, _ => .nan
  | _, .nan, _ => .nan
  | _, _, .nan => .nan
  | _, .inf true, _ => .nan
  | .inf _, .inf false, _ => .nan
  | .fin n _ _, .inf false, .inf false => .fin n 0 0
  | .fin _ _ _, .inf false, .inf true => .nan
  | .fin n _ _, .inf false, .fin _ _ _ => .fin n 0 0
  | _, .fin true (_ + 1) _, _ => .nan
  | .inf _, _, .inf _ => .nan
  | .fin n _ _, _, .inf k => .fin (n != k) 0 0
  | m, s, h =>
    let q := s.dy
    let e := h.dy
    let sq : Dy := Dy.mul e e
    let zero := decide ((Dy.add q (Dy.neg sq)).num = 0) && decide (e.num ≤ 0)
    let neg := (decide (e.num < 0) && Dy.lt q sq) || (zero && decide (q.num = 0) && s.neg && h.neg)
    match m with
    | .inf n => .inf (n != neg)
    | .fin n k _ =>
      if zero then (if k = 0 then .nan else .inf (n != neg))
      else if k = 0 then .fin (n != neg) 0 0
      else Fmt.f32.val (roundPos .f32 .rne 0 (n != neg) (Pos.overRoot m.dy q e))
    | .nan => .nan

/-- One element: the new parameter, and the new moments (R242 Table 8). -/
def NmCmd.elem (c : NmCmd) (w g m s : Nat) : Nat × Nat × Nat :=
  let v := Fmt.f32.val
  let toBits (x : FVal) : Nat := roundVal .f32 .rne 0 x
  let sub (w x : FVal) : Nat := toBits (addX w x.flip)
  let one : FVal := .fin false 1 0
  match c.opc with
  | 1 => (sub (v w) (mulVal c.h0 (addX (v g) (mulVal c.h1 (v w)))), m, s)
  | 2 =>
    let m' := toBits (addX (mulVal c.h2 (v m)) (v g))
    (sub (v w) (mulVal c.h0 (addX (v m') (mulVal c.h1 (v w)))), m', s)
  | 3 =>
    let m' := toBits (addX (mulVal c.h2 (v m)) (mulVal (addX one c.h2.flip) (v g)))
    let s' := toBits (addX (mulVal c.h3 (v s)) (mulVal (mulVal (addX one c.h3.flip) (v g)) (v g)))
    let d := overRoot (v m') (v s') c.h4
    (sub (v w) (mulVal c.h0 (addX d (mulVal c.h1 (v w)))), m', s')
  | 4 => (toBits (addX (v w) (mulVal c.h0 (v g))), m, s)
  | 5 => (toBits (mulVal c.h0 (v w)), m, s)
  | _ => (c.h0bits, m, s)

/-- Poison the blocks of `len` bytes at `pa`. -/
def State.poisonRange (s : State) (pa len : Nat) : State :=
  (List.range ((pa + len - 1) / 64 + 1 - pa / 64)).foldl (fun s j =>
    (s.writeTime 0 (globalLine (64 * (pa / 64 + j)))).1.putTag (64 * (pa / 64 + j)) poisonTag) s

/-- A block of `len` bytes at `pa` is poisoned. -/
def State.rangePoisoned (s : State) (pa len : Nat) : Bool :=
  (List.range ((pa + len - 1) / 64 + 1 - pa / 64)).any (fun j => poisoned (s.tagOf (pa + 64 * j)))

/-- Command `k` of core `n` poisons the blocks of `len` bytes at `pa`: writes of the command. -/
def State.asyncPoison (s : State) (n k pa len : Nat) : State :=
  (List.range ((pa + len - 1) / 64 + 1 - pa / 64)).foldl (fun s j =>
    let a := 64 * (pa / 64 + j)
    let (s, ts) := s.writeTime (s.cmdTime n k) (globalLine a)
    (s.putTag a poisonTag).noteCmd n k ts) s

/-- An uncorrectable error in one of the blocks a group reads, `reads` by virtual and physical address: a free value names it. The block
is poisoned, and the unit of the stack has found the error (22_reliability.md R452, R485). -/
def State.groupError (s : State) (n stack : Nat) (reads : List (W64 × Nat)) : State :=
  let (u, s) := s.draw
  match reads[u.toNat % reads.length]? with
  | none => s
  | some (va, pa) => (s.poisonRange (pa / 64 * 64) 64).logLost (s.core n).ctx (0x302 + stack) (16 * (pa / 64)) va

/-- One group of 16 elements (R242, R243); `unc` tells an uncorrectable error in a word it reads. -/
def State.groupDo (s : State) (n k : Nat) (c : NmCmd) (stack grp : Nat) (unc : Bool) (pw : Nat) (pgo : Option Nat) (pm ps : Nat) : State :=
  let pg := pgo.getD 0
  let off := BitVec.ofNat 64 (64 * grp)
  let second := c.bm + BitVec.ofNat 64 (4 * c.count) + off
  let reads : List (W64 × Nat) := if c.opc = 6 then [] else
    [(c.bw + off, pw)] ++ (match pgo with | some p => if c.usesG then [(c.bg + off, p)] else [] | none => [])
      ++ (if c.usesM then [(c.bm + off, pm)] else []) ++ (if c.opc = 3 then [(second, ps)] else [])
  let s := if unc then s.groupError n stack reads else s
  let cnt := min 16 (c.count - 16 * grp)
  let len := 4 * cnt
  let bad := (unc && c.opc ≠ 6) || (c.opc ≠ 6 && s.rangePoisoned pw len) || (c.usesG && (pgo.isNone || s.rangePoisoned pg len))
    || (c.usesM && s.rangePoisoned pm len) || (c.opc = 3 && s.rangePoisoned ps len)
  let s :=
    if bad then
      let s := s.asyncPoison n k pw len
      let s := if c.usesM then s.asyncPoison n k pm len else s
      let s := if c.opc = 3 then s.asyncPoison n k ps len else s
      let s := s.logError 4 (s.core n).ctx (0x302 + stack) 0 (c.bw + BitVec.ofNat 64 (64 * grp))
      s.upd n (fun d => match d.entry k with | some e => d.setEntry k { e with failed := e.failed + 1 } | none => d)
    else
      let rd (p j : Nat) : Nat := s.rd (p + 4 * j) 4
      let res := (List.range cnt).map (fun j => c.elem (rd pw j) (rd pg j) (rd pm j) (rd ps j))
      let s := s.commandStore n k (c.bw + off) pw len (packLanes 32 (res.map (fun r => r.1)))
      let s := if c.usesM then s.commandStore n k (c.bm + off) pm len (packLanes 32 (res.map (fun r => r.2.1))) else s
      if c.opc = 3 then s.commandStore n k second ps len (packLanes 32 (res.map (fun r => r.2.2))) else s
  s.advance n k 64

/-- An earlier command of the core to the same unit has not ended (R244). A command whose unit is not known, since a page of it is
absent, counts as one to the same unit. -/
def State.nmEarlier (s : State) (n : Nat) (e : IfrEntry) (stack : Nat) : Bool :=
  (s.core n).commands.any (fun x => x.2.kind = 9 && !x.2.performed && seqBefore x.2.seq e.seq &&
    (match s.nmExamine n x.2.nm with | .stack h => decide (h = stack) | _ => true))

/-- The operands whose pages a command writes. -/
def NmCmd.written (c : NmCmd) : List W64 := [c.bw] ++ (if c.usesM then [c.bm] else []) ++ (if c.cca = 0 then [] else [c.cca])

/-- The next group of a near-memory command, which meets an uncorrectable error when `unc`. -/
def State.nmStep (s : State) (n k : Nat) (e : IfrEntry) (unc : Bool) : EngOut :=
  let c := e.nm
  let grp := e.prog / 64
  match s.nmExamine n c with
  | .reject _ => .hold
  | .hold => .hold
  | .absent va kd => .absent va kd permNM (c.written.contains va)
  | .stack h =>
    if s.foreign e || s.nmEarlier n e h || decide (c.groups ≤ grp) then .hold else
    let off := BitVec.ofNat 64 (64 * grp)
    let second := c.bm + BitVec.ofNat 64 (4 * c.count) + off
    s.reach n (c.bw + off) permNM true (fun pw =>
    s.reach n ((if c.usesG then c.bg else c.bw) + off) permNM false (fun pg =>
    s.reach n ((if c.usesM then c.bm else c.bw) + off) permNM true (fun pm =>
    s.reach n (if c.opc = 3 then second else c.bw + off) permNM true (fun ps =>
      match pw, pg, pm, ps with
      | some pw, pg, some pm, some ps => .done (s.groupDo n k c h grp unc pw pg pm ps)
      | _, _, _, _ => .fail c.bw 0x13))))

/-- The completion record's updates (R243). A record whose own address makes the command rejected has none. -/
def State.nmRecord (s : State) (n k : Nat) (cca : W64) (failed status : Nat) : State :=
  if cca = 0 ∨ cca.toNat % 16 ≠ 0 then s else
  match s.engineAt n cca permNM true with
  | .go pa =>
    let s := s.commandStore n k cca pa 8 (s.rd pa 8 + 1)
    let s := s.commandStore n k (cca + 8) (pa + 8) 4 (s.rd (pa + 8) 4 + failed)
    s.commandStore n k (cca + 12) (pa + 12) 4 (Nat.lor (s.rd (pa + 12) 4) status)
  | _ => s

/-- Where the completion record is written once it can be: `go` is told whether its KV entry's mark or its slot shuts it out
(20_generation.md R423). -/
def State.nmRecordAt (s : State) (n : Nat) (cca : W64) (go : Bool → EngOut) : EngOut :=
  if cca = 0 ∨ cca.toNat % 16 ≠ 0 then go false else
  match s.engineAt n cca permNM true with
  | .absent kd => .absent cca kd permNM true
  | .hold => .hold
  | .deny => go true
  | _ => go false

/-- A replayed command that a tag table knows, or has lost: none of its groups is performed again (13_inflight_record.md R321, R322). -/
def State.nmKnown (s : State) (n : Nat) (e : IfrEntry) : Option TagAns :=
  let x := (s.core n).ctx
  if !e.rpl then none else
  match (s.tags.tables.flatMap (·.2)).find? (fun t => t.ctx = x && t.core = n && t.space = 1 && t.tag = e.nm.seq) with
  | some t => some (.value t.result)
  | none => match s.tags.evseqOf x n 1 with
    | some v => if notAfter 1 e.nm.seq v then some .lost else none
    | none => none

/-- The end of a near-memory command: rejected, partial or complete. A command marked rejected met a mark or a slot that shuts it
out at a later group; where no address is at fault, FAULTADDR is left open (log entry 33). -/
def State.nmEnd (s : State) (n k : Nat) (e : IfrEntry) : EngOut :=
  let c := e.nm
  let x := (s.core n).ctx
  let finish (s : State) (home failed status : Nat) (rej : Option W64) : EngOut :=
    let (a, s) := s.tagged home x n 1 c.seq e.rpl (fun s => (0, s.nmRecord n k c.cca failed status))
    match a, rej with
    | .lost, _ => .done (s.report n k 0x14 c.bw)
    | .value _, none => .done (s.freeCommand n k)
    | .value _, some va => .done ((s.report n k 0x13 va))
  if s.foreign e then .fail c.bw 0x14 else
  match s.nmKnown n e with
  | some (.value _) => .done (s.freeCommand n k)
  | some .lost => .done (s.report n k 0x14 c.bw)
  | none =>
  match s.nmExamine n c with
  | .reject va =>
    s.nmRecordAt n c.cca (fun _ =>
      let (u, s') := s.draw
      if c.opc = 0 ∨ 7 ≤ c.opc ∨ c.count = 0 ∨ 2 ^ 20 < c.count then finish s' 0 e.failed 2 (some u) else finish s 0 e.failed 2 (some va))
  | .absent va kd => .absent va kd permNM (c.written.contains va)
  | .hold => .hold
  | .stack h =>
    s.nmRecordAt n c.cca (fun shut =>
      if e.rejected then finish s h e.failed 2 (some c.bw)
      else if shut then finish s h e.failed 2 (some c.cca)
      else if e.prog / 64 < c.groups then .hold
      else finish s h e.failed (if e.failed = 0 then 0 else 1) none)

end Sys2Proof.Machine
end

