-- ==== Sys2Proof/Machine/Pages.lean ====
section
/-! DEFINITION. Page tables and their changes (11_page.md R282 to R297): master table, translation copies, PGPROBE, PGINV, shoot-down,
held faults. -/

namespace Sys2Proof.Machine

/-! ### The master table (R282, R283) -/

/-- The I/O die reads and writes a master table as it stands in its frames, whatever seal the software that stored it used
(log entry 88). -/
def State.masterAddr (s : State) (x page : Nat) : Nat := (s.ctx x).ptbase.toNat + 8 * page
def State.master (s : State) (x page : Nat) : W64 := BitVec.ofNat 64 (s.mem.read (s.masterAddr x page) 8)
def State.setMaster (s : State) (x page : Nat) (e : W64) : State :=
  let s := (s.writeTime 0 (globalLine (s.masterAddr x page))).1
  { s with mem := s.mem.write (s.masterAddr x page) 8 e.toNat }

/-- Pages of a table whose bytes are not all zero, in rising order. -/
def listedPages (cells : List Host.Cell) (base : Nat) : List Nat :=
  ((cells.filter (fun c => base ≤ c.1 && decide (c.1 < base + 2 ^ 19))).map (fun c => (c.1 - base) / 8)).eraseDups

/-- A unit's copy is loaded from the master table. -/
def State.loadCopy (s : State) (tu x : Nat) : State :=
  let base := (s.ctx x).ptbase.toNat
  let t : Tbl W64 := (listedPages s.mem.cells base).map (fun p => (p, s.master x p))
  { s with xlate := Tbl.set [] s.xlate (64 * tu + x) (t.filter (fun e => e.2 ≠ 0)) }

/-- The cores of a translation unit. -/
def unitCores (tu : Nat) : List Nat := if tu < 16 then (List.range 32).map (· + 32 * tu) else [tu + 496]

/-- The entry the translation copies of a context hold: a unit that runs it, else the unit of core `n`. -/
def State.copyEntry (s : State) (n x page : Nat) : W64 :=
  s.entry (((List.range 16).find? (fun q => (s.ctx x).part q ≠ .absent)).getD (tuOf n)) x page

/-! ### Held faults (R292) -/

/-- The page no longer makes an access wait. -/
def waitOver (e : W64) : Bool := peState e = 1 || peState e = 3 || peState e = 4

/-- Held faults of a page whose wait is over are dropped. -/
def State.reexamine (s : State) (x page : Nat) : State :=
  let keep (f : PageFault) : Bool :=
    !(f.ctx = x && pageOf f.va = page && waitOver (s.entry (if f.src < 528 then tuOf f.src else 0) x page))
  { s with fbuf := { s.fbuf with held := s.fbuf.held.filter keep } }

/-! ### Adds at the request counter (12_context.md R303) -/

/-- The unit through whose copy the I/O die reaches a context's window. -/
def State.svUnit (s : State) (x : Nat) : Nat := ((List.range 16).find? (fun q => (s.ctx x).part q ≠ .absent)).getD 0

/-- The latest time of any line: what a release of the I/O die carries (log entry 32). -/
def State.latest (s : State) : Nat := s.lineTimes.foldl (fun m l => max m (max l.2.1 l.2.2)) 0

/-- The request counter takes the adds it is owed, as a release at device scope; where its page is absent they wait, and a fault is
posted. A counter that cannot be reached takes none (log entry 30). -/
def State.payCcnt (s : State) (x : Nat) : State :=
  let c := s.ctx x
  if c.owes = 0 then s else
  match translate s (s.svUnit x) x c.ccnt 0 with
  | .ok pa _ => (s.timedStore s.latest pa 8 (s.rd pa 8 + c.owes)).updCtx x (fun c => { c with owes := 0 })
  | .absent _ => s
  | _ => s.updCtx x (fun c => { c with owes := 0 })

/-- One more add is due. -/
def State.ctxAdd (s : State) (x : Nat) : State :=
  let va := (s.ctx x).ccnt
  if va = 0 then s else
  let s := s.updCtx x (fun c => { c with owes := c.owes + 1 })
  match translate s (s.svUnit x) x va 0 with
  | .absent k => s.postFault ⟨va, x, k, 0x311, permXW + 2 ^ 15, 255⟩
  | _ => s.payCcnt x

/-! ### Shoot-down (R296) -/

/-- The line of a copy, or of a line time, lies in one of these frames. -/
def lineOfFrames (frames : List Nat) (k : Nat) : Bool := decide (k < 2 ^ 44) && frames.contains (k % 2 ^ 40 / 2 ^ 16)

/-- The answers a held bundle has had from lines of these frames go: the bundle reads again before it issues. -/
def Core.forgetFrames (frames : List Nat) (c : Core) : Core :=
  { c with ifr := c.ifr.map (fun (e : Nat × IfrEntry) =>
      if 96 ≤ e.1 ∧ e.2.kind = 1 ∧ e.2.payload.any (lineOfFrames frames) then (e.1, { e.2 with rejected := e.2.ans }) else e) }

/-- Copies of lines of these frames go, and the answers had from them. -/
def Core.dropFrames (frames : List Nat) (c : Core) : Core :=
  { c.forgetFrames frames with copies := c.copies.filter (fun k => !lineOfFrames frames (k.1 % 2 ^ 40)) }

/-- One unit changes to the entry: its cores drop their copies of the old frame's lines, and a bundle waiting on the page may post
again after the page has been present (R289). -/
def State.unitTakes (s : State) (tu x page : Nat) (old e : W64) : State :=
  let frames := pePfn old :: (if peState old = 3 then s.replicaFrames x old else [])
  let s := s.setEntry tu x page e
  (unitCores tu).foldl (fun s n =>
    if (s.core n).ctx ≠ x then s else
    s.upd n (fun c => { c.dropFrames frames with posted := if waitOver e then c.posted.filter (· ≠ page) else c.posted })) s

def allUnits : List Nat := List.range 32

/-- A near-memory command of the context in flight names the page (R295). -/
def State.nmNames (s : State) (x page : Nat) : Bool :=
  s.cores.any (fun c => c.2.ctx = x && c.2.commands.any (fun e => e.2.kind = 9 && !e.2.performed
    && ((e.2.nm.ranges.map (fun r => r.1)) ++ [e.2.nm.cca]).any (fun va => inWindow (s.ctx x) va && pageOf va = page)))

/-- A master entry UPDATE refuses. -/
def entryMalformed (e : W64) : Bool :=
  bits e.toNat 36 32 ≠ 0 || bits e.toNat 3 0 ≠ 0 || peRidx e ≠ 0 || peState e = 2 || decide (5 ≤ peState e)
    || ((peState e = 1 || peState e = 4) && !frameNamed (pePfn e))

/-- Begin an operation whose turn has come (R295). -/
def State.pgBegin (s : State) (o : PgOp) : PgOp × State :=
  let e := s.master o.ctx o.page
  let done (st : Nat) : PgOp := { o with phase := pgDone, status := st }
  if o.move then
    if peState e ≠ 1 then (done 3, s)
    else if !frameNamed o.npfn || decide (o.npfn = pePfn e) then (done 4, s)
    else if s.nmNames o.ctx o.page then (o, s)
    else ({ o with phase := pgFirst, old := e, entry := peWith e 2, units := allUnits }, s)
  else
    let old := s.copyEntry o.core o.ctx o.page
    if peState e = 3 ∨ peState old = 3 then (done 2, s.setMaster o.ctx o.page old)
    else if entryMalformed e then (done 1, s)
    else ({ o with phase := pgLast, old := old, entry := e, units := allUnits }, s)

/-- Give each operation on an entry its turn, in order of arrival. One that has ended for nobody leaves. -/
def State.pgKick (s : State) : State :=
  let step (r : List PgOp × State) (o : PgOp) : List PgOp × State :=
    let busy := r.1.any (fun p => p.ctx = o.ctx && p.page = o.page && decide (p.phase ≠ pgDone))
    if o.phase = pgWaiting ∧ !busy then let (o, s) := r.2.pgBegin o; (r.1 ++ [o], s) else (r.1 ++ [o], r.2)
  let (l, s) := s.pgops.foldl step ([], s)
  { s with pgops := l.filter (fun o => o.attended || decide (o.phase ≠ pgDone)) }

/-- Replace operation `i`. -/
def State.setPgop (s : State) (i : Nat) (o : PgOp) : State := { s with pgops := setNth s.pgops i o }

/-- Index of the first operation that satisfies a test. -/
def firstIdx {α : Type} (f : α → Bool) : List α → Nat → Option (Nat × α)
  | [], _ => none
  | x :: t, i => if f x then some (i, x) else firstIdx f t (i + 1)

/-- A unit acknowledges the oldest shoot-down that still waits for it. -/
def State.ackUnit (s : State) (unit : Nat) : Result :=
  match firstIdx (fun o => (o.phase = pgFirst || o.phase = pgLast) && o.units.contains unit) s.pgops 0 with
  | none => .fault (.eventCannotArise "SHOOTDOWN_ACK")
  | some (i, o) =>
    let s := s.unitTakes unit o.ctx o.page o.old o.entry
    let us := o.units.filter (· ≠ unit)
    if us ≠ [] then .next (s.setPgop i { o with units := us })
    else
      let s := (s.reexamine o.ctx o.page).payCcnt o.ctx
      if o.phase = pgFirst then .next (s.setPgop i { o with units := [], phase := pgCopy })
      else .next (State.pgKick (s.setPgop i { o with units := [], phase := pgDone }))

/-- Copy `len` bytes with their tags; both addresses and the length are multiples of 64. -/
def Memory.copyRange (m : Memory) (src dst len : Nat) : Memory :=
  let cs := m.cells.filter (fun c => src ≤ c.1 && decide (c.1 < src + len))
  let ts := m.tags.filter (fun c => src / 64 ≤ c.1 && decide (c.1 < (src + len) / 64))
  let m := m.clear dst (dst + len)
  let m := cs.foldl (fun (m : Memory) c => m.setByte (dst + (c.1 - src)) c.2) m
  ts.foldl (fun (m : Memory) c => m.setTag (dst / 64 + (c.1 - src / 64)) c.2) m

/-- Entries of a table with keys in [lo, lo + n) stand at [dst, dst + n) instead of what stood there. -/
def Tbl.copyRange {α : Type} (t : Tbl α) (lo dst n : Nat) : Tbl α :=
  let src := t.filter (fun e => decide (lo ≤ e.1) && decide (e.1 < lo + n))
  let below := t.filter (fun e => decide (e.1 < dst))
  let above := t.filter (fun e => decide (dst + n ≤ e.1))
  below ++ src.map (fun e => (dst + (e.1 - lo), e.2)) ++ above

/-- The part of a run of seals that lies in [lo, lo + n), at `dst`. -/
def movedRun (lo dst n : Nat) (r : Nat × Nat × Nat) : Option (Nat × Nat × Nat) :=
  let first := max lo r.1
  let past := min (lo + n) (r.1 + r.2.1)
  if first < past then some (dst + (first - lo), past - first, r.2.2) else none

/-- `len` bytes, a multiple of 64, stand at `dst` as they stand at `src`: bytes, tags, seals and times (R285, R297). -/
def State.copyFrame (s : State) (src dst len : Nat) : State :=
  { s with mem := s.mem.copyRange src dst len,
           seals := (s.seals.filterMap (movedRun (src / 16) (dst / 16) (len / 16))) ++ (dst / 16, len / 16, 0) :: s.seals
           lineTimes := Tbl.copyRange s.lineTimes (src / 64) (dst / 64) (len / 64) }

/-! ### Replicas (09_memory_model.md R257; R284) -/

/-- The replicas in `frames` hold what the primary in frame `f` holds. -/
def State.fillReplicas (s : State) (f : Nat) (frames : List Nat) : State :=
  frames.foldl (fun s r => s.copyFrame (f * 2 ^ 22) (r * 2 ^ 22) (2 ^ 22)) s

/-- The lines of whole pages, each a primary's frame with those of its other replicas, are copied from the primary to the others as one
commit group, by a writer whose clock is `clk`: all the writes take one time. -/
def State.commitPages (s : State) (clk : Nat) (pages : List (Nat × List Nat)) : State × Nat :=
  let frames := pages.flatMap (fun p => p.1 :: p.2)
  let ts := max clk (s.lineTimes.foldl (fun m e => if lineOfFrames frames e.1 then max m e.2.2 else m) 0 + 1)
  let s := pages.foldl (fun s p => s.fillReplicas p.1 p.2) s
  ({ s with lineTimes := s.lineTimes.map (fun e => if lineOfFrames frames e.1 then (e.1, (ts, ts)) else e),
            cores := s.cores.map (fun (c : Nat × Core) => (c.1, c.2.forgetFrames frames)) }, ts)

/-- A row of a context's replica directory that no page uses: any (log entry 22). -/
def State.freeRow (s : State) (x : Nat) : Nat × State :=
  let (r, s) := s.draw
  let row := (List.range 65536).findSome? (fun j =>
    let k := (r.toNat + j) % 65536
    if (Tbl.get [] s.dirs (65536 * x + k)) = [] then some k else none)
  (row.getD 0, s)

/-- Frame `k` of R285 Table 2, of 12 × 15,258 + 366,210. -/
def frameAt (k : Nat) : Nat :=
  let j := k % 549306
  if j < 183096 then j / 15258 * 2 ^ 14 + j % 15258 else 2 ^ 23 + (j - 183096)

/-- The first frame from the `k`th on that is not one of `used`; `fuel` bounds the search. -/
def freeFrame (used : List Nat) : Nat → Nat → Nat
  | 0, k => frameAt k
  | fuel + 1, k => if used.contains (frameAt k) then freeFrame used fuel (k + 1) else frameAt k

/-- Frames in use: those of pages and of page tables of every context, and those of replicas. -/
def State.usedFrames (s : State) : List Nat :=
  s.dirs.flatMap (·.2) ++ (s.ctxs.filter (fun c => c.2.st ≠ .free)).flatMap (fun c =>
    c.2.ptbase.toNat / 2 ^ 22 :: (listedPages s.mem.cells c.2.ptbase.toNat).map (fun p => pePfn (s.master c.1 p)))

/-- `n` frames that firmware chooses, none of them `used`. -/
def State.drawFrames (used : List Nat) : Nat → State → List Nat × State
  | 0, s => ([], s)
  | n + 1, s =>
    let (u, s) := s.draw
    let f := freeFrame used used.length u.toNat
    let (l, s) := State.drawFrames (f :: used) n s
    (f :: l, s)

/-- A page becomes replicated-locked: it takes a row of the directory, and its replicas hold what the primary holds. Answers the row. -/
def State.takeRow (s : State) (x page : Nat) : Nat × State :=
  let (row, s) := s.freeRow x
  let (fs, s) := State.drawFrames s.usedFrames 8 s
  let s : State := { s with dirs := Tbl.set [] s.dirs (65536 * x + row) fs }
  (row, s.fillReplicas (pePfn (s.master x page)) fs)

/-- The row of a page that returns to present is free. -/
def State.freeRowOf (s : State) (x row : Nat) : State := { s with dirs := Tbl.set [] s.dirs (65536 * x + row) [] }

/-- The marks of release stores of a page go with it. -/
def State.moveRels (s : State) (src dst : Nat) : State :=
  { s with rels := (s.rels.filter (fun r => decide (phys r.word / 2 ^ 22 ≠ dst / 2 ^ 22))).map (fun r =>
      if phys r.word / 2 ^ 22 = src / 2 ^ 22 then { r with word := r.word - src + dst } else r) }

/-- The frame copy of a MOVE ends: the master entry takes the new frame, and the second shoot-down begins (R295). -/
def State.moveDone (s : State) : Result :=
  match firstIdx (fun o => o.phase = pgCopy) s.pgops 0 with
  | none => .fault (.eventCannotArise "MOVE_COPY_DONE")
  | some (i, o) =>
    let src := pePfn o.old * 2 ^ 22
    let dst := o.npfn * 2 ^ 22
    let bad := (s.mem.tags.filter (fun c => src / 64 ≤ c.1 && decide (c.1 < src / 64 + 2 ^ 16) && poisoned c.2)).map (·.1)
    let s := (s.copyFrame src dst (2 ^ 22)).moveRels src dst
    let n := peWithPfn o.old o.npfn
    let s := s.setMaster o.ctx o.page n
    let s := bad.foldl (fun s b =>
      s.logError 5 o.ctx 0x313 0 (BitVec.ofNat 64 (windowBase (s.ctx o.ctx) + o.page * 2 ^ 22 + (64 * b - src)))) s
    .next (s.setPgop i { o with entry := n, status := if bad = [] then 0 else 5, units := allUnits, phase := pgLast })

/-! ### The instructions (R293 to R295) -/

/-- Selector of PGPROBE and PGINV: context and page; none where it is an illegal operand. -/
def State.pgSelect (s : State) (x : W64) : Option (Nat × Nat) :=
  let c := bits x.toNat 21 16
  if bits x.toNat 63 22 ≠ 0 ∨ (s.ctx c).st = .free ∨ (s.ctx c).st = .dead then none else some (c, bits x.toNat 15 0)

/-- What a read of an entry returns (R294): while a MOVE shoots down or copies, the master value or the value with STATE migrating. -/
def State.readEntry (s : State) (x page : Nat) : W64 × State :=
  let e := s.master x page
  if s.pgops.any (fun o => o.ctx = x && o.page = page && o.move && (o.phase = pgFirst || o.phase = pgCopy)) then
    let (b, s) := s.choose
    (if b then peWith e 2 else e, s)
  else (e, s)

/-- The value that answers the PGPROBE whose selector is `x`. -/
def State.probe (s : State) (x : W64) : W64 × State := s.readEntry (bits x.toNat 21 16) (bits x.toNat 15 0)

/-- PGPROBE. -/
def Issue.pgprobe (i : Issue) (o : RR) : Except Stop Issue := do
  let (x, i) ← i.rrG1 o
  match i.s.pgSelect x with
  | none => illegalOperand
  | some (c, p) =>
    match i.answered with
    | some v => .ok (i.resultG o.d.toNat v 4)
    | none =>
      i.sent (readRequest x 0 (homeOf (i.s.masterAddr c p)))
      let (v, s) := i.s.readEntry c p
      .ok ({ i with s := s }.resultG o.d.toNat v 4)

/-- PGINV: the bundle is held until the operation it asked for has ended. An operation given up goes on for nobody, and a request sent again
asks for another. -/
def Issue.pginv (i : Issue) (o : RR) : Except Stop Issue := do
  let (x, y, i) ← i.rrG o
  let op := bits y.toNat 1 0
  let npfn := bits y.toNat 63 40
  match i.s.pgSelect x with
  | none => illegalOperand
  | some (c, p) =>
    if 2 ≤ op ∨ bits y.toNat 39 2 ≠ 0 ∨ (op = 0 ∧ npfn ≠ 0) then illegalOperand else
    let mine (q : PgOp) : Bool := q.attended && q.core = i.n && q.ctx = c && q.page = p && (q.move = decide (op = 1)) && q.npfn = npfn
    match i.s.pgops.find? mine with
    | none =>
      let q : PgOp := ⟨i.n, c, p, decide (op = 1), npfn, 0, 0, [], pgWaiting, 0, true⟩
      .error (.freeze (fun s => State.pgKick { s with pgops := s.pgops ++ [q] }))
    | some q =>
      if q.phase ≠ pgDone then .error (.freeze State.pgKick)
      else .ok ({ i with s := { i.s with pgops := i.s.pgops.erase q } }.resultG o.d.toNat (BitVec.ofNat 64 q.status) 1)

/-- PGPROBE (R294). -/
def opPgprobe (g : Guard) (o : RR) : Op := guarded g none (fun i => i.pgprobe o)

/-- `PGPROBE` alone in its bundle. -/
def execPgprobe (g : Guard) (o : RR) (s : State) : Result := issueSolo (.s (.pgprobe g o)) (opPgprobe g o) s

/-- PGINV (R295), UPDATE; OP of the register chooses the form. -/
def opPginvUpdate (g : Guard) (o : RR) : Op := guarded g none (fun i => i.pginv o)

/-- `PGINV_UPDATE` alone in its bundle. -/
def execPginvUpdate (g : Guard) (o : RR) (s : State) : Result := issueSolo (.s (.pginvUpdate g o)) (opPginvUpdate g o) s

/-- PGINV (R295), MOVE. -/
def opPginvMove (g : Guard) (o : RR) : Op := guarded g none (fun i => i.pginv o)

/-- `PGINV_MOVE` alone in its bundle. -/
def execPginvMove (g : Guard) (o : RR) (s : State) : Result := issueSolo (.s (.pginvMove g o)) (opPginvMove g o) s


/-! ### Events -/

/-- A translation unit acknowledges a shoot-down (R296). -/
def execShootdownAck (unit : Nat) (s : State) : Result := s.ackUnit unit

/-- The frame copy of a MOVE finishes (R295). -/
def execMoveCopyDone (s : State) : Result := s.moveDone

/-- The service stores GET of the fault buffer (R291). -/
def execFbufGetWrite (get : Nat) (s : State) : Result := .next (s.setFbufGet get)


end Sys2Proof.Machine
end

