-- ==== Sys2Proof/Machine/Images.lean ====
section
/-! DEFINITION. The saved image (12_context.md R306 to R310; 13_inflight_record.md R325 to R328; 14_trap.md R339): one layout, written
by a save and read by a restore, as bytes by offset. What the image has no place for is taken from the core as its last save found it,
where the image is that save's (log entry 11). -/

namespace Sys2Proof.Machine

/-- A field of an image: offset, length in bytes, value. -/
abbrev ImgField := Nat × Nat × Nat

def putAll (m : Memory) (l : List ImgField) : Memory := l.foldl (fun (m : Memory) f => m.write f.1 f.2.1 f.2.2) m
/-- `n` fields of `sz` bytes each. -/
def fields (base sz n : Nat) (f : Nat → Nat) : List ImgField := (List.range n).map (fun k => (base + sz * k, sz, f k))

/-! ### Offsets -/

def oSys : Nat := 1280
def oLscale : Nat := oSys + 440
def oNopen : Nat := oSys + 504
def oLsgen : Nat := oSys + 512
def oRng : Nat := oSys + 520
def oCdiag : Nat := oSys + 552
def oTrap : Nat := oSys + 560
def oWmark : Nat := oSys + 600
def oResid : Nat := oSys + 792
def oProw : Nat := oSys + 984
def oMcfg : Nat := oSys + 992
def oQset : Nat := oSys + 1016
def oLent : Nat := oSys + 1048
def oFrames : Nat := 47104
def oSpad : Nat := 65536
def oSpadTags : Nat := 1114112
def oWbuf : Nat := 1146880
def oWbufTags : Nat := 1671168
def oPlanes : Nat := 1687552
def oAcc : Nat := 1949696
def oLog : Nat := 5095424
def coreRecordSize : Nat := 5242880
def quarterRecordSize : Nat := 167837696
def quarterAt (q : Nat) : Nat := 4096 + q * quarterRecordSize
def coreAt (q i : Nat) : Nat := quarterAt q + 65536 + i * coreRecordSize

/-! ### Words -/

def IfrClass.code : IfrClass → Nat
  | .idem => 0 | .tagged => 1 | .member => 2 | .keyed => 3
def IfrClass.ofCode (k : Nat) : IfrClass :=
  match k with
  | 1 => .tagged | 2 => .member | 3 => .keyed | _ => .idem

/-- The later of two fence points, where both hold. -/
def laterSeq (x n : Bool) (a b : Nat) : Nat := if x && n then (if seqBefore a b then b else a) else if x then a else b

/-- An in-flight record entry (R319 Table 1). A command whose request was performed and whose answer is on its way is saved as sent
and no more (R329); an answer that has come with a value stands in a request entry only. -/
def IfrEntry.image (e : IfrEntry) (place base : Nat) : List ImgField :=
  let ans := e.ans && decide (96 ≤ place) && !e.rejected
  [(base, 4, 2 ^ 31 + e.cls.code * 2 ^ 28 + e.kind % 16 * 2 ^ 24 + e.seq % 2 ^ 24),
   (base + 4, 4, b2n e.started * 2 ^ 31 + b2n e.sent * 2 ^ 30 + b2n (e.waitX || e.waitN) * 2 ^ 29 + e.wscope % 4 * 2 ^ 27
      + b2n e.ended * 2 ^ 26 + b2n e.rpl * 2 ^ 25 + b2n ans * 2 ^ 24 + laterSeq e.waitX e.waitN e.wseq e.wseqN % 2 ^ 24),
   (base + 8, 8, e.prog), (base + 16, 4, e.devId.toNat), (base + 20, 2, e.home), (base + 24, 8, if ans then e.result.toNat else 0),
   (base + 32, 64, e.opnd.toNat)]

def IfrEntry.ofImage (m : Memory) (base : Nat) (fx fn : Bool) : Option IfrEntry :=
  let ctl := m.read base 4
  let st := m.read (base + 4) 4
  if !ctl.testBit 31 then none else
  some { cls := .ofCode (bits ctl 30 28), kind := bits ctl 27 24, seq := bits ctl 23 0, started := st.testBit 31, sent := st.testBit 30,
         waitX := st.testBit 29 && fx, waitN := st.testBit 29 && fn, wscope := bits st 28 27, ended := st.testBit 26, rpl := st.testBit 25,
         ans := st.testBit 24, wseq := bits st 23 0, wseqN := bits st 23 0, prog := m.read (base + 8) 8,
         devId := BitVec.ofNat 32 (m.read (base + 16) 4), home := m.read (base + 20) 2, result := BitVec.ofNat 64 (m.read (base + 24) 8),
         opnd := BitVec.ofNat 512 (m.read (base + 32) 64), payload := [], posted := none, failed := 0, rejected := false, ts := 0 }

def RegFile.code : RegFile → Nat
  | .g => 0 | .a => 1 | .p => 2 | .b => 3 | .v => 4 | .m => 5 | .latch => 6
def RegFile.ofCode (k : Nat) : RegFile :=
  match k with
  | 0 => .g | 1 => .a | 2 => .p | 3 => .b | 4 => .v | 5 => .m | _ => .latch
def UnitId.ofIdx (k : Nat) : UnitId :=
  match k with
  | 0 => .s | 1 => .v0 | 2 => .v1 | 3 => .m | 4 => .x0 | _ => .x1

/-- A result snapshot (R326 Table 6); `last` is the last issue cycle. -/
def Pending.image (p : Pending) (last base : Nat) : List ImgField :=
  [(base, 128, p.value.toNat),
   (base + 128, 4, p.unit.idx * 2 ^ 29 + p.file.code * 2 ^ 26 + p.reg % 64 * 2 ^ 20 + (p.due - last) % 1024 * 2 ^ 10 + (last - p.issued) % 1024),
   (base + 132, 4, 1)]

def Pending.ofImage (m : Memory) (base last : Nat) : Option Pending :=
  let d := m.read (base + 128) 4
  if m.read (base + 132) 4 % 2 = 0 then none
  else some ⟨.ofIdx (bits d 31 29), .ofCode (bits d 28 26), bits d 25 20, BitVec.ofNat 1024 (m.read base 128), last - bits d 9 0,
    last + bits d 19 10⟩

/-- MCFG word 0 as MCFG would be given it. -/
def ModeWord.word (m : ModeWord) : Nat :=
  m.gsel.toNat * 2 ^ 32 + b2n m.fm * 2 ^ 31 + b2n m.ff * 2 ^ 30 + b2n m.sgna * 2 ^ 29 + b2n m.sgnb * 2 ^ 28 + m.ak.toNat * 2 ^ 24
    + m.bk.toNat * 2 ^ 20 + b2n m.sat * 2 ^ 19 + b2n m.tr * 2 ^ 18 + b2n m.zb * 2 ^ 17 + b2n m.unsc * 2 ^ 16 + b2n m.govr * 2 ^ 15
    + m.drm.toNat * 2 ^ 12 + m.dfmt.toNat * 2 ^ 9 + m.snc.toNat * 2 ^ 6

/-- A matrix-log entry (R328). -/
def MLog.image (l : MLog) (last base : Nat) : List ImgField :=
  [(base, 16, l.kind + (last - l.issued) % 512 * 2 ^ 8 + b2n l.mode.fm * 2 ^ 17 + b2n l.mode.ff * 2 ^ 18 + b2n l.mode.sgna * 2 ^ 19
      + b2n l.mode.sat * 2 ^ 20 + l.mode.ak.toNat * 2 ^ 21 + l.acc % 32 * 2 ^ 25 + l.row % 256 * 2 ^ 30 + l.md % 4 * 2 ^ 38
      + b2n l.half * 2 ^ 40 + l.fph % 4 * 2 ^ 41), (base + 16, 512, l.data.toNat)]

def MLog.ofImage (m : Memory) (base last : Nat) : Option MLog :=
  let h := m.read base 16
  if h % 256 = 0 then none
  else some ⟨h % 256, last - bits h 16 8,
    { ModeWord.reset with fm := h.testBit 17, ff := h.testBit 18, sgna := h.testBit 19, sat := h.testBit 20, ak := BitVec.ofNat 4 (bits h 24 21) },
    bits h 29 25, bits h 37 30, bits h 39 38, h.testBit 40, bits h 42 41, h.testBit 17, h.testBit 18, BitVec.ofNat 4096 (m.read (base + 16) 512)⟩

/-! ### Trap frames (R339) -/

def Frame.image (f : Frame) (base : Nat) : List ImgField :=
  fields base 128 24 (fun k => (Tbl.get 0 f.latches k).toNat) ++ fields (base + 3072) 128 18 (fun k => (Tbl.get 0 f.held k).toNat)
    ++ [(base + 5376, 4, f.latv.toNat), (base + 5380, 4, f.holdv.toNat),
        (base + 5384, 4, b2n f.bksup + (match f.lbix with | some k => k % 256 | none => 0x1FF) * 2), (base + 5392, 8, f.lctl.word.toNat)]
    ++ fields (base + 5400) 8 6 (fun k => (Tbl.get .zero f.lstat k).word.toNat)
    ++ fields (base + 5448) 4 96 (fun k => (Tbl.get 0 f.steps k).toNat)
    ++ [(base + 5832, 8, f.orpc.toNat * 16), (base + 5840, 8, f.erpc.toNat * 16)]

/-- A table read back from `n` places. -/
def tblOf {α : Type} [DecidableEq α] (d : α) (n : Nat) (f : Nat → α) : Tbl α :=
  ((List.range n).map (fun k => (k, f k))).filter (fun x => x.2 ≠ d)

/-- A frame as an image holds it. The image does not tell whether a LOOP has loaded the loop buffer since the entry, so that the body is
loaded again at TRET (R342; log entry 11). -/
def Frame.ofImage (m : Memory) (base : Nat) : Frame :=
  let ix := bits (m.read (base + 5384) 4) 9 1
  { latches := tblOf 0 24 (fun k => BitVec.ofNat 1024 (m.read (base + 128 * k) 128)),
    held := tblOf 0 18 (fun k => BitVec.ofNat 1024 (m.read (base + 3072 + 128 * k) 128)),
    latv := BitVec.ofNat 24 (m.read (base + 5376) 4), holdv := BitVec.ofNat 18 (m.read (base + 5380) 4),
    lctl := .ofWord (BitVec.ofNat 64 (m.read (base + 5392) 8)),
    lstat := tblOf .zero 6 (fun k => .ofWord (BitVec.ofNat 64 (m.read (base + 5400 + 8 * k) 8))),
    steps := tblOf 0 96 (fun k => BitVec.ofNat 32 (m.read (base + 5448 + 4 * k) 4)),
    wrapped := 0, stale := true, body := bits (m.read (base + 5400) 8) 7 0 + 1,
    bksup := m.read (base + 5384) 4 % 2 = 1, lbix := if ix = 0x1FF then none else some ix,
    orpc := BitVec.ofNat 44 (m.read (base + 5832) 8 / 16), erpc := BitVec.ofNat 44 (m.read (base + 5840) 8 / 16) }

/-! ### The core record (R325 Tables 4 and 5) -/

def Core.flagsWord (c : Core) : Nat :=
  b2n c.heldBundle + b2n (c.run = .halted) * 2 + b2n c.twin * 4 + b2n c.bksup * 8 + b2n c.nfs * 16 + b2n c.cutN.isSome * 32

def Core.fenceWord (c : Core) : Nat :=
  laterSeq c.fenceX c.fenceN c.fseq c.fseqN % 2 ^ 24 + (if c.fenceN then 3 else c.fscope % 4) * 2 ^ 24 + b2n c.fenceX * 2 ^ 26 + b2n c.fenceN * 2 ^ 27 + b2n c.fenceR * 2 ^ 28

def Core.trappc (c : Core) : W64 := BitVec.ofNat 64 (c.rpc.toNat * 16)

/-- Header, registers and control state. -/
def Core.imageFixed (c : Core) (devId : Nat) : List ImgField :=
  let ch (k : Nat) : List ChanEntry := Tbl.get [] c.chan k
  [(0, 8, c.pc.toNat), (8, 4, c.flagsWord), (12, 4, c.latv.toNat), (16, 4, c.holdv.toNat), (20, 4, c.nextSeq), (24, 4, devId),
   (28, 2, (List.range 4).foldl (fun a k => a + (ch k).length % 16 * 2 ^ (4 * k)) 0), (32, 8, c.clk % 2 ^ 48), (40, 8, c.pos % 2 ^ 48),
   (48, 8, c.fenceWord), (56, 8, nth 0 c.relblk (c.relblk.length - 1))]
    ++ fields 256 8 64 (fun k => (c.getG k).toNat) ++ fields 768 8 16 (fun k => (c.getA k).toNat)
    ++ fields 896 8 16 (fun k => (c.getStride k).toNat)
    ++ [(1024, 4, (List.range 24).foldl (fun a k => a + b2n (c.getP k) * 2 ^ k) 0)]
    ++ fields 1088 16 8 (fun k => (c.getM k).toNat) ++ fields 1216 8 8 (fun k => (c.getB k).toNat)
    ++ [(oSys, 8, c.lctl.word.toNat)] ++ fields (oSys + 8) 8 6 (fun k => (Tbl.get .zero c.lstat k).word.toNat)
    ++ fields (oSys + 56) 4 96 (fun k => (Tbl.get 0 c.steps k).toNat)
    ++ fields oLscale 8 8 (fun k => let e := Tbl.get .none c.scales k; e.scale.toNat + e.recip.toNat * 2 ^ 32)
    ++ [(oNopen, 1, c.nopen), (oLsgen, 8, c.lsgen.toNat), (oRng, 16, c.rngK.toNat), (oRng + 16, 16, c.rngC.toNat),
        (oCdiag, 8, c.cdiag.toNat), (oTrap, 8, c.cause.toNat), (oTrap + 8, 8, c.trappc.toNat), (oTrap + 16, 8, c.tval.toNat),
        (oTrap + 24, 8, c.trapstat.toNat), (oTrap + 32, 8, c.faddr.toNat)]
    ++ fields oWmark 8 24 (fun k => (c.mx.st k).wmark.toNat) ++ fields oResid 8 24 (fun k => (c.mx.st k).resid.toNat)
    ++ [(oProw, 1, c.mx.prow.toNat), (oProw + 2, 2, c.mx.wbp.toNat), (oProw + 4, 1, c.mx.fph.toNat), (oMcfg, 8, c.mx.mode.word),
        (oMcfg + 8, 8, 2 ^ 60 + c.mx.obase.toNat * 2 ^ 13 + c.mx.ocnt.toNat), (oMcfg + 16, 8, 3 * 2 ^ 60 + c.mx.wbp.toNat)]
    ++ fields oQset 8 4 (fun k => let q := Tbl.get .reset c.mx.qsets k; 2 * 2 ^ 60 + k * 2 ^ 14 + b2n q.sgn * 2 ^ 13 + q.base.toNat)
    ++ [(oLent, 1, c.lent.toNat),
        (oLent + 1, 1, b2n c.mx.active.fm + b2n c.mx.active.ff * 2 + b2n c.mx.shadow.fm * 4 + b2n c.mx.shadow.ff * 8)]
    ++ c.v.map (fun x => (4096 + 128 * x.1, 128, x.2.toNat))
    ++ fields 12288 128 24 (fun k => (Tbl.get 0 c.latches k).toNat) ++ fields 15360 128 18 (fun k => (Tbl.get 0 c.held k).toNat)
    ++ (c.pend.zip (List.range 64)).flatMap (fun p => p.1.image (c.ic - 1) (17664 + 160 * p.2))
    ++ (List.range 4).flatMap (fun k => ((ch k).zip (List.range 4)).map (fun e => (27904 + 512 * k + 128 * e.2, 128, e.1.value.toNat)))
    ++ fields 29952 8 32 (fun t => (c.tile t).word.toNat)
    ++ c.ifr.flatMap (fun e => e.2.image e.1 (if e.1 < 96 then 30720 + 128 * e.1 else 30208 + 128 * (e.1 - 96)))
    ++ c.loopBuf.map (fun x => (43008 + 16 * x.1, 16, (x.2.getD 0).toNat))
    ++ (c.frames.reverse.zip (List.range 3)).flatMap (fun f => f.1.image (oFrames + 6144 * f.2))

/-- Rows of a plane as its storage holds them (log entry 20). -/
def Plane.image (p : Plane) (base : Nat) : List ImgField := p.rows.map (fun r => (base + 512 * r.1, 512, r.2.toNat))

/-- Rows of accumulator tiles written when TV = 1; a row that still awaits reload is written from what it awaits. -/
def Matrix.image (m : Matrix) : List ImgField :=
  (List.range 24).flatMap (fun t =>
    let st := m.st t
    if !st.tv then [] else
    (List.range 128).map (fun r =>
      (oAcc + 131072 * t + 1024 * r, 1024, (if r < st.wm.toNat then m.row t r else Tbl.get 0 m.reload (128 * t + r)).toNat)))

/-- Bytes and tags of a memory as sections. -/
def Memory.image (m : Memory) (bytes tags : Nat) : List ImgField :=
  m.cells.map (fun c => (bytes + c.1, 1, c.2.toNat)) ++ m.tags.map (fun t => (tags + 2 * t.1, 2, t.2.toNat))

/-- The whole core record, at offset 0. -/
def Core.image (c : Core) (devId : Nat) : List ImgField :=
  let c := c.settled
  c.imageFixed devId ++ c.spad.image oSpad oSpadTags ++ c.wbuf.image oWbuf oWbufTags ++ c.mx.active.image oPlanes
    ++ c.mx.shadow.image (oPlanes + 131072) ++ c.mx.image
    ++ (c.mx.log.zip (List.range 264)).flatMap (fun l => l.1.image (c.ic - 1) (oLog + 528 * l.2))

/-- A part of a memory moved to offset 0, tags from a section of 2-byte words. -/
def Memory.ofImage (m : Memory) (bytes len tags : Nat) : Memory :=
  ⟨(m.cells.filter (fun c => bytes ≤ c.1 && decide (c.1 < bytes + len))).map (fun c => (c.1 - bytes, c.2)),
   (((m.cells.filter (fun c => tags ≤ c.1 && decide (c.1 < tags + len / 32))).map (fun c => (c.1 - tags) / 2)).eraseDups).map
     (fun k => (k, BitVec.ofNat 16 (m.read (tags + 2 * k) 2)))⟩

/-- The keys of `n` records of `sz` bytes that hold a byte other than 0. -/
def listedRecs (m : Memory) (base sz n : Nat) : List Nat :=
  ((m.cells.filter (fun c => base ≤ c.1 && decide (c.1 < base + sz * n))).map (fun c => (c.1 - base) / sz)).eraseDups

/-- Every cell of a row is a value of an integer cell (R187, R195). -/
def cellsFit (x : BitVec 4096) : Bool :=
  (List.range 256).all (fun n => let v := sext ((x.toNat >>> (16 * n)) % 2 ^ 16) 16; decide (-128 ≤ v) && decide (v ≤ 255))

/-- A plane as an image holds it. Rows of an integer plane that hold no integer cells are rows that R195 leaves open, drawn from `seed`. -/
def Plane.ofImage (m : Memory) (base : Nat) (fm ff : Bool) (seed : Nat) : Plane :=
  let rows := (listedRecs m base 512 256).map (fun k => (k, BitVec.ofNat 4096 (m.read (base + 512 * k) 512)))
  ⟨rows, fm, ff, if fm then 0 else (rows.filter (fun r => !cellsFit r.2)).foldl (fun w r => w ||| BitVec.ofNat 256 (2 ^ r.1)) 0, seed, rows ≠ []⟩

/-- WMARK and RESID of a tile; WM is 0 where rows await reload. -/
def AccStat.ofImage (w r : Nat) : AccStat :=
  let tv := w.testBit 15
  { steps := BitVec.ofNat 12 (bits w 63 52), snstep := BitVec.ofNat 12 (bits w 51 40), gen := BitVec.ofNat 16 (bits w 39 24),
    rptr := BitVec.ofNat 7 (bits w 23 17), gv := w.testBit 16, tv := tv, tmode := w.testBit 14, satf := w.testBit 13,
    unck := w.testBit 12, mism := w.testBit 11, wm := if tv then 0 else 128, resHi := BitVec.ofNat 32 (r / 2 ^ 32),
    resLo := BitVec.ofNat 32 r }

/-- The beats in flight, rebuilt from the log by undoing it from the newest entry (R328). -/
def rebuildBeats (ic : Nat) : List MLog → Plane → Plane → List Beat
  | [], _, _ => []
  | l :: older, a, s =>
    match l.kind with
    | 1 => rebuildBeats ic older a { s with rows := Tbl.set 0 s.rows l.row l.data }
    | 2 => rebuildBeats ic older s a
    | 0 => rebuildBeats ic older a s
    | _ =>
      let v : Vec := if l.mode.fm then l.data.setWidth 1024 else (l.data.setWidth 1024) <<< (512 * b2n l.half)
      let b := shiftBeat l.mode { a with fm := l.mode.fm, ff := l.mode.ff } l.fph l.acc l.row l.md l.half v l.issued
      let rest := rebuildBeats ic older a s
      if ic < b.due then rest ++ [b] else rest

/-- Tile from its state word. -/
def Tile.ofWord (w : Nat) : Tile :=
  ⟨match w % 4 with | 0 => .empty | 1 => .filling | 2 => .ready | _ => .draining, BitVec.ofNat 16 (bits w 31 16), bits w 10 4,
   w.testBit 2, w.testBit 3⟩

/-- The issue cycle a restored core counts from when its last save is not known. -/
def restoredIc : Nat := 1024

/-- The image is the one that core `k` gave: the pc, NEXTSEQ, CLK and the cut position agree. -/
def Core.gave (k : Core) (m : Memory) : Bool :=
  k.run ≠ .idle && m.read 0 8 = k.pc.toNat && m.read 20 4 % 2 ^ 24 = k.nextSeq && m.read 32 8 % 2 ^ 48 = k.clk % 2 ^ 48
    && m.read 40 8 % 2 ^ 48 = k.pos % 2 ^ 48

/-- What an entry's image has no place for. -/
def IfrEntry.adopt (k : Core) (place : Nat) (e : IfrEntry) : IfrEntry :=
  match k.entry place with
  | some f => { e with waitX := f.waitX, waitN := f.waitN, wseq := f.wseq, wseqN := f.wseqN, failed := f.failed, rejected := f.rejected, ts := f.ts }
  | none => e

def Plane.adopt (k p : Plane) : Plane := { p with bad := k.bad, seed := k.seed, ever := k.ever }

/-- What a core record has no place for, from the core that gave it: a first bundle not released, the place in the loop buffer and its body, wrapped levels, open
cells of planes, the products of beats in flight, the time its engines' writes carry (log entry 11). -/
def Core.adopt (k c : Core) : Core :=
  { c with
    run := if k.run = .loaded then .loaded else c.run
    lbix := k.lbix, body := k.body, wrapped := k.wrapped, wts := k.wts, fseq := k.fseq, fseqN := k.fseqN, fscope := k.fscope
    relblk := k.relblk, chan := k.chan
    loopBuf := k.loopBuf.map (fun x => (x.1, if x.2.isSome then Tbl.get none c.loopBuf x.1 else none))
    frames := (c.frames.zip k.frames).map (fun f => { f.1 with wrapped := f.2.wrapped, stale := f.2.stale, body := f.2.body })
    ifr := c.ifr.map (fun e => (e.1, IfrEntry.adopt k e.1 e.2))
    mx := { c.mx with active := Plane.adopt k.mx.active c.mx.active, shadow := Plane.adopt k.mx.shadow c.mx.shadow, beats := k.mx.beats } }

/-- A core as its record gives it, `k` being the core as its last save found it; the place in the hierarchy comes from the quarter
section. Reserved bits of the record are ignored (R2). `seed` is where open cells are drawn from, and `time` a time later than every
write so far, after which its commands write (R259, R261). -/
def Core.ofImage (m : Memory) (k : Core) (seed time : Nat) : Core :=
  let known := k.gave m
  let ic0 := if known then k.ic else restoredIc
  let last := ic0 - 1
  let r8 (o : Nat) : W64 := BitVec.ofNat 64 (m.read o 8)
  let flags := m.read 8 4
  let fw := m.read 48 8
  let fx := fw.testBit 26
  let fn := fw.testBit 27
  let pos := m.read 40 8 % 2 ^ 48
  let clk := m.read 32 8 % 2 ^ 48
  let ts := m.read (oTrap + 24) 8
  let pm := m.read (oLent + 1) 1
  let active := Plane.ofImage m oPlanes (pm.testBit 0) (pm.testBit 1) seed
  let shadow := Plane.ofImage m (oPlanes + 131072) (pm.testBit 2) (pm.testBit 3) (seed + 65536)
  let log := (List.range 264).filterMap (fun k => MLog.ofImage m (oLog + 528 * k) last)
  let ents := (List.range 96).filterMap (fun k => (IfrEntry.ofImage m (30720 + 128 * k) fx fn).map (fun e => (k, { e with ts := time })))
    ++ (List.range 4).filterMap (fun k => (IfrEntry.ofImage m (30208 + 128 * k) fx fn).map (fun e => (96 + k, { e with ts := clk })))
  let rel := m.read 56 8
  let o1 := m.read (oMcfg + 8) 8
  let stat : Tbl AccStat := tblOf .reset 24 (fun k => .ofImage (m.read (oWmark + 8 * k) 8) (m.read (oResid + 8 * k) 8))
  let c : Core := { Core.idle with
    run := if ts / 2 ^ 56 ≠ 0 then .dead else if flags.testBit 1 then .halted else .stopped
    pc := r8 0
    lbix := none
    body := bits (m.read (oSys + 8) 8) 7 0 + 1
    loopBuf := tblOf none 256 (fun k => some (BitVec.ofNat 128 (m.read (43008 + 16 * k) 16)))
    g := (tblOf 0 64 (fun k => r8 (256 + 8 * k))).filter (fun x => x.1 ≠ 0)
    a := tblOf 0 16 (fun k => r8 (768 + 8 * k))
    stride := tblOf 0 16 (fun k => r8 (896 + 8 * k))
    p := (tblOf false 24 (fun k => (m.read 1024 4).testBit k)).filter (fun x => x.1 ≠ 0)
    b := tblOf 0 8 (fun k => BitVec.ofNat 64 (m.read (1216 + 8 * k) 8 % 2 ^ 48))
    v := tblOf 0 64 (fun k => BitVec.ofNat 1024 (m.read (4096 + 128 * k) 128))
    m := (tblOf 0 8 (fun k => BitVec.ofNat 128 (m.read (1088 + 16 * k) 16))).filter (fun x => x.1 ≠ 0)
    latches := tblOf 0 24 (fun k => BitVec.ofNat 1024 (m.read (12288 + 128 * k) 128))
    latv := BitVec.ofNat 24 (m.read 12 4)
    held := tblOf 0 18 (fun k => BitVec.ofNat 1024 (m.read (15360 + 128 * k) 128))
    holdv := BitVec.ofNat 18 (m.read 16 4)
    pend := (List.range 64).filterMap (fun k => Pending.ofImage m (17664 + 160 * k) last)
    ic := ic0
    ticks := ic0 / 1024
    lctl := .ofWord (r8 oSys)
    lstat := tblOf .zero 6 (fun k => .ofWord (r8 (oSys + 8 + 8 * k)))
    steps := tblOf 0 96 (fun k => BitVec.ofNat 32 (m.read (oSys + 56 + 4 * k) 4))
    lent := BitVec.ofNat 4 (m.read oLent 1)
    frzcyc := BitVec.ofNat 32 (bits (m.read oCdiag 8) 47 16)
    latinv := (m.read oCdiag 8).testBit 7
    holdinv := (m.read oCdiag 8).testBit 6
    diagunit := BitVec.ofNat 3 (bits (m.read oCdiag 8) 5 3)
    scales := tblOf .none 8 (fun k => ⟨BitVec.ofNat 32 (m.read (oLscale + 8 * k) 4), BitVec.ofNat 32 (m.read (oLscale + 8 * k + 4) 4)⟩)
    gen := BitVec.ofNat 16 (m.read oLsgen 2)
    nopen := m.read oNopen 1
    rngK := BitVec.ofNat 128 (m.read oRng 16)
    rngC := BitVec.ofNat 128 (m.read (oRng + 16) 16)
    nfs := flags.testBit 4
    cause := BitVec.ofNat 8 (m.read oTrap 1)
    rpc := BitVec.ofNat 44 (m.read (oTrap + 8) 8 / 16)
    tval := r8 (oTrap + 16)
    faddr := r8 (oTrap + 32)
    dcause := BitVec.ofNat 8 (ts / 2 ^ 56)
    imp := ts.testBit 48
    hbase := BitVec.ofNat 44 (bits ts 47 4)
    twin := flags.testBit 2
    frames := (List.range (bits ts 3 2)).reverse.map (fun f => Frame.ofImage m (oFrames + 6144 * f))
    bksup := flags.testBit 3
    clk := clk
    mx := { Matrix.reset with
            active := active, shadow := shadow, prow := BitVec.ofNat 8 (m.read oProw 1), wbp := BitVec.ofNat 13 (m.read (oProw + 2) 2),
            fph := BitVec.ofNat 2 (m.read (oProw + 4) 1), mode := modeFields (r8 oMcfg), obase := BitVec.ofNat 13 (bits o1 25 13),
            ocnt := BitVec.ofNat 13 o1, log := log,
            beats := (rebuildBeats (ic0 - 1) log.reverse active shadow).filter (fun b => (Tbl.get AccStat.reset stat b.tile).tv),
            qsets := tblOf .reset 4 (fun k => let x := m.read (oQset + 8 * k) 8; ⟨x.testBit 13, BitVec.ofNat 13 x⟩),
            stat := stat,
            reload := (listedRecs m oAcc 1024 3072).map (fun k => (k, BitVec.ofNat 8192 (m.read (oAcc + 1024 * k) 1024))) }
    wbuf := m.ofImage oWbuf (2 ^ 19) oWbufTags
    spad := m.ofImage oSpad (2 ^ 20) oSpadTags
    tiles := tblOf .fresh 32 (fun k => .ofWord (m.read (29952 + 8 * k) 8))
    ifr := ents
    nextSeq := m.read 20 4 % 2 ^ 24
    fseq := fw % 2 ^ 24
    fseqN := fw % 2 ^ 24
    fscope := bits fw 25 24
    fenceX := fx
    fenceN := fn
    fenceR := fw.testBit 28
    relblk := if fw.testBit 28 then
        ((ents.filter (fun (e : Nat × IfrEntry) => e.2.kind = 8 && !e.2.performed)).map (fun (e : Nat × IfrEntry) => e.2.field 0 8 / 64 * 64) ++ [rel]).eraseDups else []
    chan := tblOf [] 4 (fun k => (List.range (bits (m.read 28 2) (4 * k + 3) (4 * k))).map
      (fun e => ⟨BitVec.ofNat 1024 (m.read (27904 + 512 * k + 128 * e) 128), 0⟩))
    heldBundle := flags.testBit 0
    cutEp := pos / 2 ^ 17
    cutN := if flags.testBit 5 then some (pos % 2 ^ 17) else none
    replay := true }
  if known then Core.adopt k c else c

end Sys2Proof.Machine
end

