-- ==== Sys2Proof/Machine/Contexts.lean ====
section
/-! DEFINITION. Requests on contexts (12_context.md R300 to R317): freezes, cuts, saves, restores, resumes; the quarter section and the
save area; the events that end a request. -/

namespace Sys2Proof.Machine

/-! ### Entries and slots of the weight version table (19_weight_versions.md R397, R398) -/

def Ctx.tensor (c : Ctx) (t : Nat) : WvEntry := Tbl.get .none c.wvt t
def State.setTensor (s : State) (x t : Nat) (e : WvEntry) : State := s.updCtx x (fun c => { c with wvt := Tbl.set .none c.wvt t e })

def WvEntry.slot (e : WvEntry) (k : Nat) : WvSlot := if k = 0 then e.s0 else e.s1
def WvEntry.setSlot (e : WvEntry) (k : Nat) (w : WvSlot) : WvEntry := if k = 0 then { e with s0 := w } else { e with s1 := w }
/-- The inactive slot. -/
def WvEntry.other (e : WvEntry) : Nat := 1 - e.act

/-- A reader of a slot has left (R398). -/
def WvSlot.leave (w : WvSlot) : WvSlot :=
  let rc := w.rc - 1
  { w with rc := rc, st := if w.st = .retiring ∧ rc = 0 then .free else w.st }

/-- The count of a slot falls, as a core whose clock is `clk` leaves it: whoever claims the slot synchronises with that (R406). -/
def State.slotLeft (s : State) (clk x t k : Nat) : State :=
  let e := (s.ctx x).tensor t
  if e.ver = 0 then s else s.setTensor x t { e.setSlot k (e.slot k).leave with left := max e.left clk }

/-- The bindings of a saved core, which stay counted, are given up (R408). -/
def State.leaveKept (s : State) (x n : Nat) : State :=
  let c := Tbl.get .idle s.kept (1024 * x + n)
  let s := c.bnd.foldl (fun (s : State) b => if b.2.v && !b.2.stale then s.slotLeft c.clk x b.2.t b.2.slot else s) s
  { s with kept := Tbl.set .idle s.kept (1024 * x + n) { c with bnd := [], ifr := [] } }

/-- A saved register bound afresh (R408): it is counted at the entry's active slot where that holds the same version, else it is STALE. -/
def State.bindAfresh (s : State) (n x k : Nat) (b : Bind) : State :=
  if !b.v then s else
  let e := (s.ctx x).tensor b.t
  let w := e.slot e.act
  let same : Bool := e.ver ≠ 0 && e.ver = b.ver && decide (w.st = .published)
  let s := if same then s.setTensor x b.t (e.setSlot e.act { w with rc := w.rc + 1 }) else s
  s.upd n (fun c => { c with bnd := Tbl.set Bind.none c.bnd k (if same then { b with slot := e.act, stale := false } else { b with stale := true }) })

/-! ### Quarters and parts -/

/-- Quarters named by a mask. -/
def quartersIn (m : BitVec 16) : List Nat := (List.range 16).filter m.getLsbD
def maskOfQ (l : List Nat) : BitVec 16 := l.foldl (fun m q => m ||| BitVec.ofNat 16 (2 ^ q)) 0

/-- Groups of a context on a quarter. -/
def State.groupsOn (s : State) (x q : Nat) : List (Nat × Group) :=
  s.groups.filterMap (fun g => match g.2 with
    | some v => if v.ctx = x ∧ v.q = q ∧ v.st ≠ .retired then some (g.1, v) else none
    | none => none)

/-- The set of quarters widened by the cohorts that have not retired (R301). -/
def State.widen (s : State) (x : Nat) (m : BitVec 16) : BitVec 16 :=
  s.cohorts.foldl (fun w h => match h.2 with
    | some v =>
      let qs := v.groups.filterMap (fun g => match s.group g with
        | some k => if k.st = .retired then none else some k.q
        | none => none)
      if v.ctx = x && qs.any m.getLsbD then w ||| maskOfQ qs else w
    | none => w) m

/-- A request, or a freeze that is no request, is in progress on the context (R303). -/
def State.ctxBusy (s : State) (x : Nat) : Bool :=
  (s.ctx x).req.isSome || (List.range 16).any (fun q =>
    let p := (s.ctx x).part q
    p = .freezing || p = .saving || p = .restoring)

/-- A request ends (R303): LAST is written, and the counter gains 1. -/
def State.endRequest (s : State) (x status off : Nat) : State :=
  let c := s.ctx x
  match c.req with
  | none => s
  | some r =>
    let code := (if r.resume then 16 else 0) + r.op
    let s := s.setCtx x { c with req := none, last := BitVec.ofNat 64 (status + code * 2 ^ 8 + off * 2 ^ 16) }
    s.ctxAdd x

/-- Groups of a part stop or go on with it (17_group.md R376). One that is still forming there is loaded first. -/
def State.freezeGroups (s : State) (x q : Nat) : State :=
  (s.groupsOn x q).foldl (fun s g => if g.2.st = .forming then s else s.setGroup g.1 { g.2 with st := .frozen }) s
def State.thawGroups (s : State) (x q : Nat) : State :=
  (s.groupsOn x q).foldl (fun s g =>
    if g.2.st = .frozen then
      let loaded := g.2.members.any (fun m => (s.core m).run = .loaded)
      s.setGroup g.1 { g.2 with st := if loaded then .coResident else .running }
    else s) s

/-- A kernel's state, and its node's with it (16_kernel.md R360). -/
def State.kernelSt (s : State) (k : Nat) (st : NodeSt) : State :=
  match s.kernel k with
  | none => s
  | some v =>
    let s := s.setKernel k { v with st := st }
    match v.node with
    | none => s
    | some (g, i) => s.updCtx v.ctx (fun c =>
        { c with graphs := c.graphs.map (fun e => if e.1 = g then (e.1, e.2.map (fun (w : Graph) => { w with st := Tbl.set .recorded w.st i st })) else e) })

/-- The first bundles of a group are released: its own, or its whole cohort's, once all are co-resident on parts that run (17_group.md
R377). -/
def State.tryRelease (s : State) (gid : Nat) : State :=
  match s.group gid with
  | none => s
  | some g =>
    let gs := match g.cohort with
      | none => [gid]
      | some h => match Tbl.get none s.cohorts h with | some v => v.groups | none => [gid]
    let ready := gs.all (fun j => match s.group j with
      | some v => decide (v.st = .coResident) && decide ((s.ctx v.ctx).part v.q = .running)
      | none => false)
    if !ready then s else
    let s := gs.foldl (fun s j => match s.group j with
      | some v =>
        let s := v.members.foldl (fun s m => s.upd m (fun c => if c.run = .loaded then { c with run := .running, nextAt := s.now } else c)) s
        s.setGroup j { v with st := .running }
      | none => s) s
    match s.kernel g.k with
    | some v => if v.st = .placed then s.kernelSt g.k .running else s
    | none => s

/-- A stopped core goes on, its frozen cycles counted; the issue cycles of a halted one pass again from real cycle `now` on (R28). -/
def Core.goOn (now : Nat) (c : Core) : Core :=
  match c.run with
  | .stopped => { c.countFrozen now with run := .running, stop := .none }
  | .halted => let c := if c.stop = .none then c else c.catchUp now; { c with stop := .none, nextAt := max now c.nextAt }
  | _ => { c with stop := .none }

/-- A frozen part runs again. -/
def State.resumePart (s : State) (x q : Nat) : State :=
  let s := (s.partCores x q).foldl (fun s n => s.upd n (Core.goOn s.now)) s
  let s := (s.thawGroups x q).updCtx x (fun c =>
    { c.setPart q .running with cutHeld := c.cutHeld &&& ~~~ BitVec.ofNat 16 (2 ^ q), cutAt := Tbl.set none c.cutAt q none,
                                holdQ := c.holdQ &&& ~~~ BitVec.ofNat 16 (2 ^ q) })
  (s.groupsOn x q).foldl (fun s g => s.tryRelease g.1) s

/-! ### The save area (R306 to R309) -/

/-- Bytes a save of these quarters requires (R308). -/
def sizeRequired (m : BitVec 16) : Nat := 4096 + ((quartersIn m).foldl max 0 + 1) * quarterRecordSize

/-- What a page of the save area is to a save or restore; `held` is a block of a pending KV entry that a read waits for. -/
inductive AreaPage where
  | ok (pa : Nat)
  | migrating
  | bad
  | held
deriving DecidableEq, Repr

def State.areaPage (s : State) (x : Nat) (va : W64) : AreaPage :=
  match translate s (s.svUnit x) x va permSV with
  | .ok pa repl => if repl then .bad else .ok pa
  | .absent 2 => .migrating
  | _ => .bad

/-- The place `off` bytes into the save area of context `x`, its block's mark examined as for a requester of no group (20_generation.md
R423): a block of another's speculative entry is refused like a page without SV. -/
def State.areaAt (s : State) (x off : Nat) (write : Bool) : AreaPage :=
  let c := s.ctx x
  let va := c.savva + BitVec.ofNat 64 off
  match kvSays c none write va with
  | .perform => s.areaPage x va
  | .proxy => s.areaPage x (kvProxyAddr c va)
  | .wait => .held
  | .refuse => .bad

/-- The checks of R308 Table 6. -/
def State.areaOk (s : State) (x : Nat) (m : BitVec 16) : Bool :=
  let c := s.ctx x
  let n := c.savsz.toNat
  decide (sizeRequired m ≤ n) && inWindow c c.savva && inWindow c (c.savva + c.savsz - 1)
    && (List.range (n / 2 ^ 22)).all (fun p => match s.areaPage x (c.savva + BitVec.ofNat 64 (p * 2 ^ 22)) with | .ok _ => true | _ => false)

/-- Ranges of the area cut at multiples of `unit`: offset and length of each. -/
def cutPieces (unit : Nat) : Nat → Nat × Nat → List (Nat × Nat)
  | 0, _ => []
  | k + 1, (off, len) =>
    let n := min len (unit - off % unit)
    if len = 0 then [] else (off, n) :: cutPieces unit k (off + n, len - n)

/-- The pieces a save or restore moves: pages, and entries where the area meets the KV region. -/
def Ctx.areaUnit (c : Ctx) : Nat :=
  let base := windowBase c + c.kvpg.toNat * 2 ^ 22
  if c.kvnp = 0 ∨ c.savva.toNat + c.savsz.toNat ≤ base ∨ base + c.kvnp.toNat * 2 ^ 22 ≤ c.savva.toNat then 2 ^ 22 else 64 * 2 ^ c.elog.toNat

def State.areaPieces (s : State) (x : Nat) (rs : List (Nat × Nat)) : List (Nat × Nat) :=
  let u := (s.ctx x).areaUnit
  rs.flatMap (fun r => cutPieces u (r.2 / u + 2) r)

/-- The first piece that a save (`write`) or restore cannot use: what its place is, the bytes confirmed before it, its address. -/
def State.areaStop (s : State) (x : Nat) (write : Bool) : List (Nat × Nat) → Nat → Option (AreaPage × Nat × W64)
  | [], _ => none
  | (off, len) :: t, done =>
    match s.areaAt x off write with
    | .ok _ => s.areaStop x write t (done + len)
    | r => some (r, done, (s.ctx x).savva + BitVec.ofNat 64 off)

/-- A save or restore waits at a page that migrates; it posts a fault when it starts to wait (R309; 11_page.md R289, R290). -/
def State.areaWaits (s : State) (x : Nat) (r : Request) (va : W64) (write : Bool) : State :=
  if r.posted = some (pageOf va) then s
  else (s.postFault ⟨va, x, 2, 0x311, permSV + (if write then 2 ^ 15 else 0), 255⟩).updCtx x
    (fun c => { c with req := some { r with posted := some (pageOf va) } })

/-- The lines of [lo, hi) that hold a byte or a tag. -/
def Memory.linesIn (m : Memory) (lo hi : Nat) : List Nat :=
  let bs : List Nat := (m.cells.filter (fun c => lo ≤ c.1 && decide (c.1 < hi))).map (fun c => c.1 / 64)
  let ts : List Nat := (m.tags.filter (fun c => lo / 64 ≤ c.1 && decide (64 * c.1 < hi))).map (·.1)
  (bs ++ ts).eraseDups

/-- Write `len` bytes of an image from its offset `off` on at `pa`, untagged and in ascending order, at time `ts` (R253, R306, R309).
A line that holds nothing before and after needs no time: a read of it stands before the write as well as after it. -/
def State.writePiece (s : State) (img : Memory) (off len pa ts : Nat) : State :=
  let a := loc pa
  let m := (img.cells.filter (fun c => off ≤ c.1 && decide (c.1 < off + len))).foldl
    (fun (m : Memory) c => m.setByte (a + (c.1 - off)) c.2) (s.mem.clear a (a + len))
  let lines := (s.mem.linesIn a (a + len) ++ m.linesIn a (a + len)).eraseDups
  { s with mem := m, seals := (a / 16, (a + len - 1) / 16 + 1 - a / 16, sealOf pa) :: s.seals,
           lineTimes := lines.foldl (fun t l => Tbl.set (0, 0) t l (ts, ts)) s.lineTimes }

/-- Write the first `n` bytes of the ranges of an image. -/
def State.writeArea (s : State) (x : Nat) (img : Memory) (rs : List (Nat × Nat)) (n : Nat) : State :=
  ((s.areaPieces x rs).foldl (fun (r : State × Nat) p =>
    let k := min p.2 r.2
    if k = 0 then r else
    match r.1.areaAt x p.1 true with
    | .ok pa => (r.1.writePiece img p.1 k pa (r.1.latest + 1), r.2 - k)
    | _ => (r.1, r.2 - k)) (s, n)).1

/-- VALID is written, performed at system scope (R309). -/
def State.writeValid (s : State) (x v : Nat) : State :=
  match s.areaPage x (s.ctx x).savva with
  | .ok pa => (s.timedStore s.latest pa 4 v).putTag pa 0
  | _ => s

/-- Memory as an access to the `len` bytes at `pa`, within one page, sees it. -/
def State.openedRange (s : State) (pa len : Nat) : Memory :=
  (s.mem.linesIn (loc pa) (loc pa + len)).foldl (fun m l => (List.range 4).foldl (fun m j => s.openPiece (sealOf pa) m (4 * l + j)) m) s.mem

/-- Read ranges of the area as an image. -/
def State.readArea (s : State) (x : Nat) (rs : List (Nat × Nat)) : Memory :=
  (s.areaPieces x rs).foldl (fun (m : Memory) p =>
    match s.areaAt x p.1 false with
    | .ok pa =>
      let a := loc pa
      ((s.openedRange pa p.2).cells.filter (fun c => a ≤ c.1 && decide (c.1 < a + p.2))).foldl
        (fun (m : Memory) c => m.setByte (p.1 + (c.1 - a)) c.2) m
    | _ => m) Memory.empty

/-- A block of these ranges is poisoned in the area. -/
def State.areaPoisoned (s : State) (x : Nat) (rs : List (Nat × Nat)) : Bool :=
  (s.areaPieces x rs).any (fun p => match s.areaAt x p.1 false with
    | .ok pa => s.mem.tags.any (fun t => loc pa / 64 ≤ t.1 && decide (t.1 < (loc pa + p.2 + 63) / 64) && poisoned t.2)
    | _ => false)

/-! ### The image of parts -/

def BarSt.code : BarSt → Nat
  | .idle => 0 | .collecting => 1 | .released => 2 | .broken => 3
def BarSt.ofCode (k : Nat) : BarSt :=
  match k with
  | 0 => .idle | 1 => .collecting | 2 => .released | _ => .broken

/-- Handle of a device-barrier slot (18_barrier.md R385). -/
def State.handle (s : State) (k : Nat) : Nat := (Tbl.get .fresh s.dbar k).gen.toNat * 2 ^ 11 + k

/-- The cohort of a context whose position 0 lies on quarter q, with its number; one that has retired is none. -/
def State.cohortAt (s : State) (x q : Nat) : Option (Nat × Cohort) :=
  (s.cohorts.filterMap (fun h => h.2.map (fun v => (h.1, v)))).find? (fun v => v.2.ctx = x && (match v.2.groups with
    | g :: _ => (match s.group g with | some k => decide (k.q = q) && decide (k.st ≠ .retired) | none => false)
    | [] => false))

/-- The quarter section (R307 Tables 10 to 14), at base `b`. It holds the barriers of the part's own cores; the others of the quarter
are another part's (R305). -/
def State.sectionImage (s : State) (x q b : Nat) : List ImgField :=
  let cs := s.partCores x q
  let perCore (n : Nat) : List ImgField :=
    let c := s.core n
    let i := n % 32
    let m := c.mem
    let g := b + 64 + 16 * i
    let r := b + 32768 + 256 * i
    [(g, 2, m.gidx), (g + 2, 2, m.cidx), (g + 4, 4, m.qmask.toNat), (g + 8, 2, m.ngrp), (g + 10, 1, m.midx), (g + 11, 1, m.cpos),
     (g + 12, 1, m.gsize), (g + 13, 1, m.csize), (g + 14, 2, m.kref)]
      ++ (List.range 4).map (fun k => (b + 4096 + 4 * i + k, 1, (Tbl.get [] c.chan k).length))
      ++ (List.range 8).flatMap (fun k =>
        let v := Tbl.get .none c.bnd k
        [(r + 16 * k, 4, b2n v.v + v.slot % 2 * 2 + b2n v.stale * 4), (r + 16 * k + 4, 2, v.t), (r + 16 * k + 8, 4, v.ver.toNat)])
      ++ [(r + 128, 4, c.sv.toNat), (r + 132, 1, b2n c.mix), (r + 192, 8, c.nslot), (r + 200, 1, c.nleft), (r + 202, 2, c.spa),
          (r + 204, 2, b2n c.xearly + c.xl.toNat * 2 ^ 8)]
  let hw (h : Nat) : List ImgField :=
    let v := Tbl.get .fresh s.qbar (64 * q + h)
    let a := b + 1024 + 32 * h
    [(a, 1, v.st.code), (a + 1, 1, v.op), (a + 4, 4, v.ph.toNat), (a + 8, 4, v.exp.toNat), (a + 12, 4, v.arr.toNat),
     (a + 16, 4, v.acc.toNat), (a + 20, 4, v.res.toNat)]
  let dev : List ImgField :=
    match s.cohortAt x q with
    | none => []
    | some (_, h) => (h.slots.zip (List.range 4)).flatMap (fun k =>
        let v := (Tbl.get .fresh s.dbar k.1).bar
        let a := b + 3072 + 256 * k.2
        [(a, 1, v.st.code), (a + 1, 1, v.op), (a + 2, 2, v.exp.toNat / 2 ^ 512), (a + 4, 2, v.arr.toNat / 2 ^ 512), (a + 8, 4, v.ph.toNat),
         (a + 12, 4, v.acc.toNat), (a + 16, 4, v.res.toNat), (a + 20, 4, s.handle k.1), (a + 64, 64, v.exp.toNat % 2 ^ 512),
         (a + 128, 64, v.arr.toNat % 2 ^ 512)])
  [(b, 4, 1), (b + 4, 4, cs.foldl (fun a n => a + 2 ^ (n % 32)) 0), (b + 8, 1, q)] ++ cs.flatMap perCore
    ++ cs.flatMap (fun n => hw (2 * (n % 32)) ++ hw (2 * (n % 32) + 1)) ++ dev

/-- Ranges of a core record that a save writes. -/
def Core.ranges (c : Core) (base : Nat) : List (Nat × Nat) :=
  [(base, oAcc)] ++ ((List.range 24).filter (fun t => (c.mx.st t).tv)).map (fun t => (base + oAcc + 131072 * t, 131072))
    ++ [(base + oLog, 139392)]

def State.quarterRanges (s : State) (x q : Nat) : List (Nat × Nat) :=
  (quarterAt q, 65536) :: (s.partCores x q).flatMap (fun n => (s.core n).ranges (coreAt q (n % 32)))

def rangesLen (l : List (Nat × Nat)) : Nat := l.foldl (fun a r => a + r.2) 0

/-- Exclusive OR of the header's words. -/
def headerCheck (m : Memory) : Nat := (List.range 512).foldl (fun a k => Nat.xor a (m.read (8 * k) 8)) 0

/-- The image of a context's parts. -/
def State.image (s : State) (x : Nat) (m : BitVec 16) : Memory :=
  let c := s.ctx x
  let qs := quartersIn m
  let dev := (Config.devId s.root.boots).toNat
  let cut := qs.map (fun q => Tbl.get none c.cutAt q)
  let isCut := decide (cut ≠ []) && cut.all (·.isSome)
  let head : List ImgField :=
    [(4, 4, 1), (8, 1, x), (9, 1, b2n isCut + b2n (c.st = .faulted) * 2), (10, 2, c.own.toNat), (12, 2, m.toNat),
     (24, 8, if isCut then cut.foldl (fun a b => max a (b.getD 0)) 0 else 0), (32, 8, sizeRequired m)] ++ qs.map (fun q => (64 + 8 * q, 8, rangesLen (s.quarterRanges x q)))
  let h := putAll .empty head
  let h := (h.write 40 8 (headerCheck h)).write 0 4 0x00010001
  let rest := qs.flatMap (fun q => s.sectionImage x q (quarterAt q)
    ++ (s.partCores x q).flatMap (fun n => (((s.core n).countFrozen s.now).image dev).map (fun f => (coreAt q (n % 32) + f.1, f.2.1, f.2.2))))
  putAll h rest

def State.imageRanges (s : State) (x : Nat) (m : BitVec 16) : List (Nat × Nat) :=
  (0, 4096) :: (quartersIn m).flatMap (s.quarterRanges x)

/-! ### Putting an image back (R310) -/

/-- The header of the image in the save area is valid for these quarters. -/
def State.imageOk (s : State) (x : Nat) (m : BitVec 16) : Bool :=
  let h := s.readArea x [(0, 4096)]
  decide (h.read 0 4 = 0x00010001) && decide (h.read 40 8 = headerCheck ((h.write 0 4 0).write 40 8 0))
    && decide (h.read 10 2 = (s.ctx x).own.toNat) && decide (BitVec.ofNat 16 (h.read 12 2) &&& m = m)

/-- Ranges a restore of a quarter reads, of which a save writes as many (`Core.ranges`): an accumulator tile only where the record's WMARK
has TV = 1. -/
def readRanges (m : Memory) (q : Nat) : List (Nat × Nat) :=
  let cm := m.read (quarterAt q + 4) 4
  let core (i : Nat) : List (Nat × Nat) :=
    [(coreAt q i, oAcc)] ++ ((List.range 24).filter (fun t => (m.read (coreAt q i + oWmark + 8 * t) 8).testBit 15)).map
        (fun t => (coreAt q i + oAcc + 131072 * t, 131072))
      ++ [(coreAt q i + oLog, 139392)]
  (quarterAt q, 65536) :: ((List.range 32).filter cm.testBit).flatMap core

/-- Where a quarter's record says which of its ranges were written. -/
def guideRanges (q : Nat) : List (Nat × Nat) := (quarterAt q, 4096) :: (List.range 32).map (fun i => (coreAt q i + oWmark, 192))

/-- The model's number for kernel `kref` of an image of device `dev` that no kernel of this device stands for. -/
def foreignKernel (dev kref : Nat) : Nat := 2 ^ 32 * (dev + 1) + kref

/-- The group a restored core belongs to: the one of this device that it was saved from, or that cores of the same image have made, else a
new one of the group map, of a kernel of its own. -/
def State.groupFor (s : State) (x n dev : Nat) (kept : Option Core) (m : Member) : Nat × State :=
  let q := quarterOf n
  let ms := ((List.range 32).filter (fun i => m.qmask.getLsbD i)).map (fun i => 32 * q + i)
  let fk := foreignKernel dev m.kref
  let here (g : Nat × Option Group) : Bool := match g.2 with
    | some v => v.ctx = x && v.q = q && v.gidx = m.gidx && v.members = ms && decide (v.st = .frozen)
        && (v.k = fk || (v.k % 2 ^ 16 = m.kref && (kept.any (fun c => c.mem.grp = g.1) || (decide (v.k < 2 ^ 32) && decide (BitVec.ofNat 32 dev = Config.devId s.root.boots)))))
    | none => false
  match s.groups.find? here with
  | some g => (g.1, s)
  | none =>
    let id := s.nextGroup
    (id, { s.setGroup id ⟨fk, x, m.gidx, none, q, ms, .frozen, none⟩ with nextGroup := id + 1 })

/-- Device-barrier slots of no cohort. -/
def State.freeSlots (s : State) : List Nat := (List.range 2048).filter (fun k => (Tbl.get .fresh s.dbar k).owner.isNone)

/-- Give a slot out: its generation advances (18_barrier.md R385). -/
def State.giveSlot (s : State) (k h : Nat) (b : Barrier) : State :=
  let d := Tbl.get .fresh s.dbar k
  { s with dbar := Tbl.set .fresh s.dbar k ⟨d.gen + 1, some h, b⟩ }

/-- The cohort of a kernel by its index, unless it has retired. -/
def State.cohortOf (s : State) (x k cidx : Nat) : Option (Nat × Cohort) :=
  (s.cohorts.filterMap (fun h => h.2.map (fun v => (h.1, v)))).find? (fun v => v.2.ctx = x && v.2.k = k && v.2.cidx = cidx && !v.2.released)

/-- Every cohort holds its four slots (18_barrier.md R385). -/
def State.slotted (s : State) : Bool := s.cohorts.all (fun h => match h.2 with | some v => v.released || decide (v.slots.length = 4) | none => true)

/-- A restored group takes its place in its cohort (17_group.md R374). A cohort the machine does not hold, of an image of another device,
is made and receives slots for its device barriers (18_barrier.md R396). -/
def State.joinCohort (s : State) (x gid : Nat) (m : Member) : State :=
  if m.csize = 0 then s else
  let (id, s) := match s.cohortOf x m.kref m.cidx with
    | some (id, _) => (id, s)
    | none =>
      let id := s.nextCohort
      let slots := s.freeSlots.take 4
      let s := slots.foldl (fun (s : State) k => s.giveSlot k id .fresh) s
      (id, { s with cohorts := Tbl.set none s.cohorts id (some ⟨m.kref, x, m.cidx, [], slots, false⟩), nextCohort := id + 1 })
  match Tbl.get none s.cohorts id with
  | none => s
  | some h =>
    let pos (g : Nat) : Nat := match s.group g with | some v => (s.core (nth 0 v.members 0)).mem.cpos | none => 0
    let others := h.groups.filter (· ≠ gid)
    let gs := others.filter (fun g => pos g < m.cpos) ++ gid :: others.filter (fun g => !(pos g < m.cpos))
    let s : State := { s with cohorts := Tbl.set none s.cohorts id (some { h with groups := gs }) }
    let s := match s.group gid with | some v => s.setGroup gid { v with cohort := some id } | none => s
    (match s.group gid with | some v => v.members | none => []).foldl (fun s n =>
      s.upd n (fun c => if c.mem.grp = gid then { c with mem := { c.mem with cohort := id } } else c)) s

/-- Put the device barriers of the cohort whose position 0 lies on quarter `q` back (18_barrier.md R396). -/
def State.restoreDevBars (s : State) (m : Memory) (x q : Nat) : State :=
  let b (k : Nat) : Barrier :=
    let a := quarterAt q + 3072 + 256 * k
    { st := .ofCode (m.read a 1), op := m.read (a + 1) 1, ph := BitVec.ofNat 32 (m.read (a + 8) 4),
      exp := BitVec.ofNat 528 (m.read (a + 2) 2 * 2 ^ 512 + m.read (a + 64) 64),
      arr := BitVec.ofNat 528 (m.read (a + 4) 2 * 2 ^ 512 + m.read (a + 128) 64), acc := BitVec.ofNat 32 (m.read (a + 12) 4),
      res := BitVec.ofNat 32 (m.read (a + 16) 4), held := [], waiters := [], time := s.latest }
  match s.cohortAt x q with
  | some (_, h) => (h.slots.zip (List.range 4)).foldl (fun s k => s.setBar (.device k.1) (b k.2)) s
  | none => s

/-- Reports of entries that ended before the save stay pending (R345), in the arbiter's order. The image keeps no cause and no address:
of a core whose last save is known they are the ones it had, else each is left open, with as many reports of no entry as TRAPSTAT's PEND
counts besides (log entry 31). -/
def State.restoreReports (s : State) (n : Nat) (k : Option Core) (pend : Nat) : State :=
  match k with
  | some k => s.upd n (fun c => { c with reports := k.reports.filter (fun r => decide (128 ≤ r.entry) || (match c.entry r.entry with | some e => e.ended | none => false)) })
  | none =>
    let ended := (s.core n).ifr.filter (fun e => e.1 < 96 && e.2.ended)
    let s := ended.foldl (fun s e =>
      let (layout, s) := s.choose
      let (lost, s) := s.choose
      let (a, s) := s.draw
      s.upd n (fun c => { c with reports := c.reports ++ [⟨e.1, if lost then 0x14 else if layout then 0x0B else 0x13, a⟩] })) s
    (List.range (pend - ended.length)).foldl (fun s _ =>
      let (e, s) := s.draw
      let (a, s) := s.draw
      s.upd n (fun c => { c with reports := c.reports ++ [⟨128 + e.toNat % 128, 0x13, a⟩] })) s

/-- One core of a restored part. Its bindings stay counted where its own last save is put back, else they are bound afresh (19_weight_versions.md
R408; log entry 116). -/
def State.restoreCore (s : State) (m : Memory) (x q i : Nat) : State :=
  let n := 32 * q + i
  let base := coreAt q i
  let img : Memory := ⟨(m.cells.filter (fun c => base ≤ c.1 && decide (c.1 < base + coreRecordSize))).map (fun c => (c.1 - base, c.2)), []⟩
  let g := quarterAt q + 64 + 16 * i
  let r := quarterAt q + 32768 + 256 * i
  let mb : Member := ⟨m.read (g + 14) 2, 0, 0, m.read g 2, m.read (g + 2) 2, BitVec.ofNat 32 (m.read (g + 4) 4), m.read (g + 8) 2,
    m.read (g + 10) 1, m.read (g + 11) 1, m.read (g + 12) 1, m.read (g + 13) 1⟩
  let old := Tbl.get .idle s.kept (1024 * x + n)
  let kept := if old.gave img then some old else none
  let (gid, s) := s.groupFor x n (img.read 24 4) kept mb
  let mb := { mb with kref := match s.group gid with | some v => v.k | none => mb.kref }
  let s := if kept.isSome then s else s.leaveKept x n
  let bind (k : Nat) : Bind := let w := m.read (r + 16 * k) 4
    ⟨w.testBit 0, m.read (r + 16 * k + 4) 2, bitN w 1, BitVec.ofNat 32 (m.read (r + 16 * k + 8) 4), w.testBit 2⟩
  let c := { Core.ofImage img old s.fresh s.latest with
    ctx := x, mem := { mb with grp := gid }
    bnd := match kept with | some k => k.bnd | none => []
    sv := BitVec.ofNat 32 (m.read (r + 128) 4), mix := m.read (r + 132) 1 % 2 = 1, nslot := m.read (r + 192) 8, nleft := m.read (r + 200) 1
    spa := m.read (r + 202) 2, xearly := m.read (r + 204) 2 % 2 = 1, xl := BitVec.ofNat 8 (m.read (r + 205) 1), nextAt := s.now }
  let s := ({ s with fresh := s.fresh + 131072 }.setCore n c).restoreReports n kept (bits (img.read (oTrap + 24) 8) 55 49)
  let s := if kept.isSome then s else (List.range 8).foldl (fun (s : State) k => s.bindAfresh n x k (bind k)) s
  s.joinCohort x gid mb

/-- The barriers of a part's cores. -/
def State.restoreHwBars (s : State) (m : Memory) (q : Nat) (is : List Nat) : State :=
  (is.flatMap (fun i => [2 * i, 2 * i + 1])).foldl (fun s h =>
    let a := quarterAt q + 1024 + 32 * h
    s.setBar (.quarter (64 * q + h))
      { st := .ofCode (m.read a 1), op := m.read (a + 1) 1, ph := BitVec.ofNat 32 (m.read (a + 4) 4),
        exp := BitVec.ofNat 528 (m.read (a + 8) 4), arr := BitVec.ofNat 528 (m.read (a + 12) 4), acc := BitVec.ofNat 32 (m.read (a + 16) 4),
        res := BitVec.ofNat 32 (m.read (a + 20) 4), held := [], waiters := [], time := s.latest }) s

/-- Put a part back. -/
def State.restorePart (s : State) (m : Memory) (x q : Nat) : State :=
  let cm := m.read (quarterAt q + 4) 4
  let is := (List.range 32).filter cm.testBit
  let s := is.foldl (fun s i => s.restoreCore m x q i) (s.restoreHwBars m q is)
  (s.restoreDevBars m x q).loadCopy q x

/-! ### Requests (R303, R316) -/

/-- Status of CTXFREEZE by the order of R316; 0 accepts. `named` is the set it acts on. A part that stays frozen on a quarter out of
service may still be saved (01_device.md R22). -/
def State.freezeStatus (s : State) (x op : Nat) (named : BitVec 16) : Nat :=
  let c := s.ctx x
  let ps := (quartersIn named).map c.part
  let refuses (p : PartSt) : Bool :=
    p = .saved || (p = .running && (op = 2 || op = 4)) || (p = .frozen && op = 3)
  if named &&& s.outQ ≠ 0 ∧ op ≠ 2 then 6
  else if s.ctxBusy x then 5
  else if ps.any (fun p => p = .absent) then 2
  else if ps.any refuses || (op = 4 && named &&& c.cutHeld ≠ named) || (c.st = .faulted && op ≠ 2) then 1
  else if (op = 1 || op = 2) && !s.areaOk x named then 3
  else 0

/-- A save begins: VALID is written as 0 first (R309). -/
def State.beginSave (s : State) (x : Nat) (qs : List Nat) : State :=
  (qs.foldl (fun s q => s.updCtx x (fun c => c.setPart q .saving)) s).writeValid x 0

/-- Every part of the request stands where the request leaves it, or has ended meanwhile: the request ends, or the save begins. -/
def State.freezeProgress (s : State) (x : Nat) : State :=
  match (s.ctx x).req with
  | none => s
  | some r =>
    let qs := (quartersIn r.parts).filter (fun q => (s.ctx x).part q ≠ .absent)
    if r.resume || decide (r.op = 2) || !qs.all (fun q => (s.ctx x).part q = .frozen) then s
    else if r.op = 1 ∧ qs ≠ [] then s.beginSave x qs
    else
      let stopped := (qs.flatMap (s.partCores x)).filter (fun n => (s.core n).run ≠ .halted)
      let s := if r.op = 3 then s.updCtx x (fun c => { c with qpos := BitVec.ofNat 64 (stopped.foldl (fun m n => max m (s.core n).pos) 0) }) else s
      s.endRequest x 0 0

/-- An accepted CTXFREEZE begins. -/
def State.beginFreeze (s : State) (x op : Nat) (named asked : BitVec 16) (target : Nat) : State :=
  let c := s.ctx x
  let qs := quartersIn named
  let before : Tbl PartSt := (qs.map (fun q => (q, c.part q))).filter (fun p => p.2 ≠ .absent)
  let s := s.setCtx x { c with req := some ⟨false, op, named, asked, target, before, none⟩ }
  let freezing (s : State) (q : Nat) : State := s.updCtx x (fun c => c.setPart q .freezing)
  let s := qs.foldl (fun s q =>
    match op with
    | 0 => s.freezePart x q
    | 1 => s.freezePart x q
    | 2 => s
    | 3 => (s.partCores x q).foldl (fun s n => s.upd n (fun k => if k.run = .running ∨ k.run = .halted then { k with stop := .cutQuery } else k)) (freezing s q)
    | _ => (s.partCores x q).foldl (fun s n => s.upd n (fun k =>
        if k.run = .stopped ∧ k.pos < target then { k.countFrozen s.now with run := .running, stop := .cutStop target } else k)) (freezing s q)) s
  if op = 2 then s.beginSave x qs else s.freezeProgress x

/-- Status of CTXRESUME; a resume may cancel a cut request. -/
def State.resumeStatus (s : State) (x op : Nat) (named : BitVec 16) : Nat :=
  let c := s.ctx x
  let ps := (quartersIn named).map c.part
  let cancels := op = 0 && (match c.req with | some r => !r.resume && (r.op = 3 || r.op = 4) | none => false)
  if named &&& s.outQ ≠ 0 then 6
  else if !cancels && s.ctxBusy x then 5
  else if op = 0 && ps.any (fun p => p = .absent) then 2
  else if (if op = 0 then ps.any (fun p => p = .saved || p = .running) else ps.any (fun p => p = .frozen || p = .running))
      || c.st = .faulted then 1
  else if op ≠ 0 && !s.imageOk x named then 4
  else 0

/-- Parts go on, and with them the other frozen parts of their cohorts: a cohort's groups resume at once (17_group.md R376; log entry 96). -/
def State.resumeParts (s : State) (x : Nat) (m : BitVec 16) : State :=
  ((quartersIn (s.widen x m)).filter (fun q => (s.ctx x).part q = .frozen)).foldl (fun s q => s.resumePart x q) s

/-- An accepted CTXRESUME begins: a resume in place is performed at once. -/
def State.beginResume (s : State) (x op : Nat) (named : BitVec 16) : State :=
  let c := s.ctx x
  let s : State := match c.req with
    | some r =>
      let t := s.endRequest x 9 0
      let qs := (quartersIn r.parts).filter (fun q => (t.ctx x).part q = .freezing)
      qs.foldl (fun (s : State) q => s.resumePart x q) t
    | none => s
  let qs := quartersIn named
  let before : Tbl PartSt := (qs.map (fun q => (q, c.part q))).filter (fun p => p.2 ≠ .absent)
  let s := s.updCtx x (fun c => { c with req := some ⟨true, op, named, named, 0, before, none⟩ })
  if op = 0 then (s.resumeParts x named).endRequest x 0 0
  else qs.foldl (fun s q => s.updCtx x (fun c => c.setPart q .restoring)) s

/-! ### The instructions (R314 to R316) -/

/-- Selector of the context instructions: context and quarter mask. -/
def State.ctxSelect (s : State) (x : W64) : Option (Nat × BitVec 16) :=
  let c := bits x.toNat 5 0
  if bits x.toNat 15 6 ≠ 0 ∨ bits x.toNat 63 32 ≠ 0 ∨ (s.ctx c).st = .free ∨ (s.ctx c).st = .dead then none
  else some (c, BitVec.ofNat 16 (bits x.toNat 31 16))

/-- QM names the issuing core's own part. -/
def Issue.ownPart (i : Issue) (x : Nat) (qm : BitVec 16) : Bool := !isKiosk i.n && i.ctxNo = x && qm.getLsbD (quarterOf i.n)

/-- State code of a context (R315 Table 9). -/
def Ctx.stateCode (c : Ctx) : Nat :=
  let any (p : PartSt) : Bool := (List.range 16).any (fun q => c.part q = p)
  match c.st with
  | .free => 0 | .loading => 1 | .ready => 2 | .faulted => 9 | .dead => 10
  | .active =>
    if any .freezing then 4 else if any .saving then 6 else if any .restoring then 8 else if any .running then 3
    else if any .frozen then 5 else 7

/-- The context state word. -/
def Ctx.word (c : Ctx) : W64 :=
  let mask (f : PartSt → Bool) : Nat := (maskOfQ ((List.range 16).filter (fun q => f (c.part q)))).toNat
  BitVec.ofNat 64 (mask (fun p => p = .saved || p = .restoring) * 2 ^ 48 + mask (fun p => p = .frozen || p = .saving) * 2 ^ 32
    + mask (fun p => p = .running || p = .freezing) * 2 ^ 16 + b2n c.req.isSome * 2 ^ 11 + b2n c.svf * 2 ^ 10
    + b2n (c.cutHeld ≠ 0) * 2 ^ 9 + b2n c.priv * 2 ^ 8 + c.stateCode)

/-- CTXSTAT. -/
def Issue.ctxstat (i : Issue) (o : RR) : Except Stop Issue := do
  let (x, i) ← i.rrG1 o
  match i.s.ctxSelect x with
  | none => illegalOperand
  | some (c, _) => .ok (i.resultG o.d.toNat (i.s.ctx c).word 4)

/-- CTXFREEZE. -/
def Issue.ctxfreeze (i : Issue) (o : RR) : Except Stop Issue := do
  let (x, y, i) ← i.rrG o
  let op := bits y.toNat 2 0
  let target := bits y.toNat 63 16
  match i.s.ctxSelect x with
  | none => illegalOperand
  | some (c, qm) =>
    if qm = 0 ∨ i.ownPart c qm ∨ 5 ≤ op ∨ bits y.toNat 15 3 ≠ 0 ∨ (op ≠ 4 ∧ target ≠ 0) then illegalOperand else
    let named := i.s.widen c qm
    let st := i.s.freezeStatus c op named
    let i := i.resultG o.d.toNat (BitVec.ofNat 64 st) 1
    .ok (if st = 0 then i.after (fun s => s.beginFreeze c op named qm target) else i)

/-- CTXRESUME. -/
def Issue.ctxresume (i : Issue) (o : RR) : Except Stop Issue := do
  let (x, y, i) ← i.rrG o
  let op := y.toNat
  match i.s.ctxSelect x with
  | none => illegalOperand
  | some (c, qm) =>
    if qm = 0 ∨ i.ownPart c qm ∨ 3 ≤ op then illegalOperand else
    let st := i.s.resumeStatus c op qm
    let i := i.resultG o.d.toNat (BitVec.ofNat 64 st) 1
    .ok (if st = 0 then i.after (fun s => s.beginResume c op qm) else i)

/-- CTXSTAT (R315). -/
def opCtxstat (g : Guard) (o : RR) : Op := guarded g none (asking (fun i => i.ctxstat o))

/-- `CTXSTAT` alone in its bundle. -/
def execCtxstat (g : Guard) (o : RR) (s : State) : Result := issueSolo (.s (.ctxstat g o)) (opCtxstat g o) s

/-- CTXFREEZE (R316), operation 0; OP of the register chooses the form. -/
def opCtxfreeze (g : Guard) (o : RR) : Op := guarded g none (asking (fun i => i.ctxfreeze o))

/-- `CTXFREEZE` alone in its bundle. -/
def execCtxfreeze (g : Guard) (o : RR) (s : State) : Result := issueSolo (.s (.ctxfreeze g o)) (opCtxfreeze g o) s

/-- CTXFREEZE, operation 1: freeze, then save. -/
def opCtxfreezeSave (g : Guard) (o : RR) : Op := guarded g none (asking (fun i => i.ctxfreeze o))

/-- `CTXFREEZE_SAVE` alone in its bundle. -/
def execCtxfreezeSave (g : Guard) (o : RR) (s : State) : Result := issueSolo (.s (.ctxfreezeSave g o)) (opCtxfreezeSave g o) s

/-- CTXFREEZE, operation 2: save. -/
def opCtxsave (g : Guard) (o : RR) : Op := guarded g none (asking (fun i => i.ctxfreeze o))

/-- `CTXSAVE` alone in its bundle. -/
def execCtxsave (g : Guard) (o : RR) (s : State) : Result := issueSolo (.s (.ctxsave g o)) (opCtxsave g o) s

/-- CTXFREEZE, operation 3: cut query (R311). -/
def opCutQuery (g : Guard) (o : RR) : Op := guarded g none (asking (fun i => i.ctxfreeze o))

/-- `CUT_QUERY` alone in its bundle. -/
def execCutQuery (g : Guard) (o : RR) (s : State) : Result := issueSolo (.s (.cutQuery g o)) (opCutQuery g o) s

/-- CTXFREEZE, operation 4: cut stop (R312). -/
def opCutStop (g : Guard) (o : RR) : Op := guarded g none (asking (fun i => i.ctxfreeze o))

/-- `CUT_STOP` alone in its bundle. -/
def execCutStop (g : Guard) (o : RR) (s : State) : Result := issueSolo (.s (.cutStop g o)) (opCutStop g o) s

/-- CTXRESUME (R316), operation 0. -/
def opCtxresume (g : Guard) (o : RR) : Op := guarded g none (asking (fun i => i.ctxresume o))

/-- `CTXRESUME` alone in its bundle. -/
def execCtxresume (g : Guard) (o : RR) (s : State) : Result := issueSolo (.s (.ctxresume g o)) (opCtxresume g o) s

/-- CTXRESUME, operation 1: restore, then resume. -/
def opCtxrestoreResume (g : Guard) (o : RR) : Op := guarded g none (asking (fun i => i.ctxresume o))

/-- `CTXRESTORE_RESUME` alone in its bundle. -/
def execCtxrestoreResume (g : Guard) (o : RR) (s : State) : Result := issueSolo (.s (.ctxrestoreResume g o)) (opCtxrestoreResume g o) s

/-- CTXRESUME, operation 2: restore and stay frozen. -/
def opCtxrestore (g : Guard) (o : RR) : Op := guarded g none (asking (fun i => i.ctxresume o))

/-- `CTXRESTORE` alone in its bundle. -/
def execCtxrestore (g : Guard) (o : RR) (s : State) : Result := issueSolo (.s (.ctxrestore g o)) (opCtxrestore g o) s


/-! ### Events -/

/-- Every core of a freezing part has stopped (R301); for a cut stop its commands have completed (R312). -/
def State.partFrozen (s : State) (x q : Nat) : Result :=
  let c := s.ctx x
  let cs := s.partCores x q
  let cut : Bool := match c.req with | some r => decide (c.st ≠ .faulted) && !r.resume && (r.op = 3 || r.op = 4) | none => false
  let stop : Option Nat := match c.req with | some r => if c.st ≠ .faulted && !r.resume && r.op = 4 then some r.target else none | none => none
  if c.part q ≠ .freezing ∨ (s.groupsOn x q).any (fun g => g.2.st = .forming) ∨ cs.any (fun n => (s.core n).run = .running)
      ∨ (stop.isSome ∧ cs.any (fun n => (s.core n).commands ≠ [])) then
    .fault (.eventCannotArise "PART_FROZEN")
  else
    let s := s.updCtx x (fun c => { c.setPart q .frozen with cutHeld := if cut then c.cutHeld ||| BitVec.ofNat 16 (2 ^ q) else c.cutHeld,
                                                             cutAt := Tbl.set none c.cutAt q stop })
    let s := cs.foldl (fun (s : State) n => s.upd n (Core.stopAgain s.now)) s
    .next ((s.freezeGroups x q).freezeProgress x)

/-- Nothing keeps the save from being made (R329): no drain runs, no send flies. -/
def State.saveReady (s : State) (x : Nat) (m : BitVec 16) : Bool :=
  let cs := (quartersIn m).flatMap (s.partCores x)
  cs.all (fun n => (s.core n).commands.all (fun e => e.2.kind ≠ 6 || e.2.ended) && !s.sends.any (fun k => k.src = n || k.dst = n))

/-- A part leaves its quarter. -/
def State.releasePart (s : State) (x q : Nat) (p : PartSt) : State :=
  let cs := s.partCores x q
  let hbs := cs.flatMap (fun n => [64 * q + 2 * (n % 32), 64 * q + 2 * (n % 32) + 1])
  let s := cs.foldl (fun s n => s.setCore n { Core.idle with nextAt := (s.core n).nextAt }) s
  let s := hbs.foldl (fun s h => s.setBar (.quarter h) .fresh) s
  s.updCtx x (fun c => c.setPart q p)

/-- What the image of a part has no place for is kept (log entry 11). -/
def State.keepCores (s : State) (x q : Nat) : State :=
  { s with kept := (s.partCores x q).foldl (fun t n => Tbl.set .idle t (1024 * x + n) (s.core n).settled) s.kept }

/-- The save of a request ends (R309). -/
def State.saveDone (s : State) (x : Nat) : Result :=
  let no : Result := .fault (.eventCannotArise "SAVE_DONE")
  match (s.ctx x).req with
  | none => no
  | some r =>
    let m := r.parts
    if r.resume ∨ !(quartersIn m).all (fun q => (s.ctx x).part q = .saving) ∨ !s.saveReady x m then no
    else
      match s.areaStop x true (s.areaPieces x (s.imageRanges x m)) 0 with
      | some (.migrating, _, va) => .next (s.areaWaits x r va true)
      | some _ => no
      | none =>
        let rs := s.imageRanges x m
        let s := (s.writeArea x ((s.image x m).write 0 4 0) rs (rangesLen rs)).writeValid x 0x00010001
        let s := (quartersIn m).foldl (fun s q => (s.keepCores x q).releasePart x q .saved) s
        .next ((s.updCtx x (fun c => { c with svf := false, cutHeld := c.cutHeld &&& ~~~ m,
                                              cutAt := c.cutAt.filter (fun e => !m.getLsbD e.1) })).endRequest x 0 0)

/-- A free number of bytes below `n`: where an uncorrectable error is met (log entry 97). -/
def State.drawBelow (s : State) (n : Nat) : Nat × State := let (u, s) := s.draw; (u.toNat % max 1 n, s)

/-- A save meets a fault (R309): a page of the area that it cannot use, else an uncorrectable error of a write before the mark it stands
at. VALID stays 0, the parts stay frozen; the commands the save has stopped are sent again at the resume (13_inflight_record.md R330). -/
def State.saveFault (s : State) (x : Nat) : Result :=
  let no : Result := .fault (.eventCannotArise "SAVE_FAULT")
  match (s.ctx x).req with
  | none => no
  | some r =>
    let m := r.parts
    if r.resume ∨ !(quartersIn m).all (fun q => (s.ctx x).part q = .saving) then no else
    let rs := s.imageRanges x m
    let fail (s : State) (done : Nat) : Result :=
      let s := s.writeArea x ((s.image x m).write 0 4 0) rs done
      let s := (quartersIn m).foldl (fun s q => s.updCtx x (fun c => c.setPart q .frozen)) s
      let s := ((quartersIn m).flatMap (s.partCores x)).foldl (fun (s : State) n =>
        s.upd n (fun c => { c with replay := c.replay || c.ifr.any (fun e => !e.2.ended) })) s
      .next ((s.updCtx x (fun c => { c with svf := true })).endRequest x 7 (done - 4))
    match s.areaStop x true (s.areaPieces x rs) 0 with
    | some (.bad, done, _) => fail s done
    | some (_, done, _) => let (n, s) := s.drawBelow done; fail s n
    | none => let (n, s) := s.drawBelow (rangesLen rs); fail s n

/-- The ranges a restore of these quarters reads. -/
def State.restoreRanges (s : State) (x : Nat) (m : BitVec 16) : List (Nat × Nat) :=
  (0, 4096) :: (quartersIn m).flatMap (fun q => readRanges (s.readArea x (guideRanges q)) q)

/-- A group that is forming has reserved core `n` (17_group.md R376, R378). -/
def State.reserved (s : State) (n : Nat) : Bool :=
  s.groups.any (fun g => match g.2 with | some v => v.st = .forming && v.members.contains n | none => false)

/-- The cores an image needs are free. -/
def State.roomFor (s : State) (img : Memory) (m : BitVec 16) : Bool :=
  (quartersIn m).all (fun q => (List.range 32).all (fun i =>
    !(img.read (quarterAt q + 4) 4).testBit i || (decide ((s.core (32 * q + i)).run = .idle) && !s.reserved (32 * q + i))))

/-- A restore ends (R310): once the cores that the image needs are free, and slots for the device barriers of a cohort that is new. The parts
of a context that has become faulted meanwhile stay frozen (R300, 17_group.md R381). -/
def State.restoreDone (s : State) (x : Nat) : Result :=
  let no : Result := .fault (.eventCannotArise "RESTORE_DONE")
  match (s.ctx x).req with
  | none => no
  | some r =>
    let m := r.parts
    let rs := s.restoreRanges x m
    if !r.resume ∨ r.op = 0 then no else
    match s.areaStop x false (s.areaPieces x rs) 0 with
    | some (.migrating, _, va) => .next (s.areaWaits x r va false)
    | some _ => no
    | none =>
    if s.areaPoisoned x rs then no else
    let img := s.readArea x rs
    if !s.roomFor img m then no else
    let s := (quartersIn m).foldl (fun s q => (s.restorePart img x q).updCtx x (fun c => c.setPart q .frozen)) s
    if !s.slotted then no else
    let s := (quartersIn m).foldl (fun s q => s.freezeGroups x q) s
    let s := if r.op = 1 ∧ (s.ctx x).st ≠ .faulted then s.resumeParts x m else s
    let s := s.updCtx x (fun c => { c with svf := false, st := if c.st = .ready then .active else c.st })
    .next (s.endRequest x 0 0)

/-- A restore meets a fault: a page it cannot use, a poisoned block, or an uncorrectable error of a read. The parts return to their
earlier states. -/
def State.restoreFault (s : State) (x : Nat) : Result :=
  let no : Result := .fault (.eventCannotArise "RESTORE_FAULT")
  match (s.ctx x).req with
  | none => no
  | some r =>
    let rs := s.restoreRanges x r.parts
    if !r.resume ∨ r.op = 0 then no else
    let back (s : State) (done : Nat) : Result :=
      let s := (quartersIn r.parts).foldl (fun s q => s.updCtx x (fun c => c.setPart q (Tbl.get .absent r.before q))) s
      .next ((s.updCtx x (fun c => { c with svf := true })).endRequest x 8 done)
    let off (n : Nat) : Nat := n - 4
    let ps := s.areaPieces x rs
    match s.areaStop x false ps 0 with
    | some (.bad, done, _) => back s (off done)
    | some (_, done, _) => let (n, s) := s.drawBelow done; back s (off n)
    | none =>
      match firstIdx (fun p => s.areaPoisoned x [p]) ps 0 with
      | some (k, _) => back s (off (rangesLen (ps.take k)))
      | none => let (n, s) := s.drawBelow (rangesLen rs); back s (off n)

/-- At resume the core sends its record again (R330): every valid entry with RPL, before the first bundle, in the order of their SEQ: what
must come first is performed first (`Core.replayBars`, `Core.replayFirst`). -/
def State.resumeReplay (s : State) (n : Nat) : Result :=
  let c := s.core n
  if !c.replay ∨ !(c.run = .running || c.run = .halted || c.run = .aborted) ∨ (s.ctx c.ctx).part (quarterOf n) ≠ .running then .fault (.eventCannotArise "RESUME_REPLAY") else
  .next (s.upd n (fun c => { c with replay := false, ifr := c.ifr.map (fun e => if e.2.ended then e else (e.1, { e.2 with rpl := true, sent := !(e.2.waitX || e.2.waitN) })) }))

/-- Every core of a freezing part has stopped (R301). -/
def execPartFrozen (ctx : Nat) (q : Nat) (s : State) : Result := s.partFrozen ctx q

/-- A save ends (R309). -/
def execSaveDone (ctx : Nat) (s : State) : Result := s.saveDone ctx

/-- A save meets a fault (R309). -/
def execSaveFault (ctx : Nat) (s : State) : Result := s.saveFault ctx

/-- A restore ends (R310). -/
def execRestoreDone (ctx : Nat) (s : State) : Result := s.restoreDone ctx

/-- A restore meets a fault (R310). -/
def execRestoreFault (ctx : Nat) (s : State) : Result := s.restoreFault ctx

/-- A resumed core replays its record (13_inflight_record.md R330). -/
def execResumeReplay (core : Nat) (s : State) : Result := s.resumeReplay core


end Sys2Proof.Machine
end

