-- ==== Sys2Proof/Machine/Versions.lean ====
section
/-! DEFINITION. The weight version table and the partition (19_weight_versions.md R397 to R415). -/

namespace Sys2Proof.Machine

/-! ### Slots (R397, R398) -/

def SlotSt.code : SlotSt → Nat
  | .free => 0 | .writing => 1 | .published => 2 | .retiring => 3

/-- Bits [47:22] of a slot's base. -/
def WvSlot.baseField (w : WvSlot) : Nat := bits w.base.toNat 47 22 * 2 ^ 22

/-! ### Leaves (R406) -/

/-- Core `n` of context `x`: as it stands, or as the save of its part left it. -/
def State.coreOf (s : State) (x n : Nat) : Core :=
  let c := s.core n
  if c.run ≠ .idle ∧ c.ctx = x then c
  else match (s.ctx x).part (quarterOf n) with
    | .saved | .restoring => Tbl.get .idle s.kept (1024 * x + n)
    | _ => Core.idle

/-- Every read of core `n` issued before `seq` has been performed; those of a saved core are when they have been sent again. -/
def State.readsDone (s : State) (x n seq : Nat) : Bool :=
  (s.coreOf x n).commands.all (fun e => e.2.performed || !seqBefore e.2.seq seq)

/-- The binding of a core that is released ends: its reader leaves at once, or once its earlier reads have been performed. -/
def State.leave (s : State) (n : Nat) (b : Bind) : State :=
  let x := (s.core n).ctx
  let q := (s.core n).nextSeq
  if !b.v || b.stale then s
  else if s.readsDone x n q then s.slotLeft (s.core n).clk x b.t b.slot
  else { s with leaves := s.leaves ++ [⟨n, x, b.t, b.slot, q, none, false⟩] }

/-- Binding register `k` of a core holds nothing. -/
def State.unbind (s : State) (n k : Nat) : State := s.upd n (fun c => { c with bnd := Tbl.set Bind.none c.bnd k Bind.none })

/-- A leave asked for by the held bundle of core `n` for register `k`. -/
def State.leaveAsked (s : State) (n k : Nat) : Option Leave := s.leaves.find? (fun l => l.core = n && l.reg = some k)

/-- The reader that register `k` binds leaves, and the register is empty; until its earlier reads have been performed the bundle is held
(R406, R414). -/
def Issue.leaving (i : Issue) (k : Nat) : Except Stop Issue :=
  let b := Tbl.get Bind.none i.core.bnd k
  if b.stale then .ok { i with s := i.s.unbind i.n k } else
  match i.s.leaveAsked i.n k with
  | some l => if l.done then .ok { i with s := { i.s with leaves := i.s.leaves.erase l }.unbind i.n k } else .error .wait
  | none =>
    if i.s.readsDone i.ctxNo i.n i.core.nextSeq then .ok { i with s := (i.s.slotLeft i.core.clk i.ctxNo b.t b.slot).unbind i.n k }
    else .error (.freeze (fun s => { s with leaves := s.leaves ++ [⟨i.n, i.ctxNo, b.t, b.slot, i.core.nextSeq, some k, false⟩] }))

/-- Every binding of a core is released (R408). -/
def State.releaseBinds (s : State) (n : Nat) : State :=
  ((s.core n).bnd.foldl (fun s b => s.leave n b.2) s).upd n (fun c => { c with bnd := [] })

/-- READER_LEAVE: the earlier reads of a reader have been performed, and it leaves. -/
def State.readerLeaves (s : State) (idx : Nat) : Result :=
  match s.leaves[idx]? with
  | none => .fault (.eventCannotArise "READER_LEAVE")
  | some l =>
    if l.done || !s.readsDone l.ctx l.core l.seq then .fault (.eventCannotArise "READER_LEAVE") else
    let s' := s.slotLeft (s.coreOf l.ctx l.core).clk l.ctx l.t l.slot
    match l.reg with
    | none => .next { s' with leaves := s'.leaves.erase l }
    | some k => .next ({ s' with leaves := s'.leaves.map (fun m => if m = l then { l with done := true } else m) }.unbind l.core k)

/-! ### Selectors (R413) -/

/-- The selector with the bits an instruction uses; none where another bit is set or s2 is not 0. -/
def wvSelector (x : W64) (mask : Nat) (s2ok : Bool) : Bool := s2ok && Nat.land x.toNat mask = x.toNat

/-! ### Binds (R405, R414) -/

/-- The binding word. -/
def bindWord (e : WvEntry) (k : Nat) (mix chg : Bool) : W64 :=
  BitVec.ofNat 64 ((e.slot k).baseField + b2n mix * 4 + b2n chg * 2 + k)

/-- A bind answers with what register `k` holds: by the policy, or since nothing has changed. -/
def State.bindKept (s : State) (n k t : Nat) (token : Bool) : Bool :=
  let c := s.core n
  let e := (s.ctx c.ctx).tensor t
  let b := Tbl.get Bind.none c.bnd k
  b.v && b.t = t && !b.stale && ((token && !(s.ctx c.ctx).pol) || (b.slot = e.act && b.ver = e.ver))

/-- A bind of core `n` at the WVT, once the reader that the register held before has left: the word and the state. -/
def State.bind (s : State) (n k t : Nat) (token : Bool) : W64 × State :=
  let c := s.core n
  let x := c.ctx
  let e := (s.ctx x).tensor t
  if e.ver = 0 then (8, s)
  else if s.bindKept n k t token then (bindWord e (Tbl.get Bind.none c.bnd k).slot c.mix false, s)
  else
    let mix := c.mix || (token && decide (k = 0) && decide (e.ver ≠ c.sv))
    let w := e.slot e.act
    let s := s.setTensor x t (e.setSlot e.act { w with rc := w.rc + 1 })
    let (sv, mix) := if !token && decide (k = 0) then (e.ver, false) else (c.sv, mix)
    let s := s.upd n (fun c => { c with bnd := Tbl.set Bind.none c.bnd k ⟨true, t, e.act, e.ver, false⟩, sv := sv, mix := mix })
    (bindWord e e.act mix true, s.acquire n e.time)

/-- WVBIND. -/
def Issue.wvbind (i : Issue) (o : RR) : Except Stop Issue := do
  let (x, i) ← i.rrG1 o
  if !wvSelector x 0x17FFF (o.s2 = 0) then illegalOperand else
  let (k, t, token) := (bits x.toNat 14 12, bits x.toNat 11 0, x.getLsbD 16)
  let leaves := (Tbl.get Bind.none i.core.bnd k).v || (i.s.leaveAsked i.n k).isSome
  let i ← if (i.ctx.tensor t).ver ≠ 0 && leaves && !i.s.bindKept i.n k t token then i.leaving k else .ok i
  let (w, s) := i.s.bind i.n k t token
  .ok ({ i with s := s }.resultG o.d.toNat w 4)

/-- WVUNBIND. -/
def Issue.wvunbind (i : Issue) (o : RR) : Except Stop Issue := do
  let (x, i) ← i.rrG1 o
  if !wvSelector x 0x7000 (o.s2 = 0) then illegalOperand else
  let k := bits x.toNat 14 12
  if !(Tbl.get Bind.none i.core.bnd k).v && (i.s.leaveAsked i.n k).isNone then .ok (i.resultG o.d.toNat 1 4)
  else do
    let i ← i.leaving k
    .ok (i.resultG o.d.toNat 0 4)

/-! ### Claims (R398 Table 1) -/

/-- WVSLOT: a retiring slot is waited for, unless NB. A reader's leave that its earlier reads still delay keeps the count. A claim
synchronises with the readers that have left (R406). -/
def Issue.wvslot (i : Issue) (o : RR) : Except Stop Issue := do
  let (x, i) ← i.rrG1 o
  if !wvSelector x 0x10FFF (o.s2 = 0) then illegalOperand else
  let t := bits x.toNat 11 0
  let e := i.ctx.tensor t
  if e.ver = 0 then .ok (i.resultG o.d.toNat 8 4) else
  let k := e.other
  let w := e.slot k
  let word (st : Nat) (base : Nat) : W64 := BitVec.ofNat 64 (base + st * 2 + k)
  match w.st with
  | .writing => .ok (i.resultG o.d.toNat (word 1 w.baseField) 4)
  | .retiring => if x.getLsbD 16 then .ok (i.resultG o.d.toNat (word 3 0) 4) else .error .wait
  | _ =>
    let s := (i.s.setTensor i.ctxNo t (e.setSlot k { w with st := .writing })).acquire i.n e.left
    .ok ({ i with s := s }.resultG o.d.toNat (word 0 w.baseField) 4)

/-! ### Publishes (R400, R401) -/

/-- Status of step 1; none accepts. -/
def WvEntry.publishStatus (e : WvEntry) (v : BitVec 32) : Option Nat :=
  if e.ver = 0 then some 4
  else if e.ver = v ∧ e.pub then some 1
  else if v ≠ e.ver + 1 then some 2
  else if (e.slot e.other).st ≠ .writing then some 3
  else Option.none

/-- WVPUBLISH: an accepted publish is the WVT's; the bundle is held until it has been performed. Whoever asks again after a freeze is
answered by step 1. -/
def Issue.wvpublish (i : Issue) (o : RR) : Except Stop Issue := do
  let (x, y, i) ← i.rrG o
  if !wvSelector x 0xFFF true ∨ y.toNat / 2 ^ 32 ≠ 0 then illegalOperand else
  let t := bits x.toNat 11 0
  let v : BitVec 32 := y.setWidth 32
  let done (i : Issue) (st : Nat) : Except Stop Issue := .ok (i.resultG o.d.toNat (BitVec.ofNat 64 st) 4)
  match i.s.pubs.find? (fun p => p.ctx = i.ctxNo && p.t = t && p.core = i.n && p.v = v && p.attended) with
  | some p => if p.done then done { i with s := { i.s with pubs := i.s.pubs.erase p } } 0 else .error .wait
  | none =>
    if i.s.pubs.any (fun p => p.ctx = i.ctxNo && p.t = t && !p.done) then .error .wait else
    match (i.ctx.tensor t).publishStatus v with
    | some st => done i st
    | none =>
      let nm := if i.pre.fenceN then some i.pre.fseqN else none
      .error (.freeze (fun s => { s with pubs := s.pubs ++ [⟨i.ctxNo, t, v, i.n, false, true, i.pre.nextSeq, nm, s.relTime i.n⟩] }))

/-- Frames of a slot's pages: the primary's, and those of the other replicas. -/
def State.slotFrames (s : State) (x : Nat) (w : WvSlot) : List (Nat × List Nat) :=
  (List.range w.npg).map (fun j => let e := s.master x (pageOf w.base + j); (pePfn e, s.replicaFrames x e))

/-- The earlier asynchronous writes of the core have been performed, and the near-memory commands before its XNMFENCE, if it issued one
(R400 step 2). -/
def Publish.released (p : Publish) (c : Core) : Bool :=
  c.allWritten p.seq && (match p.nm with | some q => c.allNmDone q | none => true)

/-- PUBLISH_COMMIT: first the commit locks the slot's lines; then it copies them from the primary to every other replica and the entry flips
at its time (09_memory_model.md R257). -/
def State.publishStep (s : State) (x t : Nat) : Result :=
  let no : Result := .fault (.eventCannotArise "PUBLISH_COMMIT")
  match s.pubs.find? (fun p => p.ctx = x && p.t = t && !p.done) with
  | none => no
  | some p =>
    let e := (s.ctx x).tensor t
    let c := s.coreOf p.ctx p.core
    if e.ver = 0 then .next { s with pubs := s.pubs.erase p }
    else if !e.cmt then
      if !p.released c then no else .next (s.setTensor x t { e with cmt := true })
    else
      let old := e.slot e.act
      let new := e.slot e.other
      let e' := (e.setSlot e.act { old with st := if old.rc = 0 then .free else .retiring }).setSlot e.other { new with st := .published }
      let (s, ts) := s.commitPages (max p.time (max c.clk c.wts)) (s.slotFrames x new)
      let s := s.setTensor x t { e' with act := e.other, ver := p.v, pub := true, cmt := false, time := ts }
      .next { s with pubs := if p.attended then s.pubs.map (fun q => if q = p then { q with done := true } else q) else s.pubs.erase p }

/-! ### WVREAD (R414 Table 6) -/

def wvWord (e : WvEntry) (form : Nat) : W64 :=
  if e.ver = 0 then 0
  else if form = 0 then
    BitVec.ofNat 64 (e.ver.toNat * 2 ^ 32 + b2n e.cmt * 2 ^ 31 + e.act % 2 * 2 ^ 30 + e.s1.st.code * 2 ^ 28 + e.s0.st.code * 2 ^ 26
      + e.s1.rc * 2 ^ 13 + e.s0.rc)
  else let w := e.slot (form - 2); BitVec.ofNat 64 (w.npg % 2 ^ 16 * 2 ^ 48 + w.baseField)

def bindRegWord (b : Bind) (mix : Bool) : W64 :=
  BitVec.ofNat 64 (b.ver.toNat * 2 ^ 32 + b2n b.v * 2 ^ 31 + b2n mix * 2 ^ 30 + b.slot % 2 * 2 ^ 29 + b2n b.stale * 2 ^ 28 + b.t)

/-- WVREAD; k belongs to FORM 1 only. -/
def Issue.wvread (i : Issue) (o : RR) : Except Stop Issue := do
  let (x, i) ← i.rrG1 o
  let form := bits x.toNat 18 17
  if !wvSelector x (if form = 1 then 0x67FFF else 0x60FFF) (o.s2 = 0) then illegalOperand else
  let w := if form = 1 then bindRegWord (Tbl.get Bind.none i.core.bnd (bits x.toNat 14 12)) i.core.mix
    else wvWord (i.ctx.tensor (bits x.toNat 11 0)) form
  .ok (i.resultG o.d.toNat w 4)

/-- WVBIND (R405, R414). -/
def opWvbind (g : Guard) (o : RR) : Op := guarded g none (asking (fun i => i.wvbind o))

/-- `WVBIND` alone in its bundle. -/
def execWvbind (g : Guard) (o : RR) (s : State) : Result := issueSolo (.s (.wvbind g o)) (opWvbind g o) s

/-- WVUNBIND (R406, R414). -/
def opWvunbind (g : Guard) (o : RR) : Op := guarded g none (asking (fun i => i.wvunbind o))

/-- `WVUNBIND` alone in its bundle. -/
def execWvunbind (g : Guard) (o : RR) (s : State) : Result := issueSolo (.s (.wvunbind g o)) (opWvunbind g o) s

/-- WVSLOT (R398, R414). -/
def opWvslot (g : Guard) (o : RR) : Op := guarded g none (asking (fun i => i.wvslot o))

/-- `WVSLOT` alone in its bundle. -/
def execWvslot (g : Guard) (o : RR) (s : State) : Result := issueSolo (.s (.wvslot g o)) (opWvslot g o) s

/-- WVPUBLISH (R400, R414). -/
def opWvpublish (g : Guard) (o : RR) : Op := guarded g none (asking (fun i => i.wvpublish o))

/-- `WVPUBLISH` alone in its bundle. -/
def execWvpublish (g : Guard) (o : RR) (s : State) : Result := issueSolo (.s (.wvpublish g o)) (opWvpublish g o) s

/-- WVREAD (R414). -/
def opWvread (g : Guard) (o : RR) : Op := guarded g none (asking (fun i => i.wvread o))

/-- `WVREAD` alone in its bundle. -/
def execWvread (g : Guard) (o : RR) (s : State) : Result := issueSolo (.s (.wvread g o)) (opWvread g o) s

/-- A publish commits and flips its entry (R400). -/
def execPublishCommit (ctx : Nat) (t : Nat) (s : State) : Result := s.publishStep ctx t

/-- A reader leaves a slot (R406). -/
def execReaderLeave (idx : Nat) (s : State) : Result := s.readerLeaves idx


/-! ### Partitions (R409, R410) -/

/-- PART (Table 3). -/
def PartReg.word (p : PartReg) : W64 :=
  BitVec.ofNat 64 (p.chg.toNat * 2 ^ 32 + b2n p.busy * 2 ^ 31 + b2n p.hold * 2 ^ 30 + p.lrn.toNat)

/-- Contexts with an entry in the table. -/
def State.ctxList (s : State) : List Nat := s.ctxs.map (·.1)

/-- The parts a repartition freezes of context `x`: those on quarters of CHG, widened. -/
def State.repartParts (s : State) (x : Nat) : List Nat :=
  let on := (quartersIn s.part.chg).filter (fun q => let p := (s.ctx x).part q; p ≠ .absent && p ≠ .saved)
  if on = [] then [] else (quartersIn (s.widen x (maskOfQ on))).filter (fun q => let p := (s.ctx x).part q; p ≠ .absent && p ≠ .saved)

/-- Freeze the parts of every context whose request, if it had one, has ended (step 3). -/
def State.repartFreeze (s : State) : State :=
  s.ctxList.foldl (fun s x =>
    if (s.ctx x).req.isSome then s else
    (s.repartParts x).foldl (fun s q =>
      if (s.ctx x).part q = .running then
        (s.freezePart x q).updCtx x (fun c => { c with holdQ := c.holdQ ||| BitVec.ofNat 16 (2 ^ q) })
      else s) s) s

/-- A write of PART (R410). -/
def State.writePart (s : State) (x : W64) : State :=
  let lrn : BitVec 16 := x.setWidth 16
  let hold := x.getLsbD 30
  if s.part.busy then s
  else if lrn = s.part.lrn then { s with part := { s.part with hold := hold, chg := 0 } }
  else State.repartFreeze { s with part := { s.part with busy := true, hold := hold, chg := s.part.lrn ^^^ lrn, lrnNew := lrn } }

/-- REPARTITION_COMPLETE: every part concerned is frozen; the new roles hold, and parts resume (steps 4 to 6). A context whose
request has ended since is frozen first. -/
def State.repartEnd (s : State) : Result :=
  let no : Result := .fault (.eventCannotArise "REPARTITION_COMPLETE")
  if !s.part.busy then no else
  let s' := s.repartFreeze
  if s' ≠ s then .next s'
  else if s.ctxList.any (fun x => (s.ctx x).req.isSome && decide (s.repartParts x ≠ [])) then no
  else if !s.ctxList.all (fun x => (s.repartParts x).all (fun q => (s.ctx x).part q = .frozen)) then no
  else
    let p := s.part
    let s := s.ctxList.foldl (fun s x =>
      (s.repartParts x).foldl (fun s q =>
        let onChg := p.chg.getLsbD q
        let by' := (s.ctx x).holdQ.getLsbD q
        if (onChg && !p.hold || !onChg && by') && (s.ctx x).st ≠ .faulted then s.resumePart x q else s) s) s
    let s := s.ctxList.foldl (fun s x => s.updCtx x (fun c => { c with holdQ := 0 })) s
    .next { s with part := { p with busy := false, lrn := p.lrnNew } }

/-- Every part concerned is frozen, and the repartition ends (R410). -/
def execRepartitionComplete (s : State) : Result := s.repartEnd


end Sys2Proof.Machine
end

