-- ==== Sys2Proof/Machine/Kernels.lean ====
section
/-! DEFINITION. Kernels, groups and command graphs (16_kernel.md R358 to R373; 17_group.md R374 to R383): the launch record, node
states, placement, launch, retirement, completion, chunk operations, and the instructions GPSET, GPGET, GLAUNCH, KDONE, GRPID and
GRPSIZE. -/

namespace Sys2Proof.Machine

/-! ### The command processor's accesses -/

/-- The kiosk core that reads launch records: the lowest one of the service (R16; log entry 34). -/
def State.cp (s : State) : Nat := 512 + ((List.range 16).find? (fun k => nth 9 s.kiosk k = 0)).getD 0

/-- The command processor at `va` of context `x`. -/
def State.cpAt (s : State) (x : Nat) (va : W64) (need : Nat) (write : Bool) : EngAt := s.placeAt x (tuOf s.cp) none va need write

/-- One page fault for a wait of the command processor. -/
def State.cpFault (s : State) (x : Nat) (va : W64) (kind need : Nat) (write : Bool) : State :=
  s.postFault ⟨va, x, kind, s.cp, need + (if write then 2 ^ 15 else 0), 255⟩

/-- Where an access of the command processor stops. -/
structure CpStop where
  va : W64
  place : EngAt
  need : Nat
  write : Bool
deriving DecidableEq, Repr

/-- Store 64-bit words at device scope; `clk` is the clock of their time. -/
def State.cpStores (s : State) (x clk : Nat) : List (W64 × W64) → State ⊕ CpStop
  | [] => .inl s
  | (va, v) :: t =>
    match s.cpAt x va permXW true with
    | .go pa => State.cpStores (s.timedStore clk pa 8 v.toNat) x clk t
    | e => .inr ⟨va, e, permXW, true⟩

/-- Add to an n64 counter at system scope; 0 names none. A counter that cannot be reached for want of permission takes none (log
entry 30). -/
def State.cpAdd (s : State) (x clk : Nat) (va : W64) (v : Nat) : State ⊕ CpStop :=
  if va = 0 then .inl s else
  match s.cpAt x va permXW true with
  | .go pa => .inl (s.timedStore clk pa 8 (s.rd pa 8 + v))
  | .absent k => .inr ⟨va, .absent k, permXW, true⟩
  | .hold => .inr ⟨va, .hold, permXW, true⟩
  | _ => .inl s

/-- A block that the command processor reads; a poisoned one cannot be read (R358). -/
def State.cpBlock (s : State) (x : Nat) (va : W64) : Nat ⊕ CpStop :=
  match s.cpAt x va permXR false with
  | .go pa => if poisoned (s.tagOf pa) then .inr ⟨va, .poison, permXR, false⟩ else .inl (s.rdBlock pa).toNat
  | e => .inr ⟨va, e, permXR, false⟩

/-- Two blocks one after the other, as one number. -/
def State.cpBlocks2 (s : State) (x : Nat) (va : W64) : Nat ⊕ CpStop :=
  match s.cpBlock x va, s.cpBlock x (va + 64) with
  | .inl lo, .inl hi => .inl (lo + 2 ^ 512 * hi)
  | .inr e, _ => .inr e
  | _, .inr e => .inr e

/-- `n` words from `va`, a multiple of 8. -/
def State.cpWords (s : State) (x : Nat) : Nat → W64 → List W64 ⊕ CpStop
  | 0, _ => .inl []
  | n + 1, va =>
    match s.cpBlock x (va &&& ~~~ 63#64) with
    | .inl b =>
      match State.cpWords s x n (va + 8) with
      | .inl l => .inl (BitVec.ofNat 64 (b / 2 ^ (8 * (va.toNat % 64))) :: l)
      | r => r
    | .inr e => .inr e

/-! ### Nodes (R360) -/

def Ctx.graph (c : Ctx) (g : Nat) : Option Graph := Tbl.get Option.none c.graphs g
def State.setGraph (s : State) (x g : Nat) (v : Graph) : State := s.updCtx x (fun c => { c with graphs := Tbl.set Option.none c.graphs g (some v) })

def Node.none : Node := ⟨0, 0, 0, 0, [], []⟩
def Graph.node (g : Graph) (i : Nat) : Node := nth Node.none g.nodes i
def Graph.nodeSt (g : Graph) (i : Nat) : NodeSt := Tbl.get .recorded g.st i
def Graph.setSt (g : Graph) (i : Nat) (st : NodeSt) : Graph := { g with st := Tbl.set .recorded g.st i st }

/-- A node becomes aborted, and every pending successor with it (R362); `n` bounds the depth. -/
def Graph.abort : Nat → Graph → Nat → Graph
  | 0, g, i => g.setSt i .aborted
  | n + 1, g, i =>
    (g.node i).succ.foldl (fun g j => if g.nodeSt j = .pending then Graph.abort n g j else g) (g.setSt i .aborted)

/-- A node completes: its successors' counters fall. -/
def Graph.complete (g : Graph) (i : Nat) : Graph :=
  (g.node i).succ.foldl (fun g j => { g with cnt := Tbl.set 0 g.cnt j (Tbl.get 0 g.cnt j - 1) }) (g.setSt i .completed)

/-- Pending nodes whose predecessors have all completed. -/
def Graph.due (g : Graph) : List Nat := (List.range g.nodes.length).filter (fun j => g.nodeSt j = .pending && Tbl.get 0 g.cnt j = 0)

/-- A new kernel of the command processor. -/
def Kernel.new (x kind : Nat) (node : Option (Nat × Nat)) (recva : W64) (order : Nat) (counter : W64) : Kernel :=
  { ctx := x, kind := kind, node := node, recva := recva, hasRec := false, lrec := .none, st := .queued, err := 0, waited := 0, order := order,
    counter := counter, placed := 0, retired := 0, kdone := [], completed := false, job := none, posted := none, chunks := [],
    exec := none, time := 0, owed := 0, outside := none, copied := 0, moves := [] }

def State.addKernel (s : State) (v : Kernel) : State := { s.setKernel s.nextKernel v with nextKernel := s.nextKernel + 1 }

/-- Nodes become queued, the lower index first. -/
def State.queueDue (s : State) (x g : Nat) : State :=
  match (s.ctx x).graph g with
  | none => s
  | some v =>
    v.due.foldl (fun s i =>
      let s := match (s.ctx x).graph g with | some v => s.setGraph x g (v.setSt i .queued) | none => s
      s.addKernel (.new x (v.node i).kind (some (g, i)) (v.node i).recva s.now 0)) s

/-- What the end of kernel `k` does to its node and the node's successors; a launch by itself adds to its counter (R360, R362,
R368). -/
def State.endNode (s : State) (k : Nat) (ok : Bool) (err : Nat) : State :=
  match s.kernel k with
  | none => s
  | some v =>
    let s := s.setKernel k { v with st := if ok then .completed else .aborted, err := err, completed := true }
    match v.node with
    | none =>
      let add := if ok then 1 else 1 + 2 ^ 32
      match s.cpAdd v.ctx v.time v.counter add with
      | .inl s => s
      | .inr _ => s.setKernel k { v with st := if ok then .completed else .aborted, err := err, completed := true, owed := add, posted := none }
    | some (g, i) =>
      match (s.ctx v.ctx).graph g with
      | none => s
      | some w =>
        let w := { w with err := Tbl.set 0 w.err i err }
        if ok then (s.setGraph v.ctx g (w.complete i)).queueDue v.ctx g
        else s.setGraph v.ctx g (w.abort w.nodes.length i)

/-- A kernel ends without completing; the collective it executes ends with it. -/
def State.abortNode (s : State) (k err : Nat) : State :=
  let s' := s.endNode k false err
  match (s.kernel k).bind (fun v => v.exec) with
  | some p => match s.kernel p with
    | some w => if w.kind = 3 ∧ w.st = .running then s'.endNode p false err else s'
    | none => s'
  | none => s'

/-- A stop of the command processor that works for kernel `k`: a page fault once, a wait, or an aborted node with code 1. -/
def State.kernelStop (s : State) (k : Nat) (row : String) (e : CpStop) : Result :=
  match s.kernel k with
  | none => .fault (.eventCannotArise row)
  | some v =>
    match e.place with
    | .absent kd =>
      if v.posted = some (pageOf e.va) then .fault (.eventCannotArise row)
      else .next ((s.cpFault v.ctx e.va kd e.need e.write).setKernel k { v with posted := some (pageOf e.va) })
    | .hold => .fault (.eventCannotArise row)
    | .bad pa => .fault (.noFrame pa)
    | .outside => .next ((s.hears e.va s.cp).abortNode k 1)
    | _ => .next (s.abortNode k 1)

/-! ### The launch record (R358) -/

/-- The fields of a record of 128 bytes. -/
def LaunchRec.ofBits (b : Nat) : LaunchRec :=
  let f (off n : Nat) : Nat := b / 2 ^ (8 * off) % 2 ^ (8 * n)
  let w (off : Nat) : W64 := BitVec.ofNat 64 (f off 8)
  { entry := w 0, handler := w 8, param := w 16, done := w 24, gsize := f 32 1, csize := f 33 1,
    ngrp := f 34 2, prio := f 36 1, role := f 37 1, kdcnt := f 38 2,
    rkey := BitVec.ofNat 128 (f 40 16), rctr := BitVec.ofNat 128 (f 56 16) }

/-- Quarters of a role. -/
def PartReg.roleMask (p : PartReg) (role : Nat) : BitVec 16 := match role with | 0 => BitVec.allOnes 16 | 1 => ~~~ p.lrn | _ => p.lrn

/-- The first check of Table 1 that a record fails; `rest` says that its reserved bytes are zero. -/
def LaunchRec.error (r : LaunchRec) (c : Ctx) (p : PartReg) (rest : Bool) : Option Nat :=
  if r.entry.toNat % 16 ≠ 0 ∨ !inWindow c r.entry then some 1
  else if r.handler.toNat % 16 ≠ 0 then some 1
  else if r.param.toNat % 64 ≠ 0 then some 1
  else if r.done.toNat % 8 ≠ 0 then some 1
  else if r.gsize = 0 ∨ 32 < r.gsize then some 2
  else if 16 < r.csize then some 2
  else if r.ngrp = 0 ∨ (r.csize ≠ 0 ∧ r.ngrp % r.csize ≠ 0) then some 2
  else if 4 ≤ r.prio then some 1
  else if 2 < r.role then some 2
  else if r.ngrp * r.gsize < r.kdcnt then some 2
  else if !rest then some 1
  else if popcN 16 (p.roleMask r.role).toNat < r.csize then some 3
  else Option.none

/-- The node entry of a kernel. -/
def State.nodeOf (s : State) (v : Kernel) : Option (Graph × Node) :=
  v.node.bind (fun n => ((s.ctx v.ctx).graph n.1).map (fun g => (g, g.node n.2)))

/-- The patches of a node as stores into the block at `base` (R367). -/
def State.patches (s : State) (v : Kernel) (base : W64) : List (W64 × W64) :=
  match s.nodeOf v with
  | none => []
  | some (g, n) => (n.patch.filter (fun p => p.getLsbD 6)).map (fun p =>
      (base + BitVec.ofNat 64 (8 * (p.toNat / 2 ^ 16)), Tbl.get 0 g.snap (bits p.toNat 5 0)))

/-- PRIO of the node entry in place of the record's. -/
def State.prioOf (s : State) (v : Kernel) (r : LaunchRec) : Nat :=
  match s.nodeOf v with
  | some (_, n) => if 128 ≤ n.prio then n.prio % 4 else r.prio
  | none => r.prio

/-- A chunk operation of 32 bytes (R369; layout of log entry 35): OP n8 at 0, base selectors at 1 ([3:0] source, [7:4] destination),
dependency count n8 at 2, successors n8 at 3, peer n16 at 4, byte offsets n32 at 8 and 12, length n32 at 16, successor indices
4 × n16 at 24; an OP of 0 ends the table. -/
def chunkOf (base : Nat → W64) (b : Nat) : Option ChunkOp :=
  let f (off n : Nat) : Nat := b / 2 ^ (8 * off) % 2 ^ (8 * n)
  let sel := f 1 1
  if f 0 1 = 0 then none else
  some { op := f 0 1, src := base (sel % 16) + BitVec.ofNat 64 (f 8 4), dst := base (sel / 16) + BitVec.ofNat 64 (f 12 4),
         len := f 16 4, peer := f 4 2, dep := f 2 1, succ := (List.range (min 4 (f 3 1))).map (fun j => f (24 + 2 * j) 2),
         done := false, failed := false }

/-- The chunk operations of the table at `va`, a multiple of 32; a table runs on across pages. -/
def State.chunkTable (s : State) (x : Nat) (base : Nat → W64) : Nat → W64 → List ChunkOp ⊕ CpStop
  | 0, _ => .inl []
  | n + 1, va =>
    match s.cpBlock x (va &&& ~~~ 63#64) with
    | .inr e => .inr e
    | .inl b =>
      match chunkOf base (b / 2 ^ (8 * (va.toNat % 64)) % 2 ^ 256) with
      | none => .inl []
      | some o => match State.chunkTable s x base n (va + 32) with | .inl l => .inl (o :: l) | r => r

/-- The command processor reads a kernel's record, checks it and applies the patches. -/
def State.readRecord (s : State) (k : Nat) (v : Kernel) : Result :=
  let stop := s.kernelStop k "LAUNCH_RECORD_READ"
  if v.recva.toNat % 64 ≠ 0 ∨ !inWindow (s.ctx v.ctx) v.recva ∨ !inWindow (s.ctx v.ctx) (v.recva + 127) then .next (s.abortNode k 1) else
  match s.cpBlocks2 v.ctx v.recva with
  | .inl b =>
    let r := LaunchRec.ofBits b
    let r := match v.job with | some a => { r with param := BitVec.ofNat 64 a } | none => r
    match r.error (s.ctx v.ctx) s.part (b / 2 ^ 576 = 0) with
    | some e => .next (s.abortNode k e)
    | none =>
      match s.cpStores v.ctx 0 (s.patches v r.param) with
      | .inl s' => .next (s'.setKernel k { v with hasRec := true, posted := none, lrec := { r with prio := s.prioOf v r } })
      | .inr e => stop e
  | .inr e => stop e

/-- A copy or collective node starts: its descriptor takes the patches and is read (R366, R369). A collective's executor kernel is
queued; one without operations has completed. A descriptor or table that is not aligned fails as a record does (log entry 73). -/
def State.startNode (s : State) (k : Nat) (v : Kernel) : Result :=
  let stop := s.kernelStop k "LAUNCH_RECORD_READ"
  if v.recva.toNat % 8 ≠ 0 then .next (s.abortNode k 1) else
  match s.cpStores v.ctx 0 (s.patches v v.recva) with
  | .inr e => stop e
  | .inl s' =>
    let started (ops : List ChunkOp) : State :=
      (s'.setKernel k { v with hasRec := true, posted := none, chunks := ops }).kernelSt k .running
    if v.kind = 2 then .next (started []) else
    match s'.cpWords v.ctx 6 v.recva with
    | .inr e => stop e
    | .inl w =>
      if (nth 0 w 0).toNat % 32 ≠ 0 then .next (s.abortNode k 1) else
      match s'.chunkTable v.ctx (fun b => nth 0 w (1 + b % 4)) (2 ^ 33) (nth 0 w 0) with
      | .inr e => stop e
      | .inl [] => .next ((started []).endNode k true 0)
      | .inl ops => .next ((started ops).addKernel { Kernel.new v.ctx 4 none (nth 0 w 5) s.now 0 with exec := some k })

/-- LAUNCH_RECORD_READ. -/
def State.recordRead (s : State) (k : Nat) : Result :=
  match s.kernel k with
  | none => .fault (.eventCannotArise "LAUNCH_RECORD_READ")
  | some v =>
    if v.st ≠ .queued ∨ v.hasRec then .fault (.eventCannotArise "LAUNCH_RECORD_READ")
    else if v.kind = 2 ∨ v.kind = 3 then s.startNode k v
    else s.readRecord k v

/-! ### Priorities (R364) -/

/-- Cycles spent queued by real cycle `now`. -/
def Kernel.cycles (now : Nat) (v : Kernel) : Nat := if v.st = .queued then now - v.order else v.waited

/-- Effective priority. -/
def Kernel.ep (now : Nat) (v : Kernel) : Nat := min 3 (v.lrec.prio + v.cycles now / 2 ^ 20)

/-- Node index; a one-node graph has node 0. -/
def Kernel.index (v : Kernel) : Nat := match v.node with | some (_, i) => i | none => 0

/-- The kernel waits for cores. -/
def Kernel.wants (v : Kernel) : Bool :=
  v.hasRec && (v.kind = 1 || v.kind = 4) && (v.st = .queued || v.st = .placed || v.st = .running) && decide (v.placed < v.lrec.ngrp)

/-- The kernel bars others of its context. -/
def Kernel.blocks (now : Nat) (v : Kernel) : Bool := v.wants && v.st = .queued && v.ep now = 3 && decide (2 ^ 22 ≤ v.cycles now)

/-- `a` is tried before `b`: by effective priority, the cycle in which it became queued, the node index. -/
def triedBefore (now : Nat) (a b : Nat × Kernel) : Bool :=
  decide (b.2.ep now < a.2.ep now) || (a.2.ep now = b.2.ep now && (decide (a.2.order < b.2.order) || (a.2.order = b.2.order
    && (decide (a.2.index < b.2.index) || (a.2.index = b.2.index && decide (a.1 < b.1))))))

/-- PRIORITY_AGING: the cycles that a kernel has spent queued, which its priority follows of itself, are counted; no more than have
passed. -/
def State.age (s : State) (k cycles : Nat) : Result :=
  match s.kernel k with
  | none => .fault (.eventCannotArise "PRIORITY_AGING")
  | some v =>
    if v.st ≠ .queued then .fault (.eventCannotArise "PRIORITY_AGING")
    else .next (s.setKernel k { v with waited := min (s.now - v.order) (v.waited + cycles) })

/-! ### Placement (R365, R374) -/

/-- Kernels on their way. -/
def State.kernelList (s : State) : List (Nat × Kernel) := s.kernels.filterMap (fun e => e.2.map (fun v => (e.1, v)))

/-- Contexts with a part on a quarter: one that holds on-chip state there, or is coming back. -/
def State.othersOn (s : State) (x q : Nat) : Bool :=
  s.ctxs.any (fun c => c.1 ≠ x && (match c.2.part q with | .absent => false | .saved => false | _ => true))

/-- A quarter is eligible for kernel `k` (R365, R410, R364). -/
def State.eligible (s : State) (k : Nat) (v : Kernel) (q : Nat) : Bool :=
  !s.outQ.getLsbD q && (s.part.roleMask v.lrec.role).getLsbD q && !(s.part.busy && s.part.chg.getLsbD q) && !s.othersOn v.ctx q
    && !s.kernelList.any (fun w => w.2.ctx = v.ctx && w.2.blocks s.now && decide (w.1 ≠ k) && (s.part.roleMask w.2.lrec.role).getLsbD q)

/-- Free cores of a quarter, in rising order. -/
def State.freeCores (s : State) (q : Nat) : List Nat :=
  ((List.range 32).map (· + 32 * q)).filter (fun n => (s.core n).run = .idle
    && !s.groups.any (fun g => match g.2 with | some v => v.st ≠ .retired && v.members.contains n | none => false))

/-- The cores the next groups of kernel `k` take; none when they do not fit, or where a cohort finds no four slots for its device barriers
(18_barrier.md R385). -/
def State.fits (s : State) (k : Nat) (v : Kernel) : Option (List (Nat × List Nat)) :=
  let qs := (List.range 16).filter (fun q => s.eligible k v q && decide (v.lrec.gsize ≤ (s.freeCores q).length))
  let want := max 1 v.lrec.csize
  if want ≤ qs.length ∧ (v.lrec.csize = 0 ∨ 4 ≤ s.freeSlots.length) then some ((qs.take want).map (fun q => (q, (s.freeCores q).take v.lrec.gsize))) else none

/-- An earlier instance of the same node has not retired (R361). -/
def State.earlierLives (s : State) (k : Nat) (v : Kernel) : Bool :=
  v.node.isSome && s.kernelList.any (fun w => decide (w.1 < k) && w.2.ctx = v.ctx && w.2.node = v.node && decide (w.2.retired < w.2.placed))

/-- The kernel can be placed now. -/
def State.placeable (s : State) (k : Nat) (v : Kernel) : Bool :=
  v.wants && ((s.ctx v.ctx).st = .ready || (s.ctx v.ctx).st = .active) && !s.earlierLives k v && (s.fits k v).isSome

/-- A part of the context appears on a quarter (12_context.md R300; 11_page.md R282). -/
def State.openPart (s : State) (x q : Nat) : State :=
  if (s.ctx x).part q = .absent then
    (s.updCtx x (fun c => { c.setPart q .running with st := if c.st = .ready then .active else c.st })).loadCopy q x
  else s

/-- Reserve a group; its quarter barriers take their placement defaults (18_barrier.md R386). -/
def State.reserve (s : State) (k : Nat) (v : Kernel) (gidx : Nat) (cohort : Option Nat) (q : Nat) (ms : List Nat) : State :=
  let s := s.openPart v.ctx q
  let exp := BitVec.ofNat 528 (ms.foldl (fun a m => a + 2 ^ (m % 32)) 0)
  let s := ms.foldl (fun s m => [0, 1].foldl (fun s j => s.setBar (.quarter (64 * q + 2 * (m % 32) + j)) { Barrier.fresh with exp := exp }) s) s
  { s.setGroup s.nextGroup ⟨k, v.ctx, gidx, cohort, q, ms, .forming, none⟩ with nextGroup := s.nextGroup + 1 }

/-- Reserve the groups of one placement. -/
def State.placeKernel (s : State) (k : Nat) (v : Kernel) (l : List (Nat × List Nat)) : State :=
  let first := s.nextGroup
  let h := if v.lrec.csize = 0 then none else some s.nextCohort
  let s := (l.zip (List.range l.length)).foldl (fun s e => s.reserve k v (v.placed + e.2) h e.1.1 e.1.2) s
  let s := match h with
    | none => s
    | some h =>
      let exp := (List.range v.lrec.csize).foldl (fun a j => a + (2 ^ v.lrec.gsize - 1) * 2 ^ (32 * j)) 0
      let slots := s.freeSlots.take 4
      let s := slots.foldl (fun (s : State) k => s.giveSlot k h { Barrier.fresh with exp := BitVec.ofNat 528 exp }) s
      { s with cohorts := Tbl.set none s.cohorts h (some ⟨k, v.ctx, v.placed / v.lrec.csize, (List.range l.length).map (· + first), slots, false⟩),
               nextCohort := h + 1 }
  let s := s.setKernel k { v with placed := v.placed + l.length, waited := v.cycles s.now }
  if v.st = .queued then s.kernelSt k .placed else s

/-- GROUP_PLACE: the kernel is the first, in the order of R364, that can be placed. -/
def State.groupPlace (s : State) (k : Nat) : Result :=
  let no : Result := .fault (.eventCannotArise "GROUP_PLACE")
  match s.kernel k with
  | none => no
  | some v =>
    if !s.placeable k v ∨ s.kernelList.any (fun w => triedBefore s.now w (k, v) && s.placeable w.1 w.2) then no else
    match s.fits k v with
    | none => no
    | some l => .next (s.placeKernel k v l)

/-! ### Launch (R54, R188, R359, R376) -/

/-- A member's place. -/
def Group.memberOf (gid : Nat) (g : Group) (v : Kernel) (midx : Nat) : Member :=
  let csize := v.lrec.csize
  let (cidx, cpos) := if csize = 0 then (0, 0) else (g.gidx / csize, g.gidx % csize)
  { kref := g.k, grp := gid, cohort := g.cohort.getD 0, gidx := g.gidx, cidx := cidx,
    qmask := BitVec.ofNat 32 (g.members.foldl (fun a m => a + 2 ^ (m % 32)) 0), ngrp := v.lrec.ngrp, midx := midx, cpos := cpos,
    gsize := v.lrec.gsize, csize := csize }

/-- The launch state of a core (R54, R188, R336, R359). -/
def Core.launch (c : Core) (x : Nat) (r : LaunchRec) (m : Member) (now : Nat) : Core :=
  { Core.setG Core.idle 1 r.param with
    run := .loaded, ctx := x, pc := r.entry, hbase := BitVec.ofNat 44 (r.handler.toNat / 16), rngK := r.rkey,
    rngC := r.rctr + BitVec.ofNat 128 ((32 * m.gidx + m.midx) * 2 ^ 64), mem := m, nextAt := max now c.nextAt }

/-- Blocks put one after the other from block `k`. -/
def Memory.putBlocks (m : Memory) : Nat → List (BitVec 512 × BitVec 16) → Memory
  | _, [] => m
  | k, b :: l => (m.setBlock k b.1 b.2).putBlocks (k + 1) l

/-- A tile or a region of the weight buffer that the launch fills: a tile with data is ready, one without is empty under its declared
layout word (R54; 10_tile.md R270). -/
def Core.preload (c : Core) (p : Preload) : Core :=
  match p.tile with
  | some t =>
    let tile : Tile := ⟨if p.blocks = [] then .empty else .ready, p.layout, 0, false, false⟩
    { c.setTile t tile with spad := c.spad.putBlocks (512 * t + p.first) p.blocks }
  | none => { c with wbuf := c.wbuf.putBlocks p.first p.blocks }

/-- The core as a launch leaves it. -/
def State.launched (s : State) (n : Nat) (g : Group) (v : Kernel) (m : Member) : Core :=
  (s.preloads.filter (fun p => p.ctx = g.ctx && p.entry = v.lrec.entry)).foldl Core.preload ((s.core n).launch g.ctx v.lrec m s.now)

/-- GROUP_LOADED. -/
def State.groupLoaded (s : State) (gid : Nat) : Result :=
  let no : Result := .fault (.eventCannotArise "GROUP_LOADED")
  match s.group gid with
  | none => no
  | some g =>
    match s.kernel g.k with
    | none => no
    | some v =>
      if g.st ≠ .forming ∨ v.st = .aborted then no else
      let s := (g.members.zip (List.range g.members.length)).foldl (fun s e =>
        s.setCore e.1 (s.launched e.1 g v (Group.memberOf gid g v e.2))) s
      .next ((s.setGroup gid { g with st := .coResident }).tryRelease gid)

/-! ### Retirement (R376, R380, R385) -/

/-- The device barriers of a cohort that retires are released (18_barrier.md R385). -/
def State.releaseSlots (s : State) (h : Nat) : State :=
  match Tbl.get none s.cohorts h with
  | none => s
  | some v =>
    let s := v.slots.foldl (fun s k =>
      let d := Tbl.get DevSlot.fresh s.dbar k
      let s := s.barDo (.device k) (d.bar.reset 0 0)
      { s with dbar := Tbl.set .fresh s.dbar k ⟨d.gen + 1, none, .fresh⟩ }) s
    { s with cohorts := Tbl.set none s.cohorts h (some { v with slots := [], released := true }) }

/-- A part of which no group is left ends; a context without parts is ready again. -/
def State.closePart (s : State) (x q : Nat) : State :=
  if s.groupsOn x q ≠ [] then s else
  s.updCtx x (fun c =>
    let c := { c.setPart q .absent with cutHeld := c.cutHeld &&& ~~~ BitVec.ofNat 16 (2 ^ q), cutAt := Tbl.set none c.cutAt q none,
                                        holdQ := c.holdQ &&& ~~~ BitVec.ofNat 16 (2 ^ q) }
    { c with st := if c.st = .active ∧ (List.range 16).all (fun q => c.part q = .absent) then .ready else c.st })

/-- Free the cores of a group; the bindings of its members that are saved are given up too (19_weight_versions.md R408). -/
def State.freeMembers (s : State) (gid : Nat) (g : Group) : State :=
  let saved (m : Nat) : Bool := !s.holds gid g m && decide ((Tbl.get .idle s.kept (1024 * g.ctx + m)).mem.grp = gid) && decide ((s.ctx g.ctx).part g.q = .saved)
  let s := (g.members.filter saved).foldl (fun (s : State) m => s.leaveKept g.ctx m) s
  (g.members.filter (s.holds gid g)).foldl (fun s m =>
    let s := s.releaseBinds m
    s.setCore m { Core.idle with nextAt := (s.core m).nextAt }) s

/-- The group leaves its kernel, its cohort and its part. -/
def State.retireGroup (s : State) (gid : Nat) (g : Group) : State :=
  let t := (g.members.filter (s.holds gid g)).foldl (fun t m => max t (s.relTime m)) 0
  let s := (s.freeMembers gid g).setGroup gid { g with st := .retired }
  let s := match s.kernel g.k with | some v => s.setKernel g.k { v with retired := v.retired + 1, time := max v.time t } | none => s
  let s := match g.cohort with
    | none => s
    | some h => match Tbl.get none s.cohorts h with
      | some v => if v.groups.all (fun j => match s.group j with | some w => decide (w.st = GroupSt.retired) | none => true) then s.releaseSlots h else s
      | none => s
  s.closePart g.ctx g.q

/-- The group ends without its members' halts: its kernel has been aborted, or has met an address outside the window, or its context
is dead (R362). -/
def State.groupAborted (s : State) (g : Group) : Bool :=
  (match s.kernel g.k with | some v => decide (v.st = .aborted) || v.outside.isSome | none => false) || decide ((s.ctx g.ctx).st = .dead)

/-- A group retires while its part runs, or is on its way to a freeze; one that is aborted also on a frozen or saved part, and on a dead
context's. -/
def State.mayRetire (s : State) (g : Group) (aborted : Bool) : Bool :=
  let p := (s.ctx g.ctx).part g.q
  let on : Bool := p = .running || p = .freezing
  if aborted then on || p = .frozen || p = .saved || decide ((s.ctx g.ctx).st = .dead) else g.st = .running && on

/-- Every member has stopped for good and its asynchronous work is over. -/
def State.groupOver (s : State) (gid : Nat) (g : Group) (aborted : Bool) : Bool :=
  g.members.all (fun m => (aborted && !s.holds gid g m) ||
    let c := s.core m
    (c.run = .halted || (aborted && (c.run = .aborted || c.run = .dead))) && c.commands.all (fun e => e.2.ended) && !c.replay)

/-- Entries a group still owns (20_generation.md R424). -/
def State.ownedBy (s : State) (x gid : Nat) : List Nat :=
  (s.ctx x).marks.filterMap (fun m => if m.2 = .spec gid then some m.1 else none)

/-- The Sweeper zeroes the blocks of entries from `va` of context `x`, tagged (0x00, 0). -/
def State.zeroBlocks (s : State) (x : Nat) (va : W64) : Nat → State ⊕ CpStop
  | 0 => .inl s
  | n + 1 =>
    match translate s (s.svUnit x) x va 0 with
    | .ok pa _ => State.zeroBlocks (s.engineBlock pa 0 0) x (va + 64) n
    | .absent k => .inr ⟨va, .absent k, 0, true⟩
    | _ => State.zeroBlocks s x (va + 64) n

/-- Every entry the group still owns is zeroed and becomes plain. -/
def State.dropOwned (s : State) (x : Nat) : List Nat → State ⊕ CpStop
  | [] => .inl s
  | e :: t =>
    match s.zeroBlocks x (BitVec.ofNat 64 (kvAddr (s.ctx x) e)) (2 ^ (s.ctx x).elog.toNat) with
    | .inl s =>
      let s := s.updCtx x (fun c => { c with marks := Tbl.set .plain c.marks e .plain })
      State.dropOwned (s.markStore x (pageOf (BitVec.ofNat 64 (kvAddr (s.ctx x) e))) s.latest).1 x t
    | r => r

/-- The members of a group that ends by their halts have left the barriers they had still to leave (18_barrier.md R390). -/
def State.membersLeave (s : State) (g : Group) (aborted : Bool) : State :=
  if aborted then s else g.members.foldl (fun s m => s.leaveBarriers m) s

/-- GROUP_RETIRE. A freeze that waited for the group's part goes on. -/
def State.groupRetire (s : State) (gid : Nat) : Result :=
  let no : Result := .fault (.eventCannotArise "GROUP_RETIRE")
  match s.group gid with
  | none => no
  | some g =>
    let aborted := s.groupAborted g
    if g.st = .retired ∨ !s.mayRetire g aborted ∨ !s.groupOver gid g aborted
        ∨ s.kvcommits.any (fun c => c.ctx = g.ctx && c.grp = gid) then no
    else
      match s.dropOwned g.ctx (s.ownedBy g.ctx gid) with
      | .inl s => .next (((s.membersLeave g aborted).retireGroup gid g).freezeProgress g.ctx)
      | .inr e =>
        match e.place with
        | .absent k =>
          if g.posted = some (pageOf e.va) then no
          else .next ((s.postFault ⟨e.va, g.ctx, k, 0x301, 2 ^ 15, 255⟩).setGroup gid { g with posted := some (pageOf e.va) })
        | _ => no

/-! ### Completion and abort (R361, R362) -/

/-- The completion condition. -/
def Kernel.complete (v : Kernel) : Bool :=
  (v.kind = 1 || v.kind = 4) && v.hasRec && (v.st = .running || v.st = .placed) && !v.completed
    && (if v.lrec.kdcnt = 0 then decide (v.retired = v.lrec.ngrp) else decide (v.lrec.kdcnt ≤ v.kdone.length))

/-- The add that a one-node launch owes its counter. -/
def State.payOwed (s : State) (k : Nat) (v : Kernel) (row : String) : Result :=
  match s.cpAdd v.ctx v.time v.counter v.owed with
  | .inl s => .next (s.setKernel k { v with owed := 0 })
  | .inr e => s.kernelStop k row e

/-- KERNEL_COMPLETE. -/
def State.kernelComplete (s : State) (k : Nat) : Result :=
  let no : Result := .fault (.eventCannotArise "KERNEL_COMPLETE")
  match s.kernel k with
  | none => no
  | some v =>
    if v.owed ≠ 0 ∧ v.st = .completed then s.payOwed k v "KERNEL_COMPLETE" else
    if !v.complete then no else
    match s.cpAdd v.ctx v.time v.lrec.done 1 with
    | .inl s => .next (s.endNode k true 0)
    | .inr e => s.kernelStop k "KERNEL_COMPLETE" e

/-- KERNEL_ABORT: the cores of the kernel have been told to stop (R281); its node and the successors become aborted. -/
def State.kernelAbort (s : State) (k : Nat) : Result :=
  match s.kernel k with
  | none => .fault (.eventCannotArise "KERNEL_ABORT")
  | some v =>
    if v.owed ≠ 0 ∧ v.st = .aborted then s.payOwed k v "KERNEL_ABORT" else
    if v.st ≠ .aborted ∨ v.completed then .fault (.eventCannotArise "KERNEL_ABORT") else .next (s.abortNode k 0)

/-! ### Copy nodes and chunk operations (R366, R369) -/

/-- One block of a copy node (08_transfer.md R224), written no earlier than `clk`: its time. -/
def State.copyBlock (s : State) (x clk : Nat) (src dst : W64) : State × Nat ⊕ CpStop :=
  let put (s : State) (d : BitVec 512) (t : BitVec 16) : State × Nat ⊕ CpStop :=
    match s.cpAt x dst permXW true with
    | .go pa => .inl (s.blockWrite clk pa d t)
    | e => .inr ⟨dst, e, permXW, true⟩
  match s.cpAt x src permXR false with
  | .go pa => put s (s.rdBlock pa) (s.tagOf pa)
  | .poison => put s 0 poisonTag
  | e => .inr ⟨src, e, permXR, false⟩

/-- COPY_NODE_COMPLETE: the next block is written, in ascending order, or all have been and the node completes. What is written stays. -/
def State.copyNode (s : State) (k : Nat) : Result :=
  let no : Result := .fault (.eventCannotArise "COPY_NODE_COMPLETE")
  match s.kernel k with
  | none => no
  | some v =>
    if v.kind ≠ 2 ∨ v.st ≠ .running then no else
    let stop := s.kernelStop k "COPY_NODE_COMPLETE"
    match s.cpWords v.ctx 3 v.recva with
    | .inl l =>
      let w (j : Nat) : W64 := nth 0 l j
      if (w 2).toNat % 64 ≠ 0 ∨ (w 0).toNat % 64 ≠ 0 ∨ (w 1).toNat % 64 ≠ 0 then .next (s.abortNode k 1)
      else if (w 2).toNat / 64 ≤ v.copied then .next (s.endNode k true 0)
      else
        let off := BitVec.ofNat 64 (64 * v.copied)
        match s.copyBlock v.ctx v.time (w 0 + off) (w 1 + off) with
        | .inl (s, ts) => .next (s.setKernel k { v with copied := v.copied + 1, time := max v.time ts, posted := none })
        | .inr e => stop e
    | .inr e => stop e

/-- Add of R443 on one element. -/
def treeAdd (fmt a b : Nat) : Nat :=
  match fmt with
  | 0x01 => addF32 a b
  | 0x02 => roundSum .bf16 .rne 0 (addVal .rne (Fmt.bf16.val a) (Fmt.bf16.val b))
  | _ => (a + b) % 2 ^ 32

/-- Bits of an element of a tree's format. -/
def treeWidth (fmt : Nat) : Nat := if fmt = 0x02 then 16 else 32

/-- Contributions of the entries of a tree to one element (R443): this device's own, and what the other devices send, which nothing
here fixes (log entry 36). -/
def State.contributions (s : State) (w own : Nat) : List TreeEntry → List Nat × State
  | [] => ([], s)
  | e :: t =>
    if e.dev = s.fabric then let (l, s) := State.contributions s w own t; (own :: l, s)
    else
      let (x, s) := s.draw
      let (l, s) := State.contributions s w own t
      (x.toNat % 2 ^ w :: l, s)

/-- Node values of the entries from index `i` on, the last first formed: a parent stands before its children (R442, R443). -/
def nodeValues (fmt : Nat) : Nat → List (TreeEntry × Nat) → List (Nat × Nat × Nat)
  | _, [] => []
  | i, (e, c) :: t =>
    let l := nodeValues fmt (i + 1) t
    (i, e.parent, (l.filter (fun n => n.2.1 = i)).foldl (fun a n => treeAdd fmt a n.2.2) c) :: l

/-- The result of one element at this device: the broadcast of entry 0 in mode 2, its node value in mode 1, the device's own node
value in mode 0. -/
def State.treeElem (s : State) (t : Tree) (own : Nat) : Nat × State :=
  let (cs, s) := s.contributions (treeWidth t.fmt) own t.ents
  let vals := nodeValues t.fmt 0 (t.ents.zip cs)
  let at' (k : Nat) : Nat := match vals.find? (fun n => n.1 = k) with | some n => n.2.2 | none => 0
  let me := (t.ents.findIdx? (fun e => e.dev = s.fabric)).getD 0
  (if t.mode = 2 then nth 0 cs 0 else if t.mode = 1 then at' 0 else at' me, s)

def State.treeElems (s : State) (t : Tree) : List Nat → List Nat × State
  | [] => ([], s)
  | o :: l =>
    let (v, s) := s.treeElem t o
    let (r, s) := State.treeElems s t l
    (v :: r, s)

/-- What the link engines read of a 1024-bit unit at `va`: its bits, and whether a block of it or its page is poisoned, in which case
they are zeros (03_numbers.md R69; 11_page.md R286). -/
def State.linkRead (s : State) (x : Nat) (va : W64) : (Nat × Bool) ⊕ CpStop :=
  match s.cpAt x va permLK false with
  | .go pa => if poisoned (s.tagOf pa) || poisoned (s.tagOf (pa + 64)) then .inl (0, true) else .inl (s.rd pa 128, false)
  | .poison => .inl (0, true)
  | e => .inr ⟨va, e, permLK, false⟩

/-- This device's place in a tree. -/
def State.treePlace (s : State) (t : Tree) : Nat := (t.ents.findIdx? (fun e => e.dev = s.fabric)).getD 0

/-- Ports toward the children of this device in a tree. -/
def State.childPorts (s : State) (t : Tree) : List Nat :=
  let m := s.treePlace t
  ((t.ents.zip (List.range t.ents.length)).filter (fun e => decide (e.2 ≠ 0) && e.1.parent = m)).map (·.1.dport)

/-- Ports a link send of this device uses: toward its children where it is entry 0 of a broadcast, toward its parent in a reduction. -/
def State.sendPorts (s : State) (t : Tree) : List Nat :=
  let m := s.treePlace t
  if t.mode = 2 then (if m = 0 then s.childPorts t else []) else if m = 0 then [] else [(nth ⟨0, 0, 0, 0, 0⟩ t.ents m).uport]

/-- A 1024-bit unit goes out on the channel of the tree's mode (21_link.md R439), as two flits for each port. -/
def State.sendUnit (s : State) (t : Tree) (k r : Nat) (bad : Bool) (ports : List Nat) : State :=
  let f (j : Nat) : Flit := ⟨if t.mode = 2 then 2 else 1, k, 0, 0, BitVec.ofNat 512 (r / 2 ^ (512 * j)), 0, 0, if bad then poisonTag else 0, false⟩
  ports.foldl (fun s p => (s.queueFlit p (f 0)).queueFlit p (f 1)) s

/-- The elements of a unit and their results at this device, `mode` saying which. -/
def State.treeUnit (s : State) (t : Tree) (mode b : Nat) : Nat × State :=
  let w := if t.mode = 2 then 32 else treeWidth t.fmt
  let own := (List.range (1024 / w)).map (fun j => b / 2 ^ (w * j) % 2 ^ w)
  let (out, s) := s.treeElems { t with mode := mode, fmt := if t.mode = 2 then 0x06 else t.fmt } own
  (packLanes w out, s)

/-- One 1024-bit unit of a link receive-add on the tree in slot `k`, written no earlier than `clk`: the tree's value of the unit lands at the
destination, and goes on to the children where every entry receives it; where the device's own contribution is poisoned, so are the blocks it
lands in. -/
def State.linkUnit (s : State) (t : Tree) (k x clk : Nat) (src dst : W64) : State × Nat ⊕ CpStop :=
  match s.linkRead x src with
  | .inl (b, bad) =>
    match s.cpAt x dst permLK true with
    | .go pd =>
      let (r, s) := s.treeUnit t t.mode b
      let tag (s : State) (a : Nat) : BitVec 16 := if bad then poisonTag else s.tagOf a
      let (s, ts) := s.blockWrite clk pd (BitVec.ofNat 512 r) (tag s pd)
      let (s, ts) := s.blockWrite ts (pd + 64) (BitVec.ofNat 512 (r / 2 ^ 512)) (tag s (pd + 64))
      .inl (s.sendUnit t k r bad (if t.mode = 0 then [] else s.childPorts t), ts)
    | e => .inr ⟨dst, e, permLK, true⟩
  | .inr e => .inr e

def State.linkUnits (s : State) (t : Tree) (k x : Nat) (src dst : W64) : Nat → Nat → State × Nat ⊕ CpStop
  | 0, clk => .inl (s, clk)
  | n + 1, clk =>
    match s.linkUnit t k x clk src dst with
    | .inl (s, ts) => State.linkUnits s t k x (src + 128) (dst + 128) n ts
    | .inr e => .inr e

/-- The units of a link send: each is read, and what this device sends up the tree, its node value, or down it, its data, goes out (R443). -/
def State.linkSends (s : State) (t : Tree) (k x : Nat) (src : W64) : Nat → Nat → State × Nat ⊕ CpStop
  | 0, clk => .inl (s, clk)
  | n + 1, clk =>
    match s.linkRead x src with
    | .inl (b, bad) =>
      let (r, s) := if t.mode = 2 then (b, s) else s.treeUnit t 0 b
      State.linkSends (s.sendUnit t k r bad (s.sendPorts t)) t k x (src + 128) n clk
    | .inr e => .inr e

/-- Every unit of a global range that an executor core's X1 operations read or write for a chunk operation gives permission X1
(11_page.md R287). -/
def State.x1Reaches (s : State) (x : Nat) (va : W64) (write : Bool) : Nat → State ⊕ CpStop
  | 0 => .inl s
  | n + 1 =>
    match s.cpAt x va permX1 write with
    | .go _ => State.x1Reaches s x (va + 128) write n
    | .poison => if write then .inr ⟨va, .poison, permX1, true⟩ else State.x1Reaches s x (va + 128) write n
    | e => .inr ⟨va, e, permX1, write⟩

/-- Operation `j` of a collective has completed: its successors' dependency counts fall, and the node ends with the last. -/
def State.chunkDone (s : State) (k j : Nat) : State :=
  match s.kernel k with
  | none => s
  | some v =>
    let ss := match v.chunks[j]? with | some o => o.succ | none => []
    let ops := (v.chunks.zip (List.range v.chunks.length)).map (fun e =>
      let o := if e.2 = j then { e.1 with done := true } else e.1
      { o with dep := o.dep - (ss.filter (· = e.2)).length })
    let s := s.setKernel k { v with chunks := ops }
    if ops.all (fun o => o.done) then s.endNode k true 0 else s

/-- The executor core of a collective (R443): the tree's where it is one of the collective's context, else the first core of the executor
kernel. -/
def State.executorCore (s : State) (k x : Nat) (t : Tree) : Option Nat :=
  match (if t.st = .allocated ∧ t.ctx = x then t.ents.find? (fun e => e.dev = s.fabric) else none) with
  | some e => some e.ecore
  | none => (s.groups.filterMap (fun g => g.2)).findSome? (fun g =>
      match s.kernel g.k with | some v => if v.exec = some k then g.members.head? else none | none => none)

/-- A link operation on a tree that ended, or that is not the context's, ends without completion (R443). -/
def State.chunkFails (s : State) (k j : Nat) (v : Kernel) (t : Tree) (va : W64) : State :=
  let s := s.setKernel k { v with chunks := (v.chunks.zip (List.range v.chunks.length)).map (fun e => if e.2 = j then { e.1 with failed := true } else e.1) }
  match s.executorCore k v.ctx t with
  | none => s
  | some n => let (e, s) := s.draw; s.report n (128 + e.toNat % 128) 0x13 va

/-- The executor kernel of a collective. -/
def State.executorOf (s : State) (k : Nat) : Option (Nat × Kernel) := s.kernelList.find? (fun w => w.2.exec = some k)

/-- A chunk operation stops: an absent page is waited for, with one fault of source `src`; an address outside the window aborts the
kernel; a lacking permission, a poisoned page to write and a mark that refuses end the operation with a transfer error (R287; 11_page.md
R286, R290). -/
def State.chunkStop (s : State) (k j src : Nat) (v : Kernel) (t : Tree) (e : CpStop) : Result :=
  let no : Result := .fault (.eventCannotArise "CHUNK_OP")
  match e.place with
  | .absent kd =>
    if v.posted = some (pageOf e.va) then no
    else .next ((s.postFault ⟨e.va, v.ctx, kd, src, e.need + (if e.write then 2 ^ 15 else 0), 255⟩).setKernel k { v with posted := some (pageOf e.va) })
  | .hold => no
  | .bad pa => .fault (.noFrame pa)
  | .outside => .next ((s.hears e.va src).abortNode k 0)
  | _ => .next (s.chunkFails k j v t e.va)

/-- An operation 1 to 3 has run: the executor's cores have moved as many payloads as its length with its peer. -/
def State.executorMoved (s : State) (k : Nat) (o : ChunkOp) : Option State :=
  match s.executorOf k with
  | none => none
  | some (w, e) =>
    let key := 32 * o.op + o.peer % 32
    let n := Tbl.get 0 e.moves key
    if o.len ≤ n then some (s.setKernel w { e with moves := Tbl.set 0 e.moves key (n - o.len) }) else none

/-- CHUNK_OP: operations 1 to 3 are the executor kernel's, through its cores' X1; 4 and 5 the link engines'. -/
def State.chunkOp (s : State) (k j : Nat) : Result :=
  let no : Result := .fault (.eventCannotArise "CHUNK_OP")
  match s.kernel k with
  | none => no
  | some v =>
    match v.chunks[j]? with
    | none => no
    | some o =>
      if v.kind ≠ 3 ∨ v.st ≠ .running ∨ o.done ∨ o.failed ∨ o.dep ≠ 0 then no
      else if o.op ≤ 3 then
        let reached := match (if o.op = 1 then s.x1Reaches v.ctx o.src false o.len else s.x1Reaches v.ctx o.dst true o.len) with
          | .inl s => if o.op = 3 then s.x1Reaches v.ctx o.dst false o.len else .inl s
          | e => e
        match reached with
        | .inr e => s.chunkStop k j ((s.executorCore k v.ctx Tree.free).getD s.cp) v Tree.free e
        | .inl s => match s.executorMoved k o with | some s => .next ((s.setKernel k { v with posted := none }).chunkDone k j) | none => no
      else
        let t := s.tree o.peer
        if t.st ≠ .allocated ∨ t.ctx ≠ v.ctx ∨ t.ended then .next (s.chunkFails k j v t o.src)
        else
          match (if o.op = 4 then s.linkSends t o.peer v.ctx o.src o.len v.time else s.linkUnits t o.peer v.ctx o.src o.dst o.len v.time) with
          | .inl (s, ts) => .next ((s.setKernel k { v with posted := none, time := max v.time ts }).chunkDone k j)
          | .inr e => s.chunkStop k j 0x310 v t e

/-! ### Replays (R367, R368) -/

/-- The replays of a context that wait: of its graphs, and the launches whose record the command processor has not taken up, since
REPLAY, LAUNCH and GLAUNCH share one limit (log entry 98). -/
def State.replaysWaiting (s : State) (x : Nat) : Nat :=
  (s.ctx x).graphs.foldl (fun n g => n + (match g.2 with | some v => v.waiting.length | none => 0)) 0
    + (s.kernelList.filter (fun w => w.2.ctx = x && w.2.kind = 1 && w.2.node.isNone && w.2.job.isNone && w.2.st = .queued && !w.2.hasRec)).length

/-- A replay is asked for: 0 queued, 1 four already wait, 2 no graph. -/
def State.askReplay (s : State) (x g : Nat) (counter : W64) : Nat × State :=
  match (s.ctx x).graph g with
  | none => (2, s)
  | some v => if 4 ≤ s.replaysWaiting x then (1, s) else (0, s.setGraph x g { v with waiting := v.waiting ++ [counter] })

/-- REPLAY_BEGIN. -/
def State.replayBegin (s : State) (x g : Nat) : Result :=
  let no : Result := .fault (.eventCannotArise "REPLAY_BEGIN")
  match (s.ctx x).graph g with
  | none => no
  | some v =>
    match v.running || decide ((s.ctx x).st = .dead), v.waiting with
    | false, c :: r =>
      let idx := List.range v.nodes.length
      let v := { v with running := true, counter := c, waiting := r, snap := v.gp, err := [], posted := none,
                        st := idx.foldl (fun t i => Tbl.set .recorded t i .pending) [],
                        cnt := idx.foldl (fun t i => Tbl.set 0 t i (v.node i).npred) [] }
      .next ((s.setGraph x g v).queueDue x g)
    | _, _ => no

/-- REPLAY_END: the status block (21_link.md R449), then the counter. -/
def State.replayEnd (s : State) (x g : Nat) : Result :=
  let no : Result := .fault (.eventCannotArise "REPLAY_END")
  match (s.ctx x).graph g with
  | none => no
  | some v =>
    let idx := List.range v.nodes.length
    if !v.running ∨ !idx.all (fun i => v.nodeSt i = .completed || v.nodeSt i = .aborted) then no else
    let word (i : Nat) : Nat := (if v.nodeSt i = .completed then 5 else 6) + Tbl.get 0 v.err i * 2 ^ 8
    let stop (va : W64) (kd : Nat) : Result :=
      if v.posted = some (pageOf va) then no else .next ((s.cpFault x va kd permXW true).setGraph x g { v with posted := some (pageOf va) })
    let places := idx.map (fun i => let va := v.status + BitVec.ofNat 64 (4 * i); (va, s.cpAt x va permXW true, word i))
    match places.findSome? (fun p => match p.2.1 with | .absent k => some (p.1, some k) | .hold => some (p.1, none) | _ => none) with
    | some (va, some k) => stop va k
    | some (_, none) => no
    | none =>
      let s' := places.foldl (fun s p => match p.2.1 with | .go pa => s.engineStore pa 4 p.2.2 | _ => s) s
      match s'.cpAdd x s'.latest v.counter (if idx.all (fun i => v.nodeSt i = .completed) then 1 else 1 + 2 ^ 32) with
      | .inl s' => .next (s'.setGraph x g { v with running := false, st := [], cnt := [], posted := none })
      | .inr e => match e.place with | .absent k => stop e.va k | _ => no

/-! ### The instructions (R371 to R373, R382, R383) -/

/-- The graph and slot of a selector. -/
def Issue.graphOf (i : Issue) (x : W64) (mask : Nat) : Except Stop (Nat × Nat × Graph) :=
  if Nat.land x.toNat mask ≠ x.toNat then .error (.trap 4 0) else
  match i.ctx.graph (bits x.toNat 13 8) with
  | none => .error (.trap 4 0)
  | some v => .ok (bits x.toNat 13 8, bits x.toNat 5 0, v)

/-- GPSET. -/
def Issue.gpset (i : Issue) (o : RR) : Except Stop Issue := do
  let (x, y, i) ← i.rrG o
  if o.d ≠ 0 then illegalOperand else
  let (g, k, v) ← i.graphOf x 0x3F3F
  .ok { i with s := i.s.setGraph i.ctxNo g { v with gp := Tbl.set 0 v.gp k y } }

/-- GPGET. -/
def Issue.gpget (i : Issue) (o : RR) : Except Stop Issue := do
  let (x, i) ← i.rrG1 o
  let (_, k, v) ← i.graphOf x 0x13F3F
  .ok (i.resultG o.d.toNat (Tbl.get 0 (if x.getLsbD 16 && v.running then v.snap else v.gp) k) 4)

/-- GLAUNCH. -/
def Issue.glaunch (i : Issue) (o : RR) : Except Stop Issue := do
  let (x, y, i) ← i.rrG o
  if Nat.land x.toNat 0x3F00 ≠ x.toNat ∨ y.toNat % 8 ≠ 0 then illegalOperand else
  let (st, s) := i.s.askReplay i.ctxNo (bits x.toNat 13 8) y
  .ok ({ i with s := s }.resultG o.d.toNat (BitVec.ofNat 64 st) 4)

/-- KDONE: a release of the core's earlier writes (R372). -/
def Issue.kdone (i : Issue) (o : RR) : Except Stop Issue :=
  let done (i : Issue) (st : Nat) : Except Stop Issue := .ok (i.resultG o.d.toNat (BitVec.ofNat 64 st) 4)
  if isKiosk i.n then done i 2 else
  let k := i.core.mem.kref
  match i.s.kernel k with
  | none => done i 2
  | some v =>
    if v.lrec.kdcnt = 0 then done i 2
    else if v.kdone.contains i.n then done i 1
    else if !i.core.allWritten i.pointSeq then .error .wait
    else done { i with s := i.s.setKernel k { v with kdone := v.kdone ++ [i.n], time := max v.time (i.s.relTime i.n) } } 0

/-- GRPID's word (17_group.md Table 3). -/
def grpWord (n : Nat) (m : Member) : W64 :=
  BitVec.ofNat 64 (m.cidx % 2 ^ 16 * 2 ^ 36 + m.cpos % 16 * 2 ^ 32 + m.gidx % 2 ^ 16 * 2 ^ 16 + quarterOf n * 2 ^ 10 + n % 32 * 2 ^ 5 + m.midx)

/-- GRPSIZE's word (Table 4). -/
def shapeWord (m : Member) : W64 := BitVec.ofNat 64 (m.qmask.toNat * 2 ^ 32 + m.ngrp % 2 ^ 16 * 2 ^ 16 + m.csize * 2 ^ 8 + m.gsize)

/-- GPSET (R372). -/
def opGpset (g : Guard) (o : RR) : Op := guarded g none (asking (fun i => i.gpset o))

/-- `GPSET` alone in its bundle. -/
def execGpset (g : Guard) (o : RR) (s : State) : Result := issueSolo (.s (.gpset g o)) (opGpset g o) s

/-- GPGET (R372). -/
def opGpget (g : Guard) (o : RR) : Op := guarded g none (asking (fun i => i.gpget o))

/-- `GPGET` alone in its bundle. -/
def execGpget (g : Guard) (o : RR) (s : State) : Result := issueSolo (.s (.gpget g o)) (opGpget g o) s

/-- GLAUNCH (R372). -/
def opGlaunch (g : Guard) (o : RR) : Op := guarded g none (asking (fun i => i.glaunch o))

/-- `GLAUNCH` alone in its bundle. -/
def execGlaunch (g : Guard) (o : RR) (s : State) : Result := issueSolo (.s (.glaunch g o)) (opGlaunch g o) s

/-- KDONE (R372). -/
def opKdone (g : Guard) (o : RR) : Op := guarded g none (asking (fun i => i.kdone o))

/-- `KDONE` alone in its bundle. -/
def execKdone (g : Guard) (o : RR) (s : State) : Result := issueSolo (.s (.kdone g o)) (opKdone g o) s

/-- GRPID (R382, R383). -/
def opGrpid (g : Guard) (o : RR) : Op := guarded g none (fun i => .ok (i.result (gFile o.dnil) o.d.toNat (vec64 (grpWord i.n i.pre.mem)) 1))

/-- `GRPID` alone in its bundle. -/
def execGrpid (g : Guard) (o : RR) (s : State) : Result := issueSolo (.s (.grpid g o)) (opGrpid g o) s

/-- GRPSIZE (R382, R383). -/
def opGrpsize (g : Guard) (o : RR) : Op := guarded g none (fun i => .ok (i.result (gFile o.dnil) o.d.toNat (vec64 (shapeWord i.pre.mem)) 1))

/-- `GRPSIZE` alone in its bundle. -/
def execGrpsize (g : Guard) (o : RR) (s : State) : Result := issueSolo (.s (.grpsize g o)) (opGrpsize g o) s

/-- The command processor reads a queued node's launch record or descriptor (R358, R367). -/
def execLaunchRecordRead (k : Nat) (s : State) : Result := s.recordRead k

/-- Cycles spent queued are counted (R364). -/
def execPriorityAging (k : Nat) (cycles : Nat) (s : State) : Result := s.age k cycles

/-- Cores are reserved for a group, or for a cohort's groups (R365). -/
def execGroupPlace (k : Nat) (s : State) : Result := s.groupPlace k

/-- A group's members are loaded, and first bundles released (R376, R377). -/
def execGroupLoaded (grp : Nat) (s : State) : Result := s.groupLoaded grp

/-- A group retires (R380). -/
def execGroupRetire (grp : Nat) (s : State) : Result := s.groupRetire grp

/-- A kernel completes (R361). -/
def execKernelComplete (k : Nat) (s : State) : Result := s.kernelComplete k

/-- A kernel is aborted (R362). -/
def execKernelAbort (k : Nat) (s : State) : Result := s.kernelAbort k

/-- A replay begins (R367). -/
def execReplayBegin (ctx : Nat) (graph : Nat) (s : State) : Result := s.replayBegin ctx graph

/-- A replay ends (R368). -/
def execReplayEnd (ctx : Nat) (graph : Nat) (s : State) : Result := s.replayEnd ctx graph

/-- A chunk operation runs to completion (R369). -/
def execChunkOp (k : Nat) (op : Nat) (s : State) : Result := s.chunkOp k op

/-- A copy node completes (R366). -/
def execCopyNodeComplete (k : Nat) (s : State) : Result := s.copyNode k


end Sys2Proof.Machine
end

