-- ==== Sys2Proof/Machine/SysRegs.lean ====
section
/-! DEFINITION. System registers as SRD and SWR reach them (04_encoding.md R119; 05_scalar_control.md R153). -/

namespace Sys2Proof.Machine

/-! ### KVPOL (20_generation.md R421) -/

def Ctx.kvpol (c : Ctx) (x : Nat) : W64 :=
  BitVec.ofNat 64 (c.kvpg.toNat * 2 ^ 48 + c.kvnp.toNat * 2 ^ 36 + c.elog.toNat * 2 ^ 33 + b2n c.mlock * 2 ^ 32 + x % 2 ^ 6 * 2 ^ 10 + b2n c.kvproxy)

/-- A context takes writes of ADOPT and KVPOL from its CREATE until it becomes dead (R404, R421). -/
def Ctx.takesPolicy (c : Ctx) : Bool := c.st = .loading || c.st = .ready || c.st = .active || c.st = .faulted

/-- A write of KVPOL: region fields that may not change stay; an ELOG of 7 is ignored. -/
def Ctx.writeKvpol (c : Ctx) (x : W64) : Ctx :=
  let pg : BitVec 16 := BitVec.ofNat 16 (bits x.toNat 63 48)
  let np : BitVec 12 := BitVec.ofNat 12 (bits x.toNat 47 36)
  let el : BitVec 3 := if bits x.toNat 35 33 = 7 then c.elog else BitVec.ofNat 3 (bits x.toNat 35 33)
  let changes := pg ≠ c.kvpg || np ≠ c.kvnp || el ≠ c.elog
  let c' := { c with mlock := x.getLsbD 32, kvproxy := x.getLsbD 0 }
  if changes && (c.marks ≠ [] || decide (2 ^ 16 < pg.toNat + 2 * np.toNat)) then c' else { c' with kvpg := pg, kvnp := np, elog := el }

/-! ### Reading -/

/-- The value of register `r` for core `n`, as it stands before the bundle; none where the number is not listed. -/
def State.sysRead (s : State) (n : Nat) (c : Core) (r : Nat) : Option W64 :=
  match r with
  | 0x000 => some s.devinfo
  | 0x001 => some c.cdiag
  | 0x010 => some c.lctl.word
  | 0x020 => some c.lscale
  | 0x021 => some c.lsgen
  | 0x030 => some (half128 c.rngK false)
  | 0x031 => some (half128 c.rngK true)
  | 0x032 => some (half128 c.rngC false)
  | 0x033 => some (half128 c.rngC true)
  | 0x040 => some (c.cause.setWidth 64)
  | 0x041 => some (BitVec.ofNat 64 (c.rpc.toNat * 16))
  | 0x042 => some c.tval
  | 0x043 => some c.trapstat
  | 0x044 => some c.faddr
  | 0x100 => some (BitVec.ofNat 64 (c.ctx % 2 ^ 6 * 2 ^ 10 + b2n (s.ctx c.ctx).pol))
  | 0x101 => some s.part.word
  | 0x102 => some ((s.ctx c.ctx).kvpol c.ctx)
  | _ =>
    if 0x011 ≤ r ∧ r ≤ 0x016 then some (Tbl.get .zero c.lstat (r - 0x011)).word
    else if isKiosk n then none
    else if 0x080 ≤ r ∧ r ≤ 0x097 then some (c.mx.st (r - 0x080)).wmark
    else if 0x0A0 ≤ r ∧ r ≤ 0x0B7 then some (c.mx.st (r - 0x0A0)).resid
    else none

/-- SRD. -/
def Issue.srd (i : Issue) (d : BitVec 6) (r : Nat) : Except Stop Issue :=
  match i.s.sysRead i.n i.pre r with
  | none => illegalOperand
  | some v =>
    let i := if r = 0x001 then i.upd Core.cdiagRead else i
    .ok (i.resultG d.toNat v 1)

/-! ### Writing -/

/-- LCTL: a change of LACT counts as a level entry or exit (R35). -/
def Issue.writeLctl (i : Issue) (x : W64) : Except Stop Issue :=
  let l := LoopCtl.ofWord x
  if 6 ≤ l.rotlvl.toNat then illegalOperand
  else
    let i := i.afterCore (fun c => { c with lctl := l, wrapped := c.wrapped &&& c.lctl.lact &&& l.lact })
    .ok { i with level := i.level || decide (l.lact ≠ i.pre.lctl.lact) }

/-- LSTATn of a level that is not active. -/
def Issue.writeLstat (i : Issue) (n : Nat) (x : W64) : Except Stop Issue :=
  if i.pre.lctl.lact.getLsbD n then illegalOperand
  else .ok (i.afterCore (fun c => { c with lstat := Tbl.set .zero c.lstat n (LStat.ofWord x) }))

/-- LSCALE opens a generation (03_numbers.md R84). -/
def Issue.writeLscale (i : Issue) (x : W64) : Except Stop Issue :=
  let v : W32 := x.setWidth 32
  if scaleLegal v then .ok (i.afterCore (fun c => c.openScale v)) else illegalOperand

/-- A privileged register (04_encoding.md R119). The operation is not one the opcode maps mark (R113), so the check is made when the SWR
runs, not with the decode checks of R112 (log entry 94). -/
def Issue.writePriv (i : Issue) (f : State → State) : Except Stop Issue :=
  if i.ctx.priv then .ok (i.after f) else .error (.trap 3 0)

/-- ADOPT (19_weight_versions.md R404). -/
def State.writeAdopt (s : State) (x : W64) : State :=
  s.updCtx (bits x.toNat 15 10) (fun c => if c.takesPolicy then { c with pol := x.getLsbD 0 } else c)

/-- KVPOL. -/
def State.writeKvpol (s : State) (x : W64) : State :=
  s.updCtx (bits x.toNat 15 10) (fun c => if c.takesPolicy then c.writeKvpol x else c)

/-- SWR of value `x` to register `r`: read-only registers ignore it. DESIGN CHOICE (log entry 125): of an MRESCHK that sets MISM and an SWR
of the same register that clears it, in one bundle, the clear prevails. -/
def Issue.swr (i : Issue) (r : Nat) (x : W64) : Except Stop Issue :=
  if (i.s.sysRead i.n i.pre r).isNone then illegalOperand else
  match r with
  | 0x001 => .ok (i.afterCore (fun c => c.cdiagWrite x))
  | 0x010 => i.writeLctl x
  | 0x020 => i.writeLscale x
  | 0x030 => .ok (i.afterCore (fun c => { c with rngK := setHalf128 c.rngK false x }))
  | 0x031 => .ok (i.afterCore (fun c => { c with rngK := setHalf128 c.rngK true x }))
  | 0x032 => .ok (i.afterCore (fun c => { c with rngC := setHalf128 c.rngC false x }))
  | 0x033 => .ok (i.afterCore (fun c => { c with rngC := setHalf128 c.rngC true x }))
  | 0x041 => .ok (i.afterCore (fun c => { c with rpc := addr44 x }))
  | 0x043 => .ok (i.afterCore (fun c => { c with hbase := addr44 x }))
  | 0x100 => i.writePriv (fun s => s.writeAdopt x)
  | 0x101 => i.writePriv (fun s => s.writePart x)
  | 0x102 => i.writePriv (fun s => s.writeKvpol x)
  | _ =>
    if 0x011 ≤ r ∧ r ≤ 0x016 then i.writeLstat (r - 0x011) x
    else if 0x080 ≤ r ∧ r ≤ 0x097 then .ok (i.afterCore (fun c => c.updMx (fun mx => mx.setSt (r - 0x080) ((mx.st (r - 0x080)).write x))))
    else .ok i

/-- An SWR whose source is a g register. -/
def Issue.swrFrom (i : Issue) (r : Nat) (src : BitVec 6) : Except Stop Issue := i.swr r (i.pre.getG src.toNat)

/-- SRD (R153). -/
def opSrd (g : Guard) (o : SYS) : Op := guarded g none (fun i => i.srd o.g o.reg.toNat)

/-- `SRD` alone in its bundle. -/
def execSrd (g : Guard) (o : SYS) (s : State) : Result := issueSolo (.s (.srd g o)) (opSrd g o) s

/-- SWR (R153). -/
def opSwr (g : Guard) (o : SYS) : Op := guarded g none (fun i => i.swrFrom o.reg.toNat o.g)

/-- `SWR` alone in its bundle. -/
def execSwr (g : Guard) (o : SYS) (s : State) : Result := issueSolo (.s (.swr g o)) (opSwr g o) s


/-! ### Writes and reads of single registers -/

/-- SWR LSCALE (03_numbers.md R84). -/
def opLscaleWrite (g : Guard) (src : BitVec 6) : Op := guarded g none (fun i => i.swrFrom (0x020) src)

/-- That operation alone in its bundle. -/
def execLscaleWrite (g : Guard) (src : BitVec 6) (s : State) : Result := issueSolo (.s (.swr g ⟨src, BitVec.ofNat 12 (0x020)⟩)) (opLscaleWrite g src) s

/-- SWR PART (19_weight_versions.md R410). -/
def opPartWrite (g : Guard) (src : BitVec 6) : Op := guarded g none (fun i => i.swrFrom (0x101) src)

/-- That operation alone in its bundle. -/
def execPartWrite (g : Guard) (src : BitVec 6) (s : State) : Result := issueSolo (.s (.swr g ⟨src, BitVec.ofNat 12 (0x101)⟩)) (opPartWrite g src) s

/-- SWR ADOPT (19_weight_versions.md R404). -/
def opAdoptWrite (g : Guard) (src : BitVec 6) : Op := guarded g none (fun i => i.swrFrom (0x100) src)

/-- That operation alone in its bundle. -/
def execAdoptWrite (g : Guard) (src : BitVec 6) (s : State) : Result := issueSolo (.s (.swr g ⟨src, BitVec.ofNat 12 (0x100)⟩)) (opAdoptWrite g src) s

/-- SWR KVPOL (20_generation.md R421). -/
def opKvpolWrite (g : Guard) (src : BitVec 6) : Op := guarded g none (fun i => i.swrFrom (0x102) src)

/-- That operation alone in its bundle. -/
def execKvpolWrite (g : Guard) (src : BitVec 6) (s : State) : Result := issueSolo (.s (.swr g ⟨src, BitVec.ofNat 12 (0x102)⟩)) (opKvpolWrite g src) s

/-- SWR LCTL (02_core.md R50). -/
def opLctlWrite (g : Guard) (src : BitVec 6) : Op := guarded g none (fun i => i.swrFrom (0x010) src)

/-- That operation alone in its bundle. -/
def execLctlWrite (g : Guard) (src : BitVec 6) (s : State) : Result := issueSolo (.s (.swr g ⟨src, BitVec.ofNat 12 (0x010)⟩)) (opLctlWrite g src) s

/-- SWR LSTATn (02_core.md R50). -/
def opLstatWrite (g : Guard) (n : Nat) (src : BitVec 6) : Op := guarded g none (fun i => i.swrFrom (0x011 + n % 6) src)

/-- That operation alone in its bundle. -/
def execLstatWrite (g : Guard) (n : Nat) (src : BitVec 6) (s : State) : Result := issueSolo (.s (.swr g ⟨src, BitVec.ofNat 12 (0x011 + n % 6)⟩)) (opLstatWrite g n src) s

/-- SWR WMARKn (07_matrix.md R205). -/
def opWmarkWrite (g : Guard) (n : Nat) (src : BitVec 6) : Op := guarded g none (fun i => i.swrFrom (0x080 + n % 24) src)

/-- That operation alone in its bundle. -/
def execWmarkWrite (g : Guard) (n : Nat) (src : BitVec 6) (s : State) : Result := issueSolo (.s (.swr g ⟨src, BitVec.ofNat 12 (0x080 + n % 24)⟩)) (opWmarkWrite g n src) s

/-- SRD CDIAG (02_core.md R39). -/
def opCdiagRead (g : Guard) (dst : BitVec 6) : Op := guarded g none (fun i => i.srd dst (0x001))

/-- That operation alone in its bundle. -/
def execCdiagRead (g : Guard) (dst : BitVec 6) (s : State) : Result := issueSolo (.s (.srd g ⟨dst, BitVec.ofNat 12 (0x001)⟩)) (opCdiagRead g dst) s

end Sys2Proof.Machine
end

