-- ==== Sys2Proof/Machine/Generation.lean ====
section
/-! DEFINITION. Generation (20_generation.md R416 to R434; 26_prog_actors.md R474): the trajectory recorder, the sampling service, KV
marks and commits, early exit, the Sweeper. -/

namespace Sys2Proof.Machine

/-! ### The trajectory ring (R416 to R419) -/

/-- The 32 bytes of a record (Table 2). -/
def trajRecord (token logp ver pos seqs flags core num : Nat) : Nat :=
  token % 2 ^ 32 + logp % 2 ^ 32 * 2 ^ 32 + ver % 2 ^ 32 * 2 ^ 64 + pos % 2 ^ 32 * 2 ^ 96 + seqs % 2 ^ 16 * 2 ^ 128 + flags % 2 ^ 16 * 2 ^ 144
    + core % 2 ^ 16 * 2 ^ 160 + num % 2 ^ 64 * 2 ^ 192

/-- TRJREC's record, from the stamps as they stand (R419). -/
def Core.trajOf (c : Core) (n : Nat) (bnd : Bind) (mix : Bool) (x y : Nat) : Nat :=
  let ver := if bnd.v then bnd.ver.toNat else 0
  let flags := b2n mix + b2n c.xearly * 2 + b2n (c.spa ≠ 0) * 4 + bits y 51 48 * 2 ^ 4 + (if c.xearly then c.xl.toNat else 0) * 2 ^ 8
  trajRecord (x % 2 ^ 32) (x / 2 ^ 32) ver (y % 2 ^ 32) (bits y 47 32) flags n c.nslot

/-- TRJREC (08_transfer.md R247): it takes slot NSLOT, or waits for a run. -/
def Issue.trjrec (i : Issue) (o : RR) : Except Stop Issue := do
  let (x, y, i) ← i.rrG o
  if bits y.toNat 63 52 ≠ 0 ∨ i.ctx.ring.isNone then illegalOperand else
  let c := i.core
  let r := c.trajOf i.n (Tbl.get Bind.none i.pre.bnd 0) i.pre.mix x.toNat y.toNat
  let i ← i.command (.new .idem 11 (BitVec.ofNat 512 (c.nslot % 2 ^ 64 + r * 2 ^ 64)) [])
  if c.nleft = 0 then .error (.freeze (fun s => s.upd i.n (fun c => { c with slotReq := true }))) else
  .ok (i.upd (fun c => { c with nslot := c.nslot + 1, nleft := c.nleft - 1, spa := c.spa - 1, xearly := false, xl := 0 }))

/-- Where record `num` of a ring lies. -/
def Ring.slotVa (r : Ring) (num : Nat) : W64 := r.base + BitVec.ofNat 64 (64 + 32 * (num % r.cap))

def State.setRing (s : State) (x : Nat) (r : Ring) : State := s.updCtx x (fun c => { c with ring := some r })

/-- The recorder at an address of the ring. -/
def State.ringAt (s : State) (x : Nat) (va : W64) (write : Bool) : EngAt := s.placeAt x (s.svUnit x) none va permTR write

/-- One record written whole, into a block tagged (0x00, 0). -/
def State.recordStore (s : State) (pa v : Nat) : State :=
  let s := s.engineStore pa 32 v
  (s.putTag pa 0)

/-- The recorder's step for entry `k` of core `n` (R418). -/
def State.trrStep (s : State) (n k : Nat) (e : IfrEntry) : EngOut :=
  let x := (s.core n).ctx
  match (s.ctx x).ring with
  | none => .hold
  | some r =>
    let va := r.slotVa (e.field 0 8)
    match s.ringAt x va true with
    | .go pa => .done (((s.asyncStore n k 0 pa 32 (e.opnd.toNat / 2 ^ 64 % 2 ^ 256)).putTag pa 0).freeCommand n k)
    | .absent kd => .absent va kd permTR true
    | .hold => .hold
    | .outside => .outside va
    | .bad pa => .bad pa
    | _ => .fail va 0x13

/-- SLOT_RUN_GRANT: a run of 16 slots, while the ring has room (R417). -/
def State.slotGrant (s : State) (n : Nat) : Result :=
  let no : Result := .fault (.eventCannotArise "SLOT_RUN_GRANT")
  let c := s.core n
  match (s.ctx c.ctx).ring with
  | none => no
  | some r =>
    if !c.slotReq ∨ c.nleft ≠ 0 then no else
    match s.ringAt c.ctx r.base true with
    | .go pa =>
      let g := s.rd (pa + 8) 8
      let get := if g ≤ r.grant then g else r.get
      if r.cap < r.grant + 16 - get then no else
      let s := (s.engineStore pa 8 (r.grant + 16)).setRing c.ctx { r with grant := r.grant + 16, get := get, posted := none }
      .next (s.upd n (fun c => { c with nslot := r.grant, nleft := 16, slotReq := false }))
    | .absent k =>
      if r.posted = some (pageOf r.base) then no
      else .next ((s.postFault ⟨r.base, c.ctx, k, 0x300, permTR + 2 ^ 15, 255⟩).setRing c.ctx { r with posted := some (pageOf r.base) })
    | _ => no

/-- VOID_RECORD_WRITE: the next slot of a run of void records; a slot whose page shuts the recorder out stays as it is. -/
def State.voidWrite (s : State) (idx : Nat) : Result :=
  let no : Result := .fault (.eventCannotArise "VOID_RECORD_WRITE")
  match s.voids[idx]? with
  | none => no
  | some v =>
    let rest : List VoidRun := if v.count ≤ 1 then s.voids.eraseIdx idx else setNth s.voids idx { v with first := v.first + 1, count := v.count - 1, posted := none }
    let skip (s : State) : Result := .next { s with voids := rest }
    match (s.ctx v.ctx).ring with
    | none => skip s
    | some r =>
      let wait (va : W64) (k : Nat) : Result :=
        if v.posted = some (pageOf va) then no
        else .next { s.postFault ⟨va, v.ctx, k, 0x300, permTR + 2 ^ 15, 255⟩ with voids := setNth s.voids idx { v with posted := some (pageOf va) } }
      let va := r.slotVa v.first
      match s.ringAt v.ctx va true, s.ringAt v.ctx r.base true with
      | .absent k, _ => wait va k
      | _, .absent k => wait r.base k
      | .hold, _ => no
      | _, .hold => no
      | .go pa, .go ha =>
        if poisoned (s.tagOf pa) then skip s else
        let s := s.recordStore pa (trajRecord 0 0 0 0 0 8 v.core v.first)
        skip ((s.engineStore (ha + 24) 8 (r.voids + 1)).setRing v.ctx { r with voids := r.voids + 1 })
      | _, _ => skip s

/-! ### Blocks as numbers -/

/-- The blocks as bytes in a number. -/
def blocksVal : List (BitVec 512 × BitVec 16) → Nat
  | [] => 0
  | b :: t => b.1.toNat + 2 ^ 512 * blocksVal t

/-! ### Sampling (R420; 26_prog_actors.md R474) -/

/-- Bounds of e^(−d) × 2^P for a dyadic d ≥ 0; beyond 200 only that it lies between 0 and the last place counts. -/
def expNegB (P : Nat) (d : Dy) : Nat × Nat :=
  if Dy.lt ⟨200, 0⟩ d then (0, 1) else
  let (llo, lhi) := ln2B P
  let two := Pos.dyadic d.num.natAbs d.exp P
  let xhi := if two.2 then two.1 + 1 else two.1
  let c := two.1 / lhi
  let rlo := two.1 - c * lhi
  let rhi := xhi - c * llo
  let (elo, ehi) := expB P rlo rhi
  let inv (z : Nat) : Nat := (2 ^ (2 * P)) / z
  (inv ehi >>> c, (inv elo >>> c) + 2)

/-- Bounds of the natural logarithm of n × 2^−P, scaled by 2^P, for n ≥ 2^P. -/
def lnScaledB (P n : Nat) : Nat × Nat :=
  let j := n.log2
  let (llo, lhi) := ln2B P
  let (nlo, nhi) := lnB P n (2 ^ j)
  ((j - P) * llo + nlo, (j - P) * lhi + nhi)

/-- How far the largest logit lies above logit `v`; −∞ counts as nothing. -/
def below (top : Dy) : FVal → Option Dy
  | .fin s m e => some (Dy.add top (Dy.neg (FVal.dy (.fin s m e))))
  | _ => none

/-- Bounds of ln Σ e^(x − top) × 2^P over the logits. -/
def logSumB (P : Nat) (logits : List FVal) (top : Dy) : Nat × Nat :=
  let es := (logits.filterMap (below top)).map (expNegB P)
  ((lnScaledB P (max (2 ^ P) (es.foldl (fun a e => a + e.1) 0))).1, (lnScaledB P (es.foldl (fun a e => a + e.2) 0 + 1)).2)

/-- A log-probability of logit `i` whose distance from the natural logarithm of the softmax at temperature 1 is at most 2^−16: the free
value `u` where it is one, else the nearest; bits the bound does not fix are left open (log entry 26). `top` is the largest logit. -/
def logProb (logits : List FVal) (top : Dy) (i : Nat) (u : BitVec 32) : BitVec 32 :=
  let P := 96
  let d := (below top (nth .nan logits i)).getD ⟨0, 0⟩
  let (lo, hi) := logSumB P logits top
  -- the exact value lies between −d − hi / 2^P and −d − lo / 2^P
  let at' (z : Nat) : Dy := Dy.neg (Dy.add d ⟨z, -96⟩)
  let tol : Dy := ⟨1, -16⟩
  let near (b : BitVec 32) : Bool :=
    match Fmt.f32.val b.toNat with
    | .fin s m e =>
      let x := FVal.dy (.fin s m e)
      !Dy.lt (Dy.add (at' hi) tol) x && !Dy.lt x (Dy.add (at' lo) (Dy.neg tol))
    | _ => false
  let c : BitVec 32 := BitVec.ofNat 32 (roundDy .f32 .rne 0 true (at' lo))
  if near u then u else if near c then c else u

/-- A logit that makes the choice and the log-probability open. -/
def logitOpen (v : FVal) : Bool := match v with | .nan => true | .inf n => !n | _ => false

/-- Rank of a logit: −∞ lowest. -/
def logitLt (a b : FVal) : Bool :=
  match a, b with
  | .inf _, .fin _ _ _ => true
  | .fin _ _ _, .fin _ _ _ => Dy.lt a.dy b.dy
  | _, _ => false

/-- Index of the largest logit, the lower index on a tie. -/
def greedyGo : List FVal → Nat → Nat → FVal → Nat
  | [], _, best, _ => best
  | v :: t, i, best, b => if logitLt b v then greedyGo t (i + 1) i v else greedyGo t (i + 1) best b

/-- Indices a draw may return: every logit above −∞; under top-k those with fewer than k before them. -/
def sampleSet (logits : List FVal) (topk : Option Nat) : List Nat :=
  (List.range logits.length).filter (fun i =>
    let v := nth (.inf true) logits i
    let ahead := ((logits.zip (List.range logits.length)).filter (fun e => logitLt v e.1 || (!logitLt e.1 v && decide (e.2 < i)))).length
    (match v with | .fin _ _ _ => true | _ => false) && (match topk with | some k => decide (ahead < k) | none => true))

/-- Token and log-probability; `u`, `w` and `z` are free values. -/
def pickToken (logits : List FVal) (method topk : Nat) (u w z : W64) : Nat × BitVec 32 :=
  if logits.any logitOpen || logits.all (fun v => v = .inf true) then (u.toNat % logits.length, w.setWidth 32)
  else
    let set := sampleSet logits (if method = 2 then some topk else none)
    let i := if method = 0 then greedyGo logits 0 0 (.inf true) else nth 0 set (z.toNat % set.length)
    (i, logProb logits (nth .nan logits (greedyGo logits 0 0 (.inf true))).dy i (w.setWidth 32))

/-- A sampling block's fields are in range. -/
def sampleOk (b : Nat) : Bool :=
  let f (off n : Nat) : Nat := b / 2 ^ (8 * off) % 2 ^ (8 * n)
  let temp := Fmt.f32.val (f 16 4)
  decide (f 12 1 ≤ 2) && decide (1 ≤ f 8 4 ∧ f 8 4 ≤ 2 ^ 20) && (f 12 1 ≠ 2 || decide (1 ≤ f 14 2 ∧ f 14 2 ≤ 4096))
    && (f 12 1 = 0 || (match temp with | .fin false m _ => decide (m ≠ 0) | _ => false))
    && decide (f 0 8 % 64 = 0) && decide (f 32 8 % 8 = 0)

def State.setSample (s : State) (i : Nat) (b : SampleBlk) : State := { s with samples := setNth s.samples i b }

/-- The service at an address of a block's context. -/
def State.kioskAt (s : State) (b : SampleBlk) (va : W64) (need : Nat) (write : Bool) : EngAt := s.placeAt b.ctx (tuOf (512 + b.kiosk)) none va need write

/-- The service loads `n` consecutive blocks, each as an ordinary access of its kiosk core (R420; log entry 118). -/
def State.kioskBlocks (b : SampleBlk) : Nat → W64 → State → (List (BitVec 512 × BitVec 16) × State) ⊕ CpStop
  | 0, _, s => .inl ([], s)
  | n + 1, va, s =>
    match s.kioskAt b va permSL false with
    | .go pa =>
      let ((d, t), s) := s.homeLoad (512 + b.kiosk) pa 64
      match State.kioskBlocks b n (va + 64) s with
      | .inl (l, s) => .inl ((BitVec.ofNat 512 d, t) :: l, s)
      | r => r
    | e => .inr ⟨va, e, permSL, false⟩

/-- OUT of a block: the address the token goes to, 0 in an idle block. -/
def outVa (d : BitVec 512) : W64 := BitVec.ofNat 64 (d.toNat / 2 ^ 256 % 2 ^ 64)

/-- The block ends: OUT := 0 where its page allows it, and the block is idle (R474). -/
def State.sampleEnd (s : State) (i : Nat) (b : SampleBlk) : State :=
  let s := match s.kioskAt b (b.addr + 32) permSS true with
    | .go pa => s.coreStore (512 + b.kiosk) pa 8 (s.ringValue b.ctx (b.addr + 32) pa 8 0)
    | _ => s
  s.setSample i { b with active := false, posted := none }

/-- What stops the service: one page fault a wait, a wait, or the block's end. -/
def State.sampleStop (s : State) (i : Nat) (b : SampleBlk) (row : String) (va : W64) (at' : EngAt) (need : Nat) (write : Bool) : Result :=
  match at' with
  | .absent k =>
    if b.posted = some (pageOf va) then .fault (.eventCannotArise row)
    else .next ((s.postFault ⟨va, b.ctx, k, 512 + b.kiosk, need + (if write then 2 ^ 15 else 0), 255⟩).setSample i { b with posted := some (pageOf va) })
  | .hold => .fault (.eventCannotArise row)
  | .bad pa => .fault (.noFrame pa)
  | _ => .next (s.sampleEnd i b)

/-- The block as the service loads it. -/
def State.sampleRead (s : State) (b : SampleBlk) : ((BitVec 512 × BitVec 16) × State) ⊕ EngAt :=
  match s.kioskBlocks b 1 b.addr with
  | .inl (l, s) => .inl (l.headD (0, 0), s)
  | .inr e => .inr e.place

/-- The service polls a registered block: an idle block whose OUT is not 0 starts its phases. -/
def State.samplePoll (s : State) (i : Nat) : Result :=
  let row := "SAMPLING_POLL"
  match s.samples[i]? with
  | none => .fault (.eventCannotArise row)
  | some b =>
    if b.active then .fault (.eventCannotArise row) else
    match s.sampleRead b with
    | .inr e => s.sampleStop i b row b.addr e permSL false
    | .inl ((d, tag), s) =>
      if poisoned tag then .next (s.sampleEnd i b)
      else if outVa d = 0 then .next (s.setSample i { b with posted := none })
      else .next (s.setSample i { b with active := true, posted := none, t := 0, lrb := BitVec.ofNat 32 (d.toNat / 2 ^ 160),
                                         trb := BitVec.ofNat 32 (d.toNat / 2 ^ 192) })

/-- SAMPLING_POLL: the runtime registers a 64-byte block of a context with the service on a kiosk core from 4 to 11, or withdraws one; or
the service polls (R420, R474; log entry 118). -/
def State.samplingPoll (s : State) (ev : SampleEv) : Result :=
  let no : Result := .fault (.eventCannotArise "SAMPLING_POLL")
  match ev with
  | .poll i => s.samplePoll i
  | .withdraw i => if i < s.samples.length then .next { s with samples := s.samples.eraseIdx i } else no
  | .register x addr k =>
    if (s.ctx x).st = .free ∨ addr.toNat % 64 ≠ 0 ∨ k < 4 ∨ 11 < k then no
    else .next { s with samples := s.samples ++ [⟨x, addr, k, false, 0, 0, 0, none⟩] }

/-- The service arrives at token-ready with the token; none where the handle is stale. -/
def State.tokenReady (s : State) (b : SampleBlk) (token : Nat) : Option State :=
  match s.handleBar b.trb.toNat with
  | .stale => none
  | .bar n =>
    let a : HeldArr := ⟨512 + b.kiosk, 255, s.barBit (512 + b.kiosk) n, b.t, BitVec.ofNat 32 token, s.relTime (512 + b.kiosk)⟩
    some (s.barDo n ((s.bar n).arrival a))

/-- The sampling of a phase whose logits are ready. -/
def State.samplePick (s : State) (i : Nat) (b : SampleBlk) (d : BitVec 512) : Result :=
  let row := "SAMPLING_PHASE"
  let f (off n : Nat) : Nat := d.toNat / 2 ^ (8 * off) % 2 ^ (8 * n)
  let out := outVa d
  if !sampleOk d.toNat then .next (s.sampleEnd i b) else
  match s.kioskBlocks b ((f 8 4 + 15) / 16) (BitVec.ofNat 64 (f 0 8)) with
  | .inr e => s.sampleStop i b row e.va e.place permSL false
  | .inl (l, s) =>
    if l.any (fun x => poisoned x.2) then .next (s.sampleEnd i b) else
    match s.kioskAt b out permSS true with
    | .go pa =>
      let v := blocksVal l
      let logits := (List.range (f 8 4)).map (fun j => Fmt.f32.val (v / 2 ^ (32 * j) % 2 ^ 32))
      let (u, s) := s.draw
      let (w, s) := s.draw
      let (z, s) := s.draw
      let (token, lp) := pickToken logits (f 12 1) (f 14 2) u w z
      let s := s.coreStore (512 + b.kiosk) pa 8 (s.ringValue b.ctx out pa 8 (token + lp.toNat * 2 ^ 32))
      match s.tokenReady b token with
      | some s => .next (s.setSample i { b with t := b.t + 1, posted := none })
      | none => .next (s.sampleEnd i b)
    | e => s.sampleStop i b row out e permSS true

/-- SAMPLING_PHASE: the phase of an active block whose logits-ready phase has completed. -/
def State.samplingPhase (s : State) (i : Nat) : Result :=
  let row := "SAMPLING_PHASE"
  match s.samples[i]? with
  | none => .fault (.eventCannotArise row)
  | some b =>
    if !b.active then .fault (.eventCannotArise row) else
    match s.sampleRead b with
    | .inr e => s.sampleStop i b row b.addr e permSL false
    | .inl ((d, tag), s) =>
      if poisoned tag then .next (s.sampleEnd i b) else
      match s.handleBar b.lrb.toNat with
      | .stale => .next (s.sampleEnd i b)
      | .bar n =>
        match (s.bar n).result b.t with
        | none => .fault (.eventCannotArise row)
        | some w => if w = 0 then (s.acquire (512 + b.kiosk) (s.bar n).time).samplePick i b d else .next (s.sampleEnd i b)

/-! ### Marks (R422 to R424) -/

/-- Entries from `e0`, `n` of them, lie in the region and in one page. -/
def kvRangeOk (c : Ctx) (e0 n : Nat) : Bool :=
  decide (0 < n) && decide (e0 + n ≤ kvCount c) && decide (e0 / kvPerPage c = (e0 + n - 1) / kvPerPage c)

/-- Set the mark of a range. -/
def Ctx.markRange (c : Ctx) (e0 n : Nat) (m : KvMark) : Ctx :=
  { c with marks := (List.range n).foldl (fun t j => Tbl.set .plain t (e0 + j) m) c.marks }

/-- Marks of entries from `e0` on, all of one page, change as one store of core `n` (R422). -/
def State.markStoreBy (s : State) (n x e0 clk : Nat) : State :=
  let (s, ts) := s.markStore x (pageOf (BitVec.ofNat 64 (kvAddr (s.ctx x) e0))) clk
  s.upd n (fun c => { c with clk := max c.clk ts })

/-- The result word (R432). -/
def genWord (val st : Nat) (own : Bool) : W64 := BitVec.ofNat 64 (val + b2n own * 4 + st * 16)

/-- The checks that every generation instruction shares (R431). -/
def Issue.kvReady (i : Issue) : Except Stop Unit := if i.ctx.kvnp = 0 then .error (.trap 4 0) else .ok ()

/-! ### CONFX (R427) -/

/-- Neither is NaN and c ≥ h. -/
def exits (c h : FVal) : Bool :=
  match c, h with
  | .nan, _ => false
  | _, .nan => false
  | .inf n, .inf m => !n || m
  | .inf n, .fin _ _ _ => !n
  | .fin _ _ _, .inf m => m
  | .fin _ _ _, .fin _ _ _ => Dy.le h.dy c.dy

/-- CONFX. -/
def Issue.confx (i : Issue) (o : RR) : Except Stop Issue := do
  let (x, y, i) ← i.rrG o
  i.kvReady
  if bits y.toNat 63 56 ≠ 0 then illegalOperand else
  let done (i : Issue) (w : W64) : Except Stop Issue := .ok (i.resultG o.d.toNat w 4)
  if !exits (Fmt.f32.val (x.toNat % 2 ^ 32)) (Fmt.f32.val (x.toNat / 2 ^ 32)) then done i 0 else
  if !i.core.allWritten i.pointSeq then .error .wait else
  let e0 := y.toNat % 2 ^ 32
  let n := bits y.toNat 47 32
  if !kvRangeOk i.ctx e0 n then done i (genWord 0 3 false)
  else if !(List.range n).all (fun j => kvMark i.ctx (e0 + j) = .plain) then done i (genWord 0 2 false)
  else
    let s := (i.s.updCtx i.ctxNo (fun c => c.markRange e0 n .pending)).markStoreBy i.n i.ctxNo e0 (i.s.relTime i.n)
    let s := s.upd i.n (fun c => { c with xearly := true, xl := BitVec.ofNat 8 (bits y.toNat 55 48) })
    done { i with s := s } (genWord 1 0 false)

/-! ### KVMODE (R433) -/

/-- KVMODE. -/
def Issue.kvmode (i : Issue) (o : RR) : Except Stop Issue := do
  let (x, y, i) ← i.rrG o
  i.kvReady
  let c := i.ctx
  let grp := i.s.grpOf i.n
  let done (i : Issue) (w : W64) : Except Stop Issue := .ok (i.resultG o.d.toNat w 4)
  match x.toNat with
  | 0 =>
    if 2 ≤ y.toNat then illegalOperand
    else if c.mlock then done i (genWord (b2n c.kvproxy) 1 false)
    else done { i with s := i.s.updCtx i.ctxNo (fun c => { c with kvproxy := y.getLsbD 0 }) } (genWord (b2n c.kvproxy) 0 false)
  | 1 => if y ≠ 0 then illegalOperand else done i (genWord (b2n c.kvproxy) 0 false)
  | 2 =>
    let e0 := y.toNat % 2 ^ 32
    let n := bits y.toNat 47 32
    match grp with
    | none => illegalOperand
    | some g =>
      if bits y.toNat 63 48 ≠ 0 ∨ n = 0 ∨ 4096 < n then illegalOperand
      else if !kvRangeOk c e0 n then done i (genWord 0 3 false)
      else if !(List.range n).all (fun j => let m := kvMark c (e0 + j); m = .plain || m = .spec g) then done i (genWord 0 2 false)
      else done { i with s := (i.s.updCtx i.ctxNo (fun c => c.markRange e0 n (.spec g))).markStoreBy i.n i.ctxNo e0 i.core.clk }
             (genWord 0 0 false)
  | 3 =>
    if y.toNat / 2 ^ 32 ≠ 0 then illegalOperand
    else if kvCount c ≤ y.toNat then done i (genWord 0 3 false)
    else
      match kvMark c y.toNat with
      | .plain => done i (genWord 0 0 false)
      | .spec g => done i (genWord 1 0 (grp = some g))
      | .pending => done i (genWord 2 0 false)
  | _ => illegalOperand

/-! ### KVCOMMIT (R425, R426) -/

/-- Source and destination entries of a descriptor. -/
def commitPairs (v n : Nat) : List (Nat × Nat) := (List.range n).map (fun j => let w := v / 2 ^ (128 + 64 * j) % 2 ^ 64; (w % 2 ^ 32, w / 2 ^ 32))

/-- The highest ticket accepted from a group. -/
def State.ticket (s : State) (x g : Nat) : Option Nat := (s.tickets.find? (fun t => t.1 = (x, g))).map (·.2)

/-- Answer of step 2. -/
def State.commitStatus (s : State) (x g ticket : Nat) (pairs : List (Nat × Nat)) : Nat :=
  let c := s.ctx x
  let es := pairs.flatMap (fun p => [p.1, p.2])
  if (match s.ticket x g with | some t => decide (ticket ≤ t) | none => false) then 1
  else if es = [] ∨ 128 < pairs.length ∨ !es.all (fun e => decide (e < kvCount c) && decide (e / kvPerPage c = nth 0 es 0 / kvPerPage c)) then 3
  else if !es.all (fun e => kvMark c e = .spec g) then 2
  else 0

/-- The blocks of the descriptor, as ordinary loads. -/
def Issue.commitBlocks (i : Issue) (va : W64) : Nat → Except Stop (List (BitVec 512 × BitVec 16) × Issue)
  | 0 => .ok ([], i)
  | n + 1 => do
    match ← i.examine va 64 permSL false true with
    | .dev _ _ => .error (.trap 9 va)
    | .mem pa _ =>
      let ((d, t), i) ← i.readAt va pa 64 permSL
      if poisoned t then .error (.trap 10 va) else
      let (l, i) ← Issue.commitBlocks i (va + 64) n
      .ok ((BitVec.ofNat 512 d, t) :: l, i)

/-- KVCOMMIT. -/
def Issue.kvcommit (i : Issue) (o : RR) : Except Stop Issue := do
  let (va, i) ← i.rrG1 o
  i.kvReady
  match i.s.grpOf i.n, o.s2.toNat with
  | some g, 0 =>
    let (head, i) ← i.commitBlocks va 1
    if !i.core.allWritten i.pointSeq then .error .wait else
    let np := blocksVal head / 2 ^ 32 % 2 ^ 16
    let (l, i) ← i.commitBlocks va ((16 + 8 * np + 63) / 64)
    let v := blocksVal l
    let pairs := commitPairs v np
    let st := i.s.commitStatus i.ctxNo g (v % 2 ^ 32) pairs
    let done (i : Issue) : Except Stop Issue := .ok (i.resultG o.d.toNat (genWord 0 st false) 4)
    if st ≠ 0 then done i else
    let kc : KvCommit := ⟨i.ctxNo, g, pairs, BitVec.ofNat 64 (v / 2 ^ 64), 0, 0, none, i.s.relTime i.n, false⟩
    let tk := ((i.ctxNo, g), v % 2 ^ 32) :: i.s.tickets.filter (fun t => t.1 ≠ (i.ctxNo, g))
    let s : State := { i.s with kvcommits := i.s.kvcommits ++ [kc], tickets := tk }
    done { i with s := s.upd i.n (fun c => { c with spa := v / 2 ^ 48 % 2 ^ 16 }) }
  | _, _ => illegalOperand

/-- Bytes of an entry. -/
def entryBytes (c : Ctx) : Nat := 64 * 2 ^ c.elog.toNat

/-- Pass over pairs that are copied whole or need no copy; `n` bounds them. -/
def KvCommit.skip (bytes : Nat) : Nat → KvCommit → KvCommit
  | 0, c => c
  | n + 1, c =>
    match c.pairs[c.idx]? with
    | some (a, b) => if a = b ∨ bytes ≤ c.prog then KvCommit.skip bytes n { c with idx := c.idx + 1, prog := 0 } else c
    | none => c

/-- A counter add of the I/O die for context `x`, with permission `need`. -/
def State.unitAdd (s : State) (x need : Nat) (va : W64) (v : Nat) : State ⊕ CpStop :=
  if va = 0 then .inl s else
  match s.placeAt x (s.svUnit x) none va need true with
  | .go pa => .inl (s.timedStore s.latest pa 8 (s.rd pa 8 + v))
  | .absent k => .inr ⟨va, .absent k, need, true⟩
  | .hold => .inr ⟨va, .hold, need, true⟩
  | _ => .inl s

/-- A stop of a commit: one fault a wait. -/
def State.commitStop (s : State) (i : Nat) (c : KvCommit) (row : String) (e : CpStop) : Result :=
  match e.place with
  | .absent k =>
    if c.posted = some (pageOf e.va) then .fault (.eventCannotArise row)
    else .next { s.postFault ⟨e.va, c.ctx, k, 0x301, e.need + (if e.write then 2 ^ 15 else 0), 255⟩ with
                 kvcommits := setNth s.kvcommits i { c with posted := some (pageOf e.va) } }
  | .bad pa => .fault (.noFrame pa)
  | _ => .fault (.eventCannotArise row)

/-- Want of permission ends a commit before step 4. -/
def State.commitEnds (s : State) (i : Nat) (c : KvCommit) (row : String) : Result :=
  match s.unitAdd c.ctx permXW c.cca (1 + 2 ^ 32) with
  | .inl s => .next { s with kvcommits := s.kvcommits.eraseIdx i }
  | .inr e => s.commitStop i c row e

/-- KV_COMPACTION_COPY: the next block of a commit's copies. -/
def State.compact (s : State) (i : Nat) : Result :=
  let row := "KV_COMPACTION_COPY"
  match s.kvcommits[i]? with
  | none => .fault (.eventCannotArise row)
  | some c =>
    let x := s.ctx c.ctx
    let c := c.skip (entryBytes x) c.pairs.length
    match c.pairs[c.idx]? with
    | none => .fault (.eventCannotArise row)
    | some (a, b) =>
      let src := BitVec.ofNat 64 (kvAddr x a + c.prog)
      let dst := BitVec.ofNat 64 (kvAddr x b + c.prog)
      let put (d : BitVec 512) (t : BitVec 16) : Result :=
        match s.placeAt c.ctx (s.svUnit c.ctx) (some c.grp) dst permXW true with
        | .go pa =>
          let (s, ts) := s.blockWrite c.ts pa d t
          .next { s with kvcommits := setNth s.kvcommits i { c with prog := c.prog + 64, posted := none, ts := ts } }
        | .deny => s.commitEnds i c row
        | .poison => s.commitEnds i c row
        | e => s.commitStop i c row ⟨dst, e, permXW, true⟩
      match s.placeAt c.ctx (s.svUnit c.ctx) (some c.grp) src permXR false with
      | .go pa => put (s.rdBlock pa) (s.tagOf pa)
      | .poison => put 0 poisonTag
      | .deny => s.commitEnds i c row
      | e => s.commitStop i c row ⟨src, e, permXR, false⟩

/-- The destinations of commit `i` become plain as one store (R422, R425). -/
def State.commitMarks (s : State) (i : Nat) (c : KvCommit) : State :=
  let s' := s.updCtx c.ctx (fun x => { x with marks := c.pairs.foldl (fun t p => Tbl.set .plain t p.2 .plain) x.marks })
  let s' := match c.pairs with
    | p :: _ => (s'.markStore c.ctx (pageOf (BitVec.ofNat 64 (kvAddr (s.ctx c.ctx) p.2))) s.latest).1
    | [] => s'
  { s' with kvcommits := setNth s'.kvcommits i { c with marked := true } }

/-- No compaction copy of the group of commit `c` is to come (09_memory_model.md R266). -/
def State.copiesDone (s : State) (c : KvCommit) : Bool :=
  s.kvcommits.all (fun d => d.ctx ≠ c.ctx || d.grp ≠ c.grp || (let e := d.skip (entryBytes (s.ctx d.ctx)) d.pairs.length; decide (e.pairs.length ≤ e.idx)))

/-- KV_COMMIT_POINT: every pair of the group's commits has been copied, and the destinations become plain as one store; then the counter
gains 1, and the add alone waits for its page (R425). -/
def State.commitPoint (s : State) (i : Nat) : Result :=
  let row := "KV_COMMIT_POINT"
  match s.kvcommits[i]? with
  | none => .fault (.eventCannotArise row)
  | some c =>
    if !s.copiesDone c then .fault (.eventCannotArise row) else
    let s := if c.marked then s else s.commitMarks i c
    match s.unitAdd c.ctx permXW c.cca 1 with
    | .inl s => .next { s with kvcommits := s.kvcommits.eraseIdx i }
    | .inr e => if c.marked then s.commitStop i { c with marked := true } row e else .next s

/-! ### The Sweeper (R428, R429) -/

/-- BFPOST (08_transfer.md R248). -/
def Issue.bfpost (i : Issue) (o : RR) : Except Stop Issue := do
  let (va, i) ← i.rrG1 o
  i.range va 64 64
  i.command (.new .keyed 12 (BitVec.ofNat 512 va.toNat) [])

/-- The highest JID accepted from a context and core. -/
def Sweeper.hi (w : Sweeper) (x n : Nat) : Option W64 := (w.hiJid.find? (fun h => h.1 = (x, n))).map (·.2)

/-- A job's fields are in range. -/
def jobOk (c : Ctx) (b : Nat) : Bool :=
  let f (off n : Nat) : Nat := b / 2 ^ (8 * off) % 2 ^ (8 * n)
  decide (f 8 8 % 64 = 0) && decide (f 24 8 % 8 = 0) && decide (1 ≤ f 20 4 ∧ f 20 4 ≤ 4096) && kvRangeOk c (f 16 4) (f 20 4)

/-- The Sweeper's work on entry `k` of core `n`: it reads the job, whose identity the post then carries (13_inflight_record.md R320), and
accepts it, or discards it as a repeat. -/
def State.jobStep (s : State) (n k : Nat) (e : IfrEntry) : EngOut :=
  let x := (s.core n).ctx
  let va : W64 := BitVec.ofNat 64 (e.field 0 8)
  if s.foreign e then .fail va 0x14 else
  match s.placeAt x (s.svUnit x) (s.grpOf n) va permBF false with
  | .absent kd => .absent va kd permBF false
  | .hold => .hold
  | .outside => .outside va
  | .bad pa => .bad pa
  | .deny => .fail va 0x13
  | .poison => .fail va 0x13
  | .go pa =>
    let b := s.rd pa 64
    let jid : W64 := BitVec.ofNat 64 (e.field 8 8)
    if poisoned (s.tagOf pa) then .fail va 0x13
    else if !e.started then
      .done (s.updEntry n k (fun e => { e with started := true, opnd := BitVec.ofNat 512 (va.toNat + b % 2 ^ 64 * 2 ^ 64) }))
    else if (match s.sweeper.hi x n with | some h => decide (jid.toNat ≤ h.toNat) | none => false) then .done (s.freeCommand n k)
    else if !jobOk (s.ctx x) b then .fail va 0x13
    else if 4096 ≤ s.sweeper.jobs.length then .hold
    else
      let w (off : Nat) : W64 := BitVec.ofNat 64 (b / 2 ^ (8 * off))
      let j : Job := ⟨x, n, jid, va, w 8, b / 2 ^ 128 % 2 ^ 32, b / 2 ^ 160 % 2 ^ 32, w 24, none, none, false⟩
      let sw : Sweeper := ⟨s.sweeper.jobs ++ [j], ((x, n), jid) :: s.sweeper.hiJid.filter (fun h => h.1 ≠ (x, n))⟩
      .done ({ s with sweeper := sw }.freeCommand n k)

def State.setJob (s : State) (i : Nat) (j : Job) : State := { s with sweeper := { s.sweeper with jobs := setNth s.sweeper.jobs i j } }
def State.dropJob (s : State) (i : Nat) : State := { s with sweeper := { s.sweeper with jobs := s.sweeper.jobs.eraseIdx i } }

/-- SWEEPER_DISPATCH: the oldest job not yet dispatched launches its kernel, with the job's own address as parameter. -/
def State.dispatch (s : State) : Result :=
  match firstIdx (fun (j : Job) => j.kernel.isNone) s.sweeper.jobs 0 with
  | none => .fault (.eventCannotArise "SWEEPER_DISPATCH")
  | some (i, j) =>
    let id := s.nextKernel
    .next ((s.setJob i { j with kernel := some id }).addKernel { Kernel.new j.ctx 1 none j.lrec s.now 0 with job := some j.addr.toNat })

/-- Entries of a job that are still pending. -/
def Job.pending (c : Ctx) (j : Job) : List Nat := ((List.range j.n).map (· + j.e0)).filter (fun e => kvMark c e = .pending)

/-- Entries, all of one page, become plain as one store, which stands after every write the Sweeper's job made. -/
def State.markPlain (s : State) (x : Nat) (l : List Nat) : State :=
  let s' := s.updCtx x (fun c => { c with marks := l.foldl (fun t e => Tbl.set .plain t e .plain) c.marks })
  match l with
  | e :: _ => (s'.markStore x (pageOf (BitVec.ofNat 64 (kvAddr (s.ctx x) e))) s.latest).1
  | [] => s'

/-- A stop of the Sweeper at a job: one fault a wait. -/
def State.jobStop (s : State) (i : Nat) (j : Job) (row : String) (e : CpStop) : Result :=
  match e.place with
  | .absent k =>
    if j.posted = some (pageOf e.va) then .fault (.eventCannotArise row)
    else .next ((s.postFault ⟨e.va, j.ctx, k, 0x301, e.need + 2 ^ 15, 255⟩).setJob i { j with posted := some (pageOf e.va) })
  | .bad pa => .fault (.noFrame pa)
  | _ => .fault (.eventCannotArise row)

/-- The add at DONE of job `i`, whose marks are cleared; it alone waits for its page (R429). -/
def State.jobAdd (s : State) (i : Nat) (j : Job) (row : String) (v : Nat) : Result :=
  match s.unitAdd j.ctx permBF j.done v with
  | .inl s => .next (s.dropJob i)
  | .inr e => if j.marked then s.jobStop i j row e else .next s

/-- SWEEPER_JOB_COMPLETE. -/
def State.jobComplete (s : State) (i : Nat) : Result :=
  let row := "SWEEPER_JOB_COMPLETE"
  match s.sweeper.jobs[i]? with
  | none => .fault (.eventCannotArise row)
  | some j =>
    match j.kernel.bind s.kernel with
    | none => .fault (.eventCannotArise row)
    | some v =>
      if v.st ≠ .completed then .fault (.eventCannotArise row) else
      let s := if j.marked then s else (s.markPlain j.ctx (j.pending (s.ctx j.ctx))).setJob i { j with marked := true }
      s.jobAdd i j row 1

/-- The blocks of a pending entry are made poisoned. -/
def State.poisonBlocks (s : State) (x : Nat) (va : W64) : Nat → State ⊕ CpStop
  | 0 => .inl s
  | n + 1 =>
    match translate s (s.svUnit x) x va permBF with
    | .ok pa _ => State.poisonBlocks ((s.writeTime 0 (globalLine pa)).1.putTag pa poisonTag) x (va + 64) n
    | .absent k => .inr ⟨va, .absent k, permBF, true⟩
    | _ => State.poisonBlocks s x (va + 64) n

def State.poisonEntries (s : State) (x : Nat) : List Nat → State ⊕ CpStop
  | [] => .inl s
  | e :: t =>
    match s.poisonBlocks x (BitVec.ofNat 64 (kvAddr (s.ctx x) e)) (2 ^ (s.ctx x).elog.toNat) with
    | .inl s => State.poisonEntries s x t
    | r => r

/-- SWEEPER_JOB_ABORT. -/
def State.jobAbort (s : State) (i : Nat) : Result :=
  let row := "SWEEPER_JOB_ABORT"
  match s.sweeper.jobs[i]? with
  | none => .fault (.eventCannotArise row)
  | some j =>
    match j.kernel.bind s.kernel with
    | none => .fault (.eventCannotArise row)
    | some v =>
      if v.st ≠ .aborted then .fault (.eventCannotArise row) else
      if j.marked then s.jobAdd i j row (1 + 2 ^ 32) else
      let l := j.pending (s.ctx j.ctx)
      match s.poisonEntries j.ctx l with
      | .inr e => s.jobStop i j row e
      | .inl s' => ((s'.markPlain j.ctx l).setJob i { j with marked := true }).jobAdd i j row (1 + 2 ^ 32)

/-- TRJREC (08_transfer.md R247; R417, R419). -/
def opTrjrec (g : Guard) (o : RR) : Op := guarded g none (fun i => i.trjrec o)

/-- `TRJREC` alone in its bundle. -/
def execTrjrec (g : Guard) (o : RR) (s : State) : Result := issueSolo (.x (.trjrec g o)) (opTrjrec g o) s

/-- BFPOST (08_transfer.md R248). -/
def opBfpost (g : Guard) (o : RR) : Op := guarded g none (fun i => i.bfpost o)

/-- `BFPOST` alone in its bundle. -/
def execBfpost (g : Guard) (o : RR) (s : State) : Result := issueSolo (.x (.bfpost g o)) (opBfpost g o) s

/-- CONFX (R427). -/
def opConfx (g : Guard) (o : RR) : Op := guarded g none (asking (fun i => i.confx o))

/-- `CONFX` alone in its bundle. -/
def execConfx (g : Guard) (o : RR) (s : State) : Result := issueSolo (.s (.confx g o)) (opConfx g o) s

/-- KVCOMMIT (R425). -/
def opKvcommit (g : Guard) (o : RR) : Op := guarded g none (asking (unrecorded (fun i => i.kvcommit o)))

/-- `KVCOMMIT` alone in its bundle. -/
def execKvcommit (g : Guard) (o : RR) (s : State) : Result := issueSolo (.s (.kvcommit g o)) (opKvcommit g o) s

/-- KVMODE (R433), operation 0; OP of the register chooses the form. -/
def opKvmodeSet (g : Guard) (o : RR) : Op := guarded g none (asking (fun i => i.kvmode o))

/-- `KVMODE_SET` alone in its bundle. -/
def execKvmodeSet (g : Guard) (o : RR) (s : State) : Result := issueSolo (.s (.kvmodeSet g o)) (opKvmodeSet g o) s

/-- KVMODE, operation 1. -/
def opKvmodeGet (g : Guard) (o : RR) : Op := guarded g none (asking (fun i => i.kvmode o))

/-- `KVMODE_GET` alone in its bundle. -/
def execKvmodeGet (g : Guard) (o : RR) (s : State) : Result := issueSolo (.s (.kvmodeGet g o)) (opKvmodeGet g o) s

/-- KVMODE, operation 2. -/
def opKvmodeSpec (g : Guard) (o : RR) : Op := guarded g none (asking (fun i => i.kvmode o))

/-- `KVMODE_SPEC` alone in its bundle. -/
def execKvmodeSpec (g : Guard) (o : RR) (s : State) : Result := issueSolo (.s (.kvmodeSpec g o)) (opKvmodeSpec g o) s

/-- KVMODE, operation 3. -/
def opKvmodeQuery (g : Guard) (o : RR) : Op := guarded g none (asking (fun i => i.kvmode o))

/-- `KVMODE_QUERY` alone in its bundle. -/
def execKvmodeQuery (g : Guard) (o : RR) (s : State) : Result := issueSolo (.s (.kvmodeQuery g o)) (opKvmodeQuery g o) s

/-- The recorder grants a run of 16 slots (R417). -/
def execSlotRunGrant (core : Nat) (s : State) : Result := s.slotGrant core

/-- A void record is written (R417). -/
def execVoidRecordWrite (idx : Nat) (s : State) : Result := s.voidWrite idx

/-- The service polls an idle sampling block, or a block is registered or withdrawn (R474). -/
def execSamplingPoll (ev : SampleEv) (s : State) : Result := s.samplingPoll ev

/-- A phase of a sampling block (R420, R474). -/
def execSamplingPhase (i : Nat) (s : State) : Result := s.samplingPhase i

/-- A commit copies its next block (R425). -/
def execKvCompactionCopy (i : Nat) (s : State) : Result := s.compact i

/-- A commit's destinations become plain (R425). -/
def execKvCommitPoint (i : Nat) (s : State) : Result := s.commitPoint i

/-- The Sweeper dispatches a job (R429). -/
def execSweeperDispatch (s : State) : Result := s.dispatch

/-- A job's kernel has completed (R429). -/
def execSweeperJobComplete (i : Nat) (s : State) : Result := s.jobComplete i

/-- A job's kernel has been aborted (R429). -/
def execSweeperJobAbort (i : Nat) (s : State) : Result := s.jobAbort i


end Sys2Proof.Machine
end

