-- ==== Sys2Proof/Machine/EngineEvents.lean ====
section
/-! DEFINITION. The events of commands in flight (08_transfer.md R224, R225, R232, R237 to R245; 09_memory_model.md R257, R264;
13_inflight_record.md R318, R322): blocks confirmed, completion, errors, faults and their end, atomics at their home, releases, fences. -/

namespace Sys2Proof.Machine

/-! ### The next step of a command -/

/-- Nothing is left of a near-memory command but its end. -/
def State.nmOver (s : State) (n : Nat) (e : IfrEntry) : Bool :=
  e.rejected || s.foreign e || (s.nmKnown n e).isSome || decide (e.nm.groups ≤ e.prog / 64) ||
    (match s.nmExamine n e.nm with | .reject _ => true | _ => false)

/-- The next step of entry `k` of core `n`. -/
def State.engNext (s : State) (n k : Nat) (e : IfrEntry) : EngOut :=
  match e.kind with
  | 2 => s.amoStep n k e
  | 8 => s.relStep n k e
  | 9 => if s.nmOver n e then s.nmEnd n k e else s.nmStep n k e false
  | 11 => s.trrStep n k e
  | 12 => s.jobStep n k e
  | _ => if e.copies then (if e.total ≤ e.prog then s.completeStep n k e else s.copyStep n k e) else .hold

/-- A drain from the accumulators, whose only mark is its end, goes on during a save, and with it the commands that a fence before it waits
for (13_inflight_record.md R329). -/
def Core.drains (c : Core) (e : IfrEntry) : Bool :=
  c.commands.any (fun d => d.2.kind = 6 && !d.2.ended && (d.2.seq = e.seq || (!c.released d.2 && seqBefore e.seq d.2.seq)))

/-- A command of a core goes on: its part runs, freezes or is frozen; from the beginning of a save the commands stand at their marks
(12_context.md R302). -/
def State.partWorks (s : State) (n : Nat) (e : IfrEntry) : Bool :=
  isKiosk n || (match (s.ctx (s.core n).ctx).part (quarterOf n) with
    | .running | .freezing | .frozen => true
    | .saving => (s.core n).drains e
    | _ => false)

/-- The entry's command is at work: allocated, neither ended nor answered, released by its fences, its core's record sent again after
a restore, nothing sent again before it that must come first (R326, R330, R331). Entries 96 to 99 hold requests: of them only an atomic
stands here. -/
def State.working (s : State) (n k : Nat) : Option IfrEntry :=
  let c := s.core n
  match c.entry k with
  | none => none
  | some e =>
    if e.ended || e.ans || !c.released e || c.replay || (decide (96 ≤ k) && e.kind ≠ 2) || !s.partWorks n e || c.replayBars e.seq e.spans || (!e.rpl && c.replayFirst) then none
    else some e

/-- The near-memory unit of the stack a command works on, for the fault buffer. -/
def State.nmSrc (s : State) (n : Nat) (e : IfrEntry) : Nat :=
  match s.nmExamine n e.nm with
  | .stack h => 0x302 + h
  | _ =>
    match translate s (tuOf n) (s.core n).ctx e.nm.bw permNM with
    | .ok pa _ => 0x302 + homeOf pa
    | _ => 0x302

/-- SRC of a command's page fault (11_page.md R290 Table 4). -/
def State.engSrc (s : State) (n : Nat) (e : IfrEntry) : Nat :=
  match e.kind with
  | 9 => s.nmSrc n e
  | 11 => 0x300
  | 12 => 0x301
  | _ => srcOf n

/-- An event of a command: its step, or the page fault that makes it wait, posted once a wait (R225, R289); ENGINE_RESUME ends the wait. -/
def State.engEvent (s : State) (n k : Nat) (e : IfrEntry) (row : String) (o : EngOut) : Result :=
  if e.posted.isSome then .fault (.eventCannotArise row) else
  match o with
  | .done t => .next (t.entrySent n k (s.entryHome n e))
  | .absent va kd need write =>
    if 96 ≤ k then .fault (.eventCannotArise row) else
    .next ((s.postFault ⟨va, (s.core n).ctx, kd, s.engSrc n e, need + (if write then 2 ^ 15 else 0), k⟩).updEntry n k
      (fun e => { e with posted := some (pageOf va) }))
  | .outside va => .next (s.abortFrom n (s.engSrc n e) va)
  | .bad pa => .fault (.noFrame pa)
  | .hold => .fault (.eventCannotArise row)
  | .fail _ _ => .fault (.eventCannotArise row)

/-- An event of the commands that `want` names. -/
def State.engRow (s : State) (n k : Nat) (row : String) (want : IfrEntry → Bool) : Result :=
  match s.working n k with
  | some e => if want e then s.engEvent n k e row (s.engNext n k e) else .fault (.eventCannotArise row)
  | none => .fault (.eventCannotArise row)

/-! ### Errors, and the end of a wait -/

/-- COMMAND_END_ERROR (R225): the command ends at its mark with the cause that its next step meets. -/
def State.endError (s : State) (n k cause : Nat) : Result :=
  let no : Result := .fault (.eventCannotArise "COMMAND_END_ERROR")
  match s.working n k with
  | none => no
  | some e =>
    if 96 ≤ k then no else
    match s.engNext n k e with
    | .fail va c =>
      if c ≠ cause then no
      else if e.kind = 9 ∧ c ≠ 0x14 then .next (s.updEntry n k (fun e => { e with rejected := true }))
      else
        let s := s.tileChange n k e Tile.fail
        let s := if e.kind = 8 then s.upd n (fun c => c.dropRelblk ((BitVec.ofNat 64 (e.field 0 8) : W64).toNat / 64 * 64)) else s
        .next (s.report n k cause va)
    | _ => no

/-- ENGINE_RESUME (R225): the page waited for is present again; the command may meet another that is not. -/
def State.engResume (s : State) (n k : Nat) : Result :=
  let no : Result := .fault (.eventCannotArise "ENGINE_RESUME")
  match s.working n k with
  | none => no
  | some e =>
    match e.posted with
    | none => no
    | some p =>
      let go : Result := .next (s.updEntry n k (fun e => { e with posted := none }))
      match s.engNext n k e with
      | .absent va _ _ _ => if pageOf va = p then no else go
      | _ => go

/-! ### Requests and answers -/

/-- The wait of slot `k - 96` of core `n`'s held bundle for a unit that answers without an entry is over. -/
def State.answerCame (s : State) (n k : Nat) : State :=
  s.upd n (fun c => { c with slow := c.slow &&& ~~~ BitVec.ofNat 4 (2 ^ (k - 96)) })

/-- An answer of the home stands in request entry `k` of core `n` until the bundle issues (R320), with the time it was read at. -/
def State.answerRead (s : State) (n k line : Nat) (v : W64) : State :=
  let t := (s.core n).clk
  (s.answer n k v).updEntry n k (fun e => { e with ts := t, payload := [line] })

/-- An answer without a value: the bundle reads as it issues. -/
def State.answerBare (s : State) (n k : Nat) : State := (s.answer n k 0).updEntry n k (fun e => { e with rejected := true })

/-- The home answers the held request of entry 96 to 99 of kind 1 (R320): a read of up to 8 bytes, a block's tag for a size of 64, a page
entry for a size of 0. The 128 bytes of an XRLD have no place in RESULT, and a poisoned block has no value. A request that a resume has
sent again comes after earlier ones that are still to be performed on its bytes (R331). -/
def State.requestRead (s : State) (n k : Nat) (e : IfrEntry) : Result :=
  let no : Result := .fault (.eventCannotArise "REQUEST_ANSWER")
  let va : W64 := BitVec.ofNat 64 (e.field 0 8)
  let size := e.field 8 1
  if e.kind ≠ 1 ∨ e.ans ∨ (size ≠ 0 ∧ size ≠ 128 ∧ (s.core n).replayBars e.seq [(va.toNat, size)]) then no
  else if size = 0 then let (v, s) := s.probe va; .next (s.answerRead n k 0 v)
  else if size = 128 then .next (s.answerBare n k)
  else
    match s.engineAt n va 0 false with
    | .go pa =>
      let x := (s.core n).ctx
      let ((v, t), s') := s.homeLoad n (if size = 64 then pa / 64 * 64 else pa) (if size = 64 then 1 else size)
      let s' := s'.readMark n x va (pa / 64)
      if poisoned t ∧ size ≠ 64 then .next (s.answerBare n k)
      else .next (s'.answerRead n k (pa / 64) (if size = 64 then t.setWidth 64 else BitVec.ofNat 64 v))
    | .hold => no
    | _ => .next (s.answerBare n k)

/-- REQUEST_ANSWER (R318, R320): the answer to a command frees its entry; the answer to a held request stands in it; the answer of a unit
of the I/O die, which has no entry, lets the held bundle go on (02_core.md R30). -/
def State.requestAnswer (s : State) (n k : Nat) : Result :=
  let no : Result := .fault (.eventCannotArise "REQUEST_ANSWER")
  let c := s.core n
  match c.entry k with
  | none => if 96 ≤ k ∧ k < 100 ∧ c.heldBundle ∧ c.run = .running ∧ c.slow.getLsbD (k - 96) then .next (s.answerCame n k) else no
  | some e =>
    if c.replay then no
    else if k < 96 then (if e.ans && !e.ended then .next ((if e.copies then s.tileDone n k e else s).freeCommand n k) else no)
    else s.requestRead n k e

/-- ATOMIC_AT_HOME (R264, R322). -/
def State.atomicAtHome (s : State) (n k : Nat) : Result := s.engRow n k "ATOMIC_AT_HOME" (fun e => e.kind = 2)

/-! ### Sends and fences -/

/-- SEND_LAND (R232): a payload whose 12 cycles have passed, the first of its channel. -/
def State.sendLand (s : State) (n k : Nat) : Result :=
  match s.sends.find? (fun x => x.src = n && x.entry = k) with
  | none => .fault (.eventCannotArise "SEND_LAND")
  | some x =>
    if x.land ≤ s.now ∧ firstSend (s.sends.filter (fun y => y.dst = x.dst && y.chan = x.chan)) = some x then .next (s.landSend x)
    else .fault (.eventCannotArise "SEND_LAND")

/-- The fences of a core whose conditions hold are over, and the commands they held start (R237, R245, R326). What its engines have
written is then performed for the core too: its loads are ordered after those writes, and no older copy answers them (R262, R264, R265). -/
def Core.clearFences (c : Core) : Core :=
  { c with
    clk := if (c.fenceX && c.allPerformed c.fseq) || (c.fenceN && c.allNmDone c.fseqN) then max c.clk c.wts else c.clk
    fenceX := c.fenceX && !c.allPerformed c.fseq
    fenceN := c.fenceN && !c.allNmDone c.fseqN
    ifr := c.ifr.map (fun e => (e.1, { e.2 with waitX := e.2.waitX && !c.allPerformed e.2.wseq, waitN := e.2.waitN && !c.allNmDone e.2.wseqN })) }

/-- FENCE_CLEAR. -/
def State.fenceClear (s : State) (n : Nat) : Result :=
  let c := s.core n
  let d := c.clearFences
  if c = d then .fault (.eventCannotArise "FENCE_CLEAR") else .next (s.setCore n d)

/-! ### Near-memory commands -/

/-- NM_GROUP (R242, R243): the next group, with an uncorrectable error in a word it reads when `unc`. -/
def State.nmGroup (s : State) (n k : Nat) (unc : Bool) : Result :=
  let no : Result := .fault (.eventCannotArise "NM_GROUP")
  match s.working n k with
  | none => no
  | some e => if e.kind ≠ 9 ∨ s.nmOver n e then no else s.engEvent n k e "NM_GROUP" (s.nmStep n k e unc)

/-- The next block, row or stripe of a copying command is confirmed, or its page fault is posted (R224, R225). -/
def execEngineBlockConfirm (core : Nat) (entry : Nat) (s : State) : Result :=
  s.engRow core entry "ENGINE_BLOCK_CONFIRM" (fun e => e.copies && decide (e.prog < e.total))

/-- The page a command waits for is present (R225). -/
def execEngineResume (core : Nat) (entry : Nat) (s : State) : Result := s.engResume core entry

/-- All blocks are confirmed: the counter's add, then the tile's change (R224). -/
def execCommandComplete (core : Nat) (entry : Nat) (s : State) : Result :=
  s.engRow core entry "COMMAND_COMPLETE" (fun e => e.copies && decide (e.total ≤ e.prog))

/-- A command ends without completion (R225). -/
def execCommandEndError (core : Nat) (entry : Nat) (cause : Nat) (s : State) : Result := s.endError core entry cause

/-- An answer reaches the core (R318). -/
def execRequestAnswer (core : Nat) (entry : Nat) (s : State) : Result := s.requestAnswer core entry

/-- An atomic at its home (R264, R322). -/
def execAtomicAtHome (core : Nat) (entry : Nat) (s : State) : Result := s.atomicAtHome core entry

/-- A payload lands (R232). -/
def execSendLand (core : Nat) (entry : Nat) (s : State) : Result := s.sendLand core entry

/-- A release store is performed (R238). -/
def execXrelPerform (core : Nat) (entry : Nat) (s : State) : Result := s.engRow core entry "XREL_PERFORM" (fun e => e.kind = 8)

/-- Fences whose conditions hold are over (R237, R245). -/
def execFenceClear (core : Nat) (s : State) : Result := s.fenceClear core

/-- One group of 16 elements is performed or fails (R242, R243). -/
def execNmGroup (core : Nat) (entry : Nat) (unc : Bool) (s : State) : Result := s.nmGroup core entry unc

/-- A near-memory command ends (R243). -/
def execNmCommandEnd (core : Nat) (entry : Nat) (s : State) : Result :=
  s.engRow core entry "NM_COMMAND_END" (fun e => e.kind = 9 && s.nmOver core e)

/-- The recorder writes a trajectory record (20_generation.md R418). -/
def execTrrRecordWrite (core : Nat) (entry : Nat) (s : State) : Result := s.engRow core entry "TRR_RECORD_WRITE" (fun e => e.kind = 11)

/-- The Sweeper accepts a posted job, or discards a repeat (20_generation.md R429). -/
def execSweeperJobAccept (core : Nat) (entry : Nat) (s : State) : Result := s.engRow core entry "SWEEPER_JOB_ACCEPT" (fun e => e.kind = 12)


end Sys2Proof.Machine
end

