-- ==== Sys2Proof/Machine/Links.lean ====
section
/-! DEFINITION. Links (21_link.md R435 to R445): port events, flits that arrive, reduction trees, LKTREE and LKFREE. -/

namespace Sys2Proof.Machine

/-! ### Port events (R436 Table 1, R438) -/

/-- An event of port `p` in a state that `ok` admits. -/
def State.portEvent (s : State) (p : Nat) (row : String) (ok : PortSt → Bool) (f : State → State) : Result :=
  if p < 24 ∧ ok (s.port p).st then .next (f s) else .fault (.eventCannotArise row)

/-- Training has ended with a peer. -/
def State.trained (s : State) (p peer : Nat) (st : PortSt) : State :=
  s.setPort p { (s.port p).begin st s.now with peer := BitVec.ofNat 32 peer }

/-- Training fails: the port is down, RETRY gains 1. -/
def State.trainFailed (s : State) (p : Nat) : State :=
  s.setPort p { (s.port p).begin .down s.now with retry := min ((s.port p).retry + 1) 0xFFFF }

/-! ### Flits (R437, R439, R440) -/

/-- A block of a peer's bulk traffic, written at its home with LK permission, in the order in which the port delivers it; one that asks for
it, after every earlier write. Where the page does not let it in, the peer is told, and its stream ends (R440, R446). -/
def State.bulkWrite (s : State) (p : Nat) (f : Flit) : State :=
  if f.va.toNat % 64 ≠ 0 then s.sendControl p .stop f.num else
  match s.placeAt f.ctx (s.svUnit f.ctx) none f.va permLK true with
  | .go pa =>
    let (s, ts) := s.writeTime (if f.rel then s.latest else (s.port p).rxTime) (globalLine pa)
    (s.putBlock pa f.data f.tag).setPort p { s.port p with rxTime := ts }
  | _ => s.sendControl p .stop f.num

/-- A control message has arrived: a slot is released (R445), or the peer has ended a stream. Reservations and their answers are the
TREE_RESERVE rows. -/
def State.controlCame (s : State) (p : Nat) (f : Flit) : State :=
  let kind := f.data.toNat % 256
  if kind = Control.release.code then s.freeTree f.num
  else if kind = Control.stop.code then
    { s with streams := s.streams.map (fun t => if t.fn = f.num ∧ t.peer = (s.port p).peer then { t with lost := true } else t) }
  else s

/-- A flit arrives: one whose CRC fails is not delivered, and one that is not the next of its channel has been or will be (R437). Channel 3
writes a block; what channels 1 and 2 bring feeds the trees' chunk operations (CHUNK_OP). -/
def State.flitCame (s : State) (p : Nat) (f : Flit) : State :=
  let v := s.port p
  if f.crc ≠ Config.flitCrc f.vc f.num f.seq f.data ∨ f.seq ≠ Tbl.get 0 v.rxSeq f.vc then s
  else
    let s := s.setPort p { v with rxSeq := Tbl.set 0 v.rxSeq f.vc (f.seq + 1) }
    if f.vc = 3 then s.bulkWrite p f else if f.vc = 0 then s.controlCame p f else s

/-- FLIT_RECEIVE: what happens at channel `c` of a working port; `x`, `va`, `d` and `tag` are what an arriving flit carries. A flit asked for
again is sent from the port's copy. Once too many have been, the port does nothing before it trains anew. -/
def State.linkEvent (s : State) (p c x : Nat) (va : BitVec 64) (d : BitVec 512) (tag : BitVec 16) (e : LinkEv) : Result :=
  let no : Result := .fault (.eventCannotArise "FLIT_RECEIVE")
  let v := s.port p
  if 24 ≤ p ∨ !v.st.works ∨ v.exceeded then no else
  match e with
  | .arrives num q crc rel => if c < 4 then .next (s.flitCame p ⟨c, num, q, crc, d, x, va, tag, rel⟩) else no
  | .leaves => match v.send with | some v => .next (s.setPort p v) | none => no
  | .acked q => .next (s.setPort p { v with unacked := v.unacked.filter (fun f => f.vc ≠ c || decide (2 ^ 31 ≤ (q - f.seq).toNat)), ackAt := s.now })
  | .again q =>
    if v.unacked.any (fun f => f.vc = c && f.seq = q) then
      .next (s.setPort p { v with rtx := v.rtx + 1, flits := v.flits + 1, again := v.flits :: v.again.filter (fun k => v.flits < k + 2 ^ 20) })
    else no
  | .credit n => if c < 4 then .next (s.setPort p { v with credits := Tbl.set 0 v.credits c (Tbl.get 0 v.credits c + n) }) else no

/-! ### Reservations (R442) -/

/-- An entry of a topology descriptor (R441 Table 4). -/
def TreeEntry.ofBits (b : Nat) : TreeEntry :=
  ⟨BitVec.ofNat 32 b, b / 2 ^ 32 % 2 ^ 16, b / 2 ^ 48 % 2 ^ 8, b / 2 ^ 56 % 2 ^ 8, b / 2 ^ 64 % 2 ^ 16⟩

/-- The first entry from index `i` on that names a port of this device which neither stands up nor degraded: an entry's own UPORT,
or the DPORT of its parent. -/
def State.portShut (s : State) (all : List TreeEntry) : Nat → List TreeEntry → Option Nat
  | _, [] => none
  | i, e :: t =>
    let ok (p : Nat) : Bool := decide (p < 24) && (s.port p).st.works
    let up := i = 0 || e.dev ≠ s.fabric || ok e.uport
    let dn := i = 0 || (match all[e.parent]? with | some q => decide (q.dev ≠ s.fabric) || ok e.dport | none => true)
    if up && dn then s.portShut all (i + 1) t else some i

/-- The result word of LKTREE and LKFREE (R445). -/
def linkResult (slot status idx : Nat) : W64 := BitVec.ofNat 64 (slot + status * 2 ^ 8 + idx * 2 ^ 16)

/-- The answer reaches the bundle that waits for it; an unattended request is over. -/
def State.treeAnswer (s : State) (i : Nat) (r : TreeReq) (w : W64) : State :=
  let s := { s with treeReqs := s.treeReqs.eraseIdx i }
  if r.wanted then { s with answers := Tbl.set none s.answers r.key (some w) } else s

/-- The lowest tree slot free here and on the other devices, whose free slots are `others`. -/
def State.lowestFree (s : State) (others : BitVec 64) : Option Nat := (List.range 64).find? (fun k => decide ((s.treeAt k).st = .free) && others.getLsbD k)

/-- TREE_RESERVE: the lowest slot free on every device is reserved for the oldest LKTREE of this device without one, and the other devices
are asked for it; or a peer asks for slot `k` over a port, and is answered at once: granted where the slot is free, else refused, which
changes nothing. -/
def State.reserveTree (s : State) (k : Nat) (ask : TreeAsk) (t : Tree) : Result :=
  let no : Result := .fault (.eventCannotArise "TREE_RESERVE")
  if 64 ≤ k then no else
  match ask with
  | .peer p =>
    if 24 ≤ p ∨ !(s.port p).st.works then no
    else if (s.treeAt k).st ≠ .free then .next (s.sendControl p .refuse k)
    else .next ((s.setTree k t).sendControl p .grant k)
  | .here others =>
    if s.lowestFree others ≠ some k then no else
    match firstIdx (fun (r : TreeReq) => r.slot = none) s.treeReqs 0 with
    | none => no
    | some (i, r) => .next (({ s with treeReqs := setNth s.treeReqs i { r with slot := some k } }.setTree k { r.tree with st := .reserved }).tellTree r.tree k .reserve)

/-- TREE_RESERVE_ANSWER: status 0 when every device has granted, 3 or 4 for a refusal at entry `idx`. A slot of 64 or more answers the
oldest LKTREE for which no slot was free on every device. -/
def State.reserveAnswer (s : State) (k status idx : Nat) : Result :=
  let no : Result := .fault (.eventCannotArise "TREE_RESERVE_ANSWER")
  if status ≠ 0 ∧ status ≠ 3 ∧ status ≠ 4 then no
  else if 64 ≤ k then
    match firstIdx (fun (r : TreeReq) => r.slot = none) s.treeReqs 0 with
    | some (i, r) => if status = 0 then no else .next (s.treeAnswer i r (linkResult 0 status (if status = 4 then idx else 0)))
    | none => no
  else
    let t := s.tree k
    if t.st ≠ .reserved then no else
    let shut := s.portShut t.ents 0 t.ents
    let (status, idx) := if status = 0 ∧ shut.isSome then (4, shut.getD 0) else (status, idx)
    let s := s.setTree k (if status = 0 then { t with st := .allocated } else .free)
    let s := if status = 0 then s else s.tellTree t k .release
    match firstIdx (fun (r : TreeReq) => r.slot = some k) s.treeReqs 0 with
    | some (i, r) => .next (s.treeAnswer i r (if status = 0 then linkResult k 0 0 else linkResult 0 status (if status = 4 then idx else 0)))
    | none => .next s

/-! ### LKTREE and LKFREE (R444, R445) -/

/-- The first index of a list that fails a test. -/
def firstBad {α : Type} (bad : Nat → α → Bool) : Nat → List α → Option Nat
  | _, [] => none
  | i, x :: t => if bad i x then some i else firstBad bad (i + 1) t

/-- Status and failing entry of a descriptor of this device (R445 Table 6), before any other device is asked. `head` is its first
block, `raw` its entries. -/
def State.descriptorStatus (s : State) (head : Nat) (raw : List Nat) : Option (Nat × Nat) :=
  let mode := head / 2 ^ 16 % 2 ^ 8
  let fmt := head / 2 ^ 24 % 2 ^ 8
  let es := raw.map TreeEntry.ofBits
  if head / 2 ^ 32 % 2 ^ 480 ≠ 0 ∨ 3 ≤ mode ∨ (mode ≠ 2 ∧ fmt ≠ 0x01 ∧ fmt ≠ 0x02 ∧ fmt ≠ 0x06) then some (1, 0) else
  match firstBad (fun i b => decide (b / 2 ^ 80 ≠ 0) || (decide (i ≠ 0) && decide (b / 2 ^ 32 % 2 ^ 16 = 0xFFFF))) 0 raw with
  | some i => some (1, i)
  | none =>
    match firstBad (fun i (e : TreeEntry) => decide (e.parent ≠ 0xFFFF) && decide (i ≤ e.parent)) 0 es with
    | some i => some (2, i)
    | none =>
      match firstBad (fun i (e : TreeEntry) => (es.take i).any (fun f => f.dev = e.dev)) 0 es with
      | some i => some (5, i)
      | none =>
        if !es.any (fun e => e.dev = s.fabric) then some (6, 0) else
        match s.portShut es 0 es with
        | some i => some (4, i)
        | none => if (List.range 64).any (fun k => (s.treeAt k).st = .free) then none else some (3, 0)

/-- LKTREE. -/
def Issue.lktree (i : Issue) (o : RR) : Except Stop Issue := do
  let (va, y, i) ← i.rrG o
  let x := y.toNat
  let key := 4 * i.n + i.slot
  if va.toNat % 64 ≠ 0 ∨ 64 ≤ x ∨ (i.s.ctx x).st = .free ∨ (i.s.ctx x).st = .dead then illegalOperand else
  match Tbl.get none i.s.answers key with
  | some w => .ok ({ i with s := { i.s with answers := Tbl.set none i.s.answers key none } }.resultG o.d.toNat w 4)
  | none =>
    if i.s.treeReqs.any (fun r => r.wanted && r.key = key) then .error .wait else
    let done (i : Issue) (st idx : Nat) : Except Stop Issue := .ok (i.resultG o.d.toNat (linkResult 0 st idx) 4)
    let (h, i) ← i.commitBlocks va 1
    let head := blocksVal h
    let n := head % 2 ^ 16
    if n < 2 ∨ 256 < n then done i 1 0 else
    let (l, i) ← i.commitBlocks va ((64 + 16 * n + 63) / 64)
    let v := blocksVal l
    let raw := (List.range n).map (fun j => v / 2 ^ (512 + 128 * j) % 2 ^ 128)
    match i.s.descriptorStatus head raw with
    | some (st, idx) => done i st idx
    | none =>
      let t : Tree := ⟨.free, x, head / 2 ^ 16 % 2 ^ 8, head / 2 ^ 24 % 2 ^ 8, raw.map TreeEntry.ofBits, false, false⟩
      .error (.freeze (fun s => { s with treeReqs := s.treeReqs ++ [⟨key, true, t, none⟩] }))

/-- LKFREE: with CHK the slot's state, else the tree ends on this device, and on the others by control messages (R443, R445). -/
def Issue.lkfree (i : Issue) (o : RR) : Except Stop Issue := do
  let (x, i) ← i.rrG1 o
  if o.s2 ≠ 0 ∨ Nat.land x.toNat 0x13F ≠ x.toNat then illegalOperand else
  let k := bits x.toNat 5 0
  let t := i.s.treeAt k
  let done (i : Issue) (st : Nat) : Except Stop Issue := .ok (i.resultG o.d.toNat (linkResult k st 0) 4)
  if t.st ≠ .allocated then done i 8
  else if t.ctx ≠ i.ctxNo then done i 7
  else if x.getLsbD 8 then done i 0
  else done { i with s := (i.s.freeTree k).tellTree t k .release } 0

/-- LKTREE (R444, R445). -/
def opLktree (g : Guard) (o : RR) : Op := guarded g none (unrecorded (fun i => i.lktree o))

/-- `LKTREE` alone in its bundle. -/
def execLktree (g : Guard) (o : RR) (s : State) : Result := issueSolo (.s (.lktree g o)) (opLktree g o) s

/-- LKFREE (R445). -/
def opLkfree (g : Guard) (o : RR) : Op := guarded g none (asking (fun i => i.lkfree o))

/-- `LKFREE` alone in its bundle. -/
def execLkfree (g : Guard) (o : RR) (s : State) : Result := issueSolo (.s (.lkfree g o)) (opLkfree g o) s

/-- LKFREE (R445), the check of a slot; CHK of the register chooses the form. -/
def opLkfreeCheck (g : Guard) (o : RR) : Op := guarded g none (asking (fun i => i.lkfree o))

/-- `LKFREE_CHECK` alone in its bundle. -/
def execLkfreeCheck (g : Guard) (o : RR) (s : State) : Result := issueSolo (.s (.lkfreeCheck g o)) (opLkfreeCheck g o) s

/-- Enable (R436); ignored unless the port is down. -/
def execPortEnable (port : Nat) (s : State) : Result := s.portEvent port "PORT_ENABLE" (fun _ => true) (fun s => s.portEnable port)

/-- Disable (R436). -/
def execPortDisable (port : Nat) (s : State) : Result := s.portEvent port "PORT_DISABLE" (fun _ => true) (fun s => s.portDisable port)

/-- RTRN forces training from up or degraded (R438). -/
def execPortRetrain (port : Nat) (s : State) : Result := s.portEvent port "PORT_RETRAIN" (fun _ => true) (fun s => s.portRetrain port)

/-- Training ends with 8 good lanes (R436). -/
def execTrainingUp (port : Nat) (peer : Nat) (s : State) : Result :=
  s.portEvent port "TRAINING_UP" (fun st => st = .training) (fun s => s.trained port peer .up)

/-- Training ends with 4 to 7 good lanes (R436). -/
def execTrainingDegraded (port : Nat) (peer : Nat) (s : State) : Result :=
  s.portEvent port "TRAINING_DEGRADED" (fun st => st = .training) (fun s => s.trained port peer .degraded)

/-- Training fails (R436). -/
def execTrainingFails (port : Nat) (s : State) : Result :=
  s.portEvent port "TRAINING_FAILS" (fun st => st = .training) (fun s => s.trainFailed port)

/-- More than 16 retransmissions among 2^20 flits (R436). -/
def execErrorRateExceeded (port : Nat) (s : State) : Result :=
  s.portEvent port "ERROR_RATE_EXCEEDED" (fun st => st.works && (s.port port).exceeded) (fun s => s.portRetrain port)

/-- No acknowledgement for 2^20 cycles (R436); ignored while down. -/
def execPeerLost (port : Nat) (s : State) : Result :=
  s.portEvent port "PEER_LOST" (fun st => st = .down || decide ((s.port port).ackAt + 2 ^ 20 ≤ s.now)) (fun s => s.portDown port)

/-- A flit arrives, or leaves and is acknowledged or sent again (R437, R439). -/
def execFlitReceive (port vc ctx : Nat) (va : BitVec 64) (data : BitVec 512) (tag : BitVec 16) (ev : LinkEv) (s : State) : Result :=
  s.linkEvent port vc ctx va data tag ev

/-- A read of the status word clears RTX (R438). -/
def execPortStatusRead (port : Nat) (s : State) : Result :=
  s.portEvent port "PORT_STATUS_READ" (fun _ => true) (fun s => s.setPort port { s.port port with rtx := 0 })

/-- A tree slot is reserved (R442). -/
def execTreeReserve (slot : Nat) (ask : TreeAsk) (ctx mode fmt : Nat) (ents : List (BitVec 128)) (s : State) : Result :=
  s.reserveTree slot ask ⟨.reserved, ctx, mode, fmt, ents.map (fun b => TreeEntry.ofBits b.toNat), false, false⟩

/-- The devices of a tree have answered (R442). -/
def execTreeReserveAnswer (slot : Nat) (status : Nat) (idx : Nat) (s : State) : Result := s.reserveAnswer slot status idx


end Sys2Proof.Machine
end

