-- ==== Sys2Proof/Machine/HostPort.lean ====
section
/-! DEFINITION. The host port (21_link.md R446 to R448): register page, doorbell, commands and their completions, streams, the loading
and scrubbing of contexts (12_context.md R298 to R300), host accesses to device memory. -/

namespace Sys2Proof.Machine

/-! ### Functions, rings and completions (R447, R448) -/

def State.fn (s : State) (f : Nat) : HostFn := Tbl.get .reset s.fns f
def State.setFn (s : State) (f : Nat) (v : HostFn) : State := { s with fns := Tbl.set .reset s.fns f v }

/-- Field of a command: `n` bytes from byte `off`. -/
def cmdField (c : BitVec 512) (off n : Nat) : Nat := c.toNat / 2 ^ (8 * off) % 2 ^ (8 * n)
/-- Operand k of a command that the manual only lists: the n64 words from byte 8 (log entry 35). -/
def cmdWord (c : BitVec 512) (k : Nat) : W64 := BitVec.ofNat 64 (cmdField c (8 + 8 * k) 8)
def cmdOpc (c : BitVec 512) : Nat := cmdField c 0 1
def cmdCtx (c : BitVec 512) : Nat := cmdField c 1 1

/-- A completion entry is written: TAG, STATUS and ARG at the next place of the completion ring, and RPUT rises. DESIGN CHOICE (log entry
100): a QENT that is not a power of two from 16 to 4096 is stored as it is, and the place is RPUT modulo QENT, modulo 1 where it is 0. -/
def State.complete (s : State) (f : Nat) (cmd : BitVec 512) (status arg : Nat) : State :=
  let v := s.fn f
  let at' := v.rqbase.toNat + 16 * (v.rput.toNat % max 1 v.qent.toNat)
  let s := { s with hostMem := s.hostMem.write at' 16 (cmdField cmd 2 2 + status * 2 ^ 16 + arg % 2 ^ 64 * 2 ^ 64) }
  s.setFn f { v with rput := v.rput + 1, busy := none, posted := none }

/-- Where entry `k` of the command ring lies in host memory; QENT as in `State.complete`. -/
def HostFn.cmdAt (v : HostFn) (k : Nat) : Nat := v.cqbase.toNat + 64 * (k % max 1 v.qent.toNat)

/-- The command that function `f` has next, read from its ring (R448); none where it has taken every command written. -/
def State.nextCmd (s : State) (f : Nat) : Option (BitVec 512) :=
  let v := s.fn f
  if v.taken = v.cput then none else some (BitVec.ofNat 512 (s.hostMem.read (v.cmdAt v.taken.toNat) 64))

/-- The host writes commands into its ring from entry `k` on. -/
def HostFn.ringWrite (v : HostFn) : Nat → List (BitVec 512) → Memory → Memory
  | _, [], m => m
  | k, c :: t, m => v.ringWrite (k + 1) t (m.write (v.cmdAt k) 64 c.toNat)

/-- HOST_DOORBELL: the host has written commands into its ring, and CPUT rises to `put` (R448). -/
def State.doorbell (s : State) (f put : Nat) (cmds : List (BitVec 512)) : Result :=
  let v := s.fn f
  if 16 ≤ f ∨ s.root.fail ∨ cmds.length ≠ (put + 2 ^ 32 - v.cput.toNat) % 2 ^ 32 ∨ v.qent.toNat < cmds.length then
    .fault (.eventCannotArise "HOST_DOORBELL")
  else .next ({ s with hostMem := v.ringWrite v.cput.toNat cmds s.hostMem }.setFn f { v with cput := BitVec.ofNat 32 put })

/-- HOST_REG_WRITE: a field without behaviour of its own is set; read-only fields and what a virtual function does not have ignore it
(R448 Table 7; 22_reliability.md R458 Table 3). The doorbell and AREQ are rows of their own. DESIGN CHOICE (log entry 100): the spec
only says that CQBASE, RQBASE and ADST are 4 KiB aligned; a write sets their bits 63:12 and clears bits 11:0. DESIGN CHOICE (log entry
119): the width of a host access is not stated; a field is accessed whole at its own offset, ANONCE with all its 256 bits, and a write at
any other offset, one inside a field too, does nothing. DESIGN CHOICE (log entry 37): the spec gives the physical function no register for
the number of contexts a virtual function may create; a write by function 0 at 4096 + 8k sets that of function k. -/
def State.hostReg (s : State) (f off : Nat) (val : BitVec 256) : Result :=
  let v := s.fn f
  let no : Result := .fault (.eventCannotArise "HOST_REG_WRITE")
  let set (v : HostFn) : Result := .next (s.setFn f v)
  let k := (off - 4096) / 8
  if f = 0 ∧ 4096 < off ∧ off % 8 = 0 ∧ k < 16 then .next (s.setFn k { s.fn k with quota := val.toNat })
  else if 16 ≤ f ∨ 4096 ≤ off ∨ off = 0x18 ∨ off = 0x120 then no
  else if s.root.fail ∧ (f ≠ 0 ∨ off < 0x100) then .next s
  else match off with
    | 0x000 => set { v with cqbase := BitVec.ofNat 64 (bits val.toNat 63 12 * 2 ^ 12) }
    | 0x008 => set { v with rqbase := BitVec.ofNat 64 (bits val.toNat 63 12 * 2 ^ 12) }
    | 0x010 => set { v with qent := val.setWidth 16 }
    | 0x020 => set { v with rget := val.setWidth 32 }
    | 0x100 => if f = 0 then .next { s with root := { s.root with anonce := val } } else .next s
    | 0x128 => if f = 0 then .next { s with root := { s.root with adst := BitVec.ofNat 64 (bits val.toNat 63 12 * 2 ^ 12) } } else .next s
    | _ => .next s

/-- What a host read at offset `off` of the register page of function `f` returns, by Table 1 of 00_scope.md: a write-only field reads as
zero, and a virtual function reads the attestation and status words as zero (R448 Table 7; 22_reliability.md R458 Table 3). A read
changes nothing. DESIGN CHOICE (log entry 119): a field is read whole at its own offset, and a read at any other offset, one inside a
field too, returns zero. -/
def State.hostRegRead (s : State) (f off : Nat) : Nat :=
  let v := s.fn f
  let r := s.root
  if r.fail ∧ (f ≠ 0 ∨ off < 0x100) then 0
  else match off with
    | 0x000 => v.cqbase.toNat
    | 0x008 => v.rqbase.toNat
    | 0x010 => v.qent.toNat
    | 0x018 => 0
    | 0x01C => v.rput.toNat
    | 0x020 => v.rget.toNat
    | 0x100 => if f = 0 then r.anonce.toNat else 0
    | 0x120 => 0
    | 0x128 => if f = 0 then r.adst.toNat else 0
    | 0x130 => if f = 0 then r.astat.toNat else 0
    | 0x138 => if f = 0 then r.step.toNat + (if r.ready then 2 ^ 8 else 0) + (if r.fail then 2 ^ 9 else 0) else 0
    | _ => 0

/-- What a command asks for is done: a completion with status and argument, a command that goes on, or one that waits for a page. -/
inductive CmdOut where
  | done (s : State) (status : Nat)
  | goesOn (s : State)
  | wait (s : State) (page : Nat)
  | no

/-- Take the next command of function `f`: it heads the ring, its opcode satisfies `opc`, the device is ready, no command of the
function is in progress, and the completion ring has room. -/
def State.command (s : State) (f : Nat) (cmd : BitVec 512) (row : String) (opc : Nat → Bool) (k : State → CmdOut) : Result :=
  let v := s.fn f
  let no : Result := .fault (.eventCannotArise row)
  if 16 ≤ f ∨ !s.root.ready ∨ v.busy.isSome ∨ s.nextCmd f ≠ some cmd ∨ !opc (cmdOpc cmd) ∨ v.qent.toNat ≤ (v.rput - v.rget).toNat then no else
  let taken (s : State) : State := s.setFn f { s.fn f with taken := (s.fn f).taken + 1 }
  match k s with
  | .done s st => .next ((taken s).complete f cmd st 0)
  | .goesOn s => let s := taken s; .next (s.setFn f { s.fn f with busy := some cmd })
  | .wait s page => if v.posted = some page then no else .next (s.setFn f { s.fn f with posted := some page })
  | .no => no

/-- The context of a command: refused where it does not exist or the function did not create it (R447, R448). -/
def State.owned (s : State) (f : Nat) (cmd : BitVec 512) (k : Nat → Ctx → CmdOut) : CmdOut :=
  let x := cmdCtx cmd
  let c := s.ctx x
  if 64 ≤ x ∨ c.st = .free then .done s 2
  else if f ≠ 0 ∧ c.creator ≠ f then .done s 3
  else k x c

/-- The context takes work: it is ready or active. -/
def Ctx.works (c : Ctx) : Bool := c.st = .ready || c.st = .active

/-! ### CREATE and DESTROY (12_context.md R298 to R300) -/

/-- The descriptor's fields as CREATE carries them. -/
def ctxOfCmd (f : Nat) (cmd : BitVec 512) : Ctx :=
  { Ctx.none with
    st := .loading, own := BitVec.ofNat 16 (cmdField cmd 8 2), priv := decide (cmdField cmd 10 2 % 2 = 1), wsel := BitVec.ofNat 10 (cmdField cmd 12 2)
    ptbase := BitVec.ofNat 64 (cmdField cmd 16 8), savva := BitVec.ofNat 64 (cmdField cmd 24 8), savsz := BitVec.ofNat 64 (cmdField cmd 32 8)
    ccnt := BitVec.ofNat 64 (cmdField cmd 40 8), creator := f, tag := cmdField cmd 2 2 }

/-- The descriptor is well formed: the master table in first-tier memory, the save area and the counter in the window. Bits written to
reserved fields are ignored (00_scope.md R2). The place of a save area of no bytes is not judged (log entry 70). -/
def createOk (cmd : BitVec 512) : Bool :=
  let c := ctxOfCmd 0 cmd
  decide (c.ptbase.toNat % 2 ^ 19 = 0)
    && decide (homeOf c.ptbase.toNat < 12) && frameNamed (c.ptbase.toNat / 2 ^ 22)
    && decide (c.savva.toNat % 2 ^ 22 = 0) && decide (c.savsz.toNat % 2 ^ 22 = 0)
    && (decide (c.savsz = 0) || (inWindow c c.savva && inWindow c (c.savva + c.savsz - 1) && decide (c.savsz.toNat ≤ 2 ^ 38)))
    && decide (c.ccnt.toNat % 8 = 0) && (decide (c.ccnt = 0) || inWindow c c.ccnt)

/-- CREATE. A virtual function creates as many contexts as the physical function lets it (R447; log entry 37). A command of no opcode of Table 8 is refused as malformed in this row. -/
def State.create (s : State) (f : Nat) (cmd : BitVec 512) : CmdOut :=
  let x := cmdCtx cmd
  if cmdOpc cmd ≠ 1 then .done s 1
  else if 64 ≤ x ∨ !createOk cmd then .done s 1
  else if f ≠ 0 ∧ (ctxOfCmd f cmd).priv then .done s 3
  else if (s.ctx x).st ≠ .free then .done s 6
  else if f ≠ 0 ∧ (s.fn f).quota ≤ (s.ctxs.filter (fun c => c.2.creator = f && c.2.st ≠ .free)).length then .done s 5
  else .goesOn (s.setCtx x (ctxOfCmd f cmd))

/-- The command of some function that is in progress for context `x`, with opcode `opc`. -/
def State.busyWith (s : State) (x opc : Nat) : Option (Nat × BitVec 512) :=
  s.fns.findSome? (fun f => match f.2.busy with
    | some c => if cmdCtx c = x ∧ cmdOpc c = opc then some (f.1, c) else none
    | none => none)

/-- The completion of the command of opcode `opc` in progress for context `x`. -/
def State.completeFor (s : State) (x opc status : Nat) : State :=
  match s.busyWith x opc with
  | some (f, c) => s.complete f c status 0
  | none => s

/-- Loading makes the pages that the master table names replicated-locked take a row of the directory (11_page.md R284; log
entry 22). -/
def State.giveRows (s : State) (x : Nat) : List Nat → State
  | [] => s
  | p :: t =>
    let e := s.master x p
    if peState e = 3 then
      let (row, s) := s.takeRow x p
      State.giveRows (s.setMaster x p (peWithRidx e row)) x t
    else State.giveRows s x t

/-- Firmware starts a privileged context on idle kiosk cores, each at an address of the context's window: which cores, and where, is its
own (R299; log entry 101). -/
def State.startServices (s : State) (x : Nat) : List Nat → State
  | [] => s
  | m :: t =>
    let (b, s) := s.choose
    if b ∧ (s.core m).run = .idle then
      let (pc, s) := s.draw
      let (h, s) := s.draw
      let at' (v : W64) : W64 := BitVec.ofNat 64 (windowBase (s.ctx x) + v.toNat % 2 ^ 38 / 16 * 16)
      let c := { Core.idle with run := .running, ctx := x, pc := at' pc, hbase := BitVec.ofNat 44 ((at' h).toNat / 16), nextAt := s.now }
      State.startServices (s.setCore m c) x t
    else State.startServices s x t

/-- Firmware maps the device pages of a service into its window: the fault buffer and the error log for the fault and migration service,
the link page and the assignment in force for the fabric-management agent (01_device.md R16; 11_page.md R290; log entries 90 and 101). -/
def State.mapService (s : State) (x : Nat) : State :=
  let runs (service : Nat) : Bool := (List.range 16).any (fun k => nth 0 s.kiosk k = service && (s.core (512 + k)).ctx = x && (s.core (512 + k)).run = .running)
  let map (s : State) (a b : DevPage) : State :=
    let (p, s) := s.draw
    { s with devMap := ((x, p.toNat % 2 ^ 16), a) :: ((x, (p.toNat + 1) % 2 ^ 16), b) :: s.devMap }
  let s := if runs 2 then map s .fbuf .errlog else s
  if runs 3 then map s .links .fabric else s

/-- The context's key slot takes the key that the root of trust makes or unwraps (R304). -/
def State.installKey (s : State) (x : Nat) : State :=
  { s.updCtx x (fun c => { c with key := Config.contextKey s.keys }) with keys := s.keys + 1 }

/-- CONTEXT_LOAD_DONE: the master table stands in the translation copies, the key in the key slot, the context is ready; a privileged
one may start. -/
def State.loadDone (s : State) (x : Nat) : Result :=
  if (s.ctx x).st ≠ .loading then .fault (.eventCannotArise "CONTEXT_LOAD_DONE") else
  let s := s.giveRows x (listedPages s.mem.cells (s.ctx x).ptbase.toNat)
  let s := (List.range 32).foldl (fun s u => s.loadCopy u x) s
  let s := (s.installKey x).updCtx x (fun c => { c with st := .ready })
  let s := if (s.ctx x).priv then (s.startServices x ((List.range 16).map (· + 512))).mapService x else s
  .next (s.completeFor x 1 0)

/-- CONTEXT_LOAD_ERROR. -/
def State.loadError (s : State) (x : Nat) : Result :=
  if (s.ctx x).st ≠ .loading then .fault (.eventCannotArise "CONTEXT_LOAD_ERROR")
  else .next ((s.updCtx x (fun c => { c with st := .dead })).completeFor x 1 6)

/-- The cores of a context. -/
def State.coresOf (s : State) (x : Nat) : List Nat := (s.cores.filter (fun c => c.2.ctx = x && c.2.run ≠ .idle)).map (·.1)

/-- The kernels of a context that have not ended. -/
def State.openKernels (s : State) (x : Nat) : List Nat :=
  s.kernels.filterMap (fun k => match k.2 with | some v => if v.ctx = x && !v.completed then some k.1 else none | none => none)

/-- A core of a dead context stops at its bundle boundary. Its asynchronous commands run on (16_kernel.md R362); a record that has not
been sent since a restore goes with the part. -/
def Core.discard (c : Core) : Core :=
  if c.replay then { c.abortNow with ifr := [], replay := false } else c.abortNow

/-- The parts of a dead context stop and are discarded (R300 Table 2): its cores stop, its kernels are aborted (R362), the request in
progress is gone. Its groups leave with their retirement, the rest at the end of the scrub. -/
def State.discard (s : State) (x : Nat) : State :=
  let s := (s.coresOf x).foldl (fun s n => ((s.withdraw n).voidRun n).upd n Core.discard) s
  let s := (s.openKernels x).foldl (fun s k => s.abortNode k 0) s
  let ended (p : PartSt) : PartSt := match p with | .freezing | .saving => .frozen | .restoring => .saved | p => p
  s.updCtx x (fun c => { c with st := .dead, req := none, parts := c.parts.map (fun p => (p.1, ended p.2)) })

/-- DESTROY (R300 Table 2): its completion is written once the context has been scrubbed. -/
def State.destroy (s : State) (x : Nat) (c : Ctx) : CmdOut :=
  if c.st = .dead then .done s 6
  else .goesOn ((if c.st = .loading then s.completeFor x 1 6 else s).discard x)

/-- Flits of a stream that wait to leave are not sent. -/
def State.dropFlits (s : State) (t : Stream) : State :=
  { s with ports := s.ports.map (fun p => (p.1, { p.2 with out := p.2.out.filter (fun f => f.vc ≠ 3 || f.num ≠ t.fn) })) }

/-- A stream ends with status 7: its completion carries the offset reached. -/
def State.streamLost (s : State) (t : Stream) (off : Nat) : State :=
  let s := { s with streams := s.streams.filter (fun y => y.fn ≠ t.fn) }.dropFlits t
  match (s.fn t.fn).busy with
  | some c => s.complete t.fn c 7 off
  | none => s

/-- Streams of context `x` end with it, at the offset whose blocks have been sent. -/
def State.endStreams (s : State) (x : Nat) : State :=
  (s.streams.filter (fun t => t.ctx = x)).foldl (fun s t => s.streamLost t (min t.bytes (64 * t.step))) s

/-- Nothing of a dead context works any more: its groups have retired and the commands of its other cores have ended. -/
def State.over (s : State) (x : Nat) : Bool :=
  s.groups.all (fun g => match g.2 with | some v => decide (v.ctx ≠ x) || decide (v.st = .retired) | none => true)
    && (s.coresOf x).all (fun n => ((s.core n).run = .aborted || (s.core n).run = .dead || (s.core n).run = .halted)
      && (s.core n).commands.all (fun e => e.2.ended))

/-- SCRUB_DONE: every resource of a dead context is released, its translation copies and key slot are overwritten, the context is
free. -/
def State.scrubbed (s : State) (x : Nat) : Result :=
  if (s.ctx x).st ≠ .dead ∨ !s.over x then .fault (.eventCannotArise "SCRUB_DONE") else
  let ns := s.coresOf x
  let s := ns.foldl (fun s n => s.setCore n { Core.idle with nextAt := (s.core n).nextAt }) s
  let hs := s.cohorts.filterMap (fun h => match h.2 with | some v => if v.ctx = x then some h.1 else none | none => none)
  let s := (hs.foldl (fun s h => s.releaseSlots h) s).endStreams x
  let keepOf {α : Type} (f : α → Nat) (l : List (Nat × Option α)) : List (Nat × Option α) :=
    l.filter (fun e => match e.2 with | some v => f v ≠ x | none => true)
  let keep (e : TagEntry) : Bool := e.ctx ≠ x
  let s : State := { s with
    sends := s.sends.filter (fun y => !ns.contains y.src)
    groups := keepOf (fun (g : Group) => g.ctx) s.groups
    cohorts := keepOf (fun (h : Cohort) => h.ctx) s.cohorts
    kernels := keepOf (fun (k : Kernel) => k.ctx) s.kernels
    kvcommits := s.kvcommits.filter (fun c => c.ctx ≠ x)
    tickets := s.tickets.filter (fun t => t.1.1 ≠ x)
    sweeper := ⟨s.sweeper.jobs.filter (fun j => j.ctx ≠ x), s.sweeper.hiJid.filter (fun h => h.1.1 ≠ x)⟩
    samples := s.samples.filter (fun b => b.ctx ≠ x)
    voids := s.voids.filter (fun v => v.ctx ≠ x)
    leaves := s.leaves.filter (fun l => l.ctx ≠ x)
    xlate := s.xlate.filter (fun u => u.1 % 64 ≠ x)
    devMap := s.devMap.filter (fun d => d.1.1 ≠ x)
    dirs := s.dirs.filter (fun d => d.1 / 65536 ≠ x)
    kept := s.kept.filter (fun k => k.1 / 1024 ≠ x)
    fbuf := { s.fbuf with held := s.fbuf.held.filter (fun f => f.ctx ≠ x) }
    tags := ⟨(s.tags.tables.map (fun h => (h.1, h.2.filter keep))).filter (fun h => h.2 ≠ []), s.tags.evseq.filter (fun e => e.1.1 ≠ x)⟩
    pubs := s.pubs.filter (fun p => p.ctx ≠ x)
    preloads := s.preloads.filter (fun p => p.ctx ≠ x)
    trees := s.trees.filter (fun t => !(t.2.st = .allocated && t.2.ctx = x)) }
  .next ((s.setCtx x .none).completeFor x 2 0)

/-! ### Weight version table (19_weight_versions.md R397) -/

/-- The pages of a range of `n` pages. -/
def rangePages (base : W64) (n : Nat) : List Nat := (List.range n).map (fun j => pageOf base + j)

/-- A page range in the window. -/
def rangeIn (c : Ctx) (base : W64) (n : Nat) : Bool :=
  decide (base.toNat % 2 ^ 22 = 0) && inWindow c base && decide (pageOf base + n ≤ 2 ^ 16)

/-- Two ranges of `n` and `m` pages share no page. -/
def rangesApart (a : W64) (n : Nat) (b : W64) (m : Nat) : Bool := decide (a.toNat + n * 2 ^ 22 ≤ b.toNat) || decide (b.toNat + m * 2 ^ 22 ≤ a.toNat)

/-- The entry of a page changes in the master table and in every copy; held faults of the page are examined again (11_page.md R292). -/
def State.putEntry (s : State) (x p : Nat) (e : W64) : State :=
  ((List.range 32).foldl (fun s u => s.setEntry u x p e) (s.setMaster x p e)).reexamine x p

/-- A page becomes replicated-locked, with a row of the directory. -/
def State.lockPage (s : State) (x p : Nat) : State :=
  let (row, s) := s.takeRow x p
  s.putEntry x p (peWithRidx (peWith (s.master x p) 3) row)

/-- A page returns to present, with the primary's contents. -/
def State.unlockPage (s : State) (x p : Nat) : State :=
  (s.putEntry x p (peWithRidx (peWith (s.master x p) 1) 0)).freeRowOf x (peRidx (s.master x p))

/-- WVDEF: T, two slot bases, NPG. -/
def State.wvdef (s : State) (cmd : BitVec 512) (x : Nat) (c : Ctx) : CmdOut :=
  let t := (cmdWord cmd 0).toNat
  let b0 := cmdWord cmd 1
  let b1 := cmdWord cmd 2
  let n := (cmdWord cmd 3).toNat
  let ps := rangePages b0 n ++ rangePages b1 n
  if 4096 ≤ t ∨ n = 0 ∨ 4096 < n ∨ !rangeIn c b0 n ∨ !rangeIn c b1 n ∨ !rangesApart b0 n b1 n then .done s 1
  else if !c.works ∨ (Tbl.get WvEntry.none c.wvt t).ver ≠ 0 then .done s 6
  else if s.pgops.any (fun o => o.ctx = x && ps.contains o.page && decide (o.phase ≠ pgDone)) then .done s 4
  else if !c.wvt.all (fun e => decide (e.2.ver = 0) ||
      ([b0, b1].all (fun b => rangesApart b n e.2.s0.base e.2.s0.npg && rangesApart b n e.2.s1.base e.2.s1.npg))) then .done s 6
  else if !ps.all (fun p => let e := s.master x p; decide (peState e = 1) && frameNamed (pePfn e) && decide (homeOf (pePfn e * 2 ^ 22) < 12)) then .done s 6
  else
    let e : WvEntry := ⟨1, 0, false, false, ⟨b0, n, .published, 0⟩, ⟨b1, n, .free, 0⟩, 0, 0⟩
    .done ((ps.foldl (fun s p => s.lockPage x p) s).setTensor x t e) 0

/-- WVREM: T. -/
def State.wvrem (s : State) (cmd : BitVec 512) (x : Nat) (c : Ctx) : CmdOut :=
  let t := (cmdWord cmd 0).toNat
  let e := Tbl.get WvEntry.none c.wvt t
  if 4096 ≤ t then .done s 1
  else if e.ver = 0 then .done s 2
  else if e.s0.rc ≠ 0 ∨ e.s1.rc ≠ 0 ∨ e.cmt then .done s 6
  else .done (((rangePages e.s0.base e.s0.npg ++ rangePages e.s1.base e.s1.npg).foldl (fun s p => s.unlockPage x p) s).setTensor x t .none) 0

/-! ### Rings and queues (20_generation.md R416; 15_queue.md R346) -/

/-- v is a power of two from 2^lo to 2^hi. -/
def powerIn (v lo hi : Nat) : Bool := (List.range (hi + 1)).any (fun k => decide (lo ≤ k) && decide (v = 2 ^ k))

/-- The bytes from `base` to `base + n − 1` lie in the window. -/
def bytesIn (c : Ctx) (base : W64) (n : Nat) : Bool := inWindow c base && inWindow c (base + BitVec.ofNat 64 (n - 1))

/-- RING: RBASE, CAP. The recorder writes the header through the context's translation. -/
def State.ringCmd (s : State) (cmd : BitVec 512) (x : Nat) (c : Ctx) : CmdOut :=
  let base := cmdWord cmd 0
  let cap := (cmdWord cmd 1).toNat
  let records := s.cores.any (fun d => d.2.ctx = x && d.2.ifr.any (fun e => e.2.kind = 11)) || s.voids.any (fun v => v.ctx = x)
  let runs := s.cores.any (fun d => d.2.ctx = x && (d.2.run = .running || d.2.run = .stopped || d.2.run = .loaded))
  if base.toNat % 2 ^ 22 ≠ 0 ∨ !powerIn cap 6 24 ∨ !bytesIn c base (64 + 32 * cap) then .done s 1
  else if !c.works ∨ (c.ring.isSome ∧ (runs ∨ records)) then .done s 6
  else
    match s.ringAt x base true with
    | .go pa =>
      let s := ((s.engineStore pa 8 0).engineStore (pa + 8) 8 0).engineStore (pa + 16) 4 cap
      .done ((s.engineStore (pa + 24) 8 0).setRing x ⟨base, cap, 0, 0, 0, none⟩) 0
    | .absent k => .wait (s.postFault ⟨base, x, k, 0x300, permTR + 2 ^ 15, 255⟩) (pageOf base)
    | .hold => .no
    | _ => .done s 6

/-- QCREATE: queue, QBASE, CAP. -/
def State.qcreate (s : State) (cmd : BitVec 512) (x : Nat) (c : Ctx) : CmdOut :=
  let q := (cmdWord cmd 0).toNat
  let base := cmdWord cmd 1
  let cap := (cmdWord cmd 2).toNat
  if 64 ≤ q ∨ base.toNat % 64 ≠ 0 ∨ !powerIn cap 1 16 ∨ !bytesIn c base (64 + 64 * cap) then .done s 1
  else if !c.works ∨ (Tbl.get none c.queues q).isSome then .done s 6
  else
    let v : Queue := ⟨base, cap, 0, 0, .open, [], [], [], []⟩
    .done (s.updCtx x (fun c => { c with queues := Tbl.set Option.none c.queues q (some v) })) 0

/-! ### Graphs (16_kernel.md R366, R367) -/

/-- A node entry of 64 bytes (R366 Table 3). -/
def Node.ofBits (b : Nat) : Node :=
  let f (off n : Nat) : Nat := b / 2 ^ (8 * off) % 2 ^ (8 * n)
  ⟨f 0 1, f 1 1, f 3 1, BitVec.ofNat 64 (f 8 8), (List.range (min 8 (f 2 1))).map (fun j => f (16 + 2 * j) 2),
   (List.range 4).map (fun j => BitVec.ofNat 32 (f (32 + 4 * j) 4))⟩

/-- The entry is well formed by itself. -/
def nodeOk (count b : Nat) : Bool :=
  let f (off n : Nat) : Nat := b / 2 ^ (8 * off) % 2 ^ (8 * n)
  decide (1 ≤ f 0 1 ∧ f 0 1 ≤ 3) && decide (f 2 1 ≤ 8) && decide (f 3 1 / 4 % 32 = 0) && decide (f 4 4 = 0) && decide (f 48 16 = 0)
    && (List.range (min 8 (f 2 1))).all (fun j => decide (f (16 + 2 * j) 2 < count))
    && (List.range 4).all (fun j => decide (f (32 + 4 * j) 4 / 2 ^ 7 % 2 ^ 9 = 0))

/-- Nodes left after removing, `k` times over, every node that no remaining node names. -/
def peel (l : List Node) : Nat → List Nat → List Nat
  | 0, r => r
  | k + 1, r => peel l k (r.filter (fun i => r.any (fun j => (nth Node.none l j).succ.contains i)))

/-- The table as a whole is well formed: NPRED counts the entries that name a node, and there is no cycle. -/
def graphOk (l : List Node) : Bool :=
  let idx := List.range l.length
  let named (i : Nat) : Nat := l.foldl (fun a n => a + (n.succ.filter (· = i)).length) 0
  idx.all (fun i => decide ((nth Node.none l i).npred = named i)) && (peel l l.length idx).isEmpty

/-- The node table at `va`, as the command processor reads it. -/
def State.readNodes (s : State) (x : Nat) : Nat → W64 → List Nat ⊕ CpStop
  | 0, _ => .inl []
  | n + 1, va =>
    match s.cpAt x va permXR false with
    | .go pa =>
      match State.readNodes s x n (va + 64) with
      | .inl l => .inl (s.rd pa 64 :: l)
      | r => r
    | e => .inr ⟨va, e, permXR, false⟩

/-- GRAPHREC: graph, node table address, node count, status block address. -/
def State.graphrec (s : State) (cmd : BitVec 512) (x : Nat) (c : Ctx) : CmdOut :=
  let g := (cmdWord cmd 0).toNat
  let table := cmdWord cmd 1
  let n := (cmdWord cmd 2).toNat
  let status := cmdWord cmd 3
  let inUse : Bool := match c.graph g with | some v => v.running || decide (v.waiting ≠ []) | none => false
  if 64 ≤ g ∨ 1024 < n ∨ table.toNat % 64 ≠ 0 ∨ status.toNat % 4 ≠ 0 then .done s 1
  else if !c.works ∨ inUse then .done s 6
  else
    match s.readNodes x n table with
    | .inl l =>
      let nodes := l.map Node.ofBits
      if !l.all (nodeOk n) ∨ !graphOk nodes then .done s 1
      else
        let v : Graph := ⟨nodes, [], status, false, 0, [], [], [], [], [], none⟩
        .done (s.setGraph x g v) 0
    | .inr e =>
      match e.place with
      | .absent k => .wait (s.cpFault x e.va k e.need e.write) (pageOf e.va)
      | .hold => .no
      | _ => .done s 1

/-- REPLAY: graph, counter address. -/
def State.replayCmd (s : State) (cmd : BitVec 512) (x : Nat) (c : Ctx) : CmdOut :=
  let counter := cmdWord cmd 1
  if 64 ≤ (cmdWord cmd 0).toNat ∨ counter.toNat % 8 ≠ 0 then .done s 1
  else if !c.works then .done s 6
  else
    let (st, s) := s.askReplay x (cmdWord cmd 0).toNat counter
    .done s (if st = 0 then 0 else if st = 1 then 4 else 2)

/-- LAUNCH: launch record, counter address; a graph of one node, refused as busy where four replays of the context wait (R367). -/
def State.launchCmd (s : State) (cmd : BitVec 512) (x : Nat) (c : Ctx) : CmdOut :=
  let counter := cmdWord cmd 1
  if counter.toNat % 8 ≠ 0 then .done s 1
  else if !c.works then .done s 6
  else if 4 ≤ s.replaysWaiting x then .done s 4
  else .done (s.addKernel (Kernel.new x 1 none (cmdWord cmd 0) s.now counter)) 0

/-! ### Streams (R446) -/

/-- STREAM: peer fabric address, peer context, peer address, BYTES, FORM, source address. -/
def State.streamCmd (s : State) (f : Nat) (cmd : BitVec 512) (x : Nat) (c : Ctx) : CmdOut :=
  let form := (cmdWord cmd 4).toNat
  let len := (cmdWord cmd 3).toNat
  let src := if form = 0 then c.savva else cmdWord cmd 5
  let bad := 2 ≤ form ∨ 2 ^ 32 ≤ (cmdWord cmd 0).toNat ∨ 64 ≤ (cmdWord cmd 1).toNat ∨ (cmdWord cmd 2).toNat % 64 ≠ 0 ∨ len = 0 ∨ len % 64 ≠ 0
    ∨ !bytesIn c src len ∨ (form = 1 ∧ (len % 2 ^ 22 ≠ 0 ∨ src.toNat % 2 ^ 22 ≠ 0)) ∨ (form = 0 ∧ c.savsz.toNat < len)
  if bad then .done s 1
  else if !c.works then .done s 6
  else
    let go : CmdOut := .goesOn { s with streams := s.streams ++ [⟨f, x, form, len, src, BitVec.ofNat 32 (cmdWord cmd 0).toNat, (cmdWord cmd 1).toNat, cmdWord cmd 2, 0, false⟩] }
    if form = 0 then
      match s.placeAt x (s.svUnit x) none src permSV false with
      | .go pa => if s.rd pa 4 = 0x00010001 then go else .done s 6
      | _ => go
    else go

/-- Blocks a stream sends: under FORM 0 the first goes twice, with VALID as 0 first, and as it is last. -/
def Stream.total (t : Stream) : Nat := t.bytes / 64 + (if t.form = 0 then 1 else 0)
/-- The block of step `step`. -/
def Stream.block (t : Stream) : Nat := t.step % (t.bytes / 64)
/-- The step that makes a peer image valid. -/
def Stream.seals (t : Stream) : Bool := t.form = 0 && decide (t.step = t.bytes / 64)

/-- The source of the next block. -/
def State.streamFrom (s : State) (t : Stream) : EngAt :=
  s.placeAt t.ctx (s.svUnit t.ctx) none (t.src + BitVec.ofNat 64 (64 * t.block)) (if t.form = 0 then permSV else permLK) false

/-- The ports that work toward the peer: the stream's blocks go round them. -/
def State.streamPorts (s : State) (peer : W32) : List Nat := (List.range 24).filter (fun p => (s.port p).st.works && decide ((s.port p).peer = peer))

/-- Flits of a stream have not all been acknowledged. -/
def State.sending (s : State) (t : Stream) : Bool :=
  s.ports.any (fun p => (p.2.out ++ p.2.unacked).any (fun f => f.vc = 3 && f.num = t.fn))

/-- The next block of stream `i`, read with its tag at `pa`, is queued at a port. -/
def State.streamSend (s : State) (i : Nat) (t : Stream) (pa p : Nat) : State :=
  let d := s.rdBlock pa
  let d := if t.form = 0 ∧ t.step = 0 then BitVec.ofNat 512 (d.toNat / 2 ^ 32 * 2 ^ 32) else d
  let f : Flit := ⟨3, t.fn, 0, 0, d, t.pctx, t.dst + BitVec.ofNat 64 (64 * t.block), s.tagOf pa, t.seals⟩
  { s with streams := setNth s.streams i { t with step := t.step + 1 } }.queueFlit p f

/-- What stops a stream where it stands: no port to the peer, a loss, or a source that cannot be read. -/
def State.streamStops (s : State) (t : Stream) : Bool :=
  t.lost || (s.streamPorts t.peer).isEmpty || (decide (t.step < t.total) && (match s.streamFrom t with | .go _ | .hold | .bad _ => false | _ => true))

/-- STREAM_END (R446). Status 0: the stream sends its next block, the last one of a peer image after every other has been acknowledged, and
is complete when all have been. Status 7: a fault or a loss has ended it at an offset. -/
def State.streamEnd (s : State) (i status off : Nat) : Result :=
  let no : Result := .fault (.eventCannotArise "STREAM_END")
  match s.streams[i]? with
  | none => no
  | some t =>
    match (s.fn t.fn).busy with
    | none => no
    | some c =>
      if status = 7 then (if s.streamStops t ∧ off ≤ min t.bytes (64 * t.step) then .next (s.streamLost t off) else no)
      else if status ≠ 0 ∨ t.lost then no
      else if t.step < t.total then
        if t.seals && s.sending t then no else
        match s.streamFrom t, s.streamPorts t.peer with
        | .go pa, p :: ps => .next (s.streamSend i t pa (nth p (p :: ps) (t.step % (ps.length + 1))))
        | _, _ => no
      else if s.sending t then no
      else .next (({ s with streams := s.streams.eraseIdx i } : State).complete t.fn c 0 0)

/-! ### Host accesses to device memory (R447, R262) -/

/-- Write bytes one after the other, each at its home. -/
def State.hostWrite (s : State) : Nat → List (BitVec 8) → State
  | _, [] => s
  | a, b :: t => State.hostWrite ((s.writeTime s.latest (globalLine a)).1.put a 1 b.toNat) (a + 1) t

/-- HOST_MEMORY_ACCESS: bytes of a frame by physical address (log entry 38); a read returns the bytes in `hostData`. -/
def State.hostAccess (s : State) (f addr : Nat) (write : Bool) (data : List (BitVec 8)) : Result :=
  if 16 ≤ f ∨ !s.root.ready ∨ data = [] ∨ addr / 2 ^ 22 ≠ (addr + data.length - 1) / 2 ^ 22 ∨ !frameNamed (addr / 2 ^ 22) then
    .fault (.eventCannotArise "HOST_MEMORY_ACCESS")
  else .next (if write then s.hostWrite addr data else { s with hostData := (List.range data.length).map (fun j => BitVec.ofNat 8 (s.rd (addr + j) 1)) })

/-- A CPUT write (R448). -/
def execHostDoorbell (fn : Nat) (put : Nat) (cmds : List (BitVec 512)) (s : State) : Result := s.doorbell fn put cmds

/-- A write to the register page (R448). -/
def execHostRegWrite (fn : Nat) (off : Nat) (val : BitVec 256) (s : State) : Result := s.hostReg fn off val

/-- CREATE (R298), and any opcode outside Table 8, refused as malformed. -/
def execCreate (fn : Nat) (cmd : BitVec 512) (s : State) : Result :=
  s.command fn cmd "CREATE" (fun k => k = 1 || k = 0 || decide (0x0A < k)) (fun s => s.create fn cmd)

/-- DESTROY (R300). -/
def execDestroy (fn : Nat) (cmd : BitVec 512) (s : State) : Result :=
  s.command fn cmd "DESTROY" (fun k => k = 2) (fun s => s.owned fn cmd (fun x c => s.destroy x c))

/-- WVDEF (R397). -/
def execWvdef (fn : Nat) (cmd : BitVec 512) (s : State) : Result :=
  s.command fn cmd "WVDEF" (fun k => k = 3) (fun s => s.owned fn cmd (fun x c => s.wvdef cmd x c))

/-- WVREM (R397). -/
def execWvrem (fn : Nat) (cmd : BitVec 512) (s : State) : Result :=
  s.command fn cmd "WVREM" (fun k => k = 4) (fun s => s.owned fn cmd (fun x c => s.wvrem cmd x c))

/-- RING (R416). -/
def execRing (fn : Nat) (cmd : BitVec 512) (s : State) : Result :=
  s.command fn cmd "RING" (fun k => k = 5) (fun s => s.owned fn cmd (fun x c => s.ringCmd cmd x c))

/-- QCREATE (R346). -/
def execQcreate (fn : Nat) (cmd : BitVec 512) (s : State) : Result :=
  s.command fn cmd "QCREATE" (fun k => k = 6) (fun s => s.owned fn cmd (fun x c => s.qcreate cmd x c))

/-- GRAPHREC (R366). -/
def execGraphrec (fn : Nat) (cmd : BitVec 512) (s : State) : Result :=
  s.command fn cmd "GRAPHREC" (fun k => k = 7) (fun s => s.owned fn cmd (fun x c => s.graphrec cmd x c))

/-- REPLAY (R367). -/
def execReplay (fn : Nat) (cmd : BitVec 512) (s : State) : Result :=
  s.command fn cmd "REPLAY" (fun k => k = 8) (fun s => s.owned fn cmd (fun x c => s.replayCmd cmd x c))

/-- LAUNCH (R367). -/
def execLaunch (fn : Nat) (cmd : BitVec 512) (s : State) : Result :=
  s.command fn cmd "LAUNCH" (fun k => k = 9) (fun s => s.owned fn cmd (fun x c => s.launchCmd cmd x c))

/-- STREAM (R446). -/
def execStream (fn : Nat) (cmd : BitVec 512) (s : State) : Result :=
  s.command fn cmd "STREAM" (fun k => k = 10) (fun s => s.owned fn cmd (fun x c => s.streamCmd fn cmd x c))

/-- A stream ends (R446). -/
def execStreamEnd (i : Nat) (status : Nat) (off : Nat) (s : State) : Result := s.streamEnd i status off

/-- Loading is done (R300). -/
def execContextLoadDone (ctx : Nat) (s : State) : Result := s.loadDone ctx

/-- Loading has failed (R300). -/
def execContextLoadError (ctx : Nat) (s : State) : Result := s.loadError ctx

/-- A dead context has been scrubbed (R300). -/
def execScrubDone (ctx : Nat) (s : State) : Result := s.scrubbed ctx

/-- A host read or write of device memory (R447). -/
def execHostMemoryAccess (fn : Nat) (addr : Nat) (write : Bool) (data : List (BitVec 8)) (s : State) : Result :=
  s.hostAccess fn addr write data


end Sys2Proof.Machine
end

