-- ==== Sys2Proof/Machine/Reliability.lean ====
section
/-! DEFINITION. Reliability, security and bring-up (22_reliability.md R450 to R463): memory errors, parity, quarantine and substitution
(13_inflight_record.md R332), the error log's GET, attestation, power, reset and the bring-up steps. -/

namespace Sys2Proof.Machine

/-! ### Memory errors (R451 to R454, R485) -/

/-- The entry of a page names frame `f`: as its own, or as one of its replicas (11_page.md R284). -/
def State.pageHolds (s : State) (x : Nat) (e : W64) (f : Nat) : Bool :=
  decide (peState e ≠ 0) && (pePfn e = f || (peState e = 3 && (s.replicaFrames x e).contains f))

/-- The context that owns a physical address, and the virtual address under which it does: the first whose master table names the
frame. -/
def State.ownerOf (s : State) (pa : Nat) : Option (Nat × W64) :=
  (s.ctxs.filter (fun c => c.2.st ≠ .free && c.2.st ≠ .dead)).findSome? (fun c =>
    (listedPages s.mem.cells c.2.ptbase.toNat).findSome? (fun p =>
      if s.pageHolds c.1 (s.master c.1 p) (pa / 2 ^ 22) then some (c.1, BitVec.ofNat 64 (windowBase c.2 + p * 2 ^ 22 + pa % 2 ^ 22)) else none))

/-- An error of block `blk` is logged, as corrected or as uncorrectable. -/
def State.logBlock (s : State) (unc : Bool) (x src blk : Nat) (addr : W64) : State :=
  if unc then s.logLost x src blk addr else s.logCorrected x src blk addr

/-- An error of DRAM block `pa / 64` found by `src`: corrected, or the block is poisoned. -/
def State.dramError (s : State) (pa src : Nat) (unc : Bool) : State :=
  let (x, va) := (s.ownerOf pa).getD (0xFF, BitVec.ofNat 64 pa)
  let s := if unc then s.poisonRange (pa / 64 * 64) 64 else s
  s.logBlock unc x src (16 * (pa / 64)) va

/-- The context of core `n` as the log names it. -/
def State.logCtx (s : State) (n : Nat) : Nat := if (s.core n).run = .idle then 0xFF else (s.core n).ctx

/-- An error in an SRAM of core `n` at byte `off`, of the kind `k`: the log names the core that holds it. An uncorrectable one does `f` to
the core (R452). -/
def State.sramError (s : State) (n k off : Nat) (unc : Bool) (f : Core → Core) : State :=
  (if unc then s.upd n f else s).logBlock unc (s.logCtx n) (srcOf n) (16 * (n * 2 ^ 32 + off / 64) + k) (BitVec.ofNat 64 off)

/-- Block `b` of an accumulator store, whose words carry no tag: 16 elements of a row whose values an uncorrectable error leaves open. -/
def Core.accLost (b : Nat) (v : BitVec 512) (c : Core) : Core :=
  let (t, r, j) := (b / 2048, b / 16 % 128, b % 16)
  let x := c.mx.heldRow t r
  let keep := (List.range 16).filter (· ≠ j)
  { c with mx := c.mx.setHeldRow t r ((keep.foldl (fun w k => w ||| (x &&& (BitVec.ofNat 8192 ((2 ^ 512 - 1) * 2 ^ (512 * k))))) 0)
      ||| ((v.setWidth 8192) <<< (512 * j))) }

/-- A 512-bit free value. -/
def State.drawBlock (s : State) : BitVec 512 × State :=
  (List.range 8).foldl (fun (r : BitVec 512 × State) _ => let (u, s) := r.2.draw; ((r.1 <<< 64) ||| u.setWidth 512, s)) (0, s)

/-- Eight entries of a translation copy, one block, read as pages that are poisoned (11_page.md R286). -/
def State.tableLost (s : State) (tu x b : Nat) : State :=
  (List.range 8).foldl (fun s j => s.setEntry tu x (8 * b + j) (peWith (s.entry tu x (8 * b + j)) 4)) s

/-- An agent that an access to DRAM address `addr` can be made by, by its fault-buffer code, or the home that writes a block back (R485). -/
def errorSrc (addr src : Nat) : Bool :=
  let h := homeOf addr
  decide (src < 528) || src = 0x300 || src = 0x301 || (decide (h < 12) && (src = 0x302 + h || src = 0x320 + h)) || (h = 12 && src = 0x312)
    || src = 0x310 || src = 0x311 || src = 0x313

/-- ECC_ERROR (R452; log entry 114): space 0 is DRAM by physical address, space n + 1 the scratchpad of core n, space 1024 + n the weight
buffer of quarter core n, 2048 + n its accumulator store, 3072 + n the data cache of core n, 4096 + n its instruction cache, by the place
of the line in the cache, 5120 + 64 t + x the copy of context x in translation unit t. -/
def State.ecc (s : State) (space addr src : Nat) (unc : Bool) : Result :=
  let no : Result := .fault (.eventCannotArise "ECC_ERROR")
  let n := space % 1024
  if space = 0 then
    (if frameNamed (addr / 2 ^ 22) && errorSrc addr src then .next (s.dramError (64 * (addr / 64)) src unc) else no)
  else if space ≤ 528 then
    (if addr < spadSize (space - 1) then
      .next (s.sramError (space - 1) 1 addr unc (fun c => { c with spad := c.spad.setTag (addr / 64) poisonTag })) else no)
  else if 1024 ≤ space ∧ space < 1536 then
    (if addr < 2 ^ 19 then .next (s.sramError n 2 addr unc (fun c => { c with wbuf := c.wbuf.setTag (addr / 64) poisonTag })) else no)
  else if 2048 ≤ space ∧ space < 2560 then
    (if addr < 24 * 2 ^ 17 then
      let (v, s) := s.drawBlock
      .next (s.sramError n 3 addr unc (fun c => c.accLost (addr / 64) v)) else no)
  else if 3072 ≤ space ∧ space < 3600 then
    (match (s.core n).copies[addr / 64]? with
     | some k => .next (s.sramError n 4 addr unc (fun c => { c with copies := Tbl.set ⟨0, 0, 0⟩ c.copies k.1 { k.2 with tag := poisonTag } }))
     | none => no)
  else if 4096 ≤ space ∧ space < 4624 then
    (match (s.core n).icache[addr / 64]? with
     | some k => .next (s.sramError n 5 addr unc (fun c => { c with icache := Tbl.set ⟨0, 0, 0⟩ c.icache k.1 { k.2 with tag := poisonTag } }))
     | none => no)
  else if 5120 ≤ space ∧ space < 7168 ∧ addr < 2 ^ 19 then
    let (tu, x) := ((space - 5120) / 64, space % 64)
    .next ((if unc then s.tableLost tu x (addr / 64) else s).logBlock unc x (if tu < 16 then 32 * tu else tu + 496)
      (16 * (space * 2 ^ 32 + addr / 64) + 6) (BitVec.ofNat 64 addr))
  else no

/-- PATROL_SCRUB of a DRAM block: 0 nothing found, 1 corrected, 2 uncorrectable. The home finds it (R485). -/
def State.scrub (s : State) (blk outcome : Nat) : Result :=
  let h := homeOf (64 * blk)
  let src := if h = 12 then 0x312 else 0x320 + h
  if !frameNamed (blk / 2 ^ 16) ∨ 3 ≤ outcome then .fault (.eventCannotArise "PATROL_SCRUB")
  else .next (if outcome = 0 then s else s.dramError (64 * blk) src (decide (outcome = 2)))

/-- PARITY_ERROR: the core freezes as a double trap does, with DCAUSE 0x15 (R454); a core without a program holds no state of a context. -/
def State.parity (s : State) (n : Nat) : Result :=
  let c := s.core n
  if !coreExists n ∨ c.run = .idle then .fault (.eventCannotArise "PARITY_ERROR")
  else .next ((s.doubleTrap n 0x15).logError 3 c.ctx (srcOf n) 0 0)

/-! ### Quarantine and substitution (R455, R456; 13_inflight_record.md R332; 01_device.md R22) -/

/-- Contexts with on-chip state on a logical quarter. -/
def State.ctxsOn (s : State) (q : Nat) : List Nat :=
  (s.ctxs.filter (fun c => c.2.part q ≠ .absent && c.2.part q ≠ .saved)).map (·.1)

/-- A core whose part has moved resumes as after a restore: no copies, its record to be sent again, index lists read from the scratchpad
as it then stands (R324). -/
def Core.moved (c : Core) : Core :=
  { c with copies := [], icache := [], replay := true, ifr := c.ifr.map (fun e => if e.2.kind = 5 then (e.1, { e.2 with payload := [] }) else e) }

/-- A part moves to the spare: it freezes, its cores are read, and it resumes as after a restore if it ran. Where reading its cores meets
an uncorrectable error its context becomes faulted, and the part stays frozen (R332; log entry 102). -/
def State.movePart (s : State) (q x : Nat) : State :=
  let ran := (s.ctx x).part q = .running
  let s := ((s.freezePart x q).updCtx x (fun c => c.setPart q .frozen)).freezeGroups x q
  let (bad, s) := s.choose
  if bad then s.faultCtx x
  else
    let s := (s.partCores x q).foldl (fun s n => s.upd n Core.moved) s
    if ran then s.resumePart x q else s

/-- A logical quarter moves to a spare, or leaves service. DESIGN CHOICE (log entry 103): the spare taken is the lowest that is left. -/
def State.replaceQuarter (s : State) (q : Nat) : State :=
  let old := s.physOf q
  match s.spares with
  | p :: rest =>
    let s := (s.ctxsOn q).foldl (fun s x => s.movePart q x) s
    ({ s with qmap := Tbl.set none s.qmap q (some p), spares := rest }).logError 7 0xFF 0x313 old 0
  | [] =>
    let s := (s.ctxsOn q).foldl (fun s x => s.faultCtx x) s
    ({ s with outQ := s.outQ ||| BitVec.ofNat 16 (2 ^ q) }).logError 8 0xFF 0x313 old 0

/-- The logical quarters that stand on a compute die, by physical number. -/
def State.quartersOf (s : State) (die : Nat) : List Nat :=
  [2 * die, 2 * die + 1].flatMap (fun p => (List.range 16).filter (fun q => s.physOf q = p && !s.outQ.getLsbD q))

/-- A quarter can be frozen now: no request or freeze of its contexts is in progress, and no group on it is still forming. -/
def State.quarterStill (s : State) (q : Nat) : Bool :=
  (s.ctxsOn q).all (fun x => (s.ctx x).req.isNone && ((s.ctx x).part q = .running || (s.ctx x).part q = .frozen)
    && (s.groupsOn x q).all (fun g => decide (g.2.st ≠ .forming)))

/-- QUARANTINE of a die whose DCNT has reached a THRESH that is not 0. -/
def State.quarantine (s : State) (die : Nat) : Result :=
  if 9 ≤ die ∨ s.log.thresh = 0 ∨ s.dcntOf die < s.log.thresh.toNat ∨ s.deadDies.getLsbD die
      ∨ !(s.quartersOf die).all (fun q => s.quarterStill q) then .fault (.eventCannotArise "QUARANTINE")
  else
    let s := { s with spares := s.spares.filter (fun p => p / 2 ≠ die) }
    let s := (s.quartersOf die).foldl (fun (s : State) q => s.replaceQuarter q) s
    .next { s with deadDies := s.deadDies ||| BitVec.ofNat 9 (2 ^ die) }

/-! ### Attestation (R457, R458) -/

/-- ATTEST_REQUEST: AREQ while busy is ignored. -/
def State.attest (s : State) : Result := .next (if s.root.astat = 1 then s else { s with root := { s.root with astat := 1 } })

/-- The signed part of a report in order, as a number and a length in bytes (widths of log entry 39): format n32, PARTNO n16, STEP n8,
digest, security version n32, nonce, DEVID n32. -/
def State.reportBody (s : State) : Nat × Nat :=
  let parts : List (Nat × Nat) := [(1, 4), (0x9768, 2), (devStep, 1), ((Config.firmwareDigest s.root.boots).toNat, 48),
    ((Config.securityVersion s.root.boots).toNat, 4), (s.root.anonce.toNat, 32), ((Config.devId s.root.boots).toNat, 4)]
  parts.foldr (fun p r => (p.1 % 2 ^ (8 * p.2) + r.1 * 2 ^ (8 * p.2), p.2 + r.2)) (0, 0)

/-- ATTEST_REPORT_DONE: the report and its two signatures stand at ADST, or the root of trust has failed. -/
def State.attestDone (s : State) (ok : Bool) : Result :=
  if s.root.astat ≠ 1 then .fault (.eventCannotArise "ATTEST_REPORT_DONE")
  else if !ok then .next { s with root := { s.root with astat := 3 } }
  else
    let (body, n) := s.reportBody
    let at' := s.root.adst.toNat
    let m := s.hostMem.write at' n body
    let m := (List.range (64 + 3309)).foldl (fun (m : Memory) j => m.setByte (at' + n + j) (Config.reportSignature body j)) m
    .next { s with hostMem := m, root := { s.root with astat := 2 } }

/-! ### Power (R462) -/

/-- POWER_MEASURE, in watts and degrees of the hottest die. -/
def State.power (s : State) (watts temp : Nat) : State :=
  let l := s.duty.toNat
  let new := if 3600 < watts ∨ 95 ≤ temp then min 3 (l + 1) else l - 1
  if new = l then s else { s with duty := BitVec.ofNat 2 new }.logError 6 0xFF 0x313 new 0

/-! ### Reset and bring-up (R460, R463) -/

/-- The device is reset: everything is at its reset value. What the surroundings hold stays: host memory, the events they have chosen,
the free values and keys drawn so far. -/
def State.resetDevice (s : State) : State :=
  { State.reset with fresh := s.fresh, keys := s.keys, agenda := s.agenda, cur := s.cur, hostMem := s.hostMem,
                     root := { State.reset.root with boots := s.root.boots + 1 } }

/-- The spares that the factory test has left, and the active quarters it has fused out (01_device.md R13, R21; log entry 89). -/
def testedSpares : List Nat := [16, 17].filter (fun p => !Config.fused.getLsbD p)
def fusedOut : List Nat := (List.range 16).filter (fun p => Config.fused.getLsbD p)

/-- The quarters as the fuses leave them: a spare takes the place of each quarter fused out, and is spare no longer. -/
def State.setSpares (s : State) : State :=
  { s with qmap := (fusedOut.zip testedSpares).map (fun e => (e.1, some e.2)), spares := testedSpares.drop fusedOut.length }

/-- BRINGUP_STEP: the next step of Table 4 completes, or fails. Step 4 writes every block as zero with tag (0x00, 0); step 5 sets the
spare map and with it DEVINFO. -/
def State.bringup (s : State) (ok : Bool) : Result :=
  let k := s.root.step.toNat + 1
  if s.root.ready ∨ s.root.fail ∨ 8 < k then .fault (.eventCannotArise "BRINGUP_STEP") else
  let r : Root := { s.root with step := BitVec.ofNat 4 k }
  if !ok then .next { s with root := { r with fail := true } }
  else
    let s : State := { s with root := { r with ready := decide (k = 8) } }
    .next (if k = 4 then { s with mem := .empty, seals := [] } else if k = 5 then s.setSpares else s)

/-- An access meets an ECC error (R452). -/
def execEccError (space : Nat) (addr : Nat) (src : Nat) (unc : Bool) (s : State) : Result := s.ecc space addr src unc

/-- The patrol scrub reads a block (R453). -/
def execPatrolScrub (blk : Nat) (outcome : Nat) (s : State) : Result := s.scrub blk outcome

/-- A parity error in core state (R454). -/
def execParityError (core : Nat) (s : State) : Result := s.parity core

/-- A die is quarantined (R455). -/
def execQuarantine (die : Nat) (s : State) : Result := s.quarantine die

/-- Every DCNT is cleared (R455). -/
def execDcntWindowClear (s : State) : Result := .next { s with dcnt := [] }

/-- The service stores GET of the error log (R450). -/
def execErrorLogGetWrite (get : Nat) (s : State) : Result := .next (s.setLogGet get)

/-- AREQ is written (R458). -/
def execAttestRequest (s : State) : Result := s.attest

/-- The root of trust has signed a report, or failed (R458). -/
def execAttestReportDone (ok : Bool) (s : State) : Result := s.attestDone ok

/-- Power and temperature are measured (R462). -/
def execPowerMeasure (watts : Nat) (temp : Nat) (s : State) : Result := .next (s.power watts temp)

/-- A die at 110 °C: every port goes down and the device resets (R463). -/
def execThermalTrip (s : State) : Result := .next s.resetDevice

/-- Reset (R460). -/
def execDeviceReset (s : State) : Result := .next s.resetDevice

/-- A step of bring-up (R460). -/
def execBringupStep (ok : Bool) (s : State) : Result := s.bringup ok


end Sys2Proof.Machine
end

