-- ==== Sys2Proof/Machine/Clock.lean ====
section
/-! DEFINITION. The events of a core's own clock and of traps (02_core.md R28, R29; 07_matrix.md R203, R204; 09_memory_model.md R255;
14_trap.md R335, R337). A bundle that issues brings these about itself where they fall due with it. -/

namespace Sys2Proof.Machine

/-- An event of core `n` that arises when `ok` holds of the core. -/
def State.coreEvent (s : State) (n : Nat) (row : String) (ok : Core → Bool) (f : Core → Core) : Result :=
  if coreExists n && ok (s.core n) then .next (s.upd n f) else .fault (.eventCannotArise row)

/-- Core `n` with the issue cycles that have passed: those of a halted core go on while its part runs, and while it freezes for a cut
that has not stopped the core yet (R28, R150, R311). -/
def State.clocked (s : State) (n : Nat) : Core :=
  let c := s.core n
  let p := (s.ctx c.ctx).part (quarterOf n)
  if isKiosk n || p = .running || (p = .freezing && c.stop ≠ .none) then c.catchUp s.now else c

/-- A result falls due by now. -/
def State.resultDue (s : State) (n : Nat) : Bool := let c := s.clocked n; (s.core n).pend.any (fun p => decide (p.due ≤ c.ic))

/-- A beat falls due in an issue cycle that has passed. -/
def State.beatDue (s : State) (n : Nat) : Bool := let c := s.clocked n; c.mx.beats.any (fun b => decide (b.due < c.ic))

/-- The next row of tile `t` is reloaded from the image; WM passes it. -/
def Core.reloadRow (c : Core) (t : Nat) : Core :=
  let st := c.mx.st t
  let r := st.wm.toNat
  let m := c.mx.setRow t r (Tbl.get 0 c.mx.reload (128 * t + r))
  { c with mx := ({ m with reload := Tbl.set 0 m.reload (128 * t + r) 0 }).setSt t { st with wm := st.wm + 1 } }

/-- TRAPVAL of a precise trap: the slot and its word, a tile, or zero (14_trap.md Table 1). -/
def trapVal (cause : Nat) (val : W64) : W64 :=
  if cause = 0x10 then 0 else if cause = 0x12 then val &&& 31 else val &&& 0xFFFFFFFF00000003

/-- FAULTADDR of a precise trap: zero where the table names none. -/
def trapAddr (cause : Nat) (addr : W64) : W64 :=
  if (0x07 ≤ cause ∧ cause ≤ 0x0B) ∨ cause = 0x14 then addr else 0

/-- TRAP_ENTRY: the precise trap of a cause of 14_trap.md Table 1 whose TRAPPC is the held bundle, at the bundle the core was to issue
(R334, R337). A software trap comes with its bundle's issue only (05_scalar_control.md R154). A pending report is taken first, unless
the bundle is held (R344). -/
def State.trapEvent (s : State) (n cause val addr : Nat) : Result :=
  let c := s.core n
  if !coreExists n ∨ c.run ≠ .running ∨ cause = 0 ∨ 0x14 < cause ∨ cause = 0x11 ∨ cause = 0x13
      ∨ (c.twin ∧ !c.heldBundle ∧ c.reports ≠ []) then .fault (.eventCannotArise "TRAP_ENTRY")
  else .next ((s.abandon n).preciseTrap n cause (trapVal cause (BitVec.ofNat 64 val)) (trapAddr cause (BitVec.ofNat 64 addr)))

/-- IMPRECISE_TRAP: the oldest report is taken, with the window open and no bundle held (R335). -/
def State.impreciseEvent (s : State) (n : Nat) : Result :=
  let c := s.core n
  if !coreExists n ∨ c.run ≠ .running ∨ !c.twin ∨ c.heldBundle ∨ c.reports = [] then .fault (.eventCannotArise "IMPRECISE_TRAP")
  else .next (s.takeReport n)

/-- Results that have fallen due are written (R29). -/
def execResultDue (core : Nat) (s : State) : Result :=
  s.coreEvent core "RESULT_DUE" (fun _ => s.resultDue core) (fun _ => (s.clocked core).land)

/-- A precise trap is taken (R337). -/
def execTrapEntry (core : Nat) (cause : Nat) (val : Nat) (addr : Nat) (s : State) : Result := s.trapEvent core cause val addr

/-- A report is taken (R335). -/
def execImpreciseTrap (core : Nat) (s : State) : Result := s.impreciseEvent core

/-- CLK rises by 128 every 1024 issue cycles (R255). -/
def execClkTick (core : Nat) (s : State) : Result := s.coreEvent core "CLK_TICK" (fun c => decide (0 < c.ticksDue)) Core.tick

/-- Beats that have fallen due take effect (R203); the next bundle brings about those of its own cycle. -/
def execBeatDue (core : Nat) (s : State) : Result := s.coreEvent core "BEAT_DUE" (fun _ => s.beatDue core) (fun _ => (s.clocked core).settled)

/-- The next row of a tile is reloaded (R204). -/
def execRowReload (core : Nat) (tile : Nat) (s : State) : Result :=
  s.coreEvent core "ROW_RELOAD" (fun c => decide (tile < 24) && decide ((c.mx.st tile).wm.toNat < 128)) (fun c => c.reloadRow tile)


end Sys2Proof.Machine
end

