-- ==== Sys2Proof/Machine/Control.lean ====
section
/-! DEFINITION. Control transfers, loop instructions, HALT, QUIET, bank lending and traps raised by software (05_scalar_control.md
R140 to R155; 14_trap.md R340 to R342). -/

namespace Sys2Proof.Machine

/-! ### Control transfers (R140, R141) -/

/-- A taken transfer to `t`. -/
def Issue.transfer (i : Issue) (t : W64) : Except Stop Issue :=
  if t.toNat % 16 ≠ 0 then .error (.trap 8 t)
  else if !inWindow i.ctx t then .error (.abort t)
  else .ok { i with taken := some t }

/-- A + 16 × off, with `off` a field of `w` bits. -/
def Issue.target (i : Issue) (off w : Nat) : W64 := i.pre.pc + BitVec.ofInt 64 (16 * sext off w)

/-- BR (R140). -/
def opBr (g : Guard) (o : JO) : Op := guarded g none (fun i => i.transfer (i.target o.off.toNat 23))

/-- `BR` alone in its bundle. -/
def execBr (g : Guard) (o : JO) (s : State) : Result := issueSolo (.s (.br g o)) (opBr g o) s

/-- MOVB (R140): b[k] := A + 16 × off. -/
def opMovb (g : Guard) (o : JB) : Op := guarded g none (fun i => .ok (i.result .b o.b.toNat (vec64 (i.target o.off.toNat 20)) 1))

/-- `MOVB` alone in its bundle. -/
def execMovb (g : Guard) (o : JB) (s : State) : Result := issueSolo (.s (.movb g o)) (opMovb g o) s

/-- CALL (R140). -/
def opCall (g : Guard) (o : JO) : Op :=
  guarded g none (fun i => do
  let i := i.result .b 7 (vec64 (i.pre.pc + 16)) 1
  i.transfer (i.target o.off.toNat 23))

/-- `CALL` alone in its bundle. -/
def execCall (g : Guard) (o : JO) (s : State) : Result := issueSolo (.s (.call g o)) (opCall g o) s

/-- RET (R140). -/
def opRet (g : Guard) (o : RR) : Op := guarded g none (fun i => i.transfer (i.pre.getB o.s1.toNat))

/-- `RET` alone in its bundle. -/
def execRet (g : Guard) (o : RR) (s : State) : Result := issueSolo (.s (.ret g o)) (opRet g o) s


/-- The tests of a branch tree: predicate and negation (R108, R142). -/
def btTests (o : BTO) : List (BitVec 5 × Bool) :=
  ([(o.t0, o.n0), (o.t1, o.n1), (o.t2, o.n2), (o.t3, o.n3)]).take (o.nt.toNat + 1)

/-- The first test that is true, from test `k` on. -/
def btFirst (c : Core) : List (BitVec 5 × Bool) → Nat → Option Nat
  | [], _ => none
  | (p, n) :: t, k => if c.getP p.toNat != n then some k else btFirst c t (k + 1)

/-- BT (R142): the first true test i branches to b[4 TB + i]. -/
def opBt (o : BTO) : Op := fun i =>
  if !i.pre.flagOk o.flag then .ok i else
  match btFirst i.pre (btTests o) 0 with
  | none => .ok i
  | some k => i.transfer (i.pre.getB (4 * b2n o.tb + k))

/-- `BT` alone in its bundle. -/
def execBt (o : BTO) (s : State) : Result := issueSolo (.s (.bt o)) (opBt o) s

/-! ### Loops (R143 to R147) -/

/-- The body of a LOOP as it is loaded into the loop buffer: the 16 bytes of each of `n` bundles from `va` on, bundle `k` by free choice
number `k` from `s.fresh` on. A bundle whose page or block cannot be read is left out and fetched, with the checks of a fetch, when it
is reached (log entry 45). -/
def loadBody (s : State) (core x : Nat) : Nat → W64 → Nat → Tbl (Option (BitVec 128))
  | 0, _, _ => []
  | n + 1, va, k =>
    let rest := loadBody s core x n (va + 16) (k + 1)
    match translate s (tuOf core) x va permSL with
    | .ok pa _ =>
      let pa := s.ownReplica core x va pa
      let line := s.codeLine core pa (s.fresh + k)
      if poisoned line.tag then rest else (k, some (BitVec.ofNat 128 (blockBytes line.data (pa % 64) 16))) :: rest
    | _ => rest

/-- The step and stride of each register of a LOOP's mask (R143). -/
def Core.loopSteps (c : Core) (l mask : Nat) : Core :=
  ((List.range 16).filter (fun k => mask.testBit k)).foldl (fun (c : Core) k =>
    let x := c.getStride k
    { c.setStride k ((x.setWidth 32).signExtend 64) with
      steps := Tbl.set 0 c.steps (16 * l + k) (BitVec.ofNat 32 (x.toNat / 2 ^ 32)) }) c

/-- Enter level `l` with first index `beg` and body length `n` (R143). -/
def Core.enterLevel (c : Core) (l beg n : Nat) (cw : W64) (mask : Nat) : Core :=
  let c := c.loopSteps l mask
  let t : LStat := ⟨BitVec.ofNat 24 (bits cw.toNat 23 0), BitVec.ofNat 8 (bits cw.toNat 31 24), BitVec.ofNat 16 mask,
    BitVec.ofNat 8 beg, BitVec.ofNat 8 (beg + n - 1)⟩
  { c with lstat := Tbl.set .zero c.lstat l t, lctl := { c.lctl with lact := c.lctl.lact ||| BitVec.ofNat 6 (2 ^ l) },
           wrapped := c.wrapped &&& ~~~ BitVec.ofNat 6 (2 ^ l) }

/-- LOOP (R143). -/
def Issue.doLoop (i : Issue) (o : LP) : Except Stop Issue :=
  let c := i.pre.getG o.gc.toNat
  let m := i.pre.getG o.gm.toNat
  let n := o.len.toNat + 1
  if c.toNat / 2 ^ 32 ≠ 0 ∨ m.toNat / 2 ^ 16 ≠ 0 then illegalOperand else
  match innermost i.pre.lctl.lact with
  | none =>
    let body := loadBody i.s i.n i.ctxNo n (i.pre.pc + 16) 0
    let j := { i with s := { i.s with fresh := i.s.fresh + n } }
    .ok { j.upd (fun k => { k.enterLevel 0 0 n c m.toNat with
                            loopBuf := body, body := n, frames := k.frames.map (fun f => { f with stale := true }) }) with
          level := true, loopAt := some 0 }
  | some l =>
    let t := Tbl.get .zero i.pre.lstat l
    match i.pre.lbix with
    | none => illegalOperand
    | some j =>
      if l = 5 ∨ j < t.beg.toNat ∨ t.fin.toNat ≤ j ∨ t.fin.toNat < j + n then illegalOperand
      else .ok { i.upd (fun k => k.enterLevel (l + 1) (j + 1) n c m.toNat) with level := true }

/-- LOOP (R143). -/
def opLoop (g : Guard) (o : LP) : Op := guarded g none (fun i => i.doLoop o)

/-- `LOOP` alone in its bundle. -/
def execLoop (g : Guard) (o : LP) (s : State) : Result := issueSolo (.s (.loop g o)) (opLoop g o) s


/-- LBRK (R145): the innermost active level ends at issue. -/
def Issue.doLbrk (i : Issue) : Except Stop Issue :=
  match innermost i.pre.lctl.lact with
  | none => illegalOperand
  | some l =>
    .ok { i.upd (fun c => { c with lctl := { c.lctl with lact := c.lctl.lact &&& ~~~ BitVec.ofNat 6 (2 ^ l) } }) with level := true }

/-- LBRK (R145). -/
def opLbrk (g : Guard) : Op := guarded g none (fun i => i.doLbrk)

/-- `LBRK` alone in its bundle. -/
def execLbrk (g : Guard) (s : State) : Result := issueSolo (.s (.lbrk g)) (opLbrk g) s


/-- Set p8 to p15 from the bits of `v` (R146, R147). -/
def Core.setStages (c : Core) (v : Nat) : Core :=
  (List.range 8).foldl (fun (c : Core) k => c.setP (8 + k) (v.testBit k)) c

/-- ROTB's effect, seen from the next bundle (R146). -/
def Core.rotb (c : Core) (imm : Nat) : Core :=
  if imm = 63 then { c with lctl := { c.lctl with roten := false, vrot := 0 } }
  else { c.setStages 1 with lctl := { c.lctl with roten := true, rotlvl := BitVec.ofNat 3 imm, vrot := 0 } }

/-- ROTB (R146). -/
def opRotb (g : Guard) (o : RI) : Op := guarded g none (fun i => .ok (i.afterCore (fun c => c.rotb o.imm.toNat)))

/-- `ROTB` alone in its bundle. -/
def execRotb (g : Guard) (o : RI) (s : State) : Result := issueSolo (.s (.rotb g o)) (opRotb g o) s

/-- STAGE (R147). -/
def opStage (g : Guard) (o : RI) : Op := guarded g none (fun i => .ok (i.afterCore (fun c => c.setStages o.imm.toNat)))

/-- `STAGE` alone in its bundle. -/
def execStage (g : Guard) (o : RI) (s : State) : Result := issueSolo (.s (.stage g o)) (opStage g o) s


/-! ### HALT, QUIET and lending (R150 to R152; 02_core.md R51, R52) -/

/-- HALT (R150); the slots left in the core's run become void records (20_generation.md R417), and a report that waits is one at a
halted core (08_transfer.md R225). -/
def opHalt (g : Guard) : Op := guarded g none (fun i => .ok { i.after (fun s => (s.voidRun i.n).haltReports i.n) with halted := true })

/-- `HALT` alone in its bundle. -/
def execHalt (g : Guard) (s : State) : Result := issueSolo (.s (.halt g)) (opHalt g) s


/-- QUIET's cut number: one not greater than the number held opens an epoch (R151; 12_context.md R311). -/
def Core.quietCut (c : Core) (n : Nat) : Core :=
  match c.cutN with
  | none => { c with cutN := some n }
  | some m => { c with cutN := some n, cutEp := if n ≤ m then (c.cutEp + 1) % 2 ^ 31 else c.cutEp }

/-- QUIET (R151). -/
def opQuiet (g : Guard) (o : I12) : Op := guarded g none (fun i => .ok (i.upd (fun c => c.quietCut o.imm.toNat)))

/-- `QUIET` alone in its bundle. -/
def execQuiet (g : Guard) (o : I12) (s : State) : Result := issueSolo (.s (.quiet g o)) (opQuiet g o) s


/-- LENDB (R52): a result of an earlier bundle in flight to the bank, or a bank already lent, is an illegal lend. -/
def Issue.doLend (i : Issue) (k : Nat) : Except Stop Issue :=
  if i.pre.lent.getLsbD k || i.pre.pend.any (fun p => p.file = .v && p.reg / 16 = k) then .error (.trap 6 0)
  else .ok (i.upd (fun c => { c with lent := c.lent ||| BitVec.ofNat 4 (2 ^ k) }))

/-- LENDB (R152). -/
def opLendb (g : Guard) (o : RI) : Op := guarded g none (fun i => i.doLend o.imm.toNat)

/-- `LENDB` alone in its bundle. -/
def execLendb (g : Guard) (o : RI) (s : State) : Result := issueSolo (.s (.lendb g o)) (opLendb g o) s

/-- RETB (R152), at issue. -/
def opRetb (g : Guard) (o : RI) : Op :=
  guarded g none (fun i => .ok (i.upd (fun c => { c with lent := c.lent &&& ~~~ BitVec.ofNat 4 (2 ^ o.imm.toNat) })))

/-- `RETB` alone in its bundle. -/
def execRetb (g : Guard) (o : RI) (s : State) : Result := issueSolo (.s (.retb g o)) (opRetb g o) s


/-! ### Software traps (R154; 14_trap.md R341, R342) -/

/-- TRAP (R154): taken after the bundle. -/
def opTrap (g : Guard) (o : I12) : Op := guarded g none (fun i => .ok { i with trapAfter := some (o.imm.setWidth 64) })

/-- `TRAP` alone in its bundle. -/
def execTrap (g : Guard) (o : I12) (s : State) : Result := issueSolo (.s (.trap g o)) (opTrap g o) s

/-- TRAPEN (R341): it changes nothing  at depth 0. -/
def opTrapen (g : Guard) : Op :=
  guarded g none (fun i => .ok (if i.pre.frames.isEmpty then i else i.afterCore (fun c => { c with twin := true })))

/-- `TRAPEN` alone in its bundle. -/
def execTrapen (g : Guard) (s : State) : Result := issueSolo (.s (.trapen g)) (opTrapen g) s


/-- The body of the interrupted loop as memory holds it now (R342): it begins 16 bytes per index before the return bundle. -/
def Issue.interruptedBody (i : Issue) : Tbl (Option (BitVec 128)) :=
  match i.pre.frames with
  | [] => []
  | f :: _ =>
    match f.lbix with
    | none => []
    | some k => loadBody i.s i.n i.ctxNo f.body (BitVec.ofNat 64 (f.erpc.toNat * 16) - BitVec.ofNat 64 (16 * k)) 0

/-- TRET (R342). -/
def Issue.doTret (i : Issue) : Except Stop Issue :=
  if i.pre.frames.isEmpty then illegalOperand else
  let t := BitVec.ofNat 64 (i.pre.rpc.toNat * 16)
  if !inWindow i.ctx t then .error (.abort t)
  else .ok { i with final := Core.trapReturn i.interruptedBody, s := { i.s with fresh := i.s.fresh + 256 } }

/-- A bundle with TRET waits until every result of the handler has fallen due: issue cycles without a bundle (R342). -/
def Issue.drained (i : Issue) : Issue :=
  if i.pre.frames.isEmpty then i else let j := i.upd Core.drain; { j with pre := j.core }

/-- TRET (R342): its predicate is read at issue, after the wait. -/
def opTret (g : Guard) : Op := fun i => guarded g none (fun i => i.doTret) i.drained

/-- `TRET` alone in its bundle. -/
def execTret (g : Guard) (s : State) : Result := issueSolo (.s (.tret g)) (opTret g) s


end Sys2Proof.Machine
end

