-- ==== Sys2Proof/Machine/VecFloat.lean ====
section
/-! DEFINITION. Vector float operations (06_vector.md R161 to R166). -/

namespace Sys2Proof.Machine

/-- Class of a pattern (R163 Table 3): the bit set. -/
def vclass (f : Fmt) (x : Nat) : Nat :=
  let neg := (f.val x).neg || x.testBit (f.w - 1)
  match f.val x with
  | .inf _ => if neg then 0 else 7
  | .nan => if x.testBit (f.F - 1) then 9 else 8
  | .fin _ m _ =>
    if m = 0 then (if neg then 3 else 4)
    else if m < 2 ^ f.F then (if neg then 2 else 5)
    else (if neg then 1 else 6)

/-- VFIN's test (R164): N joins NFS and goes to p[d]. -/
def Issue.vfin (i : Issue) (o : RR) (f : Fmt) : Except Stop Issue := do
  let (x, i) ← i.v1 o
  let m := i.pre.getM o.s2.toNat
  let n := (List.range (1024 / f.w)).any (fun k => laneOn m f.w k && !(f.val (lane x f.w k)).isFin)
  .ok ((i.upd (fun c => { c with nfs := c.nfs || n })).result (if o.dnil then .latch else .p) o.d.toNat (if n then 1 else 0) 2)

/-- VFIN's read (R164): the flag as V0 of the same bundle left it, then cleared. -/
def Issue.vfinRead (i : Issue) (o : RR) : Issue :=
  (i.upd (fun c => { c with nfs := false })).result (if o.dnil then .latch else .p) o.d.toNat (if i.core.nfs then 1 else 0) 2

/-- VADD (R161): RoundF(a + b). -/
def opVaddF32 (g : Guard) (rm : RMode) (o : RR) : Op := guarded g none (fun i => i.vecSum o rm .f32 (fun a b => addVal rm a b))

/-- `VADD_F32` alone in its bundle. -/
def execVaddF32 (g : Guard) (rm : RMode) (o : RR) (s : State) : Result := issueSolo (.v (.vaddF32 g rm o)) (opVaddF32 g rm o) s

/-- VSUB (R161): RoundF(a − b). -/
def opVsubF32 (g : Guard) (rm : RMode) (o : RR) : Op := guarded g none (fun i => i.vecSum o rm .f32 (fun a b => addVal rm a b.flip))

/-- `VSUB_F32` alone in its bundle. -/
def execVsubF32 (g : Guard) (rm : RMode) (o : RR) (s : State) : Result := issueSolo (.v (.vsubF32 g rm o)) (opVsubF32 g rm o) s

/-- VMUL (R161): RoundF(a × b). -/
def opVmulF32 (g : Guard) (rm : RMode) (o : RR) : Op :=
  guarded g none (fun i => i.vec2 o rm (Fmt.w .f32) 4 (fun x y u => roundVal .f32 rm u (mulVal (Fmt.val .f32 x) (Fmt.val .f32 y))))

/-- `VMUL_F32` alone in its bundle. -/
def execVmulF32 (g : Guard) (rm : RMode) (o : RR) (s : State) : Result := issueSolo (.v (.vmulF32 g rm o)) (opVmulF32 g rm o) s

/-- VFMA (R161): RoundF(a × b + c). -/
def opVfmaF32 (g : Guard) (rm : RMode) (o : RR) : Op := guarded g none (fun i => i.vecFma o rm .f32 (fun a b c => addVal rm (mulVal a b) c))

/-- `VFMA_F32` alone in its bundle. -/
def execVfmaF32 (g : Guard) (rm : RMode) (o : RR) (s : State) : Result := issueSolo (.v (.vfmaF32 g rm o)) (opVfmaF32 g rm o) s

/-- VFMS (R161): RoundF(a × b − c). -/
def opVfmsF32 (g : Guard) (rm : RMode) (o : RR) : Op :=
  guarded g none (fun i => i.vecFma o rm .f32 (fun a b c => addVal rm (mulVal a b) c.flip))

/-- `VFMS_F32` alone in its bundle. -/
def execVfmsF32 (g : Guard) (rm : RMode) (o : RR) (s : State) : Result := issueSolo (.v (.vfmsF32 g rm o)) (opVfmsF32 g rm o) s

/-- VFNMA (R161): RoundF(c − a × b). -/
def opVfnmaF32 (g : Guard) (rm : RMode) (o : RR) : Op :=
  guarded g none (fun i => i.vecFma o rm .f32 (fun a b c => addVal rm c (mulVal a b).flip))

/-- `VFNMA_F32` alone in its bundle. -/
def execVfnmaF32 (g : Guard) (rm : RMode) (o : RR) (s : State) : Result := issueSolo (.v (.vfnmaF32 g rm o)) (opVfnmaF32 g rm o) s

/-- VMIN (R162). -/
def opVminF32 (g : Guard) (rm : RMode) (o : RR) : Op :=
  guarded g none (fun i => i.vec2 o rm (Fmt.w .f32) 4 (fun x y _ => fminmax .f32 false x y))

/-- `VMIN_F32` alone in its bundle. -/
def execVminF32 (g : Guard) (rm : RMode) (o : RR) (s : State) : Result := issueSolo (.v (.vminF32 g rm o)) (opVminF32 g rm o) s

/-- VMAX (R162). -/
def opVmaxF32 (g : Guard) (rm : RMode) (o : RR) : Op :=
  guarded g none (fun i => i.vec2 o rm (Fmt.w .f32) 4 (fun x y _ => fminmax .f32 true x y))

/-- `VMAX_F32` alone in its bundle. -/
def execVmaxF32 (g : Guard) (rm : RMode) (o : RR) (s : State) : Result := issueSolo (.v (.vmaxF32 g rm o)) (opVmaxF32 g rm o) s

/-- VADD (R161): RoundF(a + b). -/
def opVaddBf16 (g : Guard) (rm : RMode) (o : RR) : Op := guarded g none (fun i => i.vecSum o rm .bf16 (fun a b => addVal rm a b))

/-- `VADD_BF16` alone in its bundle. -/
def execVaddBf16 (g : Guard) (rm : RMode) (o : RR) (s : State) : Result := issueSolo (.v (.vaddBf16 g rm o)) (opVaddBf16 g rm o) s

/-- VSUB (R161): RoundF(a − b). -/
def opVsubBf16 (g : Guard) (rm : RMode) (o : RR) : Op := guarded g none (fun i => i.vecSum o rm .bf16 (fun a b => addVal rm a b.flip))

/-- `VSUB_BF16` alone in its bundle. -/
def execVsubBf16 (g : Guard) (rm : RMode) (o : RR) (s : State) : Result := issueSolo (.v (.vsubBf16 g rm o)) (opVsubBf16 g rm o) s

/-- VMUL (R161): RoundF(a × b). -/
def opVmulBf16 (g : Guard) (rm : RMode) (o : RR) : Op :=
  guarded g none (fun i => i.vec2 o rm (Fmt.w .bf16) 4 (fun x y u => roundVal .bf16 rm u (mulVal (Fmt.val .bf16 x) (Fmt.val .bf16 y))))

/-- `VMUL_BF16` alone in its bundle. -/
def execVmulBf16 (g : Guard) (rm : RMode) (o : RR) (s : State) : Result := issueSolo (.v (.vmulBf16 g rm o)) (opVmulBf16 g rm o) s

/-- VFMA (R161): RoundF(a × b + c). -/
def opVfmaBf16 (g : Guard) (rm : RMode) (o : RR) : Op :=
  guarded g none (fun i => i.vecFma o rm .bf16 (fun a b c => addVal rm (mulVal a b) c))

/-- `VFMA_BF16` alone in its bundle. -/
def execVfmaBf16 (g : Guard) (rm : RMode) (o : RR) (s : State) : Result := issueSolo (.v (.vfmaBf16 g rm o)) (opVfmaBf16 g rm o) s

/-- VFMS (R161): RoundF(a × b − c). -/
def opVfmsBf16 (g : Guard) (rm : RMode) (o : RR) : Op :=
  guarded g none (fun i => i.vecFma o rm .bf16 (fun a b c => addVal rm (mulVal a b) c.flip))

/-- `VFMS_BF16` alone in its bundle. -/
def execVfmsBf16 (g : Guard) (rm : RMode) (o : RR) (s : State) : Result := issueSolo (.v (.vfmsBf16 g rm o)) (opVfmsBf16 g rm o) s

/-- VFNMA (R161): RoundF(c − a × b). -/
def opVfnmaBf16 (g : Guard) (rm : RMode) (o : RR) : Op :=
  guarded g none (fun i => i.vecFma o rm .bf16 (fun a b c => addVal rm c (mulVal a b).flip))

/-- `VFNMA_BF16` alone in its bundle. -/
def execVfnmaBf16 (g : Guard) (rm : RMode) (o : RR) (s : State) : Result := issueSolo (.v (.vfnmaBf16 g rm o)) (opVfnmaBf16 g rm o) s

/-- VMIN (R162). -/
def opVminBf16 (g : Guard) (rm : RMode) (o : RR) : Op :=
  guarded g none (fun i => i.vec2 o rm (Fmt.w .bf16) 4 (fun x y _ => fminmax .bf16 false x y))

/-- `VMIN_BF16` alone in its bundle. -/
def execVminBf16 (g : Guard) (rm : RMode) (o : RR) (s : State) : Result := issueSolo (.v (.vminBf16 g rm o)) (opVminBf16 g rm o) s

/-- VMAX (R162). -/
def opVmaxBf16 (g : Guard) (rm : RMode) (o : RR) : Op :=
  guarded g none (fun i => i.vec2 o rm (Fmt.w .bf16) 4 (fun x y _ => fminmax .bf16 true x y))

/-- `VMAX_BF16` alone in its bundle. -/
def execVmaxBf16 (g : Guard) (rm : RMode) (o : RR) (s : State) : Result := issueSolo (.v (.vmaxBf16 g rm o)) (opVmaxBf16 g rm o) s

/-- VADD (R161): RoundF(a + b). -/
def opVaddF16 (g : Guard) (rm : RMode) (o : RR) : Op := guarded g none (fun i => i.vecSum o rm .f16 (fun a b => addVal rm a b))

/-- `VADD_F16` alone in its bundle. -/
def execVaddF16 (g : Guard) (rm : RMode) (o : RR) (s : State) : Result := issueSolo (.v (.vaddF16 g rm o)) (opVaddF16 g rm o) s

/-- VSUB (R161): RoundF(a − b). -/
def opVsubF16 (g : Guard) (rm : RMode) (o : RR) : Op := guarded g none (fun i => i.vecSum o rm .f16 (fun a b => addVal rm a b.flip))

/-- `VSUB_F16` alone in its bundle. -/
def execVsubF16 (g : Guard) (rm : RMode) (o : RR) (s : State) : Result := issueSolo (.v (.vsubF16 g rm o)) (opVsubF16 g rm o) s

/-- VMUL (R161): RoundF(a × b). -/
def opVmulF16 (g : Guard) (rm : RMode) (o : RR) : Op :=
  guarded g none (fun i => i.vec2 o rm (Fmt.w .f16) 4 (fun x y u => roundVal .f16 rm u (mulVal (Fmt.val .f16 x) (Fmt.val .f16 y))))

/-- `VMUL_F16` alone in its bundle. -/
def execVmulF16 (g : Guard) (rm : RMode) (o : RR) (s : State) : Result := issueSolo (.v (.vmulF16 g rm o)) (opVmulF16 g rm o) s

/-- VFMA (R161): RoundF(a × b + c). -/
def opVfmaF16 (g : Guard) (rm : RMode) (o : RR) : Op := guarded g none (fun i => i.vecFma o rm .f16 (fun a b c => addVal rm (mulVal a b) c))

/-- `VFMA_F16` alone in its bundle. -/
def execVfmaF16 (g : Guard) (rm : RMode) (o : RR) (s : State) : Result := issueSolo (.v (.vfmaF16 g rm o)) (opVfmaF16 g rm o) s

/-- VFMS (R161): RoundF(a × b − c). -/
def opVfmsF16 (g : Guard) (rm : RMode) (o : RR) : Op :=
  guarded g none (fun i => i.vecFma o rm .f16 (fun a b c => addVal rm (mulVal a b) c.flip))

/-- `VFMS_F16` alone in its bundle. -/
def execVfmsF16 (g : Guard) (rm : RMode) (o : RR) (s : State) : Result := issueSolo (.v (.vfmsF16 g rm o)) (opVfmsF16 g rm o) s

/-- VFNMA (R161): RoundF(c − a × b). -/
def opVfnmaF16 (g : Guard) (rm : RMode) (o : RR) : Op :=
  guarded g none (fun i => i.vecFma o rm .f16 (fun a b c => addVal rm c (mulVal a b).flip))

/-- `VFNMA_F16` alone in its bundle. -/
def execVfnmaF16 (g : Guard) (rm : RMode) (o : RR) (s : State) : Result := issueSolo (.v (.vfnmaF16 g rm o)) (opVfnmaF16 g rm o) s

/-- VMIN (R162). -/
def opVminF16 (g : Guard) (rm : RMode) (o : RR) : Op :=
  guarded g none (fun i => i.vec2 o rm (Fmt.w .f16) 4 (fun x y _ => fminmax .f16 false x y))

/-- `VMIN_F16` alone in its bundle. -/
def execVminF16 (g : Guard) (rm : RMode) (o : RR) (s : State) : Result := issueSolo (.v (.vminF16 g rm o)) (opVminF16 g rm o) s

/-- VMAX (R162). -/
def opVmaxF16 (g : Guard) (rm : RMode) (o : RR) : Op :=
  guarded g none (fun i => i.vec2 o rm (Fmt.w .f16) 4 (fun x y _ => fminmax .f16 true x y))

/-- `VMAX_F16` alone in its bundle. -/
def execVmaxF16 (g : Guard) (rm : RMode) (o : RR) (s : State) : Result := issueSolo (.v (.vmaxF16 g rm o)) (opVmaxF16 g rm o) s

/-- VABS (R163): the sign bit cleared. -/
def opVabsF32 (g : Guard) (o : RR) : Op := guarded g none (fun i => i.vec1 o .rne 32 2 (fun x _ => x % 2 ^ 31))

/-- `VABS_F32` alone in its bundle. -/
def execVabsF32 (g : Guard) (o : RR) (s : State) : Result := issueSolo (.v (.vabsF32 g o)) (opVabsF32 g o) s

/-- VABS (R163): the sign bit cleared. -/
def opVabsH (g : Guard) (o : RR) : Op := guarded g none (fun i => i.vec1 o .rne 16 2 (fun x _ => x % 2 ^ 15))

/-- `VABS_H` alone in its bundle. -/
def execVabsH (g : Guard) (o : RR) (s : State) : Result := issueSolo (.v (.vabsH g o)) (opVabsH g o) s

/-- VNEG (R163): the sign bit inverted. -/
def opVnegF32 (g : Guard) (o : RR) : Op := guarded g none (fun i => i.vec1 o .rne 32 2 (fun x _ => Nat.xor x (2 ^ 31)))

/-- `VNEG_F32` alone in its bundle. -/
def execVnegF32 (g : Guard) (o : RR) (s : State) : Result := issueSolo (.v (.vnegF32 g o)) (opVnegF32 g o) s

/-- VNEG (R163): the sign bit inverted. -/
def opVnegH (g : Guard) (o : RR) : Op := guarded g none (fun i => i.vec1 o .rne 16 2 (fun x _ => Nat.xor x (2 ^ 15)))

/-- `VNEG_H` alone in its bundle. -/
def execVnegH (g : Guard) (o : RR) (s : State) : Result := issueSolo (.v (.vnegH g o)) (opVnegH g o) s

/-- VCLASS (R163 Table 3). -/
def opVclassF32 (g : Guard) (o : RR) : Op := guarded g none (fun i => i.vec1 o .rne (Fmt.w .f32) 2 (fun x _ => 2 ^ vclass .f32 x))

/-- `VCLASS_F32` alone in its bundle. -/
def execVclassF32 (g : Guard) (o : RR) (s : State) : Result := issueSolo (.v (.vclassF32 g o)) (opVclassF32 g o) s

/-- VCLASS (R163 Table 3). -/
def opVclassBf16 (g : Guard) (o : RR) : Op := guarded g none (fun i => i.vec1 o .rne (Fmt.w .bf16) 2 (fun x _ => 2 ^ vclass .bf16 x))

/-- `VCLASS_BF16` alone in its bundle. -/
def execVclassBf16 (g : Guard) (o : RR) (s : State) : Result := issueSolo (.v (.vclassBf16 g o)) (opVclassBf16 g o) s

/-- VCLASS (R163 Table 3). -/
def opVclassF16 (g : Guard) (o : RR) : Op := guarded g none (fun i => i.vec1 o .rne (Fmt.w .f16) 2 (fun x _ => 2 ^ vclass .f16 x))

/-- `VCLASS_F16` alone in its bundle. -/
def execVclassF16 (g : Guard) (o : RR) (s : State) : Result := issueSolo (.v (.vclassF16 g o)) (opVclassF16 g o) s

/-- VFIN (R164): the test form. -/
def opVfinF32 (g : Guard) (o : RR) : Op := guarded g none (fun i => i.vfin o .f32)

/-- `VFIN_F32` alone in its bundle. -/
def execVfinF32 (g : Guard) (o : RR) (s : State) : Result := issueSolo (.v (.vfinF32 g o)) (opVfinF32 g o) s

/-- VFIN (R164): the test form. -/
def opVfinBf16 (g : Guard) (o : RR) : Op := guarded g none (fun i => i.vfin o .bf16)

/-- `VFIN_BF16` alone in its bundle. -/
def execVfinBf16 (g : Guard) (o : RR) (s : State) : Result := issueSolo (.v (.vfinBf16 g o)) (opVfinBf16 g o) s

/-- VFIN (R164): the test form. -/
def opVfinF16 (g : Guard) (o : RR) : Op := guarded g none (fun i => i.vfin o .f16)

/-- `VFIN_F16` alone in its bundle. -/
def execVfinF16 (g : Guard) (o : RR) (s : State) : Result := issueSolo (.v (.vfinF16 g o)) (opVfinF16 g o) s

/-- VFIN (R164): the read form. -/
def opVfinNfsF32 (g : Guard) (o : RR) : Op := guarded g none (fun i => .ok (i.vfinRead o))

/-- `VFIN_NFS_F32` alone in its bundle. -/
def execVfinNfsF32 (g : Guard) (o : RR) (s : State) : Result := issueSolo (.v (.vfinNfsF32 g o)) (opVfinNfsF32 g o) s

/-- VFIN (R164): the read form. -/
def opVfinNfsBf16 (g : Guard) (o : RR) : Op := guarded g none (fun i => .ok (i.vfinRead o))

/-- `VFIN_NFS_BF16` alone in its bundle. -/
def execVfinNfsBf16 (g : Guard) (o : RR) (s : State) : Result := issueSolo (.v (.vfinNfsBf16 g o)) (opVfinNfsBf16 g o) s

/-- VFIN (R164): the read form. -/
def opVfinNfsF16 (g : Guard) (o : RR) : Op := guarded g none (fun i => .ok (i.vfinRead o))

/-- `VFIN_NFS_F16` alone in its bundle. -/
def execVfinNfsF16 (g : Guard) (o : RR) (s : State) : Result := issueSolo (.v (.vfinNfsF16 g o)) (opVfinNfsF16 g o) s

/-- VDIV (R165, R166): a / b. -/
def opVdivF32 (g : Guard) (rm : RMode) (o : RR) : Op :=
  guarded g none (fun i => i.vec2 o rm (Fmt.w .f32) 8 (fun x y u => fdiv .f32 rm u (Fmt.val .f32 x) (Fmt.val .f32 y)))

/-- `VDIV_F32` alone in its bundle. -/
def execVdivF32 (g : Guard) (rm : RMode) (o : RR) (s : State) : Result := issueSolo (.v (.vdivF32 g rm o)) (opVdivF32 g rm o) s

/-- VRCP (R165, R166): 1 / a. -/
def opVrcpF32 (g : Guard) (rm : RMode) (o : RR) : Op :=
  guarded g none (fun i => i.vec1 o rm (Fmt.w .f32) 8 (fun x u => frcp .f32 rm u (Fmt.val .f32 x)))

/-- `VRCP_F32` alone in its bundle. -/
def execVrcpF32 (g : Guard) (rm : RMode) (o : RR) (s : State) : Result := issueSolo (.v (.vrcpF32 g rm o)) (opVrcpF32 g rm o) s

/-- VRSQ (R165, R166): 1 / √a. -/
def opVrsqF32 (g : Guard) (rm : RMode) (o : RR) : Op :=
  guarded g none (fun i => i.vec1 o rm (Fmt.w .f32) 8 (fun x u => frsq .f32 rm u (Fmt.val .f32 x)))

/-- `VRSQ_F32` alone in its bundle. -/
def execVrsqF32 (g : Guard) (rm : RMode) (o : RR) (s : State) : Result := issueSolo (.v (.vrsqF32 g rm o)) (opVrsqF32 g rm o) s

/-- VSQRT (R165, R166): √a. -/
def opVsqrtF32 (g : Guard) (rm : RMode) (o : RR) : Op :=
  guarded g none (fun i => i.vec1 o rm (Fmt.w .f32) 8 (fun x u => fsqrt .f32 rm u (Fmt.val .f32 x)))

/-- `VSQRT_F32` alone in its bundle. -/
def execVsqrtF32 (g : Guard) (rm : RMode) (o : RR) (s : State) : Result := issueSolo (.v (.vsqrtF32 g rm o)) (opVsqrtF32 g rm o) s

/-- VEXP2 (R165, R166): 2^a. -/
def opVexp2F32 (g : Guard) (rm : RMode) (o : RR) : Op :=
  guarded g none (fun i => i.vec1 o rm (Fmt.w .f32) 8 (fun x u => fexp2 .f32 rm u (Fmt.val .f32 x)))

/-- `VEXP2_F32` alone in its bundle. -/
def execVexp2F32 (g : Guard) (rm : RMode) (o : RR) (s : State) : Result := issueSolo (.v (.vexp2F32 g rm o)) (opVexp2F32 g rm o) s

/-- VLOG2 (R165, R166): log2 a. -/
def opVlog2F32 (g : Guard) (rm : RMode) (o : RR) : Op :=
  guarded g none (fun i => i.vec1 o rm (Fmt.w .f32) 8 (fun x u => flog2 .f32 rm u (Fmt.val .f32 x)))

/-- `VLOG2_F32` alone in its bundle. -/
def execVlog2F32 (g : Guard) (rm : RMode) (o : RR) (s : State) : Result := issueSolo (.v (.vlog2F32 g rm o)) (opVlog2F32 g rm o) s

/-- VTANH (R165, R166): tanh a. -/
def opVtanhF32 (g : Guard) (rm : RMode) (o : RR) : Op :=
  guarded g none (fun i => i.vec1 o rm (Fmt.w .f32) 8 (fun x u => ftanh .f32 rm u (Fmt.val .f32 x)))

/-- `VTANH_F32` alone in its bundle. -/
def execVtanhF32 (g : Guard) (rm : RMode) (o : RR) (s : State) : Result := issueSolo (.v (.vtanhF32 g rm o)) (opVtanhF32 g rm o) s

/-- VDIV (R165, R166): a / b. -/
def opVdivBf16 (g : Guard) (rm : RMode) (o : RR) : Op :=
  guarded g none (fun i => i.vec2 o rm (Fmt.w .bf16) 8 (fun x y u => fdiv .bf16 rm u (Fmt.val .bf16 x) (Fmt.val .bf16 y)))

/-- `VDIV_BF16` alone in its bundle. -/
def execVdivBf16 (g : Guard) (rm : RMode) (o : RR) (s : State) : Result := issueSolo (.v (.vdivBf16 g rm o)) (opVdivBf16 g rm o) s

/-- VRCP (R165, R166): 1 / a. -/
def opVrcpBf16 (g : Guard) (rm : RMode) (o : RR) : Op :=
  guarded g none (fun i => i.vec1 o rm (Fmt.w .bf16) 8 (fun x u => frcp .bf16 rm u (Fmt.val .bf16 x)))

/-- `VRCP_BF16` alone in its bundle. -/
def execVrcpBf16 (g : Guard) (rm : RMode) (o : RR) (s : State) : Result := issueSolo (.v (.vrcpBf16 g rm o)) (opVrcpBf16 g rm o) s

/-- VRSQ (R165, R166): 1 / √a. -/
def opVrsqBf16 (g : Guard) (rm : RMode) (o : RR) : Op :=
  guarded g none (fun i => i.vec1 o rm (Fmt.w .bf16) 8 (fun x u => frsq .bf16 rm u (Fmt.val .bf16 x)))

/-- `VRSQ_BF16` alone in its bundle. -/
def execVrsqBf16 (g : Guard) (rm : RMode) (o : RR) (s : State) : Result := issueSolo (.v (.vrsqBf16 g rm o)) (opVrsqBf16 g rm o) s

/-- VSQRT (R165, R166): √a. -/
def opVsqrtBf16 (g : Guard) (rm : RMode) (o : RR) : Op :=
  guarded g none (fun i => i.vec1 o rm (Fmt.w .bf16) 8 (fun x u => fsqrt .bf16 rm u (Fmt.val .bf16 x)))

/-- `VSQRT_BF16` alone in its bundle. -/
def execVsqrtBf16 (g : Guard) (rm : RMode) (o : RR) (s : State) : Result := issueSolo (.v (.vsqrtBf16 g rm o)) (opVsqrtBf16 g rm o) s

/-- VEXP2 (R165, R166): 2^a. -/
def opVexp2Bf16 (g : Guard) (rm : RMode) (o : RR) : Op :=
  guarded g none (fun i => i.vec1 o rm (Fmt.w .bf16) 8 (fun x u => fexp2 .bf16 rm u (Fmt.val .bf16 x)))

/-- `VEXP2_BF16` alone in its bundle. -/
def execVexp2Bf16 (g : Guard) (rm : RMode) (o : RR) (s : State) : Result := issueSolo (.v (.vexp2Bf16 g rm o)) (opVexp2Bf16 g rm o) s

/-- VLOG2 (R165, R166): log2 a. -/
def opVlog2Bf16 (g : Guard) (rm : RMode) (o : RR) : Op :=
  guarded g none (fun i => i.vec1 o rm (Fmt.w .bf16) 8 (fun x u => flog2 .bf16 rm u (Fmt.val .bf16 x)))

/-- `VLOG2_BF16` alone in its bundle. -/
def execVlog2Bf16 (g : Guard) (rm : RMode) (o : RR) (s : State) : Result := issueSolo (.v (.vlog2Bf16 g rm o)) (opVlog2Bf16 g rm o) s

/-- VTANH (R165, R166): tanh a. -/
def opVtanhBf16 (g : Guard) (rm : RMode) (o : RR) : Op :=
  guarded g none (fun i => i.vec1 o rm (Fmt.w .bf16) 8 (fun x u => ftanh .bf16 rm u (Fmt.val .bf16 x)))

/-- `VTANH_BF16` alone in its bundle. -/
def execVtanhBf16 (g : Guard) (rm : RMode) (o : RR) (s : State) : Result := issueSolo (.v (.vtanhBf16 g rm o)) (opVtanhBf16 g rm o) s


end Sys2Proof.Machine
end

