-- ==== Sys2Proof/Machine/VecInt.lean ====
section
/-! DEFINITION. Vector integer, logic, select and compare operations (06_vector.md R167 to R169). -/

namespace Sys2Proof.Machine

/-- A bitwise operation on all 1024 bits. -/
def Issue.vbits (i : Issue) (o : RR) (f : Vec → Vec → Vec) : Except Stop Issue := do
  let (x, y, i) ← i.rrSources o .v .v
  i.toV o.d.toNat o.dnil (f x y) 2

/-- VCMP (R168): the condition in [17:15], the mask in [14:12]. -/
def Issue.vcmp (i : Issue) (o : RR) (w : Nat) (f : Nat → Nat → Nat → Bool) : Except Stop Issue := do
  let (x, y, i) ← i.rrSources o .v .v
  let m := maskOf w (fun k => f (o.d.toNat / 8) (lane x w k) (lane y w k))
  .ok (i.result .m (o.d.toNat % 8) (m.setWidth 1024) 2)

/-- VIADD (R167). -/
def opViadd32 (g : Guard) (o : RR) : Op := guarded g none (fun i => i.vec2 o .rne 32 2 (fun x y _ => (x + y) % 2 ^ 32))

/-- `VIADD_32` alone in its bundle. -/
def execViadd32 (g : Guard) (o : RR) (s : State) : Result := issueSolo (.v (.viadd32 g o)) (opViadd32 g o) s

/-- VIADD (R167). -/
def opViadd16 (g : Guard) (o : RR) : Op := guarded g none (fun i => i.vec2 o .rne 16 2 (fun x y _ => (x + y) % 2 ^ 16))

/-- `VIADD_16` alone in its bundle. -/
def execViadd16 (g : Guard) (o : RR) (s : State) : Result := issueSolo (.v (.viadd16 g o)) (opViadd16 g o) s

/-- VIADD (R167). -/
def opViadd8 (g : Guard) (o : RR) : Op := guarded g none (fun i => i.vec2 o .rne 8 2 (fun x y _ => (x + y) % 2 ^ 8))

/-- `VIADD_8` alone in its bundle. -/
def execViadd8 (g : Guard) (o : RR) (s : State) : Result := issueSolo (.v (.viadd8 g o)) (opViadd8 g o) s

/-- VISUB (R167). -/
def opVisub32 (g : Guard) (o : RR) : Op := guarded g none (fun i => i.vec2 o .rne 32 2 (fun x y _ => (x + 2 ^ 32 - y) % 2 ^ 32))

/-- `VISUB_32` alone in its bundle. -/
def execVisub32 (g : Guard) (o : RR) (s : State) : Result := issueSolo (.v (.visub32 g o)) (opVisub32 g o) s

/-- VISUB (R167). -/
def opVisub16 (g : Guard) (o : RR) : Op := guarded g none (fun i => i.vec2 o .rne 16 2 (fun x y _ => (x + 2 ^ 16 - y) % 2 ^ 16))

/-- `VISUB_16` alone in its bundle. -/
def execVisub16 (g : Guard) (o : RR) (s : State) : Result := issueSolo (.v (.visub16 g o)) (opVisub16 g o) s

/-- VISUB (R167). -/
def opVisub8 (g : Guard) (o : RR) : Op := guarded g none (fun i => i.vec2 o .rne 8 2 (fun x y _ => (x + 2 ^ 8 - y) % 2 ^ 8))

/-- `VISUB_8` alone in its bundle. -/
def execVisub8 (g : Guard) (o : RR) (s : State) : Result := issueSolo (.v (.visub8 g o)) (opVisub8 g o) s

/-- VIMUL (R167). -/
def opVimul32 (g : Guard) (o : RR) : Op := guarded g none (fun i => i.vec2 o .rne 32 2 (fun x y _ => x * y % 2 ^ 32))

/-- `VIMUL_32` alone in its bundle. -/
def execVimul32 (g : Guard) (o : RR) (s : State) : Result := issueSolo (.v (.vimul32 g o)) (opVimul32 g o) s

/-- VIMUL (R167). -/
def opVimul16 (g : Guard) (o : RR) : Op := guarded g none (fun i => i.vec2 o .rne 16 2 (fun x y _ => x * y % 2 ^ 16))

/-- `VIMUL_16` alone in its bundle. -/
def execVimul16 (g : Guard) (o : RR) (s : State) : Result := issueSolo (.v (.vimul16 g o)) (opVimul16 g o) s

/-- VIMULH.i32 (R167): bits [63:32] of the signed product. -/
def opVimulhI32 (g : Guard) (o : RR) : Op :=
  guarded g none (fun i => i.vec2 o .rne 32 2 (fun x y _ => wrapN (sext x 32 * sext y 32 / 2 ^ 32) 32))

/-- `VIMULH_I32` alone in its bundle. -/
def execVimulhI32 (g : Guard) (o : RR) (s : State) : Result := issueSolo (.v (.vimulhI32 g o)) (opVimulhI32 g o) s

/-- VIMULH.n32 (R167). -/
def opVimulhN32 (g : Guard) (o : RR) : Op := guarded g none (fun i => i.vec2 o .rne 32 2 (fun x y _ => x * y / 2 ^ 32))

/-- `VIMULH_N32` alone in its bundle. -/
def execVimulhN32 (g : Guard) (o : RR) (s : State) : Result := issueSolo (.v (.vimulhN32 g o)) (opVimulhN32 g o) s

/-- VIMIN (R167). -/
def opViminI32 (g : Guard) (o : RR) : Op := guarded g none (fun i => i.vec2 o .rne 32 2 (fun x y _ => iminmax 32 true false x y))

/-- `VIMIN_I32` alone in its bundle. -/
def execViminI32 (g : Guard) (o : RR) (s : State) : Result := issueSolo (.v (.viminI32 g o)) (opViminI32 g o) s

/-- VIMIN (R167). -/
def opViminN32 (g : Guard) (o : RR) : Op := guarded g none (fun i => i.vec2 o .rne 32 2 (fun x y _ => iminmax 32 false false x y))

/-- `VIMIN_N32` alone in its bundle. -/
def execViminN32 (g : Guard) (o : RR) (s : State) : Result := issueSolo (.v (.viminN32 g o)) (opViminN32 g o) s

/-- VIMIN (R167). -/
def opViminI16 (g : Guard) (o : RR) : Op := guarded g none (fun i => i.vec2 o .rne 16 2 (fun x y _ => iminmax 16 true false x y))

/-- `VIMIN_I16` alone in its bundle. -/
def execViminI16 (g : Guard) (o : RR) (s : State) : Result := issueSolo (.v (.viminI16 g o)) (opViminI16 g o) s

/-- VIMIN (R167). -/
def opViminI8 (g : Guard) (o : RR) : Op := guarded g none (fun i => i.vec2 o .rne 8 2 (fun x y _ => iminmax 8 true false x y))

/-- `VIMIN_I8` alone in its bundle. -/
def execViminI8 (g : Guard) (o : RR) (s : State) : Result := issueSolo (.v (.viminI8 g o)) (opViminI8 g o) s

/-- VIMAX (R167). -/
def opVimaxI32 (g : Guard) (o : RR) : Op := guarded g none (fun i => i.vec2 o .rne 32 2 (fun x y _ => iminmax 32 true true x y))

/-- `VIMAX_I32` alone in its bundle. -/
def execVimaxI32 (g : Guard) (o : RR) (s : State) : Result := issueSolo (.v (.vimaxI32 g o)) (opVimaxI32 g o) s

/-- VIMAX (R167). -/
def opVimaxN32 (g : Guard) (o : RR) : Op := guarded g none (fun i => i.vec2 o .rne 32 2 (fun x y _ => iminmax 32 false true x y))

/-- `VIMAX_N32` alone in its bundle. -/
def execVimaxN32 (g : Guard) (o : RR) (s : State) : Result := issueSolo (.v (.vimaxN32 g o)) (opVimaxN32 g o) s

/-- VIMAX (R167). -/
def opVimaxI16 (g : Guard) (o : RR) : Op := guarded g none (fun i => i.vec2 o .rne 16 2 (fun x y _ => iminmax 16 true true x y))

/-- `VIMAX_I16` alone in its bundle. -/
def execVimaxI16 (g : Guard) (o : RR) (s : State) : Result := issueSolo (.v (.vimaxI16 g o)) (opVimaxI16 g o) s

/-- VIMAX (R167). -/
def opVimaxI8 (g : Guard) (o : RR) : Op := guarded g none (fun i => i.vec2 o .rne 8 2 (fun x y _ => iminmax 8 true true x y))

/-- `VIMAX_I8` alone in its bundle. -/
def execVimaxI8 (g : Guard) (o : RR) (s : State) : Result := issueSolo (.v (.vimaxI8 g o)) (opVimaxI8 g o) s

/-- VSHL (R167). -/
def opVshl32 (g : Guard) (o : RR) : Op := guarded g none (fun i => i.vec2 o .rne 32 2 (fun x y _ => x * 2 ^ (y % 32) % 2 ^ 32))

/-- `VSHL_32` alone in its bundle. -/
def execVshl32 (g : Guard) (o : RR) (s : State) : Result := issueSolo (.v (.vshl32 g o)) (opVshl32 g o) s

/-- VSHL (R167). -/
def opVshl16 (g : Guard) (o : RR) : Op := guarded g none (fun i => i.vec2 o .rne 16 2 (fun x y _ => x * 2 ^ (y % 16) % 2 ^ 16))

/-- `VSHL_16` alone in its bundle. -/
def execVshl16 (g : Guard) (o : RR) (s : State) : Result := issueSolo (.v (.vshl16 g o)) (opVshl16 g o) s

/-- VSHR (R167). -/
def opVshr32 (g : Guard) (o : RR) : Op := guarded g none (fun i => i.vec2 o .rne 32 2 (fun x y _ => x / 2 ^ (y % 32)))

/-- `VSHR_32` alone in its bundle. -/
def execVshr32 (g : Guard) (o : RR) (s : State) : Result := issueSolo (.v (.vshr32 g o)) (opVshr32 g o) s

/-- VSHR (R167). -/
def opVshr16 (g : Guard) (o : RR) : Op := guarded g none (fun i => i.vec2 o .rne 16 2 (fun x y _ => x / 2 ^ (y % 16)))

/-- `VSHR_16` alone in its bundle. -/
def execVshr16 (g : Guard) (o : RR) (s : State) : Result := issueSolo (.v (.vshr16 g o)) (opVshr16 g o) s

/-- VSAR (R167). -/
def opVsar32 (g : Guard) (o : RR) : Op := guarded g none (fun i => i.vec2 o .rne 32 2 (fun x y _ => wrapN (sext x 32 / 2 ^ (y % 32)) 32))

/-- `VSAR_32` alone in its bundle. -/
def execVsar32 (g : Guard) (o : RR) (s : State) : Result := issueSolo (.v (.vsar32 g o)) (opVsar32 g o) s

/-- VSAR (R167). -/
def opVsar16 (g : Guard) (o : RR) : Op := guarded g none (fun i => i.vec2 o .rne 16 2 (fun x y _ => wrapN (sext x 16 / 2 ^ (y % 16)) 16))

/-- `VSAR_16` alone in its bundle. -/
def execVsar16 (g : Guard) (o : RR) (s : State) : Result := issueSolo (.v (.vsar16 g o)) (opVsar16 g o) s

/-- VAND (R167). -/
def opVand (g : Guard) (o : RR) : Op := guarded g none (fun i => i.vbits o (fun x y => x &&& y))

/-- `VAND` alone in its bundle. -/
def execVand (g : Guard) (o : RR) (s : State) : Result := issueSolo (.v (.vand g o)) (opVand g o) s

/-- VOR (R167). -/
def opVor (g : Guard) (o : RR) : Op := guarded g none (fun i => i.vbits o (fun x y => x ||| y))

/-- `VOR` alone in its bundle. -/
def execVor (g : Guard) (o : RR) (s : State) : Result := issueSolo (.v (.vor g o)) (opVor g o) s

/-- VXOR (R167). -/
def opVxor (g : Guard) (o : RR) : Op := guarded g none (fun i => i.vbits o (fun x y => x ^^^ y))

/-- `VXOR` alone in its bundle. -/
def execVxor (g : Guard) (o : RR) (s : State) : Result := issueSolo (.v (.vxor g o)) (opVxor g o) s

/-- VMSEL (R169): byte by byte under m[k]. -/
def opVmsel (g : Guard) (o : RRR) : Op :=
  guarded g none (fun i => do
  let x ← i.readReg .v o.s1.toNat
  let y ← i.readReg .v o.s2.toNat
  let m := i.pre.getM o.s3.toNat
  i.toV o.d.toNat false (mapLanes 8 (fun k => if m.getLsbD k then lane x 8 k else lane y 8 k)) 2)

/-- `VMSEL` alone in its bundle. -/
def execVmsel (g : Guard) (o : RRR) (s : State) : Result := issueSolo (.v (.vmsel g o)) (opVmsel g o) s

/-- VCMP.i32 (R168). -/
def opVcmpI32 (g : Guard) (o : RR) : Op := guarded g none (fun i => i.vcmp o 32 (fun k x y => icond k (sext x 32) (sext y 32)))

/-- `VCMP_I32` alone in its bundle. -/
def execVcmpI32 (g : Guard) (o : RR) (s : State) : Result := issueSolo (.v (.vcmpI32 g o)) (opVcmpI32 g o) s

/-- VCMP.n32 (R168). -/
def opVcmpN32 (g : Guard) (o : RR) : Op := guarded g none (fun i => i.vcmp o 32 (fun k x y => icond k x y))

/-- `VCMP_N32` alone in its bundle. -/
def execVcmpN32 (g : Guard) (o : RR) (s : State) : Result := issueSolo (.v (.vcmpN32 g o)) (opVcmpN32 g o) s

/-- VCMP.f32 (R168). -/
def opVcmpF32 (g : Guard) (o : RR) : Op := guarded g none (fun i => i.vcmp o 32 (fun k x y => fcond k (Fmt.f32.val x) (Fmt.f32.val y)))

/-- `VCMP_F32` alone in its bundle. -/
def execVcmpF32 (g : Guard) (o : RR) (s : State) : Result := issueSolo (.v (.vcmpF32 g o)) (opVcmpF32 g o) s

/-- VCMP.bf16 (R168). -/
def opVcmpBf16 (g : Guard) (o : RR) : Op := guarded g none (fun i => i.vcmp o 16 (fun k x y => fcond k (Fmt.bf16.val x) (Fmt.bf16.val y)))

/-- `VCMP_BF16` alone in its bundle. -/
def execVcmpBf16 (g : Guard) (o : RR) (s : State) : Result := issueSolo (.v (.vcmpBf16 g o)) (opVcmpBf16 g o) s


end Sys2Proof.Machine
end

