-- ==== Sys2Proof/Machine/VecMove.lean ====
section
/-! DEFINITION. Vector conversions, planes and outliers, reductions, permutes, the softmax merge and the drawing operations
(06_vector.md R170 to R181). -/

namespace Sys2Proof.Machine

/-- A permute of two sources. -/
def Issue.vpair (i : Issue) (o : RR) (f : Vec → Vec → Vec) : Except Stop Issue := do
  let (x, y, i) ← i.rrSources o .v .v
  i.toV o.d.toNat o.dnil (f x y) 2

/-- A permute with an immediate. -/
def Issue.vimm (i : Issue) (o : RI) (f : Vec → Vec) : Except Stop Issue := do
  let (x, i) ← i.source 0 (sm1 o.sm1) .v o.s1.toNat
  i.toV o.d.toNat false (f x) 2

/-- VPLSPLIT (R173): bit h of the code is the element half, bit 1 the plane group. -/
def plSplit (x old : Vec) (code : Nat) : Vec :=
  let h := code % 2
  let g := code / 2
  mapLanes 1 (fun b =>
    let q := b / 256
    let e := b % 256
    if e / 128 = h then bitN (lane x 8 (e % 128)) (7 - 4 * g - q) else lane old 1 b)

/-- VPLJOIN (R174). -/
def plJoin (x old : Vec) (code : Nat) : Vec :=
  let h := code % 2
  let g := code / 2
  mapLanes 1 (fun b =>
    let e := b / 8
    let k := b % 8
    if 7 - 4 * g - 3 ≤ k ∧ k ≤ 7 - 4 * g then lane x 1 (256 * (7 - 4 * g - k) + 128 * h + e) else lane old 1 b)

/-- VOUTAPPLY (R175): 16 entries in ascending order, the first element's index `e0`. -/
def outApply (ents : Vec) (e0 : Nat) (old : Vec) : Vec :=
  vecOf 32 ((List.range 16).foldl (fun (l : List Nat) k =>
    let idx := lane ents 32 (2 * k)
    if e0 ≤ idx ∧ idx - e0 < 32 then setNth l (idx - e0) (addF32 (nth 0 l (idx - e0)) (lane ents 32 (2 * k + 1))) else l) (lanes old 32))

/-- VRARGMAX (R177). -/
def argMax (l : List Nat) : List Nat :=
  let pairs := (List.range l.length).map (fun k => nth 0 l k + 2 ^ 32 * k)
  let r := treeRoot argNode 5 pairs
  if (Fmt.f32.val (r % 2 ^ 32)).isNan then [Fmt.f32.nan, 0] else [r % 2 ^ 32, r / 2 ^ 32]

/-- Exp2Factor(m − n) of R179 for m < n. -/
def exp2Factor (m n : FVal) : FVal :=
  match m, n with
  | .fin _ _ _, .fin _ _ _ => Fmt.f32.val (roundExp2 .f32 .rne 0 (Dy.add m.dy n.dy.neg))
  | _, _ => .fin false 0 0

/-- One row of VSMMERGE (R179). -/
def smMerge (o1 o2 m1 m2 : Nat) : Nat :=
  let a := Fmt.f32.val m1
  let b := Fmt.f32.val m2
  let one : FVal := .fin false 1 0
  if a.isNan || b.isNan then Fmt.f32.nan else
  let f1 := if a.lt b then exp2Factor a b else one
  let f2 := if b.lt a then exp2Factor b a else one
  roundSum .f32 .rne 0 (addVal .rne (mulVal (Fmt.f32.val o1) f1) (mulVal (Fmt.f32.val o2) f2))

/-- A drawing operation of `n` words (R180). -/
def Issue.vdraw (i : Issue) (o : RR) (n lat : Nat) (f : List Nat → Vec) : Except Stop Issue :=
  let (ws, i) := i.words n
  i.toV o.d.toNat o.dnil (f ws) lat

/-- VCVT to f32 (R170, R171). -/
def opVcvtF32 (g : Guard) (rm : RMode) (o : CV) : Op := guarded g none (fun i => i.cvt o (cfmt o.sfmt.toNat) (cfmt 0) rm)

/-- `VCVT_F32` alone in its bundle. -/
def execVcvtF32 (g : Guard) (rm : RMode) (o : CV) (s : State) : Result := issueSolo (.v (.vcvtF32 g rm o)) (opVcvtF32 g rm o) s

/-- VCVT to bf16 (R170, R171). -/
def opVcvtBf16 (g : Guard) (rm : RMode) (o : CV) : Op := guarded g none (fun i => i.cvt o (cfmt o.sfmt.toNat) (cfmt 1) rm)

/-- `VCVT_BF16` alone in its bundle. -/
def execVcvtBf16 (g : Guard) (rm : RMode) (o : CV) (s : State) : Result := issueSolo (.v (.vcvtBf16 g rm o)) (opVcvtBf16 g rm o) s

/-- VCVT to f16 (R170, R171). -/
def opVcvtF16 (g : Guard) (rm : RMode) (o : CV) : Op := guarded g none (fun i => i.cvt o (cfmt o.sfmt.toNat) (cfmt 2) rm)

/-- `VCVT_F16` alone in its bundle. -/
def execVcvtF16 (g : Guard) (rm : RMode) (o : CV) (s : State) : Result := issueSolo (.v (.vcvtF16 g rm o)) (opVcvtF16 g rm o) s

/-- VCVT to i8 (R170, R171). -/
def opVcvtI8 (g : Guard) (rm : RMode) (o : CV) : Op := guarded g none (fun i => i.cvt o (cfmt o.sfmt.toNat) (cfmt 3) rm)

/-- `VCVT_I8` alone in its bundle. -/
def execVcvtI8 (g : Guard) (rm : RMode) (o : CV) (s : State) : Result := issueSolo (.v (.vcvtI8 g rm o)) (opVcvtI8 g rm o) s

/-- VCVT to n8 (R170, R171). -/
def opVcvtN8 (g : Guard) (rm : RMode) (o : CV) : Op := guarded g none (fun i => i.cvt o (cfmt o.sfmt.toNat) (cfmt 4) rm)

/-- `VCVT_N8` alone in its bundle. -/
def execVcvtN8 (g : Guard) (rm : RMode) (o : CV) (s : State) : Result := issueSolo (.v (.vcvtN8 g rm o)) (opVcvtN8 g rm o) s

/-- VCVT to i16 (R170, R171). -/
def opVcvtI16 (g : Guard) (rm : RMode) (o : CV) : Op := guarded g none (fun i => i.cvt o (cfmt o.sfmt.toNat) (cfmt 5) rm)

/-- `VCVT_I16` alone in its bundle. -/
def execVcvtI16 (g : Guard) (rm : RMode) (o : CV) (s : State) : Result := issueSolo (.v (.vcvtI16 g rm o)) (opVcvtI16 g rm o) s

/-- VCVT to n16 (R170, R171). -/
def opVcvtN16 (g : Guard) (rm : RMode) (o : CV) : Op := guarded g none (fun i => i.cvt o (cfmt o.sfmt.toNat) (cfmt 6) rm)

/-- `VCVT_N16` alone in its bundle. -/
def execVcvtN16 (g : Guard) (rm : RMode) (o : CV) (s : State) : Result := issueSolo (.v (.vcvtN16 g rm o)) (opVcvtN16 g rm o) s

/-- VCVT to i32 (R170, R171). -/
def opVcvtI32 (g : Guard) (rm : RMode) (o : CV) : Op := guarded g none (fun i => i.cvt o (cfmt o.sfmt.toNat) (cfmt 7) rm)

/-- `VCVT_I32` alone in its bundle. -/
def execVcvtI32 (g : Guard) (rm : RMode) (o : CV) (s : State) : Result := issueSolo (.v (.vcvtI32 g rm o)) (opVcvtI32 g rm o) s

/-- VCVT to n32 (R170, R171). -/
def opVcvtN32 (g : Guard) (rm : RMode) (o : CV) : Op := guarded g none (fun i => i.cvt o (cfmt o.sfmt.toNat) (cfmt 8) rm)

/-- `VCVT_N32` alone in its bundle. -/
def execVcvtN32 (g : Guard) (rm : RMode) (o : CV) (s : State) : Result := issueSolo (.v (.vcvtN32 g rm o)) (opVcvtN32 g rm o) s

/-- VSRND (R172): FP32 to the format of SFMT, stochastically. -/
def opVsrnd (g : Guard) (o : CV) : Op := guarded g none (fun i => i.cvt o (cfmt 0) (cfmt o.sfmt.toNat) .rs)

/-- `VSRND` alone in its bundle. -/
def execVsrnd (g : Guard) (o : CV) (s : State) : Result := issueSolo (.v (.vsrnd g o)) (opVsrnd g o) s

/-- VPLSPLIT (R173). -/
def opVplsplit (g : Guard) (o : RR) : Op :=
  guarded g none (fun i => do
  let old ← i.kept o.d.toNat o.dnil
  let (x, i) ← i.v1 o
  i.toV o.d.toNat o.dnil (plSplit x old o.s2.toNat) 2)

/-- `VPLSPLIT` alone in its bundle. -/
def execVplsplit (g : Guard) (o : RR) (s : State) : Result := issueSolo (.v (.vplsplit g o)) (opVplsplit g o) s

/-- VPLJOIN (R174). -/
def opVpljoin (g : Guard) (o : RR) : Op :=
  guarded g none (fun i => do
  let old ← i.kept o.d.toNat o.dnil
  let (x, i) ← i.v1 o
  i.toV o.d.toNat o.dnil (plJoin x old o.s2.toNat) 2)

/-- `VPLJOIN` alone in its bundle. -/
def execVpljoin (g : Guard) (o : RR) (s : State) : Result := issueSolo (.v (.vpljoin g o)) (opVpljoin g o) s

/-- VOUTAPPLY (R175). -/
def opVoutapply (g : Guard) (o : RR) : Op :=
  guarded g none (fun i => do
  let old ← i.kept o.d.toNat o.dnil
  let (x, y, i) ← i.rrSources o .v .v
  i.toV o.d.toNat o.dnil (outApply x (lane y 32 0) old) 4)

/-- `VOUTAPPLY` alone in its bundle. -/
def execVoutapply (g : Guard) (o : RR) (s : State) : Result := issueSolo (.v (.voutapply g o)) (opVoutapply g o) s

/-- VRSUM.f32 (R176, R177). -/
def opVrsumF32 (g : Guard) (rm : RMode) (o : RR) : Op :=
  guarded g none (fun i => i.reduce o rm 32 (2 ^ 31) (fun l u => [treeSum .f32 rm 4 l u]))

/-- `VRSUM_F32` alone in its bundle. -/
def execVrsumF32 (g : Guard) (rm : RMode) (o : RR) (s : State) : Result := issueSolo (.v (.vrsumF32 g rm o)) (opVrsumF32 g rm o) s

/-- VRSUM.bf16 (R176, R177): the tree in FP32. -/
def opVrsumBf16 (g : Guard) (rm : RMode) (o : RR) : Op :=
  guarded g none (fun i => i.reduce o rm 16 (2 ^ 15) (fun l u => [treeSum .bf16 rm 5 (l.map (fun x => x * 2 ^ 16)) u]))

/-- `VRSUM_BF16` alone in its bundle. -/
def execVrsumBf16 (g : Guard) (rm : RMode) (o : RR) (s : State) : Result := issueSolo (.v (.vrsumBf16 g rm o)) (opVrsumBf16 g rm o) s

/-- VRSUM.i32 (R176). -/
def opVrsumI32 (g : Guard) (rm : RMode) (o : RR) : Op :=
  guarded g none (fun i => i.reduce o rm 32 0 (fun l _ => [treeRoot (fun a b => (a + b) % 2 ^ 32) 5 l]))

/-- `VRSUM_I32` alone in its bundle. -/
def execVrsumI32 (g : Guard) (rm : RMode) (o : RR) (s : State) : Result := issueSolo (.v (.vrsumI32 g rm o)) (opVrsumI32 g rm o) s

/-- VRMAX.f32 (R176). -/
def opVrmaxF32 (g : Guard) (rm : RMode) (o : RR) : Op :=
  guarded g none (fun i => i.reduce o rm 32 0xFF800000 (fun l _ => [treeRoot (fminmax .f32 true) 5 l]))

/-- `VRMAX_F32` alone in its bundle. -/
def execVrmaxF32 (g : Guard) (rm : RMode) (o : RR) (s : State) : Result := issueSolo (.v (.vrmaxF32 g rm o)) (opVrmaxF32 g rm o) s

/-- VRMAX.i32 (R176). -/
def opVrmaxI32 (g : Guard) (rm : RMode) (o : RR) : Op :=
  guarded g none (fun i => i.reduce o rm 32 (2 ^ 31) (fun l _ => [treeRoot (iminmax 32 true true) 5 l]))

/-- `VRMAX_I32` alone in its bundle. -/
def execVrmaxI32 (g : Guard) (rm : RMode) (o : RR) (s : State) : Result := issueSolo (.v (.vrmaxI32 g rm o)) (opVrmaxI32 g rm o) s

/-- VRMIN.f32 (R176). -/
def opVrminF32 (g : Guard) (rm : RMode) (o : RR) : Op :=
  guarded g none (fun i => i.reduce o rm 32 0x7F800000 (fun l _ => [treeRoot (fminmax .f32 false) 5 l]))

/-- `VRMIN_F32` alone in its bundle. -/
def execVrminF32 (g : Guard) (rm : RMode) (o : RR) (s : State) : Result := issueSolo (.v (.vrminF32 g rm o)) (opVrminF32 g rm o) s

/-- VRMIN.i32 (R176). -/
def opVrminI32 (g : Guard) (rm : RMode) (o : RR) : Op :=
  guarded g none (fun i => i.reduce o rm 32 (2 ^ 31 - 1) (fun l _ => [treeRoot (iminmax 32 true false) 5 l]))

/-- `VRMIN_I32` alone in its bundle. -/
def execVrminI32 (g : Guard) (rm : RMode) (o : RR) (s : State) : Result := issueSolo (.v (.vrminI32 g rm o)) (opVrminI32 g rm o) s

/-- VRARGMAX.f32 (R176, R177): value in lane 0, index in lane 1. -/
def opVrargmaxF32 (g : Guard) (rm : RMode) (o : RR) : Op := guarded g none (fun i => i.reduce o rm 32 0xFF800000 (fun l _ => argMax l))

/-- `VRARGMAX_F32` alone in its bundle. -/
def execVrargmaxF32 (g : Guard) (rm : RMode) (o : RR) (s : State) : Result := issueSolo (.v (.vrargmaxF32 g rm o)) (opVrargmaxF32 g rm o) s

/-- VPERM (R178). -/
def opVperm (g : Guard) (o : RR) : Op :=
  guarded g none (fun i => i.vpair o (fun x y => mapLanes 32 (fun k => lane x 32 (lane y 32 k % 32))))

/-- `VPERM` alone in its bundle. -/
def execVperm (g : Guard) (o : RR) (s : State) : Result := issueSolo (.v (.vperm g o)) (opVperm g o) s

/-- VSHUF (R178). -/
def opVshuf (g : Guard) (o : RR) : Op := guarded g none (fun i => i.vpair o (fun x y => mapLanes 8 (fun k => lane x 8 (lane y 8 k % 128))))

/-- `VSHUF` alone in its bundle. -/
def execVshuf (g : Guard) (o : RR) (s : State) : Result := issueSolo (.v (.vshuf g o)) (opVshuf g o) s

/-- VBCAST (R178). -/
def opVbcast (g : Guard) (o : RI) : Op := guarded g none (fun i => i.vimm o (fun x => mapLanes 32 (fun _ => lane x 32 o.imm.toNat)))

/-- `VBCAST` alone in its bundle. -/
def execVbcast (g : Guard) (o : RI) (s : State) : Result := issueSolo (.v (.vbcast g o)) (opVbcast g o) s

/-- VSLIDE (R178). -/
def opVslide (g : Guard) (o : RI) : Op :=
  guarded g none (fun i => i.vimm o (fun x => mapLanes 32 (fun k => if k + o.imm.toNat < 32 then lane x 32 (k + o.imm.toNat) else 0)))

/-- `VSLIDE` alone in its bundle. -/
def execVslide (g : Guard) (o : RI) (s : State) : Result := issueSolo (.v (.vslide g o)) (opVslide g o) s

/-- VZIP (R178). -/
def opVzip (g : Guard) (o : RR) : Op :=
  guarded g none (fun i => i.vpair o (fun x y => mapLanes 32 (fun k => if k % 2 = 0 then lane x 32 (k / 2) else lane y 32 (k / 2))))

/-- `VZIP` alone in its bundle. -/
def execVzip (g : Guard) (o : RR) (s : State) : Result := issueSolo (.v (.vzip g o)) (opVzip g o) s

/-- VUNZIP (R178). -/
def opVunzip (g : Guard) (o : RR) : Op :=
  guarded g none (fun i => i.vpair o (fun x y => mapLanes 32 (fun k => if k < 16 then lane x 32 (2 * k) else lane y 32 (2 * (k - 16)))))

/-- `VUNZIP` alone in its bundle. -/
def execVunzip (g : Guard) (o : RR) (s : State) : Result := issueSolo (.v (.vunzip g o)) (opVunzip g o) s

/-- VTRN4 (R178). -/
def opVtrn4 (g : Guard) (o : RR) : Op :=
  guarded g none (fun i => do
  let (x, i) ← i.v1 o
  i.toV o.d.toNat o.dnil (mapLanes 32 (fun k => lane x 32 (k / 16 * 16 + 4 * (k % 4) + k / 4 % 4))) 2)

/-- `VTRN4` alone in its bundle. -/
def execVtrn4 (g : Guard) (o : RR) (s : State) : Result := issueSolo (.v (.vtrn4 g o)) (opVtrn4 g o) s

/-- VSMMERGE (R179). -/
def opVsmmerge (g : Guard) (o : RRR) : Op :=
  guarded g none (fun i => do
  let o1 ← i.readReg .v o.d.toNat
  let o2 ← i.readReg .v o.s1.toNat
  let m1 ← i.readReg .v o.s2.toNat
  let m2 ← i.readReg .v o.s3.toNat
  i.toV o.d.toNat false (mapLanes 32 (fun k => smMerge (lane o1 32 k) (lane o2 32 k) (lane m1 32 k) (lane m2 32 k))) 8)

/-- `VSMMERGE` alone in its bundle. -/
def execVsmmerge (g : Guard) (o : RRR) (s : State) : Result := issueSolo (.v (.vsmmerge g o)) (opVsmmerge g o) s

/-- VRAND (R180). -/
def opVrand (g : Guard) (o : RR) : Op := guarded g none (fun i => i.vdraw o 32 2 (fun ws => vecOf 32 ws))

/-- `VRAND` alone in its bundle. -/
def execVrand (g : Guard) (o : RR) (s : State) : Result := issueSolo (.v (.vrand g o)) (opVrand g o) s

/-- VRANDF (R180; 03_numbers.md R91). -/
def opVrandf (g : Guard) (o : RR) : Op :=
  guarded g none (fun i => i.vdraw o 32 4 (fun ws => vecOf 32 (ws.map (fun w => roundVal .f32 .rne 0 (.fin false (w / 2 ^ 8) (-24))))))

/-- `VRANDF` alone in its bundle. -/
def execVrandf (g : Guard) (o : RR) (s : State) : Result := issueSolo (.v (.vrandf g o)) (opVrandf g o) s

/-- VRNORM (R180; 03_numbers.md R91). -/
def opVrnorm (g : Guard) (o : RR) : Op :=
  guarded g none (fun i => i.vdraw o 64 8 (fun ws => mapLanes 32 (fun k => rnormBits (nth 0 ws (2 * k)) (nth 0 ws (2 * k + 1)))))

/-- `VRNORM` alone in its bundle. -/
def execVrnorm (g : Guard) (o : RR) (s : State) : Result := issueSolo (.v (.vrnorm g o)) (opVrnorm g o) s

/-- VRNORMT (R180; 03_numbers.md R92). -/
def opVrnormt (g : Guard) (o : RR) : Op := guarded g none (fun i => i.vdraw o 32 4 (fun ws => vecOf 32 (ws.map normT)))

/-- `VRNORMT` alone in its bundle. -/
def execVrnormt (g : Guard) (o : RR) (s : State) : Result := issueSolo (.v (.vrnormt g o)) (opVrnormt g o) s

/-- VRSEED (R181): at the end of the bundle. -/
def opVrseed (g : Guard) (o : RR) : Op :=
  guarded g none (fun i => do
  let (x, i) ← i.v1 o
  .ok (i.afterCore (fun c => { c with rngK := x.setWidth 128, rngC := (x >>> 128).setWidth 128 })))

/-- `VRSEED` alone in its bundle. -/
def execVrseed (g : Guard) (o : RR) (s : State) : Result := issueSolo (.v (.vrseed g o)) (opVrseed g o) s


end Sys2Proof.Machine
end

