-- ==== Sys2Proof/Machine/Slots.lean ====
section
/-! DEFINITION. The meaning of each slot operation inside a bundle, by class (04_encoding.md R111 to R118). -/

namespace Sys2Proof.Machine

/-- What a scalar and control operation does. -/
def sOp : SInstr → Op
  | .add g o => opAdd g o
  | .sub g o => opSub g o
  | .addi g o => opAddi g o
  | .mul g o => opMul g o
  | .mulh g o => opMulh g o
  | .mulhn g o => opMulhn g o
  | .div g o => opDiv g o
  | .divn g o => opDivn g o
  | .rem g o => opRem g o
  | .remn g o => opRemn g o
  | .and g o => opAnd g o
  | .or g o => opOr g o
  | .xor g o => opXor g o
  | .andn g o => opAndn g o
  | .shl g o => opShl g o
  | .shr g o => opShr g o
  | .sar g o => opSar g o
  | .shli g o => opShli g o
  | .shri g o => opShri g o
  | .sari g o => opSari g o
  | .rot g o => opRot g o
  | .clz g o => opClz g o
  | .popc g o => opPopc g o
  | .min g o => opMin g o
  | .max g o => opMax g o
  | .minn g o => opMinn g o
  | .maxn g o => opMaxn g o
  | .sel g o => opSel g o
  | .li g o => opLi g o
  | .lih g o => opLih g o
  | .aadd g o => opAadd g o
  | .cmpEq g o => opCmpEq g o
  | .cmpNe g o => opCmpNe g o
  | .cmpLt g o => opCmpLt g o
  | .cmpLe g o => opCmpLe g o
  | .cmpGt g o => opCmpGt g o
  | .cmpGe g o => opCmpGe g o
  | .cmpLtn g o => opCmpLtn g o
  | .cmpLen g o => opCmpLen g o
  | .cmpGtn g o => opCmpGtn g o
  | .cmpGen g o => opCmpGen g o
  | .pand g o => opPand g o
  | .por g o => opPor g o
  | .pxor g o => opPxor g o
  | .pnot g o => opPnot g o
  | .pmov g o => opPmov g o
  | .amovAG g o => opAmovAG g o
  | .amovGA g o => opAmovGA g o
  | .amovAA g o => opAmovAA g o
  | .ldI8 g o => opLdI8 g o
  | .ldN8 g o => opLdN8 g o
  | .ldI16 g o => opLdI16 g o
  | .ldN16 g o => opLdN16 g o
  | .ldI32 g o => opLdI32 g o
  | .ldN32 g o => opLdN32 g o
  | .ld64 g o => opLd64 g o
  | .astr g o => opAstr g o
  | .st8 g o => opSt8 g o
  | .st16 g o => opSt16 g o
  | .st32 g o => opSt32 g o
  | .st64 g o => opSt64 g o
  | .br g o => opBr g o
  | .bt o => opBt o
  | .movb g o => opMovb g o
  | .call g o => opCall g o
  | .ret g o => opRet g o
  | .loop g o => opLoop g o
  | .lbrk g => opLbrk g
  | .rotb g o => opRotb g o
  | .stage g o => opStage g o
  | .halt g => opHalt g
  | .quiet g o => opQuiet g o
  | .lendb g o => opLendb g o
  | .retb g o => opRetb g o
  | .srd g o => opSrd g o
  | .swr g o => opSwr g o
  | .trap g o => opTrap g o
  | .trapen g => opTrapen g
  | .tret g => opTret g
  | .ctxstat g o => opCtxstat g o
  | .ctxfreeze g o => opCtxfreeze g o
  | .ctxfreezeSave g o => opCtxfreezeSave g o
  | .ctxsave g o => opCtxsave g o
  | .cutQuery g o => opCutQuery g o
  | .cutStop g o => opCutStop g o
  | .ctxresume g o => opCtxresume g o
  | .ctxrestoreResume g o => opCtxrestoreResume g o
  | .ctxrestore g o => opCtxrestore g o
  | .wqpush g o => opWqpush g o
  | .wqpop g o => opWqpop g o
  | .wqclose g o => opWqclose g o
  | .wqreopen g o => opWqreopen g o
  | .wqlen g o => opWqlen g o
  | .gpset g o => opGpset g o
  | .gpget g o => opGpget g o
  | .glaunch g o => opGlaunch g o
  | .kdone g o => opKdone g o
  | .grpid g o => opGrpid g o
  | .grpsize g o => opGrpsize g o
  | .binitReset g o => opBinitReset g o
  | .binitQuery g o => opBinitQuery g o
  | .barrive g o => opBarrive g o
  | .bwait g o => opBwait g o
  | .btry g o => opBtry g o
  | .wvbind g o => opWvbind g o
  | .wvunbind g o => opWvunbind g o
  | .wvslot g o => opWvslot g o
  | .wvpublish g o => opWvpublish g o
  | .wvread g o => opWvread g o
  | .confx g o => opConfx g o
  | .kvcommit g o => opKvcommit g o
  | .kvmodeSet g o => opKvmodeSet g o
  | .kvmodeGet g o => opKvmodeGet g o
  | .kvmodeSpec g o => opKvmodeSpec g o
  | .kvmodeQuery g o => opKvmodeQuery g o
  | .lktree g o => opLktree g o
  | .lkfree g o => opLkfree g o
  | .lkfreeCheck g o => opLkfreeCheck g o
  | .pgprobe g o => opPgprobe g o
  | .pginvUpdate g o => opPginvUpdate g o
  | .pginvMove g o => opPginvMove g o

/-- What a vector operation does. -/
def vOp : VInstr → Op
  | .vaddF32 g rm o => opVaddF32 g rm o
  | .vsubF32 g rm o => opVsubF32 g rm o
  | .vmulF32 g rm o => opVmulF32 g rm o
  | .vfmaF32 g rm o => opVfmaF32 g rm o
  | .vfmsF32 g rm o => opVfmsF32 g rm o
  | .vfnmaF32 g rm o => opVfnmaF32 g rm o
  | .vminF32 g rm o => opVminF32 g rm o
  | .vmaxF32 g rm o => opVmaxF32 g rm o
  | .vaddBf16 g rm o => opVaddBf16 g rm o
  | .vsubBf16 g rm o => opVsubBf16 g rm o
  | .vmulBf16 g rm o => opVmulBf16 g rm o
  | .vfmaBf16 g rm o => opVfmaBf16 g rm o
  | .vfmsBf16 g rm o => opVfmsBf16 g rm o
  | .vfnmaBf16 g rm o => opVfnmaBf16 g rm o
  | .vminBf16 g rm o => opVminBf16 g rm o
  | .vmaxBf16 g rm o => opVmaxBf16 g rm o
  | .vaddF16 g rm o => opVaddF16 g rm o
  | .vsubF16 g rm o => opVsubF16 g rm o
  | .vmulF16 g rm o => opVmulF16 g rm o
  | .vfmaF16 g rm o => opVfmaF16 g rm o
  | .vfmsF16 g rm o => opVfmsF16 g rm o
  | .vfnmaF16 g rm o => opVfnmaF16 g rm o
  | .vminF16 g rm o => opVminF16 g rm o
  | .vmaxF16 g rm o => opVmaxF16 g rm o
  | .vabsF32 g o => opVabsF32 g o
  | .vabsH g o => opVabsH g o
  | .vnegF32 g o => opVnegF32 g o
  | .vnegH g o => opVnegH g o
  | .vclassF32 g o => opVclassF32 g o
  | .vclassBf16 g o => opVclassBf16 g o
  | .vclassF16 g o => opVclassF16 g o
  | .vfinF32 g o => opVfinF32 g o
  | .vfinBf16 g o => opVfinBf16 g o
  | .vfinF16 g o => opVfinF16 g o
  | .vfinNfsF32 g o => opVfinNfsF32 g o
  | .vfinNfsBf16 g o => opVfinNfsBf16 g o
  | .vfinNfsF16 g o => opVfinNfsF16 g o
  | .vdivF32 g rm o => opVdivF32 g rm o
  | .vrcpF32 g rm o => opVrcpF32 g rm o
  | .vrsqF32 g rm o => opVrsqF32 g rm o
  | .vsqrtF32 g rm o => opVsqrtF32 g rm o
  | .vexp2F32 g rm o => opVexp2F32 g rm o
  | .vlog2F32 g rm o => opVlog2F32 g rm o
  | .vtanhF32 g rm o => opVtanhF32 g rm o
  | .vdivBf16 g rm o => opVdivBf16 g rm o
  | .vrcpBf16 g rm o => opVrcpBf16 g rm o
  | .vrsqBf16 g rm o => opVrsqBf16 g rm o
  | .vsqrtBf16 g rm o => opVsqrtBf16 g rm o
  | .vexp2Bf16 g rm o => opVexp2Bf16 g rm o
  | .vlog2Bf16 g rm o => opVlog2Bf16 g rm o
  | .vtanhBf16 g rm o => opVtanhBf16 g rm o
  | .viadd32 g o => opViadd32 g o
  | .viadd16 g o => opViadd16 g o
  | .viadd8 g o => opViadd8 g o
  | .visub32 g o => opVisub32 g o
  | .visub16 g o => opVisub16 g o
  | .visub8 g o => opVisub8 g o
  | .vimul32 g o => opVimul32 g o
  | .vimul16 g o => opVimul16 g o
  | .vimulhI32 g o => opVimulhI32 g o
  | .vimulhN32 g o => opVimulhN32 g o
  | .viminI32 g o => opViminI32 g o
  | .viminN32 g o => opViminN32 g o
  | .viminI16 g o => opViminI16 g o
  | .viminI8 g o => opViminI8 g o
  | .vimaxI32 g o => opVimaxI32 g o
  | .vimaxN32 g o => opVimaxN32 g o
  | .vimaxI16 g o => opVimaxI16 g o
  | .vimaxI8 g o => opVimaxI8 g o
  | .vshl32 g o => opVshl32 g o
  | .vshl16 g o => opVshl16 g o
  | .vshr32 g o => opVshr32 g o
  | .vshr16 g o => opVshr16 g o
  | .vsar32 g o => opVsar32 g o
  | .vsar16 g o => opVsar16 g o
  | .vand g o => opVand g o
  | .vor g o => opVor g o
  | .vxor g o => opVxor g o
  | .vmsel g o => opVmsel g o
  | .vcmpI32 g o => opVcmpI32 g o
  | .vcmpN32 g o => opVcmpN32 g o
  | .vcmpF32 g o => opVcmpF32 g o
  | .vcmpBf16 g o => opVcmpBf16 g o
  | .vcvtF32 g rm o => opVcvtF32 g rm o
  | .vcvtBf16 g rm o => opVcvtBf16 g rm o
  | .vcvtF16 g rm o => opVcvtF16 g rm o
  | .vcvtI8 g rm o => opVcvtI8 g rm o
  | .vcvtN8 g rm o => opVcvtN8 g rm o
  | .vcvtI16 g rm o => opVcvtI16 g rm o
  | .vcvtN16 g rm o => opVcvtN16 g rm o
  | .vcvtI32 g rm o => opVcvtI32 g rm o
  | .vcvtN32 g rm o => opVcvtN32 g rm o
  | .vsrnd g o => opVsrnd g o
  | .vplsplit g o => opVplsplit g o
  | .vpljoin g o => opVpljoin g o
  | .voutapply g o => opVoutapply g o
  | .vrsumF32 g rm o => opVrsumF32 g rm o
  | .vrsumBf16 g rm o => opVrsumBf16 g rm o
  | .vrsumI32 g rm o => opVrsumI32 g rm o
  | .vrmaxF32 g rm o => opVrmaxF32 g rm o
  | .vrmaxI32 g rm o => opVrmaxI32 g rm o
  | .vrminF32 g rm o => opVrminF32 g rm o
  | .vrminI32 g rm o => opVrminI32 g rm o
  | .vrargmaxF32 g rm o => opVrargmaxF32 g rm o
  | .vperm g o => opVperm g o
  | .vshuf g o => opVshuf g o
  | .vbcast g o => opVbcast g o
  | .vslide g o => opVslide g o
  | .vzip g o => opVzip g o
  | .vunzip g o => opVunzip g o
  | .vtrn4 g o => opVtrn4 g o
  | .vsmmerge g o => opVsmmerge g o
  | .vrand g o => opVrand g o
  | .vrandf g o => opVrandf g o
  | .vrnorm g o => opVrnorm g o
  | .vrnormt g o => opVrnormt g o
  | .vrseed g o => opVrseed g o
  | .vld g o => opVld g o
  | .vst g o => opVst g o
  | .vldg g o => opVldg g o
  | .vsts g o => opVsts g o
  | .vldpl g o => opVldpl g o

/-- What a transfer operation does. -/
def xOp : XInstr → Op
  | .xcopyIn g o => opXcopyIn g o
  | .xcopyOut g o => opXcopyOut g o
  | .xcopyOutAcc g o => opXcopyOutAcc g o
  | .xgather g o => opXgather g o
  | .xscatter g o => opXscatter g o
  | .xwbfill g o => opXwbfill g o
  | .xpref g o => opXpref g o
  | .xsend g o => opXsend g o
  | .xrecv g o => opXrecv g o
  | .xrecvaddF32 g o => opXrecvaddF32 g o
  | .xrecvaddI32 g o => opXrecvaddI32 g o
  | .xrecvaddBf16 g o => opXrecvaddBf16 g o
  | .xrld g o => opXrld g o
  | .xrst g o => opXrst g o
  | .xamoAdd32 g o => opXamoAdd32 g o
  | .xamoAdd64 g o => opXamoAdd64 g o
  | .xamoFaddF32 g o => opXamoFaddF32 g o
  | .xamoMin32 g o => opXamoMin32 g o
  | .xamoMin64 g o => opXamoMin64 g o
  | .xamoMax32 g o => opXamoMax32 g o
  | .xamoMax64 g o => opXamoMax64 g o
  | .xamoMinn32 g o => opXamoMinn32 g o
  | .xamoMinn64 g o => opXamoMinn64 g o
  | .xamoMaxn32 g o => opXamoMaxn32 g o
  | .xamoMaxn64 g o => opXamoMaxn64 g o
  | .xamoAnd32 g o => opXamoAnd32 g o
  | .xamoAnd64 g o => opXamoAnd64 g o
  | .xamoOr32 g o => opXamoOr32 g o
  | .xamoOr64 g o => opXamoOr64 g o
  | .xamoXor32 g o => opXamoXor32 g o
  | .xamoXor64 g o => opXamoXor64 g o
  | .xamoSwap32 g o => opXamoSwap32 g o
  | .xamoSwap64 g o => opXamoSwap64 g o
  | .xamoCas32 g o => opXamoCas32 g o
  | .xamoCas64 g o => opXamoCas64 g o
  | .xfence g o => opXfence g o
  | .xrel g o => opXrel g o
  | .xacq g o => opXacq g o
  | .xvld g o => opXvld g o
  | .xnmc g o => opXnmc g o
  | .xnmfence g => opXnmfence g
  | .xtagld g o => opXtagld g o
  | .xtagst g o => opXtagst g o
  | .tstate g o => opTstate g o
  | .tlayoutClaim g o => opTlayoutClaim g o
  | .tlayoutRelabel g o => opTlayoutRelabel g o
  | .tlayoutCheck g o => opTlayoutCheck g o
  | .trelease g o => opTrelease g o
  | .trjrec g o => opTrjrec g o
  | .bfpost g o => opBfpost g o

/-- What a matrix operation does. -/
def mOp : MInstr → Op
  | .mcfgMode g o => opMcfgMode g o
  | .mcfgOutlier g o => opMcfgOutlier g o
  | .mcfgQset g o => opMcfgQset g o
  | .mcfgWbp g o => opMcfgWbp g o
  | .mzero g o => opMzero g o
  | .msnap g o => opMsnap g o
  | .mresrd g o => opMresrd g o
  | .mreschk g o => opMreschk g o
  | .mpush g o => opMpush g o
  | .mpushWp g => opMpushWp g
  | .mswap g => opMswap g
  | .mshift g o => opMshift g o
  | .mdrain g o => opMdrain g o
  | .mdrainq g o => opMdrainq g o

/-- What a slot operation does. The empty slot does nothing and stands on no unit (R96). -/
def slotOp : SlotInstr → Op
  | .nop => .ok
  | .xnop => opXnop
  | .s i => sOp i
  | .v i => vOp i
  | .x i => xOp i
  | .m i => mOp i

end Sys2Proof.Machine
end

