-- ==== Sys2Proof/Machine/Bundle.lean ====
section
/-! DEFINITION. From the 128 bits at a core's pc to the slots of a bundle, and its issue (04_encoding.md R94 to R103; 02_core.md R24, R28). -/

namespace Sys2Proof.Machine

/-! ### Reading a bundle -/

/-- Slot `k` of a bundle (R94). -/
def slotWord (w : BitVec 128) (k : Nat) : W32 := w.extractLsb' (32 * k) 32

/-- Slot 0 holds the header (R95). -/
def hasHeader (w : BitVec 128) : Bool := let h := slotWord w 0; wordClass h = 0 && h.getLsbD 29

/-- The extension byte of slot `k`: the header's, or zero (R99, R103). -/
def slotExt (w : BitVec 128) (k : Nat) : Byte := if hasHeader w then w.extractLsb' (8 * (k - 1)) 8 else 0

/-- BRM of a bundle: round to nearest even without a header; codes 5 to 7 name no mode (R99, R100). -/
def bundleMode (w : BitVec 128) : Option RMode := if hasHeader w then RMode.ofCode (bits w.toNat 26 24) else some .rne

/-- Slot `k` as decoding leaves it; the slot checks do not depend on a mode that is not named. -/
def readSlot (w : BitVec 128) (k : Nat) : Slot :=
  let e := slotExt w k
  let x := slotWord w k
  let dec : Option Op :=
    match decodeSlot (hasHeader w) ((bundleMode w).getD .rne) e x with
    | .ok i => some (slotOp i)
    | .error _ => none
  ⟨k, x, e, dec⟩

/-- The bundle of 128 bits (R94 to R103). -/
def readBundle (w : BitVec 128) : Bundle :=
  let hdr := hasHeader w
  { head := slotWord w 0, quiet := hdr && w.getLsbD 28, bkpt := hdr && w.getLsbD 27, badHead := (bundleMode w).isNone,
    rm := (bundleMode w).getD .rne, slots := (if hdr then [1, 2, 3] else [0, 1, 2, 3]).map (readSlot w) }

/-! ### Fetching it (R28, R44; 11_page.md R287, R288) -/

/-- What a fetch gives: the bundle's bits, or why there are none. -/
inductive Fetched where
  | word (w : BitVec 128)
  | absent (kind : Nat)
  | hold
  | trap (cause : Nat) (addr : W64)
  | outside
  | bad (pa : Nat)
deriving DecidableEq, Repr

/-- The bundle of the loop buffer that core `n` issues next, while it issues from there. -/
def Core.buffered (c : Core) : Option (BitVec 128) := match c.lbix with | some k => Tbl.get none c.loopBuf k | none => none

/-- The bundle core `n` issues next: from the loop buffer while it issues from there, else from its instruction cache or memory at its pc.
A fetch needs SL; it reads the replica of the core's own die (11_page.md R286; log entry 45). -/
def State.fetch (s : State) (n : Nat) : Fetched :=
  let c := s.core n
  match c.buffered with
  | some w => .word w
  | none =>
  match s.engineAt n c.pc permSL false with
  | .go pa =>
    let k := s.codeLine n pa s.fresh
    if poisoned k.tag then .trap 0x0A (BitVec.ofNat 64 (c.pc.toNat / 64 * 64)) else .word (BitVec.ofNat 128 (blockBytes k.data (pa % 64) 16))
  | .absent k => .absent k
  | .hold => .hold
  | .deny => .trap 9 c.pc
  | .poison => .trap 0x0A (BitVec.ofNat 64 (c.pc.toNat / 64 * 64))
  | .outside => .outside
  | .bad pa => .bad pa

/-- A bundle of the loop buffer that its load left out is held there once it has been fetched. -/
def Core.buffer (c : Core) (w : BitVec 128) : Core :=
  match c.lbix with | some k => { c with loopBuf := Tbl.set none c.loopBuf k (some w) } | none => c

/-- What the fetch of `w` leaves: its line in the instruction cache, and the bundle in the loop buffer where issue stands there. -/
def State.fetched (s : State) (n : Nat) (w : BitVec 128) : State :=
  let c := s.core n
  if c.buffered.isSome then s else
  match s.engineAt n c.pc permSL false with
  | .go pa =>
    { s with fresh := s.fresh + 1 }.upd n
      (fun c => (c.takeCode (Config.freeValue s.fresh).toNat (pa / 64) (s.codeLine n pa s.fresh)).buffer w)
  | _ => s

/-- A bundle of core `n` is fetched and reaches issue. Where it cannot be fetched the cycle is frozen (R28). -/
def fetchAndIssue (n : Nat) (s : State) : Result :=
  match s.fetch n with
  | .word w => issueBundle n (readBundle w) (s.fetched n w)
  | .absent k =>
    let c := s.core n
    .next (((s.spendCycle n).freezeBundle n).bundleFault n c.ctx c.pc k permSL false)
  | .hold => .next ((s.spendCycle n).freezeBundle n)
  | .trap cause addr => .next (((s.spendCycle n).abandon n).preciseTrap n cause 0 addr)
  | .outside => .next ((s.spendCycle n).abortBy n (s.core n).pc)
  | .bad pa => .fault (.noFrame pa)

/-- No other running core has still to have its bundle of an earlier cycle: the cores of the device issue in one and the same real time (R24,
R28). -/
def State.inTurn (s : State) (n : Nat) : Bool :=
  s.cores.all (fun c => !(c.2.run = .running && !c.2.replay && coreExists c.1) || decide ((s.core n).nextAt ≤ max s.now c.2.nextAt))

/-- A bundle passes decode and issues in one cycle (R24). -/
def execBundleIssue (core : Nat) (s : State) : Result :=
  if coreExists core && s.inTurn core then boundary core (fetchAndIssue core) { s with cur := core }
  else .fault (.eventCannotArise "BUNDLE_ISSUE")

/-! ### Replicated lines (09_memory_model.md R257, R258, R268) -/

/-- The locks that core `n`'s stores have asked for are all held, or none is. -/
def State.setLocks (s : State) (n : Nat) (held : Bool) : State :=
  { s with locks := s.locks.map (fun l => if l.core = n then { l with granted := held } else l) }

/-- REPLICA_COMMIT: the commit engine locks the lines that the held bundle of a core stores to, in every replica, and the bundle is
examined again. It issues, and every replica takes its stores at one time; or a condition of another slot still holds it, and the locks
are given up until that is over. So no lock waits for a core, and none outlasts the event. -/
def State.replicaCommit (s : State) (idx : Nat) : Result :=
  match s.locks[idx]? with
  | none => .fault (.eventCannotArise "REPLICA_COMMIT")
  | some l =>
    if !s.inTurn l.core then .fault (.eventCannotArise "REPLICA_COMMIT") else
    match boundary l.core (fetchAndIssue l.core) { s.setLocks l.core true with cur := l.core } with
    | .next t => .next (if (t.core l.core).heldBundle then t.setLocks l.core false else { t with locks := t.locks.filter (fun k => k.core ≠ l.core) })
    | r => r

/-- A store to lines of replicated pages is performed (R257). -/
def execReplicaCommit (idx : Nat) (s : State) : Result := s.replicaCommit idx

/-- The bundle of four empty words (R96). -/
def emptyBundle : Bundle := { head := 0, quiet := false, bkpt := false, badHead := false, rm := .rne, slots := [] }

/-- A bundle of empty slots issues: time and loops go on, nothing else happens (R96). -/
def execNop (s : State) : Result := boundary s.cur (issueBundle s.cur emptyBundle) s

/-! ### One operation laid out as a bundle (R123) -/

/-- The bits of the bundle that holds one slot word alone, with a header or without: an empty slot before an S operation of an
opcode above 0x3F, XNOP before an operation of X1. -/
def aloneWord (hdr : Bool) (w : W32) (ext : Byte) (rm : RMode) : BitVec 128 :=
  let quiet := decide (wordClass w = 0 ∧ wordOp w = 0x51)
  let x1 := decide (wordClass w = 3) && x1Only (wordOp w)
  let idx := if hdr && x1 then 2 else soloSlot w hdr
  let head : BitVec 128 := if hdr then
      0x20000000 ||| (BitVec.ofNat 128 (b2n quiet)) <<< 28 ||| (rm.code.setWidth 128) <<< 24 ||| (ext.setWidth 128) <<< (8 * (idx - 1))
    else 0
  let lead : BitVec 128 := if x1 then (0xC0000000 : BitVec 128) <<< (32 * (idx - 1)) else 0
  head ||| lead ||| (w.setWidth 128) <<< (32 * idx)

/-- The bits of `soloBundle i`. -/
def soloWord (i : SlotInstr) : BitVec 128 := aloneWord (wordNeedsHeader i.enc.1 i.enc.2 i.brm) i.enc.1 i.enc.2 i.brm

end Sys2Proof.Machine
end

