-- ==== Sys2Proof/Machine/Dispatch.lean ====
section
/-! DEFINITION. The meaning of every row of the opcode table: one call for each constructor of Instr. -/

namespace Sys2Proof.Machine

/-- What an instruction or event does at a state. -/
def exec (i : Instr) (s : State) : Host.Outcome State Fault Refusal :=
  match i with
  | .bundleIssue core => Sys2Proof.Machine.execBundleIssue core s
  | .resultDue core => Sys2Proof.Machine.execResultDue core s
  | .trapEntry core cause val addr => Sys2Proof.Machine.execTrapEntry core cause val addr s
  | .impreciseTrap core => Sys2Proof.Machine.execImpreciseTrap core s
  | .clkTick core => Sys2Proof.Machine.execClkTick core s
  | .beatDue core => Sys2Proof.Machine.execBeatDue core s
  | .rowReload core tile => Sys2Proof.Machine.execRowReload core tile s
  | .parityError core => Sys2Proof.Machine.execParityError core s
  | .eccError space addr src unc => Sys2Proof.Machine.execEccError space addr src unc s
  | .patrolScrub blk outcome => Sys2Proof.Machine.execPatrolScrub blk outcome s
  | .requestAnswer core entry => Sys2Proof.Machine.execRequestAnswer core entry s
  | .atomicAtHome core entry => Sys2Proof.Machine.execAtomicAtHome core entry s
  | .replicaCommit idx => Sys2Proof.Machine.execReplicaCommit idx s
  | .engineBlockConfirm core entry => Sys2Proof.Machine.execEngineBlockConfirm core entry s
  | .engineResume core entry => Sys2Proof.Machine.execEngineResume core entry s
  | .commandComplete core entry => Sys2Proof.Machine.execCommandComplete core entry s
  | .commandEndError core entry cause => Sys2Proof.Machine.execCommandEndError core entry cause s
  | .sendLand core entry => Sys2Proof.Machine.execSendLand core entry s
  | .xrelPerform core entry => Sys2Proof.Machine.execXrelPerform core entry s
  | .fenceClear core => Sys2Proof.Machine.execFenceClear core s
  | .nmGroup core entry unc => Sys2Proof.Machine.execNmGroup core entry unc s
  | .nmCommandEnd core entry => Sys2Proof.Machine.execNmCommandEnd core entry s
  | .shootdownAck unit => Sys2Proof.Machine.execShootdownAck unit s
  | .fbufGetWrite get => Sys2Proof.Machine.execFbufGetWrite get s
  | .contextLoadDone ctx => Sys2Proof.Machine.execContextLoadDone ctx s
  | .contextLoadError ctx => Sys2Proof.Machine.execContextLoadError ctx s
  | .partFrozen ctx q => Sys2Proof.Machine.execPartFrozen ctx q s
  | .saveDone ctx => Sys2Proof.Machine.execSaveDone ctx s
  | .saveFault ctx => Sys2Proof.Machine.execSaveFault ctx s
  | .restoreDone ctx => Sys2Proof.Machine.execRestoreDone ctx s
  | .restoreFault ctx => Sys2Proof.Machine.execRestoreFault ctx s
  | .scrubDone ctx => Sys2Proof.Machine.execScrubDone ctx s
  | .resumeReplay core => Sys2Proof.Machine.execResumeReplay core s
  | .quarantine die => Sys2Proof.Machine.execQuarantine die s
  | .dcntWindowClear => Sys2Proof.Machine.execDcntWindowClear s
  | .launchRecordRead k => Sys2Proof.Machine.execLaunchRecordRead k s
  | .priorityAging k cycles => Sys2Proof.Machine.execPriorityAging k cycles s
  | .groupPlace k => Sys2Proof.Machine.execGroupPlace k s
  | .groupLoaded grp => Sys2Proof.Machine.execGroupLoaded grp s
  | .groupRetire grp => Sys2Proof.Machine.execGroupRetire grp s
  | .kernelComplete k => Sys2Proof.Machine.execKernelComplete k s
  | .kernelAbort k => Sys2Proof.Machine.execKernelAbort k s
  | .replayBegin ctx graph => Sys2Proof.Machine.execReplayBegin ctx graph s
  | .replayEnd ctx graph => Sys2Proof.Machine.execReplayEnd ctx graph s
  | .chunkOp k op => Sys2Proof.Machine.execChunkOp k op s
  | .barrierArrival core entry => Sys2Proof.Machine.execBarrierArrival core entry s
  | .barrierMemberLeave core => Sys2Proof.Machine.execBarrierMemberLeave core s
  | .publishCommit ctx t => Sys2Proof.Machine.execPublishCommit ctx t s
  | .readerLeave idx => Sys2Proof.Machine.execReaderLeave idx s
  | .repartitionComplete => Sys2Proof.Machine.execRepartitionComplete s
  | .slotRunGrant core => Sys2Proof.Machine.execSlotRunGrant core s
  | .trrRecordWrite core entry => Sys2Proof.Machine.execTrrRecordWrite core entry s
  | .voidRecordWrite idx => Sys2Proof.Machine.execVoidRecordWrite idx s
  | .samplingPoll n => Sys2Proof.Machine.execSamplingPoll n s
  | .samplingPhase n => Sys2Proof.Machine.execSamplingPhase n s
  | .kvCompactionCopy n => Sys2Proof.Machine.execKvCompactionCopy n s
  | .kvCommitPoint n => Sys2Proof.Machine.execKvCommitPoint n s
  | .sweeperJobAccept core entry => Sys2Proof.Machine.execSweeperJobAccept core entry s
  | .sweeperDispatch => Sys2Proof.Machine.execSweeperDispatch s
  | .sweeperJobComplete n => Sys2Proof.Machine.execSweeperJobComplete n s
  | .sweeperJobAbort n => Sys2Proof.Machine.execSweeperJobAbort n s
  | .portEnable port => Sys2Proof.Machine.execPortEnable port s
  | .portDisable port => Sys2Proof.Machine.execPortDisable port s
  | .portRetrain port => Sys2Proof.Machine.execPortRetrain port s
  | .trainingUp port peer => Sys2Proof.Machine.execTrainingUp port peer s
  | .trainingDegraded port peer => Sys2Proof.Machine.execTrainingDegraded port peer s
  | .trainingFails port => Sys2Proof.Machine.execTrainingFails port s
  | .errorRateExceeded port => Sys2Proof.Machine.execErrorRateExceeded port s
  | .peerLost port => Sys2Proof.Machine.execPeerLost port s
  | .flitReceive port vc ctx va data tag bad => Sys2Proof.Machine.execFlitReceive port vc ctx va data tag bad s
  | .portStatusRead port => Sys2Proof.Machine.execPortStatusRead port s
  | .treeReserve slot remote ctx mode fmt ents => Sys2Proof.Machine.execTreeReserve slot remote ctx mode fmt ents s
  | .treeReserveAnswer slot status idx => Sys2Proof.Machine.execTreeReserveAnswer slot status idx s
  | .hostDoorbell fn put cmds => Sys2Proof.Machine.execHostDoorbell fn put cmds s
  | .hostRegWrite fn off val => Sys2Proof.Machine.execHostRegWrite fn off val s
  | .create fn cmd => Sys2Proof.Machine.execCreate fn cmd s
  | .destroy fn cmd => Sys2Proof.Machine.execDestroy fn cmd s
  | .wvdef fn cmd => Sys2Proof.Machine.execWvdef fn cmd s
  | .wvrem fn cmd => Sys2Proof.Machine.execWvrem fn cmd s
  | .ring fn cmd => Sys2Proof.Machine.execRing fn cmd s
  | .qcreate fn cmd => Sys2Proof.Machine.execQcreate fn cmd s
  | .graphrec fn cmd => Sys2Proof.Machine.execGraphrec fn cmd s
  | .replay fn cmd => Sys2Proof.Machine.execReplay fn cmd s
  | .launch fn cmd => Sys2Proof.Machine.execLaunch fn cmd s
  | .stream fn cmd => Sys2Proof.Machine.execStream fn cmd s
  | .streamEnd n status off => Sys2Proof.Machine.execStreamEnd n status off s
  | .attestRequest => Sys2Proof.Machine.execAttestRequest s
  | .errorLogGetWrite get => Sys2Proof.Machine.execErrorLogGetWrite get s
  | .powerMeasure watts temp => Sys2Proof.Machine.execPowerMeasure watts temp s
  | .thermalTrip => Sys2Proof.Machine.execThermalTrip s
  | .deviceReset => Sys2Proof.Machine.execDeviceReset s
  | .bringupStep ok => Sys2Proof.Machine.execBringupStep ok s
  | .lscaleWrite g src => Sys2Proof.Machine.execLscaleWrite g src s
  | .partWrite g src => Sys2Proof.Machine.execPartWrite g src s
  | .adoptWrite g src => Sys2Proof.Machine.execAdoptWrite g src s
  | .kvpolWrite g src => Sys2Proof.Machine.execKvpolWrite g src s
  | .lctlWrite g src => Sys2Proof.Machine.execLctlWrite g src s
  | .lstatWrite g n src => Sys2Proof.Machine.execLstatWrite g n src s
  | .wmarkWrite g n src => Sys2Proof.Machine.execWmarkWrite g n src s
  | .cdiagRead g dst => Sys2Proof.Machine.execCdiagRead g dst s
  | .hostMemoryAccess fn addr write data => Sys2Proof.Machine.execHostMemoryAccess fn addr write data s
  | .attestReportDone ok => Sys2Proof.Machine.execAttestReportDone ok s
  | .moveCopyDone => Sys2Proof.Machine.execMoveCopyDone s
  | .copyNodeComplete k => Sys2Proof.Machine.execCopyNodeComplete k s
  | .nop => Sys2Proof.Machine.execNop s
  | .add g o => Sys2Proof.Machine.execAdd g o s
  | .sub g o => Sys2Proof.Machine.execSub g o s
  | .addi g o => Sys2Proof.Machine.execAddi g o s
  | .mul g o => Sys2Proof.Machine.execMul g o s
  | .mulh g o => Sys2Proof.Machine.execMulh g o s
  | .mulhn g o => Sys2Proof.Machine.execMulhn g o s
  | .div g o => Sys2Proof.Machine.execDiv g o s
  | .divn g o => Sys2Proof.Machine.execDivn g o s
  | .rem g o => Sys2Proof.Machine.execRem g o s
  | .remn g o => Sys2Proof.Machine.execRemn g o s
  | .and g o => Sys2Proof.Machine.execAnd g o s
  | .or g o => Sys2Proof.Machine.execOr g o s
  | .xor g o => Sys2Proof.Machine.execXor g o s
  | .andn g o => Sys2Proof.Machine.execAndn g o s
  | .shl g o => Sys2Proof.Machine.execShl g o s
  | .shr g o => Sys2Proof.Machine.execShr g o s
  | .sar g o => Sys2Proof.Machine.execSar g o s
  | .shli g o => Sys2Proof.Machine.execShli g o s
  | .shri g o => Sys2Proof.Machine.execShri g o s
  | .sari g o => Sys2Proof.Machine.execSari g o s
  | .rot g o => Sys2Proof.Machine.execRot g o s
  | .clz g o => Sys2Proof.Machine.execClz g o s
  | .popc g o => Sys2Proof.Machine.execPopc g o s
  | .min g o => Sys2Proof.Machine.execMin g o s
  | .max g o => Sys2Proof.Machine.execMax g o s
  | .minn g o => Sys2Proof.Machine.execMinn g o s
  | .maxn g o => Sys2Proof.Machine.execMaxn g o s
  | .sel g o => Sys2Proof.Machine.execSel g o s
  | .li g o => Sys2Proof.Machine.execLi g o s
  | .lih g o => Sys2Proof.Machine.execLih g o s
  | .aadd g o => Sys2Proof.Machine.execAadd g o s
  | .cmpEq g o => Sys2Proof.Machine.execCmpEq g o s
  | .cmpNe g o => Sys2Proof.Machine.execCmpNe g o s
  | .cmpLt g o => Sys2Proof.Machine.execCmpLt g o s
  | .cmpLe g o => Sys2Proof.Machine.execCmpLe g o s
  | .cmpGt g o => Sys2Proof.Machine.execCmpGt g o s
  | .cmpGe g o => Sys2Proof.Machine.execCmpGe g o s
  | .cmpLtn g o => Sys2Proof.Machine.execCmpLtn g o s
  | .cmpLen g o => Sys2Proof.Machine.execCmpLen g o s
  | .cmpGtn g o => Sys2Proof.Machine.execCmpGtn g o s
  | .cmpGen g o => Sys2Proof.Machine.execCmpGen g o s
  | .pand g o => Sys2Proof.Machine.execPand g o s
  | .por g o => Sys2Proof.Machine.execPor g o s
  | .pxor g o => Sys2Proof.Machine.execPxor g o s
  | .pnot g o => Sys2Proof.Machine.execPnot g o s
  | .pmov g o => Sys2Proof.Machine.execPmov g o s
  | .amovAG g o => Sys2Proof.Machine.execAmovAG g o s
  | .amovGA g o => Sys2Proof.Machine.execAmovGA g o s
  | .amovAA g o => Sys2Proof.Machine.execAmovAA g o s
  | .ldI8 g o => Sys2Proof.Machine.execLdI8 g o s
  | .ldN8 g o => Sys2Proof.Machine.execLdN8 g o s
  | .ldI16 g o => Sys2Proof.Machine.execLdI16 g o s
  | .ldN16 g o => Sys2Proof.Machine.execLdN16 g o s
  | .ldI32 g o => Sys2Proof.Machine.execLdI32 g o s
  | .ldN32 g o => Sys2Proof.Machine.execLdN32 g o s
  | .ld64 g o => Sys2Proof.Machine.execLd64 g o s
  | .astr g o => Sys2Proof.Machine.execAstr g o s
  | .st8 g o => Sys2Proof.Machine.execSt8 g o s
  | .st16 g o => Sys2Proof.Machine.execSt16 g o s
  | .st32 g o => Sys2Proof.Machine.execSt32 g o s
  | .st64 g o => Sys2Proof.Machine.execSt64 g o s
  | .br g o => Sys2Proof.Machine.execBr g o s
  | .bt o => Sys2Proof.Machine.execBt o s
  | .movb g o => Sys2Proof.Machine.execMovb g o s
  | .call g o => Sys2Proof.Machine.execCall g o s
  | .ret g o => Sys2Proof.Machine.execRet g o s
  | .loop g o => Sys2Proof.Machine.execLoop g o s
  | .lbrk g => Sys2Proof.Machine.execLbrk g s
  | .rotb g o => Sys2Proof.Machine.execRotb g o s
  | .stage g o => Sys2Proof.Machine.execStage g o s
  | .halt g => Sys2Proof.Machine.execHalt g s
  | .quiet g o => Sys2Proof.Machine.execQuiet g o s
  | .lendb g o => Sys2Proof.Machine.execLendb g o s
  | .retb g o => Sys2Proof.Machine.execRetb g o s
  | .srd g o => Sys2Proof.Machine.execSrd g o s
  | .swr g o => Sys2Proof.Machine.execSwr g o s
  | .trap g o => Sys2Proof.Machine.execTrap g o s
  | .trapen g => Sys2Proof.Machine.execTrapen g s
  | .tret g => Sys2Proof.Machine.execTret g s
  | .ctxstat g o => Sys2Proof.Machine.execCtxstat g o s
  | .ctxfreeze g o => Sys2Proof.Machine.execCtxfreeze g o s
  | .ctxfreezeSave g o => Sys2Proof.Machine.execCtxfreezeSave g o s
  | .ctxsave g o => Sys2Proof.Machine.execCtxsave g o s
  | .cutQuery g o => Sys2Proof.Machine.execCutQuery g o s
  | .cutStop g o => Sys2Proof.Machine.execCutStop g o s
  | .ctxresume g o => Sys2Proof.Machine.execCtxresume g o s
  | .ctxrestoreResume g o => Sys2Proof.Machine.execCtxrestoreResume g o s
  | .ctxrestore g o => Sys2Proof.Machine.execCtxrestore g o s
  | .wqpush g o => Sys2Proof.Machine.execWqpush g o s
  | .wqpop g o => Sys2Proof.Machine.execWqpop g o s
  | .wqclose g o => Sys2Proof.Machine.execWqclose g o s
  | .wqreopen g o => Sys2Proof.Machine.execWqreopen g o s
  | .wqlen g o => Sys2Proof.Machine.execWqlen g o s
  | .gpset g o => Sys2Proof.Machine.execGpset g o s
  | .gpget g o => Sys2Proof.Machine.execGpget g o s
  | .glaunch g o => Sys2Proof.Machine.execGlaunch g o s
  | .kdone g o => Sys2Proof.Machine.execKdone g o s
  | .grpid g o => Sys2Proof.Machine.execGrpid g o s
  | .grpsize g o => Sys2Proof.Machine.execGrpsize g o s
  | .binitReset g o => Sys2Proof.Machine.execBinitReset g o s
  | .binitQuery g o => Sys2Proof.Machine.execBinitQuery g o s
  | .barrive g o => Sys2Proof.Machine.execBarrive g o s
  | .bwait g o => Sys2Proof.Machine.execBwait g o s
  | .btry g o => Sys2Proof.Machine.execBtry g o s
  | .wvbind g o => Sys2Proof.Machine.execWvbind g o s
  | .wvunbind g o => Sys2Proof.Machine.execWvunbind g o s
  | .wvslot g o => Sys2Proof.Machine.execWvslot g o s
  | .wvpublish g o => Sys2Proof.Machine.execWvpublish g o s
  | .wvread g o => Sys2Proof.Machine.execWvread g o s
  | .confx g o => Sys2Proof.Machine.execConfx g o s
  | .kvcommit g o => Sys2Proof.Machine.execKvcommit g o s
  | .kvmodeSet g o => Sys2Proof.Machine.execKvmodeSet g o s
  | .kvmodeGet g o => Sys2Proof.Machine.execKvmodeGet g o s
  | .kvmodeSpec g o => Sys2Proof.Machine.execKvmodeSpec g o s
  | .kvmodeQuery g o => Sys2Proof.Machine.execKvmodeQuery g o s
  | .lktree g o => Sys2Proof.Machine.execLktree g o s
  | .lkfree g o => Sys2Proof.Machine.execLkfree g o s
  | .lkfreeCheck g o => Sys2Proof.Machine.execLkfreeCheck g o s
  | .pgprobe g o => Sys2Proof.Machine.execPgprobe g o s
  | .pginvUpdate g o => Sys2Proof.Machine.execPginvUpdate g o s
  | .pginvMove g o => Sys2Proof.Machine.execPginvMove g o s
  | .vaddF32 g rm o => Sys2Proof.Machine.execVaddF32 g rm o s
  | .vsubF32 g rm o => Sys2Proof.Machine.execVsubF32 g rm o s
  | .vmulF32 g rm o => Sys2Proof.Machine.execVmulF32 g rm o s
  | .vfmaF32 g rm o => Sys2Proof.Machine.execVfmaF32 g rm o s
  | .vfmsF32 g rm o => Sys2Proof.Machine.execVfmsF32 g rm o s
  | .vfnmaF32 g rm o => Sys2Proof.Machine.execVfnmaF32 g rm o s
  | .vminF32 g rm o => Sys2Proof.Machine.execVminF32 g rm o s
  | .vmaxF32 g rm o => Sys2Proof.Machine.execVmaxF32 g rm o s
  | .vaddBf16 g rm o => Sys2Proof.Machine.execVaddBf16 g rm o s
  | .vsubBf16 g rm o => Sys2Proof.Machine.execVsubBf16 g rm o s
  | .vmulBf16 g rm o => Sys2Proof.Machine.execVmulBf16 g rm o s
  | .vfmaBf16 g rm o => Sys2Proof.Machine.execVfmaBf16 g rm o s
  | .vfmsBf16 g rm o => Sys2Proof.Machine.execVfmsBf16 g rm o s
  | .vfnmaBf16 g rm o => Sys2Proof.Machine.execVfnmaBf16 g rm o s
  | .vminBf16 g rm o => Sys2Proof.Machine.execVminBf16 g rm o s
  | .vmaxBf16 g rm o => Sys2Proof.Machine.execVmaxBf16 g rm o s
  | .vaddF16 g rm o => Sys2Proof.Machine.execVaddF16 g rm o s
  | .vsubF16 g rm o => Sys2Proof.Machine.execVsubF16 g rm o s
  | .vmulF16 g rm o => Sys2Proof.Machine.execVmulF16 g rm o s
  | .vfmaF16 g rm o => Sys2Proof.Machine.execVfmaF16 g rm o s
  | .vfmsF16 g rm o => Sys2Proof.Machine.execVfmsF16 g rm o s
  | .vfnmaF16 g rm o => Sys2Proof.Machine.execVfnmaF16 g rm o s
  | .vminF16 g rm o => Sys2Proof.Machine.execVminF16 g rm o s
  | .vmaxF16 g rm o => Sys2Proof.Machine.execVmaxF16 g rm o s
  | .vabsF32 g o => Sys2Proof.Machine.execVabsF32 g o s
  | .vabsH g o => Sys2Proof.Machine.execVabsH g o s
  | .vnegF32 g o => Sys2Proof.Machine.execVnegF32 g o s
  | .vnegH g o => Sys2Proof.Machine.execVnegH g o s
  | .vclassF32 g o => Sys2Proof.Machine.execVclassF32 g o s
  | .vclassBf16 g o => Sys2Proof.Machine.execVclassBf16 g o s
  | .vclassF16 g o => Sys2Proof.Machine.execVclassF16 g o s
  | .vfinF32 g o => Sys2Proof.Machine.execVfinF32 g o s
  | .vfinBf16 g o => Sys2Proof.Machine.execVfinBf16 g o s
  | .vfinF16 g o => Sys2Proof.Machine.execVfinF16 g o s
  | .vfinNfsF32 g o => Sys2Proof.Machine.execVfinNfsF32 g o s
  | .vfinNfsBf16 g o => Sys2Proof.Machine.execVfinNfsBf16 g o s
  | .vfinNfsF16 g o => Sys2Proof.Machine.execVfinNfsF16 g o s
  | .vdivF32 g rm o => Sys2Proof.Machine.execVdivF32 g rm o s
  | .vrcpF32 g rm o => Sys2Proof.Machine.execVrcpF32 g rm o s
  | .vrsqF32 g rm o => Sys2Proof.Machine.execVrsqF32 g rm o s
  | .vsqrtF32 g rm o => Sys2Proof.Machine.execVsqrtF32 g rm o s
  | .vexp2F32 g rm o => Sys2Proof.Machine.execVexp2F32 g rm o s
  | .vlog2F32 g rm o => Sys2Proof.Machine.execVlog2F32 g rm o s
  | .vtanhF32 g rm o => Sys2Proof.Machine.execVtanhF32 g rm o s
  | .vdivBf16 g rm o => Sys2Proof.Machine.execVdivBf16 g rm o s
  | .vrcpBf16 g rm o => Sys2Proof.Machine.execVrcpBf16 g rm o s
  | .vrsqBf16 g rm o => Sys2Proof.Machine.execVrsqBf16 g rm o s
  | .vsqrtBf16 g rm o => Sys2Proof.Machine.execVsqrtBf16 g rm o s
  | .vexp2Bf16 g rm o => Sys2Proof.Machine.execVexp2Bf16 g rm o s
  | .vlog2Bf16 g rm o => Sys2Proof.Machine.execVlog2Bf16 g rm o s
  | .vtanhBf16 g rm o => Sys2Proof.Machine.execVtanhBf16 g rm o s
  | .viadd32 g o => Sys2Proof.Machine.execViadd32 g o s
  | .viadd16 g o => Sys2Proof.Machine.execViadd16 g o s
  | .viadd8 g o => Sys2Proof.Machine.execViadd8 g o s
  | .visub32 g o => Sys2Proof.Machine.execVisub32 g o s
  | .visub16 g o => Sys2Proof.Machine.execVisub16 g o s
  | .visub8 g o => Sys2Proof.Machine.execVisub8 g o s
  | .vimul32 g o => Sys2Proof.Machine.execVimul32 g o s
  | .vimul16 g o => Sys2Proof.Machine.execVimul16 g o s
  | .vimulhI32 g o => Sys2Proof.Machine.execVimulhI32 g o s
  | .vimulhN32 g o => Sys2Proof.Machine.execVimulhN32 g o s
  | .viminI32 g o => Sys2Proof.Machine.execViminI32 g o s
  | .viminN32 g o => Sys2Proof.Machine.execViminN32 g o s
  | .viminI16 g o => Sys2Proof.Machine.execViminI16 g o s
  | .viminI8 g o => Sys2Proof.Machine.execViminI8 g o s
  | .vimaxI32 g o => Sys2Proof.Machine.execVimaxI32 g o s
  | .vimaxN32 g o => Sys2Proof.Machine.execVimaxN32 g o s
  | .vimaxI16 g o => Sys2Proof.Machine.execVimaxI16 g o s
  | .vimaxI8 g o => Sys2Proof.Machine.execVimaxI8 g o s
  | .vshl32 g o => Sys2Proof.Machine.execVshl32 g o s
  | .vshl16 g o => Sys2Proof.Machine.execVshl16 g o s
  | .vshr32 g o => Sys2Proof.Machine.execVshr32 g o s
  | .vshr16 g o => Sys2Proof.Machine.execVshr16 g o s
  | .vsar32 g o => Sys2Proof.Machine.execVsar32 g o s
  | .vsar16 g o => Sys2Proof.Machine.execVsar16 g o s
  | .vand g o => Sys2Proof.Machine.execVand g o s
  | .vor g o => Sys2Proof.Machine.execVor g o s
  | .vxor g o => Sys2Proof.Machine.execVxor g o s
  | .vmsel g o => Sys2Proof.Machine.execVmsel g o s
  | .vcmpI32 g o => Sys2Proof.Machine.execVcmpI32 g o s
  | .vcmpN32 g o => Sys2Proof.Machine.execVcmpN32 g o s
  | .vcmpF32 g o => Sys2Proof.Machine.execVcmpF32 g o s
  | .vcmpBf16 g o => Sys2Proof.Machine.execVcmpBf16 g o s
  | .vcvtF32 g rm o => Sys2Proof.Machine.execVcvtF32 g rm o s
  | .vcvtBf16 g rm o => Sys2Proof.Machine.execVcvtBf16 g rm o s
  | .vcvtF16 g rm o => Sys2Proof.Machine.execVcvtF16 g rm o s
  | .vcvtI8 g rm o => Sys2Proof.Machine.execVcvtI8 g rm o s
  | .vcvtN8 g rm o => Sys2Proof.Machine.execVcvtN8 g rm o s
  | .vcvtI16 g rm o => Sys2Proof.Machine.execVcvtI16 g rm o s
  | .vcvtN16 g rm o => Sys2Proof.Machine.execVcvtN16 g rm o s
  | .vcvtI32 g rm o => Sys2Proof.Machine.execVcvtI32 g rm o s
  | .vcvtN32 g rm o => Sys2Proof.Machine.execVcvtN32 g rm o s
  | .vsrnd g o => Sys2Proof.Machine.execVsrnd g o s
  | .vplsplit g o => Sys2Proof.Machine.execVplsplit g o s
  | .vpljoin g o => Sys2Proof.Machine.execVpljoin g o s
  | .voutapply g o => Sys2Proof.Machine.execVoutapply g o s
  | .vrsumF32 g rm o => Sys2Proof.Machine.execVrsumF32 g rm o s
  | .vrsumBf16 g rm o => Sys2Proof.Machine.execVrsumBf16 g rm o s
  | .vrsumI32 g rm o => Sys2Proof.Machine.execVrsumI32 g rm o s
  | .vrmaxF32 g rm o => Sys2Proof.Machine.execVrmaxF32 g rm o s
  | .vrmaxI32 g rm o => Sys2Proof.Machine.execVrmaxI32 g rm o s
  | .vrminF32 g rm o => Sys2Proof.Machine.execVrminF32 g rm o s
  | .vrminI32 g rm o => Sys2Proof.Machine.execVrminI32 g rm o s
  | .vrargmaxF32 g rm o => Sys2Proof.Machine.execVrargmaxF32 g rm o s
  | .vperm g o => Sys2Proof.Machine.execVperm g o s
  | .vshuf g o => Sys2Proof.Machine.execVshuf g o s
  | .vbcast g o => Sys2Proof.Machine.execVbcast g o s
  | .vslide g o => Sys2Proof.Machine.execVslide g o s
  | .vzip g o => Sys2Proof.Machine.execVzip g o s
  | .vunzip g o => Sys2Proof.Machine.execVunzip g o s
  | .vtrn4 g o => Sys2Proof.Machine.execVtrn4 g o s
  | .vsmmerge g o => Sys2Proof.Machine.execVsmmerge g o s
  | .vrand g o => Sys2Proof.Machine.execVrand g o s
  | .vrandf g o => Sys2Proof.Machine.execVrandf g o s
  | .vrnorm g o => Sys2Proof.Machine.execVrnorm g o s
  | .vrnormt g o => Sys2Proof.Machine.execVrnormt g o s
  | .vrseed g o => Sys2Proof.Machine.execVrseed g o s
  | .vld g o => Sys2Proof.Machine.execVld g o s
  | .vst g o => Sys2Proof.Machine.execVst g o s
  | .vldg g o => Sys2Proof.Machine.execVldg g o s
  | .vsts g o => Sys2Proof.Machine.execVsts g o s
  | .vldpl g o => Sys2Proof.Machine.execVldpl g o s
  | .mcfgMode g o => Sys2Proof.Machine.execMcfgMode g o s
  | .mcfgOutlier g o => Sys2Proof.Machine.execMcfgOutlier g o s
  | .mcfgQset g o => Sys2Proof.Machine.execMcfgQset g o s
  | .mcfgWbp g o => Sys2Proof.Machine.execMcfgWbp g o s
  | .mzero g o => Sys2Proof.Machine.execMzero g o s
  | .msnap g o => Sys2Proof.Machine.execMsnap g o s
  | .mresrd g o => Sys2Proof.Machine.execMresrd g o s
  | .mreschk g o => Sys2Proof.Machine.execMreschk g o s
  | .mpush g o => Sys2Proof.Machine.execMpush g o s
  | .mpushWp g => Sys2Proof.Machine.execMpushWp g s
  | .mswap g => Sys2Proof.Machine.execMswap g s
  | .mshift g o => Sys2Proof.Machine.execMshift g o s
  | .mdrain g o => Sys2Proof.Machine.execMdrain g o s
  | .mdrainq g o => Sys2Proof.Machine.execMdrainq g o s
  | .xnop => Sys2Proof.Machine.execXnop s
  | .xcopyIn g o => Sys2Proof.Machine.execXcopyIn g o s
  | .xcopyOut g o => Sys2Proof.Machine.execXcopyOut g o s
  | .xcopyOutAcc g o => Sys2Proof.Machine.execXcopyOutAcc g o s
  | .xgather g o => Sys2Proof.Machine.execXgather g o s
  | .xscatter g o => Sys2Proof.Machine.execXscatter g o s
  | .xwbfill g o => Sys2Proof.Machine.execXwbfill g o s
  | .xpref g o => Sys2Proof.Machine.execXpref g o s
  | .xsend g o => Sys2Proof.Machine.execXsend g o s
  | .xrecv g o => Sys2Proof.Machine.execXrecv g o s
  | .xrecvaddF32 g o => Sys2Proof.Machine.execXrecvaddF32 g o s
  | .xrecvaddI32 g o => Sys2Proof.Machine.execXrecvaddI32 g o s
  | .xrecvaddBf16 g o => Sys2Proof.Machine.execXrecvaddBf16 g o s
  | .xrld g o => Sys2Proof.Machine.execXrld g o s
  | .xrst g o => Sys2Proof.Machine.execXrst g o s
  | .xamoAdd32 g o => Sys2Proof.Machine.execXamoAdd32 g o s
  | .xamoAdd64 g o => Sys2Proof.Machine.execXamoAdd64 g o s
  | .xamoFaddF32 g o => Sys2Proof.Machine.execXamoFaddF32 g o s
  | .xamoMin32 g o => Sys2Proof.Machine.execXamoMin32 g o s
  | .xamoMin64 g o => Sys2Proof.Machine.execXamoMin64 g o s
  | .xamoMax32 g o => Sys2Proof.Machine.execXamoMax32 g o s
  | .xamoMax64 g o => Sys2Proof.Machine.execXamoMax64 g o s
  | .xamoMinn32 g o => Sys2Proof.Machine.execXamoMinn32 g o s
  | .xamoMinn64 g o => Sys2Proof.Machine.execXamoMinn64 g o s
  | .xamoMaxn32 g o => Sys2Proof.Machine.execXamoMaxn32 g o s
  | .xamoMaxn64 g o => Sys2Proof.Machine.execXamoMaxn64 g o s
  | .xamoAnd32 g o => Sys2Proof.Machine.execXamoAnd32 g o s
  | .xamoAnd64 g o => Sys2Proof.Machine.execXamoAnd64 g o s
  | .xamoOr32 g o => Sys2Proof.Machine.execXamoOr32 g o s
  | .xamoOr64 g o => Sys2Proof.Machine.execXamoOr64 g o s
  | .xamoXor32 g o => Sys2Proof.Machine.execXamoXor32 g o s
  | .xamoXor64 g o => Sys2Proof.Machine.execXamoXor64 g o s
  | .xamoSwap32 g o => Sys2Proof.Machine.execXamoSwap32 g o s
  | .xamoSwap64 g o => Sys2Proof.Machine.execXamoSwap64 g o s
  | .xamoCas32 g o => Sys2Proof.Machine.execXamoCas32 g o s
  | .xamoCas64 g o => Sys2Proof.Machine.execXamoCas64 g o s
  | .xfence g o => Sys2Proof.Machine.execXfence g o s
  | .xrel g o => Sys2Proof.Machine.execXrel g o s
  | .xacq g o => Sys2Proof.Machine.execXacq g o s
  | .xvld g o => Sys2Proof.Machine.execXvld g o s
  | .xnmc g o => Sys2Proof.Machine.execXnmc g o s
  | .xnmfence g => Sys2Proof.Machine.execXnmfence g s
  | .xtagld g o => Sys2Proof.Machine.execXtagld g o s
  | .xtagst g o => Sys2Proof.Machine.execXtagst g o s
  | .tstate g o => Sys2Proof.Machine.execTstate g o s
  | .tlayoutClaim g o => Sys2Proof.Machine.execTlayoutClaim g o s
  | .tlayoutRelabel g o => Sys2Proof.Machine.execTlayoutRelabel g o s
  | .tlayoutCheck g o => Sys2Proof.Machine.execTlayoutCheck g o s
  | .trelease g o => Sys2Proof.Machine.execTrelease g o s
  | .trjrec g o => Sys2Proof.Machine.execTrjrec g o s
  | .bfpost g o => Sys2Proof.Machine.execBfpost g o s

end Sys2Proof.Machine
end

