-- ==== Sys2Proof/Machine/Schedule.lean ====
section
/-! DEFINITION. Which event happens when the surroundings have chosen none (log entry 5): bring-up, then cores, then the events of
the device's own units, taken in turn, one a cycle. The spec fixes no such order; `State.agenda` gives any other. -/

namespace Sys2Proof.Machine

/-- Events of one entry of a core's in-flight record. A command that fails does so with the cause its next step meets. -/
def entryEvents (s : State) (n k : Nat) (e : IfrEntry) : List Instr := List.flatten [
  [.engineBlockConfirm n k, .commandComplete n k, .atomicAtHome n k, .xrelPerform n k, .nmGroup n k false, .nmCommandEnd n k,
    .trrRecordWrite n k, .sweeperJobAccept n k, .barrierArrival n k, .requestAnswer n k, .engineResume n k],
  (match s.engNext n k e with | .fail _ cause => [.commandEndError n k cause] | _ => [])]

/-- Events of a core beside its bundles. -/
def coreEvents (s : State) (n : Nat) (c : Core) : List Instr := List.flatten [
  [.resumeReplay n, .resultDue n, .beatDue n, .fenceClear n, .slotRunGrant n, .barrierMemberLeave n],
  ((List.range 24).filter (fun t => decide ((c.mx.st t).wm.toNat < 128))).map (fun t => .rowReload n t),
  (if c.slow ≠ 0 && c.heldBundle then (List.range 4).map (fun j => .requestAnswer n (96 + j)) else []),
  c.ifr.flatMap (fun e => entryEvents s n e.1 e.2)]

/-- A save or restore of the context stands at what ends it: a page it cannot use, or a poisoned block. -/
def State.areaEnds (s : State) (x : Nat) : Bool :=
  match (s.ctx x).req with
  | none => false
  | some r =>
    let rs := if r.resume then s.restoreRanges x r.parts else s.imageRanges x r.parts
    match s.areaStop x (!r.resume) (s.areaPieces x rs) 0 with
    | some (.bad, _, _) => true
    | some _ => false
    | none => r.resume && s.areaPoisoned x rs

/-- Events of a context. Errors of the memory do not arise by themselves. -/
def ctxEvents (s : State) (x : Nat) (c : Ctx) : List Instr := List.flatten [
  [.contextLoadDone x, .saveDone x, .restoreDone x, .scrubDone x],
  (if s.areaEnds x then [.saveFault x, .restoreFault x] else []),
  (List.range 16).map (fun q => .partFrozen x q),
  c.graphs.flatMap (fun g => [.replayBegin x g.1, .replayEnd x g.1])]

/-- Events of a kernel, copy or collective. -/
def kernelEvents (k : Nat) (v : Option Kernel) : List Instr := List.flatten [
  [.launchRecordRead k, .groupPlace k, .kernelComplete k, .kernelAbort k, .copyNodeComplete k],
  (match v with | some v => (List.range v.chunks.length).map (fun j => .chunkOp k j) | none => [])]

/-- The command a host function has next. -/
def hostEvents (s : State) (f : Nat) : List Instr :=
  match s.nextCmd f with
  | none => []
  | some c =>
    match cmdOpc c with
    | 2 => [.destroy f c]
    | 3 => [.wvdef f c]
    | 4 => [.wvrem f c]
    | 5 => [.ring f c]
    | 6 => [.qcreate f c]
    | 7 => [.graphrec f c]
    | 8 => [.replay f c]
    | 9 => [.launch f c]
    | 10 => [.stream f c]
    | _ => [.create f c]

/-- The events the device's own units may bring about. What comes from outside (hosts, peers, errors, power) stands in no list. -/
def State.events (s : State) : List Instr := List.flatten [
  s.cores.flatMap (fun c => coreEvents s c.1 c.2),
  s.sends.map (fun x => .sendLand x.src x.entry),
  (List.range s.locks.length).map (fun j => .replicaCommit j),
  s.pgops.flatMap (fun o => .moveCopyDone :: o.units.map (fun u => .shootdownAck u)),
  s.ctxs.flatMap (fun c => ctxEvents s c.1 c.2),
  s.pubs.map (fun p => .publishCommit p.ctx p.t),
  (List.range s.leaves.length).map (fun j => .readerLeave j),
  (if s.part.busy then [.repartitionComplete] else []),
  s.kernels.flatMap (fun k => kernelEvents k.1 k.2),
  s.groups.flatMap (fun g => [.groupLoaded g.1, .groupRetire g.1]),
  (List.range s.kvcommits.length).flatMap (fun j => [.kvCompactionCopy j, .kvCommitPoint j]),
  (if s.sweeper.jobs = [] then [] else .sweeperDispatch :: (List.range s.sweeper.jobs.length).flatMap (fun j =>
      [.sweeperJobComplete j, .sweeperJobAbort j])),
  (List.range s.voids.length).map (fun j => .voidRecordWrite j),
  (List.range s.samples.length).flatMap (fun j => [.samplingPoll (.poll j), .samplingPhase j]),
  s.fns.flatMap (fun f => hostEvents s f.1),
  (List.range s.streams.length).flatMap (fun j => [.streamEnd j 0 0, .streamEnd j 7 0]),
  s.ports.flatMap (fun p => if p.2.st.works then [.flitReceive p.1 0 0 0 0 0 .leaves, .errorRateExceeded p.1, .peerLost p.1] else []),
  (if s.dcnt = [] then [] else (List.range 9).map (fun d => .quarantine d)),
  (if s.root.astat = 1 then [.attestReportDone true] else [])]

/-- The first event of a list that can arise, and what it brings about. -/
def firstEvent : List Instr → State → Option Result
  | [], _ => none
  | i :: t, s =>
    match exec i s with
    | .fault (.eventCannotArise _) => firstEvent t s
    | r => some r

/-- A list begun at place `k`. -/
def turned {α : Type} (l : List α) (k : Nat) : List α := l.drop (k % (l.length + 1)) ++ l.take (k % (l.length + 1))

/-- A cycle passes. -/
def State.nextCycle (s : State) : State := { s with now := s.now + 1 }

/-- The core that acts next: one that runs and has not had its bundle of this cycle (R24). -/
def State.dueCore (s : State) : Option Nat :=
  (s.cores.find? (fun c => decide (c.2.run = .running) && !c.2.replay && decide (c.2.nextAt ≤ s.now) && coreExists c.1)).map (·.1)

/-- A step when nothing is on the agenda: a bundle due in this cycle; else the next cycle begins, with an event of a unit that stands before
the cycle's bundles (10_tile.md R275). -/
def idleStep (s : State) : Result :=
  if !s.root.ready then (if s.root.fail then .next s.nextCycle else exec (.bringupStep true) s) else
  match s.dueCore with
  | some n => exec (.bundleIssue n) s
  | none =>
    match firstEvent (turned s.nextCycle.events s.nextCycle.now) s.nextCycle with
    | some r => r
    | none => .next s.nextCycle

/-! ### The instruction a fetch meets -/

/-- The bundle of a slot word as the opcode table gives it: the word of one operation without extension byte, or the word in slot 0
when it names none. -/
def tableBundle (nbits w : Nat) : BitVec 128 :=
  let w : W32 := BitVec.ofNat 32 (w % 2 ^ nbits)
  aloneWord (decide (wordClass w = 0 ∧ wordOp w = 0x51)) w 0 .rne

/-- A core that runs at address 0 of context 0, that context active and privileged, its page 0 present for fetches, frame 0, with
the bundle of `w` in it; the device out of bring-up, nothing on the agenda. It stands for a launch (log entry 10). -/
def State.launchedAt (s : State) (b : BitVec 128) : State :=
  let s : State := { s with agenda := [], root := { s.root with ready := true }, devMap := [] }
  let s := s.updCtx 0 (fun c => (c.setPart 0 .running) |> fun (c : Ctx) => { c with st := .active, own := c.own ||| 1, priv := true, wsel := 0 })
  let s := s.setEntry 0 0 0 (BitVec.ofNat 64 (2 ^ 37 + permSL * 2 ^ 20))
  let s : State := { s with cores := [(0, { s.core 0 with
    run := .running, ctx := 0, pc := 0, lbix := none, icache := [], slow := 0, replay := false, reports := [], heldBundle := false, nextAt := s.now })] }
  { s with mem := (s.mem.setTag 0 0).write 0 16 b.toNat, locks := [], seals := [] }

end Sys2Proof.Machine
end

