-- ==== Sys2Proof/Machine/Step.lean ====
section
/-! DEFINITION. One step of the machine, and the state whose next step fetches and runs a given instruction. -/

namespace Sys2Proof.Machine

/-- One step: the event its surroundings have chosen, or one of the default order (log entry 5). -/
def step (s : State) : Host.Outcome State Fault Refusal :=
  match s.agenda with
  | e :: rest => exec e { s with agenda := rest }
  | [] => idleStep s

/-- `s` with the instruction of the opcode table whose bits are `w` placed where the next step fetches (log entry 10). -/
def State.withFetchWord (s : State) (nbits w : Nat) : State := s.launchedAt (tableBundle nbits w)

end Sys2Proof.Machine
end

