-- ==== Sys2Proof/Safety.lean ====
section
/-! DEFINITION. What counts as a safe run: memories in their canonical form, and steps that end in a next state. -/

namespace Sys2Proof.Machine

/-- Every memory of the state is in its canonical form. -/
def State.memOk (s : State) : Bool := s.mem.wf && s.hostMem.wf

/-- A step that goes on. -/
def goesOn (s : State) : Prop := ∃ t, step s = .next t

/-- Nothing waits for the surroundings: the step is one of the default order. -/
def State.undirected (s : State) : Prop := s.agenda = []

end Sys2Proof.Machine
end

