-- ==== Sys2Proof/Safety/Forms.lean ====
section
/-! DEFINITION. Words for claims about one operation alone in its bundle: when a core can issue it, the issue its slot starts from, the
state its bundle leaves, and the register a result goes to. Nothing here takes part in a step. -/

namespace Sys2Proof.Machine

/-- The core that meets the bundle. -/
def State.me (s : State) : Core := s.core s.cur

/-- The state when the bundle reaches issue: its cycle is spent, the matrix beats due have fallen due (02_core.md R24; 07_matrix.md R203). -/
def State.opened (s : State) : State := (s.spendCycle s.cur).upd s.cur Core.settle

/-- The state when the bundle's cycle is spent: where the bundle does not issue, its beats have not fallen due (02_core.md R28). -/
def State.spent (s : State) : State := s.spendCycle s.cur

/-- The core as the bundle finds it. -/
def State.pre (s : State) : Core := s.opened.core s.cur

/-- The core runs, owes no replay, and no report waits to be taken (02_core.md R24; 14_trap.md R335). -/
def State.runs (s : State) : Prop :=
  s.me.run = .running ∧ s.me.replay = false ∧ (s.me.twin = false ∨ s.me.reports = [] ∨ s.me.heldBundle = true)

/-- A register of a file, as a value of 1024 bits. -/
def Core.reg (c : Core) : RegFile → Nat → Vec
  | .g, r => vec64 (c.getG r)
  | .a, r => vec64 (c.getA r)
  | .p, r => if c.getP r then 1 else 0
  | .b, r => vec64 (c.getB r)
  | .v, r => c.getV r
  | .m, r => (c.getM r).setWidth 1024
  | .latch, _ => 0

/-- The value of a named register; a v name goes through the rotation of R48. -/
def Core.named (c : Core) (f : RegFile) (r : Nat) : Vec := c.reg f (if f = .v then c.physV r else r)

/-- A value as register file `f` holds it. -/
def fitted : RegFile → Vec → Vec
  | .g, x | .a, x => vec64 (x.setWidth 64)
  | .p, x => if x.getLsbD 0 then 1 else 0
  | .b, x => vec64 (BitVec.ofNat 64 ((x.setWidth 64).toNat % 2 ^ 48))
  | .v, x => x
  | .m, x => (x.setWidth 128).setWidth 1024
  | .latch, _ => 0

/-- g0, p0 and m0, which keep their values, and nil (02_core.md R25, R38). -/
def wired (f : RegFile) (r : Nat) : Prop := f = .latch ∨ r = 0 ∧ (f = .g ∨ f = .p ∨ f = .m)

/-- No loop is issued from the buffer, or the file is touched by no wrap (02_core.md R45, R49). -/
def Core.unwrapped (c : Core) (f : RegFile) : Prop := c.lbix = none ∨ f ≠ .a ∧ f ≠ .p

/-- No result in flight falls due on register `r` of file `f` in this bundle (02_core.md R29). -/
def Core.still (c : Core) (f : RegFile) (r : Nat) : Prop := ∀ p ∈ c.pend, p.file = f → p.reg = r → c.ic + 1 < p.due

/-- Everything outside the core that issues, and outside time, is as it was. -/
def State.othersKept (s t : State) : Prop :=
  ({ t with cores := s.cores, now := s.now } : State) = s ∧ ∀ m, m ≠ s.cur → t.core m = s.core m

/-- A core without what a bundle of plain operations may change: registers, latches, held operands, results in flight, time, the pc and
loops, the matrix unit's clock, request entries, the notes of a held bundle and of its requests, CDIAG and a stop that comes due. -/
def Core.rest (c : Core) : Core :=
  { c with g := [], a := [], p := [], b := [], v := [], m := [], latches := [], latv := 0, held := [], holdv := 0, pend := [], ic := 0, clk := 0,
           ticks := 0, slow := 0, pc := 0, lbix := none, lctl := .zero, lstat := [], wrapped := 0, nextAt := 0, mx := Core.idle.mx, ifr := [], heldBundle := false,
           posted := [], bksup := false, run := .idle, stop := .none, latinv := false, holdinv := false, diagunit := 0 }

/-- Everything that no bundle of plain operations writes is as it was. -/
def Core.restKept (c d : Core) : Prop := d.rest = c.rest

end Sys2Proof.Machine

namespace Sys2Proof

open Machine

/-- The unit of an operation alone in its bundle (R24, R123). -/
def SlotInstr.unit (i : SlotInstr) : UnitId :=
  match wordClass i.enc.1 with
  | 0 => .s
  | 1 => .v0
  | 2 => .m
  | _ => if x1Only (wordOp i.enc.1) then .x1 else .x0

/-- The slot it stands in (R123). -/
def SlotInstr.place (i : SlotInstr) : Nat :=
  let hdr := wordNeedsHeader i.enc.1 i.enc.2 i.brm
  if hdr && decide (wordClass i.enc.1 = 3) && x1Only (wordOp i.enc.1) then 2 else soloSlot i.enc.1 hdr

/-- Operation `i` (its word is not the empty one) alone in its bundle passes decode (04_encoding.md R112, R113; 08_transfer.md R216). -/
def SlotInstr.passes (i : SlotInstr) (s : State) : Prop :=
  i.enc.1 ≠ 0 ∧ i.ok = true ∧ (wordPrivileged i.enc.1 = true → (s.ctx s.me.ctx).priv = true) ∧
    unitBars (isKiosk s.cur) i.unit i.enc.1 = false ∧ modeBars i.unit i.enc.1 i.enc.2 = false

/-- The core runs and operation `i` passes. -/
def SlotInstr.issues (i : SlotInstr) (s : State) : Prop := s.runs ∧ i.passes s

/-- The issue that the operation's slot starts from. -/
def SlotInstr.opening (i : SlotInstr) (s : State) : Issue :=
  { n := s.cur, pre := s.pre, s := s.opened, incs := [], post := id, taken := none, final := id, trapAfter := none, reserve := id, level := false,
    halted := false, loopAt := none, cmds := [], rm := i.brm, unit := i.unit, slot := i.place, word := i.enc.1 }

/-- The issue `j` has read sources and nothing else since the slot's opening: captures and the notes of CDIAG apart, everything is as it
was (02_core.md R36, R37). -/
def SlotInstr.onlyRead (i : SlotInstr) (s : State) (j : Issue) : Prop :=
  ({ j with s := s.opened } : Issue) = i.opening s ∧
  ({ j.core with held := s.pre.held, holdv := s.pre.holdv, latinv := s.pre.latinv, holdinv := s.pre.holdinv,
                 diagunit := s.pre.diagunit } : Core) = s.pre ∧
  ({ j.s with cores := s.opened.cores } : State) = s.opened ∧ ∀ m, m ≠ s.cur → j.s.core m = s.opened.core m

/-- The state the bundle leaves once its slot has made the issue `j` of it. -/
def SlotInstr.closing (i : SlotInstr) (_ : State) (j : Issue) : State :=
  j.finish (decide (wordClass i.enc.1 = 0 ∧ wordOp i.enc.1 = 0x51))

/-- What becomes of the bundle when its slot stops it: a precise trap with the slot and its word, a freeze, an abort (02_core.md R30;
14_trap.md R334, R335; 10_tile.md R274; 11_page.md R281). -/
def SlotInstr.stopping (i : SlotInstr) (s : State) (e : Stop) : Result :=
  match e with
  | .trap cause addr => .next ((s.spent.abandon s.cur).preciseTrap s.cur cause (slotVal i.place i.enc.1) addr)
  | .stuck t =>
    if s.pre.twin && decide (s.pre.reports ≠ []) then .next ((s.spent.abandon s.cur).takeReport s.cur)
    else .next ((s.spent.abandon s.cur).preciseTrap s.cur 0x12 (BitVec.ofNat 64 t) 0)
  | .abort va => .next (s.spent.abortBy s.cur va)
  | .fault f => .fault f
  | .freeze note => .next (note (s.spent.freezeBundle s.cur))

/-! ### The same of a row of the opcode table -/

/-- The slot operation a row is. -/
def Instr.opn (k : Instr) : SlotInstr := k.slot.getD .nop

/-- The row's operation issues, its guard holds (02_core.md R40 to R42), and no duty level holds an M operation back (22_reliability.md
R462). -/
def Instr.begins (k : Instr) (g : Guard) (s : State) : Prop :=
  k.opn.issues s ∧ s.pre.guardOk g = true ∧ (k.opn.unit = .m → s.opened.dutyHolds s.cur = false)

/-- The same, and a request that the row makes is answered in the cycle it leaves the core, none being on its way (02_core.md R30). -/
def Instr.asks (k : Instr) (g : Guard) (s : State) : Prop :=
  k.begins g s ∧ s.pre.slow.getLsbD k.opn.place = false ∧ Tbl.get none s.answers (answerKey s.cur k.opn.place) = none ∧
    s.pre.entry (96 + k.opn.place) = none

/-- The issue it starts from. -/
def Instr.opening (k : Instr) (s : State) : Issue := k.opn.opening s

/-- The issue a memory operand starts from: its address register's post-increment is due (04_encoding.md R110). -/
def Instr.openingAt (k : Instr) (s : State) (a : BitVec 4) (am : BitVec 2) : Issue :=
  match incOf a am with | some r => (k.opening s).increment r | none => k.opening s

/-- The row completes: the machine's next state is the one the bundle leaves when its slot has made the issue `j`. -/
def Instr.ends (k : Instr) (s : State) (j : Issue) : Prop := exec k s = .next (k.opn.closing s j)

/-- The row completes and is counted by the duty cycle, as an M operation is (22_reliability.md R462). -/
def Instr.endsM (k : Instr) (s : State) (j : Issue) : Prop := k.ends s (j.after (fun t => t.dutyCount s.cur))

/-- The row stops its bundle: what becomes of it is what stop `e` says. -/
def Instr.stops (k : Instr) (s : State) (e : Stop) : Prop := exec k s = k.opn.stopping s e

end Sys2Proof
end

