-- ==== Sys2Proof/Certificates/Slice0/Obligations.lean ====
section
/-! DEFINITION. The statements about the Ikiok's model. A row's bundle holds that operation alone (04_encoding.md R123): `begins` says that
the core runs, the bundle passes decode and the guard holds; `ends` says that the machine's next state is the one the bundle leaves when
its slot has made the issue named. What the end of a bundle does to registers, latches and memory is stated for every issue in
`ResultReachesItsRegister`, `LaterResultsWait`, `BundleEndKeepsTheRest` and their neighbours. -/

open Sys2Proof Sys2Proof.Machine


/-! ### Scalar operations -/

/-- Integer operations on two g registers: row, latency, effect (05_scalar_control.md R128 Table 1, R129). -/
noncomputable def Sys2Proof.Claims.integerRows : List ((Guard → RR → Instr) × Nat × (W64 → W64 → W64)) :=
  [(.add, 1, fun x y => x + y), (.sub, 1, fun x y => x - y), (.mul, 3, fun x y => x * y),
   (.mulh, 3, fun x y => (x.signExtend 128 * y.signExtend 128).extractLsb' 64 64),
   (.mulhn, 3, fun x y => (x.setWidth 128 * y.setWidth 128).extractLsb' 64 64),
   (.and, 1, fun x y => x &&& y), (.or, 1, fun x y => x ||| y), (.xor, 1, fun x y => x ^^^ y), (.andn, 1, fun x y => x &&& ~~~y),
   (.shl, 1, fun x y => x <<< (y.extractLsb' 0 6)), (.shr, 1, fun x y => x >>> (y.extractLsb' 0 6)),
   (.sar, 1, fun x y => x.sshiftRight (y.extractLsb' 0 6).toNat),
   (.rot, 1, fun x y => let k := y.toNat % 64; x <<< k ||| x >>> (64 - k)),
   (.min, 1, fun x y => if x.slt y then x else y), (.max, 1, fun x y => if x.slt y then y else x),
   (.minn, 1, fun x y => if x < y then x else y), (.maxn, 1, fun x y => if x < y then y else x)]

/-- ADD to MAXN complete for every pair of operands, whatever source mode reads them, and deliver the effect of Table 1 at its latency to
g[d], or to the latch alone under nil (05_scalar_control.md R128, R129). No operation of the table traps on its data. -/
def Obligations.IntegerOperationsDeliverTheirEffect : Prop :=
  ∀ e ∈ Sys2Proof.Claims.integerRows, ∀ (g : Guard) (o : RR) (s : State), (e.1 g o).begins g s →
    ∃ (x y : W64) (j : Issue), ((e.1 g o).opening s).rrG o = .ok (x, y, j) ∧ (e.1 g o).ends s (j.toG o (e.2.2 x y) e.2.1)

/-- The quotient and remainder of R130 on integers. -/
def Sys2Proof.Claims.quotient (x y : Int) : Int :=
  if y = 0 then -1 else
  let q : Int := (x.natAbs / y.natAbs : Nat)
  if (x < 0) ≠ (y < 0) then -q else q

/-- The remainder of R130. -/
def Sys2Proof.Claims.remainder (x y : Int) : Int := if y = 0 then x else x - Sys2Proof.Claims.quotient x y * y

/-- DIV and REM read their operands as signed, DIVN and REMN as unsigned; they deliver the low 64 bits of the quotient and the remainder
of R130 at latency 20, for every pair of operands, a zero divisor among them. -/
def Obligations.DivisionDeliversQuotientAndRemainder : Prop :=
  ∀ (g : Guard) (o : RR) (s : State) (k : Instr) (f : W64 → W64 → Int),
    (k, f) ∈ [(Instr.div g o, fun x y => Sys2Proof.Claims.quotient x.toInt y.toInt),
      (Instr.rem g o, fun x y => Sys2Proof.Claims.remainder x.toInt y.toInt),
      (Instr.divn g o, fun x y => Sys2Proof.Claims.quotient x.toNat y.toNat),
      (Instr.remn g o, fun x y => Sys2Proof.Claims.remainder x.toNat y.toNat)] →
    k.begins g s →
    ∃ (x y : W64) (j : Issue), (k.opening s).rrG o = .ok (x, y, j) ∧ k.ends s (j.toG o (BitVec.ofInt 64 (f x y)) 20)

/-- Operations on a g source and an immediate (05_scalar_control.md R128, R129, R131, R135): ADDI adds the immediate as extended by R105,
SHLI, SHRI and SARI shift by it. CLZ counts the zeros above the leading one, POPC the ones; SEL chooses by a predicate; LI writes the
sign-extended immediate; LIH shifts its own destination and inserts the immediate. -/
def Sys2Proof.Claims.OneSourceIntegerOperations : Prop :=
  (∀ (g : Guard) (o : RI) (s : State) (k : Instr) (f : W64 → W64),
    (k, f) ∈ [(Instr.addi g o, fun x => x + o.imm.signExtend 64), (Instr.shli g o, fun x => x <<< o.imm.toNat),
      (Instr.shri g o, fun x => x >>> o.imm.toNat), (Instr.sari g o, fun x => x.sshiftRight o.imm.toNat)] →
    k.begins g s →
    ∃ (x : Vec) (j : Issue), (k.opening s).source 0 (sm1 o.sm1) .g o.s1.toNat = .ok (x, j) ∧
      k.ends s (j.resultG o.d.toNat (f (x.setWidth 64)) 1)) ∧
  (∀ (g : Guard) (o : RR) (s : State), (Instr.clz g o).begins g s →
    ∃ (x : W64) (j : Issue) (n : Nat), ((Instr.clz g o).opening s).rrG1 o = .ok (x, j) ∧ n ≤ 64 ∧
      (∀ b < 64, x.getLsbD (63 - b) = true → n ≤ b) ∧ (n < 64 → x.getLsbD (63 - n) = true) ∧
      (Instr.clz g o).ends s (j.toG o (BitVec.ofNat 64 n) 1)) ∧
  (∀ (g : Guard) (o : RR) (s : State), (Instr.popc g o).begins g s →
    ∃ (x : W64) (j : Issue), ((Instr.popc g o).opening s).rrG1 o = .ok (x, j) ∧
      (Instr.popc g o).ends s (j.toG o (BitVec.ofNat 64 ((List.range 64).countP (fun b => x.getLsbD b))) 1)) ∧
  (∀ (g : Guard) (o : RRR) (s : State), (Instr.sel g o).begins g s →
    (Instr.sel g o).ends s (((Instr.sel g o).opening s).resultG o.d.toNat
      (if s.pre.getP o.s3.toNat then s.pre.getG o.s1.toNat else s.pre.getG o.s2.toNat) 1)) ∧
  (∀ (g : Guard) (o : I12) (s : State), (Instr.li g o).begins g s →
    (Instr.li g o).ends s (((Instr.li g o).opening s).resultG o.d.toNat (o.imm.signExtend 64) 1)) ∧
  (∀ (g : Guard) (o : I12) (s : State), (Instr.lih g o).begins g s →
    (Instr.lih g o).ends s (((Instr.lih g o).opening s).resultG o.d.toNat
      (BitVec.ofNat 64 ((s.pre.getG o.d.toNat).toNat * 2 ^ 16 % 2 ^ 64 + o.imm.toNat)) 1))

/-- AADD, the three AMOV forms and ASTR (05_scalar_control.md R132 Table 2): a[d] or g[d] receives the value at latency 1; ASTR writes the
companion stride at the end of the bundle and delivers no result (R126). -/
def Sys2Proof.Claims.AddressOperations : Prop :=
  (∀ (g : Guard) (o : RR) (s : State), (Instr.aadd g o).begins g s →
    ∃ (y : W64) (j : Issue), ((Instr.aadd g o).opening s).rrG2 o = .ok (y, j) ∧
      (Instr.aadd g o).ends s (j.toA o (s.pre.getA o.s1.toNat + y))) ∧
  (∀ (g : Guard) (o : RR) (s : State), (Instr.amovAG g o).begins g s →
    ∃ (x : W64) (j : Issue), ((Instr.amovAG g o).opening s).rrG1 o = .ok (x, j) ∧ (Instr.amovAG g o).ends s (j.toA o x)) ∧
  (∀ (g : Guard) (o : RR) (s : State), (Instr.amovGA g o).begins g s →
    (Instr.amovGA g o).ends s (((Instr.amovGA g o).opening s).toG o (s.pre.getA o.s1.toNat) 1)) ∧
  (∀ (g : Guard) (o : RR) (s : State), (Instr.amovAA g o).begins g s →
    (Instr.amovAA g o).ends s (((Instr.amovAA g o).opening s).toA o (s.pre.getA o.s1.toNat))) ∧
  (∀ (g : Guard) (o : RR) (s : State), (Instr.astr g o).begins g s →
    ∃ (x : W64) (j : Issue), ((Instr.astr g o).opening s).rrG1 o = .ok (x, j) ∧
      (Instr.astr g o).ends s (j.afterCore (fun c => c.setStride o.d.toNat x)))

/-- Conditions of the compares (05_scalar_control.md R134 Table 3). -/
noncomputable def Sys2Proof.Claims.compareRows : List ((Guard → RR → Instr) × (W64 → W64 → Bool)) :=
  [(.cmpEq, fun x y => decide (x = y)), (.cmpNe, fun x y => decide (x ≠ y)), (.cmpLt, fun x y => x.slt y), (.cmpLe, fun x y => !y.slt x),
   (.cmpGt, fun x y => y.slt x), (.cmpGe, fun x y => !x.slt y), (.cmpLtn, fun x y => x.ult y), (.cmpLen, fun x y => !y.ult x),
   (.cmpGtn, fun x y => y.ult x), (.cmpGen, fun x y => !x.ult y)]

/-- Effects of the predicate operations (05_scalar_control.md R135). -/
noncomputable def Sys2Proof.Claims.predicateRows : List ((Guard → RR → Instr) × (Bool → Bool → Bool)) :=
  [(.pand, fun x y => x && y), (.por, fun x y => x || y), (.pxor, fun x y => Bool.xor x y), (.pnot, fun x _ => !x), (.pmov, fun x _ => x)]

/-- A compare delivers 1 where its condition holds and 0 where it does not, to p[d] or, under nil, to the latch alone; the predicate
operations deliver their truth values the same way (05_scalar_control.md R126, R134, R135). -/
def Obligations.ComparesAndPredicatesDeliverTruth : Prop :=
  (∀ e ∈ Sys2Proof.Claims.compareRows, ∀ (g : Guard) (o : RR) (s : State), (e.1 g o).begins g s →
    ∃ (x y : W64) (j : Issue), ((e.1 g o).opening s).rrG o = .ok (x, y, j) ∧
      (e.1 g o).ends s (j.result (if o.dnil then .latch else .p) o.d.toNat (if e.2 x y then 1 else 0) 1)) ∧
  (∀ e ∈ Sys2Proof.Claims.predicateRows, ∀ (g : Guard) (o : RR) (s : State), (e.1 g o).begins g s →
    (e.1 g o).ends s (((e.1 g o).opening s).result (if o.dnil then .latch else .p) o.d.toNat
      (if e.2 (s.pre.getP o.s1.toNat) (s.pre.getP o.s2.toNat) then 1 else 0) 1))

/-- The scalar loads: row, bytes, and the value made of them (05_scalar_control.md R136 Table 4). -/
noncomputable def Sys2Proof.Claims.loadRows : List ((Guard → MEM → Instr) × Nat × (Nat → W64)) :=
  [(.ldI8, 1, fun v => (BitVec.ofNat 8 v).signExtend 64), (.ldN8, 1, fun v => (BitVec.ofNat 8 v).setWidth 64),
   (.ldI16, 2, fun v => (BitVec.ofNat 16 v).signExtend 64), (.ldN16, 2, fun v => (BitVec.ofNat 16 v).setWidth 64),
   (.ldI32, 4, fun v => (BitVec.ofNat 32 v).signExtend 64), (.ldN32, 4, fun v => (BitVec.ofNat 32 v).setWidth 64),
   (.ld64, 8, fun v => BitVec.ofNat 64 v)]

/-- The scalar stores and their bytes (05_scalar_control.md R136 Table 4). -/
noncomputable def Sys2Proof.Claims.storeRows : List ((Guard → MEM → Instr) × Nat) := [(.st8, 1), (.st16, 2), (.st32, 4), (.st64, 8)]

/-- A scalar load whose checks (R137 Table 5) find a place in memory that holds no poison delivers the extended bytes at latency 4; at a
device page it delivers what the device's read answers. One whose checks, or whose read, find a violation or a wait stops the bundle with it. -/
def Sys2Proof.Claims.ScalarLoadsDeliverTheirBytes : Prop :=
  ∀ e ∈ Sys2Proof.Claims.loadRows, ∀ (g : Guard) (o : MEM) (s : State), (e.1 g o).begins g s →
    let i := (e.1 g o).openingAt s o.a o.am
    let va := i.address o 11 e.2.1
    (∀ (pa : Nat) (r : Bool) (v : Nat) (j : Issue), i.examine va e.2.1 permSL false true = .ok (.mem pa r) →
      i.loadAt va pa e.2.1 permSL = .ok (v, j) → (e.1 g o).ends s (j.resultG o.data.toNat (e.2.2 v) 4)) ∧
    (∀ (d : DevPage) (off : Nat), i.examine va e.2.1 permSL false true = .ok (.dev d off) →
      (e.1 g o).ends s ({ i with s := (i.s.devRead i.n d off e.2.1).2 }.resultG o.data.toNat (e.2.2 (i.s.devRead i.n d off e.2.1).1) 4)) ∧
    (∀ (pa : Nat) (r : Bool) (x : Stop), i.examine va e.2.1 permSL false true = .ok (.mem pa r) → i.loadAt va pa e.2.1 permSL = .error x →
      (e.1 g o).stops s x) ∧
    (∀ x : Stop, i.examine va e.2.1 permSL false true = .error x → (e.1 g o).stops s x)

/-- A scalar store whose checks find a place stores the low bytes of g there: `storeAt` at the address computed, or the device's write. It
waits while its line is on its way to the data cache (R137 order 5; 02_core.md R30; that any access may miss is log entry 86). One whose checks, or
whose store, find a violation or a wait stops the bundle. -/
def Sys2Proof.Claims.ScalarStoresStoreTheirBytes : Prop :=
  ∀ e ∈ Sys2Proof.Claims.storeRows, ∀ (g : Guard) (o : MEM) (s : State), (e.1 g o).begins g s →
    let i := (e.1 g o).openingAt s o.a o.am
    let va := i.address o 11 e.2
    let v := (s.pre.getG o.data.toNat).toNat % 2 ^ (8 * e.2)
    (∀ (pa : Nat) (r : Bool), i.examine va e.2 permSS true true = .ok (.mem pa r) →
      (s.pre.slow.getLsbD (e.1 g o).opn.place = true → (e.1 g o).stops s .wait) ∧
      (s.pre.slow.getLsbD (e.1 g o).opn.place = false →
        (∀ j : Issue, i.storeAt va pa e.2 v r = .ok j → (e.1 g o).ends s j) ∧
        ∀ x : Stop, i.storeAt va pa e.2 v r = .error x → (e.1 g o).stops s x)) ∧
    (∀ (d : DevPage) (off : Nat), i.examine va e.2 permSS true true = .ok (.dev d off) →
      (e.1 g o).ends s { i with s := i.s.devWrite d off e.2 v }) ∧
    (∀ x : Stop, i.examine va e.2 permSS true true = .error x → (e.1 g o).stops s x)

/-- `OneSourceIntegerOperations` and `AddressOperations`, both. -/
def Obligations.ImmediateAndAddressOperations : Prop :=
  Sys2Proof.Claims.OneSourceIntegerOperations ∧ Sys2Proof.Claims.AddressOperations

/-- `ScalarLoadsDeliverTheirBytes` and `ScalarStoresStoreTheirBytes`, both. -/
def Obligations.ScalarLoadsAndStoresComplete : Prop :=
  Sys2Proof.Claims.ScalarLoadsDeliverTheirBytes ∧ Sys2Proof.Claims.ScalarStoresStoreTheirBytes

/-! ### Control -/

/-- BR, CALL, RET and MOVB (05_scalar_control.md R140 Table 6, R141): a target that is a multiple of 16 inside the window of the core's
context is taken; a misaligned one traps with cause 8, one outside the window aborts the kernel. CALL writes b7 with the address of the next
bundle, MOVB writes its b register with the target, neither of which a transfer needs. -/
def Sys2Proof.Claims.ControlTransfersTakeTheirTarget : Prop :=
  ∀ (g : Guard) (s : State),
    (∀ (k : Instr) (i : Issue) (t : W64),
      ((∃ o : JO, k = .br g o ∧ i = k.opening s ∧ t = s.pre.pc + BitVec.ofInt 64 (16 * o.off.toInt)) ∨
       (∃ o : JO, k = .call g o ∧ i = (k.opening s).result .b 7 (vec64 (s.pre.pc + 16)) 1 ∧
          t = s.pre.pc + BitVec.ofInt 64 (16 * o.off.toInt)) ∨
       (∃ o : RR, k = .ret g o ∧ i = k.opening s ∧ t = s.pre.getB o.s1.toNat)) →
      k.begins g s →
      (t.toNat % 16 = 0 → inWindow (s.ctx s.me.ctx) t = true → k.ends s { i with taken := some t }) ∧
      (t.toNat % 16 ≠ 0 → k.stops s (.trap 8 t)) ∧
      (t.toNat % 16 = 0 → inWindow (s.ctx s.me.ctx) t = false → k.stops s (.abort t))) ∧
    (∀ o : JB, (Instr.movb g o).begins g s →
      (Instr.movb g o).ends s (((Instr.movb g o).opening s).result .b o.b.toNat (vec64 (s.pre.pc + BitVec.ofInt 64 (16 * o.off.toInt))) 1))

/-- The tests of a branch tree in order: predicate, negated or not (04_encoding.md R108; 05_scalar_control.md R142). -/
def Sys2Proof.Claims.treeTest (o : BTO) (n : Nat) : BitVec 5 × Bool :=
  match n with | 0 => (o.t0, o.n0) | 1 => (o.t1, o.n1) | 2 => (o.t2, o.n2) | _ => (o.t3, o.n3)

/-- BT (05_scalar_control.md R142): of its NT + 1 tests the first true one, number n, branches to b[4 TB + n]; with none true, or with a
loop flag that does not hold, the bundle falls through. -/
def Sys2Proof.Claims.BranchTreeTakesTheFirstTrueTest : Prop :=
  ∀ (o : BTO) (s : State), (Instr.bt o).opn.issues s →
    let holds (n : Nat) : Prop := s.pre.getP (Sys2Proof.Claims.treeTest o n).1.toNat ≠ (Sys2Proof.Claims.treeTest o n).2
    (∀ n, n ≤ o.nt.toNat → s.pre.flagOk o.flag = true → holds n → (∀ m < n, ¬ holds m) →
      let t := s.pre.getB ((if o.tb then 4 else 0) + n)
      t.toNat % 16 = 0 → inWindow (s.ctx s.me.ctx) t = true →
      (Instr.bt o).ends s { (Instr.bt o).opening s with taken := some t }) ∧
    ((s.pre.flagOk o.flag = false ∨ ∀ n ≤ o.nt.toNat, ¬ holds n) → (Instr.bt o).ends s ((Instr.bt o).opening s))

/-- LOOP (05_scalar_control.md R143): with a count and a mask in range it enters level 0 where no level is active, with the loop buffer loaded
from the bundles that follow, and the next level where its body lies inside the level it stands in; the counts of the level become those of
its operands, and the first wrap is still to come. Otherwise it is an illegal operand. LBRK (R145) leaves the innermost level. -/
def Sys2Proof.Claims.LoopsEnterAndLeaveLevels : Prop :=
  ∀ (g : Guard) (s : State),
    (∀ (o : LP) (c m : W64), (Instr.loop g o).begins g s → c = s.pre.getG o.gc.toNat → m = s.pre.getG o.gm.toNat →
      let n := o.len.toNat + 1
      let i := (Instr.loop g o).opening s
      (c.toNat < 2 ^ 32 → m.toNat < 2 ^ 16 → s.pre.lctl.lact = 0 →
        (Instr.loop g o).ends s { ({ i with s := { i.s with fresh := i.s.fresh + n } } : Issue).upd (fun k => { k.enterLevel 0 0 n c m.toNat with
              loopBuf := loadBody i.s s.cur s.me.ctx n (s.pre.pc + 16) 0
              body := n
              frames := k.frames.map (fun f => { f with stale := true }) }) with level := true, loopAt := some 0 }) ∧
      (∀ l j, c.toNat < 2 ^ 32 → m.toNat < 2 ^ 16 → innermost s.pre.lctl.lact = some l → l < 5 → s.pre.lbix = some j →
        (Tbl.get .zero s.pre.lstat l).beg.toNat ≤ j → j + n ≤ (Tbl.get .zero s.pre.lstat l).fin.toNat →
        (Instr.loop g o).ends s { i.upd (fun k => k.enterLevel (l + 1) (j + 1) n c m.toNat) with level := true }) ∧
      (2 ^ 32 ≤ c.toNat ∨ 2 ^ 16 ≤ m.toNat ∨ innermost s.pre.lctl.lact = some 5 → (Instr.loop g o).stops s (.trap 4 0))) ∧
    ((Instr.lbrk g).begins g s →
      (∀ l, innermost s.pre.lctl.lact = some l →
        (Instr.lbrk g).ends s { ((Instr.lbrk g).opening s).upd (fun c =>
            { c with lctl := { c.lctl with lact := c.lctl.lact &&& ~~~ BitVec.ofNat 6 (2 ^ l) } }) with level := true }) ∧
      (innermost s.pre.lctl.lact = none → (Instr.lbrk g).stops s (.trap 4 0)))

/-- What entering a level writes (05_scalar_control.md R143): the level's counts, mask and indices; the level is active; no other level's state
changes; the step of each register of the mask is the upper half of its companion stride, whose lower half, sign-extended, stays as the
stride. -/
def Sys2Proof.Claims.EnteringALevelSetsItsState : Prop :=
  ∀ (c : Core) (l beg n : Nat) (cw : W64) (mask : Nat), l < 6 → mask < 2 ^ 16 → beg + n - 1 < 256 →
    let d := c.enterLevel l beg n cw mask
    let t := Tbl.get .zero d.lstat l
    t.icount.toNat = cw.toNat % 2 ^ 24 ∧ t.epi.toNat = cw.toNat / 2 ^ 24 % 2 ^ 8 ∧ t.amask.toNat = mask ∧
    t.beg.toNat = beg % 256 ∧ t.fin.toNat = beg + n - 1 ∧
    d.lctl.lact.getLsbD l = true ∧ d.wrapped.getLsbD l = false ∧
    (∀ m, m ≠ l → m < 6 → Tbl.get .zero d.lstat m = Tbl.get .zero c.lstat m ∧ d.lctl.lact.getLsbD m = c.lctl.lact.getLsbD m) ∧
    (∀ r < 16, mask.testBit r = true →
      Tbl.get 0 d.steps (16 * l + r) = (c.getStride r).extractLsb' 32 32 ∧ d.getStride r = ((c.getStride r).setWidth 32).signExtend 64) ∧
    (∀ r < 16, mask.testBit r = false → d.getStride r = c.getStride r)

/-- ROTB, STAGE, HALT, QUIET, LENDB and RETB (05_scalar_control.md R146, R147, R150 to R152; 02_core.md R51, R52). ROTB and STAGE act at the
end of the bundle, HALT stops the core after it, and a report still pending then is one at a halted core (08_transfer.md R225); a bank already lent, or with a result in flight to it, cannot be lent. -/
def Sys2Proof.Claims.StageHaltQuietAndLending : Prop :=
  ∀ (g : Guard) (s : State),
    (∀ o : RI, (Instr.rotb g o).begins g s →
      (Instr.rotb g o).ends s (((Instr.rotb g o).opening s).afterCore (fun c =>
        if o.imm = 63 then { c with lctl := { c.lctl with roten := false, vrot := 0 } }
        else { c.setStages 1 with lctl := { c.lctl with roten := true, rotlvl := BitVec.ofNat 3 o.imm.toNat, vrot := 0 } }))) ∧
    (∀ o : RI, (Instr.stage g o).begins g s →
      (Instr.stage g o).ends s (((Instr.stage g o).opening s).afterCore (fun c => c.setStages o.imm.toNat))) ∧
    ((Instr.halt g).begins g s →
      (Instr.halt g).ends s { ((Instr.halt g).opening s).after (fun t => (t.voidRun s.cur).haltReports s.cur) with halted := true }) ∧
    (∀ o : I12, (Instr.quiet g o).begins g s →
      (Instr.quiet g o).ends s (((Instr.quiet g o).opening s).upd (fun c =>
        { c with cutN := some o.imm.toNat
                 cutEp := if (match c.cutN with | none => false | some m => decide (o.imm.toNat ≤ m)) then (c.cutEp + 1) % 2 ^ 31 else c.cutEp }))) ∧
    (∀ o : RI, (Instr.lendb g o).begins g s →
      (s.pre.lent.getLsbD o.imm.toNat = false → (∀ p ∈ s.pre.pend, p.file = .v → p.reg / 16 ≠ o.imm.toNat) →
        (Instr.lendb g o).ends s (((Instr.lendb g o).opening s).upd (fun c => { c with lent := c.lent ||| BitVec.ofNat 4 (2 ^ o.imm.toNat) }))) ∧
      (s.pre.lent.getLsbD o.imm.toNat = true ∨ (∃ p ∈ s.pre.pend, p.file = .v ∧ p.reg / 16 = o.imm.toNat) →
        (Instr.lendb g o).stops s (.trap 6 0))) ∧
    (∀ o : RI, (Instr.retb g o).begins g s →
      (Instr.retb g o).ends s (((Instr.retb g o).opening s).upd (fun c => { c with lent := c.lent &&& ~~~ BitVec.ofNat 4 (2 ^ o.imm.toNat) })))

/-- What STAGE and ROTB leave in the stage predicates (05_scalar_control.md R146, R147): p8 to p15 take the bits of the value, the other
predicates keep theirs. -/
def Sys2Proof.Claims.StagePredicatesTakeTheBits : Prop :=
  ∀ (c : Core) (v : Nat), (∀ k < 8, (c.setStages v).getP (8 + k) = v.testBit k) ∧
    (∀ r, r < 8 ∨ 16 ≤ r → (c.setStages v).getP r = c.getP r) ∧ ({ c.setStages v with p := c.p } : Core) = c

/-- TRAP, TRAPEN and TRET (05_scalar_control.md R154; 14_trap.md R340 to R342): TRAP's bundle completes and the trap follows it with cause
0x11 and the immediate; TRAPEN opens the window inside a handler and changes nothing outside one; TRET waits until the
handler's results are written, reads its guard then, and puts the innermost frame back; at depth 0 it is an illegal operand. -/
def Obligations.SoftwareTrapsAndReturn : Prop :=
  ∀ (g : Guard) (s : State),
    (∀ o : I12, (Instr.trap g o).begins g s →
      (Instr.trap g o).ends s { (Instr.trap g o).opening s with trapAfter := some (o.imm.setWidth 64) }) ∧
    ((Instr.trapen g).begins g s →
      (s.pre.frames ≠ [] → (Instr.trapen g).ends s (((Instr.trapen g).opening s).afterCore (fun c => { c with twin := true }))) ∧
      (s.pre.frames = [] → (Instr.trapen g).ends s ((Instr.trapen g).opening s))) ∧
    ((Instr.tret g).opn.issues s →
      (s.pre.frames ≠ [] →
        let i := { ((Instr.tret g).opening s).upd Core.drain with pre := s.pre.drain }
        (i.pre.guardOk g = true → inWindow (s.ctx s.me.ctx) (BitVec.ofNat 64 (i.pre.rpc.toNat * 16)) = true →
          (Instr.tret g).ends s { i with final := Core.trapReturn i.interruptedBody, s := { i.s with fresh := i.s.fresh + 256 } }) ∧
        (i.pre.guardOk g = true → inWindow (s.ctx s.me.ctx) (BitVec.ofNat 64 (i.pre.rpc.toNat * 16)) = false →
          (Instr.tret g).stops s (.abort (BitVec.ofNat 64 (i.pre.rpc.toNat * 16)))) ∧
        (i.pre.guardOk g = false → (Instr.tret g).ends s i)) ∧
      (s.pre.frames = [] → s.pre.guardOk g = true → (Instr.tret g).stops s (.trap 4 0)))

/-- System registers that take plain writes, and what a write does (02_core.md R39; 03_numbers.md R84; 14_trap.md R336). -/
noncomputable def Sys2Proof.Claims.swrRows : List (Nat × (W64 → Core → Core)) :=
  [(0x001, fun x c => { c with latinv := c.latinv && !x.getLsbD 7, holdinv := c.holdinv && !x.getLsbD 6 }),
   (0x030, fun x c => { c with rngK := c.rngK.extractLsb' 64 64 ++ x }), (0x031, fun x c => { c with rngK := x ++ c.rngK.extractLsb' 0 64 }),
   (0x032, fun x c => { c with rngC := c.rngC.extractLsb' 64 64 ++ x }), (0x033, fun x c => { c with rngC := x ++ c.rngC.extractLsb' 0 64 }),
   (0x041, fun x c => { c with rpc := x.extractLsb' 4 44 }), (0x043, fun x c => { c with hbase := x.extractLsb' 4 44 })]

/-- Registers whose writes are ignored: DEVINFO, LSGEN, TRAPCAUSE, TRAPVAL, FAULTADDR. -/
def Sys2Proof.Claims.readOnlyRegs : List Nat := [0x000, 0x021, 0x040, 0x042, 0x044]

/-- SRD delivers a listed register's value at latency 1, a read of CDIAG clears FRZCYC; a number not listed is an illegal operand. SWR of a
register that takes writes has its effect at the end of the bundle, `swrRows`; of one that is read only, `readOnlyRegs`, none (04_encoding.md
R119; 05_scalar_control.md R153; 02_core.md R39, R50; 03_numbers.md R84; 14_trap.md R336). -/
def Sys2Proof.Claims.SystemRegistersAreReadAndWritten : Prop :=
  ∀ (g : Guard) (o : SYS) (s : State),
    ((Instr.srd g o).begins g s →
      (∀ v, s.opened.sysRead s.cur s.pre o.reg.toNat = some v →
        (Instr.srd g o).ends s (((if o.reg = 1 then ((Instr.srd g o).opening s).upd (fun c => { c with frzcyc := 0 })
          else (Instr.srd g o).opening s)).resultG o.g.toNat v 1)) ∧
      (s.opened.sysRead s.cur s.pre o.reg.toNat = none → (Instr.srd g o).stops s (.trap 4 0))) ∧
    ((Instr.swr g o).begins g s →
      (∀ e ∈ Sys2Proof.Claims.swrRows, o.reg.toNat = e.1 →
        (Instr.swr g o).ends s (((Instr.swr g o).opening s).afterCore (e.2 (s.pre.getG o.g.toNat)))) ∧
      (o.reg.toNat ∈ Sys2Proof.Claims.readOnlyRegs → (Instr.swr g o).ends s ((Instr.swr g o).opening s)) ∧
      (s.opened.sysRead s.cur s.pre o.reg.toNat = none → (Instr.swr g o).stops s (.trap 4 0)))

/-- SRD of CDIAG in its own row: the word, then FRZCYC is clear (02_core.md R39). The rows that write one register do what SWR does:
LSCALE opens a generation with a positive, finite, normal scale; LCTL takes a rotating level below 6 and counts as a level entry or exit where
LACT changes, and a level it makes active has not wrapped; LSTATn of an inactive level; WMARKn's RPTR and its two sticky bits; ADOPT, PART and KVPOL in a privileged context, a
privilege trap in another. -/
def Sys2Proof.Claims.SpecialRegisterRows : Prop :=
  ∀ (g : Guard) (r : BitVec 6) (s : State),
    ((Instr.cdiagRead g r).begins g s →
      (Instr.cdiagRead g r).ends s ((((Instr.cdiagRead g r).opening s).upd (fun c => { c with frzcyc := 0 })).resultG r.toNat s.pre.cdiag 1)) ∧
    (∀ k ∈ [Instr.lscaleWrite g r, .swr g ⟨r, 0x020⟩], k.begins g s →
      let x : W32 := (s.pre.getG r.toNat).setWidth 32
      (x.getLsbD 31 = false → 1 ≤ (x.extractLsb' 23 8).toNat → (x.extractLsb' 23 8).toNat ≤ 254 →
        k.ends s ((k.opening s).afterCore (fun c => c.openScale x))) ∧
      (x.getLsbD 31 = true ∨ x.extractLsb' 23 8 = 0 ∨ x.extractLsb' 23 8 = 255 → k.stops s (.trap 4 0))) ∧
    (∀ k ∈ [Instr.lctlWrite g r, .swr g ⟨r, 0x010⟩], k.begins g s →
      let x := s.pre.getG r.toNat
      let l : LoopCtl := ⟨x.extractLsb' 16 6, x.getLsbD 15, x.extractLsb' 12 3, x.extractLsb' 0 5⟩
      (l.rotlvl < 6 → k.ends s { (k.opening s).afterCore (fun c => { c with lctl := l, wrapped := c.wrapped &&& c.lctl.lact &&& l.lact }) with level := decide (l.lact ≠ s.pre.lctl.lact) }) ∧
      (6 ≤ l.rotlvl → k.stops s (.trap 4 0))) ∧
    (∀ n < 6, ∀ k ∈ [Instr.lstatWrite g n r, .swr g ⟨r, BitVec.ofNat 12 (0x011 + n)⟩], k.begins g s →
      let x := s.pre.getG r.toNat
      (s.pre.lctl.lact.getLsbD n = false →
        let t : LStat := ⟨x.extractLsb' 40 24, x.extractLsb' 32 8, x.extractLsb' 16 16, x.extractLsb' 8 8, x.extractLsb' 0 8⟩
        k.ends s ((k.opening s).afterCore (fun c => { c with lstat := Tbl.set .zero c.lstat n t }))) ∧
      (s.pre.lctl.lact.getLsbD n = true → k.stops s (.trap 4 0))) ∧
    (∀ n < 24, ∀ k ∈ [Instr.wmarkWrite g n r, .swr g ⟨r, BitVec.ofNat 12 (0x080 + n)⟩], k.begins g s →
      let x := s.pre.getG r.toNat
      (isKiosk s.cur = false →
        k.ends s ((k.opening s).afterCore (fun c => c.updMx (fun mx => mx.setSt n
          { mx.st n with rptr := x.extractLsb' 17 7, satf := (mx.st n).satf && !x.getLsbD 13, mism := (mx.st n).mism && !x.getLsbD 11 })))) ∧
      (isKiosk s.cur = true → k.stops s (.trap 4 0))) ∧
    (∀ (k : Instr) (f : W64 → State → State),
      (k, f) ∈ [(Instr.adoptWrite g r, fun x t => t.writeAdopt x), (.swr g ⟨r, 0x100⟩, fun x t => t.writeAdopt x),
        (.partWrite g r, fun x t => t.writePart x), (.swr g ⟨r, 0x101⟩, fun x t => t.writePart x),
        (.kvpolWrite g r, fun x t => t.writeKvpol x), (.swr g ⟨r, 0x102⟩, fun x t => t.writeKvpol x)] →
      k.begins g s →
      ((s.ctx s.me.ctx).priv = true → k.ends s ((k.opening s).after (f (s.pre.getG r.toNat)))) ∧
      ((s.ctx s.me.ctx).priv = false → k.stops s (.trap 3 0)))

/-- `ControlTransfersTakeTheirTarget` and `BranchTreeTakesTheFirstTrueTest`, both. -/
def Obligations.TransfersTakeTheirTarget : Prop :=
  Sys2Proof.Claims.ControlTransfersTakeTheirTarget ∧ Sys2Proof.Claims.BranchTreeTakesTheFirstTrueTest

/-- `LoopsEnterAndLeaveLevels` and `EnteringALevelSetsItsState`, both. -/
def Obligations.LoopLevelsAreEnteredAndLeft : Prop :=
  Sys2Proof.Claims.LoopsEnterAndLeaveLevels ∧ Sys2Proof.Claims.EnteringALevelSetsItsState

/-- `StageHaltQuietAndLending` and `StagePredicatesTakeTheBits`, both. -/
def Obligations.StagesHaltQuietAndLending : Prop :=
  Sys2Proof.Claims.StageHaltQuietAndLending ∧ Sys2Proof.Claims.StagePredicatesTakeTheBits

/-- `SystemRegistersAreReadAndWritten` and `SpecialRegisterRows`, both. -/
def Obligations.SystemRegisterReadsAndWrites : Prop :=
  Sys2Proof.Claims.SystemRegistersAreReadAndWritten ∧ Sys2Proof.Claims.SpecialRegisterRows

/-! ### Operations on objects -/

/-- The rows of CTXFREEZE and the operation each names (12_context.md R316). -/
noncomputable def Sys2Proof.Claims.freezeRows : List ((Guard → RR → Instr) × Nat) :=
  [(.ctxfreeze, 0), (.ctxfreezeSave, 1), (.ctxsave, 2), (.cutQuery, 3), (.cutStop, 4)]

/-- CTXSTAT delivers the state word of a context that exists, at latency 4. CTXFREEZE of a context that exists, with a non-empty quarter mask
that does not name the issuing core's own part and with its reserved fields zero, answers the status of Table 10 at latency 1, and with
status 0 the request begins at the end of the bundle, on the quarters named, widened by cohorts (R301; log entry 71). What the
table does not allow is an illegal operand (12_context.md R314 to R316). -/
def Sys2Proof.Claims.ContextStateAndFreezeRequests : Prop :=
  ∀ (g : Guard) (o : RR) (s : State),
    ((Instr.ctxstat g o).asks g s → ∀ (x : W64) (j : Issue), ((Instr.ctxstat g o).opening s).rrG1 o = .ok (x, j) →
      (∀ c qm, j.s.ctxSelect x = some (c, qm) → (Instr.ctxstat g o).ends s (j.resultG o.d.toNat (j.s.ctx c).word 4)) ∧
      (j.s.ctxSelect x = none → (Instr.ctxstat g o).stops s (.trap 4 0))) ∧
    (∀ e ∈ Sys2Proof.Claims.freezeRows, (e.1 g o).asks g s → ∀ (x y : W64) (j : Issue), ((e.1 g o).opening s).rrG o = .ok (x, y, j) →
      y.toNat % 8 = e.2 →
      (∀ c qm, j.s.ctxSelect x = some (c, qm) → qm ≠ 0 → j.ownPart c qm = false → y.extractLsb' 3 13 = 0 →
        (e.2 ≠ 4 → y.toNat < 2 ^ 16) →
        let named := j.s.widen c qm
        let st := j.s.freezeStatus c e.2 named
        let i := j.resultG o.d.toNat (BitVec.ofNat 64 st) 1
        (st = 0 → (e.1 g o).ends s (i.after (fun t => t.beginFreeze c e.2 named qm (y.toNat / 2 ^ 16)))) ∧
        (st ≠ 0 → (e.1 g o).ends s i)) ∧
      (j.s.ctxSelect x = none → (e.1 g o).stops s (.trap 4 0)) ∧
      (∀ c qm, j.s.ctxSelect x = some (c, qm) → qm = 0 ∨ j.ownPart c qm = true ∨ y.extractLsb' 3 13 ≠ 0 ∨ (e.2 ≠ 4 ∧ 2 ^ 16 ≤ y.toNat) →
        (e.1 g o).stops s (.trap 4 0)))

/-- The rows of CTXRESUME and the operation each names (12_context.md R316). -/
noncomputable def Sys2Proof.Claims.resumeRows : List ((Guard → RR → Instr) × Nat) := [(.ctxresume, 0), (.ctxrestoreResume, 1), (.ctxrestore, 2)]

/-- CTXRESUME answers the status of Table 10 at latency 1, and with status 0 the resume or restore begins at the end of the bundle
(12_context.md R314, R316). -/
def Sys2Proof.Claims.ContextResumeRequests : Prop :=
  ∀ e ∈ Sys2Proof.Claims.resumeRows, ∀ (g : Guard) (o : RR) (s : State), (e.1 g o).asks g s →
    ∀ (x y : W64) (j : Issue), ((e.1 g o).opening s).rrG o = .ok (x, y, j) → y.toNat = e.2 →
    (∀ c qm, j.s.ctxSelect x = some (c, qm) → qm ≠ 0 → j.ownPart c qm = false →
      let st := j.s.resumeStatus c e.2 qm
      let i := j.resultG o.d.toNat (BitVec.ofNat 64 st) 1
      (st = 0 → (e.1 g o).ends s (i.after (fun t => t.beginResume c e.2 qm))) ∧ (st ≠ 0 → (e.1 g o).ends s i)) ∧
    (∀ c qm, j.s.ctxSelect x = some (c, qm) → qm = 0 ∨ j.ownPart c qm = true → (e.1 g o).stops s (.trap 4 0)) ∧
    (j.s.ctxSelect x = none → (e.1 g o).stops s (.trap 4 0))

/-- An issue whose slots' requests are answered at once: a WQPUSH takes no request entry (13_inflight_record.md R318). -/
def Sys2Proof.Claims.quick (i : Issue) : Issue := { i with pre := { i.pre with slow := 0 } }

/-- WQPUSH, once its operands, header, slot and record are reachable, the core's earlier asynchronous writes are made and the unit's answer is
there: an open queue with room accepts the record with status 0 and its item number, a full one answers 1, one not open 2; an outcome reserved
for the operation stays its own. WQPOP answers the item it pops, with its number, written as one block where the core may write; status 1 of an
empty queue polled, 2 of a closed one; a blocking pop of an empty queue waits, and a pop whose item's push is reserved and not yet accepted waits for
it. Until the answer is there the unit reserves the operation's outcome and its bundle is held. WQCLOSE and the reopen answer the transition of Table
2, WQLEN the state word; each at latency 4 with the header kept in memory (15_queue.md R346 to R357). -/
def Sys2Proof.Claims.QueueOperations : Prop :=
  ∀ (g : Guard) (o : RR) (s : State),
    (let k := Instr.wqpush g o
     k.begins g s → ∀ (sel va : W64) (j i : Issue) (qn : Nat) (q0 : Queue) (hpa spa : Option Nat) (pa : Nat) (r : Bool) (d : Nat) (t : BitVec 16),
      let key := answerKey s.cur k.opn.place
      let q := q0.planPush key
      let num := match q.out key with | some (.push m) => m | _ => q0.nextSlot
      (Sys2Proof.Claims.quick (k.opening s)).rrG o = .ok (sel, va, j) → j.queueOf sel 0 = .ok (qn, q0) →
      j.queueAddrs va [q.slotAddr num, q.base] = .ok () →
      j.queuePages [(q.base, 0, true), (q.slotAddr num, 0, true), (va, permSL, false)] = .ok () →
      j.queuePlace q.base = .ok hpa → j.queuePlace (q.slotAddr num) = .ok spa →
      j.examine va 64 permSL false true = .ok (.mem pa r) → j.core.allWritten j.pointSeq = true →
      ({ j with s := j.s.acquire s.cur (j.s.relTime s.cur) } : Issue).readAt va pa 64 permSL = .ok ((d, t), i) → poisoned t = false →
      (q0.out key = none →
        (q0.st ≠ .open → q.out key = some (.status 2)) ∧ (q0.st = .open → q0.cap ≤ q0.len → q.out key = some (.status 1)) ∧
        (q0.st = .open → q0.len < q0.cap → q.out key = some (.push q0.nextSlot))) ∧
      (s.pre.slow.getLsbD k.opn.place = false → q.out key = some (.push num) →
        let u := i.s.accept s.me.ctx qn num spa hpa (q.drop key) (BitVec.ofNat 512 d) t (i.s.relTime s.cur)
        k.ends s ({ i with s := u }.resultG o.d.toNat (queueWord 0 num) 4)) ∧
      (∀ st, s.pre.slow.getLsbD k.opn.place = false → q.out key = some (.status st) →
        k.ends s ({ i with s := i.s.putQueue s.me.ctx qn hpa (q.drop key) }.resultG o.d.toNat (queueWord st num) 4)) ∧
      (s.pre.slow.getLsbD k.opn.place = true →
        k.stops s (.freeze (fun u => u.reserveQueue s.me.ctx qn key (fun v => v.planPush key))))) ∧
    (let k := Instr.wqpop g o
     k.begins g s → ∀ (sel va : W64) (j : Issue) (qn : Nat) (q0 : Queue) (hpa spa : Option Nat) (pa : Nat) (r : Bool),
      let key := answerKey s.cur k.opn.place
      let q := q0.skip q0.holes.length
      (k.opening s).rrG o = .ok (sel, va, j) → j.queueOf sel 1 = .ok (qn, q0) → j.queueAddrs va [q.slotAddr q.first, q.base] = .ok () →
      j.queuePages [(q.base, 0, true), (q.slotAddr q.first, 0, false), (va, permSS, true)] = .ok () →
      j.queuePlace q.base = .ok hpa → j.queuePlace (q.slotAddr q.first) = .ok spa →
      j.examine va 64 permSS true true = .ok (.mem pa r) →
      let now : Prop := s.pre.slow.getLsbD k.opn.place = false ∨ (q.out key).isSome = true
      let reserves : Stop := .freeze (fun u => u.reserveQueue s.me.ctx qn key (fun v => u.planPop key spa (sel.getLsbD 8) v))
      (∀ (q' : Queue) (x : QItem), j.s.pop key spa (sel.getLsbD 8) q = .item q' x →
        kvSays (j.s.ctx s.me.ctx) (j.s.grpOf s.cur) true va ≠ .refuse →
        let u := (j.s.putQueue s.me.ctx qn hpa q').acquire s.cur x.time
        (now → r = false → k.ends s ({ j with s := (u.coreWriteTime s.cur (globalLine pa)).putBlock pa x.data x.tag }.resultG o.d.toNat
          (queueWord 0 x.num) 4)) ∧
        (∀ i, now → r = true → ({ j with s := u } : Issue).commitLine va pa (fun u => (u.coreWriteTime s.cur (globalLine pa)).putBlock pa x.data x.tag)
            (fun u a => u.putBlock a x.data x.tag) = .ok i →
          k.ends s (i.resultG o.d.toNat (queueWord 0 x.num) 4)) ∧
        (¬ now → k.stops s reserves)) ∧
      (∀ (st : Nat) (q' : Queue), j.s.pop key spa (sel.getLsbD 8) q = .status st q' →
        (now → k.ends s ({ j with s := j.s.putQueue s.me.ctx qn hpa q' }.resultG o.d.toNat (queueWord st 0) 4)) ∧
        (¬ now → k.stops s reserves)) ∧
      (j.s.pop key spa (sel.getLsbD 8) q = .waits → k.stops s (.freeze (fun t => t.queueWait s.me.ctx qn key))) ∧
      (j.s.pop key spa (sel.getLsbD 8) q = .later → k.stops s .wait)) ∧
    (∀ e ∈ [(Instr.wqclose g o, false), (Instr.wqreopen g o, true)], e.1.begins g s →
      ∀ (sel : W64) (j : Issue) (qn : Nat) (hpa : Option Nat) (q0 : Queue), (e.1.opening s).rrG1 o = .ok (sel, j) → sel.getLsbD 8 = e.2 →
      j.queueHeader sel 1 o.s2 = .ok (qn, q0, hpa) →
      let key := answerKey s.cur e.1.opn.place
      let q := q0.planClose key e.2
      (q0.out key = none →
        (e.2 = false → q0.st = .open → q.st = if q0.len = 0 then .closed else .draining) ∧ (e.2 = true → q0.st = .closed → q.st = .open) ∧
        (q0.st ≠ (if e.2 = true then .closed else .open) → q.st = q0.st ∧ q.out key = some (.status 1))) ∧
      (s.pre.slow.getLsbD e.1.opn.place = false →
        e.1.ends s ({ j with s := j.s.putQueue s.me.ctx qn hpa (q.drop key) }.resultG o.d.toNat
          (BitVec.ofNat 64 (match q.out key with | some (.status st) => st | _ => 0)) 4)) ∧
      (s.pre.slow.getLsbD e.1.opn.place = true →
        e.1.stops s (.freeze (fun u => u.reserveQueue s.me.ctx qn key (fun v => v.planClose key e.2))))) ∧
    (let k := Instr.wqlen g o
     k.asks g s → ∀ (sel : W64) (j : Issue) (qn : Nat) (hpa : Option Nat) (q : Queue), (k.opening s).rrG1 o = .ok (sel, j) →
      j.queueHeader sel 0 o.s2 = .ok (qn, q, hpa) →
      k.ends s ({ j with s := j.s.putQueue s.me.ctx qn hpa q }.resultG o.d.toNat q.word 4))

/-- A record pushed into an open, empty queue with no waiter and nothing reserved is the one the next pop finds, with its number, its bytes
and its tag (15_queue.md R346 to R349). -/
def Sys2Proof.Claims.QueueGivesBackWhatWasPushed : Prop :=
  ∀ (s : State) (x qn m n pa hpa : Nat) (q : Queue) (d : BitVec 512) (t : BitVec 16) (time : Nat) (blk : Bool),
    q.st = .open → q.waiters = [] → q.outs = [] → q.front = [] → q.holes = [] → q.tail = q.head → 0 < q.cap → pa % 64 = 0 → hpa % 64 = 0 →
    loc pa ≠ loc hpa →
    let s' := s.accept x qn q.tail (some pa) (some hpa) ((q.planPush m).drop m) d t time
    (q.planPush m).out m = some (.push q.tail) ∧
    ∃ q' q'' : Queue, (s'.ctx x).queue qn = some q' ∧ q'.tail = q.tail + 1 ∧
      ∃ tm, s'.pop n (some pa) blk q' = .item q'' ⟨q.tail, d, t, tm⟩ ∧ q''.len = 0

/-- GPSET writes a graph parameter, GPGET reads it or, asked for the snapshot of a running graph, its snapshot; GLAUNCH asks for a replay and
answers its status; KDONE answers 0 and counts the core in, once its asynchronous writes are made, 1 a second time, 2 where the kernel counts none;
GRPID and GRPSIZE deliver their words (16_kernel.md R366 to R373; 17_group.md R382). -/
def Sys2Proof.Claims.KernelAndGroupOperations : Prop :=
  ∀ (g : Guard) (o : RR) (s : State),
    ((Instr.gpset g o).asks g s → ∀ (x y : W64) (j : Issue) (n k : Nat) (v : Graph),
      ((Instr.gpset g o).opening s).rrG o = .ok (x, y, j) → o.d = 0 → j.graphOf x 0x3F3F = .ok (n, k, v) →
      (Instr.gpset g o).ends s { j with s := j.s.setGraph s.me.ctx n { v with gp := Tbl.set 0 v.gp k y } }) ∧
    ((Instr.gpset g o).asks g s → ∀ (x y : W64) (j : Issue), ((Instr.gpset g o).opening s).rrG o = .ok (x, y, j) →
      (o.d ≠ 0 ∨ x.toNat &&& 0x3F3F ≠ x.toNat ∨ (j.s.ctx s.me.ctx).graph (x.toNat / 2 ^ 8 % 2 ^ 6) = none) → (Instr.gpset g o).stops s (.trap 4 0)) ∧
    ((Instr.gpget g o).asks g s → ∀ (x : W64) (j : Issue) (n k : Nat) (v : Graph),
      ((Instr.gpget g o).opening s).rrG1 o = .ok (x, j) → j.graphOf x 0x13F3F = .ok (n, k, v) →
      (Instr.gpget g o).ends s (j.resultG o.d.toNat (Tbl.get 0 (if x.getLsbD 16 && v.running then v.snap else v.gp) k) 4)) ∧
    ((Instr.gpget g o).asks g s → ∀ (x : W64) (j : Issue), ((Instr.gpget g o).opening s).rrG1 o = .ok (x, j) →
      (x.toNat &&& 0x13F3F ≠ x.toNat ∨ (j.s.ctx s.me.ctx).graph (x.toNat / 2 ^ 8 % 2 ^ 6) = none) → (Instr.gpget g o).stops s (.trap 4 0)) ∧
    ((Instr.glaunch g o).asks g s → ∀ (x y : W64) (j : Issue), ((Instr.glaunch g o).opening s).rrG o = .ok (x, y, j) →
      (x.toNat % 2 ^ 8 = 0 → x.toNat < 2 ^ 14 → y.toNat % 8 = 0 →
        (Instr.glaunch g o).ends s ({ j with s := (j.s.askReplay s.me.ctx (x.toNat / 2 ^ 8) y).2 }.resultG o.d.toNat
          (BitVec.ofNat 64 (j.s.askReplay s.me.ctx (x.toNat / 2 ^ 8) y).1) 4)) ∧
      ((x.toNat % 2 ^ 8 ≠ 0 ∨ 2 ^ 14 ≤ x.toNat ∨ y.toNat % 8 ≠ 0) → (Instr.glaunch g o).stops s (.trap 4 0))) ∧
    ((Instr.kdone g o).asks g s →
      let i := (Instr.kdone g o).opening s
      let answer (i : Issue) (st : W64) := (Instr.kdone g o).ends s (i.resultG o.d.toNat st 4)
      ((isKiosk s.cur = true ∨ s.opened.kernel s.pre.mem.kref = none) → answer i 2) ∧
      (isKiosk s.cur = false → ∀ v, s.opened.kernel s.pre.mem.kref = some v →
        (v.lrec.kdcnt = 0 → answer i 2) ∧
        (v.lrec.kdcnt ≠ 0 → s.cur ∈ v.kdone → answer i 1) ∧
        (v.lrec.kdcnt ≠ 0 → s.cur ∉ v.kdone → s.pre.allWritten i.pointSeq = true →
          answer { i with s := i.s.setKernel s.pre.mem.kref { v with kdone := v.kdone ++ [s.cur], time := max v.time (i.s.relTime s.cur) } } 0) ∧
        (v.lrec.kdcnt ≠ 0 → s.cur ∉ v.kdone → s.pre.allWritten i.pointSeq = false → (Instr.kdone g o).stops s .wait))) ∧
    ((Instr.grpid g o).begins g s →
      (Instr.grpid g o).ends s (((Instr.grpid g o).opening s).toG o (grpWord s.cur s.pre.mem) 1)) ∧
    ((Instr.grpsize g o).begins g s →
      (Instr.grpsize g o).ends s (((Instr.grpsize g o).opening s).toG o (shapeWord s.pre.mem) 1))

/-- BINIT resets a barrier with an operator and the members expected, or answers a query; BARRIVE starts an arrival command; BWAIT answers the
phase's word where the barrier holds it, or the answer that came while it waited, and waits where neither is there; BTRY answers at once, status 3
where the phase is not complete; a stale handle answers status 2; a selector or configuration that names nothing is an illegal operand (18_barrier.md R386 to R395). -/
def Sys2Proof.Claims.BarrierOperations : Prop :=
  ∀ (g : Guard) (o : RR) (s : State),
    (∀ e ∈ [Instr.binitReset g o, .binitQuery g o], e.asks g s → isKiosk s.cur = false →
      ∀ (x y : W64) (j : Issue) (b : BarName), (e.opening s).rrG o = .ok (x, y, j) → j.s.barSelect s.cur x = some (.bar b) →
      (y = 16 → e.ends s (j.resultG o.d.toNat (j.s.binitWord b (j.s.bar b).code) 4)) ∧
      (∀ m, y.extractLsb' 3 29 = 0 → y.toNat % 8 < 5 → j.s.barExp s.cur (x.getLsbD 8) y = some m → m ≠ 0 →
        e.ends s ({ j with s := j.s.barDo b ((j.s.bar b).reset (y.toNat % 8) m) }.resultG o.d.toNat (j.s.binitWord b 0) 4)) ∧
      ((y.extractLsb' 3 29 ≠ 0 ∧ y ≠ 16 ∨ y.extractLsb' 3 29 = 0 ∧ (5 ≤ y.toNat % 8 ∨ j.s.barExp s.cur (x.getLsbD 8) y = none)) → e.stops s (.trap 4 0))) ∧
    (∀ e ∈ [Instr.binitReset g o, .binitQuery g o], e.asks g s → ∀ (x y : W64) (j : Issue), (e.opening s).rrG o = .ok (x, y, j) →
      (isKiosk s.cur = true ∨ j.s.barSelect s.cur x = none) → e.stops s (.trap 4 0)) ∧
    (∀ e ∈ [Instr.barrive g o, .bwait g o, .btry g o], e.asks g s → ∀ (x y : W64) (j : Issue), (e.opening s).rrG o = .ok (x, y, j) →
      j.s.barSelect s.cur x = none → e.stops s (.trap 4 0)) ∧
    (∀ e ∈ [Instr.bwait g o, .btry g o], e.asks g s → ∀ (x y : W64) (j : Issue), (e.opening s).rrG o = .ok (x, y, j) →
      2 ^ 32 ≤ y.toNat → e.stops s (.trap 4 0)) ∧
    ((Instr.barrive g o).begins g s → ∀ (x y : W64) (j i : Issue) (b : BarSel), ((Instr.barrive g o).opening s).rrG o = .ok (x, y, j) →
      j.s.barSelect s.cur x = some b → j.command (.new .member 10 (opndArrive s.cur x y) [x.toNat / 2 ^ 32]) = .ok i →
      (Instr.barrive g o).ends s i) ∧
    (∀ (k : Instr), k ∈ [Instr.bwait g o, .btry g o] → k.asks g s → ∀ (x y : W64) (j : Issue), (k.opening s).rrG o = .ok (x, y, j) →
      y.toNat < 2 ^ 32 →
      (j.s.barSelect s.cur x = some .stale → k.ends s (j.resultG o.d.toNat (barWord 2 0) 4)) ∧
      (∀ b w, j.s.barSelect s.cur x = some (.bar b) →
        (j.s.bar b).result (y.setWidth 32) = some w → k.ends s ({ j with s := j.s.barAcquire s.cur b w }.resultG o.d.toNat w 4))) ∧
    ((Instr.bwait g o).begins g s → s.pre.slow.getLsbD (Instr.bwait g o).opn.place = false → ∀ (x y : W64) (j : Issue) (b : BarName), ((Instr.bwait g o).opening s).rrG o = .ok (x, y, j) →
      y.toNat < 2 ^ 32 → j.s.barSelect s.cur x = some (.bar b) →
      (∀ w, Tbl.get none j.s.answers (4 * s.cur + j.slot) = some w →
        (Instr.bwait g o).ends s ({ j with s := { j.s with answers := Tbl.set none j.s.answers (4 * s.cur + j.slot) none }.barAcquire s.cur b w
          }.resultG o.d.toNat w 4)) ∧
      (Tbl.get none j.s.answers (4 * s.cur + j.slot) = none → (j.s.bar b).result (y.setWidth 32) = none →
        ∃ note, (Instr.bwait g o).stops s (.freeze note) ∧ ∀ t : State, (t.bar b).waiters.all (fun w => w.1 ≠ 4 * s.cur + j.slot) = true →
          ((note t).bar b).waiters = (t.bar b).waiters ++ [(4 * s.cur + j.slot, y.setWidth 32)])) ∧
    ((Instr.btry g o).asks g s → ∀ (x y : W64) (j : Issue) (b : BarName), ((Instr.btry g o).opening s).rrG o = .ok (x, y, j) →
      y.toNat < 2 ^ 32 → j.s.barSelect s.cur x = some (.bar b) → (j.s.bar b).result (y.setWidth 32) = none →
      (Instr.btry g o).ends s ({ j with s := j.s.barAcquire s.cur b (barWord 3 0) }.resultG o.d.toNat (barWord 3 0) 4))

/-- WVBIND answers the word of the bind it performs, once the reader that the register held before has left; WVUNBIND answers 1 where nothing was
bound, else 0 when the reader has left and the register is empty, and is held until its earlier reads have been performed;
WVSLOT answers the slot not active, taking a free one for writing; WVREAD answers a binding's or a tensor's word; WVPUBLISH answers the status of a
publish it may not start, waits for one it starts or finds at work, and answers 0 when that one is done;
a selector or version with bits beyond its fields, or an s2 field where none is taken, is an illegal operand (19_weight_versions.md R397 to R408, R412 to R414). -/
def Obligations.WeightVersionOperations : Prop :=
  ∀ (g : Guard) (o : RR) (s : State),
    ((Instr.wvbind g o).asks g s → o.s2 = 0 → ∀ (x : W64) (j : Issue), ((Instr.wvbind g o).opening s).rrG1 o = .ok (x, j) → x.toNat < 2 ^ 17 →
      x.getLsbD 15 = false →
      let n := x.toNat / 2 ^ 12 % 8
      let answer (i : Issue) : Prop := let r := i.s.bind s.cur n (x.toNat % 2 ^ 12) (x.getLsbD 16)
        (Instr.wvbind g o).ends s ({ i with s := r.2 }.resultG o.d.toNat r.1 4)
      let leaves : Bool := ((j.s.ctx s.me.ctx).tensor (x.toNat % 2 ^ 12)).ver ≠ 0 &&
        ((Tbl.get Bind.none j.core.bnd n).v || (j.s.leaveAsked s.cur n).isSome) && !j.s.bindKept s.cur n (x.toNat % 2 ^ 12) (x.getLsbD 16)
      (leaves = false → answer j) ∧ (leaves = true → (∀ i, j.leaving n = .ok i → answer i) ∧
        (∀ e, j.leaving n = .error e → (Instr.wvbind g o).stops s e))) ∧
    ((Instr.wvunbind g o).asks g s → o.s2 = 0 → ∀ (x : W64) (j : Issue), ((Instr.wvunbind g o).opening s).rrG1 o = .ok (x, j) → x.toNat < 2 ^ 15 →
      x.toNat % 2 ^ 12 = 0 →
      let n := x.toNat / 2 ^ 12
      let b := Tbl.get Bind.none j.core.bnd n
      (b.v = false → j.s.leaveAsked s.cur n = none → (Instr.wvunbind g o).ends s (j.resultG o.d.toNat 1 4)) ∧
      (b.v = true → b.stale = true → (Instr.wvunbind g o).ends s ({ j with s := j.s.unbind s.cur n }.resultG o.d.toNat 0 4)) ∧
      (b.v = true → b.stale = false → j.s.leaveAsked s.cur n = none →
        (j.s.readsDone s.me.ctx s.cur j.core.nextSeq = true →
          (Instr.wvunbind g o).ends s ({ j with s := (j.s.slotLeft j.core.clk s.me.ctx b.t b.slot).unbind s.cur n }.resultG o.d.toNat 0 4)) ∧
        (j.s.readsDone s.me.ctx s.cur j.core.nextSeq = false → (Instr.wvunbind g o).stops s (.freeze (fun u =>
          { u with leaves := u.leaves ++ [⟨s.cur, s.me.ctx, b.t, b.slot, j.core.nextSeq, some n, false⟩] })))) ∧
      (b.stale = false → ∀ l, j.s.leaveAsked s.cur n = some l →
        (l.done = true → (Instr.wvunbind g o).ends s ({ j with s := { j.s with leaves := j.s.leaves.erase l }.unbind s.cur n }.resultG o.d.toNat 0 4)) ∧
        (l.done = false → (Instr.wvunbind g o).stops s .wait))) ∧
    ((Instr.wvslot g o).asks g s → o.s2 = 0 → ∀ (x : W64) (j : Issue), ((Instr.wvslot g o).opening s).rrG1 o = .ok (x, j) →
      (x.toNat < 2 ^ 12 ∨ (2 ^ 16 ≤ x.toNat ∧ x.toNat < 2 ^ 16 + 2 ^ 12)) →
      let e := (j.s.ctx s.me.ctx).tensor (x.toNat % 2 ^ 12)
      let w := e.slot e.other
      (e.ver = 0 → (Instr.wvslot g o).ends s (j.resultG o.d.toNat 8 4)) ∧
      (e.ver ≠ 0 → w.st = .writing → (Instr.wvslot g o).ends s (j.resultG o.d.toNat (BitVec.ofNat 64 (w.baseField + 2 + e.other)) 4)) ∧
      (e.ver ≠ 0 → w.st = .retiring → x.getLsbD 16 = true → (Instr.wvslot g o).ends s (j.resultG o.d.toNat (BitVec.ofNat 64 (6 + e.other)) 4)) ∧
      (e.ver ≠ 0 → w.st = .retiring → x.getLsbD 16 = false → (Instr.wvslot g o).stops s .wait) ∧
      (e.ver ≠ 0 → w.st = .free ∨ w.st = .published →
        let u := (j.s.setTensor s.me.ctx (x.toNat % 2 ^ 12) (e.setSlot e.other { w with st := .writing })).acquire s.cur e.left
        (Instr.wvslot g o).ends s ({ j with s := u }.resultG o.d.toNat (BitVec.ofNat 64 (w.baseField + e.other)) 4))) ∧
    ((Instr.wvread g o).asks g s → o.s2 = 0 → ∀ (x : W64) (j : Issue), ((Instr.wvread g o).opening s).rrG1 o = .ok (x, j) →
      (x.toNat / 2 ^ 15 = 4 →
        (Instr.wvread g o).ends s (j.resultG o.d.toNat (bindRegWord (Tbl.get Bind.none j.core.bnd (x.toNat / 2 ^ 12 % 8)) j.core.mix) 4)) ∧
      (∀ f, f = 0 ∨ f = 2 ∨ f = 3 → x.toNat / 2 ^ 12 = 32 * f →
        (Instr.wvread g o).ends s (j.resultG o.d.toNat (wvWord ((j.s.ctx s.me.ctx).tensor (x.toNat % 2 ^ 12)) f) 4))) ∧
    ((Instr.wvpublish g o).asks g s → ∀ (x y : W64) (j : Issue), ((Instr.wvpublish g o).opening s).rrG o = .ok (x, y, j) → x.toNat < 2 ^ 12 →
      y.toNat < 2 ^ 32 →
      let mine (p : Publish) : Bool := p.ctx = s.me.ctx && p.t = x.toNat && p.core = s.cur && p.v = y.setWidth 32 && p.attended
      (∀ p, j.s.pubs.find? mine = some p → p.done = true →
        (Instr.wvpublish g o).ends s ({ j with s := { j.s with pubs := j.s.pubs.erase p } }.resultG o.d.toNat 0 4)) ∧
      (∀ p, j.s.pubs.find? mine = some p → p.done = false → (Instr.wvpublish g o).stops s .wait) ∧
      (j.s.pubs.find? mine = none → j.s.pubs.any (fun p => p.ctx = s.me.ctx && p.t = x.toNat && !p.done) = true →
        (Instr.wvpublish g o).stops s .wait) ∧
      (j.s.pubs.find? mine = none → j.s.pubs.any (fun p => p.ctx = s.me.ctx && p.t = x.toNat && !p.done) = false →
        (∀ st, ((j.s.ctx s.me.ctx).tensor x.toNat).publishStatus (y.setWidth 32) = some st →
          (Instr.wvpublish g o).ends s (j.resultG o.d.toNat (BitVec.ofNat 64 st) 4)) ∧
        (((j.s.ctx s.me.ctx).tensor x.toNat).publishStatus (y.setWidth 32) = none →
          (Instr.wvpublish g o).stops s (.freeze (fun t => { t with pubs := t.pubs ++ [⟨s.me.ctx, x.toNat, y.setWidth 32, s.cur, false, true, s.pre.nextSeq,
            (if s.pre.fenceN then some s.pre.fseqN else none), t.relTime s.cur⟩] }))))) ∧
    (∀ (k : Instr) (low : Nat), (k, low) ∈ [(Instr.wvbind g o, 2 ^ 17), (.wvunbind g o, 2 ^ 15), (.wvslot g o, 2 ^ 17), (.wvread g o, 2 ^ 19)] →
      k.asks g s → ∀ (x : W64) (j : Issue), (k.opening s).rrG1 o = .ok (x, j) → o.s2 ≠ 0 ∨ low ≤ x.toNat → k.stops s (.trap 4 0)) ∧
    ((Instr.wvpublish g o).asks g s → ∀ (x y : W64) (j : Issue), ((Instr.wvpublish g o).opening s).rrG o = .ok (x, y, j) →
      2 ^ 12 ≤ x.toNat ∨ 2 ^ 32 ≤ y.toNat → (Instr.wvpublish g o).stops s (.trap 4 0))

/-- `ContextStateAndFreezeRequests` and `ContextResumeRequests`, both. -/
def Obligations.ContextRequestsAreTaken : Prop :=
  Sys2Proof.Claims.ContextStateAndFreezeRequests ∧ Sys2Proof.Claims.ContextResumeRequests

/-- `QueueOperations` and `QueueGivesBackWhatWasPushed`, both. -/
def Obligations.QueueOperationsAndTheirOrder : Prop :=
  Sys2Proof.Claims.QueueOperations ∧ Sys2Proof.Claims.QueueGivesBackWhatWasPushed

/-- `KernelAndGroupOperations` and `BarrierOperations`, both. -/
def Obligations.KernelGroupAndBarrierOperations : Prop :=
  Sys2Proof.Claims.KernelAndGroupOperations ∧ Sys2Proof.Claims.BarrierOperations

/-- The exit test of R426 on two FP32 values: neither is a NaN, and the head does not exceed the confidence. -/
def Sys2Proof.Claims.exitTaken (c h : BitVec 32) : Bool := exits (Fmt.f32.val c.toNat) (Fmt.f32.val h.toNat)

/-- CONFX without an exit answers 0 and changes nothing; with one, on a range of plain entries and with the core's asynchronous writes made, it marks
them pending, notes the early exit and its layer, and answers 1; a bad range answers status 3, an entry already marked status 2. KVCOMMIT of a core
of a group accepts a commit record whose status is 0, which becomes the group's last ticket, and answers any other status with no effect. The four forms of KVMODE set and
read the proxy bit, mark a range speculative for the group, and tell an entry's mark; without a KV region, and KVCOMMIT on a kiosk core
or with an s2 field, all are illegal operands (20_generation.md R421 to R427). -/
def Sys2Proof.Claims.KvOperations : Prop :=
  ∀ (g : Guard) (o : RR) (s : State), ((s.ctx s.me.ctx).kvnp ≠ 0 →
    ((Instr.confx g o).asks g s → ∀ (x y : W64) (j : Issue), ((Instr.confx g o).opening s).rrG o = .ok (x, y, j) → y.toNat < 2 ^ 56 →
      let e0 := y.toNat % 2 ^ 32
      let n := y.toNat / 2 ^ 32 % 2 ^ 16
      let answer (i : Issue) (w : W64) := (Instr.confx g o).ends s (i.resultG o.d.toNat w 4)
      let test := Sys2Proof.Claims.exitTaken (x.extractLsb' 0 32) (x.extractLsb' 32 32)
      (test = false → answer j 0) ∧
      (test = true → j.core.allWritten j.pointSeq = true → kvRangeOk (j.s.ctx s.me.ctx) e0 n = false → answer j (BitVec.ofNat 64 (3 * 2 ^ 4))) ∧
      (test = true → j.core.allWritten j.pointSeq = true → kvRangeOk (j.s.ctx s.me.ctx) e0 n = true →
        (∃ m < n, kvMark (j.s.ctx s.me.ctx) (e0 + m) ≠ .plain) → answer j (BitVec.ofNat 64 (2 * 2 ^ 4))) ∧
      (test = true → j.core.allWritten j.pointSeq = true → kvRangeOk (j.s.ctx s.me.ctx) e0 n = true →
        (∀ m < n, kvMark (j.s.ctx s.me.ctx) (e0 + m) = .plain) →
        let u := (j.s.updCtx s.me.ctx (fun c => c.markRange e0 n .pending)).markStoreBy s.cur s.me.ctx e0 (j.s.relTime s.cur)
        answer { j with s := u.upd s.cur (fun c => { c with xearly := true, xl := y.extractLsb' 48 8 }) } 1)) ∧
    ((Instr.kvcommit g o).asks g s → o.s2 = 0 → isKiosk s.cur = false →
      ∀ (va : W64) (j i i' : Issue) (head l : List (BitVec 512 × BitVec 16)),
      ((Instr.kvcommit g o).opening s).rrG1 o = .ok (va, j) →
      ({ j with pre := { j.pre with slow := 0 } } : Issue).commitBlocks va 1 = .ok (head, i) → i.core.allWritten i.pointSeq = true →
      i.commitBlocks va ((16 + 8 * (blocksVal head / 2 ^ 32 % 2 ^ 16) + 63) / 64) = .ok (l, i') →
      let v := blocksVal l
      let pairs := commitPairs v (blocksVal head / 2 ^ 32 % 2 ^ 16)
      let st := i'.s.commitStatus s.me.ctx s.pre.mem.grp (v % 2 ^ 32) pairs
      let kc : KvCommit := ⟨s.me.ctx, s.pre.mem.grp, pairs, BitVec.ofNat 64 (v / 2 ^ 64), 0, 0, none, i'.s.relTime s.cur, false⟩
      (st ≠ 0 → (Instr.kvcommit g o).ends s { i'.resultG o.d.toNat (BitVec.ofNat 64 (st * 2 ^ 4)) 4 with pre := s.pre }) ∧
      let tk := ((s.me.ctx, s.pre.mem.grp), v % 2 ^ 32) :: i'.s.tickets.filter (fun t => t.1 ≠ (s.me.ctx, s.pre.mem.grp))
      let u : State := { i'.s with kvcommits := i'.s.kvcommits ++ [kc], tickets := tk }
      let i'' : Issue := { i' with s := u.upd s.cur (fun c => { c with spa := v / 2 ^ 48 % 2 ^ 16 }) }
      (st = 0 → (Instr.kvcommit g o).ends s { i''.resultG o.d.toNat 0 4 with pre := s.pre })) ∧
    (∀ (k : Instr) (f : Nat), (k, f) ∈ [(Instr.kvmodeSet g o, 0), (.kvmodeGet g o, 1), (.kvmodeSpec g o, 2), (.kvmodeQuery g o, 3)] →
      k.asks g s → ∀ (x y : W64) (j : Issue), (k.opening s).rrG o = .ok (x, y, j) → x.toNat = f →
      let c := j.s.ctx s.me.ctx
      let proxy : W64 := if c.kvproxy then 1 else 0
      let answer (i : Issue) (w : W64) := k.ends s (i.resultG o.d.toNat w 4)
      (f = 0 → y.toNat < 2 → c.mlock = false → answer { j with s := j.s.updCtx s.me.ctx (fun c => { c with kvproxy := y.getLsbD 0 }) } proxy) ∧
      (f = 0 → y.toNat < 2 → c.mlock = true → answer j (proxy + 16)) ∧
      (f = 1 → y = 0 → answer j proxy) ∧
      (f = 2 → isKiosk s.cur = false → y.toNat < 2 ^ 48 → 0 < y.toNat / 2 ^ 32 → y.toNat / 2 ^ 32 ≤ 4096 →
        kvRangeOk c (y.toNat % 2 ^ 32) (y.toNat / 2 ^ 32) = true →
        ((∀ m < y.toNat / 2 ^ 32, kvMark c (y.toNat % 2 ^ 32 + m) = .plain ∨ kvMark c (y.toNat % 2 ^ 32 + m) = .spec s.pre.mem.grp) →
          let u := j.s.updCtx s.me.ctx (fun c => c.markRange (y.toNat % 2 ^ 32) (y.toNat / 2 ^ 32) (.spec s.pre.mem.grp))
          answer { j with s := u.markStoreBy s.cur s.me.ctx (y.toNat % 2 ^ 32) j.core.clk } 0) ∧
        ((∃ m < y.toNat / 2 ^ 32, kvMark c (y.toNat % 2 ^ 32 + m) ≠ .plain ∧ kvMark c (y.toNat % 2 ^ 32 + m) ≠ .spec s.pre.mem.grp) → answer j 32)) ∧
      (f = 3 → y.toNat < 2 ^ 32 → y.toNat < kvCount c →
        (kvMark c y.toNat = .plain → answer j 0) ∧ (kvMark c y.toNat = .pending → answer j 2) ∧
        (∀ h, kvMark c y.toNat = .spec h → isKiosk s.cur = false → answer j (if s.pre.mem.grp = h then 5 else 1))) ∧
      (f = 3 → y.toNat < 2 ^ 32 → kvCount c ≤ y.toNat → answer j 48))) ∧
    (∀ k ∈ [Instr.confx g o, .kvmodeSet g o, .kvmodeGet g o, .kvmodeSpec g o, .kvmodeQuery g o], k.asks g s → ∀ (x y : W64) (j : Issue),
      (k.opening s).rrG o = .ok (x, y, j) → (s.ctx s.me.ctx).kvnp = 0 → k.stops s (.trap 4 0)) ∧
    ((Instr.kvcommit g o).asks g s → ∀ (va : W64) (j : Issue), ((Instr.kvcommit g o).opening s).rrG1 o = .ok (va, j) →
      (s.ctx s.me.ctx).kvnp = 0 ∨ o.s2 ≠ 0 ∨ isKiosk s.cur = true → (Instr.kvcommit g o).stops s (.trap 4 0))

/-- LKTREE answers at once a descriptor that it refuses, with status and entry; a descriptor accepted becomes a reservation the bundle waits for, and
the answer that comes is delivered. LKFREE ends the tree of a slot the core's context holds, here and by
control messages on its other devices; its check changes nothing; a slot not allocated answers 8, another
context's 7, and a bit or an s2 field it has no use for is an illegal operand (21_link.md R441 to R445). PGPROBE delivers the master entry, or while a
MOVE of its page is under way that entry with STATE migrating; PGINV's two forms begin the operation and wait for its end, whose status they
deliver (11_page.md R294 to R297). -/
def Sys2Proof.Claims.LinkAndPageOperations : Prop :=
  ∀ (g : Guard) (o : RR) (s : State),
    ((Instr.lktree g o).begins g s → ∀ (va y : W64) (j : Issue), (Sys2Proof.Claims.quick ((Instr.lktree g o).opening s)).rrG o = .ok (va, y, j) → va.toNat % 64 = 0 →
      y.toNat < 64 → (j.s.ctx y.toNat).st ≠ .free → (j.s.ctx y.toNat).st ≠ .dead →
      (∀ w, Tbl.get none j.s.answers (4 * s.cur + j.slot) = some w →
        (Instr.lktree g o).ends s ({ j with s := { j.s with answers := Tbl.set none j.s.answers (4 * s.cur + j.slot) none } }.resultG o.d.toNat w 4)) ∧
      (Tbl.get none j.s.answers (4 * s.cur + j.slot) = none → (∀ r ∈ j.s.treeReqs, ¬ (r.wanted = true ∧ r.key = 4 * s.cur + j.slot)) →
        ∀ (h : List (BitVec 512 × BitVec 16)) (i : Issue), j.commitBlocks va 1 = .ok (h, i) →
        let n := blocksVal h % 2 ^ 16
        ((n < 2 ∨ 256 < n) → (Instr.lktree g o).ends s (i.resultG o.d.toNat (BitVec.ofNat 64 (1 * 2 ^ 8)) 4)) ∧
        (2 ≤ n → n ≤ 256 → ∀ (l : List (BitVec 512 × BitVec 16)) (i' : Issue), i.commitBlocks va ((64 + 16 * n + 63) / 64) = .ok (l, i') →
          let raw := (List.range n).map (fun m => blocksVal l / 2 ^ (512 + 128 * m) % 2 ^ 128)
          (∀ st idx, i'.s.descriptorStatus (blocksVal h) raw = some (st, idx) →
            (Instr.lktree g o).ends s (i'.resultG o.d.toNat (BitVec.ofNat 64 (st * 2 ^ 8 + idx * 2 ^ 16)) 4)) ∧
          (i'.s.descriptorStatus (blocksVal h) raw = none → ∃ note, (Instr.lktree g o).stops s (.freeze note) ∧
            ∀ t : State, ∃ r : TreeReq, (note t).treeReqs = t.treeReqs ++ [r] ∧ r.key = 4 * s.cur + j.slot ∧ r.wanted = true ∧
              r.tree.ctx = y.toNat ∧ r.tree.ents = raw.map TreeEntry.ofBits)))) ∧
    (∀ e ∈ [(Instr.lkfree g o, false), (Instr.lkfreeCheck g o, true)], e.1.asks g s → o.s2 = 0 → ∀ (x : W64) (j : Issue),
      (e.1.opening s).rrG1 o = .ok (x, j) → x.toNat = x.toNat % 64 + (if e.2 then 256 else 0) →
      let t := j.s.treeAt (x.toNat % 64)
      let answer (i : Issue) (st : Nat) := e.1.ends s (i.resultG o.d.toNat (BitVec.ofNat 64 (x.toNat % 64 + st * 2 ^ 8)) 4)
      (t.st ≠ .allocated → answer j 8) ∧
      (t.st = .allocated → t.ctx ≠ s.me.ctx → answer j 7) ∧
      (t.st = .allocated → t.ctx = s.me.ctx → e.2 = true → answer j 0) ∧
      (t.st = .allocated → t.ctx = s.me.ctx → e.2 = false → answer { j with s := (j.s.freeTree (x.toNat % 64)).tellTree t (x.toNat % 64) .release } 0)) ∧
    (∀ k ∈ [Instr.lkfree g o, .lkfreeCheck g o], k.asks g s → ∀ (x : W64) (j : Issue), (k.opening s).rrG1 o = .ok (x, j) →
      o.s2 ≠ 0 ∨ 2 ^ 9 ≤ x.toNat → k.stops s (.trap 4 0)) ∧
    ((Instr.pgprobe g o).asks g s → ∀ (x : W64) (j : Issue), ((Instr.pgprobe g o).opening s).rrG1 o = .ok (x, j) →
      (∀ c p, j.s.pgSelect x = some (c, p) →
        (Instr.pgprobe g o).ends s ({ j with s := (j.s.readEntry c p).2 }.resultG o.d.toNat (j.s.readEntry c p).1 4)) ∧
      (j.s.pgSelect x = none → (Instr.pgprobe g o).stops s (.trap 4 0))) ∧
    (∀ (t : State) (c p : Nat), (t.readEntry c p).1 = t.master c p ∨
      (t.readEntry c p).1 = peWith (t.master c p) 2 ∧ ∃ q ∈ t.pgops, q.ctx = c ∧ q.page = p ∧ q.move = true ∧ (q.phase = pgFirst ∨ q.phase = pgCopy)) ∧
    (∀ e ∈ [(Instr.pginvUpdate g o, false), (Instr.pginvMove g o, true)], e.1.begins g s → ∀ (x y : W64) (j : Issue) (c p : Nat),
      (e.1.opening s).rrG o = .ok (x, y, j) → j.s.pgSelect x = some (c, p) → y.extractLsb' 0 2 = (if e.2 then 1 else 0) → y.extractLsb' 2 38 = 0 →
      (e.2 = false → y.toNat < 2 ^ 40) →
      let mine (q : PgOp) : Bool := q.attended && q.core = s.cur && q.ctx = c && q.page = p && (q.move = e.2) && q.npfn = y.toNat / 2 ^ 40
      (j.s.pgops.find? mine = none → e.1.stops s (.freeze (fun t => State.pgKick
        { t with pgops := t.pgops ++ [⟨s.cur, c, p, e.2, y.toNat / 2 ^ 40, 0, 0, [], pgWaiting, 0, true⟩] }))) ∧
      (∀ q, j.s.pgops.find? mine = some q → q.phase ≠ pgDone → e.1.stops s (.freeze State.pgKick)) ∧
      (∀ q, j.s.pgops.find? mine = some q → q.phase = pgDone →
        e.1.ends s ({ j with s := { j.s with pgops := j.s.pgops.erase q } }.resultG o.d.toNat (BitVec.ofNat 64 q.status) 1)))

/-- `KvOperations` and `LinkAndPageOperations`, both. -/
def Obligations.KvLinkAndPageOperations : Prop :=
  Sys2Proof.Claims.KvOperations ∧ Sys2Proof.Claims.LinkAndPageOperations

/-! ### Vector operations -/

/-- The row delivers, at latency `lat`, to v[d] (or to the latch alone under nil) a vector whose lane n of width w is `f n`, once its operands have been
read as issue `i`; a destination in a lent bank is a lent-bank violation (02_core.md R51; 06_vector.md R157 to R160). -/
def Sys2Proof.Claims.deliversLanes (k : Instr) (s : State) (i : Issue) (d : BitVec 6) (dnil : Bool) (lat w : Nat) (f : Nat → Nat) : Prop :=
  ∃ v : Vec, (∀ n < 1024 / w, lane v w n = f n % 2 ^ w) ∧
    (dnil = true → k.ends s (i.result .latch 0 v lat)) ∧
    (dnil = false → i.core.isLent (i.pre.physV d.toNat) = false → k.ends s (i.result .v (i.pre.physV d.toNat) v lat)) ∧
    (dnil = false → i.core.isLent (i.pre.physV d.toNat) = true → k.stops s (.trap 5 0))

/-- Two-source float operations: format, latency, element by mode, drawn word and operands (06_vector.md R161, R162, R165, R166). -/
noncomputable def Sys2Proof.Claims.floatRows : List ((Guard → RMode → RR → Instr) × Fmt × Nat × (RMode → Nat → FVal → FVal → Nat → Nat → Nat)) :=
  [(.vaddF32, .f32, 4, fun rm u a b _ _ => roundSum .f32 rm u (addVal rm a b)),
   (.vaddBf16, .bf16, 4, fun rm u a b _ _ => roundSum .bf16 rm u (addVal rm a b)),
   (.vaddF16, .f16, 4, fun rm u a b _ _ => roundSum .f16 rm u (addVal rm a b)),
   (.vsubF32, .f32, 4, fun rm u a b _ _ => roundSum .f32 rm u (addVal rm a b.flip)),
   (.vsubBf16, .bf16, 4, fun rm u a b _ _ => roundSum .bf16 rm u (addVal rm a b.flip)),
   (.vsubF16, .f16, 4, fun rm u a b _ _ => roundSum .f16 rm u (addVal rm a b.flip)),
   (.vmulF32, .f32, 4, fun rm u a b _ _ => roundVal .f32 rm u (mulVal a b)),
   (.vmulBf16, .bf16, 4, fun rm u a b _ _ => roundVal .bf16 rm u (mulVal a b)),
   (.vmulF16, .f16, 4, fun rm u a b _ _ => roundVal .f16 rm u (mulVal a b)),
   (.vminF32, .f32, 4, fun _ _ _ _ x y => fminmax .f32 false x y), (.vminBf16, .bf16, 4, fun _ _ _ _ x y => fminmax .bf16 false x y),
   (.vminF16, .f16, 4, fun _ _ _ _ x y => fminmax .f16 false x y), (.vmaxF32, .f32, 4, fun _ _ _ _ x y => fminmax .f32 true x y),
   (.vmaxBf16, .bf16, 4, fun _ _ _ _ x y => fminmax .bf16 true x y), (.vmaxF16, .f16, 4, fun _ _ _ _ x y => fminmax .f16 true x y),
   (.vdivF32, .f32, 8, fun rm u a b _ _ => fdiv .f32 rm u a b), (.vdivBf16, .bf16, 8, fun rm u a b _ _ => fdiv .bf16 rm u a b)]

/-- The fused operations: the exact sum each rounds once (06_vector.md R161). -/
noncomputable def Sys2Proof.Claims.fusedRows : List ((Guard → RMode → RR → Instr) × Fmt × (RMode → FVal → FVal → FVal → Sum)) :=
  [(.vfmaF32, .f32, fun rm a b c => addVal rm (mulVal a b) c), (.vfmaBf16, .bf16, fun rm a b c => addVal rm (mulVal a b) c),
   (.vfmaF16, .f16, fun rm a b c => addVal rm (mulVal a b) c), (.vfmsF32, .f32, fun rm a b c => addVal rm (mulVal a b) c.flip),
   (.vfmsBf16, .bf16, fun rm a b c => addVal rm (mulVal a b) c.flip), (.vfmsF16, .f16, fun rm a b c => addVal rm (mulVal a b) c.flip),
   (.vfnmaF32, .f32, fun rm a b c => addVal rm c (mulVal a b).flip), (.vfnmaBf16, .bf16, fun rm a b c => addVal rm c (mulVal a b).flip),
   (.vfnmaF16, .f16, fun rm a b c => addVal rm c (mulVal a b).flip)]

/-- VADD, VSUB, VMUL, VMIN, VMAX, VDIV, VFMA, VFMS and VFNMA in their formats deliver in each lane the element of the two lanes (of three, with v[d], for the
fused ones), rounded once; under stochastic rounding each lane takes a word of its own (06_vector.md R157 to R166; 03_numbers.md R78, R79). -/
def Sys2Proof.Claims.FloatOperationsDeliverEachLane : Prop :=
  ∀ (g : Guard) (rm : RMode) (o : RR) (s : State),
    (∀ e ∈ Sys2Proof.Claims.floatRows, (e.1 g rm o).begins g s → ∀ (x y : Vec) (j : Issue),
      ((e.1 g rm o).opening s).rrSources o .v .v = .ok (x, y, j) →
      let w := e.2.1.w
      let r := j.roundWords rm (1024 / w)
      Sys2Proof.Claims.deliversLanes (e.1 g rm o) s r.2 o.d o.dnil e.2.2.1 w (fun n =>
        e.2.2.2 rm (nth 0 r.1 n) (e.2.1.val (lane x w n)) (e.2.1.val (lane y w n)) (lane x w n) (lane y w n))) ∧
    (∀ e ∈ Sys2Proof.Claims.fusedRows, (e.1 g rm o).begins g s → ∀ (c x y : Vec) (j : Issue),
      ((e.1 g rm o).opening s).readReg .v o.d.toNat = .ok c → ((e.1 g rm o).opening s).rrSources o .v .v = .ok (x, y, j) →
      let w := e.2.1.w
      let r := j.roundWords rm (1024 / w)
      Sys2Proof.Claims.deliversLanes (e.1 g rm o) s r.2 o.d false 4 w (fun n =>
        roundSum e.2.1 rm (nth 0 r.1 n) (e.2.2 rm (e.2.1.val (lane x w n)) (e.2.1.val (lane y w n)) (e.2.1.val (lane c w n)))))

/-- One-source float operations under the bundle's mode (06_vector.md R165, R166). -/
noncomputable def Sys2Proof.Claims.functionRows : List ((Guard → RMode → RR → Instr) × Fmt × (RMode → Nat → FVal → Nat)) :=
  [(.vrcpF32, .f32, fun rm u a => fdiv .f32 rm u (.fin false 1 0) a), (.vrcpBf16, .bf16, fun rm u a => fdiv .bf16 rm u (.fin false 1 0) a),
   (.vrsqF32, .f32, frsq .f32), (.vrsqBf16, .bf16, frsq .bf16), (.vsqrtF32, .f32, fsqrt .f32), (.vsqrtBf16, .bf16, fsqrt .bf16),
   (.vexp2F32, .f32, fexp2 .f32), (.vexp2Bf16, .bf16, fexp2 .bf16), (.vlog2F32, .f32, flog2 .f32), (.vlog2Bf16, .bf16, flog2 .bf16),
   (.vtanhF32, .f32, ftanh .f32), (.vtanhBf16, .bf16, ftanh .bf16)]

/-- One-source operations on bit patterns: lane width and element (06_vector.md R163). -/
noncomputable def Sys2Proof.Claims.patternRows : List ((Guard → RR → Instr) × Nat × (Nat → Nat)) :=
  [(.vabsF32, 32, fun x => x % 2 ^ 31), (.vabsH, 16, fun x => x % 2 ^ 15), (.vnegF32, 32, fun x => (x + 2 ^ 31) % 2 ^ 32),
   (.vnegH, 16, fun x => (x + 2 ^ 15) % 2 ^ 16), (.vclassF32, 32, fun x => 2 ^ vclass .f32 x), (.vclassBf16, 16, fun x => 2 ^ vclass .bf16 x),
   (.vclassF16, 16, fun x => 2 ^ vclass .f16 x)]

/-- VRCP to VTANH deliver each lane's correctly rounded function at latency 8; VABS, VNEG and VCLASS each lane's pattern at latency 2
(06_vector.md R163, R165, R166). -/
def Sys2Proof.Claims.FunctionOperationsDeliverEachLane : Prop :=
  ∀ (g : Guard) (rm : RMode) (o : RR) (s : State),
    (∀ e ∈ Sys2Proof.Claims.functionRows, (e.1 g rm o).begins g s → ∀ (x : Vec) (j : Issue), ((e.1 g rm o).opening s).v1 o = .ok (x, j) →
      let w := e.2.1.w
      let r := j.roundWords rm (1024 / w)
      Sys2Proof.Claims.deliversLanes (e.1 g rm o) s r.2 o.d o.dnil 8 w (fun n => e.2.2 rm (nth 0 r.1 n) (e.2.1.val (lane x w n)))) ∧
    (∀ e ∈ Sys2Proof.Claims.patternRows, (e.1 g o).begins g s → ∀ (x : Vec) (j : Issue), ((e.1 g o).opening s).v1 o = .ok (x, j) →
      Sys2Proof.Claims.deliversLanes (e.1 g o) s j o.d o.dnil 2 e.2.1 (fun n => e.2.2 (lane x e.2.1 n)))

/-- The rows of VFIN's test form and their formats, and those of its read form (06_vector.md R164). -/
noncomputable def Sys2Proof.Claims.finRows : List ((Guard → RR → Instr) × Fmt) := [(.vfinF32, .f32), (.vfinBf16, .bf16), (.vfinF16, .f16)]
noncomputable def Sys2Proof.Claims.finReadRows : List (Guard → RR → Instr) := [.vfinNfsF32, .vfinNfsBf16, .vfinNfsF16]

/-- VFIN's test delivers 1 where an enabled lane is an infinity or a NaN and adds that to the sticky flag; its read form delivers the flag and clears
it; both at latency 2 (06_vector.md R164). -/
def Sys2Proof.Claims.FiniteTestsKeepTheStickyFlag : Prop :=
  ∀ (g : Guard) (o : RR) (s : State),
    (∀ e ∈ Sys2Proof.Claims.finRows, (e.1 g o).begins g s → ∀ (x : Vec) (j : Issue), ((e.1 g o).opening s).v1 o = .ok (x, j) →
      ∃ n : Bool, (n = true ↔ ∃ m < 1024 / e.2.w, (s.pre.getM o.s2.toNat).getLsbD (m * e.2.w / 8) = true ∧
          ((e.2.val (lane x e.2.w m)).isNan = true ∨ (e.2.val (lane x e.2.w m)).isInf = true)) ∧
        (e.1 g o).ends s ((j.upd (fun c => { c with nfs := c.nfs || n })).result (if o.dnil then .latch else .p) o.d.toNat (if n then 1 else 0) 2)) ∧
    (∀ e ∈ Sys2Proof.Claims.finReadRows, (e g o).begins g s →
      (e g o).ends s ((((e g o).opening s).upd (fun c => { c with nfs := false })).result (if o.dnil then .latch else .p) o.d.toNat
        (if s.pre.nfs then 1 else 0) 2))

/-- Integer lane operations: lane width and element, taken modulo 2^w (06_vector.md R167). -/
noncomputable def Sys2Proof.Claims.laneRows : List ((Guard → RR → Instr) × Nat × (Nat → Nat → Nat)) :=
  [(.viadd32, 32, fun x y => x + y), (.viadd16, 16, fun x y => x + y), (.viadd8, 8, fun x y => x + y),
   (.visub32, 32, fun x y => x + (2 ^ 32 - y)), (.visub16, 16, fun x y => x + (2 ^ 16 - y)), (.visub8, 8, fun x y => x + (2 ^ 8 - y)),
   (.vimul32, 32, fun x y => x * y), (.vimul16, 16, fun x y => x * y),
   (.vimulhI32, 32, fun x y => (((BitVec.ofNat 32 x).signExtend 64 * (BitVec.ofNat 32 y).signExtend 64).extractLsb' 32 32).toNat),
   (.vimulhN32, 32, fun x y => x * y / 2 ^ 32),
   (.viminI32, 32, fun x y => if (BitVec.ofNat 32 x).slt (BitVec.ofNat 32 y) then x else y), (.viminN32, 32, fun x y => min x y),
   (.viminI16, 16, fun x y => if (BitVec.ofNat 16 x).slt (BitVec.ofNat 16 y) then x else y),
   (.viminI8, 8, fun x y => if (BitVec.ofNat 8 x).slt (BitVec.ofNat 8 y) then x else y),
   (.vimaxI32, 32, fun x y => if (BitVec.ofNat 32 x).slt (BitVec.ofNat 32 y) then y else x), (.vimaxN32, 32, fun x y => max x y),
   (.vimaxI16, 16, fun x y => if (BitVec.ofNat 16 x).slt (BitVec.ofNat 16 y) then y else x),
   (.vimaxI8, 8, fun x y => if (BitVec.ofNat 8 x).slt (BitVec.ofNat 8 y) then y else x),
   (.vshl32, 32, fun x y => x * 2 ^ (y % 32)), (.vshl16, 16, fun x y => x * 2 ^ (y % 16)), (.vshr32, 32, fun x y => x / 2 ^ (y % 32)),
   (.vshr16, 16, fun x y => x / 2 ^ (y % 16)), (.vsar32, 32, fun x y => ((BitVec.ofNat 32 x).sshiftRight (y % 32)).toNat),
   (.vsar16, 16, fun x y => ((BitVec.ofNat 16 x).sshiftRight (y % 16)).toNat),
   (.vand, 8, fun x y => x &&& y), (.vor, 8, fun x y => x ||| y), (.vxor, 8, fun x y => x ^^^ y)]

/-- Vector compares: lane width and condition by code and lanes (06_vector.md R168). -/
noncomputable def Sys2Proof.Claims.vectorCompareRows : List ((Guard → RR → Instr) × Nat × (Nat → Nat → Nat → Bool)) :=
  [(.vcmpI32, 32, fun k x y => icond k (BitVec.ofNat 32 x).toInt (BitVec.ofNat 32 y).toInt), (.vcmpN32, 32, fun k x y => icond k x y),
   (.vcmpF32, 32, fun k x y => fcond k (Fmt.f32.val x) (Fmt.f32.val y)), (.vcmpBf16, 16, fun k x y => fcond k (Fmt.bf16.val x) (Fmt.bf16.val y))]

/-- Integer, bitwise, select and compare operations deliver every lane at latency 2: lanes wrap, shifts use the low bits of the lane, VMSEL chooses
bytes by a mask, a compare sets the mask bits of each lane's bytes to its condition (06_vector.md R157, R167 to R169). -/
def Sys2Proof.Claims.IntegerLanesAndCompares : Prop :=
  ∀ (g : Guard) (o : RR) (s : State),
    (∀ e ∈ Sys2Proof.Claims.laneRows, (e.1 g o).begins g s → ∀ (x y : Vec) (j : Issue), ((e.1 g o).opening s).rrSources o .v .v = .ok (x, y, j) →
      Sys2Proof.Claims.deliversLanes (e.1 g o) s j o.d o.dnil 2 e.2.1 (fun n => e.2.2 (lane x e.2.1 n) (lane y e.2.1 n))) ∧
    (∀ e ∈ Sys2Proof.Claims.vectorCompareRows, (e.1 g o).begins g s → ∀ (x y : Vec) (j : Issue),
      ((e.1 g o).opening s).rrSources o .v .v = .ok (x, y, j) →
      ∃ m : Mask, (∀ b < 128, m.getLsbD b = e.2.2 (o.d.toNat / 8) (lane x e.2.1 (8 * b / e.2.1)) (lane y e.2.1 (8 * b / e.2.1))) ∧
        (e.1 g o).ends s (j.result .m (o.d.toNat % 8) (m.setWidth 1024) 2)) ∧
    (∀ q : RRR, (Instr.vmsel g q).begins g s → ∀ (x y : Vec), ((Instr.vmsel g q).opening s).readReg .v q.s1.toNat = .ok x →
      ((Instr.vmsel g q).opening s).readReg .v q.s2.toNat = .ok y →
      Sys2Proof.Claims.deliversLanes (Instr.vmsel g q) s ((Instr.vmsel g q).opening s) q.d false 2 8 (fun n =>
        if (s.pre.getM q.s3.toNat).getLsbD n then lane x 8 n else lane y 8 n))

/-- The rows of VCVT and the destination code of each (04_encoding.md R116). -/
noncomputable def Sys2Proof.Claims.convertRows : List ((Guard → RMode → CV → Instr) × Nat) :=
  [(.vcvtF32, 0), (.vcvtBf16, 1), (.vcvtF16, 2), (.vcvtI8, 3), (.vcvtN8, 4), (.vcvtI16, 5), (.vcvtN16, 6), (.vcvtI32, 7), (.vcvtN32, 8)]

/-- Lane n of a conversion (06_vector.md R170): where the destination is narrower, the lanes of the part take the elements and the others stay; where
it is wider, the elements come from the part. -/
def Sys2Proof.Claims.convertedLane (src dst : CFmt) (rm : RMode) (part : Nat) (ws : List Nat) (x old : Vec) (n : Nat) : Nat :=
  let cnt := 1024 / max src.w dst.w
  if dst.w < src.w then
    if n / cnt = part then convert src dst rm (nth 0 ws (n % cnt)) (lane x src.w (n % cnt)) else lane old dst.w n
  else if src.w < dst.w then convert src dst rm (nth 0 ws n) (lane x src.w (part * cnt + n))
  else convert src dst rm (nth 0 ws n) (lane x src.w n)

/-- VCVT under the bundle's mode and VSRND, always stochastic, convert the elements of a register at latency 4 (06_vector.md R170 to R172). VPLSPLIT and
VPLJOIN move bit planes between a byte register and a plane register, at latency 2 (R173, R174); VOUTAPPLY adds the outliers whose index falls on
a lane, in ascending entry order, at latency 4 (R175). -/
def Sys2Proof.Claims.ConversionsAndPlanes : Prop :=
  ∀ (g : Guard) (s : State),
    (∀ (rm : RMode) (o : CV) (k : Instr) (src dst : CFmt) (md : RMode),
      ((∃ e ∈ Sys2Proof.Claims.convertRows, k = e.1 g rm o ∧ src = cfmt o.sfmt.toNat ∧ dst = cfmt e.2 ∧ md = rm) ∨
        (k = .vsrnd g o ∧ src = cfmt 0 ∧ dst = cfmt o.sfmt.toNat ∧ md = .rs)) →
      k.begins g s → ∀ (x old : Vec) (j : Issue), (dst.w < src.w → (k.opening s).kept o.d.toNat o.dnil = .ok old) →
      (k.opening s).source 0 (smode o.mode).1 .v o.s1.toNat = .ok (x, j) →
      let r := j.roundWords md (1024 / max src.w dst.w)
      Sys2Proof.Claims.deliversLanes k s r.2 o.d o.dnil 4 dst.w (Sys2Proof.Claims.convertedLane src dst md o.part.toNat r.1 x old)) ∧
    (∀ (o : RR) (old x : Vec) (j : Issue), (Instr.vplsplit g o).begins g s → ((Instr.vplsplit g o).opening s).kept o.d.toNat o.dnil = .ok old →
      ((Instr.vplsplit g o).opening s).v1 o = .ok (x, j) →
      Sys2Proof.Claims.deliversLanes (Instr.vplsplit g o) s j o.d o.dnil 2 1 (fun b =>
        if b % 256 / 128 = o.s2.toNat % 2 then lane x 8 (b % 128) / 2 ^ (7 - 4 * (o.s2.toNat / 2) - b / 256) else lane old 1 b)) ∧
    (∀ (o : RR) (old x : Vec) (j : Issue), (Instr.vpljoin g o).begins g s → ((Instr.vpljoin g o).opening s).kept o.d.toNat o.dnil = .ok old →
      ((Instr.vpljoin g o).opening s).v1 o = .ok (x, j) →
      Sys2Proof.Claims.deliversLanes (Instr.vpljoin g o) s j o.d o.dnil 2 1 (fun b =>
        if 4 - 4 * (o.s2.toNat / 2) ≤ b % 8 ∧ b % 8 ≤ 7 - 4 * (o.s2.toNat / 2)
        then lane x 1 (256 * (7 - 4 * (o.s2.toNat / 2) - b % 8) + 128 * (o.s2.toNat % 2) + b / 8) else lane old 1 b)) ∧
    (∀ (o : RR) (old ents base : Vec) (j : Issue), (Instr.voutapply g o).begins g s →
      ((Instr.voutapply g o).opening s).kept o.d.toNat o.dnil = .ok old →
      ((Instr.voutapply g o).opening s).rrSources o .v .v = .ok (ents, base, j) →
      Sys2Proof.Claims.deliversLanes (Instr.voutapply g o) s j o.d o.dnil 4 32 (fun n => (List.range 16).foldl (fun a m =>
        if lane ents 32 (2 * m) = lane base 32 0 + n then addF32 a (lane ents 32 (2 * m + 1)) else a) (lane old 32 n)))

/-- Reductions: lane width, identity, what lane 0 receives of the lanes and a drawn word (06_vector.md R176, R177). -/
noncomputable def Sys2Proof.Claims.reduceRows : List ((Guard → RMode → RR → Instr) × Nat × Nat × (RMode → List Nat → Nat → Nat)) :=
  [(.vrsumF32, 32, 2 ^ 31, fun rm l u => treeSum .f32 rm 4 l u), (.vrsumBf16, 16, 2 ^ 15, fun rm l u => treeSum .bf16 rm 5 (l.map (· * 2 ^ 16)) u),
   (.vrsumI32, 32, 0, fun _ l _ => l.sum), (.vrmaxF32, 32, 0xFF800000, fun _ l _ => treeRoot (fminmax .f32 true) 5 l),
   (.vrmaxI32, 32, 2 ^ 31, fun _ l _ => treeRoot (iminmax 32 true true) 5 l),
   (.vrminF32, 32, 0x7F800000, fun _ l _ => treeRoot (fminmax .f32 false) 5 l),
   (.vrminI32, 32, 2 ^ 31 - 1, fun _ l _ => treeRoot (iminmax 32 true false) 5 l)]

/-- Permutes of two registers: lane width and element (06_vector.md R178). -/
noncomputable def Sys2Proof.Claims.permuteRows : List ((Guard → RR → Instr) × Nat × (Vec → Vec → Nat → Nat)) :=
  [(.vperm, 32, fun x y n => lane x 32 (lane y 32 n % 32)), (.vshuf, 8, fun x y n => lane x 8 (lane y 8 n % 128)),
   (.vzip, 32, fun x y n => lane (if n % 2 = 0 then x else y) 32 (n / 2)),
   (.vunzip, 32, fun x y n => if n < 16 then lane x 32 (2 * n) else lane y 32 (2 * n - 32))]

/-- A reduction delivers its value in lane 0 and zeros above, at latency 6, lanes the mask excludes standing at the identity; VRARGMAX the greatest value and
its lowest lane, or the canonical NaN where every lane is one. The permutes deliver every lane at latency 2, VSMMERGE each row's merged value at
latency 8 (06_vector.md R176 to R179). -/
def Obligations.ReductionsPermutesAndMerge : Prop :=
  ∀ (g : Guard) (rm : RMode) (o : RR) (s : State),
    (∀ e ∈ Sys2Proof.Claims.reduceRows, (e.1 g rm o).begins g s → ∀ (x : Vec) (j : Issue), ((e.1 g rm o).opening s).v1 o = .ok (x, j) →
      let w := e.2.1
      let r := j.roundWords rm 4
      let l := (List.range (1024 / w)).map (fun n => if (s.pre.getM o.s2.toNat).getLsbD (n * w / 8) then lane x w n else e.2.2.1)
      Sys2Proof.Claims.deliversLanes (e.1 g rm o) s r.2 o.d o.dnil 6 w (fun n => if n = 0 then e.2.2.2 rm l (nth 0 r.1 0) else 0)) ∧
    ((Instr.vrargmaxF32 g rm o).begins g s → ∀ (x : Vec) (j : Issue), ((Instr.vrargmaxF32 g rm o).opening s).v1 o = .ok (x, j) →
      let r := j.roundWords rm 4
      let v (n : Nat) : Nat := if (s.pre.getM o.s2.toNat).getLsbD (4 * n) then lane x 32 n else 0xFF800000
      ∃ f : Nat → Nat, Sys2Proof.Claims.deliversLanes (Instr.vrargmaxF32 g rm o) s r.2 o.d o.dnil 6 32 f ∧ (∀ n, 2 ≤ n → f n = 0) ∧
        ((∀ n < 32, (Fmt.f32.val (v n)).isNan = true) → f 0 = Fmt.f32.nan ∧ f 1 = 0) ∧
        (∀ n < 32, (Fmt.f32.val (v n)).isNan = false → f 1 < 32 ∧ f 0 = v (f 1) ∧ (Fmt.f32.val (v (f 1))).isNan = false ∧
          (Fmt.f32.val (v (f 1))).lt (Fmt.f32.val (v n)) = false ∧
          (n < f 1 → (Fmt.f32.val (v n)).lt (Fmt.f32.val (v (f 1))) = true))) ∧
    (∀ e ∈ Sys2Proof.Claims.permuteRows, (e.1 g o).begins g s → ∀ (x y : Vec) (j : Issue), ((e.1 g o).opening s).rrSources o .v .v = .ok (x, y, j) →
      Sys2Proof.Claims.deliversLanes (e.1 g o) s j o.d o.dnil 2 e.2.1 (e.2.2 x y)) ∧
    ((Instr.vtrn4 g o).begins g s → ∀ (x : Vec) (j : Issue), ((Instr.vtrn4 g o).opening s).v1 o = .ok (x, j) →
      Sys2Proof.Claims.deliversLanes (Instr.vtrn4 g o) s j o.d o.dnil 2 32 (fun n => lane x 32 (n / 16 * 16 + 4 * (n % 4) + n / 4 % 4))) ∧
    (∀ (q : RI) (k : Instr) (f : Vec → Nat → Nat),
      (k, f) ∈ [(Instr.vbcast g q, fun x _ => lane x 32 q.imm.toNat),
        (Instr.vslide g q, fun x n => if n + q.imm.toNat < 32 then lane x 32 (n + q.imm.toNat) else 0)] →
      k.begins g s → ∀ (x : Vec) (j : Issue), (k.opening s).source 0 (sm1 q.sm1) .v q.s1.toNat = .ok (x, j) →
      Sys2Proof.Claims.deliversLanes k s j q.d false 2 32 (f x)) ∧
    (∀ q : RRR, (Instr.vsmmerge g q).begins g s → ∀ (o1 o2 m1 m2 : Vec),
      let i := (Instr.vsmmerge g q).opening s
      i.readReg .v q.d.toNat = .ok o1 → i.readReg .v q.s1.toNat = .ok o2 → i.readReg .v q.s2.toNat = .ok m1 → i.readReg .v q.s3.toNat = .ok m2 →
      Sys2Proof.Claims.deliversLanes (Instr.vsmmerge g q) s i q.d false 8 32 (fun n => smMerge (lane o1 32 n) (lane o2 32 n) (lane m1 32 n) (lane m2 32 n)))

/-- Drawing operations: words, latency, element (06_vector.md R180; 03_numbers.md R91). -/
noncomputable def Sys2Proof.Claims.drawRows : List ((Guard → RR → Instr) × Nat × Nat × (List Nat → Nat → Nat)) :=
  [(.vrand, 32, 2, fun ws n => nth 0 ws n), (.vrandf, 32, 4, fun ws n => roundVal .f32 .rne 0 (.fin false (nth 0 ws n / 2 ^ 8) (-24))),
   (.vrnorm, 64, 8, fun ws n => rnormBits (nth 0 ws (2 * n)) (nth 0 ws (2 * n + 1))), (.vrnormt, 32, 4, fun ws n => normT (nth 0 ws n))]

/-- A draw of n words takes the blocks of the counter in order, and leaves the counter advanced by their number (03_numbers.md R88 to R90). VRAND, VRANDF,
VRNORM and VRNORMT deliver a lane of each word or pair; VRSEED sets key and counter at the end of the bundle (06_vector.md R180, R181). -/
def Sys2Proof.Claims.DrawsTakeWholeBlocks : Prop :=
  ∀ (g : Guard) (o : RR) (s : State),
    (∀ e ∈ Sys2Proof.Claims.drawRows, (e.1 g o).begins g s →
      let i := (e.1 g o).opening s
      let ws := (List.range (e.2.1 / 4)).flatMap (fun n => rngBlock ((s.pre.rngC.toNat + n) % 2 ^ 128) s.pre.rngK.toNat)
      Sys2Proof.Claims.deliversLanes (e.1 g o) s (i.upd (fun c => { c with rngC := c.rngC + BitVec.ofNat 128 (e.2.1 / 4) })) o.d o.dnil e.2.2.1 32
        (e.2.2.2 ws)) ∧
    ((Instr.vrseed g o).begins g s → ∀ (x : Vec) (j : Issue), ((Instr.vrseed g o).opening s).v1 o = .ok (x, j) →
      (Instr.vrseed g o).ends s (j.afterCore (fun c => { c with rngK := x.extractLsb' 0 128, rngC := x.extractLsb' 128 128 })))

/-- Vector loads and stores of the core's own scratchpad, once their checks (06_vector.md R183 Table 13) pass: VLD delivers 128 bytes at latency 5, VST stores
them, VLDG gathers and VSTS scatters 32 words at a plus the index lanes, the higher lane last, VLDPL replaces the 32-byte pieces of a plane register. A check that fails
stops the bundle (R182 to R186). -/
def Obligations.VectorMemoryOperations : Prop :=
  ∀ (g : Guard) (s : State),
    (∀ o : MEM, (Instr.vld g o).begins g s →
      let i := (Instr.vld g o).openingAt s o.a o.am
      let a := (i.address o 11 128).toNat
      (∀ j t : Issue, i.spadCheck [a] 128 128 false = .ok j →
        (j.spadRead128 a).2.toV o.data.toNat false (BitVec.ofNat 1024 (j.spadRead128 a).1) 5 = .ok t → (Instr.vld g o).ends s t) ∧
      (∀ e, i.spadCheck [a] 128 128 false = .error e → (Instr.vld g o).stops s e)) ∧
    (∀ o : MEM, (Instr.vst g o).begins g s →
      let i := (Instr.vst g o).openingAt s o.a o.am
      let a := (i.address o 11 128).toNat
      ∀ x, i.readReg .v o.data.toNat = .ok x →
      (∀ j : Issue, i.spadCheck [a] 128 128 true = .ok j → (Instr.vst g o).ends s (j.spadWrite128 a x.toNat)) ∧
      (∀ e, i.spadCheck [a] 128 128 true = .error e → (Instr.vst g o).stops s e)) ∧
    (∀ o : RR, (Instr.vldg g o).begins g s → ∀ (x : Vec) (i : Issue), ((Instr.vldg g o).opening s).v1 o = .ok (x, i) →
      let as := (List.range 32).map (fun n => (s.pre.getA o.s2.toNat).toNat + lane x 32 n)
      (∀ j t : Issue, i.spadCheck as 4 4 false = .ok j → (j.spadWords as).2.toV o.d.toNat false (vecOf 32 (j.spadWords as).1) 5 = .ok t →
        (Instr.vldg g o).ends s t) ∧
      (∀ e, i.spadCheck as 4 4 false = .error e → (Instr.vldg g o).stops s e)) ∧
    (∀ o : RR, (Instr.vsts g o).begins g s → ∀ (d x : Vec) (i : Issue), ((Instr.vsts g o).opening s).readReg .v o.d.toNat = .ok d →
      ((Instr.vsts g o).opening s).v1 o = .ok (x, i) →
      let as := (List.range 32).map (fun n => (s.pre.getA o.s2.toNat).toNat + lane x 32 n)
      (∀ j : Issue, i.spadCheck as 4 4 true = .ok j →
        (Instr.vsts g o).ends s ((List.range 32).foldl (fun t n =>
          t.spadWrite s.cur ((s.pre.getA o.s2.toNat).toNat + lane x 32 n) 4 (lane d 32 n)) j)) ∧
      (∀ e, i.spadCheck as 4 4 true = .error e → (Instr.vsts g o).stops s e)) ∧
    (∀ o : MEM, (Instr.vldpl g o).begins g s →
      let i := (Instr.vldpl g o).openingAt s o.a o.am
      let a := (i.address o 11 0).toNat
      let f := o.off.toNat / 2 ^ 4 % 4
      let c := o.off.toNat / 2 ^ 2 % 4 + 1
      ∀ old, i.readReg .v o.data.toNat = .ok old →
      (8 < a % 512 / 64 + c → (Instr.vldpl g o).stops s (.trap 7 (BitVec.ofNat 64 a))) ∧
      (∀ j t : Issue, a % 512 / 64 + c ≤ 8 → i.spadCheck ((List.range c).map (fun n => a + 64 * n)) 32 32 false = .ok j →
        (∀ n < c, tagCode (j.core.spad.tag ((a + 64 * n) / 64)) = 0 ∨ tagCode (j.core.spad.tag ((a + 64 * n) / 64)) = 0x17 - (a % 512 / 64 + n)) →
        (let r := (List.range c).foldl (fun (r : Vec × Issue) n =>
            let p := r.2.spadRead r.2.n (a + 64 * n) 32
            (vecOf 256 ((lanes r.1 256).set (f + n) p.1), p.2)) (old, j)
         r.2.toV o.data.toNat false r.1 5) = .ok t →
        (Instr.vldpl g o).ends s t))

/-- `FloatOperationsDeliverEachLane` and `FunctionOperationsDeliverEachLane`, both. -/
def Obligations.FloatAndFunctionLanes : Prop :=
  Sys2Proof.Claims.FloatOperationsDeliverEachLane ∧ Sys2Proof.Claims.FunctionOperationsDeliverEachLane

/-- `FiniteTestsKeepTheStickyFlag` and `IntegerLanesAndCompares`, both. -/
def Obligations.FiniteTestsIntegersAndCompares : Prop :=
  Sys2Proof.Claims.FiniteTestsKeepTheStickyFlag ∧ Sys2Proof.Claims.IntegerLanesAndCompares

/-- `ConversionsAndPlanes` and `DrawsTakeWholeBlocks`, both. -/
def Obligations.ConversionsPlanesAndDraws : Prop :=
  Sys2Proof.Claims.ConversionsAndPlanes ∧ Sys2Proof.Claims.DrawsTakeWholeBlocks

/-! ### Matrix operations -/

/-- The rows of MCFG and the kind each names in bits [63:60] of its operand (07_matrix.md R192). -/
noncomputable def Sys2Proof.Claims.mcfgRows : List ((Guard → MG → Instr) × Nat) := [(.mcfgMode, 0), (.mcfgOutlier, 1), (.mcfgQset, 2), (.mcfgWbp, 3)]

/-- MCFG writes, from the next bundle on, the mode word and clears the feed phase, or the outlier window, or a quantisation set, or the weight pointer, as the kind
says; a value Table 3 forbids is an illegal operand (07_matrix.md R192). MPUSH puts the row it makes of the weight buffer into the shadow plane and advances the row, its pointer
form the weight pointer too where it is row-major; a push that finds a violation stops (R193 to R198). MSWAP exchanges the planes and starts at row 0 (R198). -/
def Sys2Proof.Claims.MatrixConfigurationAndWeights : Prop :=
  ∀ (g : Guard) (s : State),
    (∀ e ∈ Sys2Proof.Claims.mcfgRows, ∀ o : MG, (e.1 g o).begins g s →
      let x := s.pre.getG o.g.toNat
      let lo := x.extractLsb' 0 13
      let hi := x.extractLsb' 13 13
      let ends (f : Matrix → Matrix) := (e.1 g o).endsM s (((e.1 g o).opening s).afterCore (fun c => { c with mx := f c.mx }))
      x.toNat / 2 ^ 60 = e.2 →
      (e.2 = 0 → (∀ m, modeWord x = some m → ends (fun mx => { mx with mode := m, fph := 0 })) ∧ (modeWord x = none → (e.1 g o).stops s (.trap 4 0))) ∧
      (e.2 = 1 → (x.extractLsb' 26 34 = 0 → hi.toNat * 64 + lo.toNat * 8 ≤ 2 ^ 19 → ends (fun mx => { mx with obase := hi, ocnt := lo })) ∧
        (x.extractLsb' 26 34 ≠ 0 ∨ 2 ^ 19 < hi.toNat * 64 + lo.toNat * 8 → (e.1 g o).stops s (.trap 4 0))) ∧
      (e.2 = 2 → (x.extractLsb' 16 44 = 0 → lo.toNat * 64 + 2048 ≤ 2 ^ 19 →
          ends (fun mx => { mx with qsets := Tbl.set .reset mx.qsets (x.extractLsb' 14 2).toNat ⟨x.getLsbD 13, lo⟩ })) ∧
        (x.extractLsb' 16 44 ≠ 0 ∨ 2 ^ 19 < lo.toNat * 64 + 2048 → (e.1 g o).stops s (.trap 4 0))) ∧
      (e.2 = 3 → (x.extractLsb' 13 47 = 0 → ends (fun mx => { mx with wbp := lo })) ∧
        (x.extractLsb' 13 47 ≠ 0 → (e.1 g o).stops s (.trap 4 0)))) ∧
    (∀ (k : Instr) (off : Nat) (wp : Bool), ((∃ o : MPU, k = .mpush g o ∧ off = o.off.toNat ∧ wp = false) ∨
        (k = .mpushWp g ∧ off = s.pre.mx.wbp.toNat ∧ wp = true)) → k.begins g s →
      let mx := s.pre.mx
      let w := mx.prow.toNat
      let i := (k.opening s).logM 1 0 w 0 false (mx.shadow.rowBits w)
      (∀ (x : BitVec 4096) (used : Nat), pushRow s.pre off = .ok (x, used) →
        k.endsM s ({ i with s := { i.s with fresh := i.s.fresh + 65536 } }.upd (fun c => { c with mx :=
          { c.mx with shadow := c.mx.shadow.pushed mx.mode.fm mx.mode.ff w x s.fresh
                      prow := BitVec.ofNat 8 (if mx.mode.fm then (w + 1) % 64 else w + 1)
                      wbp := if wp && !mx.mode.zb then c.mx.wbp + BitVec.ofNat 13 used else c.mx.wbp } }))) ∧
      (∀ e, pushRow s.pre off = .error e → k.stops s e)) ∧
    ((Instr.mswap g).begins g s →
      (Instr.mswap g).endsM s ((((Instr.mswap g).opening s).logM 2 0 0 0 false 0).upd (fun c =>
        { c with mx := { c.mx with active := c.mx.shadow, shadow := c.mx.active, prow := 0 } })))

/-- MSHIFT from a lent register, in a mode the plane and the accumulator accept and on a row the reload has reached, starts the beat of R201 or R202, records mode
and generation at a first accumulation, and advances the feed phase of an integer shift; a register not lent is a lent-bank violation, a mode that disagrees an illegal
operand, a row not reloaded a wait (07_matrix.md R200 to R203; 02_core.md R51). -/
def Sys2Proof.Claims.MatrixShiftStartsABeat : Prop :=
  ∀ (g : Guard) (o : MSH) (s : State), (Instr.mshift g o).begins g s →
    let mx := s.pre.mx
    let m := mx.mode
    let t := o.acc.toNat
    let st := mx.st t
    let r := s.pre.physV o.v.toNat
    let row := if o.rp then st.rptr.toNat else o.row.toNat
    let agrees : Prop := mx.active.fm = m.fm ∧ (m.fm = true → mx.active.ff = m.ff ∧ o.half = false ∧ o.md ≠ 2) ∧ (st.tv = true → st.tmode = m.fm)
    (s.pre.isLent r = true → agrees → row < st.wm.toNat →
      let data : BitVec 4096 := if m.fm then (s.pre.getV r).setWidth 4096
        else ((s.pre.getV r >>> (if o.half then 512 else 0)).setWidth 512).setWidth 4096
      let i := ((Instr.mshift g o).opening s).logM 3 t row o.md.toNat o.half data
      let b := shiftBeat m mx.active mx.fph.toNat t row o.md.toNat o.half (s.pre.getV r) s.pre.ic
      b.due = s.pre.ic + (if m.fm then 72 else 264) ∧
      (Instr.mshift g o).endsM s ((i.upd (fun c => { c with mx :=
        { c.mx.setSt t ((c.mx.st t).record m.fm s.pre.gen) with
            beats := c.mx.beats ++ [b]
            fph := if m.fm then c.mx.fph else BitVec.ofNat 2 ((c.mx.fph.toNat + 1) % ((m.ak.toNat + 1) / 2)) } })).advance t o.rp o.row)) ∧
    (s.pre.isLent r = false → (Instr.mshift g o).stops s (.trap 5 0)) ∧
    (s.pre.isLent r = true → ¬ agrees → (Instr.mshift g o).stops s (.trap 4 0)) ∧
    (s.pre.isLent r = true → agrees → st.wm.toNat ≤ row → (Instr.mshift g o).stops s .wait)

/-- MDRAIN delivers at latency 6, to a lent register, the 32 raw elements of a part, a float's unscaled where the mode asks, or the 64 elements rounded to BF16 or FP16;
MDRAINQ the 128 requantised elements of a half (07_matrix.md R206, R207). MSNAP delivers 32 raw elements and copies STEPS, MRESRD the residue registers at
latency 4, MZERO clears an accumulator with its beats and status, MRESCHK marks and reports a residue that disagrees (R209 to R214). -/
def Obligations.MatrixDrainsAndAccumulators : Prop :=
  ∀ (g : Guard) (s : State),
    (∀ o : MDR, (Instr.mdrain g o).begins g s →
      let c := s.pre
      let m := c.mx.mode
      let t := o.acc.toNat
      let st := c.mx.st t
      let fm := c.mx.governs t
      let row := if o.rp then st.rptr.toNat else o.row.toNat
      let r := c.physV o.v.toNat
      let i := (Instr.mdrain g o).opening s
      ∀ recip : Option W32, s.pre.isLent r = true → row < st.wm.toNat → (if fm then c.unscale t else .ok none) = .ok recip →
      (m.dfmt = 0 → (fm = true → o.part.toNat < 2) → ∃ v : Vec,
        (∀ n < 32, lane v 32 n = (if fm then unscaled recip (rowElem (c.mx.row t row) (32 * o.part.toNat + n))
          else rowElem (c.mx.row t row) (32 * o.part.toNat + n)) % 2 ^ 32) ∧
        (Instr.mdrain g o).endsM s ((i.result .v r v 6).advance t o.rp o.row)) ∧
      (m.dfmt ≠ 0 → fm = true → o.part = 0 →
        let f : Fmt := if m.dfmt = 1 then .bf16 else .f16
        let rm := (RMode.ofCode m.drm.toNat).getD .rne
        let d := i.roundWords rm 64
        ∃ v : Vec, (∀ n < 64, lane v 16 n = roundVal f rm (nth 0 d.1 n) (Fmt.f32.val (unscaled recip (rowElem (c.mx.row t row) n))) % 2 ^ 16) ∧
        (Instr.mdrain g o).endsM s ((d.2.result .v r v 6).advance t o.rp o.row))) ∧
    (∀ o : MDR, (Instr.mdrainq g o).begins g s →
      let c := s.pre
      let t := o.acc.toNat
      let q := Tbl.get .reset c.mx.qsets (o.part.toNat / 2)
      let base := q.base.toNat * 64 + 1024 * (o.part.toNat % 2)
      let row := if o.rp then (c.mx.st t).rptr.toNat else o.row.toNat
      let r := c.physV o.v.toNat
      let rm := (RMode.ofCode c.mx.mode.drm.toNat).getD .rne
      let d := ((Instr.mdrainq g o).opening s).roundWords rm 128
      s.pre.isLent r = true → c.mx.governs t = false → row < (c.mx.st t).wm.toNat →
      (∀ n < 16, poisoned (c.wbuf.tag (base / 64 + n)) = false) →
      ∃ v : Vec, (∀ n < 128, lane v 8 n = requant q rm (nth 0 d.1 n) (c.wbuf.read (base + 8 * n) 8)
          (rowElem (c.mx.row t row) (128 * (o.part.toNat % 2) + n)) % 2 ^ 8) ∧
        (Instr.mdrainq g o).endsM s ((d.2.result .v r v 6).advance t o.rp o.row)) ∧
    (∀ o : MSN, (Instr.msnap g o).begins g s →
      let mx := s.pre.mx
      let t := o.acc.toNat
      let r := s.pre.physV o.v.toNat
      s.pre.isLent r = false → o.row.toNat < (mx.st t).wm.toNat →
      ∃ v : Vec, (∀ n < 32, lane v 32 n = rowElem (mx.row t o.row.toNat) (32 * mx.mode.snc.toNat + n) % 2 ^ 32) ∧
        let note (c : Core) : Core := { c with mx := c.mx.setSt t { c.mx.st t with snstep := (c.mx.st t).steps } }
        (Instr.msnap g o).endsM s ((((Instr.msnap g o).opening s).upd note).result .v r v 6)) ∧
    (∀ o : MRD, (Instr.mresrd g o).begins g s →
      (Instr.mresrd g o).endsM s (((Instr.mresrd g o).opening s).resultG o.g.toNat ((s.pre.mx.st o.acc.toNat).resHi ++ (s.pre.mx.st o.acc.toNat).resLo) 4)) ∧
    (∀ o : MA, (Instr.mzero g o).begins g s →
      (Instr.mzero g o).endsM s (((Instr.mzero g o).opening s).upd (fun c => { c with mx := c.mx.zero o.acc.toNat }))) ∧
    (∀ o : MA, (Instr.mreschk g o).begins g s →
      let i := (Instr.mreschk g o).opening s
      let t := o.acc.toNat
      ((s.pre.mx.st t).mismatch = false → (Instr.mreschk g o).endsM s i) ∧
      ((s.pre.mx.st t).mismatch = true →
        let j := i.upd (fun c => { c with mx := c.mx.setSt t { c.mx.st t with mism := true } })
        (Instr.mreschk g o).endsM s { j with s := j.s.corruption s.cur t }))

/-- `MatrixConfigurationAndWeights` and `MatrixShiftStartsABeat`, both. -/
def Obligations.MatrixConfigurationAndBeats : Prop :=
  Sys2Proof.Claims.MatrixConfigurationAndWeights ∧ Sys2Proof.Claims.MatrixShiftStartsABeat

/-! ### Transfers, the quarter network, atomics and order -/

/-- The command an operation starts: an in-flight record entry that its bundle's end allocates (08_transfer.md R222; 13_inflight_record.md R319). -/
def Sys2Proof.Claims.starting (i : Issue) (e : IfrEntry) : Issue := { i with cmds := i.cmds ++ [(i.slot, e)] }

/-- A contiguous range of global addresses passes orders 4 and 5 (08_transfer.md R222). -/
def Sys2Proof.Claims.rangeOk (s : State) (va : W64) (align len : Nat) : Prop :=
  va.toNat % align = 0 ∧ inWindow (s.ctx s.me.ctx) va = true ∧ inWindow (s.ctx s.me.ctx) (va + BitVec.ofNat 64 (len - 1)) = true

/-- A descriptor word keeps to the fields its operation uses exactly when every set bit lies in one of them (08_transfer.md R218). -/
def Sys2Proof.Claims.DescriptorKeepsToItsFields : Prop :=
  ∀ (d : Nat) (l : List (Nat × Nat)), (∀ f ∈ l, f.2 ≤ f.1) →
    (d0Only d l = true ↔ ∀ b, d.testBit b = true → ∃ f ∈ l, f.2 ≤ b ∧ b ≤ f.1)

/-- XCOPY.in, XCOPY.out from a tile, XWBFILL and XPREF whose descriptor passes R221 and R222, with an entry free, start their command: a fill begins on
the tile under the layout stated, a drain begins on a tile that is not empty or filling, the weight buffer's has no tile; XPREF changes nothing
software can see (08_transfer.md R226, R227, R230, R231; 10_tile.md R275). A misaligned address traps with cause 7. -/
def Sys2Proof.Claims.CopiesStartTheirCommand : Prop :=
  ∀ (g : Guard) (o : XC) (s : State), s.pre.commands.length < 96 →
    let t := o.tile.toNat
    let va := s.pre.getA o.a.toNat
    let d : Desc := ⟨(s.pre.getG o.g.toNat).toNat, (s.pre.getG (o.g.toNat + 1)).toNat, (s.pre.getG (o.g.toNat + 2)).toNat⟩
    let starts (k : Instr) (e : IfrEntry) (f : Issue → Issue) := k.ends s (f (Sys2Proof.Claims.starting (k.openingAt s o.a o.am) e))
    d1Ok d.d1 = true →
    ((Instr.xcopyIn g o).begins g s → d0Only d.d0 [(47, 32), (18, 10), (9, 0)] = true → 1 ≤ d.nblk → d.toff + d.nblk ≤ 512 →
      layoutOk d.layout = true → (s.pre.tile t).takesFill d.layout = true →
      (Sys2Proof.Claims.rangeOk s va 64 (64 * d.nblk) →
        starts (.xcopyIn g o) (.new .idem 3 (opndXC va d t o.reint false) []) (fun i => i.putTile t ((s.pre.tile t).fillStart (BitVec.ofNat 16 d.layout)))) ∧
      (va.toNat % 64 ≠ 0 → (Instr.xcopyIn g o).stops s (.trap 7 va))) ∧
    ((Instr.xcopyOut g o).begins g s → d.srca = false → (isKiosk s.cur = true → t < 8) →
      d0Only d.d0 [(31, 31), (30, 30), (18, 10), (9, 0)] = true → 1 ≤ d.nblk → d.toff + d.nblk ≤ 512 →
      ((s.pre.tile t).st = .ready ∨ (s.pre.tile t).st = .draining) → Sys2Proof.Claims.rangeOk s va 64 (64 * d.nblk) →
      starts (.xcopyOut g o) (.new .idem 4 (opndXC va d t o.reint false) []) (fun i => i.putTile t ((s.pre.tile t).drainStart d.rel))) ∧
    ((Instr.xwbfill g o).begins g s → d0Only d.d0 [(63, 56), (22, 10), (9, 0)] = true → 1 ≤ d.nblk → d.nblk ≤ 512 → d.woff + d.nblk ≤ 8192 →
      codeDefined d.fmt = true → d.fmt ≠ 0xFF → o.tile = 0 → Sys2Proof.Claims.rangeOk s va 64 (64 * d.nblk) →
      starts (.xwbfill g o) (.new .idem 13 (opndXC va d 0 o.reint false) []) id) ∧
    ((Instr.xpref g o).begins g s → d0Only d.d0 [(9, 0)] = true → 1 ≤ d.nblk → d.nblk ≤ 512 → o.tile = 0 →
      (va.toNat % 64 = 0 → (Instr.xpref g o).ends s ((Instr.xpref g o).openingAt s o.a o.am)) ∧
      (va.toNat % 64 ≠ 0 → (Instr.xpref g o).stops s (.trap 7 va)))

/-- A tile under a command: a fill makes an empty tile filling under its layout and counts on a filling one, a drain makes any other tile draining; the last
command to complete without error leaves the tile ready, or empty after a drain that releases, and one that fails sets ERR, in which the state stays
(10_tile.md R275 Table 3). -/
def Sys2Proof.Claims.TilesFollowTheirCommands : Prop :=
  ∀ (t : Tile) (l : BitVec 16) (rel : Bool),
    (t.st = .empty → (t.fillStart l).st = .filling ∧ (t.fillStart l).layout = l ∧ (t.fillStart l).ncmd = 1 ∧ (t.fillStart l).err = false) ∧
    (t.st = .filling → t.fillStart l = { t with ncmd := t.ncmd + 1 }) ∧
    (t.st ≠ .draining → t.drainStart rel = { t with st := .draining, ncmd := 1, err := false, relp := rel }) ∧
    (t.st = .draining → t.drainStart rel = { t with ncmd := t.ncmd + 1, relp := t.relp || rel }) ∧
    (t.st = .filling → t.ncmd = 1 → t.err = false → t.complete = { t with ncmd := 0, st := .ready }) ∧
    (t.st = .draining → t.ncmd = 1 → t.err = false →
      t.complete.st = (if t.relp then .empty else .ready) ∧ t.complete.ncmd = 0 ∧ t.complete.relp = false ∧ t.complete.layout = t.layout) ∧
    (1 < t.ncmd ∨ t.err = true → t.complete = { t with ncmd := t.ncmd - 1 }) ∧
    (t.fail = { t with ncmd := t.ncmd - 1, err := true })

/-- XCOPY.out from an accumulator (08_transfer.md R228), in either row of the table: with a format the governing mode can give, rows in range, MFU's reciprocal found and
the rows written, its command carries the mode and each element's value, a float's unscaled where the mode asks, with the word drawn for it under
stochastic rounding. -/
def Sys2Proof.Claims.AccumulatorCopiesCarryTheirRows : Prop :=
  ∀ (g : Guard) (o : XC) (s : State) (k : Instr), (k = .xcopyOutAcc g o ∨ k = .xcopyOut g o) → k.begins g s →
    let t := o.tile.toNat
    let va := s.pre.getA o.a.toNat
    let d : Desc := ⟨(s.pre.getG o.g.toNat).toNat, (s.pre.getG (o.g.toNat + 1)).toNat, (s.pre.getG (o.g.toNat + 2)).toNat⟩
    let fm := s.pre.mx.governs t
    let per := if fm then 64 else 256
    let stripe := if d.fmt = 0x17 then (if fm then 8 else 2) else 1
    s.pre.commands.length < 96 → isKiosk s.cur = false → d.srca = true → t < 24 →
    ∀ (size : Nat) (recip : Option W32), drainBytes fm d.fmt = some size → (if fm then s.pre.unscale t else .ok none) = .ok recip →
    d0Only d.d0 [(63, 56), (55, 48), (30, 30), (29, 27), (25, 19), (9, 0)] = true → 1 ≤ d.nblk → d.row0 + d.nblk ≤ 128 → d.rm ≤ 4 → d.scl ≠ 255 →
    d1Ok d.d1 = true → d.row0 % stripe = 0 → d.nblk % stripe = 0 → d.d2 % 64 = 0 → d.d2 < 2 ^ 48 →
    Sys2Proof.Claims.rangeOk s va (if d.fmt = 0x17 then 512 else 64) (size * d.nblk) → d.row0 + d.nblk ≤ (s.pre.mx.st t).wm.toNat →
    let draws : Prop := d.rm = 4 ∧ d.fmt ≠ 0x06 ∧ d.fmt ≠ 0x01
    let i := k.openingAt s o.a o.am
    let r := i.roundWords (if d.rm = 4 ∧ d.fmt ≠ 0x06 ∧ d.fmt ≠ 0x01 then .rs else .rne) (d.nblk * per)
    ∃ l : List Nat, l.length = d.nblk * per ∧
      (∀ row < d.nblk, ∀ n < per,
        let x := rowElem (s.pre.mx.row t (d.row0 + row)) n
        let y := if fm then unscaled recip x else x
        (¬ draws → nth 0 l (row * per + n) = y) ∧ (draws → nth 0 l (row * per + n) = y + 2 ^ 32 * nth 0 r.1 (row * per + n))) ∧
      k.ends s (Sys2Proof.Claims.starting r.2 (.new .idem 6 (opndXC va d t o.reint true) ((if fm then 1 else 0) :: l)))

/-- XGATHER and XSCATTER (08_transfer.md R229) read their list of row indices from the core's own scratchpad at issue; the command carries it. -/
def Sys2Proof.Claims.GathersCarryTheirIndices : Prop :=
  ∀ (g : Guard) (o : XC) (s : State) (k : Instr) (gather : Bool), (k = .xgather g o ∧ gather = true ∨ k = .xscatter g o ∧ gather = false) →
    k.begins g s →
    let t := o.tile.toNat
    let va := s.pre.getA o.a.toNat
    let d : Desc := ⟨(s.pre.getG o.g.toNat).toNat, (s.pre.getG (o.g.toNat + 1)).toNat, (s.pre.getG (o.g.toNat + 2)).toNat⟩
    let list := d.d2 % 2 ^ 20
    let n := d.nblk / (d.rblk + 1)
    let i := k.openingAt s o.a o.am
    s.pre.commands.length < 96 → d0Only d.d0 (if gather then [(47, 32), (25, 19), (18, 10), (9, 0)] else [(31, 31), (25, 19), (18, 10), (9, 0)]) = true →
    1 ≤ d.nblk → d.toff + d.nblk ≤ 512 → d.nblk % (d.rblk + 1) = 0 → d1Ok d.d1 = true → list % 4 = 0 → d.d2 / 2 ^ 20 % 2 ^ 12 = 0 →
    d.d2 / 2 ^ 32 % 64 = 0 → (gather = true → layoutOk d.layout = true ∧ (s.pre.tile t).takesFill d.layout = true) →
    (gather = false → (s.pre.tile t).st = .ready ∨ (s.pre.tile t).st = .draining) → (o.reint = true ∨ i.layoutBars list (4 * n) 0x06 = false) →
    va.toNat % 64 = 0 → list + 4 * n ≤ spadSize s.cur → i.tilesReadable list (4 * n) = .ok () → i.notPoisoned list (4 * n) = .ok () →
    k.ends s ((Sys2Proof.Claims.starting i (.new .idem 5 (opndXC va d t o.reint true) ((List.range n).map (fun m => s.pre.spad.read (list + 4 * m) 4)))).putTile t
      (if gather then (s.pre.tile t).fillStart (BitVec.ofNat 16 d.layout) else (s.pre.tile t).drainStart d.rel))

/-- The rows of XRECVADD: lane width, and the sum (08_transfer.md R233). -/
noncomputable def Sys2Proof.Claims.recvAddRows : List ((Guard → RR → Instr) × Nat × (Nat → Nat → Nat)) :=
  [(.xrecvaddF32, 32, fun a x => roundSum .f32 .rne 0 (addVal .rne (Fmt.f32.val a) (Fmt.f32.val x))),
   (.xrecvaddI32, 32, fun a x => (a + x) % 2 ^ 32),
   (.xrecvaddBf16, 16, fun a x => roundSum .bf16 .rne 0 (addVal .rne (Fmt.bf16.val a) (Fmt.bf16.val x)))]

/-- XSEND to a member of the core's group with a free place in the channel starts a command that carries the register and the channel; a full channel traps with
cause 14, no such member is an illegal operand. XRECV delivers the oldest readable entry of its channel at latency 2 and XRECVADD its sum with a source at
latency 14, and the entry leaves the channel; an empty channel traps with cause 15 (08_transfer.md R232, R233). XRLD delivers the 128 bytes at an
offset of a member's scratchpad at latency 16, XRST stores them (R234); each has seen the tile as its last change left it (10_tile.md R275). -/
def Obligations.NetworkOperations : Prop :=
  ∀ (g : Guard) (o : RR) (s : State),
    ((Instr.xsend g o).begins g s → ∀ (v : Vec) (j : Issue), ((Instr.xsend g o).opening s).source 0 (smode o.mode).1 .v o.s1.toNat = .ok (v, j) →
      let k := (s.pre.getG o.s2.toNat).toNat
      (∀ m, k < 32 → j.s.memberAt s.cur k = some m → j.s.chanCount m o.d.toNat < 4 → s.pre.commands.length < 96 → j.core.commands.length < 96 →
        (Instr.xsend g o).ends s (Sys2Proof.Claims.starting j (.new .idem 7 (BitVec.ofNat 512 (m % 32 + o.d.toNat * 256)) [v.toNat, m]))) ∧
      (∀ m, k < 32 → j.s.memberAt s.cur k = some m → 4 ≤ j.s.chanCount m o.d.toNat → (Instr.xsend g o).stops s (.trap 14 0)) ∧
      (32 ≤ k ∨ j.s.memberAt s.cur k = none → (Instr.xsend g o).stops s (.trap 4 0))) ∧
    ((Instr.xrecv g o).begins g s →
      let i := (Instr.xrecv g o).opening s
      let j : Issue := { i with s := i.s.landSends i.s.sends.length }
      let ch := o.s1.toNat
      (Tbl.get [] j.core.chan ch = [] → (Instr.xrecv g o).stops s (.trap 15 0)) ∧
      (∀ e l, Tbl.get [] j.core.chan ch = e :: l →
        let i := j.upd (fun c => { c with chan := Tbl.set [] c.chan ch l })
        ∀ t, ({ i with s := i.s.noteMove s.cur 2 e.sender } : Issue).toV o.d.toNat o.dnil e.value 2 = .ok t → (Instr.xrecv g o).ends s t)) ∧
    (∀ e ∈ Sys2Proof.Claims.recvAddRows, (e.1 g o).begins g s → ∀ (a : Vec) (i : Issue),
      ((e.1 g o).opening s).source 0 (smode o.mode).1 .v o.s1.toNat = .ok (a, i) →
      let j : Issue := { i with s := i.s.landSends i.s.sends.length }
      let ch := o.s2.toNat
      (Tbl.get [] j.core.chan ch = [] → (e.1 g o).stops s (.trap 15 0)) ∧
      (∀ x l, Tbl.get [] j.core.chan ch = x :: l →
        let i := j.upd (fun c => { c with chan := Tbl.set [] c.chan ch l })
        ∀ t, ({ i with s := i.s.noteMove s.cur 3 x.sender } : Issue).toV o.d.toNat o.dnil
          (mapLanes e.2.1 (fun n => e.2.2 (lane a e.2.1 n) (lane x.value e.2.1 n))) 14 = .ok t →
        (e.1 g o).ends s t)) ∧
    (∀ (k : Instr) (store : Bool), (k = .xrld g o ∧ store = false ∨ k = .xrst g o ∧ store = true) → k.begins g s → ∀ m,
      let i := k.opening s
      let off := (s.pre.getA o.s1.toNat).toNat
      let x := (s.pre.getG o.s2.toNat).toNat
      let tile := (s.opened.core m).tile (off / 2 ^ 15)
      x < 32 → s.opened.memberAt s.cur x = some m →
      (off % 128 ≠ 0 → (store = true → s.pre.isLent (s.pre.physV o.d.toNat) = false) → k.stops s (.trap 7 (BitVec.ofNat 64 off))) ∧
      (off % 128 = 0 → off < 2 ^ 20 → store = false → s.pre.slow.getLsbD k.opn.place = false → s.pre.entry (96 + k.opn.place) = none → (tile.st = .ready ∨ tile.st = .draining) →
        poisoned ((s.opened.core m).spad.tag (off / 64)) = false → poisoned ((s.opened.core m).spad.tag (off / 64 + 1)) = false →
        let lo := (i.tileSeen m off).spadRead m off 64
        let hi := lo.2.spadRead m (off + 64) 64
        ∀ t, hi.2.toV o.d.toNat o.dnil (BitVec.ofNat 1024 (lo.1 + 2 ^ 512 * hi.1)) 16 = .ok t → k.ends s t) ∧
      (off % 128 = 0 → off < 2 ^ 20 → store = true → tile.st = .ready → ∀ v, i.readReg .v o.d.toNat = .ok v →
        k.ends s (((i.tileSeen m off).spadWrite m off 64 (v.toNat % 2 ^ 512)).spadWrite m (off + 64) 64 (v.toNat / 2 ^ 512))))

/-- The rows of XAMO: the row, its opcode, its width, the new word of the old one, the source and the comparand, and how the old word is returned
(08_transfer.md R235 Table 7). -/
noncomputable def Sys2Proof.Claims.amoRows : List ((Guard → XA → Instr) × Nat × Nat × (Nat → Nat → Nat → Nat) × (Nat → Int)) :=
  let int (w x : Nat) : Int := if x < 2 ^ (w - 1) then x else (x : Int) - 2 ^ w
  let nat (x : Nat) : Int := x
  [(.xamoAdd32, 0x30, 32, fun m x _ => (m + x) % 2 ^ 32, int 32), (.xamoAdd64, 0x31, 64, fun m x _ => (m + x) % 2 ^ 64, int 64),
   (.xamoFaddF32, 0x32, 32, fun m x _ => addF32 m x, nat),
   (.xamoMin32, 0x33, 32, fun m x _ => if int 32 m ≤ int 32 x then m else x, int 32), (.xamoMin64, 0x34, 64, fun m x _ => if int 64 m ≤ int 64 x then m else x, int 64),
   (.xamoMax32, 0x35, 32, fun m x _ => if int 32 x ≤ int 32 m then m else x, int 32), (.xamoMax64, 0x36, 64, fun m x _ => if int 64 x ≤ int 64 m then m else x, int 64),
   (.xamoMinn32, 0x37, 32, fun m x _ => min m x, nat), (.xamoMinn64, 0x38, 64, fun m x _ => min m x, nat),
   (.xamoMaxn32, 0x39, 32, fun m x _ => max m x, nat), (.xamoMaxn64, 0x3A, 64, fun m x _ => max m x, nat),
   (.xamoAnd32, 0x3B, 32, fun m x _ => m &&& x, nat), (.xamoAnd64, 0x3C, 64, fun m x _ => m &&& x, nat),
   (.xamoOr32, 0x3D, 32, fun m x _ => m ||| x, nat), (.xamoOr64, 0x3E, 64, fun m x _ => m ||| x, nat),
   (.xamoXor32, 0x3F, 32, fun m x _ => m ^^^ x, nat), (.xamoXor64, 0x40, 64, fun m x _ => m ^^^ x, nat),
   (.xamoSwap32, 0x41, 32, fun _ x _ => x, nat), (.xamoSwap64, 0x42, 64, fun _ x _ => x, nat),
   (.xamoCas32, 0x43, 32, fun m x c => if m = c then x else m, nat), (.xamoCas64, 0x44, 64, fun m x c => if m = c then x else m, nat)]

/-- XAMO whose destination is g0 starts a command with its operands. With another destination, on a word it may read and write, not poisoned, with no
earlier atomic of the core pending and answered in the cycle it leaves the core, it takes a sequence number and makes the read-modify-write in its bundle; in the header of a trajectory ring only GET takes
the new word, and never above GRANT (20_generation.md R416, R417); the old word comes back at latency 4,
sign-extended for add, min and max and zero-extended for the others (08_transfer.md R235; 09_memory_model.md R264). -/
def Obligations.AtomicsReadModifyAndWrite : Prop :=
  ∀ e ∈ Sys2Proof.Claims.amoRows, ∀ (g : Guard) (o : XA) (s : State), (e.1 g o).begins g s →
    let va := s.pre.getA o.a.toNat
    let x := s.pre.getG o.s.toNat
    let c := s.pre.getG o.s3.toNat
    let size := e.2.2.1 / 8
    let i := (e.1 g o).openingAt s o.a o.am
    (o.d = 0 → s.pre.commands.length < 96 → Sys2Proof.Claims.rangeOk s va size size →
      (e.1 g o).ends s (Sys2Proof.Claims.starting i (.new .tagged 2 (opndAmo va x c e.2.1 0) []))) ∧
    (o.d = 0 → va.toNat % size ≠ 0 → (e.1 g o).stops s (.trap 7 va)) ∧
    (∀ pa repl, o.d ≠ 0 → s.pre.entry (96 + (e.1 g o).opn.place) = none →
      i.examine va size (permXR + permXW) true false = .ok (.mem pa repl) → kvSays (s.opened.ctx s.pre.ctx) (s.opened.grpOf s.cur) true va ≠ .refuse →
      s.pre.slow.getLsbD (e.1 g o).opn.place = false → s.pre.amoPending va s.pre.nextSeq = false → poisoned (s.tagOf pa) = false →
      let old := s.rd pa size
      let new := e.2.2.2.1 old (x.toNat % 2 ^ e.2.2.1) (c.toNat % 2 ^ e.2.2.1)
      let w := s.opened.upd s.cur (fun c => { c with nextSeq := (c.nextSeq + 1) % 2 ^ 24 })
      let u := w.coreStore s.cur pa size (w.ringValue s.pre.ctx va pa size new)
      let v := BitVec.ofInt 64 (e.2.2.2.2 old)
      (e.1 g o).ends s ({ i with s := { u with tags :=
        (u.tags.insert (homeOf pa) ⟨s.pre.ctx, s.cur, 0, s.pre.nextSeq, v⟩).forget s.pre.ctx s.cur 0 s.pre.nextSeq } }.resultG o.d.toNat v 4))

/-- XFENCE and XNMFENCE put a fence before what follows; XREL starts a release of a 64-bit word and holds back the core's accesses to its block; XACQ delivers
the word at latency 4, of the fault buffer's page what the device answers; XVLD of a defined tensor waits until its version is reached and delivers the word, the core having acquired (08_transfer.md R236 to R240,
R245). XNMC starts a near-memory command with the 64 bytes of the scratchpad; XTAGLD delivers a block's tag, XTAGST writes a defined one (R241, R246). -/
def Obligations.OrderingAndTagOperations : Prop :=
  ∀ (g : Guard) (s : State),
    (∀ o : XO, (Instr.xfence g o).begins g s →
      (Instr.xfence g o).ends s (((Instr.xfence g o).openingAt s o.a o.am).upd (fun c =>
        { c with fenceX := true, fseq := s.pre.nextSeq % 2 ^ 24, fscope := o.scope.toNat }))) ∧
    ((Instr.xnmfence g).begins g s →
      (Instr.xnmfence g).ends s (((Instr.xnmfence g).opening s).upd (fun c => { c with fenceN := true, fseqN := s.pre.nextSeq % 2 ^ 24 }))) ∧
    (∀ o : XO, (Instr.xrel g o).begins g s →
      let va := s.pre.getA o.a.toNat
      let x := s.pre.getG o.g.toNat
      (Sys2Proof.Claims.rangeOk s va 8 8 → wvBars (s.ctx s.me.ctx) va = false → s.pre.commands.length < 96 →
        (Instr.xrel g o).ends s ((Sys2Proof.Claims.starting ((Instr.xrel g o).openingAt s o.a o.am)
          (.new .tagged 8 (BitVec.ofNat 512 (va.toNat + x.toNat * 2 ^ 64 + o.scope.toNat * 2 ^ 128)) [])).upd
            (fun c => { c with fenceR := true, relblk := c.relblk ++ [va.toNat / 64 * 64] }))) ∧
      (va.toNat % 8 ≠ 0 → (Instr.xrel g o).stops s (.trap 7 va))) ∧
    (∀ o : XO, (Instr.xacq g o).begins g s →
      let va := s.pre.getA o.a.toNat
      let i := (Instr.xacq g o).openingAt s o.a o.am
      ∀ pa repl v j, i.examine va 8 permXR false false = .ok (.mem pa repl) → i.loadAt va pa 8 permXR = .ok (v, j) →
      (Instr.xacq g o).ends s (j.resultG o.g.toNat (BitVec.ofNat 64 v) 4)) ∧
    (∀ o : XO, (Instr.xacq g o).begins g s →
      let i := (Instr.xacq g o).openingAt s o.a o.am
      ∀ d off, i.examine (s.pre.getA o.a.toNat) 8 permXR false false = .ok (.dev d off) →
      (Instr.xacq g o).ends s ({ i with s := (i.s.devRead i.n d off 8).2 }.resultG o.g.toNat (BitVec.ofNat 64 (i.s.devRead i.n d off 8).1) 4)) ∧
    (∀ o : XA, (Instr.xvld g o).begins g s →
      let va := s.pre.getA o.a.toNat
      let x := s.pre.getG o.s.toNat
      let i := (Instr.xvld g o).openingAt s o.a o.am
      let e := Tbl.get .none (s.ctx s.me.ctx).wvt (x.toNat % 2 ^ 12)
      (x.toNat / 2 ^ 12 % 2 ^ 20 ≠ 0 ∨ e.ver = 0 → (Instr.xvld g o).stops s (.trap 4 0)) ∧
      (∀ pa repl, x.toNat / 2 ^ 12 % 2 ^ 20 = 0 → e.ver ≠ 0 → i.examine va 8 permXR false false = .ok (.mem pa repl) →
        (2 ^ 31 ≤ (e.ver - x.extractLsb' 32 32).toNat → (Instr.xvld g o).stops s .wait) ∧
        (∀ v j, (e.ver - x.extractLsb' 32 32).toNat < 2 ^ 31 → ({ i with s := i.s.acquire s.cur e.time } : Issue).loadAt va pa 8 permXR = .ok (v, j) →
          (Instr.xvld g o).ends s (j.resultG o.d.toNat (BitVec.ofNat 64 v) 4)))) ∧
    (∀ o : RR, (Instr.xnmc g o).begins g s →
      let off := (s.pre.getA o.s1.toNat).toNat
      let i := (Instr.xnmc g o).opening s
      (off % 64 = 0 → off + 64 ≤ spadSize s.cur → i.layoutBars off 64 0 = false → i.tilesReadable off 64 = .ok () → i.notPoisoned off 64 = .ok () →
        s.pre.commands.length < 96 →
        (Instr.xnmc g o).ends s (Sys2Proof.Claims.starting i (.new .tagged 9 (s.pre.spad.block (off / 64)) []))) ∧
      (off + 64 ≤ spadSize s.cur → i.layoutBars off 64 0 = true → (Instr.xnmc g o).stops s (.trap 11 (BitVec.ofNat 64 (off / 64 * 64)))) ∧
      (off % 64 ≠ 0 → spadSize s.cur < off + 64 ∨ i.layoutBars off 64 0 = false → (Instr.xnmc g o).stops s (.trap 7 (BitVec.ofNat 64 off))) ∧
      (off % 64 = 0 → spadSize s.cur < off + 64 → (Instr.xnmc g o).stops s (.trap 9 (BitVec.ofNat 64 off)))) ∧
    (∀ o : RR, (Instr.xtagld g o).begins g s →
      let va := s.pre.getA o.s1.toNat
      let i := (Instr.xtagld g o).opening s
      ∀ pa repl t j, i.examine va 64 permXR false false = .ok (.mem pa repl) → i.tagAt va pa permXR = .ok (t, j) →
      (Instr.xtagld g o).ends s (j.resultG o.d.toNat (t.setWidth 64) 4)) ∧
    (∀ o : RR, (Instr.xtagst g o).begins g s → ∀ (x : W64) (i : Issue), ((Instr.xtagst g o).opening s).rrG2 o = .ok (x, i) →
      let va := s.pre.getA o.s1.toNat
      (2 ^ 16 ≤ x.toNat ∨ codeDefined (x.toNat / 256) = false → (Instr.xtagst g o).stops s (.trap 4 0)) ∧
      (∀ pa r, x.toNat < 2 ^ 16 → codeDefined (x.toNat / 256) = true → i.examine va 64 permXW true false = .ok (.mem pa r) →
        kvSays i.ctx (i.s.grpOf s.cur) true va ≠ .refuse → poisoned (i.s.tagOf pa) = false →
        let store (u : State) : State := (u.coreWriteTime s.cur (globalLine pa)).putTag pa (x.setWidth 16)
        (r = false → (Instr.xtagst g o).ends s { i with s := store i.s }) ∧
        (∀ j, r = true → i.commitLine va pa store (fun u a => u.putTag a (x.setWidth 16)) = .ok j → (Instr.xtagst g o).ends s j)))

/-- TSTATE delivers the tile's state word at latency 2. The three rows of TLAYOUT have their operation in the operand: claim makes an empty tile ready, clears its bytes and
gives every block the tag of the format; relabel changes the layout of a ready tile; check compares. Each delivers the old layout. TRELEASE
empties a tile that no command is on (10_tile.md R275, R278, R279). TRJREC writes slot NSLOT, an entry free and a run of slots in hand; BFPOST posts a job record.
XNOP and the empty slot change nothing (08_transfer.md R247, R248; 04_encoding.md R118). -/
def Sys2Proof.Claims.TileAndRecordOperations : Prop :=
  ∀ (g : Guard) (o : RR) (s : State),
    ((Instr.tstate g o).begins g s →
      (Instr.tstate g o).ends s (((Instr.tstate g o).opening s).resultG o.d.toNat (s.pre.tile o.s1.toNat).word 2)) ∧
    (∀ k ∈ [Instr.tlayoutClaim g o, .tlayoutRelabel g o, .tlayoutCheck g o], k.begins g s → ∀ (x : W64) (i : Issue), (k.opening s).rrG2 o = .ok (x, i) →
      let n := o.s1.toNat
      let l := x.extractLsb' 0 16
      let t := i.core.tile n
      let old := i.resultG o.d.toNat ((s.pre.tile n).layout.setWidth 64) 2
      x.extractLsb' 16 44 = 0 → x.extractLsb' 62 2 = 0 → layoutOk l.toNat = true →
      (x.extractLsb' 60 2 = 0 → t.st = .empty →
        k.ends s ((old.upd (fun c => c.claimTile n (l.toNat % 256))).putTile n { t with st := .ready, layout := l })) ∧
      (x.extractLsb' 60 2 = 1 → t.st = .ready → k.ends s (old.putTile n { t with layout := l })) ∧
      (x.extractLsb' 60 2 = 2 → t.st ≠ .empty → layoutMatches l.toNat t.layout.toNat = true → k.ends s old) ∧
      (x.extractLsb' 60 2 = 2 → t.st ≠ .empty → layoutMatches l.toNat t.layout.toNat = false → k.stops s (.trap 11 (BitVec.ofNat 64 (n * 2 ^ 15)))) ∧
      (x.extractLsb' 60 2 = 0 ∧ t.st ≠ .empty ∨ x.extractLsb' 60 2 = 1 ∧ t.st ≠ .ready ∨ x.extractLsb' 60 2 = 2 ∧ t.st = .empty ∨ x.extractLsb' 60 2 = 3 →
        k.stops s (.trap 4 0))) ∧
    ((Instr.trelease g o).begins g s →
      let n := o.s1.toNat
      let t := s.pre.tile n
      let i := (Instr.trelease g o).opening s
      (t.st = .empty → (Instr.trelease g o).ends s i) ∧
      (t.st = .ready → (Instr.trelease g o).ends s (i.putTile n { t with st := .empty })) ∧
      (t.st = .filling → t.ncmd = 0 → (Instr.trelease g o).ends s (i.putTile n { t with st := .empty, err := false })) ∧
      (t.st = .draining → t.ncmd = 0 → (Instr.trelease g o).ends s (i.putTile n { t with st := .empty, err := false, relp := false })) ∧
      (t.st = .filling ∨ t.st = .draining → t.ncmd ≠ 0 → (Instr.trelease g o).stops s (.trap 4 0))) ∧
    ((Instr.trjrec g o).begins g s → ∀ (x y : W64) (i : Issue), ((Instr.trjrec g o).opening s).rrG o = .ok (x, y, i) →
      (y.toNat / 2 ^ 52 ≠ 0 ∨ i.ctx.ring = none → (Instr.trjrec g o).stops s (.trap 4 0)) ∧
      (∀ r, y.toNat / 2 ^ 52 = 0 → i.ctx.ring = some r → i.core.commands.length + i.cmds.length < 96 → i.core.nleft ≠ 0 →
        let w := i.core.trajOf s.cur (Tbl.get Bind.none s.pre.bnd 0) s.pre.mix x.toNat y.toNat
        (Instr.trjrec g o).ends s ((Sys2Proof.Claims.starting i (.new .idem 11 (BitVec.ofNat 512 (i.core.nslot % 2 ^ 64 + w * 2 ^ 64)) [])).upd
          (fun c => { c with nslot := c.nslot + 1, nleft := c.nleft - 1, spa := c.spa - 1, xearly := false, xl := 0 })))) ∧
    ((Instr.bfpost g o).begins g s → ∀ (va : W64) (i : Issue), ((Instr.bfpost g o).opening s).rrG1 o = .ok (va, i) →
      (i.range va 64 64 = .ok () → i.core.commands.length + i.cmds.length < 96 →
        (Instr.bfpost g o).ends s (Sys2Proof.Claims.starting i (.new .keyed 12 (BitVec.ofNat 512 va.toNat) []))) ∧
      (∀ e, i.range va 64 64 = .error e → (Instr.bfpost g o).stops s e))

/-- XNOP alone in its bundle, and a bundle of empty slots, change nothing beside the bundle's own time and sequence (04_encoding.md R94, R118). -/
def Sys2Proof.Claims.XnopAndEmptySlotsDoNothing : Prop :=
  ∀ s : State, (Instr.xnop.opn.issues s → Instr.xnop.ends s (Instr.xnop.opening s)) ∧
    (s.runs → exec .nop s = .next ((Instr.nop.opening s).finish false))

/-- `DescriptorKeepsToItsFields` and `CopiesStartTheirCommand` and `TilesFollowTheirCommands`, both. -/
def Obligations.DescriptorsTilesAndCopyCommands : Prop :=
  Sys2Proof.Claims.DescriptorKeepsToItsFields ∧ Sys2Proof.Claims.CopiesStartTheirCommand ∧ Sys2Proof.Claims.TilesFollowTheirCommands

/-- `AccumulatorCopiesCarryTheirRows` and `GathersCarryTheirIndices`, both. -/
def Obligations.AccumulatorCopiesAndRowLists : Prop :=
  Sys2Proof.Claims.AccumulatorCopiesCarryTheirRows ∧ Sys2Proof.Claims.GathersCarryTheirIndices

/-- `TileAndRecordOperations` and `XnopAndEmptySlotsDoNothing`, both. -/
def Obligations.TileRecordAndEmptyOperations : Prop :=
  Sys2Proof.Claims.TileAndRecordOperations ∧ Sys2Proof.Claims.XnopAndEmptySlotsDoNothing

/-! ### Events -/

/-- Results due are written, beats due take effect, those of a halted core too as cycles pass, while its part freezes for a cut too (05_scalar_control.md R150; 12_context.md R311), and CLK rises by 128 for every 1024 issue cycles not yet counted (02_core.md R29; 07_matrix.md R203; 09_memory_model.md
R255). The next row of a tile is reloaded and WM passes it (R204). A precise trap enters the handler with its cause, TRAPVAL and
FAULTADDR holding what their table names for it; a report waiting is taken with the window
open; a parity error freezes the core as a double trap does and is logged (14_trap.md R335, R337, R338; 22_reliability.md R454). -/
def Sys2Proof.Claims.CoreEventsArise : Prop :=
  ∀ (n : Nat) (s : State), n < 528 →
    let c := s.core n
    let d := s.clocked n
    (d.ic = if c.run = .halted ∧ (isKiosk n = true ∨ (s.ctx c.ctx).part (quarterOf n) = .running ∨
        (s.ctx c.ctx).part (quarterOf n) = .freezing ∧ c.stop ≠ .none) then c.ic + (s.now - c.nextAt) else c.ic) ∧
    ((∃ p ∈ c.pend, p.due ≤ d.ic) → exec (.resultDue n) s = .next (s.upd n (fun _ => d.land))) ∧
    ((∃ b ∈ d.mx.beats, b.due < d.ic) → exec (.beatDue n) s = .next (s.upd n (fun _ => d.settled))) ∧
    (c.ticks < c.ic / 1024 → exec (.clkTick n) s =
      .next (s.upd n (fun c => { c with clk := c.clk + 128 * (c.ic / 1024 - c.ticks), ticks := c.ic / 1024 }))) ∧
    (∀ t < 24, (c.mx.st t).wm.toNat < 128 → exec (.rowReload n t) s = .next (s.upd n (fun c => c.reloadRow t))) ∧
    (∀ cause v a, c.run = .running → 1 ≤ cause → cause ≤ 0x14 → cause ≠ 0x11 → cause ≠ 0x13 →
      ¬ (c.twin = true ∧ c.heldBundle = false ∧ c.reports ≠ []) →
      exec (.trapEntry n cause v a) s =
        .next ((s.abandon n).preciseTrap n cause (trapVal cause (BitVec.ofNat 64 v)) (trapAddr cause (BitVec.ofNat 64 a)))) ∧
    (c.run = .running → c.twin = true → c.heldBundle = false → c.reports ≠ [] → exec (.impreciseTrap n) s = .next (s.takeReport n)) ∧
    (c.run ≠ .idle → exec (.parityError n) s = .next ((s.doubleTrap n 0x15).logError 3 c.ctx (srcOf n) 0 0))

/-- What a row's reload leaves: the row of the tile from the image, WM one further, the other rows as they were (07_matrix.md R204). -/
def Sys2Proof.Claims.RowReloadTakesTheImage : Prop :=
  ∀ (c : Core) (t r : Nat), (c.mx.st t).wm.toNat < 128 →
    let w := (c.mx.st t).wm.toNat
    (c.reloadRow t).mx.row t w = Tbl.get 0 c.mx.reload (128 * t + w) ∧ ((c.reloadRow t).mx.st t).wm.toNat = w + 1 ∧
    (r ≠ w → r < 128 → (c.reloadRow t).mx.row t r = c.mx.row t r) ∧
    (∀ u, u ≠ t → ((c.reloadRow t).mx.st u) = c.mx.st u)

/-- ECC errors in DRAM, found by an agent that can access it or by the home, in a scratchpad, a weight buffer and a cache are logged, and an
uncorrectable one poisons its block or line; the patrol scrub finds them likewise (22_reliability.md R450 to R453). The
windows of error counts end, GET of the two logs moves, a report is asked for, signed or fails, the duty level follows the measurements, the device
resets, and bring-up completes its steps or fails in one (R455, R457, R458, R460, R462, R463; 11_page.md R291). -/
def Sys2Proof.Claims.DeviceEventsArise : Prop :=
  ∀ (s : State),
    (∀ a src u, frameNamed (a / 2 ^ 22) = true → errorSrc a src = true → exec (.eccError 0 a src u) s = .next (s.dramError (64 * (a / 64)) src u)) ∧
    (∀ n a src u, n < 528 → a < spadSize n →
      exec (.eccError (n + 1) a src u) s = .next (s.sramError n 1 a u (fun c => { c with spad := c.spad.setTag (a / 64) poisonTag }))) ∧
    (∀ n a src u, n < 512 → a < 2 ^ 19 →
      exec (.eccError (1024 + n) a src u) s = .next (s.sramError n 2 a u (fun c => { c with wbuf := c.wbuf.setTag (a / 64) poisonTag }))) ∧
    (∀ n a src u k, n < 528 → (s.core n).copies[a / 64]? = some k → exec (.eccError (3072 + n) a src u) s =
      .next (s.sramError n 4 a u (fun c => { c with copies := Tbl.set ⟨0, 0, 0⟩ c.copies k.1 { k.2 with tag := poisonTag } }))) ∧
    (∀ n a src u k, n < 528 → (s.core n).icache[a / 64]? = some k → exec (.eccError (4096 + n) a src u) s =
      .next (s.sramError n 5 a u (fun c => { c with icache := Tbl.set ⟨0, 0, 0⟩ c.icache k.1 { k.2 with tag := poisonTag } }))) ∧
    (∀ b, frameNamed (b / 2 ^ 16) = true → exec (.patrolScrub b 0) s = .next s ∧
      (∀ o, o = 1 ∨ o = 2 → exec (.patrolScrub b o) s =
        .next (s.dramError (64 * b) (if homeOf (64 * b) = 12 then 0x312 else 0x320 + homeOf (64 * b)) (decide (o = 2))))) ∧
    exec .dcntWindowClear s = .next { s with dcnt := [] } ∧
    (∀ g, exec (.fbufGetWrite g) s = .next (s.setFbufGet g)) ∧ (∀ g, exec (.errorLogGetWrite g) s = .next (s.setLogGet g)) ∧
    (s.root.astat = 1 → exec .attestRequest s = .next s) ∧
    (s.root.astat ≠ 1 → exec .attestRequest s = .next { s with root := { s.root with astat := 1 } }) ∧
    (s.root.astat = 1 → exec (.attestReportDone false) s = .next { s with root := { s.root with astat := 3 } }) ∧
    (s.root.astat = 1 → ∃ m, exec (.attestReportDone true) s = .next { s with hostMem := m, root := { s.root with astat := 2 } }) ∧
    (∀ w t, exec (.powerMeasure w t) s = .next (
      let l := s.duty.toNat
      let n := if 3600 < w ∨ 95 ≤ t then min 3 (l + 1) else l - 1
      if n = l then s else { s with duty := BitVec.ofNat 2 n }.logError 6 0xFF 0x313 n 0)) ∧
    (∀ k ∈ [Instr.thermalTrip, .deviceReset], exec k s =
      .next { State.reset with fresh := s.fresh, keys := s.keys, agenda := s.agenda, cur := s.cur, hostMem := s.hostMem,
                               root := { State.reset.root with boots := s.root.boots + 1 } }) ∧
    (s.root.ready = false → s.root.fail = false → s.root.step.toNat < 8 →
      let k := s.root.step.toNat + 1
      exec (.bringupStep false) s = .next { s with root := { s.root with step := BitVec.ofNat 4 k, fail := true } } ∧
      let t : State := { s with root := { s.root with step := BitVec.ofNat 4 k, ready := decide (k = 8) } }
      exec (.bringupStep true) s = .next (if k = 4 then { t with mem := .empty, seals := [] } else if k = 5 then t.setSpares else t))

/-- QUARANTINE of a die whose error count has reached a threshold that is not 0, its quarters able to freeze: its spares go, each of its quarters moves to the
next spare or leaves service, and the die counts as dead (22_reliability.md R455, R456). -/
def Sys2Proof.Claims.QuarantineReplacesQuarters : Prop :=
  ∀ (s : State) (d : Nat), d < 9 → s.log.thresh ≠ 0 → s.log.thresh.toNat ≤ s.dcntOf d → s.deadDies.getLsbD d = false →
    (∀ q ∈ s.quartersOf d, s.quarterStill q = true) →
    let t := { s with spares := s.spares.filter (fun p => p / 2 ≠ d) }
    let u := (t.quartersOf d).foldl (fun (u : State) q => u.replaceQuarter q) t
    exec (.quarantine d) s = .next { u with deadDies := u.deadDies ||| BitVec.ofNat 9 (2 ^ d) }

/-- A command at work whose next block can be brought brings it, 64 bytes at a time: XCOPY.in a block into its tile with the tag of R226, XCOPY.out a block of the
tile to memory, XWBFILL a block into the weight buffer; PROG advances by 64 (08_transfer.md R224, R226, R227, R230), and the entry shows that its requests have left for
their home (13_inflight_record.md R319). A page absent is posted once, and its return ends the wait (R225). -/
def Sys2Proof.Claims.CopiesBringTheirBlocks : Prop :=
  ∀ (s : State) (n k : Nat) (e : IfrEntry), s.working n k = some e → e.prog < e.total → e.posted = none →
    let d : Desc := ⟨e.field 8 8, e.field 16 8, e.field 32 8⟩
    let t := e.field 24 1 % 32
    let reint := (e.field 24 1).testBit 5
    let j := e.prog / 64
    let b := d.toff + j
    let va := BitVec.ofNat 64 (e.field 0 8) + BitVec.ofNat 64 e.prog
    let sp := (s.core n).spad
    let moved := fun (u : State) => (u.advance n k 64).entrySent n k (s.entryHome n e)
    (∀ pa tag, e.kind = 3 → s.engineAt n va (permXR + permVT) false = .go pa →
      storedTag (d.layout % 256) b reint (s.tagOf pa) sp t (s.leadTag n b j va) = some tag →
      exec (.engineBlockConfirm n k) s = .next (moved ((s.writeTime 0 (spadLine n (64 * (512 * t + b)))).1.upd n
        (fun c => { c with spad := c.spad.setBlock (512 * t + b) (s.rdBlock pa) tag })))) ∧
    (∀ pa, e.kind = 4 →
      leavesOk ((s.core n).tile t).layout.toNat b reint (sp.tag (512 * t + b - b % 8)) (sp.tag (512 * t + b)) = true →
      s.engineAt n va (permXW + permVT) true = .go pa →
      exec (.engineBlockConfirm n k) s = .next (moved (s.commandBlock n k va pa (sp.block (512 * t + b)) (sp.tag (512 * t + b))))) ∧
    (∀ pa, e.kind = 13 → s.engineAt n va permWB false = .go pa → codeDefined (tagCode (s.tagOf pa)) = true →
      (d.fmt = 0 ∨ tagCode (s.tagOf pa) = d.fmt ∨ tagCode (s.tagOf pa) = 0 ∨ reint = true) →
      exec (.engineBlockConfirm n k) s = .next (moved (s.upd n (fun c =>
        { c with wbuf := c.wbuf.setBlock (d.woff + j) (s.rdBlock pa) (s.tagOf pa) })))) ∧
    (∀ kd, e.kind = 3 → k < 96 → s.engineAt n va (permXR + permVT) false = .absent kd →
      exec (.engineBlockConfirm n k) s =
        .next ((s.postFault ⟨va, (s.core n).ctx, kd, srcOf n, permXR + permVT, k⟩).updEntry n k (fun e => { e with posted := some (pageOf va) })))

/-- A command that waits for a page goes on once that page is no longer what stops it, and may then meet another (08_transfer.md R225). -/
def Sys2Proof.Claims.AWaitEndsWithItsPage : Prop :=
  ∀ (s : State) (n k p : Nat) (e : IfrEntry), s.working n k = some e → e.posted = some p →
    (∀ va kd need w, s.engNext n k e = .absent va kd need w → pageOf va ≠ p) →
    exec (.engineResume n k) s = .next (s.updEntry n k (fun e => { e with posted := none }))

/-- The tag a block brings into a tile (08_transfer.md R226; 03_numbers.md R65, R70, R71): a poisoned one stays; under layout format 0 every defined
one stays; the block's own code stays, but a later block of a nested stripe whose scale is another than that of block 0, an untagged block 0
having scale 1, is a layout fault; raw blocks and, with REINT, blocks of other codes take the block's code, with the scale of block 0 of
their stripe; anything else is a layout fault. Block 0 is the one that the same command brings (`lead`), else the one in the tile (log entry 57). -/
def Sys2Proof.Claims.BlocksTakeTheirTileTags : Prop :=
  ∀ (f b t : Nat) (reint : Bool) (tag : BitVec 16) (sp : Memory) (lead : Option (BitVec 16)),
    let head := sp.tag (512 * t + b - b % 8)
    (poisoned tag = true → storedTag f b reint tag sp t lead = some tag) ∧
    (poisoned tag = false → codeDefined (tagCode tag) = false → storedTag f b reint tag sp t lead = none) ∧
    (poisoned tag = false → codeDefined (tagCode tag) = true →
      (f = 0 → storedTag f b reint tag sp t lead = some tag) ∧
      (f ≠ 0 → tagCode tag = planeCode f b →
        (nestedCode f = false ∨ reint = true ∨ b % 8 = 0 → storedTag f b reint tag sp t lead = some tag) ∧
        (nestedCode f = true → reint = false → b % 8 ≠ 0 →
          (∀ l, lead = some l → poisoned l = false →
            (tagCode l = planeCode f 0 → storedTag f b reint tag sp t lead = if tagScale tag = tagScale l then some tag else none) ∧
            (tagCode l = 0 → storedTag f b reint tag sp t lead = if tagScale tag = 0x7F then some tag else none)) ∧
          (lead = none → poisoned head = false → tagCode head = planeCode f 0 →
            storedTag f b reint tag sp t lead = if tagScale tag = tagScale head then some tag else none) ∧
          (lead = none → tagCode head ≠ planeCode f 0 → storedTag f b reint tag sp t lead = some tag))) ∧
      (f ≠ 0 → tagCode tag ≠ planeCode f b → tagCode tag ≠ 0 → reint = false → storedTag f b reint tag sp t lead = none) ∧
      (f ≠ 0 → tagCode tag ≠ planeCode f b → tagCode tag = 0 ∨ reint = true → storedTag f b reint tag sp t lead =
        some (mkTag (planeCode f b) (if nestedCode f = true ∧ b % 8 ≠ 0 ∧ poisoned head = false then tagScale head else 0x7F))))

/-- A copying command with every block confirmed completes: with no counter, its tile changes and its entry is freed; with one, the counter gains 1 at its home first, once under its
tag, and the entry is freed then or when the answer to the add has come, as a free choice has it (08_transfer.md R220, R224; 13_inflight_record.md R321, R322, R329). An error ends a command at its mark: its tile is marked and the report waits at the
core (R225). An answer to a command frees its entry (R318). -/
def Sys2Proof.Claims.CommandsEnd : Prop :=
  ∀ (s : State) (n k : Nat) (e : IfrEntry), s.working n k = some e →
    let va : W64 := BitVec.ofNat 64 (e.field 16 8)
    let sent := fun (u : State) => u.entrySent n k (s.entryHome n e)
    (e.copies = true → e.total ≤ e.prog → e.posted = none → va = 0 →
      exec (.commandComplete n k) s = .next (sent ((s.tileDone n k e).freeCommand n k))) ∧
    (∀ pa, e.copies = true → e.total ≤ e.prog → e.posted = none → va ≠ 0 → s.engineAt n va permXW true = .go pa →
      poisoned (s.tagOf pa) = false → e.rpl = false →
      let u := s.commandStore n k va pa 8 (s.rd pa 8 + 1)
      let v : State := { u with tags := u.tags.insert (homeOf pa) ⟨(s.core n).ctx, n, 0, e.seq, 0⟩ }
      exec (.commandComplete n k) s = .next (sent (if v.choose.1 then (v.choose.2.tileDone n k e).freeCommand n k else v.choose.2.answer n k 0))) ∧
    (∀ a c, k < 96 → s.engNext n k e = .fail a c → e.kind = 3 →
      exec (.commandEndError n k c) s =
        .next ((s.tileChange n k e Tile.fail).report n k c a))

/-- An answer reaches a core whose record stands: a command's entry is freed, a copying command's tile changes with it; a held request takes the bytes its address holds at the home, once no request sent again before it is still to be performed on them
(13_inflight_record.md R318, R320, R331), and a request to a unit of the I/O die lets its bundle go on (02_core.md R30). An atomic is performed at its home and its answer stands in its
entry; that of a held bundle is an access of its core (08_transfer.md R235; 09_memory_model.md R264). A release waits for the core's earlier writes, then stores its word
(R238), for every reader at device or system scope, for readers of its scope otherwise (R262, R263). -/
def Sys2Proof.Claims.AnswersAtomicsAndReleases : Prop :=
  ∀ (s : State) (n k : Nat) (e : IfrEntry),
    let x := (s.core n).ctx
    let va : W64 := BitVec.ofNat 64 (e.field 0 8)
    let sent := fun (u : State) => u.entrySent n k (s.entryHome n e)
    let tagged := fun (u : State) pa v => ({ u with tags := u.tags.insert (homeOf pa) ⟨x, n, 0, e.seq, v⟩ } : State)
    ((s.core n).entry k = some e → (s.core n).replay = false → k < 96 → e.ans = true → e.ended = false →
      exec (.requestAnswer n k) s = .next ((if e.copies then s.tileDone n k e else s).freeCommand n k)) ∧
    ((s.core n).entry k = none → 96 ≤ k → k < 100 → (s.core n).heldBundle = true → (s.core n).run = .running →
      (s.core n).slow.getLsbD (k - 96) = true → exec (.requestAnswer n k) s = .next (s.answerCame n k)) ∧
    (∀ pa, (s.core n).entry k = some e → (s.core n).replay = false → 96 ≤ k → e.kind = 1 → e.ans = false → 0 < e.field 8 1 → e.field 8 1 ≤ 8 →
      (s.core n).replayBars e.seq [(va.toNat, e.field 8 1)] = false → s.engineAt n va 0 false = .go pa →
      let r := s.homeLoad n pa (e.field 8 1)
      poisoned r.1.2 = false →
      exec (.requestAnswer n k) s = .next ((r.2.readMark n x va (pa / 64)).answerRead n k (pa / 64) (BitVec.ofNat 64 r.1.1))) ∧
    (∀ pa, s.working n k = some e → e.kind = 2 → e.rpl = false → e.posted = none → (s.core n).amoPending va e.seq = false →
      s.engineAt n va (permXR + permXW) true = .go pa → poisoned (s.tagOf pa) = false →
      let o := (amoOf (e.field 24 1)).1
      let w := (amoOf (e.field 24 1)).2
      let old := s.rd pa (w / 8)
      let new := o.new w old (BitVec.ofNat 64 (e.field 8 8)).toNat (BitVec.ofNat 64 (e.field 16 8)).toNat
      let u := if 96 ≤ k then s.coreStore n pa (w / 8) (s.ringValue x va pa (w / 8) new) else s.commandStore n k va pa (w / 8) new
      exec (.atomicAtHome n k) s = .next (sent ((tagged u pa (o.ret w old)).answer n k (o.ret w old)))) ∧
    (∀ pa, s.working n k = some e → e.kind = 8 → e.rpl = false → e.posted = none → (s.core n).allWritten e.seq = true →
      s.engineAt n va permXW true = .go pa →
      let scope := e.field 16 1
      let a := if 2 ≤ scope then s.acquire n (s.relTime n) else s
      let u := a.coreStore n pa 8 (a.ringValue x va pa 8 (e.field 8 8))
      let r : List RelMark := if 2 ≤ scope then [] else [⟨pa, e.field 8 8, n, scope, a.relTime n⟩]
      exec (.xrelPerform n k) s =
        .next (sent (((tagged { u with rels := u.rels.filter (fun r => loc r.word ≠ loc pa) ++ r } pa 0).answer n k 0).upd n
          (fun c => c.dropRelblk (va.toNat / 64 * 64)))))

/-- The commit engine locks every line that a held bundle stores to on replicated pages, and the bundle is examined under the locks: it issues and they are released, or
another slot still holds it and they are given up, so that none outlasts the commit; a scalar store under its lock issues and stands in every replica
of its page (09_memory_model.md R257, R258, R268). A payload whose 12 cycles have passed lands in its
channel, first come first (08_transfer.md R232). Fences end where their conditions hold (R237, R245). A halted member whose arrivals are made leaves the barriers that expect
it (18_barrier.md R390), and an arrival whose core's earlier writes are made reaches its barrier (R388, R391). A resumed core sends its record again (13_inflight_record.md
R330). -/
def Sys2Proof.Claims.LocksSendsFencesAndArrivals : Prop :=
  ∀ (s : State),
    (∀ j l t, s.locks[j]? = some l → s.inTurn l.core = true → boundary l.core (fetchAndIssue l.core) { s.setLocks l.core true with cur := l.core } = .next t →
      exec (.replicaCommit j) s = .next (if (t.core l.core).heldBundle = true then t.setLocks l.core false
        else { t with locks := t.locks.filter (fun k => k.core ≠ l.core) })) ∧
    (∀ e ∈ Sys2Proof.Claims.storeRows, ∀ (g : Guard) (o : MEM) (j : Nat) (l : LineLock) (pa : Nat), s.locks[j]? = some l → s.inTurn l.core = true →
      let row := e.1 g o
      let u : State := { s.setLocks l.core true with cur := l.core }
      u.fetch l.core = .word (soloWord row.opn) →
      let v := u.fetched l.core (soloWord row.opn)
      row.begins g v → v.pre.slow.getLsbD row.opn.place = false →
      let i := row.openingAt v o.a o.am
      let va := i.address o 11 e.2
      i.examine va e.2 permSS true true = .ok (.mem pa true) → (v.ctx v.me.ctx).ring = none →
      kvSays (v.ctx v.me.ctx) (v.opened.grpOf v.cur) true va ≠ .refuse → wvSlotAt (v.ctx v.me.ctx) va = none →
      (∃ k ∈ s.locks, k.core = l.core ∧ k.line = globalLine pa) →
      ∃ t, exec (.replicaCommit j) s = .next t ∧ (∀ k ∈ t.locks, k.core ≠ l.core) ∧
        (∀ a ∈ v.opened.replicas l.core v.me.ctx va pa, ∀ b < e.2,
          t.mem.byte (loc a + b) = (v.pre.getG o.data.toNat).extractLsb' (8 * b) 8) ∧
        (∀ k, t.mem.tag k = s.mem.tag k) ∧ t.hostMem = s.hostMem) ∧
    (∀ n k x, s.sends.find? (fun x => x.src = n && x.entry = k) = some x → x.land ≤ s.now →
      firstSend (s.sends.filter (fun y => y.dst = x.dst && y.chan = x.chan)) = some x → exec (.sendLand n k) s = .next (s.landSend x)) ∧
    (∀ n, (s.core n).fenceX = true → (s.core n).allPerformed (s.core n).fseq = true →
      exec (.fenceClear n) s = .next (s.setCore n (s.core n).clearFences) ∧ (s.core n).clearFences.fenceX = false) ∧
    (∀ n, (s.core n).run = .halted → (∀ e ∈ (s.core n).commands, e.2.kind = 10 → e.2.ended = true) →
      (∃ b ∈ s.barsOf n, (s.bar b).exp.getLsbD (s.barBit n b) = true) → exec (.barrierMemberLeave n) s = .next (s.leaveBarriers n)) ∧
    (∀ n k e b, (s.core n).entry k = some e → e.kind = 10 → e.ended = false → (s.core n).replay = false → (s.core n).released e = true →
      (s.core n).allWritten e.seq = true → s.arrivalBar n e = some (.bar b) → (∀ h ∈ (s.bar b).held, ¬ (h.core = n ∧ h.entry = k)) →
      (s.core n).arrivalBefore e (s.bar b).held n = false →
      exec (.barrierArrival n k) s =
        .next (s.barDo b ((s.bar b).arrival ⟨n, k, s.barBit n b, BitVec.ofNat 32 (e.field 8 4), BitVec.ofNat 32 (e.field 4 4), s.relTime n⟩))) ∧
    (∀ n, (s.core n).replay = true → (s.core n).run = .running ∨ (s.core n).run = .halted ∨ (s.core n).run = .aborted →
      (s.ctx (s.core n).ctx).part (quarterOf n) = .running →
      exec (.resumeReplay n) s = .next (s.upd n (fun c => { c with
        replay := false
        ifr := c.ifr.map (fun e => if e.2.ended then e else (e.1, { e.2 with rpl := true, sent := !(e.2.waitX || e.2.waitN) })) })))

/-- A near-memory command on pages of one stack, no earlier one of its core to that unit at work, performs its next group of 16 elements, or fails
it on an uncorrectable error; with every group done and the page of its completion record there it ends, the record is updated and its entry freed (08_transfer.md R241 to R244). -/
def Sys2Proof.Claims.NearMemoryCommandsRun : Prop :=
  ∀ (s : State) (n k h : Nat) (e : IfrEntry), s.working n k = some e → e.kind = 9 → e.rejected = false → e.rpl = false → e.posted = none →
    s.nmExamine n e.nm = .stack h →
    let c := e.nm
    let j := e.prog / 64
    let off := BitVec.ofNat 64 (64 * j)
    let sent := fun (u : State) => u.entrySent n k (s.entryHome n e)
    (∀ pw pg pm ps unc, j < c.groups → s.nmEarlier n e h = false → s.engineAt n (c.bw + off) permNM true = .go pw →
      s.engineAt n ((if c.usesG then c.bg else c.bw) + off) permNM false = .go pg →
      s.engineAt n ((if c.usesM then c.bm else c.bw) + off) permNM true = .go pm →
      s.engineAt n (if c.opc = 3 then c.bm + BitVec.ofNat 64 (4 * c.count) + off else c.bw + off) permNM true = .go ps →
      exec (.nmGroup n k unc) s = .next (sent (s.groupDo n k c h j unc pw (some pg) pm ps))) ∧
    (c.groups ≤ j → c.cca = 0 ∨ (∃ pa, s.engineAt n c.cca permNM true = .go pa) →
      let u := s.nmRecord n k c.cca e.failed (if e.failed = 0 then 0 else 1)
      exec (.nmCommandEnd n k) s =
        .next (sent (({ u with tags := u.tags.insert h ⟨(s.core n).ctx, n, 1, c.seq, 0⟩ } : State).freeCommand n k)))

/-- `CoreEventsArise` and `RowReloadTakesTheImage`, both. -/
def Obligations.CoreEventsAndRowReload : Prop :=
  Sys2Proof.Claims.CoreEventsArise ∧ Sys2Proof.Claims.RowReloadTakesTheImage

/-- `DeviceEventsArise` and `QuarantineReplacesQuarters`, both. -/
def Obligations.DeviceEventsAndQuarantine : Prop :=
  Sys2Proof.Claims.DeviceEventsArise ∧ Sys2Proof.Claims.QuarantineReplacesQuarters

/-- `CopiesBringTheirBlocks` and `BlocksTakeTheirTileTags` and `AWaitEndsWithItsPage`, both. -/
def Obligations.CopiesBringBlocksAndTags : Prop :=
  Sys2Proof.Claims.CopiesBringTheirBlocks ∧ Sys2Proof.Claims.BlocksTakeTheirTileTags ∧ Sys2Proof.Claims.AWaitEndsWithItsPage

/-- `CommandsEnd` and `AnswersAtomicsAndReleases`, both. -/
def Obligations.CommandsEndAndAreAnswered : Prop :=
  Sys2Proof.Claims.CommandsEnd ∧ Sys2Proof.Claims.AnswersAtomicsAndReleases

/-- `LocksSendsFencesAndArrivals` and `NearMemoryCommandsRun`, both. -/
def Obligations.LocksLandingsAndNearMemory : Prop :=
  Sys2Proof.Claims.LocksSendsFencesAndArrivals ∧ Sys2Proof.Claims.NearMemoryCommandsRun

/-! ### Contexts, pages, kernels -/

/-- A freezing part whose cores have stopped, with no group forming and, for a cut stop, no command left, is frozen (12_context.md R301, R312). A save whose area can be reached is
written, VALID last, and its parts leave their quarters; at a page that migrates it waits; one that meets a fault leaves VALID 0 and its parts frozen, their unended entries to be sent again (13_inflight_record.md R330); a restore brings its
parts back once there is room and every cohort has its slots, and resumes them unless the context has become faulted, or returns them to what they were (R309, R310; 17_group.md R381; 18_barrier.md R396). -/
def Sys2Proof.Claims.ContextRequestsEnd : Prop :=
  ∀ (s : State) (x : Nat),
    let c := s.ctx x
    (∀ q, c.part q = .freezing → (∀ g ∈ s.groupsOn x q, g.2.st ≠ .forming) → (∀ n ∈ s.partCores x q, (s.core n).run ≠ .running) →
      let ends := fun (t : State) =>
        exec (.partFrozen x q) s = .next (((((s.partCores x q).foldl (fun (u : State) n => u.upd n (Core.stopAgain s.now)) t)).freezeGroups x q).freezeProgress x)
      (c.req = none ∨ c.st = .faulted ∨ (∃ r, c.req = some r ∧ r.resume = false ∧ r.op < 3) →
        ends (s.updCtx x (fun c => { c.setPart q .frozen with cutAt := Tbl.set none c.cutAt q none }))) ∧
      (∀ r : Request, c.req = some r → r.resume = false → c.st ≠ .faulted →
        (r.op = 3 ∨ (r.op = 4 ∧ ∀ n ∈ s.partCores x q, (s.core n).commands = [])) →
        ends (s.updCtx x (fun c => { c.setPart q .frozen with
          cutHeld := c.cutHeld ||| BitVec.ofNat 16 (2 ^ q)
          cutAt := Tbl.set none c.cutAt q (if r.op = 4 then some r.target else none) })))) ∧
    (∀ r : Request, c.req = some r →
      (r.resume = false → (∀ q ∈ quartersIn r.parts, c.part q = .saving) →
        let rs := s.imageRanges x r.parts
        let img := (s.image x r.parts).write 0 4 0
        (s.saveReady x r.parts = true → s.areaStop x true (s.areaPieces x rs) 0 = none →
          let t := (s.writeArea x img rs (rangesLen rs)).writeValid x 0x00010001
          let u := (quartersIn r.parts).foldl (fun t q => (t.keepCores x q).releasePart x q .saved) t
          exec (.saveDone x) s = .next ((u.updCtx x (fun c => { c with
            svf := false
            cutHeld := c.cutHeld &&& ~~~ r.parts
            cutAt := c.cutAt.filter (fun e => !r.parts.getLsbD e.1) })).endRequest x 0 0)) ∧
        (∀ done va, s.saveReady x r.parts = true → s.areaStop x true (s.areaPieces x rs) 0 = some (.migrating, done, va) →
          exec (.saveDone x) s = .next (s.areaWaits x r va true)) ∧
        (∀ done va, s.areaStop x true (s.areaPieces x rs) 0 = some (.bad, done, va) →
          let f := (quartersIn r.parts).foldl (fun t q => t.updCtx x (fun c => c.setPart q .frozen)) (s.writeArea x img rs done)
          let t := ((quartersIn r.parts).flatMap (f.partCores x)).foldl (fun (t : State) n =>
            t.upd n (fun c => { c with replay := c.replay || c.ifr.any (fun e => !e.2.ended) })) f
          exec (.saveFault x) s = .next ((t.updCtx x (fun c => { c with svf := true })).endRequest x 7 (done - 4)))) ∧
      (r.resume = true → r.op ≠ 0 →
        let rs := s.restoreRanges x r.parts
        (s.areaStop x false (s.areaPieces x rs) 0 = none → s.areaPoisoned x rs = false → s.roomFor (s.readArea x rs) r.parts = true →
          let t := (quartersIn r.parts).foldl (fun t q => (t.restorePart (s.readArea x rs) x q).updCtx x (fun c => c.setPart q .frozen)) s
          let u := (quartersIn r.parts).foldl (fun t q => t.freezeGroups x q) t
          let v := if r.op = 1 ∧ (u.ctx x).st ≠ .faulted then u.resumeParts x r.parts else u
          t.slotted = true →
          exec (.restoreDone x) s =
            .next ((v.updCtx x (fun c => { c with svf := false, st := if c.st = .ready then .active else c.st })).endRequest x 0 0)) ∧
        (∀ done va, s.areaStop x false (s.areaPieces x rs) 0 = some (.bad, done, va) →
          let t := (quartersIn r.parts).foldl (fun t q => t.updCtx x (fun c => c.setPart q (Tbl.get .absent r.before q))) s
          exec (.restoreFault x) s = .next ((t.updCtx x (fun c => { c with svf := true })).endRequest x 8 (done - 4)))))

/-- A loading context becomes ready, its table in every translation copy and its key in the key slot, a privileged one with its services on kiosk cores, or dead with status 6; a dead
one with nothing left at work is free once scrubbed (12_context.md R298 to R300, R304). The oldest shoot-down that waits for a unit is acknowledged by it; the copy of a MOVE
ends with the frame's bytes, tags, seals, times and release marks at the new frame (11_page.md R295 to R297). -/
def Sys2Proof.Claims.ContextLoadsAndShootdowns : Prop :=
  ∀ (s : State),
    (∀ x, (s.ctx x).st = .loading →
      let t := s.giveRows x (listedPages s.mem.cells (s.ctx x).ptbase.toNat)
      let u := (List.range 32).foldl (fun u n => u.loadCopy n x) t
      let v := (u.installKey x).updCtx x (fun c => { c with st := .ready })
      let w := if (v.ctx x).priv = true then (v.startServices x ((List.range 16).map (· + 512))).mapService x else v
      exec (.contextLoadDone x) s = .next (w.completeFor x 1 0) ∧
      exec (.contextLoadError x) s = .next ((s.updCtx x (fun c => { c with st := .dead })).completeFor x 1 6)) ∧
    (∀ x, (s.ctx x).st = .dead → s.over x = true → ∃ t, exec (.scrubDone x) s = .next t ∧ t.ctx x = .none) ∧
    (∀ u o l, s.pgops = o :: l → (o.phase = pgFirst ∨ o.phase = pgLast) → u ∈ o.units →
      let t := s.unitTakes u o.ctx o.page o.old o.entry
      let us := o.units.filter (· ≠ u)
      let r := (t.reexamine o.ctx o.page).payCcnt o.ctx
      (us ≠ [] → exec (.shootdownAck u) s = .next { t with pgops := { o with units := us } :: l }) ∧
      (us = [] → o.phase = pgFirst → exec (.shootdownAck u) s =
        .next { r with pgops := { o with units := [], phase := pgCopy } :: l }) ∧
      (us = [] → o.phase = pgLast → exec (.shootdownAck u) s =
        .next (State.pgKick { r with pgops := { o with units := [], phase := pgDone } :: l }))) ∧
    (∀ o l, s.pgops = o :: l → o.phase = pgCopy →
      let src := pePfn o.old * 2 ^ 22
      (∀ c ∈ s.mem.tags, src / 64 ≤ c.1 → c.1 < src / 64 + 2 ^ 16 → poisoned c.2 = false) →
      exec .moveCopyDone s = .next { ((s.copyFrame src (o.npfn * 2 ^ 22) (2 ^ 22)).moveRels src (o.npfn * 2 ^ 22)).setMaster o.ctx o.page (peWithPfn o.old o.npfn) with
        pgops := { o with entry := peWithPfn o.old o.npfn, status := 0, units := allUnits, phase := pgLast } :: l })

/-- The command processor reads a queued node's launch record: a misaligned one aborts the node with code 1, one that fails a check of R358 with that check's code, and one that passes
every check is kept; a copy node and a collective start, and a copy node copies its blocks in ascending order and then completes (16_kernel.md R358, R360, R366, R367, R369). Cycles spent queued
raise the effective priority (R364). -/
def Sys2Proof.Claims.NodesStart : Prop :=
  ∀ (s : State) (k : Nat) (v : Kernel), s.kernel k = some v →
    (v.st = .queued → v.hasRec = false → v.kind = 1 ∨ v.kind = 4 →
      (v.recva.toNat % 64 ≠ 0 → exec (.launchRecordRead k) s = .next (s.abortNode k 1)) ∧
      (∀ b, v.recva.toNat % 64 = 0 → inWindow (s.ctx v.ctx) v.recva = true → inWindow (s.ctx v.ctx) (v.recva + 127) = true →
        s.cpBlocks2 v.ctx v.recva = .inl b →
        let q := LaunchRec.ofBits b
        let r := match v.job with | some a => { q with param := BitVec.ofNat 64 a } | none => q
        (∀ code, r.error (s.ctx v.ctx) s.part (decide (b / 2 ^ 576 = 0)) = some code → exec (.launchRecordRead k) s = .next (s.abortNode k code)) ∧
        (∀ t, r.error (s.ctx v.ctx) s.part (decide (b / 2 ^ 576 = 0)) = none → s.cpStores v.ctx 0 (s.patches v r.param) = .inl t →
          exec (.launchRecordRead k) s = .next (t.setKernel k { v with hasRec := true, posted := none, lrec := { r with prio := s.prioOf v r } })))) ∧
    (∀ t, v.st = .queued → v.hasRec = false → v.recva.toNat % 8 = 0 → s.cpStores v.ctx 0 (s.patches v v.recva) = .inl t →
      (v.kind = 2 → exec (.launchRecordRead k) s =
        .next ((t.setKernel k { v with hasRec := true, posted := none, chunks := [] }).kernelSt k .running)) ∧
      (∀ w ops, v.kind = 3 → t.cpWords v.ctx 6 v.recva = .inl w → (nth 0 w 0).toNat % 32 = 0 →
        t.chunkTable v.ctx (fun b => nth 0 w (1 + b % 4)) (2 ^ 33) (nth 0 w 0) = .inl ops → ops ≠ [] →
        exec (.launchRecordRead k) s = .next (((t.setKernel k { v with hasRec := true, posted := none, chunks := ops }).kernelSt k .running).addKernel
          { Kernel.new v.ctx 4 none (nth 0 w 5) s.now 0 with exec := some k }))) ∧
    (v.st = .queued → v.ep s.now = min 3 (v.lrec.prio + (s.now - v.order) / 2 ^ 20) ∧
      ∀ n, exec (.priorityAging k n) s = .next (s.setKernel k { v with waited := min (s.now - v.order) (v.waited + n) })) ∧
    (∀ l, v.st = .running → v.kind = 2 → s.cpWords v.ctx 3 v.recva = .inl l →
      (nth 0 l 0).toNat % 64 = 0 → (nth 0 l 1).toNat % 64 = 0 → (nth 0 l 2).toNat % 64 = 0 →
      (∀ t ts, v.copied < (nth 0 l 2).toNat / 64 →
        s.copyBlock v.ctx v.time (nth 0 l 0 + BitVec.ofNat 64 (64 * v.copied)) (nth 0 l 1 + BitVec.ofNat 64 (64 * v.copied)) = .inl (t, ts) →
        exec (.copyNodeComplete k) s = .next (t.setKernel k { v with copied := v.copied + 1, time := max v.time ts, posted := none })) ∧
      ((nth 0 l 2).toNat / 64 ≤ v.copied → exec (.copyNodeComplete k) s = .next (s.endNode k true 0)))

/-- The checks of a launch record in the order of 16_kernel.md R358 Table 1: the first it fails gives the code. -/
def Sys2Proof.Claims.LaunchRecordsAreChecked : Prop :=
  ∀ (r : LaunchRec) (c : Ctx) (p : PartReg) (rest : Bool),
    ((r.entry.toNat % 16 ≠ 0 ∨ inWindow c r.entry = false ∨ r.handler.toNat % 16 ≠ 0 ∨ r.param.toNat % 64 ≠ 0 ∨ r.done.toNat % 8 ≠ 0) →
      r.error c p rest = some 1) ∧
    (r.entry.toNat % 16 = 0 → inWindow c r.entry = true → r.handler.toNat % 16 = 0 → r.param.toNat % 64 = 0 → r.done.toNat % 8 = 0 →
      ((r.gsize = 0 ∨ 32 < r.gsize ∨ 16 < r.csize ∨ r.ngrp = 0 ∨ (r.csize ≠ 0 ∧ r.ngrp % r.csize ≠ 0)) → r.error c p rest = some 2) ∧
      (1 ≤ r.gsize → r.gsize ≤ 32 → r.csize ≤ 16 → r.ngrp ≠ 0 → (r.csize ≠ 0 → r.ngrp % r.csize = 0) →
        (4 ≤ r.prio → r.error c p rest = some 1) ∧
        (r.prio < 4 → 2 < r.role ∨ r.ngrp * r.gsize < r.kdcnt → r.error c p rest = some 2) ∧
        (r.prio < 4 → r.role ≤ 2 → r.kdcnt ≤ r.ngrp * r.gsize →
          (rest = false → r.error c p rest = some 1) ∧
          (rest = true → popcN 16 (p.roleMask r.role).toNat < r.csize → r.error c p rest = some 3) ∧
          (rest = true → r.csize ≤ popcN 16 (p.roleMask r.role).toNat → r.error c p rest = none))))

/-- Groups are placed for the kernel that comes first among those that fit; a formed group's members are loaded with the launch state of R54, and their first bundles released when the cohort is
whole; a group over retires, on a part that freezes too, its members leaving their barriers (16_kernel.md R364, R365; 17_group.md R376, R380). A kernel whose condition holds completes once its counter has taken the add, one told to
stop is aborted (16_kernel.md R361, R362). -/
def Sys2Proof.Claims.GroupsAndKernelsProgress : Prop :=
  ∀ (s : State) (k : Nat) (v : Kernel), s.kernel k = some v →
    (∀ l, s.placeable k v = true → (∀ w ∈ s.kernelList, triedBefore s.now w (k, v) = true → s.placeable w.1 w.2 = false) → s.fits k v = some l →
      exec (.groupPlace k) s = .next (s.placeKernel k v l)) ∧
    (∀ i g, s.group i = some g → g.k = k → g.st = .forming → v.st ≠ .aborted →
      let t := (g.members.zip (List.range g.members.length)).foldl (fun t e => t.setCore e.1 (t.launched e.1 g v (Group.memberOf i g v e.2))) s
      exec (.groupLoaded i) s = .next ((t.setGroup i { g with st := .coResident }).tryRelease i)) ∧
    (∀ i g, s.group i = some g → g.k = k → g.st = .running → (s.ctx g.ctx).part g.q = .running ∨ (s.ctx g.ctx).part g.q = .freezing →
      s.groupAborted g = false → s.groupOver i g false = true → (∀ c ∈ s.kvcommits, ¬ (c.ctx = g.ctx ∧ c.grp = i)) → s.ownedBy g.ctx i = [] →
      exec (.groupRetire i) s = .next (((g.members.foldl (fun s m => s.leaveBarriers m) s).retireGroup i g).freezeProgress g.ctx)) ∧
    (∀ t, v.owed = 0 → v.complete = true → s.cpAdd v.ctx v.time v.lrec.done 1 = .inl t → exec (.kernelComplete k) s = .next (t.endNode k true 0)) ∧
    (v.owed = 0 → v.st = .aborted → v.completed = false → exec (.kernelAbort k) s = .next (s.abortNode k 0))

/-- What a core holds when its group is loaded (02_core.md R54; 16_kernel.md R359): the record's entry, handler and parameter, the draw counter of its place, and nothing else of what it held before. -/
def Sys2Proof.Claims.LaunchSetsTheCore : Prop :=
  ∀ (c : Core) (x now : Nat) (r : LaunchRec) (m : Member),
    let d := c.launch x r m now
    d.run = .loaded ∧ d.ctx = x ∧ d.pc = r.entry ∧ d.hbase = BitVec.ofNat 44 (r.handler.toNat / 16) ∧ d.rngK = r.rkey ∧
    d.rngC = r.rctr + BitVec.ofNat 128 ((32 * m.gidx + m.midx) * 2 ^ 64) ∧ d.mem = m ∧
    d.getG 1 = r.param ∧ (∀ n, n ≠ 1 → d.getG n = 0) ∧ (∀ n, d.getA n = 0) ∧ (∀ n, n ≠ 0 → d.getP n = false) ∧ (∀ n, d.getB n = 0) ∧ (∀ n, d.getV n = 0) ∧
    d.pend = [] ∧ d.ifr = [] ∧ d.frames = [] ∧ d.reports = []

/-- REPLAY_BEGIN of a graph that does not run, with a request waiting, makes every node pending with its count of predecessors, latches the parameters, and queues what is due; REPLAY_END
of one whose nodes have all ended writes the status block and then adds to the counter (16_kernel.md R367, R368). An operation of a running collective with no dependency left
runs: those of the executor kernel once its cores have moved the payloads, its ranges giving permission X1, those of the link on a tree that is the context's (R369; 21_link.md R443). -/
def Sys2Proof.Claims.ReplaysAndChunksProgress : Prop :=
  ∀ (s : State),
    (∀ x g c r v, (s.ctx x).graph g = some v → v.running = false → (s.ctx x).st ≠ .dead → v.waiting = c :: r →
      let idx := List.range v.nodes.length
      let w := { v with running := true, counter := c, waiting := r, snap := v.gp, err := [], posted := none
                        st := idx.foldl (fun t i => Tbl.set .recorded t i .pending) []
                        cnt := idx.foldl (fun t i => Tbl.set 0 t i (v.node i).npred) [] }
      exec (.replayBegin x g) s = .next ((s.setGraph x g w).queueDue x g)) ∧
    (∀ x g v (pas : Nat → Nat) u, (s.ctx x).graph g = some v → v.running = true →
      let idx := List.range v.nodes.length
      (∀ i ∈ idx, v.nodeSt i = .completed ∨ v.nodeSt i = .aborted) →
      (∀ i ∈ idx, s.cpAt x (v.status + BitVec.ofNat 64 (4 * i)) permXW true = .go (pas i)) →
      let word (i : Nat) : Nat := (if v.nodeSt i = .completed then 5 else 6) + Tbl.get 0 v.err i * 2 ^ 8
      let t := idx.foldl (fun t i => t.engineStore (pas i) 4 (word i)) s
      t.cpAdd x t.latest v.counter (if ∀ i ∈ idx, v.nodeSt i = .completed then 1 else 1 + 2 ^ 32) = .inl u →
      exec (.replayEnd x g) s = .next (u.setGraph x g { v with running := false, st := [], cnt := [], posted := none })) ∧
    (∀ k j v o, s.kernel k = some v → v.chunks[j]? = some o → v.kind = 3 → v.st = .running → o.done = false → o.failed = false → o.dep = 0 →
      let ends := fun (u : State) => (u.setKernel k { v with posted := none }).chunkDone k j
      (∀ t u w e, 1 ≤ o.op → o.op ≤ 3 →
        (if o.op = 1 then s.x1Reaches v.ctx o.src false o.len else s.x1Reaches v.ctx o.dst true o.len) = .inl t →
        (if o.op = 3 then t.x1Reaches v.ctx o.dst false o.len else .inl t) = .inl u →
        u.executorOf k = some (w, e) → o.len ≤ Tbl.get 0 e.moves (32 * o.op + o.peer % 32) →
        let left := Tbl.set 0 e.moves (32 * o.op + o.peer % 32) (Tbl.get 0 e.moves (32 * o.op + o.peer % 32) - o.len)
        exec (.chunkOp k j) s = .next (ends (u.setKernel w { e with moves := left }))) ∧
      (3 < o.op → (s.tree o.peer).st = .allocated → (s.tree o.peer).ctx = v.ctx → (s.tree o.peer).ended = false → ∀ t ts,
        (o.op = 4 → s.linkSends (s.tree o.peer) o.peer v.ctx o.src o.len v.time = .inl (t, ts)) →
        (o.op ≠ 4 → s.linkUnits (s.tree o.peer) o.peer v.ctx o.src o.dst o.len v.time = .inl (t, ts)) →
        exec (.chunkOp k j) s = .next ((t.setKernel k { v with posted := none, time := max v.time ts }).chunkDone k j)) ∧
      (3 < o.op → (s.tree o.peer).st ≠ .allocated ∨ (s.tree o.peer).ctx ≠ v.ctx ∨ (s.tree o.peer).ended = true →
        exec (.chunkOp k j) s = .next (s.chunkFails k j v (s.tree o.peer) o.src)))

/-! ### Weights, generation, links, host -/

/-- A publish first locks its slot's lines, once the publishing core's writes are made, then copies its pages from the primary to every other replica at one time and flips the entry: the new slot is published under the new version, the old one free or
retiring (19_weight_versions.md R400). A reader whose reads are over leaves its slot, and its register is then free for what waits for it (R406). A repartition with no part left to freeze and none in a request ends (R410). -/
def Sys2Proof.Claims.VersionsFlipAndReadersLeave : Prop :=
  ∀ (s : State),
    (∀ x t p, s.pubs.find? (fun p => p.ctx = x && p.t = t && !p.done) = some p →
      let e := (s.ctx x).tensor t
      e.ver ≠ 0 →
      let c := s.coreOf p.ctx p.core
      (e.cmt = false → p.released c = true →
        exec (.publishCommit x t) s = .next (s.setTensor x t { e with cmt := true })) ∧
      (e.cmt = true → ∃ u, exec (.publishCommit x t) s = .next u ∧
        let f := (u.ctx x).tensor t
        let g := s.commitPages (max p.time (max c.clk c.wts)) (s.slotFrames x (e.slot e.other))
        u.mem = g.1.mem ∧ f.time = g.2 ∧ f.act = e.other ∧ f.ver = p.v ∧ f.pub = true ∧ f.cmt = false ∧ (e.act ≤ 1 → (f.slot e.other).st = .published) ∧
        (e.act ≤ 1 → (f.slot e.act).st = if (e.slot e.act).rc = 0 then .free else .retiring))) ∧
    (∀ j l, s.leaves[j]? = some l → l.done = false → s.readsDone l.ctx l.core l.seq = true →
      let t := s.slotLeft (s.coreOf l.ctx l.core).clk l.ctx l.t l.slot
      (l.reg = none → exec (.readerLeave j) s = .next { t with leaves := t.leaves.erase l }) ∧
      (∀ k, l.reg = some k → exec (.readerLeave j) s =
        .next ({ t with leaves := t.leaves.map (fun m => if m = l then { l with done := true } else m) }.unbind l.core k))) ∧
    (s.part.busy = true →
      (s.repartFreeze ≠ s → exec .repartitionComplete s = .next s.repartFreeze) ∧
      (s.repartFreeze = s → (∀ x ∈ s.ctxList, (s.ctx x).req = none ∨ s.repartParts x = []) →
        (∀ x ∈ s.ctxList, ∀ q ∈ s.repartParts x, (s.ctx x).part q = .frozen) →
        ∃ u, exec .repartitionComplete s = .next u ∧ u.part.busy = false ∧ u.part.lrn = s.part.lrnNew ∧ u.part.chg = s.part.chg ∧ u.part.hold = s.part.hold))

/-- The recorder grants a run of 16 slots while the ring has room, writes a record at its slot, and void records for slots given up (20_generation.md R416 to R418). A sampling block is registered and withdrawn (log entry 118); one whose OUT is
not 0 starts; its phase, when the logits are ready, loads them as its kiosk core, takes a token, stores it with its log-probability and arrives at token-ready (R420; 26_prog_actors.md R474). -/
def Sys2Proof.Claims.RecorderAndSamplingProgress : Prop :=
  ∀ (s : State),
    (∀ n r pa, (s.ctx (s.core n).ctx).ring = some r → (s.core n).slotReq = true → (s.core n).nleft = 0 → s.ringAt (s.core n).ctx r.base true = .go pa →
      let g := s.rd (pa + 8) 8
      let get := if g ≤ r.grant then g else r.get
      r.grant + 16 - get ≤ r.cap →
      exec (.slotRunGrant n) s =
        .next (((s.engineStore pa 8 (r.grant + 16)).setRing (s.core n).ctx { r with grant := r.grant + 16, get := get, posted := none }).upd n
          (fun c => { c with nslot := r.grant, nleft := 16, slotReq := false }))) ∧
    (∀ n k e r pa, s.working n k = some e → e.kind = 11 → (s.ctx (s.core n).ctx).ring = some r → s.ringAt (s.core n).ctx (r.slotVa (e.field 0 8)) true = .go pa →
      e.posted = none →
      let u := (s.asyncStore n k 0 pa 32 (e.opnd.toNat / 2 ^ 64 % 2 ^ 256)).putTag pa 0
      exec (.trrRecordWrite n k) s = .next ((u.freeCommand n k).entrySent n k (s.entryHome n e))) ∧
    (∀ j v r pa ha, s.voids[j]? = some v → (s.ctx v.ctx).ring = some r → s.ringAt v.ctx (r.slotVa v.first) true = .go pa → s.ringAt v.ctx r.base true = .go ha →
      poisoned (s.tagOf pa) = false →
      let t := ((s.recordStore pa (trajRecord 0 0 0 0 0 8 v.core v.first)).engineStore (ha + 24) 8 (r.voids + 1)).setRing v.ctx { r with voids := r.voids + 1 }
      exec (.voidRecordWrite j) s =
        .next { t with voids := if v.count ≤ 1 then s.voids.eraseIdx j
                                else setNth s.voids j { v with first := v.first + 1, count := v.count - 1, posted := none } }) ∧
    (∀ j b d tag r, s.samples[j]? = some b → b.active = false → s.sampleRead b = .inl ((d, tag), r) → poisoned tag = false →
      (outVa d = 0 → exec (.samplingPoll (.poll j)) s = .next (r.setSample j { b with posted := none })) ∧
      (outVa d ≠ 0 → exec (.samplingPoll (.poll j)) s = .next (r.setSample j { b with
        active := true, posted := none, t := 0, lrb := BitVec.ofNat 32 (d.toNat / 2 ^ 160), trb := BitVec.ofNat 32 (d.toNat / 2 ^ 192) }))) ∧
    (∀ x addr k, (s.ctx x).st ≠ .free → addr.toNat % 64 = 0 → 4 ≤ k → k ≤ 11 → exec (.samplingPoll (.register x addr k)) s =
      .next { s with samples := s.samples ++ [⟨x, addr, k, false, 0, 0, 0, none⟩] }) ∧
    (∀ j, j < s.samples.length → exec (.samplingPoll (.withdraw j)) s = .next { s with samples := s.samples.eraseIdx j }) ∧
    (∀ j b d tag n w r, s.samples[j]? = some b → b.active = true → s.sampleRead b = .inl ((d, tag), r) → poisoned tag = false →
      r.handleBar b.lrb.toNat = .bar n → (r.bar n).result b.t = some w →
      (∀ l a pa t, w = 0 → sampleOk d.toNat = true →
        let f (off n : Nat) : Nat := d.toNat / 2 ^ (8 * off) % 2 ^ (8 * n)
        (r.acquire (512 + b.kiosk) (r.bar n).time).kioskBlocks b ((f 8 4 + 15) / 16) (BitVec.ofNat 64 (f 0 8)) = .inl (l, a) → (∀ x ∈ l, poisoned x.2 = false) →
        a.kioskAt b (outVa d) permSS true = .go pa →
        let logits := (List.range (f 8 4)).map (fun j => Fmt.f32.val (blocksVal l / 2 ^ (32 * j) % 2 ^ 32))
        let z := pickToken logits (f 12 1) (f 14 2) (Config.freeValue a.fresh) (Config.freeValue (a.fresh + 1)) (Config.freeValue (a.fresh + 2))
        let e : State := { a with fresh := a.fresh + 3 }
        (e.coreStore (512 + b.kiosk) pa 8 (e.ringValue b.ctx (outVa d) pa 8 (z.1 + z.2.toNat * 2 ^ 32))).tokenReady b z.1 = some t →
        exec (.samplingPhase j) s = .next (t.setSample j { b with t := b.t + 1, posted := none })) ∧
      (w ≠ 0 → exec (.samplingPhase j) s = .next (r.sampleEnd j b)))

/-- A commit copies its next block; when its group has no copy to come its destinations become plain as one store, and then its counter gains 1, which alone waits for its page (20_generation.md R425, R426). The Sweeper reads the identity of a posted job once, accepts a job whose JID rises, discards a repeat, dispatches the oldest
not yet dispatched, and ends a job with its kernel: entries still pending become plain, on an abort poisoned first, and then DONE gains its count (R428, R429). -/
def Sys2Proof.Claims.CommitsAndJobsProgress : Prop :=
  ∀ (s : State),
    (∀ j (c d : KvCommit) a b p q, s.kvcommits[j]? = some c → d = c.skip (entryBytes (s.ctx c.ctx)) c.pairs.length → d.pairs[d.idx]? = some (a, b) →
      s.placeAt d.ctx (s.svUnit d.ctx) (some d.grp) (BitVec.ofNat 64 (kvAddr (s.ctx d.ctx) a + d.prog)) permXR false = .go p →
      s.placeAt d.ctx (s.svUnit d.ctx) (some d.grp) (BitVec.ofNat 64 (kvAddr (s.ctx d.ctx) b + d.prog)) permXW true = .go q → d.ctx = c.ctx →
      exec (.kvCompactionCopy j) s =
        .next { (s.blockWrite d.ts q (s.rdBlock p) (s.tagOf p)).1 with
          kvcommits := setNth s.kvcommits j { d with prog := d.prog + 64, posted := none, ts := (s.blockWrite d.ts q (s.rdBlock p) (s.tagOf p)).2 } }) ∧
    (∀ j (c : KvCommit), s.kvcommits[j]? = some c → s.copiesDone c = true →
      let u := if c.marked = true then s else s.commitMarks j c
      (∀ t, u.unitAdd c.ctx permXW c.cca 1 = .inl t → exec (.kvCommitPoint j) s = .next { t with kvcommits := t.kvcommits.eraseIdx j }) ∧
      (∀ e, c.marked = false → u.unitAdd c.ctx permXW c.cca 1 = .inr e → exec (.kvCommitPoint j) s = .next u)) ∧
    (∀ j (c : KvCommit) a b l, c.pairs = (a, b) :: l →
      let u := s.updCtx c.ctx (fun x => { x with marks := c.pairs.foldl (fun t p => Tbl.set .plain t p.2 .plain) x.marks })
      s.commitMarks j c = { (u.markStore c.ctx (pageOf (BitVec.ofNat 64 (kvAddr (s.ctx c.ctx) b))) s.latest).1 with
        kvcommits := setNth (u.markStore c.ctx (pageOf (BitVec.ofNat 64 (kvAddr (s.ctx c.ctx) b))) s.latest).1.kvcommits j { c with marked := true } }) ∧
    (∀ n k e pa, s.working n k = some e → e.kind = 12 → e.rpl = false → e.posted = none →
      let x := (s.core n).ctx
      let va : W64 := BitVec.ofNat 64 (e.field 0 8)
      let jid : W64 := BitVec.ofNat 64 (e.field 8 8)
      let b := s.rd pa 64
      let sent := fun (u : State) => u.entrySent n k (s.entryHome n e)
      s.placeAt x (s.svUnit x) (s.grpOf n) va permBF false = .go pa → poisoned (s.tagOf pa) = false →
      (e.started = false → exec (.sweeperJobAccept n k) s = .next (sent (s.updEntry n k (fun e => { e with
        started := true
        opnd := BitVec.ofNat 512 (va.toNat + b % 2 ^ 64 * 2 ^ 64) })))) ∧
      (∀ h, e.started = true → s.sweeper.hi x n = some h → jid.toNat ≤ h.toNat → exec (.sweeperJobAccept n k) s = .next (sent (s.freeCommand n k))) ∧
      (e.started = true → (∀ h, s.sweeper.hi x n = some h → h.toNat < jid.toNat) → jobOk (s.ctx x) b = true → s.sweeper.jobs.length < 4096 →
        let w (off : Nat) : W64 := BitVec.ofNat 64 (b / 2 ^ (8 * off))
        let job : Job := ⟨x, n, jid, va, w 8, b / 2 ^ 128 % 2 ^ 32, b / 2 ^ 160 % 2 ^ 32, w 24, none, none, false⟩
        let sw : Sweeper := ⟨s.sweeper.jobs ++ [job], ((x, n), jid) :: s.sweeper.hiJid.filter (fun h => h.1 ≠ (x, n))⟩
        exec (.sweeperJobAccept n k) s = .next (sent (({ s with sweeper := sw } : State).freeCommand n k)))) ∧
    (∀ j l, s.sweeper.jobs = j :: l → j.kernel = none →
      exec .sweeperDispatch s = .next ((s.setJob 0 { j with kernel := some s.nextKernel }).addKernel
        { Kernel.new j.ctx 1 none j.lrec s.now 0 with job := some j.addr.toNat })) ∧
    (∀ i j k v, s.sweeper.jobs[i]? = some j → j.kernel = some k → s.kernel k = some v → v.st = .completed →
      let u := if j.marked = true then s else (s.markPlain j.ctx (j.pending (s.ctx j.ctx))).setJob i { j with marked := true }
      (∀ t, u.unitAdd j.ctx permBF j.done 1 = .inl t → exec (.sweeperJobComplete i) s = .next (t.dropJob i)) ∧
      (∀ e, j.marked = false → u.unitAdd j.ctx permBF j.done 1 = .inr e → exec (.sweeperJobComplete i) s = .next u)) ∧
    (∀ i j k v, s.sweeper.jobs[i]? = some j → j.kernel = some k → s.kernel k = some v → v.st = .aborted →
      (∀ t, j.marked = true → s.unitAdd j.ctx permBF j.done (1 + 2 ^ 32) = .inl t → exec (.sweeperJobAbort i) s = .next (t.dropJob i)) ∧
      (∀ p, j.marked = false → s.poisonEntries j.ctx (j.pending (s.ctx j.ctx)) = .inl p →
        let u := (p.markPlain j.ctx (j.pending (s.ctx j.ctx))).setJob i { j with marked := true }
        (∀ t, u.unitAdd j.ctx permBF j.done (1 + 2 ^ 32) = .inl t → exec (.sweeperJobAbort i) s = .next (t.dropJob i)) ∧
        (∀ e, u.unitAdd j.ctx permBF j.done (1 + 2 ^ 32) = .inr e → exec (.sweeperJobAbort i) s = .next u)))

/-- The events of a link port (21_link.md R436 to R440): enabling a port that is down starts training, which ends up, degraded or down with RETRY one higher; a port that works retrains on request
or when more than 16 of the last 2^20 flits were sent again; disabling and 2^20 cycles without an acknowledgement take it down. A flit with a bad CRC or out of order is not delivered, one asked for again is counted in RTX and
sent from the port's copy, an acknowledgement drops the copies it covers; a good bulk block is written at its home no earlier than those before it; a read of the status clears RTX. -/
def Sys2Proof.Claims.PortEventsArise : Prop :=
  ∀ (s : State) (p : Nat), p < 24 →
    let v := s.port p
    let fresh := fun (st : PortSt) => { v with st := st, peer := 0, rxSeq := [], txSeq := [], credits := [], out := [], unacked := [], again := [], ackAt := s.now }
    let down := (if v.st = .up ∨ v.st = .degraded then s.endTrees p else s).setPort p (fresh .down)
    (v.st = .down → exec (.portEnable p) s = .next (s.setPort p { fresh .training with en := true })) ∧
    (v.st ≠ .down → exec (.portEnable p) s = .next (s.setPort p { v with en := true })) ∧
    exec (.portDisable p) s = .next (down.setPort p { down.port p with en := false }) ∧
    (v.st = .down ∨ v.ackAt + 2 ^ 20 ≤ s.now → exec (.peerLost p) s = .next down) ∧
    ((v.st = .up ∨ v.st = .degraded) →
      exec (.portRetrain p) s = .next ((s.endTrees p).setPort p (fresh .training)) ∧
      (16 < (v.again.filter (fun k => decide (v.flits < k + 2 ^ 20))).length →
        exec (.errorRateExceeded p) s = .next ((s.endTrees p).setPort p (fresh .training)))) ∧
    (∀ q, v.st = .training →
      exec (.trainingUp p q) s = .next (s.setPort p { fresh .up with peer := BitVec.ofNat 32 q }) ∧
      exec (.trainingDegraded p q) s = .next (s.setPort p { fresh .degraded with peer := BitVec.ofNat 32 q }) ∧
      exec (.trainingFails p) s = .next (s.setPort p { fresh .down with retry := min (v.retry + 1) 0xFFFF })) ∧
    ((v.st = .up ∨ v.st = .degraded) → (v.again.filter (fun k => decide (v.flits < k + 2 ^ 20))).length ≤ 16 →
      (∀ f : Flit, f.vc < 4 →
        (f.crc ≠ Config.flitCrc f.vc f.num f.seq f.data ∨ f.seq ≠ Tbl.get 0 v.rxSeq f.vc → exec (.flitReceive p f.vc f.ctx f.va f.data f.tag (.arrives f.num f.seq f.crc f.rel)) s = .next s) ∧
        (∀ pa, f.crc = Config.flitCrc f.vc f.num f.seq f.data → f.seq = Tbl.get 0 v.rxSeq f.vc → f.vc = 3 → f.va.toNat % 64 = 0 →
          let t := s.setPort p { v with rxSeq := Tbl.set 0 v.rxSeq 3 (f.seq + 1) }
          t.placeAt f.ctx (t.svUnit f.ctx) none f.va permLK true = .go pa →
          let w := t.writeTime (if f.rel = true then t.latest else (t.port p).rxTime) (globalLine pa)
          let u := w.1.putBlock pa f.data f.tag
          exec (.flitReceive p f.vc f.ctx f.va f.data f.tag (.arrives f.num f.seq f.crc f.rel)) s = .next (u.setPort p { u.port p with rxTime := w.2 }))) ∧
      (∀ w c x va d tag, v.send = some w → exec (.flitReceive p c x va d tag .leaves) s = .next (s.setPort p w)) ∧
      (∀ c q x va d tag, exec (.flitReceive p c x va d tag (.acked q)) s =
        .next (s.setPort p { v with unacked := v.unacked.filter (fun f => f.vc ≠ c || decide (2 ^ 31 ≤ (q - f.seq).toNat)), ackAt := s.now })) ∧
      (∀ c q x va d tag, v.unacked.any (fun f => f.vc = c && f.seq = q) = true → exec (.flitReceive p c x va d tag (.again q)) s = .next (s.setPort p
        { v with rtx := v.rtx + 1, flits := v.flits + 1, again := v.flits :: v.again.filter (fun k => v.flits < k + 2 ^ 20) })) ∧
      (∀ c n x va d tag, c < 4 → exec (.flitReceive p c x va d tag (.credit n)) s = .next (s.setPort p { v with credits := Tbl.set 0 v.credits c (Tbl.get 0 v.credits c + n) }))) ∧
    exec (.portStatusRead p) s = .next (s.setPort p { v with rtx := 0 })

/-- A free tree slot is reserved for a peer's tree, which is granted it, or refused a slot that is taken; the lowest slot free on every device is reserved for the oldest LKTREE here without one, and the other devices are asked
for it. Its answer allocates it, or frees it and tells them, and reaches the bundle that waits with the result word of R445 (21_link.md R442 to R445). -/
def Sys2Proof.Claims.TreeReservationsAreAnswered : Prop :=
  ∀ (s : State) (k : Nat), k < 64 →
    (∀ p x m f es, p < 24 → (s.port p).st.works = true →
      ((s.treeAt k).st = .free → exec (.treeReserve k (.peer p) x m f es) s =
        .next ((s.setTree k ⟨.reserved, x, m, f, es.map (fun b => TreeEntry.ofBits b.toNat), false, false⟩).sendControl p .grant k)) ∧
      ((s.treeAt k).st ≠ .free → exec (.treeReserve k (.peer p) x m f es) s = .next (s.sendControl p .refuse k))) ∧
    (∀ o x m f es r l, s.treeReqs = r :: l → r.slot = none → s.lowestFree o = some k →
      exec (.treeReserve k (.here o) x m f es) s =
        .next (({ s with treeReqs := { r with slot := some k } :: l }.setTree k { r.tree with st := .reserved }).tellTree r.tree k .reserve)) ∧
    (∀ r l, s.treeReqs = r :: l → r.slot = some k → r.wanted = true → (s.tree k).st = .reserved → s.portShut (s.tree k).ents 0 (s.tree k).ents = none →
      let a := (s.setTree k .free).tellTree (s.tree k) k .release
      exec (.treeReserveAnswer k 0 0) s = .next ({ { s.setTree k { s.tree k with st := .allocated } with treeReqs := l } with
        answers := Tbl.set none s.answers r.key (some (BitVec.ofNat 64 k)) }) ∧
      exec (.treeReserveAnswer k 3 0) s = .next { a with treeReqs := l, answers := Tbl.set none a.answers r.key (some (BitVec.ofNat 64 (3 * 2 ^ 8))) })

/-- The host writes commands into its ring and CPUT hands them over; the writable fields of the register page take their values and the others ignore it, and a read of a write-only field returns zero; the bases' bits 11:0 and the offset of a function's quota are the model's choice (log entries 100 and 37); a host access by physical address
to a named frame reads or writes there (21_link.md R447, R448; 22_reliability.md R458). A stream sends its blocks in order and ends with its completion, or with the offset at which a fault or a loss stopped it (R446). -/
def Sys2Proof.Claims.HostPortEventsArise : Prop :=
  ∀ (s : State) (f : Nat), f < 16 →
    let v := s.fn f
    (∀ put cs, s.root.fail = false → cs.length = (put + 2 ^ 32 - v.cput.toNat) % 2 ^ 32 → cs.length ≤ v.qent.toNat →
      exec (.hostDoorbell f put cs) s = .next ({ s with hostMem := v.ringWrite v.cput.toNat cs s.hostMem }.setFn f { v with cput := BitVec.ofNat 32 put })) ∧
    (∀ x : BitVec 256, s.root.fail = false →
      exec (.hostRegWrite f 0x000 x) s = .next (s.setFn f { v with cqbase := BitVec.ofNat 64 (bits x.toNat 63 12 * 2 ^ 12) }) ∧
      exec (.hostRegWrite f 0x008 x) s = .next (s.setFn f { v with rqbase := BitVec.ofNat 64 (bits x.toNat 63 12 * 2 ^ 12) }) ∧
      exec (.hostRegWrite f 0x010 x) s = .next (s.setFn f { v with qent := x.setWidth 16 }) ∧
      exec (.hostRegWrite f 0x020 x) s = .next (s.setFn f { v with rget := x.setWidth 32 }) ∧
      exec (.hostRegWrite f 0x01C x) s = .next s ∧
      (f = 0 → exec (.hostRegWrite f 0x128 x) s = .next { s with root := { s.root with adst := BitVec.ofNat 64 (bits x.toNat 63 12 * 2 ^ 12) } }) ∧
      (f ≠ 0 → ∀ off, 0x100 ≤ off → off < 4096 → off ≠ 0x120 → exec (.hostRegWrite f off x) s = .next s ∧ s.hostRegRead f off = 0) ∧
      s.hostRegRead f 0x018 = 0 ∧ s.hostRegRead f 0x01C = v.rput.toNat ∧ s.hostRegRead f 0x120 = 0 ∧
      (f = 0 → exec (.hostRegWrite f 0x100 x) s = .next { s with root := { s.root with anonce := x } })) ∧
    (∀ k (x : BitVec 256), 1 ≤ k → k < 16 → exec (.hostRegWrite 0 (4096 + 8 * k) x) s = .next (s.setFn k { s.fn k with quota := x.toNat })) ∧
    (∀ a (d : List (BitVec 8)), s.root.ready = true → d ≠ [] → a / 2 ^ 22 = (a + d.length - 1) / 2 ^ 22 → frameNamed (a / 2 ^ 22) = true →
      exec (.hostMemoryAccess f a false d) s = .next { s with hostData := (List.range d.length).map (fun j => BitVec.ofNat 8 (s.rd (a + j) 1)) } ∧
      exec (.hostMemoryAccess f a true d) s = .next (s.hostWrite a d)) ∧
    (∀ i t c, s.streams[i]? = some t → (s.fn t.fn).busy = some c →
      let u : State := { s with streams := s.streams.eraseIdx i }
      (∀ pa p ps off, t.lost = false → t.step < t.total → (t.seals && s.sending t) = false → s.streamFrom t = .go pa → s.streamPorts t.peer = p :: ps →
        exec (.streamEnd i 0 off) s = .next (s.streamSend i t pa (nth p (p :: ps) (t.step % (ps.length + 1))))) ∧
      (∀ off, t.lost = false → t.total ≤ t.step → s.sending t = false → exec (.streamEnd i 0 off) s = .next (u.complete t.fn c 0 0)) ∧
      (∀ off, s.streamStops t = true → off ≤ min t.bytes (64 * t.step) → exec (.streamEnd i 7 off) s = .next (s.streamLost t off)))

/-- A command of the host is next to be taken: the device is ready, no command of its function is at work, it heads the ring, and the completion ring has room (21_link.md R447, R448). -/
def Sys2Proof.Claims.next (s : State) (f : Nat) (cmd : BitVec 512) : Prop :=
  f < 16 ∧ s.root.ready = true ∧ (s.fn f).busy = none ∧ s.nextCmd f = some cmd ∧ ((s.fn f).rput - (s.fn f).rget).toNat < (s.fn f).qent.toNat

/-- The state in which a command has been taken from its ring and completed with a status. -/
def Sys2Proof.Claims.completed (s : State) (f : Nat) (cmd : BitVec 512) (status : Nat) : State :=
  (s.setFn f { s.fn f with taken := (s.fn f).taken + 1 }).complete f cmd status 0

/-- The state in which a command has been taken and goes on. -/
def Sys2Proof.Claims.goingOn (s : State) (f : Nat) (cmd : BitVec 512) : State :=
  let t := s.setFn f { s.fn f with taken := (s.fn f).taken + 1 }
  t.setFn f { t.fn f with busy := some cmd }

/-- The rows of host commands that name a context, with their opcodes (21_link.md R448 Table 8). -/
def Sys2Proof.Claims.hostRows : List ((Nat → BitVec 512 → Instr) × Nat) :=
  [(.destroy, 2), (.wvdef, 3), (.wvrem, 4), (.ring, 5), (.qcreate, 6), (.graphrec, 7), (.replay, 8), (.launch, 9), (.stream, 10)]

/-- A command on a context that does not exist completes with status 2, one of a virtual function that did not create the context with status 3 (21_link.md R447, R448). CREATE of a free context with a
well-formed descriptor goes on with the context loading; a malformed one completes with status 1, a virtual function's privileged one with 3, one beyond its quota with 5. -/
def Sys2Proof.Claims.HostCommandsAreChecked : Prop :=
  ∀ (s : State) (f : Nat) (cmd : BitVec 512), Sys2Proof.Claims.next s f cmd →
    (∀ e ∈ Sys2Proof.Claims.hostRows, cmdOpc cmd = e.2 →
      ((64 ≤ cmdCtx cmd ∨ (s.ctx (cmdCtx cmd)).st = .free) → exec (e.1 f cmd) s = .next (Sys2Proof.Claims.completed s f cmd 2)) ∧
      (cmdCtx cmd < 64 → (s.ctx (cmdCtx cmd)).st ≠ .free → f ≠ 0 → (s.ctx (cmdCtx cmd)).creator ≠ f →
        exec (e.1 f cmd) s = .next (Sys2Proof.Claims.completed s f cmd 3))) ∧
    (cmdOpc cmd = 1 → cmdCtx cmd < 64 → createOk cmd = true → f = 0 → (s.ctx (cmdCtx cmd)).st = .free →
      exec (.create f cmd) s = .next (Sys2Proof.Claims.goingOn (s.setCtx (cmdCtx cmd) (ctxOfCmd f cmd)) f cmd)) ∧
    (cmdOpc cmd = 1 → cmdCtx cmd < 64 → createOk cmd = true → f ≠ 0 →
      ((ctxOfCmd f cmd).priv = true → exec (.create f cmd) s = .next (Sys2Proof.Claims.completed s f cmd 3)) ∧
      ((ctxOfCmd f cmd).priv = false → (s.ctx (cmdCtx cmd)).st = .free →
        let made := (s.ctxs.filter (fun c => decide (c.2.creator = f) && decide (c.2.st ≠ .free))).length
        ((s.fn f).quota ≤ made → exec (.create f cmd) s = .next (Sys2Proof.Claims.completed s f cmd 5)) ∧
        (made < (s.fn f).quota → exec (.create f cmd) s = .next (Sys2Proof.Claims.goingOn (s.setCtx (cmdCtx cmd) (ctxOfCmd f cmd)) f cmd)))) ∧
    (cmdOpc cmd = 1 → (64 ≤ cmdCtx cmd ∨ createOk cmd = false) → exec (.create f cmd) s = .next (Sys2Proof.Claims.completed s f cmd 1)) ∧
    ((cmdOpc cmd = 0 ∨ 0x0A < cmdOpc cmd) → exec (.create f cmd) s = .next (Sys2Proof.Claims.completed s f cmd 1))

/-- DESTROY, WVDEF, WVREM, RING, QCREATE, GRAPHREC, REPLAY, LAUNCH and STREAM complete or go on, whatever their operands and the state, where none of the checks that the spec gives them bars them
(21_link.md R446, R448; 12_context.md R300; 15_queue.md R346; 16_kernel.md R366, R367; 19_weight_versions.md R397; 20_generation.md R416). The order of the operands is the model's (log
entry 35), and that waiting launches count toward the limit of four replays is its reading (log entry 98). -/
def Obligations.HostCommandsTakeEffect : Prop :=
  ∀ (s : State) (f : Nat) (cmd : BitVec 512), Sys2Proof.Claims.next s f cmd →
    let x := cmdCtx cmd
    let c := s.ctx x
    let w (j : Nat) : W64 := cmdWord cmd j
    let works : Prop := c.st = .ready ∨ c.st = .active
    let done := fun (t : State) => Sys2Proof.Claims.completed t f cmd 0
    x < 64 → c.st ≠ .free → (f = 0 ∨ c.creator = f) →
    (cmdOpc cmd = 2 → c.st ≠ .dead →
      exec (.destroy f cmd) s = .next (Sys2Proof.Claims.goingOn ((if c.st = .loading then s.completeFor x 1 6 else s).discard x) f cmd)) ∧
    (cmdOpc cmd = 3 → works →
      let n := (w 3).toNat
      let ps := rangePages (w 1) n ++ rangePages (w 2) n
      (w 0).toNat < 4096 → 1 ≤ n → n ≤ 4096 → rangeIn c (w 1) n = true → rangeIn c (w 2) n = true → rangesApart (w 1) n (w 2) n = true →
      (c.tensor (w 0).toNat).ver = 0 →
      (∀ e ∈ c.wvt, e.2.ver ≠ 0 → ∀ b, b = w 1 ∨ b = w 2 →
        rangesApart b n e.2.s0.base e.2.s0.npg = true ∧ rangesApart b n e.2.s1.base e.2.s1.npg = true) →
      (∀ o ∈ s.pgops, o.ctx = x → o.page ∈ ps → o.phase = pgDone) →
      (∀ p ∈ ps, peState (s.master x p) = 1 ∧ frameNamed (pePfn (s.master x p)) = true ∧ homeOf (pePfn (s.master x p) * 2 ^ 22) < 12) →
      let e : WvEntry := ⟨1, 0, false, false, ⟨w 1, n, .published, 0⟩, ⟨w 2, n, .free, 0⟩, 0, 0⟩
      exec (.wvdef f cmd) s = .next (done ((ps.foldl (fun s p => s.lockPage x p) s).setTensor x (w 0).toNat e))) ∧
    (cmdOpc cmd = 4 →
      let e := c.tensor (w 0).toNat
      (w 0).toNat < 4096 → e.ver ≠ 0 → e.s0.rc = 0 → e.s1.rc = 0 → e.cmt = false →
      let ps := rangePages e.s0.base e.s0.npg ++ rangePages e.s1.base e.s1.npg
      exec (.wvrem f cmd) s = .next (done ((ps.foldl (fun s p => s.unlockPage x p) s).setTensor x (w 0).toNat .none))) ∧
    (∀ pa, cmdOpc cmd = 5 → works → (w 0).toNat % 2 ^ 22 = 0 → powerIn (w 1).toNat 6 24 = true → bytesIn c (w 0) (64 + 32 * (w 1).toNat) = true →
      (c.ring = none ∨ ((∀ v ∈ s.voids, v.ctx ≠ x) ∧ ∀ d ∈ s.cores, d.2.ctx = x →
        d.2.run ≠ .running ∧ d.2.run ≠ .stopped ∧ d.2.run ≠ .loaded ∧ ∀ e ∈ d.2.ifr, e.2.kind ≠ 11)) →
      s.ringAt x (w 0) true = .go pa →
      let t := (((s.engineStore pa 8 0).engineStore (pa + 8) 8 0).engineStore (pa + 16) 4 (w 1).toNat).engineStore (pa + 24) 8 0
      exec (.ring f cmd) s = .next (done (t.setRing x ⟨w 0, (w 1).toNat, 0, 0, 0, none⟩))) ∧
    (cmdOpc cmd = 6 → works → (w 0).toNat < 64 → (w 1).toNat % 64 = 0 → powerIn (w 2).toNat 1 16 = true →
      bytesIn c (w 1) (64 + 64 * (w 2).toNat) = true → Tbl.get none c.queues (w 0).toNat = none →
      let q : Queue := ⟨w 1, (w 2).toNat, 0, 0, .open, [], [], [], []⟩
      exec (.qcreate f cmd) s = .next (done (s.updCtx x (fun c => { c with queues := Tbl.set none c.queues (w 0).toNat (some q) })))) ∧
    (∀ l, cmdOpc cmd = 7 → works → (w 0).toNat < 64 → (w 2).toNat ≤ 1024 → (w 1).toNat % 64 = 0 → (w 3).toNat % 4 = 0 →
      (∀ v, c.graph (w 0).toNat = some v → v.running = false ∧ v.waiting = []) →
      s.readNodes x (w 2).toNat (w 1) = .inl l → l.all (nodeOk (w 2).toNat) = true → graphOk (l.map Node.ofBits) = true →
      exec (.graphrec f cmd) s = .next (done (s.setGraph x (w 0).toNat ⟨l.map Node.ofBits, [], w 3, false, 0, [], [], [], [], [], none⟩))) ∧
    (∀ v, cmdOpc cmd = 8 → works → (w 0).toNat < 64 → (w 1).toNat % 8 = 0 → c.graph (w 0).toNat = some v → s.replaysWaiting x < 4 →
      exec (.replay f cmd) s = .next (done (s.setGraph x (w 0).toNat { v with waiting := v.waiting ++ [w 1] }))) ∧
    (cmdOpc cmd = 9 → works → (w 1).toNat % 8 = 0 → s.replaysWaiting x < 4 →
      exec (.launch f cmd) s = .next (done (s.addKernel (Kernel.new x 1 none (w 0) s.now (w 1))))) ∧
    (cmdOpc cmd = 10 → works →
      let n := (w 3).toNat
      let src := if w 4 = 0 then c.savva else w 5
      (w 0).toNat < 2 ^ 32 → (w 1).toNat < 64 → (w 2).toNat % 64 = 0 → n ≠ 0 → n % 64 = 0 → bytesIn c src n = true →
      ((w 4 = 1 ∧ n % 2 ^ 22 = 0 ∧ src.toNat % 2 ^ 22 = 0) ∨
        (w 4 = 0 ∧ n ≤ c.savsz.toNat ∧ ∀ pa, s.placeAt x (s.svUnit x) none src permSV false = .go pa → s.rd pa 4 = 0x00010001)) →
      exec (.stream f cmd) s = .next (Sys2Proof.Claims.goingOn
        { s with streams := s.streams ++ [⟨f, x, (w 4).toNat, n, src, BitVec.ofNat 32 (w 0).toNat, (w 1).toNat, w 2, 0, false⟩] } f cmd))

/-- `ContextRequestsEnd` and `ContextLoadsAndShootdowns`, both. -/
def Obligations.ContextRequestsLoadsAndShootdowns : Prop :=
  Sys2Proof.Claims.ContextRequestsEnd ∧ Sys2Proof.Claims.ContextLoadsAndShootdowns

/-- `LaunchRecordsAreChecked` and `NodesStart`, both. -/
def Obligations.LaunchRecordsAndNodes : Prop :=
  Sys2Proof.Claims.LaunchRecordsAreChecked ∧ Sys2Proof.Claims.NodesStart

/-- `LaunchSetsTheCore` and `GroupsAndKernelsProgress`, both. -/
def Obligations.GroupsKernelsAndLaunchState : Prop :=
  Sys2Proof.Claims.LaunchSetsTheCore ∧ Sys2Proof.Claims.GroupsAndKernelsProgress

/-- `ReplaysAndChunksProgress` and `VersionsFlipAndReadersLeave`, both. -/
def Obligations.ReplaysChunksVersionsAndReaders : Prop :=
  Sys2Proof.Claims.ReplaysAndChunksProgress ∧ Sys2Proof.Claims.VersionsFlipAndReadersLeave

/-- `RecorderAndSamplingProgress` and `CommitsAndJobsProgress`, both. -/
def Obligations.RecorderSamplingCommitsAndJobs : Prop :=
  Sys2Proof.Claims.RecorderAndSamplingProgress ∧ Sys2Proof.Claims.CommitsAndJobsProgress

/-- `PortEventsArise` and `TreeReservationsAreAnswered`, both. -/
def Obligations.PortsAndTreeReservations : Prop :=
  Sys2Proof.Claims.PortEventsArise ∧ Sys2Proof.Claims.TreeReservationsAreAnswered

/-- `HostPortEventsArise` and `HostCommandsAreChecked`, both. -/
def Obligations.HostPortAndCommandChecks : Prop :=
  Sys2Proof.Claims.HostPortEventsArise ∧ Sys2Proof.Claims.HostCommandsAreChecked

/-! ### Sources, results and the end of a bundle -/

/-- A source reads its register as it stands before the bundle, `:h` captures it as well, a latch source reads latch r mod 4 of the unit
and a held source the value captured at its position; where they are valid nothing else changes. A v register of a lent bank is an access
violation (02_core.md R36, R48, R51; 04_encoding.md R106). An operation of two sources reads both, the first at position 0. -/
def Obligations.SourcesAreReadByTheirMode : Prop :=
  (∀ (i : SlotInstr) (s : State) (pos r : Nat) (f : RegFile),
    (f ≠ .v ∨ s.pre.isLent (s.pre.physV r) = false →
      (i.opening s).source pos .reg f r = .ok (s.pre.named f r, i.opening s) ∧
      ∃ j, (i.opening s).source pos .capture f r = .ok (s.pre.named f r, j) ∧ i.onlyRead s j ∧
        Tbl.get 0 j.core.held (3 * i.unit.idx + pos) = s.pre.named f r ∧
        (3 * i.unit.idx + pos < 18 → j.core.holdv.getLsbD (3 * i.unit.idx + pos) = true) ∧
        (∀ h, h ≠ 3 * i.unit.idx + pos → Tbl.get 0 j.core.held h = Tbl.get 0 s.pre.held h ∧
          j.core.holdv.getLsbD h = s.pre.holdv.getLsbD h)) ∧
    (s.pre.isLent (s.pre.physV r) = true →
      (i.opening s).source pos .reg .v r = .error (.trap 5 0) ∧ (i.opening s).source pos .capture .v r = .error (.trap 5 0)) ∧
    (s.pre.latv.getLsbD (4 * i.unit.idx + r % 4) = true →
      (i.opening s).source pos .latch f r = .ok (Tbl.get 0 s.pre.latches (4 * i.unit.idx + r % 4), i.opening s)) ∧
    (s.pre.holdv.getLsbD (3 * i.unit.idx + pos) = true →
      (i.opening s).source pos .held f r = .ok (Tbl.get 0 s.pre.held (3 * i.unit.idx + pos), i.opening s))) ∧
  (∀ (i : SlotInstr) (s : State) (o : RR) (f1 f2 : RegFile) (x y : Vec) (j : Issue),
    (i.opening s).rrSources o f1 f2 = .ok (x, y, j) →
    i.onlyRead s j ∧
    (∃ j1 j2, (i.opening s).source 0 (smode o.mode).1 f1 o.s1.toNat = .ok (x, j1) ∧
      (i.opening s).source 1 (smode o.mode).2 f2 o.s2.toNat = .ok (y, j2)))

/-- R37: a read of an invalid latch or held operand gives zero in every bit, the operation goes on, bit 7 or bit 6 of CDIAG is set and
stays set at the end of the bundle, and no trap is raised. -/
def Obligations.InvalidSourcesReadAsZero : Prop :=
  ∀ (i : SlotInstr) (s : State) (pos r : Nat) (f : RegFile),
    (s.pre.latv.getLsbD (4 * i.unit.idx + r % 4) = false →
      ∃ j, (i.opening s).source pos .latch f r = .ok (0, j) ∧ i.onlyRead s j ∧ j.core.cdiag.getLsbD 7 = true ∧
        ((i.closing s j).core s.cur).cdiag.getLsbD 7 = true) ∧
    (s.pre.holdv.getLsbD (3 * i.unit.idx + pos) = false →
      ∃ j, (i.opening s).source pos .held f r = .ok (0, j) ∧ i.onlyRead s j ∧ j.core.cdiag.getLsbD 6 = true ∧
        ((i.closing s j).core s.cur).cdiag.getLsbD 6 = true)

/-- Results are written in the issue cycle in which they fall due (02_core.md R27, R29). For a bundle whose slot has only read sources and
delivered a result of value `x` to register r of file f: at latency 1, with nothing else falling due there, the register holds `x` at the
end of the bundle; at a longer latency it holds what it held, and the result waits among those in flight with its due cycle. A result in
flight that falls due, with no later one due on its register, is written. g0, p0 and m0 take nothing. -/
def Sys2Proof.Claims.ResultsLandWhenTheyFallDue : Prop :=
  ∀ (i : SlotInstr) (s : State) (j : Issue) (f : RegFile) (r : Nat) (x : Vec),
    i.onlyRead s j → s.pre.unwrapped f →
    (s.pre.still f r → ¬ wired f r →
      ((i.closing s (j.result f r x 1)).core s.cur).reg f r = fitted f x) ∧
    (∀ lat, 1 < lat → s.pre.still f r →
      ((i.closing s (j.result f r x lat)).core s.cur).reg f r = s.pre.reg f r ∧
      ⟨i.unit, f, r, x, s.pre.ic, s.pre.ic + lat⟩ ∈ ((i.closing s (j.result f r x lat)).core s.cur).pend) ∧
    (∀ l1 p l2, s.pre.pend = l1 ++ p :: l2 → p.file = f → p.reg = r → p.due ≤ s.pre.ic + 1 →
      (∀ q ∈ l2, q.file = f → q.reg = r → s.pre.ic + 1 < q.due) → ¬ wired f r →
      ((i.closing s j).core s.cur).reg f r = fitted f p.value ∧ p ∉ ((i.closing s j).core s.cur).pend) ∧
    (wired f r → ∀ lat, ((i.closing s (j.result f r x lat)).core s.cur).reg f r = s.pre.reg f r)

/-- The latch chain (02_core.md R34, R38): when a result of the unit is the only one that falls due, to a register or to nil, it enters x0
valid, x0 to x2 move on to x1 to x3 with their validity, and no latch of another unit moves. A bundle in which nothing falls due leaves
every latch as it was. -/
def Sys2Proof.Claims.ResultsEnterTheLatchChain : Prop :=
  ∀ (i : SlotInstr) (s : State) (j : Issue), i.onlyRead s j → s.pre.lbix = none →
    (∀ p ∈ s.pre.pend, s.pre.ic + 1 < p.due) →
    (∀ (f : RegFile) (r : Nat) (x : Vec),
      let d := (i.closing s (j.result f r x 1)).core s.cur
      let k := 4 * i.unit.idx
      (d.latv.getLsbD k = true ∧ Tbl.get 0 d.latches k = x) ∧
      (∀ n < 3, d.latv.getLsbD (k + n + 1) = s.pre.latv.getLsbD (k + n) ∧
        Tbl.get 0 d.latches (k + n + 1) = Tbl.get 0 s.pre.latches (k + n)) ∧
      (∀ m, m < k ∨ k + 4 ≤ m → d.latv.getLsbD m = s.pre.latv.getLsbD m ∧ Tbl.get 0 d.latches m = Tbl.get 0 s.pre.latches m)) ∧
    (let d := (i.closing s j).core s.cur
     d.latv = s.pre.latv ∧ d.latches = s.pre.latches)

/-- The frame of a bundle whose slot has only read sources and delivered at most one result: other cores, contexts, memories and units
are as they were; of its own core, everything that no bundle writes is as it was; the pc goes on by 16; every register but the
result's, with nothing falling due on it, keeps its value. For loads and stores see `LoadsReadTheirBytes` and `StoresChangeTheirBytesOnly`. -/
def Obligations.BundleEndKeepsTheRest : Prop :=
  ∀ (i : SlotInstr) (s : State) (j : Issue) (f : RegFile) (r lat : Nat) (x : Vec), i.onlyRead s j → 1 ≤ lat →
    ∀ t, t = i.closing s j ∨ t = i.closing s (j.result f r x lat) →
      let d := t.core s.cur
      s.othersKept t ∧
      s.pre.restKept d ∧ d.dutyGroup = s.pre.dutyGroup ∧ d.dutyUsed = s.pre.dutyUsed ∧
      d.mx = s.pre.mx ∧ (s.pre.lbix = none → d.pc = s.pre.pc + 16 ∧ d.lctl = s.pre.lctl ∧ d.lstat = s.pre.lstat) ∧
      (∀ (f' : RegFile) (r' : Nat), (f', r') ≠ (f, r) → s.pre.still f' r' → s.pre.unwrapped f' →
        d.reg f' r' = s.pre.reg f' r') ∧
      (∀ a, d.getStride a = s.pre.getStride a)

/-- A slot whose guard is false, by its predicate or by its loop flag, completes and does nothing, whatever its operands are: its slot
makes no issue but the opening one, so no result, no command, no access, no wait and no trap comes of it (02_core.md R40 to R42). A memory operand
still steps its address register. -/
def Sys2Proof.Claims.FalseGuardsDoNothing : Prop :=
  ∀ (g : Guard) (s : State), s.pre.guardOk g = false →
    (∀ (o : RR) (k : Instr), k ∈ (Sys2Proof.Claims.integerRows.map (fun e => e.1 g o) ++ Sys2Proof.Claims.compareRows.map (fun e => e.1 g o)
        ++ Sys2Proof.Claims.predicateRows.map (fun e => e.1 g o)
        ++ [.div g o, .rem g o, .clz g o, .astr g o, .ret g o, .wqpush g o, .wqpop g o, .glaunch g o, .barrive g o, .bwait g o, .wvpublish g o,
            .kvcommit g o, .vaddF32 g .rne o, .vdivF32 g .rne o, .viadd32 g o, .vrand g o, .vldg g o, .vsts g o, .xsend g o, .xrecv g o, .xrld g o,
            .xnmc g o, .tstate g o, .trelease g o, .trjrec g o, .pgprobe g o, .lktree g o]) →
      k.opn.issues s → k.ends s (k.opening s)) ∧
    (∀ (o : MEM) (k : Instr), k ∈ (Sys2Proof.Claims.loadRows.map (fun e => e.1 g o) ++ Sys2Proof.Claims.storeRows.map (fun e => e.1 g o)
        ++ [.vld g o, .vst g o]) → k.opn.issues s → k.ends s (k.openingAt s o.a o.am)) ∧
    (∀ (o : XC) (k : Instr), k ∈ [.xcopyIn g o, .xcopyOut g o, .xgather g o, .xscatter g o, .xwbfill g o, .xpref g o] →
      k.opn.issues s → k.ends s (k.openingAt s o.a o.am)) ∧
    (∀ o : I12, (Instr.trap g o).opn.issues s → (Instr.trap g o).ends s ((Instr.trap g o).opening s)) ∧
    ((Instr.halt g).opn.issues s → (Instr.halt g).ends s ((Instr.halt g).opening s)) ∧
    (∀ o : MSH, (Instr.mshift g o).opn.issues s → (Instr.mshift g o).ends s ((Instr.mshift g o).opening s))

/-- A post-increment: at the end of a bundle outside a loop buffer the address register holds its old value plus its stride (02_core.md
R43), no other address register changes. -/
def Sys2Proof.Claims.PostIncrementAddsTheStride : Prop :=
  ∀ (i : SlotInstr) (s : State) (a : Nat), s.pre.lbix = none → (∀ r, s.pre.still .a r) →
    let d := (i.closing s ((i.opening s).increment a)).core s.cur
    d.getA a = s.pre.getA a + s.pre.getStride a ∧ (∀ r, r ≠ a → d.getA r = s.pre.getA r) ∧ (∀ r, d.getStride r = s.pre.getStride r)

/-- A matrix operation whose guard holds waits while the duty level holds its core's matrix unit back (22_reliability.md R462; 02_core.md R30, R40): the bundle freezes and nothing of it takes effect.
One whose guard is false does not wait. -/
def Sys2Proof.Claims.DutyHoldsMatrixOperations : Prop :=
  ∀ (g : Guard) (a : MG) (b : MA) (c : MSN) (d : MRD) (e : MPU) (h : MSH) (q : MDR) (s : State) (k : Instr),
    k ∈ [.mcfgMode g a, .mcfgOutlier g a, .mcfgQset g a, .mcfgWbp g a, .mzero g b, .msnap g c, .mresrd g d, .mreschk g b, .mpush g e, .mpushWp g,
      .mswap g, .mshift g h, .mdrain g q, .mdrainq g q] → k.opn.issues s →
    (s.pre.guardOk g = true → s.opened.dutyHolds s.cur = true → k.stops s .wait) ∧
    (s.pre.guardOk g = false → k.ends s (k.opening s))

/-- Rows that ask a unit of the I/O die for a value, with what the unit does. -/
noncomputable def Sys2Proof.Claims.askingRows : List ((Guard → RR → Instr) × (RR → Op)) :=
  [(.ctxstat, fun o i => i.ctxstat o), (.ctxfreeze, fun o i => i.ctxfreeze o), (.ctxresume, fun o i => i.ctxresume o),
   (.binitReset, fun o i => i.binit o), (.binitQuery, fun o i => i.binit o), (.btry, fun o i => i.btry o), (.gpset, fun o i => i.gpset o),
   (.gpget, fun o i => i.gpget o), (.glaunch, fun o i => i.glaunch o), (.kdone, fun o i => i.kdone o), (.wvbind, fun o i => i.wvbind o),
   (.wvunbind, fun o i => i.wvunbind o), (.wvslot, fun o i => i.wvslot o), (.wvpublish, fun o i => i.wvpublish o), (.wvread, fun o i => i.wvread o),
   (.confx, fun o i => i.confx o), (.kvmodeSet, fun o i => i.kvmode o), (.kvmodeGet, fun o i => i.kvmode o), (.lkfree, fun o i => i.lkfree o)]

/-- A request whose answer is not there in the cycle it leaves the core holds its bundle: the unit performs it at once, and the bundle issues with the
answer once it has come, without a second request (02_core.md R30; 16_kernel.md R373). That any request may be slow is log entry 86. -/
def Sys2Proof.Claims.RequestsHoldTheirBundle : Prop :=
  ∀ e ∈ Sys2Proof.Claims.askingRows, ∀ (g : Guard) (o : RR) (s : State), (e.1 g o).begins g s →
    let i := (e.1 g o).opening s
    let key := answerKey s.cur (e.1 g o).opn.place
    (∀ j, Tbl.get none s.answers key = none → s.pre.slow.getLsbD (e.1 g o).opn.place = true → e.2 o i = .ok j →
      (e.1 g o).stops s (.freeze (i.perform (e.2 o)))) ∧
    (∀ w j, Tbl.get none s.answers key = some w → i.withAnswer (e.2 o) w = .ok j →
      (e.1 g o).ends s j ∧ Tbl.get none j.s.answers key = none)

/-- `ResultsLandWhenTheyFallDue` and `ResultsEnterTheLatchChain`, both. -/
def Obligations.ResultsLandAndEnterTheLatchChain : Prop :=
  Sys2Proof.Claims.ResultsLandWhenTheyFallDue ∧ Sys2Proof.Claims.ResultsEnterTheLatchChain

/-- `FalseGuardsDoNothing` and `PostIncrementAddsTheStride`, both. -/
def Obligations.FalseGuardsAndPostIncrements : Prop :=
  Sys2Proof.Claims.FalseGuardsDoNothing ∧ Sys2Proof.Claims.PostIncrementAddsTheStride

/-- `DutyHoldsMatrixOperations` and `RequestsHoldTheirBundle`, both. -/
def Obligations.HeldBundlesWait : Prop :=
  Sys2Proof.Claims.DutyHoldsMatrixOperations ∧ Sys2Proof.Claims.RequestsHoldTheirBundle

/-! ### Traps -/

/-- The core as it stands when every result in its pipeline has fallen due (14_trap.md R337 step 1). -/
def Sys2Proof.Claims.drained (c : Core) : Core := c.drain

/-- Taking a precise trap in an open window (14_trap.md R335 to R337): the frame is pushed with latches, held operands, loops, loop
buffer position, ORPC and ERPC; cause, return address, TRAPVAL and FAULTADDR are written, IMP is 0 and TWIN becomes 0; every latch and held
operand becomes invalid, LCTL 0; the next bundle comes from HBASE × 16. Registers keep their values where no result is in flight, and
nothing outside the core changes. -/
def Sys2Proof.Claims.TrapEntrySavesAndRedirects : Prop :=
  ∀ (s : State) (n cause : Nat) (val addr : W64), (s.core n).trapShut = false →
    let t := s.preciseTrap n cause val addr
    let c := s.core n
    let d := t.core n
    let w := Sys2Proof.Claims.drained c
    (d.cause = BitVec.ofNat 8 cause ∧ d.rpc = c.pc.extractLsb' 4 44 ∧ d.tval = val ∧ d.faddr = addr ∧ d.imp = false ∧ d.twin = false) ∧
    (∃ f : Frame, d.frames = f :: c.frames ∧ f.latches = w.latches ∧ f.latv = w.latv ∧ f.held = c.held ∧ f.holdv = c.holdv ∧
      f.lctl = c.lctl ∧ f.lstat = c.lstat ∧ f.steps = c.steps ∧ f.wrapped = c.wrapped ∧ f.body = c.body ∧ f.bksup = c.bksup ∧ f.lbix = c.lbix ∧ f.orpc = c.rpc ∧ f.erpc = d.rpc) ∧
    (d.latv = 0 ∧ d.holdv = 0 ∧ d.lctl = .zero ∧ d.lbix = none ∧ d.pc = (c.hbase.setWidth 64) <<< 4) ∧
    ((∀ f r, d.reg f r = w.reg f r) ∧ (c.pend = [] → ∀ f r, d.reg f r = c.reg f r)) ∧ (∀ r, d.getStride r = c.getStride r) ∧
    ({ t with cores := s.cores } : State) = s ∧ ∀ m, m ≠ n → t.core m = s.core m

/-- TRET puts back what the entry saved (14_trap.md R342): after an entry at a bundle's address, with the handler's RPC as entry left it,
the return leaves latches, held operands, loops, the loop buffer, steps and RPC as they were, the window open, BKSUP set, and the pc and loop-buffer position at
the trapped bundle. -/
def Sys2Proof.Claims.ReturnRestoresWhatTheEntrySaved : Prop :=
  ∀ (c : Core) (cause : Nat) (val addr : W64) (buf : Tbl (Option (BitVec 128))), c.pc.toNat % 16 = 0 → c.pc.toNat < 2 ^ 48 →
    let d := (c.enter cause val addr c.pc c.lbix false).trapReturn buf
    let w := Sys2Proof.Claims.drained c
    d.latches = w.latches ∧ d.latv = w.latv ∧ d.held = c.held ∧ d.holdv = c.holdv ∧ d.lctl = c.lctl ∧ d.lstat = c.lstat ∧
    d.steps = c.steps ∧ d.rpc = c.rpc ∧ d.frames = c.frames ∧ d.twin = true ∧ d.bksup = true ∧ d.pc = c.pc ∧ d.lbix = c.lbix ∧
    d.body = c.body ∧ d.loopBuf = c.loopBuf ∧ d.wrapped = c.wrapped

/-- A trap in a shut window, at depth 3 or without a handler is a double trap (14_trap.md R338): the core stops dead at the boundary with
the cause in DCAUSE, the trap registers, the frames and the pc keep their values, and an active context becomes faulted. -/
def Obligations.DoubleTrapFreezesTheCore : Prop :=
  ∀ (s : State) (n cause : Nat) (val addr : W64),
    (s.core n).twin = false ∨ 3 ≤ (s.core n).frames.length ∨ (s.core n).hbase = 0 →
    let t := s.preciseTrap n cause val addr
    let c := s.core n
    let d := t.core n
    (d.run = .dead ∧ d.dcause = BitVec.ofNat 8 cause) ∧
    (d.cause = c.cause ∧ d.rpc = c.rpc ∧ d.tval = c.tval ∧ d.faddr = c.faddr ∧ d.imp = c.imp ∧ d.frames = c.frames ∧ d.twin = c.twin ∧
      d.pc = c.pc ∧ d.pend = c.pend) ∧
    ((s.ctx c.ctx).st = .active → (t.ctx c.ctx).st = .faulted)

/-- The trap that a decode check takes in a bundle of one operation: everything is as at the boundary but for the trap (04_encoding.md R112:
TRAPVAL holds the slot number and the slot word). -/
def Sys2Proof.Claims.decodeTrap (i : SlotInstr) (s : State) (cause : Nat) : State :=
  (s.spent.abandon s.cur).preciseTrap s.cur cause ((BitVec.ofNat 64 i.enc.1.toNat) <<< 32 ||| BitVec.ofNat 64 i.place) 0

/-- Operations marked privileged in the opcode maps (04_encoding.md R114 ‡). -/
noncomputable def Sys2Proof.Claims.privilegedRows : List (Guard → RR → Instr) :=
  [.ctxstat, .ctxfreeze, .ctxfreezeSave, .ctxsave, .cutQuery, .cutStop, .ctxresume, .ctxrestoreResume, .ctxrestore, .lktree, .lkfree,
   .lkfreeCheck, .pgprobe, .pginvUpdate, .pginvMove]

/-- R113: a privileged operation issued in a context without privilege traps precisely with cause 3; privilege is the context's own bit. -/
def Obligations.PrivilegedOperationsTrapWithoutPrivilege : Prop :=
  ∀ (k : Guard → RR → Instr), k ∈ Sys2Proof.Claims.privilegedRows → ∀ (g : Guard) (o : RR) (s : State),
    s.runs → (k g o).opn.ok = true → (s.ctx s.me.ctx).priv = false → exec (k g o) s = .next (Sys2Proof.Claims.decodeTrap (k g o).opn s 3)

/-- The checks on decode act before the slot takes effect and whether its guard holds or not (04_encoding.md R112, R114, R117; 02_core.md
R15, R24, R41): a row whose fields are outside their ranges traps with cause 2, and so does one that its unit or a kiosk core lacks. A row
that is not privileged asks for no privilege. -/
def Obligations.IllegalOperationsTrap : Prop :=
  ∀ (k : Instr) (i : SlotInstr) (s : State), k.slot = some i → i.enc.1 ≠ 0 → s.runs →
    (i.ok = false → exec k s = .next (Sys2Proof.Claims.decodeTrap i s 2)) ∧
    (i.ok = true → (wordPrivileged i.enc.1 = true → (s.ctx s.me.ctx).priv = true) → unitBars (isKiosk s.cur) i.unit i.enc.1 = true →
      exec k s = .next (Sys2Proof.Claims.decodeTrap i s 2))

/-- `TrapEntrySavesAndRedirects` and `ReturnRestoresWhatTheEntrySaved`, both. -/
def Obligations.TrapEntryAndReturn : Prop :=
  Sys2Proof.Claims.TrapEntrySavesAndRedirects ∧ Sys2Proof.Claims.ReturnRestoresWhatTheEntrySaved

/-! ### Memory -/

/-- A scalar load from a page of memory, answered in the cycle it leaves the core, with no copy of its line that may answer it and no mark on its entry that bars or diverts it, reads the
bytes that memory holds at the translated address, of a replicated page those of the core's own die, little-endian, and changes no byte and no tag (05_scalar_control.md R136,
R137; 09_memory_model.md R250, R254). -/
def Sys2Proof.Claims.LoadsReadTheirBytes : Prop :=
  ∀ e ∈ Sys2Proof.Claims.loadRows, ∀ (g : Guard) (o : MEM) (s : State) (pa : Nat) (repl : Bool), (e.1 g o).begins g s →
    let i := (e.1 g o).openingAt s o.a o.am
    let va := i.address o 11 e.2.1
    let p := s.opened.ownReplica s.cur s.me.ctx va pa
    i.examine va e.2.1 permSL false true = .ok (.mem pa repl) →
    s.pre.slow.getLsbD (e.1 g o).opn.place = false → s.pre.entry (96 + (e.1 g o).opn.place) = none →
    (s.pre.heldBundle = true ∨ i.s.liveCopy s.cur (p / 64) = none) →
    kvSays (s.ctx s.me.ctx) (s.opened.grpOf s.cur) false va = .perform → poisoned (s.tagOf p) = false →
    ∃ j : Issue, (e.1 g o).ends s (j.resultG o.data.toNat (e.2.2 (s.rd p e.2.1)) 4) ∧
      ((e.1 g o).opn.closing s (j.resultG o.data.toNat (e.2.2 (s.rd p e.2.1)) 4)).mem = s.mem ∧
      (s.plain p e.2.1 = true → s.rd p e.2.1 = s.mem.read (loc p) e.2.1)

/-- A scalar store to a page of memory that is not replicated, whose entry's mark lets it through and whose line is there, to no header of the context's trajectory ring, stores the low bytes of g little-endian at the address that its checks compute: every other
byte reads as before, and every tag is unchanged (05_scalar_control.md R136; 03_numbers.md R71). Where the line's bytes were written under the same key, no other byte of DRAM changes at all
(12_context.md R304). -/
def Sys2Proof.Claims.StoresChangeTheirBytesOnly : Prop :=
  ∀ e ∈ Sys2Proof.Claims.storeRows, ∀ (g : Guard) (o : MEM) (s : State) (pa : Nat), (e.1 g o).begins g s →
    let i := (e.1 g o).openingAt s o.a o.am
    let va := i.address o 11 e.2
    i.examine va e.2 permSS true true = .ok (.mem pa false) → s.pre.slow.getLsbD (e.1 g o).opn.place = false →
    (∀ r, (s.ctx s.me.ctx).ring = some r → va.toNat / 64 ≠ r.base.toNat / 64) →
    kvSays (s.ctx s.me.ctx) (s.opened.grpOf s.cur) true va ≠ .refuse →
    ∃ t, exec (e.1 g o) s = .next t ∧
      (∀ b < e.2, t.mem.byte (loc pa + b) = (s.pre.getG o.data.toNat).extractLsb' (8 * b) 8 ∧
        t.rd (pa + b) 1 = ((s.pre.getG o.data.toNat).extractLsb' (8 * b) 8).toNat) ∧
      (∀ a, sealOf a = sealOf pa → loc a < loc pa ∨ loc pa + e.2 ≤ loc a → t.rd a 1 = s.rd a 1) ∧
      (s.plain pa e.2 = true → ∀ a, a < loc pa ∨ loc pa + e.2 ≤ a → t.mem.byte a = s.mem.byte a) ∧
      (∀ k, t.mem.tag k = s.mem.tag k) ∧ t.hostMem = s.hostMem

/-- Where an ordinary access goes (11_page.md R280, R283, R286, R287): outside the window it aborts; in it, a page entry that is present with
the permission asked gives the frame and the offset (above bit 50 the model's name for the key, owner and address that the bytes are sealed with, R304), one that lacks the permission an access violation, one whose page is absent a page fault
and a freeze, one whose state is poisoned the poisoned-data trap. A misaligned address traps before any of them (05_scalar_control.md R137). -/
def Obligations.TranslationFollowsTheEntry : Prop :=
  ∀ (s : State) (x : Nat) (va : W64) (tu need : Nat),
    ((va.extractLsb' 48 16 = 0 ∧ va.extractLsb' 38 10 = (s.ctx x).wsel ↔ inWindow (s.ctx x) va = true)) ∧
    (inWindow (s.ctx x) va = false → translate s tu x va need = .outside) ∧
    (inWindow (s.ctx x) va = true → devAt s.devMap x (va.extractLsb' 22 16).toNat = none →
      let e := s.entry tu x (va.extractLsb' 22 16).toNat
      let st := (e.extractLsb' 37 3).toNat
      let pfn := (e.extractLsb' 40 24).toNat
      (st = 4 → translate s tu x va need = .poisonedPage) ∧
      (st = 2 → translate s tu x va need = .absent 2) ∧
      (st = 1 ∨ st = 3 →
        (Nat.land (e.extractLsb' 20 12).toNat need ≠ need → translate s tu x va need = .denied) ∧
        (Nat.land (e.extractLsb' 20 12).toNat need = need → frameNamed pfn = true →
          translate s tu x va need = .ok (pfn * 2 ^ 22 + (va.extractLsb' 0 22).toNat + 2 ^ 50 * s.sealNo x va) (decide (st = 3))))) ∧
    (∀ d, inWindow (s.ctx x) va = true → devAt s.devMap x (va.extractLsb' 22 16).toNat = some d → translate s tu x va need =
      if need = permSL ∨ need = permSS ∨ (need = permXR ∧ (d = .fbuf ∨ d = .errlog)) then .dev d (va.extractLsb' 0 22).toNat else .denied) ∧
    (∀ (i : Issue) (size : Nat) (w u : Bool), va.toNat % size ≠ 0 → i.examine va size need w u = .error (.trap 7 va))

/-- No path of an operation that works on registers alone touches a memory: in whatever state it is met, with its guard true or false, at a
trap or a pending report, a next state has the memories of the state before. -/
def Obligations.RegisterOperationsLeaveMemoryAlone : Prop :=
  ∀ (g : Guard) (o : RR) (s t : State) (k : Instr),
    k ∈ (Sys2Proof.Claims.integerRows.map (fun e => e.1 g o) ++ Sys2Proof.Claims.compareRows.map (fun e => e.1 g o)
        ++ Sys2Proof.Claims.predicateRows.map (fun e => e.1 g o) ++ [.div g o, .divn g o, .rem g o, .remn g o]) →
    exec k s = .next t → t.mem = s.mem ∧ t.hostMem = s.hostMem

/-- The reset state: bring-up has not begun to answer (22_reliability.md R460), no context exists, no core runs, page entries are zero, no
interrupt or report waits; the system registers hold the reset values the spec states (02_core.md R39, R50; 14_trap.md R336); g0 reads 0, p0 true
and m0 all ones (02_core.md R25). -/
def Obligations.ResetLeavesTheStatedValues : Prop :=
  ∀ (n : Nat), let c := State.reset.core n
    c.run = .idle ∧ c.cdiag = 0 ∧ c.lctl.word = 0 ∧ c.cause = 0 ∧ c.hbase = 0 ∧ c.dcause = 0 ∧ c.frames = [] ∧ c.reports = [] ∧
    c.latv = 0 ∧ c.holdv = 0 ∧ c.ifr = [] ∧ c.getG 0 = 0 ∧ c.getP 0 = true ∧ c.getM 0 = BitVec.allOnes 128 ∧
    State.reset.root.ready = false ∧ (∀ x, (State.reset.ctx x).st = .free) ∧ (∀ tu x p, State.reset.entry tu x p = 0) ∧
    State.reset.fbuf.put = 0 ∧ State.reset.fbuf.get = 0 ∧ State.reset.log.put = 0

/-- Both memories are in their canonical form after reset. -/
def Obligations.ResetMemoryIsCanonical : Prop := State.reset.memOk = true

/-- Whatever event is next, memory stays in its canonical form: addresses strictly rising and no entry that an unlisted address reads as. -/
def Obligations.StepKeepsMemoryCanonical : Prop :=
  ∀ s t : State, s.memOk = true → step s = .next t → t.memOk = true

/-- `LoadsReadTheirBytes` and `StoresChangeTheirBytesOnly`, both. -/
def Obligations.LoadsAndStoresTouchTheirBytes : Prop :=
  Sys2Proof.Claims.LoadsReadTheirBytes ∧ Sys2Proof.Claims.StoresChangeTheirBytesOnly

/-! ### Steps and encodings -/

/-- A step runs what is fetched. When the surroundings have chosen nothing, the device is up and core n is the one that acts next, the
step is the issue of the bundle that its fetch gives, from the loop buffer or, where its instruction cache holds no line of it, from memory at the pc; a chosen event is the step (log
entry 5). The bundle issues in the state that the fetch leaves, its line in the instruction cache. A fetched bundle that holds one operation
laid out as R123 says runs that row's meaning; the bundle event of a core that fetches a row's word completes where the row completes, and a
bundle of empty slots does. -/
def Obligations.StepRunsTheFetchedInstruction : Prop :=
  ∀ s : State,
    (∀ (n : Nat) (w : BitVec 128), (s.core n).buffered = some w → s.fetch n = .word w) ∧
    (∀ (n pa : Nat), (s.core n).buffered = none → s.engineAt n (s.core n).pc permSL false = .go pa →
      (Tbl.get (⟨0, 0, 0⟩ : Copy) (s.core n).icache (pa / 64)).lease = 0 → poisoned (s.tagOf pa) = false →
      s.fetch n = .word (BitVec.ofNat 128 (blockBytes (s.rdBlock pa) (pa % 64) 16))) ∧
    (∀ e rest, s.agenda = e :: rest → step s = exec e { s with agenda := rest }) ∧
    (∀ n, s.agenda = [] → s.root.ready = true → s.dueCore = some n → step s = exec (.bundleIssue n) s) ∧
    (∀ n w, coreExists n = true → s.inTurn n = true → s.fetch n = .word w → ({ s with cur := n } : State).runs →
      exec (.bundleIssue n) s = issueBundle n (readBundle w) (({ s with cur := n } : State).fetched n w)) ∧
    (∀ (n : Nat) (k : Instr) (i : SlotInstr), coreExists n = true → s.inTurn n = true → k.slot = some i → i.enc.1 ≠ 0 → i.ok = true →
      s.fetch n = .word (soloWord i) → ({ s with cur := n } : State).runs →
      exec (.bundleIssue n) s = exec k (({ s with cur := n } : State).fetched n (soloWord i))) ∧
    (∀ (n : Nat) (k : Instr) (i : SlotInstr) (j : Issue), coreExists n = true → s.inTurn n = true → k.slot = some i → i.ok = true →
      s.fetch n = .word (soloWord i) →
      let u := ({ s with cur := n } : State).fetched n (soloWord i)
      i.issues u → k.ends u j → exec (.bundleIssue n) s = .next (i.closing u j)) ∧
    (∀ n, coreExists n = true → s.inTurn n = true → s.fetch n = .word 0 → ({ s with cur := n } : State).runs →
      ∃ t, exec (.bundleIssue n) s = .next t ∧ t.mem = s.mem)

/-- Words that the spec writes out bit by bit: in a bundle with a header or not, rounding mode, extension byte, word, operation. -/
noncomputable def Sys2Proof.Claims.specWords : List (Bool × RMode × Byte × W32 × SlotInstr) :=
  let g : Guard := ⟨0, false, .always⟩
  [(false, .rne, 0x00, 0x00806101, .s (.add g ⟨6, 4, 1, 0, false⟩)),
   (true, .rne, 0x00, 0x02004083, .s (.mul g ⟨4, 2, 3, 0, false⟩)),
   (true, .rne, 0x02, 0x40000042, .v (.vaddF32 g .rne ⟨0, 1, 2, 0, true⟩)),
   (true, .rne, 0x04, 0x41003005, .v (.vmulF32 g .rne ⟨3, 0, 5, 1, false⟩)),
   (true, .rs, 0xB4, 0x45A44187, .v (.vfmaBf16 ⟨9, true, .first⟩ .rs ⟨4, 6, 7, 5, false⟩)),
   (true, .rne, 0x04, 0x208CA001, .s (.bt ⟨3, 5, 0, 0, false, true, false, false, false, 1, .always⟩)),
   (false, .rne, 0x00, 0x1A805200, .s (.ldN32 g ⟨5, 2, 0, 0⟩)),
   (false, .rne, 0x00, 0x1A805250, .s (.ldN32 g ⟨5, 2, 1, 16⟩)),
   (false, .rne, 0x00, 0x98060B44, .m (.mshift g ⟨3, false, 5, 40, true, 0⟩)),
   (true, .rne, 0x1E, 0x0E809C78, .s (.li g ⟨9, 0x1EC78⟩)),
   (false, .rne, 0x00, 0xC080A294, .x (.xcopyIn g ⟨5, false, 2, 2, 20⟩)),
   (false, .rne, 0x00, 0xD0002203, .x (.xsend g ⟨2, 8, 3, 0, false⟩)),
   (true, .rne, 0x05, 0xE1809104, .x (.xamoCas32 g ⟨9, 1, 0, 4, 5⟩)),
   (false, .rne, 0x00, 0xD8800307, .x (.xamoAdd64 g ⟨0, 3, 0, 7, 0⟩)),
   (false, .rne, 0x00, 0xE8806420, .x (.xrel g ⟨6, 4, 0, 2⟩)),
   (false, .rne, 0x00, 0xE900B520, .x (.xacq g ⟨11, 5, 0, 2⟩)),
   (false, .rne, 0x00, 0xE8000010, .x (.xfence g ⟨0, 0, 0, 1⟩)),
   (false, .rne, 0x00, 0x3D005180, .s (.pgprobe g ⟨5, 6, 0, 0, false⟩)),
   (false, .rne, 0x00, 0x3D807209, .s (.pginvUpdate g ⟨7, 8, 9, 0, false⟩))]

/-- Words written out from the spec's encodings, its own examples, decode to the operations they stand for (04_encoding.md R94 to R118). -/
def Obligations.WordsOfTheSpecDecode : Prop :=
  ∀ e ∈ Sys2Proof.Claims.specWords, decodeSlot e.1 e.2.1 e.2.2.1 e.2.2.2.1 = .ok e.2.2.2.2

/-- Decoding undoes encoding: the word and extension byte of every well-formed slot operation, in a bundle with a header of its rounding mode,
decode to the operation, every operand bit as it was; rows that share one word decode to the first of them. Without a header the same
holds of every word that needs none. -/
def Obligations.DecodeUndoesEncode : Prop :=
  ∀ i : SlotInstr, i.ok = true →
    decodeSlot true i.brm i.enc.2 i.enc.1 = .ok i.canon ∧
    (wordNeedsHeader i.enc.1 i.enc.2 i.brm = false → decodeSlot false .rne 0 i.enc.1 = .ok i.canon)
end

