-- ==== Sys2Proof/Laws/Tables.lean ====
section
/-! SUPPORT. Laws of the sparse maps: reading after writing, and that writing and dropping keep the canonical form. -/

namespace Sys2Proof
theorem Tbl.get_ins {α : Type} (d : α) (k : Nat) (v : α) (j : Nat) : ∀ t : Tbl α, Tbl.get d t k = d → (∀ e ∈ t, e.1 ≠ k) →
    Tbl.get d (Tbl.ins t k v) j = if j = k then v else Tbl.get d t j
  | [], _, _ => by by_cases h : j = k <;> simp [Tbl.ins, Tbl.get, h]
  | (i, x) :: t, h0, hne => by
    have hi : i ≠ k := hne (i, x) (by simp)
    have ih := Tbl.get_ins d k v j t (by simpa [Tbl.get, Ne.symm hi] using h0) (fun e he => hne e (by simp [he]))
    unfold Tbl.ins
    by_cases hk : k < i
    · by_cases h : j = k <;> simp [hk, Tbl.get, h]
    · by_cases h : j = k
      · subst h; simp [hk, Tbl.get, Ne.symm hi] at ih ⊢; exact ih
      · simp only [hk, if_false, Tbl.get, ih, h]

theorem Tbl.get_filter {α : Type} (d : α) (k j : Nat) : ∀ t : Tbl α,
    Tbl.get d (t.filter (fun e => decide (e.1 ≠ k))) j = if j = k then d else Tbl.get d t j
  | [] => by simp [Tbl.get]
  | (i, x) :: t => by
    have ih := Tbl.get_filter d k j t
    by_cases hi : i = k
    · subst hi
      by_cases h : j = i <;> simp_all [Tbl.get]
    · by_cases h : j = k
      · subst h; simp_all [Tbl.get, Ne.symm hi]
      · simp_all [Tbl.get]

/-- Reading after writing. -/
theorem Tbl.get_set {α : Type} [DecidableEq α] (d : α) (t : Tbl α) (k : Nat) (v : α) (j : Nat) :
    Tbl.get d (Tbl.set d t k v) j = if j = k then v else Tbl.get d t j := by
  unfold Tbl.set
  by_cases hv : v = d
  · simp only [hv, if_true, Tbl.get_filter]
  · simp only [hv, if_false]
    rw [Tbl.get_ins d k v j _ (by rw [Tbl.get_filter]; simp) (by intro e he; simpa using (List.mem_filter.mp he).2)]
    by_cases h : j = k
    · simp [h]
    · rw [if_neg h, if_neg h, Tbl.get_filter, if_neg h]

theorem Tbl.wfFrom_mono {α : Type} [DecidableEq α] (d : α) {lo lo' : Nat} (h : lo' ≤ lo) : ∀ t : Tbl α, Tbl.wfFrom d lo t = true → Tbl.wfFrom d lo' t = true
  | [], _ => rfl
  | (j, x) :: t, hw => by simp [Tbl.wfFrom] at *; exact ⟨⟨by omega, hw.1.2⟩, hw.2⟩

theorem Tbl.wfFrom_filter {α : Type} [DecidableEq α] (d : α) (p : Nat × α → Bool) : ∀ (lo : Nat) (t : Tbl α), Tbl.wfFrom d lo t = true → Tbl.wfFrom d lo (t.filter p) = true
  | _, [], _ => rfl
  | lo, (j, x) :: t, hw => by
    simp [Tbl.wfFrom] at hw
    have ih := Tbl.wfFrom_filter d p (j + 1) t hw.2
    by_cases hp : p (j, x) = true
    · simp [hp, Tbl.wfFrom, hw.1, ih]
    · simp only [hp, List.filter_cons, Bool.false_eq_true, if_false]
      exact Tbl.wfFrom_mono d (by omega) _ ih

theorem Tbl.wfFrom_ins {α : Type} [DecidableEq α] (d : α) (k : Nat) (v : α) (hv : v ≠ d) : ∀ (lo : Nat) (t : Tbl α), lo ≤ k → (∀ e ∈ t, e.1 ≠ k) →
    Tbl.wfFrom d lo t = true → Tbl.wfFrom d lo (Tbl.ins t k v) = true
  | lo, [], hl, _, _ => by simp [Tbl.ins, Tbl.wfFrom, hl, hv]
  | lo, (j, x) :: t, hl, hn, hw => by
    have hj : j ≠ k := hn (j, x) (by simp)
    simp [Tbl.wfFrom] at hw
    unfold Tbl.ins
    by_cases hk : k < j
    · simp [hk, Tbl.wfFrom, hl, hv, hw, Nat.succ_le_iff]
    · have ih := Tbl.wfFrom_ins d k v hv (j + 1) t (by omega) (fun e he => hn e (by simp [he])) hw.2
      simp [hk, Tbl.wfFrom, hw.1, ih]

/-- Writing keeps the canonical form. -/
theorem Tbl.wf_set {α : Type} [DecidableEq α] (d : α) (t : Tbl α) (k : Nat) (v : α) (h : Tbl.wf d t = true) : Tbl.wf d (Tbl.set d t k v) = true := by
  unfold Tbl.set Tbl.wf
  by_cases hv : v = d
  · simp only [hv, if_true]; exact Tbl.wfFrom_filter d _ 0 t h
  · simp only [hv, if_false]
    exact Tbl.wfFrom_ins d k v hv 0 _ (Nat.zero_le k) (by intro e he; simpa using (List.mem_filter.mp he).2) (Tbl.wfFrom_filter d _ 0 t h)

/-- Dropping entries keeps it. -/
theorem Tbl.wf_filter {α : Type} [DecidableEq α] (d : α) (p : Nat × α → Bool) (t : Tbl α) (h : Tbl.wf d t = true) : Tbl.wf d (t.filter p) = true :=
  Tbl.wfFrom_filter d p 0 t h
end Sys2Proof
end

