-- ==== Sys2Proof/Laws/Issue.lean ====
section
/-! SUPPORT. What issuing one operation alone in its bundle comes to. -/

namespace Sys2Proof.Machine

theorem wordClass_lt (w : W32) : wordClass w < 4 := by
  unfold wordClass; have := w.isLt; omega

theorem wordClass_xnop : wordClass (3221225472#32) = 3 := by decide
theorem wordOp_xnop : wordOp (3221225472#32) = 0 := by decide

theorem clash_one (x : Slot) : clash [x] = none := by
  unfold clash; split <;> simp [clash]

theorem filter_one_drop {α : Type} (p : α → Bool) (x : α) (n : Nat) : ([x].filter p).drop (n + 1) = [] := by
  by_cases h : p x <;> simp [h]

theorem quietSlot_one (b : Bundle) (x : Slot) (hs : b.slots = [x]) (h0 : x.word ≠ 0) :
    b.quietSlot.isSome = decide (wordClass x.word = 0 ∧ wordOp x.word = 0x51) := by
  have h0' : ¬ x.word = 0#32 := h0
  by_cases h1 : wordClass x.word = 0 <;> by_cases h2 : wordOp x.word = 0x51 <;> simp [Bundle.quietSlot, hs, h0', h1, h2]

theorem tretBad_one (b : Bundle) (x : Slot) (hs : b.slots = [x]) : b.tretBad = none := by
  unfold Bundle.tretBad
  rw [hs]
  by_cases h : (wordClass x.word = 0 && x.word ≠ 0 && wordOp x.word = 0x58) = true <;> simp_all

/-- The decode checks of a bundle of one slot. -/
theorem decode_one (b : Bundle) (x : Slot) (u : UnitId) (priv kiosk : Bool) (hs : b.slots = [x]) (h0 : x.word ≠ 0) (hd : x.dec.isSome)
    (hh : b.badHead = false) (hq : b.quiet = decide (wordClass x.word = 0 ∧ wordOp x.word = 0x51))
    (hp : wordPrivileged x.word = true → priv = true) (hu : b.units = [(u, x)]) (hb : unitBars kiosk u x.word = false)
    (hm : modeBars u x.word x.ext = false) :
    b.decodeFault priv kiosk = none := by
  have he : b.excess = none := by
    unfold Bundle.excess Bundle.ofClass
    simp only [hs, filter_one_drop, List.append_nil]
  have hqs := quietSlot_one b x hs h0
  have hn : x.dec.isNone = false := by simpa using hd
  have hp' : (if priv then none else b.slots.find? (fun s => wordPrivileged s.word)) = none := by
    cases priv
    · cases hw : wordPrivileged x.word
      · simp [hs, hw]
      · exact absurd (hp hw) (by simp)
    · rfl
  have h5 : x.dec ≠ none := by intro h; simp [h] at hd
  unfold Bundle.decodeFault
  rw [he, tretBad_one b x hs, hu, hh, hp', hs, clash_one]
  cases hc : b.quietSlot with
  | none =>
    have : b.quiet = false := by rw [hq, ← hqs, hc]; rfl
    simp [this, h5, hb, hm]
  | some y =>
    have : b.quiet = true := by rw [hq, ← hqs, hc]; rfl
    simp [this, h5, hb, hm]

theorem ofClass_one (b : Bundle) (x : Slot) (hs : b.slots = [x]) (h0 : x.word ≠ 0) (k : Nat) :
    b.ofClass k = if wordClass x.word = k then [x] else [] := by
  unfold Bundle.ofClass
  have h0' : ¬ x.word = 0#32 := h0
  rw [hs]
  by_cases h : wordClass x.word = k <;> simp [h0', h]

/-- The units of a bundle of one slot. -/
theorem units_one (b : Bundle) (x : Slot) (hs : b.slots = [x]) (h0 : x.word ≠ 0) :
    b.units = [((match wordClass x.word with | 0 => UnitId.s | 1 => .v0 | 2 => .m | _ => .x0), x)] := by
  have h4 := wordClass_lt x.word
  unfold Bundle.units
  simp only [ofClass_one b x hs h0]
  generalize hc : wordClass x.word = c at *
  interval_cases c <;> by_cases hw : x.waitAmo <;> simp [hw]

/-- The XNOP that stands before an X1 operation (R123). -/
def xnopSlot (idx : Nat) : Slot := ⟨idx, 0xC0000000, 0, some .ok⟩

theorem ofClass_x1 (b : Bundle) (k : Nat) (x : Slot) (hs : b.slots = [xnopSlot k, x]) (h0 : x.word ≠ 0) (h3 : wordClass x.word = 3) (c : Nat) :
    b.ofClass c = if c = 3 then [xnopSlot k, x] else [] := by
  have h0' : ¬ x.word = 0#32 := h0
  unfold Bundle.ofClass
  rw [hs]
  by_cases h : c = 3
  · subst h; simp [h0', h3, xnopSlot, wordClass_xnop, List.filter_cons]
  · have : ¬ 3 = c := fun e => h e.symm
    simp [h, h3, xnopSlot, wordClass_xnop, this, List.filter_cons]

/-- The units of a bundle of XNOP and an X1 operation. -/
theorem units_x1 (b : Bundle) (k : Nat) (x : Slot) (hs : b.slots = [xnopSlot k, x]) (h0 : x.word ≠ 0) (h3 : wordClass x.word = 3)
    (h1 : x1Only (wordOp x.word) = true) : b.units = [(.x0, xnopSlot k), (.x1, x)] := by
  have hw : x.waitAmo = false := by
    unfold Slot.waitAmo x1Only at *
    simp at h1
    simp; intro _ _ _; omega
  have hn : (xnopSlot k).waitAmo = false := by
    show Slot.waitAmo ⟨k, 3221225472#32, 0, some .ok⟩ = false
    simp [Slot.waitAmo, wordOp_xnop]
  unfold Bundle.units
  simp [ofClass_x1 b k x hs h0 h3, hw, hn]

theorem decode_x1 (b : Bundle) (k : Nat) (x : Slot) (priv kiosk : Bool) (hs : b.slots = [xnopSlot k, x]) (h0 : x.word ≠ 0) (hd : x.dec.isSome)
    (hh : b.badHead = false) (hq : b.quiet = false) (h3 : wordClass x.word = 3) (h1 : x1Only (wordOp x.word) = true) (hk : x.idx ≠ k)
    (hb : unitBars kiosk .x1 x.word = false) (hm : modeBars .x1 x.word x.ext = false) : b.decodeFault priv kiosk = none := by
  have h0' : ¬ x.word = 0#32 := h0
  have hn : x.dec.isNone = false := by simpa using hd
  have he : b.excess = none := by
    unfold Bundle.excess
    simp [ofClass_x1 b k x hs h0 h3]
  have hqs : b.quietSlot = none := by simp [Bundle.quietSlot, hs, h3, xnopSlot, wordClass_xnop]
  have ht : b.tretBad = none := by simp [Bundle.tretBad, hs, h3, xnopSlot, wordClass_xnop, List.find?_cons]
  have hc : clash [xnopSlot k, x] = none := by
    have : wordDest (xnopSlot k).word (xnopSlot k).ext = none := by
      show wordDest (3221225472#32) 0#8 = none
      decide
    rw [clash, this]; exact clash_one x
  have hp : wordPrivileged x.word = false := by simp [wordPrivileged, h3]
  have hp' : wordPrivileged (3221225472#32) = false := by decide
  have hb0 : unitBars kiosk .x0 (3221225472#32) = false := by cases kiosk <;> decide
  have hm0 : modeBars .x0 (3221225472#32) 0#8 = false := by decide
  unfold Bundle.decodeFault
  rw [he, ht, hqs, units_x1 b k x hs h0 h3 h1, hs, hc, hh]
  simp [hq, hn, hp, hp', xnopSlot, hb0, hb, hm0, hm, hk, Ne.symm hk, List.find?_cons]

theorem ctx_opened (s : State) (x : Nat) : s.opened.ctx x = s.ctx x := rfl

theorem settle_ctx (c : Core) : c.settle.ctx = c.ctx := rfl

/-- A core read after one core's update. -/
theorem core_upd (s : State) (n : Nat) (f : Core → Core) (m : Nat) : (s.upd n f).core m = if m = n then f (s.core n) else s.core m := by
  unfold State.core State.upd State.setCore
  exact Tbl.get_set _ _ _ _ _

theorem core_setCore (s : State) (n : Nat) (c : Core) (m : Nat) : (s.setCore n c).core m = if m = n then c else s.core m := by
  unfold State.core State.setCore
  exact Tbl.get_set _ _ _ _ _

theorem pre_eq (s : State) : s.pre = ({ s.me with nextAt := max s.now s.me.nextAt + 1 } : Core).settle := by
  simp [State.pre, State.opened, State.spendCycle, core_upd, State.me]
  rfl

theorem pre_ctx (s : State) : s.pre.ctx = s.me.ctx := by
  rw [pre_eq]; rfl

theorem runs_boundary (s : State) (k : State → Result) (h : s.runs) : boundary s.cur k s = k s := by
  obtain ⟨hr, hp, ht⟩ := h
  unfold State.me at *
  unfold boundary
  rcases ht with ht | ht | ht <;> simp [hr, hp, ht]

/-- The issue a bundle's first slot starts from. -/
def openIssue (s : State) (rm : RMode) : Issue :=
  { n := s.cur, pre := s.pre, s := s.opened, incs := [], post := id, taken := none, final := id, trapAfter := none, reserve := id, level := false,
    halted := false, loopAt := none, cmds := [], rm := rm, unit := .s, slot := 0, word := 0 }

/-- What issuing a decoded bundle of one slot comes to. -/
theorem issueBundle_run (s : State) (b : Bundle) (hd : b.decodeFault (s.ctx s.me.ctx).priv (isKiosk s.cur) = none) (hb : b.bkpt = false) :
    issueBundle s.cur b s =
      match runSlots b.units (openIssue s b.rm) [] with
      | .issued i => .next (i.finish b.quiet)
      | .held note => .next (note (s.spent.freezeBundle s.cur))
      | .stop slot word e =>
        match e with
        | .trap cause addr => .next ((s.spent.abandon s.cur).preciseTrap s.cur cause (slotVal slot word) addr)
        | .stuck t =>
          if s.pre.twin && decide (s.pre.reports ≠ []) then .next ((s.spent.abandon s.cur).takeReport s.cur)
          else .next ((s.spent.abandon s.cur).preciseTrap s.cur 0x12 (BitVec.ofNat 64 t) 0)
        | .abort va => .next (s.spent.abortBy s.cur va)
        | .fault f => .fault f
        | .freeze note => .next (note (s.spent.freezeBundle s.cur)) := by
  have hd' : b.decodeFault (s.opened.ctx (s.opened.core s.cur).ctx).priv (isKiosk s.cur) = none := by
    have : (s.opened.core s.cur).ctx = s.me.ctx := pre_ctx s
    rw [this]; exact hd
  unfold issueBundle
  dsimp only
  rw [show (s.spendCycle s.cur).upd s.cur Core.settle = s.opened from rfl]
  simp only [hd', hb, Bool.false_and, Bool.false_eq_true, if_false]
  rfl

theorem ite_true_eq {α : Type} (x y : α) : (if True then x else y) = x := if_pos trivial

/-- The one wait of a bundle asks for what it asks for. -/
theorem allNotes_one (k : Nat) (f : State → State) (s : State) (hk : k < 4) : allNotes [(k, f)] s = f s := by
  unfold allNotes
  interval_cases k <;> rfl

/-- Running one slot. -/
theorem runSlots_one (u : UnitId) (k : Nat) (w : W32) (e : Byte) (op : Op) (i : Issue) (hr : i.reserve = id) (hk : k < 4) :
    runSlots [(u, ⟨k, w, e, some op⟩)] i [] = match op { i with unit := u, slot := k, word := w } with
      | .ok j => .issued j
      | .error (.freeze f) => .held f
      | .error x => .stop k w x := by
  unfold runSlots
  simp only []
  cases op _ with
  | ok j => simp [runSlots]
  | error x => cases x <;> simp [runSlots, hr, allNotes_one k _ _ hk]

/-- Running an XNOP before a slot. -/
theorem runSlots_xnop (u v : UnitId) (k l : Nat) (w : W32) (e : Byte) (op : Op) (i : Issue) (hr : i.reserve = id) (hk : k < 4) :
    runSlots [(v, xnopSlot l), (u, ⟨k, w, e, some op⟩)] i [] = match op { i with unit := u, slot := k, word := w } with
      | .ok j => .issued j
      | .error (.freeze f) => .held f
      | .error x => .stop k w x := by
  unfold runSlots
  simp only [xnopSlot]
  exact runSlots_one u k w e op _ hr hk

/-- An operation stands in one of the four slots. -/
theorem place_lt (i : SlotInstr) : i.place < 4 := by
  unfold SlotInstr.place soloSlot
  dsimp only
  repeat' split
  all_goals omega

/-- What issuing one operation alone in its bundle comes to. -/
theorem issueSolo_eq (i : SlotInstr) (op : Op) (s : State) (h : i.issues s) :
    issueSolo i op s = match op (i.opening s) with
      | .ok j => .next (i.closing s j)
      | .error e => i.stopping s e := by
  obtain ⟨hr, h0, hok, hpriv, hbar, hmode⟩ := h
  unfold issueSolo
  rw [runs_boundary s _ hr]
  have hclass := wordClass_lt i.enc.1
  by_cases hx : wordClass i.enc.1 = 3 ∧ x1Only (wordOp i.enc.1) = true
  · obtain ⟨h3, h1⟩ := hx
    have hq : ¬ (wordClass i.enc.1 = 0 ∧ wordOp i.enc.1 = 0x51) := by omega
    have hu : i.unit = .x1 := by simp [SlotInstr.unit, h3, h1]
    have hsl : (soloBundle i op).slots = [xnopSlot (i.place - 1), ⟨i.place, i.enc.1, i.enc.2, some op⟩] := by
      simp [soloBundle, xnopSlot, SlotInstr.place, h3, h1, hok]
    have hpl : i.place ≠ i.place - 1 := by
      have : 1 ≤ i.place := by unfold SlotInstr.place soloSlot; simp [h3, h1]; split <;> simp
      omega
    have hun := units_x1 _ _ _ hsl h0 h3 h1
    rw [issueBundle_run s _ (decode_x1 _ _ _ _ _ hsl h0 rfl rfl (by simp [soloBundle]; intro h; omega) h3 h1 hpl (by rw [← hu]; exact hbar)
      (by rw [← hu]; exact hmode)) rfl, hun]
    rw [runSlots_xnop _ _ _ _ _ _ _ _ rfl (place_lt i), ← hu, show ({ openIssue s (soloBundle i op).rm with unit := i.unit, slot := i.place, word := i.enc.1 } : Issue)
      = i.opening s from rfl]
    cases op (i.opening s) with
    | ok j => rfl
    | error e => cases e <;> rfl
  · have hsl : (soloBundle i op).slots = [⟨i.place, i.enc.1, i.enc.2, some op⟩] := by
      have hx' : (decide (wordClass i.enc.1 = 3) && x1Only (wordOp i.enc.1)) = false := by
        by_cases h3 : wordClass i.enc.1 = 3
        · simp [h3] at hx ⊢; exact hx
        · simp [h3]
      simp [soloBundle, SlotInstr.place, hok, hx', Bool.and_assoc]
    have hun := units_one _ _ hsl h0
    have hu : (match wordClass i.enc.1 with | 0 => UnitId.s | 1 => .v0 | 2 => .m | _ => .x0) = i.unit := by
      unfold SlotInstr.unit
      interval_cases hc : wordClass i.enc.1 <;> simp_all
    simp only [hu] at hun
    rw [issueBundle_run s _ (decode_one _ _ i.unit _ _ hsl h0 rfl rfl rfl hpriv hun hbar hmode) rfl, hun]
    rw [runSlots_one _ _ _ _ _ _ rfl (place_lt i), show ({ openIssue s (soloBundle i op).rm with unit := i.unit, slot := i.place, word := i.enc.1 } : Issue)
      = i.opening s from rfl]
    cases op (i.opening s) with
    | ok j => rfl
    | error e => cases e <;> rfl

/-- A row that is a slot operation runs that operation. -/
theorem exec_slot (k : Instr) (i : SlotInstr) (s : State) (h : k.slot = some i) (h0 : i.enc.1 ≠ 0) : exec k s = issueSolo i (slotOp i) s := by
  cases k <;> first
    | (cases h; done)
    | (cases h; rfl)
    | (cases h; exact absurd rfl h0)
    | (cases h
       have h12 : ∀ m, m < 4096 → (BitVec.ofNat 12 m).toNat = m := fun m hm => by simp [BitVec.toNat_ofNat]; omega
       simp only [exec, execLstatWrite, execWmarkWrite, opLstatWrite, opWmarkWrite, slotOp, sOp, opSwr]
       rw [h12 _ (by omega)])

/-- A row completes when its operation, from the issue it starts from, answers one. -/
theorem ends_of {k : Instr} {i : SlotInstr} {s : State} {j : Issue} (h : k.slot = some i) (hi : i.issues s)
    (hop : slotOp i (i.opening s) = .ok j) : k.ends s j := by
  have ho : k.opn = i := by simp [Instr.opn, h]
  rw [Instr.ends, exec_slot k i s h hi.2.1, issueSolo_eq i _ s hi, hop, ho]

/-- A row stops its bundle when its operation answers a stop. -/
theorem stops_of {k : Instr} {i : SlotInstr} {s : State} {e : Stop} (h : k.slot = some i) (hi : i.issues s)
    (hop : slotOp i (i.opening s) = .error e) : k.stops s e := by
  have ho : k.opn = i := by simp [Instr.opn, h]
  rw [Instr.stops, exec_slot k i s h hi.2.1, issueSolo_eq i _ s hi, hop, ho]

/-- An operation whose guard holds. -/
theorem guarded_true (g : Guard) (inc : Option Nat) (op : Op) (i : Issue) (h : i.pre.guardOk g = true) :
    guarded g inc op i = op (match inc with | some a => i.increment a | none => i) := by
  unfold guarded
  cases inc <;> simp [Issue.increment, h]

/-- An operation whose guard does not hold changes only its address register's sum (02_core.md R40). -/
theorem guarded_false (g : Guard) (inc : Option Nat) (op : Op) (i : Issue) (h : i.pre.guardOk g = false) :
    guarded g inc op i = .ok (match inc with | some a => i.increment a | none => i) := by
  unfold guarded
  cases inc <;> simp [Issue.increment, h]

/-- A row whose guard holds completes with what its operation makes of the issue it starts from. -/
theorem ends_guarded {k : Instr} {i : SlotInstr} {g : Guard} {op : Op} {s : State} {j : Issue} (h : k.slot = some i)
    (hop : slotOp i = guarded g none op) (hb : k.begins g s) (hj : op (k.opening s) = .ok j) : k.ends s j := by
  have ho : k.opn = i := by simp [Instr.opn, h]
  subst ho
  refine ends_of h hb.1 ?_
  rw [hop, guarded_true g none op (k.opn.opening s) hb.2.1]
  exact hj

/-- The same of a row with a memory operand. -/
theorem ends_guardedAt {k : Instr} {i : SlotInstr} {g : Guard} {a : BitVec 4} {am : BitVec 2} {op : Op} {s : State} {j : Issue}
    (h : k.slot = some i) (hop : slotOp i = guarded g (incOf a am) op) (hb : k.begins g s) (hj : op (k.openingAt s a am) = .ok j) :
    k.ends s j := by
  have ho : k.opn = i := by simp [Instr.opn, h]
  subst ho
  refine ends_of h hb.1 ?_
  rw [hop, guarded_true g _ op (k.opn.opening s) hb.2.1]
  exact hj

/-- A row whose guard holds stops its bundle where its operation answers a stop. -/
theorem stops_guarded {k : Instr} {i : SlotInstr} {g : Guard} {op : Op} {s : State} {e : Stop} (h : k.slot = some i)
    (hop : slotOp i = guarded g none op) (hb : k.begins g s) (hj : op (k.opening s) = .error e) : k.stops s e := by
  have ho : k.opn = i := by simp [Instr.opn, h]
  subst ho
  refine stops_of h hb.1 ?_
  rw [hop, guarded_true g none op (k.opn.opening s) hb.2.1]
  exact hj

/-- The same of a row with a memory operand. -/
theorem stops_guardedAt {k : Instr} {i : SlotInstr} {g : Guard} {a : BitVec 4} {am : BitVec 2} {op : Op} {s : State} {e : Stop}
    (h : k.slot = some i) (hop : slotOp i = guarded g (incOf a am) op) (hb : k.begins g s) (hj : op (k.openingAt s a am) = .error e) :
    k.stops s e := by
  have ho : k.opn = i := by simp [Instr.opn, h]
  subst ho
  refine stops_of h hb.1 ?_
  rw [hop, guarded_true g _ op (k.opn.opening s) hb.2.1]
  exact hj

/-- A request answered in the cycle it leaves the core, with none on its way, is the operation itself. -/
theorem asking_now (op : Op) (i : Issue) (hs : i.pre.slow.getLsbD i.slot = false)
    (ha : Tbl.get none i.s.answers (answerKey i.n i.slot) = none) : asking op i = op i := by
  simp [asking, ha, hs]

/-- A request not answered in that cycle is performed, and its bundle is held. -/
theorem asking_held (op : Op) (i j : Issue) (hs : i.pre.slow.getLsbD i.slot = true)
    (ha : Tbl.get none i.s.answers (answerKey i.n i.slot) = none) (ho : op i = .ok j) : asking op i = .error (.freeze (i.perform op)) := by
  simp [asking, ha, hs, ho]

/-- A request whose answer is back issues with it. -/
theorem asking_answered (op : Op) (i : Issue) (w : W64) (ha : Tbl.get none i.s.answers (answerKey i.n i.slot) = some w) :
    asking op i = i.withAnswer op w := by
  simp [asking, ha]

/-- The same of an operation that takes its effect when the answer is there. -/
theorem awaiting_now (op : Op) (i : Issue) (hs : i.pre.slow.getLsbD i.slot = false) : awaiting op i = op i := by
  simp [awaiting, hs]

/-- An M operation that no duty level holds back, its guard true. -/
theorem guardedM_true (g : Guard) (op : Op) (i : Issue) (h : i.pre.guardOk g = true) (hd : i.s.dutyHolds i.n = false) :
    guardedM g op i = (do let j ← op i; .ok (j.after (fun s => s.dutyCount i.n))) := by
  unfold guardedM
  rw [guarded_true g none _ i h]
  simp [hd]

/-- An M row whose guard holds completes with what its operation makes of the issue it starts from, counted by the duty cycle. -/
theorem endsM_guarded {k : Instr} {i : SlotInstr} {g : Guard} {op : Op} {s : State} {j : Issue} (h : k.slot = some i)
    (hop : slotOp i = guardedM g op) (hu : i.unit = .m) (hb : k.begins g s) (hj : op (k.opening s) = .ok j) : k.endsM s j := by
  have ho : k.opn = i := by simp [Instr.opn, h]
  subst ho
  refine ends_of h hb.1 ?_
  rw [hop, guardedM_true g op (k.opn.opening s) hb.2.1 (hb.2.2 hu), show op (k.opn.opening s) = .ok j from hj]
  rfl

theorem opening_answers (k : Instr) (s : State) : (k.opening s).s.answers = s.answers := rfl
theorem opening_slow (k : Instr) (s : State) : (k.opening s).pre.slow = s.pre.slow := rfl
theorem opening_slot (k : Instr) (s : State) : (k.opening s).slot = k.opn.place := rfl
theorem opening_n (k : Instr) (s : State) : (k.opening s).n = s.cur := rfl

/-- A row that makes a request completes, when the request is answered at once, with what its operation makes of the issue it starts from. -/
theorem ends_asking {k : Instr} {i : SlotInstr} {g : Guard} {op : Op} {s : State} {j : Issue} (h : k.slot = some i)
    (hop : slotOp i = guarded g none (asking op)) (hb : k.asks g s) (hj : op (k.opening s) = .ok j) : k.ends s j := by
  have ho : k.opn = i := by simp [Instr.opn, h]
  refine ends_guarded h hop hb.1 ?_
  rw [asking_now op (k.opening s) (by rw [opening_slow, opening_slot]; exact hb.2.1) (by rw [opening_answers, opening_n, opening_slot]; exact hb.2.2.1)]
  exact hj

/-- The same of a stop. -/
theorem stops_asking {k : Instr} {i : SlotInstr} {g : Guard} {op : Op} {s : State} {e : Stop} (h : k.slot = some i)
    (hop : slotOp i = guarded g none (asking op)) (hb : k.asks g s) (hj : op (k.opening s) = .error e) : k.stops s e := by
  have ho : k.opn = i := by simp [Instr.opn, h]
  refine stops_guarded h hop hb.1 ?_
  rw [asking_now op (k.opening s) (by rw [opening_slow, opening_slot]; exact hb.2.1) (by rw [opening_answers, opening_n, opening_slot]; exact hb.2.2.1)]
  exact hj

end Sys2Proof.Machine
end

