-- ==== Sys2Proof/Laws/Registers.lean ====
section
/-! SUPPORT. Registers under the operations of a bundle's end: writes, results that land, address updates (02_core.md R25 to R29, R34,
R43, R148). -/

namespace Sys2Proof.Machine

/-! ### Register writes -/

theorem getG_setG (c : Core) (r k : Nat) (x : W64) : (c.setG r x).getG k = if k = r ∧ r ≠ 0 then x else c.getG k := by
  unfold Core.setG Core.getG
  by_cases hr : r = 0
  · simp [hr]
  · by_cases hk : k = 0
    · simp [hr, hk]; intro h; omega
    · simp [hr, hk, Tbl.get_set]

theorem getA_setA (c : Core) (r k : Nat) (x : W64) : (c.setA r x).getA k = if k = r then x else c.getA k := by
  simp [Core.setA, Core.getA, Tbl.get_set]

theorem getStride_setStride (c : Core) (r k : Nat) (x : W64) : (c.setStride r x).getStride k = if k = r then x else c.getStride k := by
  simp [Core.setStride, Core.getStride, Tbl.get_set]

theorem getP_setP (c : Core) (r k : Nat) (x : Bool) : (c.setP r x).getP k = if k = r ∧ r ≠ 0 then x else c.getP k := by
  unfold Core.setP Core.getP
  by_cases hr : r = 0
  · simp [hr]
  · by_cases hk : k = 0
    · simp [hr, hk]; exact .inl (fun h => hr h.symm)
    · simp [hr, hk, Tbl.get_set]

theorem getB_setB (c : Core) (r k : Nat) (x : W64) :
    (c.setB r x).getB k = if k = r then BitVec.ofNat 64 (x.toNat % 2 ^ 48) else c.getB k := by
  unfold Core.setB Core.getB
  simp only [Tbl.get_set]
  split
  · rw [BitVec.toNat_ofNat, Nat.mod_eq_of_lt (a := x.toNat % 2 ^ 48) (by omega), Nat.mod_mod]
  · rfl

theorem getM_setM (c : Core) (r k : Nat) (x : Mask) : (c.setM r x).getM k = if k = r ∧ r ≠ 0 then x else c.getM k := by
  unfold Core.setM Core.getM
  by_cases hr : r = 0
  · simp [hr]
  · by_cases hk : k = 0
    · simp [hr, hk]; intro h; omega
    · simp [hr, hk, Tbl.get_set]

theorem getV_setV (c : Core) (r k : Nat) (x : Vec) : (c.setV r x).getV k = if k = r then x else c.getV k := by
  simp [Core.setV, Core.getV, Tbl.get_set]

/-! ### Results that land -/

@[simp] theorem reg_pushLatch (c : Core) (u : UnitId) (x : Vec) (f : RegFile) (r : Nat) : (c.pushLatch u x).reg f r = c.reg f r := by
  cases f <;> rfl

/-- A landed result's register holds it. -/
theorem reg_landOne_hit (c : Core) (p : Pending) (hw : ¬ wired p.file p.reg) : (c.landOne p).reg p.file p.reg = fitted p.file p.value := by
  unfold Core.landOne
  rw [reg_pushLatch]
  obtain ⟨u, pf, pr, v, t, d⟩ := p
  cases pf <;> simp_all [wired, fitted, Core.reg, getG_setG, getA_setA, getP_setP, getB_setB, getM_setM, getV_setV]

/-- Every other register keeps what it held. -/
theorem reg_landOne_miss (c : Core) (p : Pending) (f : RegFile) (r : Nat) (h : p.file = f → p.reg = r → wired f r) :
    (c.landOne p).reg f r = c.reg f r := by
  unfold Core.landOne
  rw [reg_pushLatch]
  obtain ⟨u, pf, pr, v, t, d⟩ := p
  cases pf <;> cases f <;> first
    | rfl
    | (simp only [Core.setG, Core.setP, Core.setM]; split <;> rfl)
    | (have h' : pr = r → wired _ r := h rfl
       simp only [wired, reduceCtorEq, false_or, or_false, and_true, and_false] at h'
       simp only [Core.reg, getG_setG, getA_setA, getP_setP, getB_setB, getM_setM, getV_setV]
       split
       · rename_i hk
         first
           | (exact absurd (h' hk.1.symm) (fun e => hk.2 (hk.1.symm.trans e)))
           | (exact (h' hk.symm).elim)
       · rfl)

theorem landOne_pend (c : Core) (p : Pending) : (c.landOne p).pend = c.pend := by
  obtain ⟨u, pf, pr, v, t, d⟩ := p
  cases pf <;> simp only [Core.landOne, Core.pushLatch, Core.setG, Core.setA, Core.setP, Core.setB, Core.setV, Core.setM] <;> (try split) <;> rfl

theorem landAll_pend (l : List Pending) (c : Core) : (l.foldl Core.landOne c).pend = c.pend := by
  induction l generalizing c with
  | nil => rfl
  | cons p l ih => rw [List.foldl_cons, ih, landOne_pend]

theorem reg_landAll_other (l : List Pending) (c : Core) (f : RegFile) (r : Nat) (h : ∀ p ∈ l, p.file = f → p.reg ≠ r) :
    (l.foldl Core.landOne c).reg f r = c.reg f r := by
  induction l generalizing c with
  | nil => rfl
  | cons p l ih =>
    rw [List.foldl_cons, ih _ (fun q hq => h q (by simp [hq]))]
    exact reg_landOne_miss _ _ _ _ (fun hf hr => absurd hr (h p (by simp) hf))

theorem reg_landAll_wired (l : List Pending) (c : Core) (f : RegFile) (r : Nat) (h : wired f r) :
    (l.foldl Core.landOne c).reg f r = c.reg f r := by
  induction l generalizing c with
  | nil => rfl
  | cons p l ih => rw [List.foldl_cons, ih]; exact reg_landOne_miss _ _ _ _ (fun _ _ => h)

theorem reg_landAll_last (l1 l2 : List Pending) (p : Pending) (c : Core) (f : RegFile) (r : Nat) (hf : p.file = f) (hr : p.reg = r)
    (hw : ¬ wired f r) (h : ∀ q ∈ l2, q.file = f → q.reg ≠ r) :
    ((l1 ++ p :: l2).foldl Core.landOne c).reg f r = fitted f p.value := by
  subst hf hr
  rw [List.foldl_append, List.foldl_cons, reg_landAll_other _ _ _ _ h, reg_landOne_hit _ _ hw]

end Sys2Proof.Machine
end

