-- ==== Sys2Proof/Laws/BundleEnd.lean ====
section
/-! SUPPORT. The end of a bundle whose slots did nothing but read, deliver results and step address registers (02_core.md R27 to R31, R43 to
R45, R148): the state it leaves, and what of its core it keeps. -/

namespace Sys2Proof.Machine

/-! ### What the steps of the end keep of a core -/

@[simp] theorem rest_pushLatch (c : Core) (u : UnitId) (x : Vec) : (c.pushLatch u x).rest = c.rest := rfl

@[simp] theorem rest_landOne (c : Core) (p : Pending) : (c.landOne p).rest = c.rest := by
  unfold Core.landOne
  rw [rest_pushLatch]
  obtain ⟨u, pf, pr, v, t, d⟩ := p
  cases pf <;> simp only [Core.setG, Core.setA, Core.setP, Core.setB, Core.setV, Core.setM] <;> (try split) <;> rfl

@[simp] theorem rest_landAll (l : List Pending) (c : Core) : (l.foldl Core.landOne c).rest = c.rest := by
  induction l generalizing c with
  | nil => rfl
  | cons p l ih => rw [List.foldl_cons, ih, rest_landOne]

/-- An issue cycle: the results due land, in order, on the core. -/
theorem idleCycle_eq (c : Core) : c.idleCycle =
    (c.pend.filter (fun p => decide (p.due ≤ c.ic + 1))).foldl Core.landOne
      { c with ic := c.ic + 1, pend := c.pend.filter (fun p => decide (c.ic + 1 < p.due)) } := rfl

@[simp] theorem rest_idleCycle (c : Core) : c.idleCycle.rest = c.rest := by rw [idleCycle_eq, rest_landAll]; rfl

theorem idleCycle_pend (c : Core) : c.idleCycle.pend = c.pend.filter (fun p => decide (c.ic + 1 < p.due)) := by
  rw [idleCycle_eq, landAll_pend]

theorem reg_idleCycle_still (c : Core) (f : RegFile) (r : Nat) (h : c.still f r) : c.idleCycle.reg f r = c.reg f r := by
  rw [idleCycle_eq, reg_landAll_other]
  · cases f <;> rfl
  · intro p hp hf hr
    have := h p (List.mem_filter.1 hp).1 hf hr
    have := of_decide_eq_true (List.mem_filter.1 hp).2
    omega

theorem reg_idleCycle_wired (c : Core) (f : RegFile) (r : Nat) (h : wired f r) : c.idleCycle.reg f r = c.reg f r := by
  rw [idleCycle_eq, reg_landAll_wired _ _ _ _ h]; cases f <;> rfl

/-- The last result due on a register is what it holds. -/
theorem reg_idleCycle_due (c : Core) (l1 l2 : List Pending) (p : Pending) (h : c.pend = l1 ++ p :: l2) (hd : p.due ≤ c.ic + 1)
    (hw : ¬ wired p.file p.reg) (hl : ∀ q ∈ l2, q.file = p.file → q.reg = p.reg → c.ic + 1 < q.due) :
    c.idleCycle.reg p.file p.reg = fitted p.file p.value := by
  have hfil : c.pend.filter (fun p => decide (p.due ≤ c.ic + 1)) = l1.filter (fun p => decide (p.due ≤ c.ic + 1)) ++
      p :: l2.filter (fun p => decide (p.due ≤ c.ic + 1)) := by
    rw [h, List.filter_append, List.filter_cons, if_pos (by simpa using hd)]
  rw [idleCycle_eq, hfil]
  refine reg_landAll_last _ _ _ _ _ _ rfl rfl hw ?_
  intro q hq hf hr
  have := hl q (List.mem_filter.1 hq).1 hf hr
  have := of_decide_eq_true (List.mem_filter.1 hq).2
  omega

/-! ### Address updates and the next bundle's place -/

theorem addIncs_rest (c : Core) (l : List (Nat × W64)) : (c.addIncs l).rest = c.rest := by
  unfold Core.addIncs
  induction l generalizing c with
  | nil => rfl
  | cons x l ih => rw [List.foldl_cons, ih]; rfl

theorem addIncs_reg (c : Core) (l : List (Nat × W64)) (f : RegFile) (r : Nat) (h : f = .a → ∀ x ∈ l, x.1 ≠ r) :
    (c.addIncs l).reg f r = c.reg f r := by
  unfold Core.addIncs
  induction l generalizing c with
  | nil => rfl
  | cons x l ih =>
    rw [List.foldl_cons, ih _ (fun hf y hy => h hf y (by simp [hy]))]
    cases f <;> first
      | rfl
      | (have := h rfl x (by simp)
         simp only [Core.reg, getA_setA]
         rw [if_neg (fun e => this e.symm)])

@[simp] theorem leave_rest (c : Core) (l : List (Nat × W64)) (n : W64 × Option Nat) (w : BitVec 4) : (c.leave l n w).rest = c.rest := by
  rw [← addIncs_rest c l]; rfl

theorem leave_reg (c : Core) (l : List (Nat × W64)) (n : W64 × Option Nat) (w : BitVec 4) (f : RegFile) (r : Nat) (h : f = .a → ∀ x ∈ l, x.1 ≠ r) :
    (c.leave l n w).reg f r = c.reg f r := by
  rw [← addIncs_reg c l f r h]; cases f <;> rfl

@[simp] theorem cutCheck_rest (c : Core) (q : Bool) : (c.cutCheck q).rest = c.rest := by
  unfold Core.cutCheck; split <;> (try split) <;> rfl

@[simp] theorem cutCheck_reg (c : Core) (q : Bool) (f : RegFile) (r : Nat) : (c.cutCheck q).reg f r = c.reg f r := by
  unfold Core.cutCheck; cases f <;> split <;> (try split) <;> rfl

/-! ### The loop sequencer -/

theorem setP_rest (c : Core) (r : Nat) (x : Bool) : (c.setP r x).rest = c.rest := by unfold Core.setP; split <;> rfl

theorem setP_reg (c : Core) (k : Nat) (x : Bool) (f : RegFile) (r : Nat) (h : f ≠ .p) : (c.setP k x).reg f r = c.reg f r := by
  unfold Core.setP; split <;> cases f <;> first | rfl | exact absurd rfl h

theorem setP_pend (c : Core) (k : Nat) (x : Bool) : (c.setP k x).pend = c.pend ∧ (c.setP k x).ic = c.ic := by
  unfold Core.setP; split <;> exact ⟨rfl, rfl⟩

/-- What a rotation and a wrap keep: every file but p, and the rest. -/
def Core.sameBut (c d : Core) : Prop :=
  d.rest = c.rest ∧ (∀ f r, f ≠ .p → d.reg f r = c.reg f r) ∧ d.pend = c.pend ∧ d.ic = c.ic ∧ d.mx = c.mx ∧ d.ifr = c.ifr ∧
    d.dutyGroup = c.dutyGroup ∧ d.dutyUsed = c.dutyUsed ∧ d.latches = c.latches ∧ d.latv = c.latv ∧ d.latinv = c.latinv ∧ d.holdinv = c.holdinv

theorem Core.sameBut.refl (c : Core) : c.sameBut c := ⟨rfl, fun _ _ _ => rfl, rfl, rfl, rfl, rfl, rfl, rfl, rfl, rfl, rfl, rfl⟩

theorem Core.sameBut.trans {c d e : Core} (h : c.sameBut d) (k : d.sameBut e) : c.sameBut e := by
  obtain ⟨h1, h2, h3, h4, h5, h6, h7, h8, h9, h10, h11, h12⟩ := h
  obtain ⟨k1, k2, k3, k4, k5, k6, k7, k8, k9, k10, k11, k12⟩ := k
  exact ⟨k1.trans h1, fun f r hf => (k2 f r hf).trans (h2 f r hf), k3.trans h3, k4.trans h4, k5.trans h5, k6.trans h6, k7.trans h7, k8.trans h8,
    k9.trans h9, k10.trans h10, k11.trans h11, k12.trans h12⟩

theorem sameBut_setP (c : Core) (k : Nat) (x : Bool) : c.sameBut (c.setP k x) := by
  refine ⟨setP_rest c k x, fun f r hf => setP_reg c k x f r hf, (setP_pend c k x).1, (setP_pend c k x).2, ?_⟩
  unfold Core.setP; split <;> exact ⟨rfl, rfl, rfl, rfl, rfl, rfl, rfl, rfl⟩

theorem sameBut_loops (c : Core) (l : LoopCtl) (t : Tbl LStat) (w : BitVec 6) : c.sameBut { c with lctl := l, lstat := t, wrapped := w } :=
  ⟨rfl, fun f _ _ => by cases f <;> rfl, rfl, rfl, rfl, rfl, rfl, rfl, rfl, rfl, rfl, rfl⟩

theorem sameBut_rotate (c : Core) (n : Bool) : c.sameBut (c.rotate n) := by
  unfold Core.rotate
  have hl : ∀ (l : List Nat) (d : Core), d.sameBut (l.foldl (fun (c' : Core) i => c'.setP (15 - i) (c.getP (14 - i))) d) := by
    intro l
    induction l with
    | nil => exact fun d => .refl d
    | cons i l ih => exact fun d => (sameBut_setP d _ _).trans (ih _)
  refine (hl (List.range 7) c).trans ((sameBut_setP _ 8 n).trans ?_)
  exact sameBut_loops _ _ _ _

theorem sameBut_wrap (c : Core) (l : Nat) : c.sameBut (c.wrap l).1 := by
  unfold Core.wrap
  dsimp only
  split
  · exact (sameBut_loops c c.lctl _ _).trans (sameBut_rotate _ _)
  · exact sameBut_loops c c.lctl _ _

theorem sameBut_sequence (idx n : Nat) (c : Core) (ex : Bool) : c.sameBut (c.sequence idx n ex).1 := by
  induction n generalizing c ex with
  | zero => exact .refl c
  | succ n ih =>
    unfold Core.sequence
    dsimp only
    split
    · exact .refl c
    · split
      · exact sameBut_wrap c _
      · exact (sameBut_loops c _ c.lstat c.wrapped).trans (ih _ _)

/-! ### The whole -/

/-- An issue whose slots asked for nothing at the end of the bundle. -/
def Issue.plain (j : Issue) : Prop :=
  j.taken = none ∧ j.loopAt = none ∧ j.level = false ∧ j.halted = false ∧ j.final = id ∧ j.post = id ∧ j.trapAfter = none ∧ j.cmds = []

theorem startAll_nil (s : State) (n : Nat) : startAll s n [] = s := rfl

/-- The core that the sequencer hands on. -/
def Issue.turnedCore (j : Issue) : Core := if j.sequenced.2.2.2 then j.sequenced.1.invalidate else j.sequenced.1

/-- The state at the end of a plain bundle. -/
theorem finish_plain (j : Issue) (h : j.plain) (q : Bool) : j.finish q =
    (((j.s.setCore j.n j.turnedCore.idleCycle).upd j.n
      (fun c => (c.leave (j.incs ++ j.sequenced.2.1) (j.next j.sequenced.1 j.sequenced.2.2.1) (Config.freeSlow j.n c.nextAt)).cutCheck q)).endRequests j.n) := by
  obtain ⟨ht, hl, hv, hh, hf, hp, ha, hc⟩ := h
  unfold Issue.finish Issue.turnedCore
  simp only [ht, hv, hh, hf, hp, ha, hc, startAll_nil, Option.isSome_none, Bool.false_or, Bool.false_eq_true, if_false, id]

theorem endRequests_core (s : State) (n m : Nat) : (s.endRequests n).core m =
    if m = n then { s.core n with ifr := (s.core n).ifr.filter (fun e => e.1 < 96) } else s.core m := by
  unfold State.endRequests
  split
  · rename_i h
    have : (s.core n).ifr.filter (fun e => decide (e.1 < 96)) = (s.core n).ifr := List.filter_eq_self.2 (by simpa using h)
    by_cases hm : m = n
    · subst hm; simp [this]
    · simp [hm]
  · rw [core_upd]

/-- The core at the end of a plain bundle. -/
theorem finish_core (j : Issue) (h : j.plain) (q : Bool) (m : Nat) : (j.finish q).core m =
    if m = j.n then
      let c := (j.turnedCore.idleCycle.leave (j.incs ++ j.sequenced.2.1) (j.next j.sequenced.1 j.sequenced.2.2.1) (Config.freeSlow j.n j.turnedCore.idleCycle.nextAt)).cutCheck q
      { c with ifr := c.ifr.filter (fun e => e.1 < 96) }
    else j.s.core m := by
  rw [finish_plain j h, endRequests_core]
  by_cases hm : m = j.n
  · simp only [hm, if_true, core_upd, core_setCore]
  · simp only [hm, if_false, core_upd, core_setCore]

/-- Two cores agree in all but a stop, request entries and the matrix duty. -/
def Core.agrees (c d : Core) : Prop :=
  d.rest = c.rest ∧ (∀ f r, d.reg f r = c.reg f r) ∧ d.stride = c.stride ∧ d.pend = c.pend ∧ d.ic = c.ic ∧ d.mx = c.mx ∧ d.latches = c.latches ∧
    d.latv = c.latv ∧ d.held = c.held ∧ d.holdv = c.holdv ∧ d.lctl = c.lctl ∧ d.lstat = c.lstat ∧ d.wrapped = c.wrapped ∧ d.pc = c.pc ∧
    d.lbix = c.lbix ∧ d.cdiag = c.cdiag

theorem Core.agrees.trans {c d e : Core} (h : c.agrees d) (k : d.agrees e) : c.agrees e := by
  obtain ⟨h1, h2, h3, h4, h5, h6, h7, h8, h9, h10, h11, h12, h13, h14, h15, h16⟩ := h
  obtain ⟨k1, k2, k3, k4, k5, k6, k7, k8, k9, k10, k11, k12, k13, k14, k15, k16⟩ := k
  exact ⟨k1.trans h1, fun f r => (k2 f r).trans (h2 f r), k3.trans h3, k4.trans h4, k5.trans h5, k6.trans h6, k7.trans h7, k8.trans h8,
    k9.trans h9, k10.trans h10, k11.trans h11, k12.trans h12, k13.trans h13, k14.trans h14, k15.trans h15, k16.trans h16⟩

theorem agrees_cutCheck (c : Core) (q : Bool) : c.agrees (c.cutCheck q) := by
  refine ⟨cutCheck_rest c q, cutCheck_reg c q, ?_⟩
  unfold Core.cutCheck
  split <;> (try split) <;> exact ⟨rfl, rfl, rfl, rfl, rfl, rfl, rfl, rfl, rfl, rfl, rfl, rfl, rfl, rfl⟩

theorem agrees_ifr (c : Core) (l : List (Nat × IfrEntry)) : c.agrees { c with ifr := l } :=
  ⟨rfl, fun f _ => by cases f <;> rfl, rfl, rfl, rfl, rfl, rfl, rfl, rfl, rfl, rfl, rfl, rfl, rfl, rfl, rfl⟩

/-- The core that goes on from a plain bundle. -/
def Issue.goesOn (j : Issue) : Core :=
  j.turnedCore.idleCycle.leave (j.incs ++ j.sequenced.2.1) (j.next j.sequenced.1 j.sequenced.2.2.1) (Config.freeSlow j.n j.turnedCore.idleCycle.nextAt)

theorem finish_agrees (j : Issue) (h : j.plain) (q : Bool) : j.goesOn.agrees ((j.finish q).core j.n) := by
  rw [finish_core j h, if_pos rfl]
  exact (agrees_cutCheck _ q).trans (agrees_ifr _ _)

/-- The core that a plain bundle of one operation leaves. -/
theorem closing_agrees (i : SlotInstr) (s : State) (j : Issue) (h : j.plain) (hn : j.n = s.cur) :
    j.goesOn.agrees ((i.closing s j).core s.cur) :=
  hn ▸ finish_agrees j h _

/-- The state beside its cores. -/
def State.sansCores (s : State) : State := { s with cores := [] }

@[simp] theorem sansCores_setCore (s : State) (n : Nat) (c : Core) : (s.setCore n c).sansCores = s.sansCores := rfl
@[simp] theorem sansCores_upd (s : State) (n : Nat) (f : Core → Core) : (s.upd n f).sansCores = s.sansCores := rfl
@[simp] theorem sansCores_endRequests (s : State) (n : Nat) : (s.endRequests n).sansCores = s.sansCores := by
  unfold State.endRequests; split
  · rfl
  · exact sansCores_upd _ _ _
theorem eq_of_sansCores {s t : State} (h : t.sansCores = s.sansCores) : ({ t with cores := s.cores } : State) = s := by
  have := congrArg (fun x : State => ({ x with cores := s.cores } : State)) h
  exact this

theorem finish_sansCores (j : Issue) (h : j.plain) (q : Bool) : (j.finish q).sansCores = j.s.sansCores := by
  rw [finish_plain j h, sansCores_endRequests, sansCores_upd, sansCores_setCore]

/-- Everything beside the cores is as the issue left it. -/
theorem closing_sansCores (i : SlotInstr) (s : State) (j : Issue) (h : j.plain) : (i.closing s j).sansCores = j.s.sansCores :=
  finish_sansCores j h _

/-- Every other core is as the issue left it. -/
theorem closing_others (i : SlotInstr) (s : State) (j : Issue) (h : j.plain) (hn : j.n = s.cur) (m : Nat) (hm : m ≠ s.cur) :
    (i.closing s j).core m = j.s.core m := by
  unfold SlotInstr.closing
  rw [finish_core j h, if_neg (by rw [hn]; exact hm)]

/-- The sequencer's core is the issue's but for p and the loop registers. -/
theorem sequenced_sameBut (j : Issue) : j.core.sameBut j.sequenced.1 := by
  unfold Issue.sequenced
  split
  · exact sameBut_sequence _ _ _ _
  · exact .refl _

theorem sequenced_none (j : Issue) (h : j.pre.lbix = none) : j.sequenced = (j.core, [], none, false) := by
  unfold Issue.sequenced; rw [h]

theorem turnedCore_none (j : Issue) (h : j.pre.lbix = none) : j.turnedCore = j.core := by
  unfold Issue.turnedCore; rw [sequenced_none j h]; rfl

/-- The core handed on by the sequencer keeps what an issue left of every file but p. -/
theorem turnedCore_keeps (j : Issue) : j.turnedCore.rest = j.core.rest ∧ (∀ f r, f ≠ .p → j.turnedCore.reg f r = j.core.reg f r) ∧
    j.turnedCore.pend = j.core.pend ∧ j.turnedCore.ic = j.core.ic ∧ j.turnedCore.mx = j.core.mx := by
  obtain ⟨h1, h2, h3, h4, h5, -⟩ := sequenced_sameBut j
  unfold Issue.turnedCore
  split
  · exact ⟨h1, fun f r hf => by rw [← h2 f r hf]; cases f <;> rfl, h3, h4, h5⟩
  · exact ⟨h1, h2, h3, h4, h5⟩

/-! ### Issues that have only read, and results -/

theorem onlyRead_facts {i : SlotInstr} {s : State} {j : Issue} (h : i.onlyRead s j) :
    j.n = s.cur ∧ j.pre = s.pre ∧ j.incs = [] ∧ j.plain ∧ j.unit = i.unit := by
  have h1 := h.1
  exact ⟨congrArg Issue.n h1, congrArg Issue.pre h1, congrArg Issue.incs h1, ⟨congrArg Issue.taken h1, congrArg Issue.loopAt h1, congrArg Issue.level h1,
    congrArg Issue.halted h1, congrArg Issue.final h1, congrArg Issue.post h1, congrArg Issue.trapAfter h1, congrArg Issue.cmds h1⟩,
    congrArg Issue.unit h1⟩

theorem result_core (j : Issue) (f : RegFile) (r : Nat) (x : Vec) (lat : Nat) : (j.result f r x lat).core =
    { j.core with pend := j.core.pend ++ [⟨j.unit, f, r, x, j.pre.ic, j.pre.ic + lat⟩] } := by
  show ((j.s.upd j.n _).core j.n) = _
  rw [core_upd, if_pos rfl]; rfl

theorem onlyRead_core {i : SlotInstr} {s : State} {j : Issue} (h : i.onlyRead s j) :
    j.core.pend = s.pre.pend ∧ j.core.ic = s.pre.ic ∧ (∀ f r, j.core.reg f r = s.pre.reg f r) ∧ j.core.latches = s.pre.latches ∧ j.core.latv = s.pre.latv ∧ j.core.rest = s.pre.rest ∧ j.core.stride = s.pre.stride ∧ j.core.mx = s.pre.mx ∧ j.core.lctl = s.pre.lctl ∧ j.core.lstat = s.pre.lstat := by
  have h2 := h.2.1
  refine ⟨by have := congrArg Core.pend h2; exact this, by have := congrArg Core.ic h2; exact this, ?_, by have := congrArg Core.latches h2; exact this, by have := congrArg Core.latv h2; exact this, by have := congrArg Core.rest h2; exact this, by have := congrArg Core.stride h2; exact this, by have := congrArg Core.mx h2; exact this, by have := congrArg Core.lctl h2; exact this, by have := congrArg Core.lstat h2; exact this⟩
  intro f r
  rw [← h2]; cases f <;> rfl

theorem plain_result (j : Issue) (h : j.plain) (f r x lat) : (j.result f r x lat).plain := h

/-- A register at the end of a plain bundle is what the issue cycle left of it. -/
theorem goesOn_reg (j : Issue) (hinc : j.incs = []) (f : RegFile) (r : Nat) (hu : j.pre.unwrapped f) :
    j.goesOn.reg f r = j.turnedCore.idleCycle.reg f r := by
  unfold Issue.goesOn
  rw [leave_reg]
  intro hf
  rcases hu with hu | hu
  · rw [sequenced_none j hu, hinc]; simp
  · exact absurd hf hu.1

theorem turned_reg (j : Issue) (f : RegFile) (r : Nat) (hu : j.pre.unwrapped f) : j.turnedCore.reg f r = j.core.reg f r := by
  rcases hu with hu | hu
  · rw [turnedCore_none j hu]
  · exact (turnedCore_keeps j).2.1 f r hu.2

end Sys2Proof.Machine
end

