-- ==== Sys2Proof/Laws/State.lean ====
section
/-! SUPPORT. The state's named updates, field by field: what each leaves alone, and what the accessors read after it. -/

namespace Sys2Proof.Machine

/-! ### Reading back what was written -/

@[simp] theorem core_setCore_self (s : State) (n : Nat) (c : Core) : (s.setCore n c).core n = c := by
  simp [State.core, State.setCore, Tbl.get_set]

theorem core_setCore_ne (s : State) (n m : Nat) (c : Core) (h : m ≠ n) : (s.setCore n c).core m = s.core m := by
  simp [State.core, State.setCore, Tbl.get_set, h]

@[simp] theorem core_upd_self (s : State) (n : Nat) (f : Core → Core) : (s.upd n f).core n = f (s.core n) := core_setCore_self s n _

theorem core_upd_ne (s : State) (n m : Nat) (f : Core → Core) (h : m ≠ n) : (s.upd n f).core m = s.core m := core_setCore_ne s n m _ h

@[simp] theorem ctx_setCtx_self (s : State) (x : Nat) (c : Ctx) : (s.setCtx x c).ctx x = c := by
  simp [State.ctx, State.setCtx, Tbl.get_set]

theorem ctx_setCtx_ne (s : State) (x y : Nat) (c : Ctx) (h : y ≠ x) : (s.setCtx x c).ctx y = s.ctx y := by
  simp [State.ctx, State.setCtx, Tbl.get_set, h]

@[simp] theorem ctx_updCtx_self (s : State) (x : Nat) (f : Ctx → Ctx) : (s.updCtx x f).ctx x = f (s.ctx x) := ctx_setCtx_self s x _

theorem ctx_updCtx_ne (s : State) (x y : Nat) (f : Ctx → Ctx) (h : y ≠ x) : (s.updCtx x f).ctx y = s.ctx y := ctx_setCtx_ne s x y _ h

@[simp] theorem kernel_setKernel_self (s : State) (k : Nat) (v : Kernel) : (s.setKernel k v).kernel k = some v := by
  simp [State.kernel, State.setKernel, Tbl.get_set]

theorem kernel_setKernel_ne (s : State) (k j : Nat) (v : Kernel) (h : j ≠ k) : (s.setKernel k v).kernel j = s.kernel j := by
  simp [State.kernel, State.setKernel, Tbl.get_set, h]

@[simp] theorem group_setGroup_self (s : State) (g : Nat) (v : Group) : (s.setGroup g v).group g = some v := by
  simp [State.group, State.setGroup, Tbl.get_set]

theorem group_setGroup_ne (s : State) (g j : Nat) (v : Group) (h : j ≠ g) : (s.setGroup g v).group j = s.group j := by
  simp [State.group, State.setGroup, Tbl.get_set, h]

@[simp] theorem port_setPort_self (s : State) (p : Nat) (v : Port) : (s.setPort p v).port p = v := by
  simp [State.port, State.setPort, Tbl.get_set]

@[simp] theorem tree_setTree_self (s : State) (k : Nat) (v : Tree) : (s.setTree k v).tree k = v := by
  simp [State.tree, State.setTree, Tbl.get_set]

@[simp] theorem tile_setTile_self (c : Core) (t : Nat) (v : Tile) : (c.setTile t v).tile t = v := by
  simp [Core.tile, Core.setTile, Tbl.get_set]

theorem tile_setTile_ne (c : Core) (t k : Nat) (v : Tile) (h : k ≠ t) : (c.setTile t v).tile k = c.tile k := by
  simp [Core.tile, Core.setTile, Tbl.get_set, h]

/-! ### What `State.setCore` leaves alone -/

@[simp] theorem setCore_now (s : State) (n : Nat) (c : Core) : (s.setCore n c).now = s.now := rfl
@[simp] theorem setCore_fresh (s : State) (n : Nat) (c : Core) : (s.setCore n c).fresh = s.fresh := rfl
@[simp] theorem setCore_agenda (s : State) (n : Nat) (c : Core) : (s.setCore n c).agenda = s.agenda := rfl
@[simp] theorem setCore_cur (s : State) (n : Nat) (c : Core) : (s.setCore n c).cur = s.cur := rfl
@[simp] theorem setCore_root (s : State) (n : Nat) (c : Core) : (s.setCore n c).root = s.root := rfl
@[simp] theorem setCore_mem (s : State) (n : Nat) (c : Core) : (s.setCore n c).mem = s.mem := rfl
@[simp] theorem setCore_seals (s : State) (n : Nat) (c : Core) : (s.setCore n c).seals = s.seals := rfl
@[simp] theorem setCore_keys (s : State) (n : Nat) (c : Core) : (s.setCore n c).keys = s.keys := rfl
@[simp] theorem setCore_dirs (s : State) (n : Nat) (c : Core) : (s.setCore n c).dirs = s.dirs := rfl
@[simp] theorem setCore_hostMem (s : State) (n : Nat) (c : Core) : (s.setCore n c).hostMem = s.hostMem := rfl
@[simp] theorem setCore_lineTimes (s : State) (n : Nat) (c : Core) : (s.setCore n c).lineTimes = s.lineTimes := rfl
@[simp] theorem setCore_locks (s : State) (n : Nat) (c : Core) : (s.setCore n c).locks = s.locks := rfl
@[simp] theorem setCore_rels (s : State) (n : Nat) (c : Core) : (s.setCore n c).rels = s.rels := rfl
@[simp] theorem setCore_answers (s : State) (n : Nat) (c : Core) : (s.setCore n c).answers = s.answers := rfl
@[simp] theorem setCore_sends (s : State) (n : Nat) (c : Core) : (s.setCore n c).sends = s.sends := rfl
@[simp] theorem setCore_ctxs (s : State) (n : Nat) (c : Core) : (s.setCore n c).ctxs = s.ctxs := rfl
@[simp] theorem setCore_xlate (s : State) (n : Nat) (c : Core) : (s.setCore n c).xlate = s.xlate := rfl
@[simp] theorem setCore_devMap (s : State) (n : Nat) (c : Core) : (s.setCore n c).devMap = s.devMap := rfl
@[simp] theorem setCore_fbuf (s : State) (n : Nat) (c : Core) : (s.setCore n c).fbuf = s.fbuf := rfl
@[simp] theorem setCore_outsides (s : State) (n : Nat) (c : Core) : (s.setCore n c).outsides = s.outsides := rfl
@[simp] theorem setCore_log (s : State) (n : Nat) (c : Core) : (s.setCore n c).log = s.log := rfl
@[simp] theorem setCore_dcnt (s : State) (n : Nat) (c : Core) : (s.setCore n c).dcnt = s.dcnt := rfl
@[simp] theorem setCore_deadDies (s : State) (n : Nat) (c : Core) : (s.setCore n c).deadDies = s.deadDies := rfl
@[simp] theorem setCore_qmap (s : State) (n : Nat) (c : Core) : (s.setCore n c).qmap = s.qmap := rfl
@[simp] theorem setCore_outQ (s : State) (n : Nat) (c : Core) : (s.setCore n c).outQ = s.outQ := rfl
@[simp] theorem setCore_spares (s : State) (n : Nat) (c : Core) : (s.setCore n c).spares = s.spares := rfl
@[simp] theorem setCore_kiosk (s : State) (n : Nat) (c : Core) : (s.setCore n c).kiosk = s.kiosk := rfl
@[simp] theorem setCore_part (s : State) (n : Nat) (c : Core) : (s.setCore n c).part = s.part := rfl
@[simp] theorem setCore_kernels (s : State) (n : Nat) (c : Core) : (s.setCore n c).kernels = s.kernels := rfl
@[simp] theorem setCore_nextKernel (s : State) (n : Nat) (c : Core) : (s.setCore n c).nextKernel = s.nextKernel := rfl
@[simp] theorem setCore_groups (s : State) (n : Nat) (c : Core) : (s.setCore n c).groups = s.groups := rfl
@[simp] theorem setCore_nextGroup (s : State) (n : Nat) (c : Core) : (s.setCore n c).nextGroup = s.nextGroup := rfl
@[simp] theorem setCore_cohorts (s : State) (n : Nat) (c : Core) : (s.setCore n c).cohorts = s.cohorts := rfl
@[simp] theorem setCore_nextCohort (s : State) (n : Nat) (c : Core) : (s.setCore n c).nextCohort = s.nextCohort := rfl
@[simp] theorem setCore_qbar (s : State) (n : Nat) (c : Core) : (s.setCore n c).qbar = s.qbar := rfl
@[simp] theorem setCore_dbar (s : State) (n : Nat) (c : Core) : (s.setCore n c).dbar = s.dbar := rfl
@[simp] theorem setCore_tags (s : State) (n : Nat) (c : Core) : (s.setCore n c).tags = s.tags := rfl
@[simp] theorem setCore_pubs (s : State) (n : Nat) (c : Core) : (s.setCore n c).pubs = s.pubs := rfl
@[simp] theorem setCore_leaves (s : State) (n : Nat) (c : Core) : (s.setCore n c).leaves = s.leaves := rfl
@[simp] theorem setCore_pgops (s : State) (n : Nat) (c : Core) : (s.setCore n c).pgops = s.pgops := rfl
@[simp] theorem setCore_kvcommits (s : State) (n : Nat) (c : Core) : (s.setCore n c).kvcommits = s.kvcommits := rfl
@[simp] theorem setCore_tickets (s : State) (n : Nat) (c : Core) : (s.setCore n c).tickets = s.tickets := rfl
@[simp] theorem setCore_sweeper (s : State) (n : Nat) (c : Core) : (s.setCore n c).sweeper = s.sweeper := rfl
@[simp] theorem setCore_samples (s : State) (n : Nat) (c : Core) : (s.setCore n c).samples = s.samples := rfl
@[simp] theorem setCore_voids (s : State) (n : Nat) (c : Core) : (s.setCore n c).voids = s.voids := rfl
@[simp] theorem setCore_ports (s : State) (n : Nat) (c : Core) : (s.setCore n c).ports = s.ports := rfl
@[simp] theorem setCore_trees (s : State) (n : Nat) (c : Core) : (s.setCore n c).trees = s.trees := rfl
@[simp] theorem setCore_treeReqs (s : State) (n : Nat) (c : Core) : (s.setCore n c).treeReqs = s.treeReqs := rfl
@[simp] theorem setCore_fns (s : State) (n : Nat) (c : Core) : (s.setCore n c).fns = s.fns := rfl
@[simp] theorem setCore_streams (s : State) (n : Nat) (c : Core) : (s.setCore n c).streams = s.streams := rfl
@[simp] theorem setCore_hostData (s : State) (n : Nat) (c : Core) : (s.setCore n c).hostData = s.hostData := rfl
@[simp] theorem setCore_preloads (s : State) (n : Nat) (c : Core) : (s.setCore n c).preloads = s.preloads := rfl
@[simp] theorem setCore_duty (s : State) (n : Nat) (c : Core) : (s.setCore n c).duty = s.duty := rfl
@[simp] theorem setCore_kept (s : State) (n : Nat) (c : Core) : (s.setCore n c).kept = s.kept := rfl

/-! ### What `State.upd` leaves alone -/

@[simp] theorem upd_now (s : State) (n : Nat) (f : Core → Core) : (s.upd n f).now = s.now := rfl
@[simp] theorem upd_fresh (s : State) (n : Nat) (f : Core → Core) : (s.upd n f).fresh = s.fresh := rfl
@[simp] theorem upd_agenda (s : State) (n : Nat) (f : Core → Core) : (s.upd n f).agenda = s.agenda := rfl
@[simp] theorem upd_cur (s : State) (n : Nat) (f : Core → Core) : (s.upd n f).cur = s.cur := rfl
@[simp] theorem upd_root (s : State) (n : Nat) (f : Core → Core) : (s.upd n f).root = s.root := rfl
@[simp] theorem upd_mem (s : State) (n : Nat) (f : Core → Core) : (s.upd n f).mem = s.mem := rfl
@[simp] theorem upd_seals (s : State) (n : Nat) (f : Core → Core) : (s.upd n f).seals = s.seals := rfl
@[simp] theorem upd_keys (s : State) (n : Nat) (f : Core → Core) : (s.upd n f).keys = s.keys := rfl
@[simp] theorem upd_dirs (s : State) (n : Nat) (f : Core → Core) : (s.upd n f).dirs = s.dirs := rfl
@[simp] theorem upd_hostMem (s : State) (n : Nat) (f : Core → Core) : (s.upd n f).hostMem = s.hostMem := rfl
@[simp] theorem upd_lineTimes (s : State) (n : Nat) (f : Core → Core) : (s.upd n f).lineTimes = s.lineTimes := rfl
@[simp] theorem upd_locks (s : State) (n : Nat) (f : Core → Core) : (s.upd n f).locks = s.locks := rfl
@[simp] theorem upd_rels (s : State) (n : Nat) (f : Core → Core) : (s.upd n f).rels = s.rels := rfl
@[simp] theorem upd_answers (s : State) (n : Nat) (f : Core → Core) : (s.upd n f).answers = s.answers := rfl
@[simp] theorem upd_sends (s : State) (n : Nat) (f : Core → Core) : (s.upd n f).sends = s.sends := rfl
@[simp] theorem upd_ctxs (s : State) (n : Nat) (f : Core → Core) : (s.upd n f).ctxs = s.ctxs := rfl
@[simp] theorem upd_xlate (s : State) (n : Nat) (f : Core → Core) : (s.upd n f).xlate = s.xlate := rfl
@[simp] theorem upd_devMap (s : State) (n : Nat) (f : Core → Core) : (s.upd n f).devMap = s.devMap := rfl
@[simp] theorem upd_fbuf (s : State) (n : Nat) (f : Core → Core) : (s.upd n f).fbuf = s.fbuf := rfl
@[simp] theorem upd_outsides (s : State) (n : Nat) (f : Core → Core) : (s.upd n f).outsides = s.outsides := rfl
@[simp] theorem upd_log (s : State) (n : Nat) (f : Core → Core) : (s.upd n f).log = s.log := rfl
@[simp] theorem upd_dcnt (s : State) (n : Nat) (f : Core → Core) : (s.upd n f).dcnt = s.dcnt := rfl
@[simp] theorem upd_deadDies (s : State) (n : Nat) (f : Core → Core) : (s.upd n f).deadDies = s.deadDies := rfl
@[simp] theorem upd_qmap (s : State) (n : Nat) (f : Core → Core) : (s.upd n f).qmap = s.qmap := rfl
@[simp] theorem upd_outQ (s : State) (n : Nat) (f : Core → Core) : (s.upd n f).outQ = s.outQ := rfl
@[simp] theorem upd_spares (s : State) (n : Nat) (f : Core → Core) : (s.upd n f).spares = s.spares := rfl
@[simp] theorem upd_kiosk (s : State) (n : Nat) (f : Core → Core) : (s.upd n f).kiosk = s.kiosk := rfl
@[simp] theorem upd_part (s : State) (n : Nat) (f : Core → Core) : (s.upd n f).part = s.part := rfl
@[simp] theorem upd_kernels (s : State) (n : Nat) (f : Core → Core) : (s.upd n f).kernels = s.kernels := rfl
@[simp] theorem upd_nextKernel (s : State) (n : Nat) (f : Core → Core) : (s.upd n f).nextKernel = s.nextKernel := rfl
@[simp] theorem upd_groups (s : State) (n : Nat) (f : Core → Core) : (s.upd n f).groups = s.groups := rfl
@[simp] theorem upd_nextGroup (s : State) (n : Nat) (f : Core → Core) : (s.upd n f).nextGroup = s.nextGroup := rfl
@[simp] theorem upd_cohorts (s : State) (n : Nat) (f : Core → Core) : (s.upd n f).cohorts = s.cohorts := rfl
@[simp] theorem upd_nextCohort (s : State) (n : Nat) (f : Core → Core) : (s.upd n f).nextCohort = s.nextCohort := rfl
@[simp] theorem upd_qbar (s : State) (n : Nat) (f : Core → Core) : (s.upd n f).qbar = s.qbar := rfl
@[simp] theorem upd_dbar (s : State) (n : Nat) (f : Core → Core) : (s.upd n f).dbar = s.dbar := rfl
@[simp] theorem upd_tags (s : State) (n : Nat) (f : Core → Core) : (s.upd n f).tags = s.tags := rfl
@[simp] theorem upd_pubs (s : State) (n : Nat) (f : Core → Core) : (s.upd n f).pubs = s.pubs := rfl
@[simp] theorem upd_leaves (s : State) (n : Nat) (f : Core → Core) : (s.upd n f).leaves = s.leaves := rfl
@[simp] theorem upd_pgops (s : State) (n : Nat) (f : Core → Core) : (s.upd n f).pgops = s.pgops := rfl
@[simp] theorem upd_kvcommits (s : State) (n : Nat) (f : Core → Core) : (s.upd n f).kvcommits = s.kvcommits := rfl
@[simp] theorem upd_tickets (s : State) (n : Nat) (f : Core → Core) : (s.upd n f).tickets = s.tickets := rfl
@[simp] theorem upd_sweeper (s : State) (n : Nat) (f : Core → Core) : (s.upd n f).sweeper = s.sweeper := rfl
@[simp] theorem upd_samples (s : State) (n : Nat) (f : Core → Core) : (s.upd n f).samples = s.samples := rfl
@[simp] theorem upd_voids (s : State) (n : Nat) (f : Core → Core) : (s.upd n f).voids = s.voids := rfl
@[simp] theorem upd_ports (s : State) (n : Nat) (f : Core → Core) : (s.upd n f).ports = s.ports := rfl
@[simp] theorem upd_trees (s : State) (n : Nat) (f : Core → Core) : (s.upd n f).trees = s.trees := rfl
@[simp] theorem upd_treeReqs (s : State) (n : Nat) (f : Core → Core) : (s.upd n f).treeReqs = s.treeReqs := rfl
@[simp] theorem upd_fns (s : State) (n : Nat) (f : Core → Core) : (s.upd n f).fns = s.fns := rfl
@[simp] theorem upd_streams (s : State) (n : Nat) (f : Core → Core) : (s.upd n f).streams = s.streams := rfl
@[simp] theorem upd_hostData (s : State) (n : Nat) (f : Core → Core) : (s.upd n f).hostData = s.hostData := rfl
@[simp] theorem upd_preloads (s : State) (n : Nat) (f : Core → Core) : (s.upd n f).preloads = s.preloads := rfl
@[simp] theorem upd_duty (s : State) (n : Nat) (f : Core → Core) : (s.upd n f).duty = s.duty := rfl
@[simp] theorem upd_kept (s : State) (n : Nat) (f : Core → Core) : (s.upd n f).kept = s.kept := rfl

/-! ### What `State.setCtx` leaves alone -/

@[simp] theorem setCtx_now (s : State) (x : Nat) (c : Ctx) : (s.setCtx x c).now = s.now := rfl
@[simp] theorem setCtx_fresh (s : State) (x : Nat) (c : Ctx) : (s.setCtx x c).fresh = s.fresh := rfl
@[simp] theorem setCtx_agenda (s : State) (x : Nat) (c : Ctx) : (s.setCtx x c).agenda = s.agenda := rfl
@[simp] theorem setCtx_cur (s : State) (x : Nat) (c : Ctx) : (s.setCtx x c).cur = s.cur := rfl
@[simp] theorem setCtx_root (s : State) (x : Nat) (c : Ctx) : (s.setCtx x c).root = s.root := rfl
@[simp] theorem setCtx_mem (s : State) (x : Nat) (c : Ctx) : (s.setCtx x c).mem = s.mem := rfl
@[simp] theorem setCtx_seals (s : State) (x : Nat) (c : Ctx) : (s.setCtx x c).seals = s.seals := rfl
@[simp] theorem setCtx_keys (s : State) (x : Nat) (c : Ctx) : (s.setCtx x c).keys = s.keys := rfl
@[simp] theorem setCtx_dirs (s : State) (x : Nat) (c : Ctx) : (s.setCtx x c).dirs = s.dirs := rfl
@[simp] theorem setCtx_hostMem (s : State) (x : Nat) (c : Ctx) : (s.setCtx x c).hostMem = s.hostMem := rfl
@[simp] theorem setCtx_lineTimes (s : State) (x : Nat) (c : Ctx) : (s.setCtx x c).lineTimes = s.lineTimes := rfl
@[simp] theorem setCtx_locks (s : State) (x : Nat) (c : Ctx) : (s.setCtx x c).locks = s.locks := rfl
@[simp] theorem setCtx_rels (s : State) (x : Nat) (c : Ctx) : (s.setCtx x c).rels = s.rels := rfl
@[simp] theorem setCtx_cores (s : State) (x : Nat) (c : Ctx) : (s.setCtx x c).cores = s.cores := rfl
@[simp] theorem setCtx_answers (s : State) (x : Nat) (c : Ctx) : (s.setCtx x c).answers = s.answers := rfl
@[simp] theorem setCtx_sends (s : State) (x : Nat) (c : Ctx) : (s.setCtx x c).sends = s.sends := rfl
@[simp] theorem setCtx_xlate (s : State) (x : Nat) (c : Ctx) : (s.setCtx x c).xlate = s.xlate := rfl
@[simp] theorem setCtx_devMap (s : State) (x : Nat) (c : Ctx) : (s.setCtx x c).devMap = s.devMap := rfl
@[simp] theorem setCtx_fbuf (s : State) (x : Nat) (c : Ctx) : (s.setCtx x c).fbuf = s.fbuf := rfl
@[simp] theorem setCtx_outsides (s : State) (x : Nat) (c : Ctx) : (s.setCtx x c).outsides = s.outsides := rfl
@[simp] theorem setCtx_log (s : State) (x : Nat) (c : Ctx) : (s.setCtx x c).log = s.log := rfl
@[simp] theorem setCtx_dcnt (s : State) (x : Nat) (c : Ctx) : (s.setCtx x c).dcnt = s.dcnt := rfl
@[simp] theorem setCtx_deadDies (s : State) (x : Nat) (c : Ctx) : (s.setCtx x c).deadDies = s.deadDies := rfl
@[simp] theorem setCtx_qmap (s : State) (x : Nat) (c : Ctx) : (s.setCtx x c).qmap = s.qmap := rfl
@[simp] theorem setCtx_outQ (s : State) (x : Nat) (c : Ctx) : (s.setCtx x c).outQ = s.outQ := rfl
@[simp] theorem setCtx_spares (s : State) (x : Nat) (c : Ctx) : (s.setCtx x c).spares = s.spares := rfl
@[simp] theorem setCtx_kiosk (s : State) (x : Nat) (c : Ctx) : (s.setCtx x c).kiosk = s.kiosk := rfl
@[simp] theorem setCtx_part (s : State) (x : Nat) (c : Ctx) : (s.setCtx x c).part = s.part := rfl
@[simp] theorem setCtx_kernels (s : State) (x : Nat) (c : Ctx) : (s.setCtx x c).kernels = s.kernels := rfl
@[simp] theorem setCtx_nextKernel (s : State) (x : Nat) (c : Ctx) : (s.setCtx x c).nextKernel = s.nextKernel := rfl
@[simp] theorem setCtx_groups (s : State) (x : Nat) (c : Ctx) : (s.setCtx x c).groups = s.groups := rfl
@[simp] theorem setCtx_nextGroup (s : State) (x : Nat) (c : Ctx) : (s.setCtx x c).nextGroup = s.nextGroup := rfl
@[simp] theorem setCtx_cohorts (s : State) (x : Nat) (c : Ctx) : (s.setCtx x c).cohorts = s.cohorts := rfl
@[simp] theorem setCtx_nextCohort (s : State) (x : Nat) (c : Ctx) : (s.setCtx x c).nextCohort = s.nextCohort := rfl
@[simp] theorem setCtx_qbar (s : State) (x : Nat) (c : Ctx) : (s.setCtx x c).qbar = s.qbar := rfl
@[simp] theorem setCtx_dbar (s : State) (x : Nat) (c : Ctx) : (s.setCtx x c).dbar = s.dbar := rfl
@[simp] theorem setCtx_tags (s : State) (x : Nat) (c : Ctx) : (s.setCtx x c).tags = s.tags := rfl
@[simp] theorem setCtx_pubs (s : State) (x : Nat) (c : Ctx) : (s.setCtx x c).pubs = s.pubs := rfl
@[simp] theorem setCtx_leaves (s : State) (x : Nat) (c : Ctx) : (s.setCtx x c).leaves = s.leaves := rfl
@[simp] theorem setCtx_pgops (s : State) (x : Nat) (c : Ctx) : (s.setCtx x c).pgops = s.pgops := rfl
@[simp] theorem setCtx_kvcommits (s : State) (x : Nat) (c : Ctx) : (s.setCtx x c).kvcommits = s.kvcommits := rfl
@[simp] theorem setCtx_tickets (s : State) (x : Nat) (c : Ctx) : (s.setCtx x c).tickets = s.tickets := rfl
@[simp] theorem setCtx_sweeper (s : State) (x : Nat) (c : Ctx) : (s.setCtx x c).sweeper = s.sweeper := rfl
@[simp] theorem setCtx_samples (s : State) (x : Nat) (c : Ctx) : (s.setCtx x c).samples = s.samples := rfl
@[simp] theorem setCtx_voids (s : State) (x : Nat) (c : Ctx) : (s.setCtx x c).voids = s.voids := rfl
@[simp] theorem setCtx_ports (s : State) (x : Nat) (c : Ctx) : (s.setCtx x c).ports = s.ports := rfl
@[simp] theorem setCtx_trees (s : State) (x : Nat) (c : Ctx) : (s.setCtx x c).trees = s.trees := rfl
@[simp] theorem setCtx_treeReqs (s : State) (x : Nat) (c : Ctx) : (s.setCtx x c).treeReqs = s.treeReqs := rfl
@[simp] theorem setCtx_fns (s : State) (x : Nat) (c : Ctx) : (s.setCtx x c).fns = s.fns := rfl
@[simp] theorem setCtx_streams (s : State) (x : Nat) (c : Ctx) : (s.setCtx x c).streams = s.streams := rfl
@[simp] theorem setCtx_hostData (s : State) (x : Nat) (c : Ctx) : (s.setCtx x c).hostData = s.hostData := rfl
@[simp] theorem setCtx_preloads (s : State) (x : Nat) (c : Ctx) : (s.setCtx x c).preloads = s.preloads := rfl
@[simp] theorem setCtx_duty (s : State) (x : Nat) (c : Ctx) : (s.setCtx x c).duty = s.duty := rfl
@[simp] theorem setCtx_kept (s : State) (x : Nat) (c : Ctx) : (s.setCtx x c).kept = s.kept := rfl

/-! ### What `State.updCtx` leaves alone -/

@[simp] theorem updCtx_now (s : State) (x : Nat) (f : Ctx → Ctx) : (s.updCtx x f).now = s.now := rfl
@[simp] theorem updCtx_fresh (s : State) (x : Nat) (f : Ctx → Ctx) : (s.updCtx x f).fresh = s.fresh := rfl
@[simp] theorem updCtx_agenda (s : State) (x : Nat) (f : Ctx → Ctx) : (s.updCtx x f).agenda = s.agenda := rfl
@[simp] theorem updCtx_cur (s : State) (x : Nat) (f : Ctx → Ctx) : (s.updCtx x f).cur = s.cur := rfl
@[simp] theorem updCtx_root (s : State) (x : Nat) (f : Ctx → Ctx) : (s.updCtx x f).root = s.root := rfl
@[simp] theorem updCtx_mem (s : State) (x : Nat) (f : Ctx → Ctx) : (s.updCtx x f).mem = s.mem := rfl
@[simp] theorem updCtx_seals (s : State) (x : Nat) (f : Ctx → Ctx) : (s.updCtx x f).seals = s.seals := rfl
@[simp] theorem updCtx_keys (s : State) (x : Nat) (f : Ctx → Ctx) : (s.updCtx x f).keys = s.keys := rfl
@[simp] theorem updCtx_dirs (s : State) (x : Nat) (f : Ctx → Ctx) : (s.updCtx x f).dirs = s.dirs := rfl
@[simp] theorem updCtx_hostMem (s : State) (x : Nat) (f : Ctx → Ctx) : (s.updCtx x f).hostMem = s.hostMem := rfl
@[simp] theorem updCtx_lineTimes (s : State) (x : Nat) (f : Ctx → Ctx) : (s.updCtx x f).lineTimes = s.lineTimes := rfl
@[simp] theorem updCtx_locks (s : State) (x : Nat) (f : Ctx → Ctx) : (s.updCtx x f).locks = s.locks := rfl
@[simp] theorem updCtx_rels (s : State) (x : Nat) (f : Ctx → Ctx) : (s.updCtx x f).rels = s.rels := rfl
@[simp] theorem updCtx_cores (s : State) (x : Nat) (f : Ctx → Ctx) : (s.updCtx x f).cores = s.cores := rfl
@[simp] theorem updCtx_answers (s : State) (x : Nat) (f : Ctx → Ctx) : (s.updCtx x f).answers = s.answers := rfl
@[simp] theorem updCtx_sends (s : State) (x : Nat) (f : Ctx → Ctx) : (s.updCtx x f).sends = s.sends := rfl
@[simp] theorem updCtx_xlate (s : State) (x : Nat) (f : Ctx → Ctx) : (s.updCtx x f).xlate = s.xlate := rfl
@[simp] theorem updCtx_devMap (s : State) (x : Nat) (f : Ctx → Ctx) : (s.updCtx x f).devMap = s.devMap := rfl
@[simp] theorem updCtx_fbuf (s : State) (x : Nat) (f : Ctx → Ctx) : (s.updCtx x f).fbuf = s.fbuf := rfl
@[simp] theorem updCtx_outsides (s : State) (x : Nat) (f : Ctx → Ctx) : (s.updCtx x f).outsides = s.outsides := rfl
@[simp] theorem updCtx_log (s : State) (x : Nat) (f : Ctx → Ctx) : (s.updCtx x f).log = s.log := rfl
@[simp] theorem updCtx_dcnt (s : State) (x : Nat) (f : Ctx → Ctx) : (s.updCtx x f).dcnt = s.dcnt := rfl
@[simp] theorem updCtx_deadDies (s : State) (x : Nat) (f : Ctx → Ctx) : (s.updCtx x f).deadDies = s.deadDies := rfl
@[simp] theorem updCtx_qmap (s : State) (x : Nat) (f : Ctx → Ctx) : (s.updCtx x f).qmap = s.qmap := rfl
@[simp] theorem updCtx_outQ (s : State) (x : Nat) (f : Ctx → Ctx) : (s.updCtx x f).outQ = s.outQ := rfl
@[simp] theorem updCtx_spares (s : State) (x : Nat) (f : Ctx → Ctx) : (s.updCtx x f).spares = s.spares := rfl
@[simp] theorem updCtx_kiosk (s : State) (x : Nat) (f : Ctx → Ctx) : (s.updCtx x f).kiosk = s.kiosk := rfl
@[simp] theorem updCtx_part (s : State) (x : Nat) (f : Ctx → Ctx) : (s.updCtx x f).part = s.part := rfl
@[simp] theorem updCtx_kernels (s : State) (x : Nat) (f : Ctx → Ctx) : (s.updCtx x f).kernels = s.kernels := rfl
@[simp] theorem updCtx_nextKernel (s : State) (x : Nat) (f : Ctx → Ctx) : (s.updCtx x f).nextKernel = s.nextKernel := rfl
@[simp] theorem updCtx_groups (s : State) (x : Nat) (f : Ctx → Ctx) : (s.updCtx x f).groups = s.groups := rfl
@[simp] theorem updCtx_nextGroup (s : State) (x : Nat) (f : Ctx → Ctx) : (s.updCtx x f).nextGroup = s.nextGroup := rfl
@[simp] theorem updCtx_cohorts (s : State) (x : Nat) (f : Ctx → Ctx) : (s.updCtx x f).cohorts = s.cohorts := rfl
@[simp] theorem updCtx_nextCohort (s : State) (x : Nat) (f : Ctx → Ctx) : (s.updCtx x f).nextCohort = s.nextCohort := rfl
@[simp] theorem updCtx_qbar (s : State) (x : Nat) (f : Ctx → Ctx) : (s.updCtx x f).qbar = s.qbar := rfl
@[simp] theorem updCtx_dbar (s : State) (x : Nat) (f : Ctx → Ctx) : (s.updCtx x f).dbar = s.dbar := rfl
@[simp] theorem updCtx_tags (s : State) (x : Nat) (f : Ctx → Ctx) : (s.updCtx x f).tags = s.tags := rfl
@[simp] theorem updCtx_pubs (s : State) (x : Nat) (f : Ctx → Ctx) : (s.updCtx x f).pubs = s.pubs := rfl
@[simp] theorem updCtx_leaves (s : State) (x : Nat) (f : Ctx → Ctx) : (s.updCtx x f).leaves = s.leaves := rfl
@[simp] theorem updCtx_pgops (s : State) (x : Nat) (f : Ctx → Ctx) : (s.updCtx x f).pgops = s.pgops := rfl
@[simp] theorem updCtx_kvcommits (s : State) (x : Nat) (f : Ctx → Ctx) : (s.updCtx x f).kvcommits = s.kvcommits := rfl
@[simp] theorem updCtx_tickets (s : State) (x : Nat) (f : Ctx → Ctx) : (s.updCtx x f).tickets = s.tickets := rfl
@[simp] theorem updCtx_sweeper (s : State) (x : Nat) (f : Ctx → Ctx) : (s.updCtx x f).sweeper = s.sweeper := rfl
@[simp] theorem updCtx_samples (s : State) (x : Nat) (f : Ctx → Ctx) : (s.updCtx x f).samples = s.samples := rfl
@[simp] theorem updCtx_voids (s : State) (x : Nat) (f : Ctx → Ctx) : (s.updCtx x f).voids = s.voids := rfl
@[simp] theorem updCtx_ports (s : State) (x : Nat) (f : Ctx → Ctx) : (s.updCtx x f).ports = s.ports := rfl
@[simp] theorem updCtx_trees (s : State) (x : Nat) (f : Ctx → Ctx) : (s.updCtx x f).trees = s.trees := rfl
@[simp] theorem updCtx_treeReqs (s : State) (x : Nat) (f : Ctx → Ctx) : (s.updCtx x f).treeReqs = s.treeReqs := rfl
@[simp] theorem updCtx_fns (s : State) (x : Nat) (f : Ctx → Ctx) : (s.updCtx x f).fns = s.fns := rfl
@[simp] theorem updCtx_streams (s : State) (x : Nat) (f : Ctx → Ctx) : (s.updCtx x f).streams = s.streams := rfl
@[simp] theorem updCtx_hostData (s : State) (x : Nat) (f : Ctx → Ctx) : (s.updCtx x f).hostData = s.hostData := rfl
@[simp] theorem updCtx_preloads (s : State) (x : Nat) (f : Ctx → Ctx) : (s.updCtx x f).preloads = s.preloads := rfl
@[simp] theorem updCtx_duty (s : State) (x : Nat) (f : Ctx → Ctx) : (s.updCtx x f).duty = s.duty := rfl
@[simp] theorem updCtx_kept (s : State) (x : Nat) (f : Ctx → Ctx) : (s.updCtx x f).kept = s.kept := rfl

/-! ### What `State.setKernel` leaves alone -/

@[simp] theorem setKernel_now (s : State) (k : Nat) (v : Kernel) : (s.setKernel k v).now = s.now := rfl
@[simp] theorem setKernel_fresh (s : State) (k : Nat) (v : Kernel) : (s.setKernel k v).fresh = s.fresh := rfl
@[simp] theorem setKernel_agenda (s : State) (k : Nat) (v : Kernel) : (s.setKernel k v).agenda = s.agenda := rfl
@[simp] theorem setKernel_cur (s : State) (k : Nat) (v : Kernel) : (s.setKernel k v).cur = s.cur := rfl
@[simp] theorem setKernel_root (s : State) (k : Nat) (v : Kernel) : (s.setKernel k v).root = s.root := rfl
@[simp] theorem setKernel_mem (s : State) (k : Nat) (v : Kernel) : (s.setKernel k v).mem = s.mem := rfl
@[simp] theorem setKernel_seals (s : State) (k : Nat) (v : Kernel) : (s.setKernel k v).seals = s.seals := rfl
@[simp] theorem setKernel_keys (s : State) (k : Nat) (v : Kernel) : (s.setKernel k v).keys = s.keys := rfl
@[simp] theorem setKernel_dirs (s : State) (k : Nat) (v : Kernel) : (s.setKernel k v).dirs = s.dirs := rfl
@[simp] theorem setKernel_hostMem (s : State) (k : Nat) (v : Kernel) : (s.setKernel k v).hostMem = s.hostMem := rfl
@[simp] theorem setKernel_lineTimes (s : State) (k : Nat) (v : Kernel) : (s.setKernel k v).lineTimes = s.lineTimes := rfl
@[simp] theorem setKernel_locks (s : State) (k : Nat) (v : Kernel) : (s.setKernel k v).locks = s.locks := rfl
@[simp] theorem setKernel_rels (s : State) (k : Nat) (v : Kernel) : (s.setKernel k v).rels = s.rels := rfl
@[simp] theorem setKernel_cores (s : State) (k : Nat) (v : Kernel) : (s.setKernel k v).cores = s.cores := rfl
@[simp] theorem setKernel_answers (s : State) (k : Nat) (v : Kernel) : (s.setKernel k v).answers = s.answers := rfl
@[simp] theorem setKernel_sends (s : State) (k : Nat) (v : Kernel) : (s.setKernel k v).sends = s.sends := rfl
@[simp] theorem setKernel_ctxs (s : State) (k : Nat) (v : Kernel) : (s.setKernel k v).ctxs = s.ctxs := rfl
@[simp] theorem setKernel_xlate (s : State) (k : Nat) (v : Kernel) : (s.setKernel k v).xlate = s.xlate := rfl
@[simp] theorem setKernel_devMap (s : State) (k : Nat) (v : Kernel) : (s.setKernel k v).devMap = s.devMap := rfl
@[simp] theorem setKernel_fbuf (s : State) (k : Nat) (v : Kernel) : (s.setKernel k v).fbuf = s.fbuf := rfl
@[simp] theorem setKernel_outsides (s : State) (k : Nat) (v : Kernel) : (s.setKernel k v).outsides = s.outsides := rfl
@[simp] theorem setKernel_log (s : State) (k : Nat) (v : Kernel) : (s.setKernel k v).log = s.log := rfl
@[simp] theorem setKernel_dcnt (s : State) (k : Nat) (v : Kernel) : (s.setKernel k v).dcnt = s.dcnt := rfl
@[simp] theorem setKernel_deadDies (s : State) (k : Nat) (v : Kernel) : (s.setKernel k v).deadDies = s.deadDies := rfl
@[simp] theorem setKernel_qmap (s : State) (k : Nat) (v : Kernel) : (s.setKernel k v).qmap = s.qmap := rfl
@[simp] theorem setKernel_outQ (s : State) (k : Nat) (v : Kernel) : (s.setKernel k v).outQ = s.outQ := rfl
@[simp] theorem setKernel_spares (s : State) (k : Nat) (v : Kernel) : (s.setKernel k v).spares = s.spares := rfl
@[simp] theorem setKernel_kiosk (s : State) (k : Nat) (v : Kernel) : (s.setKernel k v).kiosk = s.kiosk := rfl
@[simp] theorem setKernel_part (s : State) (k : Nat) (v : Kernel) : (s.setKernel k v).part = s.part := rfl
@[simp] theorem setKernel_nextKernel (s : State) (k : Nat) (v : Kernel) : (s.setKernel k v).nextKernel = s.nextKernel := rfl
@[simp] theorem setKernel_groups (s : State) (k : Nat) (v : Kernel) : (s.setKernel k v).groups = s.groups := rfl
@[simp] theorem setKernel_nextGroup (s : State) (k : Nat) (v : Kernel) : (s.setKernel k v).nextGroup = s.nextGroup := rfl
@[simp] theorem setKernel_cohorts (s : State) (k : Nat) (v : Kernel) : (s.setKernel k v).cohorts = s.cohorts := rfl
@[simp] theorem setKernel_nextCohort (s : State) (k : Nat) (v : Kernel) : (s.setKernel k v).nextCohort = s.nextCohort := rfl
@[simp] theorem setKernel_qbar (s : State) (k : Nat) (v : Kernel) : (s.setKernel k v).qbar = s.qbar := rfl
@[simp] theorem setKernel_dbar (s : State) (k : Nat) (v : Kernel) : (s.setKernel k v).dbar = s.dbar := rfl
@[simp] theorem setKernel_tags (s : State) (k : Nat) (v : Kernel) : (s.setKernel k v).tags = s.tags := rfl
@[simp] theorem setKernel_pubs (s : State) (k : Nat) (v : Kernel) : (s.setKernel k v).pubs = s.pubs := rfl
@[simp] theorem setKernel_leaves (s : State) (k : Nat) (v : Kernel) : (s.setKernel k v).leaves = s.leaves := rfl
@[simp] theorem setKernel_pgops (s : State) (k : Nat) (v : Kernel) : (s.setKernel k v).pgops = s.pgops := rfl
@[simp] theorem setKernel_kvcommits (s : State) (k : Nat) (v : Kernel) : (s.setKernel k v).kvcommits = s.kvcommits := rfl
@[simp] theorem setKernel_tickets (s : State) (k : Nat) (v : Kernel) : (s.setKernel k v).tickets = s.tickets := rfl
@[simp] theorem setKernel_sweeper (s : State) (k : Nat) (v : Kernel) : (s.setKernel k v).sweeper = s.sweeper := rfl
@[simp] theorem setKernel_samples (s : State) (k : Nat) (v : Kernel) : (s.setKernel k v).samples = s.samples := rfl
@[simp] theorem setKernel_voids (s : State) (k : Nat) (v : Kernel) : (s.setKernel k v).voids = s.voids := rfl
@[simp] theorem setKernel_ports (s : State) (k : Nat) (v : Kernel) : (s.setKernel k v).ports = s.ports := rfl
@[simp] theorem setKernel_trees (s : State) (k : Nat) (v : Kernel) : (s.setKernel k v).trees = s.trees := rfl
@[simp] theorem setKernel_treeReqs (s : State) (k : Nat) (v : Kernel) : (s.setKernel k v).treeReqs = s.treeReqs := rfl
@[simp] theorem setKernel_fns (s : State) (k : Nat) (v : Kernel) : (s.setKernel k v).fns = s.fns := rfl
@[simp] theorem setKernel_streams (s : State) (k : Nat) (v : Kernel) : (s.setKernel k v).streams = s.streams := rfl
@[simp] theorem setKernel_hostData (s : State) (k : Nat) (v : Kernel) : (s.setKernel k v).hostData = s.hostData := rfl
@[simp] theorem setKernel_preloads (s : State) (k : Nat) (v : Kernel) : (s.setKernel k v).preloads = s.preloads := rfl
@[simp] theorem setKernel_duty (s : State) (k : Nat) (v : Kernel) : (s.setKernel k v).duty = s.duty := rfl
@[simp] theorem setKernel_kept (s : State) (k : Nat) (v : Kernel) : (s.setKernel k v).kept = s.kept := rfl

/-! ### What `State.setGroup` leaves alone -/

@[simp] theorem setGroup_now (s : State) (g : Nat) (v : Group) : (s.setGroup g v).now = s.now := rfl
@[simp] theorem setGroup_fresh (s : State) (g : Nat) (v : Group) : (s.setGroup g v).fresh = s.fresh := rfl
@[simp] theorem setGroup_agenda (s : State) (g : Nat) (v : Group) : (s.setGroup g v).agenda = s.agenda := rfl
@[simp] theorem setGroup_cur (s : State) (g : Nat) (v : Group) : (s.setGroup g v).cur = s.cur := rfl
@[simp] theorem setGroup_root (s : State) (g : Nat) (v : Group) : (s.setGroup g v).root = s.root := rfl
@[simp] theorem setGroup_mem (s : State) (g : Nat) (v : Group) : (s.setGroup g v).mem = s.mem := rfl
@[simp] theorem setGroup_seals (s : State) (g : Nat) (v : Group) : (s.setGroup g v).seals = s.seals := rfl
@[simp] theorem setGroup_keys (s : State) (g : Nat) (v : Group) : (s.setGroup g v).keys = s.keys := rfl
@[simp] theorem setGroup_dirs (s : State) (g : Nat) (v : Group) : (s.setGroup g v).dirs = s.dirs := rfl
@[simp] theorem setGroup_hostMem (s : State) (g : Nat) (v : Group) : (s.setGroup g v).hostMem = s.hostMem := rfl
@[simp] theorem setGroup_lineTimes (s : State) (g : Nat) (v : Group) : (s.setGroup g v).lineTimes = s.lineTimes := rfl
@[simp] theorem setGroup_locks (s : State) (g : Nat) (v : Group) : (s.setGroup g v).locks = s.locks := rfl
@[simp] theorem setGroup_rels (s : State) (g : Nat) (v : Group) : (s.setGroup g v).rels = s.rels := rfl
@[simp] theorem setGroup_cores (s : State) (g : Nat) (v : Group) : (s.setGroup g v).cores = s.cores := rfl
@[simp] theorem setGroup_answers (s : State) (g : Nat) (v : Group) : (s.setGroup g v).answers = s.answers := rfl
@[simp] theorem setGroup_sends (s : State) (g : Nat) (v : Group) : (s.setGroup g v).sends = s.sends := rfl
@[simp] theorem setGroup_ctxs (s : State) (g : Nat) (v : Group) : (s.setGroup g v).ctxs = s.ctxs := rfl
@[simp] theorem setGroup_xlate (s : State) (g : Nat) (v : Group) : (s.setGroup g v).xlate = s.xlate := rfl
@[simp] theorem setGroup_devMap (s : State) (g : Nat) (v : Group) : (s.setGroup g v).devMap = s.devMap := rfl
@[simp] theorem setGroup_fbuf (s : State) (g : Nat) (v : Group) : (s.setGroup g v).fbuf = s.fbuf := rfl
@[simp] theorem setGroup_outsides (s : State) (g : Nat) (v : Group) : (s.setGroup g v).outsides = s.outsides := rfl
@[simp] theorem setGroup_log (s : State) (g : Nat) (v : Group) : (s.setGroup g v).log = s.log := rfl
@[simp] theorem setGroup_dcnt (s : State) (g : Nat) (v : Group) : (s.setGroup g v).dcnt = s.dcnt := rfl
@[simp] theorem setGroup_deadDies (s : State) (g : Nat) (v : Group) : (s.setGroup g v).deadDies = s.deadDies := rfl
@[simp] theorem setGroup_qmap (s : State) (g : Nat) (v : Group) : (s.setGroup g v).qmap = s.qmap := rfl
@[simp] theorem setGroup_outQ (s : State) (g : Nat) (v : Group) : (s.setGroup g v).outQ = s.outQ := rfl
@[simp] theorem setGroup_spares (s : State) (g : Nat) (v : Group) : (s.setGroup g v).spares = s.spares := rfl
@[simp] theorem setGroup_kiosk (s : State) (g : Nat) (v : Group) : (s.setGroup g v).kiosk = s.kiosk := rfl
@[simp] theorem setGroup_part (s : State) (g : Nat) (v : Group) : (s.setGroup g v).part = s.part := rfl
@[simp] theorem setGroup_kernels (s : State) (g : Nat) (v : Group) : (s.setGroup g v).kernels = s.kernels := rfl
@[simp] theorem setGroup_nextKernel (s : State) (g : Nat) (v : Group) : (s.setGroup g v).nextKernel = s.nextKernel := rfl
@[simp] theorem setGroup_nextGroup (s : State) (g : Nat) (v : Group) : (s.setGroup g v).nextGroup = s.nextGroup := rfl
@[simp] theorem setGroup_cohorts (s : State) (g : Nat) (v : Group) : (s.setGroup g v).cohorts = s.cohorts := rfl
@[simp] theorem setGroup_nextCohort (s : State) (g : Nat) (v : Group) : (s.setGroup g v).nextCohort = s.nextCohort := rfl
@[simp] theorem setGroup_qbar (s : State) (g : Nat) (v : Group) : (s.setGroup g v).qbar = s.qbar := rfl
@[simp] theorem setGroup_dbar (s : State) (g : Nat) (v : Group) : (s.setGroup g v).dbar = s.dbar := rfl
@[simp] theorem setGroup_tags (s : State) (g : Nat) (v : Group) : (s.setGroup g v).tags = s.tags := rfl
@[simp] theorem setGroup_pubs (s : State) (g : Nat) (v : Group) : (s.setGroup g v).pubs = s.pubs := rfl
@[simp] theorem setGroup_leaves (s : State) (g : Nat) (v : Group) : (s.setGroup g v).leaves = s.leaves := rfl
@[simp] theorem setGroup_pgops (s : State) (g : Nat) (v : Group) : (s.setGroup g v).pgops = s.pgops := rfl
@[simp] theorem setGroup_kvcommits (s : State) (g : Nat) (v : Group) : (s.setGroup g v).kvcommits = s.kvcommits := rfl
@[simp] theorem setGroup_tickets (s : State) (g : Nat) (v : Group) : (s.setGroup g v).tickets = s.tickets := rfl
@[simp] theorem setGroup_sweeper (s : State) (g : Nat) (v : Group) : (s.setGroup g v).sweeper = s.sweeper := rfl
@[simp] theorem setGroup_samples (s : State) (g : Nat) (v : Group) : (s.setGroup g v).samples = s.samples := rfl
@[simp] theorem setGroup_voids (s : State) (g : Nat) (v : Group) : (s.setGroup g v).voids = s.voids := rfl
@[simp] theorem setGroup_ports (s : State) (g : Nat) (v : Group) : (s.setGroup g v).ports = s.ports := rfl
@[simp] theorem setGroup_trees (s : State) (g : Nat) (v : Group) : (s.setGroup g v).trees = s.trees := rfl
@[simp] theorem setGroup_treeReqs (s : State) (g : Nat) (v : Group) : (s.setGroup g v).treeReqs = s.treeReqs := rfl
@[simp] theorem setGroup_fns (s : State) (g : Nat) (v : Group) : (s.setGroup g v).fns = s.fns := rfl
@[simp] theorem setGroup_streams (s : State) (g : Nat) (v : Group) : (s.setGroup g v).streams = s.streams := rfl
@[simp] theorem setGroup_hostData (s : State) (g : Nat) (v : Group) : (s.setGroup g v).hostData = s.hostData := rfl
@[simp] theorem setGroup_preloads (s : State) (g : Nat) (v : Group) : (s.setGroup g v).preloads = s.preloads := rfl
@[simp] theorem setGroup_duty (s : State) (g : Nat) (v : Group) : (s.setGroup g v).duty = s.duty := rfl
@[simp] theorem setGroup_kept (s : State) (g : Nat) (v : Group) : (s.setGroup g v).kept = s.kept := rfl

/-! ### What `State.setPort` leaves alone -/

@[simp] theorem setPort_now (s : State) (p : Nat) (v : Port) : (s.setPort p v).now = s.now := rfl
@[simp] theorem setPort_fresh (s : State) (p : Nat) (v : Port) : (s.setPort p v).fresh = s.fresh := rfl
@[simp] theorem setPort_agenda (s : State) (p : Nat) (v : Port) : (s.setPort p v).agenda = s.agenda := rfl
@[simp] theorem setPort_cur (s : State) (p : Nat) (v : Port) : (s.setPort p v).cur = s.cur := rfl
@[simp] theorem setPort_root (s : State) (p : Nat) (v : Port) : (s.setPort p v).root = s.root := rfl
@[simp] theorem setPort_mem (s : State) (p : Nat) (v : Port) : (s.setPort p v).mem = s.mem := rfl
@[simp] theorem setPort_seals (s : State) (p : Nat) (v : Port) : (s.setPort p v).seals = s.seals := rfl
@[simp] theorem setPort_keys (s : State) (p : Nat) (v : Port) : (s.setPort p v).keys = s.keys := rfl
@[simp] theorem setPort_dirs (s : State) (p : Nat) (v : Port) : (s.setPort p v).dirs = s.dirs := rfl
@[simp] theorem setPort_hostMem (s : State) (p : Nat) (v : Port) : (s.setPort p v).hostMem = s.hostMem := rfl
@[simp] theorem setPort_lineTimes (s : State) (p : Nat) (v : Port) : (s.setPort p v).lineTimes = s.lineTimes := rfl
@[simp] theorem setPort_locks (s : State) (p : Nat) (v : Port) : (s.setPort p v).locks = s.locks := rfl
@[simp] theorem setPort_rels (s : State) (p : Nat) (v : Port) : (s.setPort p v).rels = s.rels := rfl
@[simp] theorem setPort_cores (s : State) (p : Nat) (v : Port) : (s.setPort p v).cores = s.cores := rfl
@[simp] theorem setPort_answers (s : State) (p : Nat) (v : Port) : (s.setPort p v).answers = s.answers := rfl
@[simp] theorem setPort_sends (s : State) (p : Nat) (v : Port) : (s.setPort p v).sends = s.sends := rfl
@[simp] theorem setPort_ctxs (s : State) (p : Nat) (v : Port) : (s.setPort p v).ctxs = s.ctxs := rfl
@[simp] theorem setPort_xlate (s : State) (p : Nat) (v : Port) : (s.setPort p v).xlate = s.xlate := rfl
@[simp] theorem setPort_devMap (s : State) (p : Nat) (v : Port) : (s.setPort p v).devMap = s.devMap := rfl
@[simp] theorem setPort_fbuf (s : State) (p : Nat) (v : Port) : (s.setPort p v).fbuf = s.fbuf := rfl
@[simp] theorem setPort_outsides (s : State) (p : Nat) (v : Port) : (s.setPort p v).outsides = s.outsides := rfl
@[simp] theorem setPort_log (s : State) (p : Nat) (v : Port) : (s.setPort p v).log = s.log := rfl
@[simp] theorem setPort_dcnt (s : State) (p : Nat) (v : Port) : (s.setPort p v).dcnt = s.dcnt := rfl
@[simp] theorem setPort_deadDies (s : State) (p : Nat) (v : Port) : (s.setPort p v).deadDies = s.deadDies := rfl
@[simp] theorem setPort_qmap (s : State) (p : Nat) (v : Port) : (s.setPort p v).qmap = s.qmap := rfl
@[simp] theorem setPort_outQ (s : State) (p : Nat) (v : Port) : (s.setPort p v).outQ = s.outQ := rfl
@[simp] theorem setPort_spares (s : State) (p : Nat) (v : Port) : (s.setPort p v).spares = s.spares := rfl
@[simp] theorem setPort_kiosk (s : State) (p : Nat) (v : Port) : (s.setPort p v).kiosk = s.kiosk := rfl
@[simp] theorem setPort_part (s : State) (p : Nat) (v : Port) : (s.setPort p v).part = s.part := rfl
@[simp] theorem setPort_kernels (s : State) (p : Nat) (v : Port) : (s.setPort p v).kernels = s.kernels := rfl
@[simp] theorem setPort_nextKernel (s : State) (p : Nat) (v : Port) : (s.setPort p v).nextKernel = s.nextKernel := rfl
@[simp] theorem setPort_groups (s : State) (p : Nat) (v : Port) : (s.setPort p v).groups = s.groups := rfl
@[simp] theorem setPort_nextGroup (s : State) (p : Nat) (v : Port) : (s.setPort p v).nextGroup = s.nextGroup := rfl
@[simp] theorem setPort_cohorts (s : State) (p : Nat) (v : Port) : (s.setPort p v).cohorts = s.cohorts := rfl
@[simp] theorem setPort_nextCohort (s : State) (p : Nat) (v : Port) : (s.setPort p v).nextCohort = s.nextCohort := rfl
@[simp] theorem setPort_qbar (s : State) (p : Nat) (v : Port) : (s.setPort p v).qbar = s.qbar := rfl
@[simp] theorem setPort_dbar (s : State) (p : Nat) (v : Port) : (s.setPort p v).dbar = s.dbar := rfl
@[simp] theorem setPort_tags (s : State) (p : Nat) (v : Port) : (s.setPort p v).tags = s.tags := rfl
@[simp] theorem setPort_pubs (s : State) (p : Nat) (v : Port) : (s.setPort p v).pubs = s.pubs := rfl
@[simp] theorem setPort_leaves (s : State) (p : Nat) (v : Port) : (s.setPort p v).leaves = s.leaves := rfl
@[simp] theorem setPort_pgops (s : State) (p : Nat) (v : Port) : (s.setPort p v).pgops = s.pgops := rfl
@[simp] theorem setPort_kvcommits (s : State) (p : Nat) (v : Port) : (s.setPort p v).kvcommits = s.kvcommits := rfl
@[simp] theorem setPort_tickets (s : State) (p : Nat) (v : Port) : (s.setPort p v).tickets = s.tickets := rfl
@[simp] theorem setPort_sweeper (s : State) (p : Nat) (v : Port) : (s.setPort p v).sweeper = s.sweeper := rfl
@[simp] theorem setPort_samples (s : State) (p : Nat) (v : Port) : (s.setPort p v).samples = s.samples := rfl
@[simp] theorem setPort_voids (s : State) (p : Nat) (v : Port) : (s.setPort p v).voids = s.voids := rfl
@[simp] theorem setPort_trees (s : State) (p : Nat) (v : Port) : (s.setPort p v).trees = s.trees := rfl
@[simp] theorem setPort_treeReqs (s : State) (p : Nat) (v : Port) : (s.setPort p v).treeReqs = s.treeReqs := rfl
@[simp] theorem setPort_fns (s : State) (p : Nat) (v : Port) : (s.setPort p v).fns = s.fns := rfl
@[simp] theorem setPort_streams (s : State) (p : Nat) (v : Port) : (s.setPort p v).streams = s.streams := rfl
@[simp] theorem setPort_hostData (s : State) (p : Nat) (v : Port) : (s.setPort p v).hostData = s.hostData := rfl
@[simp] theorem setPort_preloads (s : State) (p : Nat) (v : Port) : (s.setPort p v).preloads = s.preloads := rfl
@[simp] theorem setPort_duty (s : State) (p : Nat) (v : Port) : (s.setPort p v).duty = s.duty := rfl
@[simp] theorem setPort_kept (s : State) (p : Nat) (v : Port) : (s.setPort p v).kept = s.kept := rfl

/-! ### What `State.setTree` leaves alone -/

@[simp] theorem setTree_now (s : State) (k : Nat) (v : Tree) : (s.setTree k v).now = s.now := rfl
@[simp] theorem setTree_fresh (s : State) (k : Nat) (v : Tree) : (s.setTree k v).fresh = s.fresh := rfl
@[simp] theorem setTree_agenda (s : State) (k : Nat) (v : Tree) : (s.setTree k v).agenda = s.agenda := rfl
@[simp] theorem setTree_cur (s : State) (k : Nat) (v : Tree) : (s.setTree k v).cur = s.cur := rfl
@[simp] theorem setTree_root (s : State) (k : Nat) (v : Tree) : (s.setTree k v).root = s.root := rfl
@[simp] theorem setTree_mem (s : State) (k : Nat) (v : Tree) : (s.setTree k v).mem = s.mem := rfl
@[simp] theorem setTree_seals (s : State) (k : Nat) (v : Tree) : (s.setTree k v).seals = s.seals := rfl
@[simp] theorem setTree_keys (s : State) (k : Nat) (v : Tree) : (s.setTree k v).keys = s.keys := rfl
@[simp] theorem setTree_dirs (s : State) (k : Nat) (v : Tree) : (s.setTree k v).dirs = s.dirs := rfl
@[simp] theorem setTree_hostMem (s : State) (k : Nat) (v : Tree) : (s.setTree k v).hostMem = s.hostMem := rfl
@[simp] theorem setTree_lineTimes (s : State) (k : Nat) (v : Tree) : (s.setTree k v).lineTimes = s.lineTimes := rfl
@[simp] theorem setTree_locks (s : State) (k : Nat) (v : Tree) : (s.setTree k v).locks = s.locks := rfl
@[simp] theorem setTree_rels (s : State) (k : Nat) (v : Tree) : (s.setTree k v).rels = s.rels := rfl
@[simp] theorem setTree_cores (s : State) (k : Nat) (v : Tree) : (s.setTree k v).cores = s.cores := rfl
@[simp] theorem setTree_answers (s : State) (k : Nat) (v : Tree) : (s.setTree k v).answers = s.answers := rfl
@[simp] theorem setTree_sends (s : State) (k : Nat) (v : Tree) : (s.setTree k v).sends = s.sends := rfl
@[simp] theorem setTree_ctxs (s : State) (k : Nat) (v : Tree) : (s.setTree k v).ctxs = s.ctxs := rfl
@[simp] theorem setTree_xlate (s : State) (k : Nat) (v : Tree) : (s.setTree k v).xlate = s.xlate := rfl
@[simp] theorem setTree_devMap (s : State) (k : Nat) (v : Tree) : (s.setTree k v).devMap = s.devMap := rfl
@[simp] theorem setTree_fbuf (s : State) (k : Nat) (v : Tree) : (s.setTree k v).fbuf = s.fbuf := rfl
@[simp] theorem setTree_outsides (s : State) (k : Nat) (v : Tree) : (s.setTree k v).outsides = s.outsides := rfl
@[simp] theorem setTree_log (s : State) (k : Nat) (v : Tree) : (s.setTree k v).log = s.log := rfl
@[simp] theorem setTree_dcnt (s : State) (k : Nat) (v : Tree) : (s.setTree k v).dcnt = s.dcnt := rfl
@[simp] theorem setTree_deadDies (s : State) (k : Nat) (v : Tree) : (s.setTree k v).deadDies = s.deadDies := rfl
@[simp] theorem setTree_qmap (s : State) (k : Nat) (v : Tree) : (s.setTree k v).qmap = s.qmap := rfl
@[simp] theorem setTree_outQ (s : State) (k : Nat) (v : Tree) : (s.setTree k v).outQ = s.outQ := rfl
@[simp] theorem setTree_spares (s : State) (k : Nat) (v : Tree) : (s.setTree k v).spares = s.spares := rfl
@[simp] theorem setTree_kiosk (s : State) (k : Nat) (v : Tree) : (s.setTree k v).kiosk = s.kiosk := rfl
@[simp] theorem setTree_part (s : State) (k : Nat) (v : Tree) : (s.setTree k v).part = s.part := rfl
@[simp] theorem setTree_kernels (s : State) (k : Nat) (v : Tree) : (s.setTree k v).kernels = s.kernels := rfl
@[simp] theorem setTree_nextKernel (s : State) (k : Nat) (v : Tree) : (s.setTree k v).nextKernel = s.nextKernel := rfl
@[simp] theorem setTree_groups (s : State) (k : Nat) (v : Tree) : (s.setTree k v).groups = s.groups := rfl
@[simp] theorem setTree_nextGroup (s : State) (k : Nat) (v : Tree) : (s.setTree k v).nextGroup = s.nextGroup := rfl
@[simp] theorem setTree_cohorts (s : State) (k : Nat) (v : Tree) : (s.setTree k v).cohorts = s.cohorts := rfl
@[simp] theorem setTree_nextCohort (s : State) (k : Nat) (v : Tree) : (s.setTree k v).nextCohort = s.nextCohort := rfl
@[simp] theorem setTree_qbar (s : State) (k : Nat) (v : Tree) : (s.setTree k v).qbar = s.qbar := rfl
@[simp] theorem setTree_dbar (s : State) (k : Nat) (v : Tree) : (s.setTree k v).dbar = s.dbar := rfl
@[simp] theorem setTree_tags (s : State) (k : Nat) (v : Tree) : (s.setTree k v).tags = s.tags := rfl
@[simp] theorem setTree_pubs (s : State) (k : Nat) (v : Tree) : (s.setTree k v).pubs = s.pubs := rfl
@[simp] theorem setTree_leaves (s : State) (k : Nat) (v : Tree) : (s.setTree k v).leaves = s.leaves := rfl
@[simp] theorem setTree_pgops (s : State) (k : Nat) (v : Tree) : (s.setTree k v).pgops = s.pgops := rfl
@[simp] theorem setTree_kvcommits (s : State) (k : Nat) (v : Tree) : (s.setTree k v).kvcommits = s.kvcommits := rfl
@[simp] theorem setTree_tickets (s : State) (k : Nat) (v : Tree) : (s.setTree k v).tickets = s.tickets := rfl
@[simp] theorem setTree_sweeper (s : State) (k : Nat) (v : Tree) : (s.setTree k v).sweeper = s.sweeper := rfl
@[simp] theorem setTree_samples (s : State) (k : Nat) (v : Tree) : (s.setTree k v).samples = s.samples := rfl
@[simp] theorem setTree_voids (s : State) (k : Nat) (v : Tree) : (s.setTree k v).voids = s.voids := rfl
@[simp] theorem setTree_ports (s : State) (k : Nat) (v : Tree) : (s.setTree k v).ports = s.ports := rfl
@[simp] theorem setTree_treeReqs (s : State) (k : Nat) (v : Tree) : (s.setTree k v).treeReqs = s.treeReqs := rfl
@[simp] theorem setTree_fns (s : State) (k : Nat) (v : Tree) : (s.setTree k v).fns = s.fns := rfl
@[simp] theorem setTree_streams (s : State) (k : Nat) (v : Tree) : (s.setTree k v).streams = s.streams := rfl
@[simp] theorem setTree_hostData (s : State) (k : Nat) (v : Tree) : (s.setTree k v).hostData = s.hostData := rfl
@[simp] theorem setTree_preloads (s : State) (k : Nat) (v : Tree) : (s.setTree k v).preloads = s.preloads := rfl
@[simp] theorem setTree_duty (s : State) (k : Nat) (v : Tree) : (s.setTree k v).duty = s.duty := rfl
@[simp] theorem setTree_kept (s : State) (k : Nat) (v : Tree) : (s.setTree k v).kept = s.kept := rfl

/-! ### What `State.setEntry` leaves alone -/

@[simp] theorem setEntry_now (s : State) (tu x p : Nat) (e : W64) : (s.setEntry tu x p e).now = s.now := rfl
@[simp] theorem setEntry_fresh (s : State) (tu x p : Nat) (e : W64) : (s.setEntry tu x p e).fresh = s.fresh := rfl
@[simp] theorem setEntry_agenda (s : State) (tu x p : Nat) (e : W64) : (s.setEntry tu x p e).agenda = s.agenda := rfl
@[simp] theorem setEntry_cur (s : State) (tu x p : Nat) (e : W64) : (s.setEntry tu x p e).cur = s.cur := rfl
@[simp] theorem setEntry_root (s : State) (tu x p : Nat) (e : W64) : (s.setEntry tu x p e).root = s.root := rfl
@[simp] theorem setEntry_mem (s : State) (tu x p : Nat) (e : W64) : (s.setEntry tu x p e).mem = s.mem := rfl
@[simp] theorem setEntry_seals (s : State) (tu x p : Nat) (e : W64) : (s.setEntry tu x p e).seals = s.seals := rfl
@[simp] theorem setEntry_keys (s : State) (tu x p : Nat) (e : W64) : (s.setEntry tu x p e).keys = s.keys := rfl
@[simp] theorem setEntry_dirs (s : State) (tu x p : Nat) (e : W64) : (s.setEntry tu x p e).dirs = s.dirs := rfl
@[simp] theorem setEntry_hostMem (s : State) (tu x p : Nat) (e : W64) : (s.setEntry tu x p e).hostMem = s.hostMem := rfl
@[simp] theorem setEntry_lineTimes (s : State) (tu x p : Nat) (e : W64) : (s.setEntry tu x p e).lineTimes = s.lineTimes := rfl
@[simp] theorem setEntry_locks (s : State) (tu x p : Nat) (e : W64) : (s.setEntry tu x p e).locks = s.locks := rfl
@[simp] theorem setEntry_rels (s : State) (tu x p : Nat) (e : W64) : (s.setEntry tu x p e).rels = s.rels := rfl
@[simp] theorem setEntry_cores (s : State) (tu x p : Nat) (e : W64) : (s.setEntry tu x p e).cores = s.cores := rfl
@[simp] theorem setEntry_answers (s : State) (tu x p : Nat) (e : W64) : (s.setEntry tu x p e).answers = s.answers := rfl
@[simp] theorem setEntry_sends (s : State) (tu x p : Nat) (e : W64) : (s.setEntry tu x p e).sends = s.sends := rfl
@[simp] theorem setEntry_ctxs (s : State) (tu x p : Nat) (e : W64) : (s.setEntry tu x p e).ctxs = s.ctxs := rfl
@[simp] theorem setEntry_devMap (s : State) (tu x p : Nat) (e : W64) : (s.setEntry tu x p e).devMap = s.devMap := rfl
@[simp] theorem setEntry_fbuf (s : State) (tu x p : Nat) (e : W64) : (s.setEntry tu x p e).fbuf = s.fbuf := rfl
@[simp] theorem setEntry_outsides (s : State) (tu x p : Nat) (e : W64) : (s.setEntry tu x p e).outsides = s.outsides := rfl
@[simp] theorem setEntry_log (s : State) (tu x p : Nat) (e : W64) : (s.setEntry tu x p e).log = s.log := rfl
@[simp] theorem setEntry_dcnt (s : State) (tu x p : Nat) (e : W64) : (s.setEntry tu x p e).dcnt = s.dcnt := rfl
@[simp] theorem setEntry_deadDies (s : State) (tu x p : Nat) (e : W64) : (s.setEntry tu x p e).deadDies = s.deadDies := rfl
@[simp] theorem setEntry_qmap (s : State) (tu x p : Nat) (e : W64) : (s.setEntry tu x p e).qmap = s.qmap := rfl
@[simp] theorem setEntry_outQ (s : State) (tu x p : Nat) (e : W64) : (s.setEntry tu x p e).outQ = s.outQ := rfl
@[simp] theorem setEntry_spares (s : State) (tu x p : Nat) (e : W64) : (s.setEntry tu x p e).spares = s.spares := rfl
@[simp] theorem setEntry_kiosk (s : State) (tu x p : Nat) (e : W64) : (s.setEntry tu x p e).kiosk = s.kiosk := rfl
@[simp] theorem setEntry_part (s : State) (tu x p : Nat) (e : W64) : (s.setEntry tu x p e).part = s.part := rfl
@[simp] theorem setEntry_kernels (s : State) (tu x p : Nat) (e : W64) : (s.setEntry tu x p e).kernels = s.kernels := rfl
@[simp] theorem setEntry_nextKernel (s : State) (tu x p : Nat) (e : W64) : (s.setEntry tu x p e).nextKernel = s.nextKernel := rfl
@[simp] theorem setEntry_groups (s : State) (tu x p : Nat) (e : W64) : (s.setEntry tu x p e).groups = s.groups := rfl
@[simp] theorem setEntry_nextGroup (s : State) (tu x p : Nat) (e : W64) : (s.setEntry tu x p e).nextGroup = s.nextGroup := rfl
@[simp] theorem setEntry_cohorts (s : State) (tu x p : Nat) (e : W64) : (s.setEntry tu x p e).cohorts = s.cohorts := rfl
@[simp] theorem setEntry_nextCohort (s : State) (tu x p : Nat) (e : W64) : (s.setEntry tu x p e).nextCohort = s.nextCohort := rfl
@[simp] theorem setEntry_qbar (s : State) (tu x p : Nat) (e : W64) : (s.setEntry tu x p e).qbar = s.qbar := rfl
@[simp] theorem setEntry_dbar (s : State) (tu x p : Nat) (e : W64) : (s.setEntry tu x p e).dbar = s.dbar := rfl
@[simp] theorem setEntry_tags (s : State) (tu x p : Nat) (e : W64) : (s.setEntry tu x p e).tags = s.tags := rfl
@[simp] theorem setEntry_pubs (s : State) (tu x p : Nat) (e : W64) : (s.setEntry tu x p e).pubs = s.pubs := rfl
@[simp] theorem setEntry_leaves (s : State) (tu x p : Nat) (e : W64) : (s.setEntry tu x p e).leaves = s.leaves := rfl
@[simp] theorem setEntry_pgops (s : State) (tu x p : Nat) (e : W64) : (s.setEntry tu x p e).pgops = s.pgops := rfl
@[simp] theorem setEntry_kvcommits (s : State) (tu x p : Nat) (e : W64) : (s.setEntry tu x p e).kvcommits = s.kvcommits := rfl
@[simp] theorem setEntry_tickets (s : State) (tu x p : Nat) (e : W64) : (s.setEntry tu x p e).tickets = s.tickets := rfl
@[simp] theorem setEntry_sweeper (s : State) (tu x p : Nat) (e : W64) : (s.setEntry tu x p e).sweeper = s.sweeper := rfl
@[simp] theorem setEntry_samples (s : State) (tu x p : Nat) (e : W64) : (s.setEntry tu x p e).samples = s.samples := rfl
@[simp] theorem setEntry_voids (s : State) (tu x p : Nat) (e : W64) : (s.setEntry tu x p e).voids = s.voids := rfl
@[simp] theorem setEntry_ports (s : State) (tu x p : Nat) (e : W64) : (s.setEntry tu x p e).ports = s.ports := rfl
@[simp] theorem setEntry_trees (s : State) (tu x p : Nat) (e : W64) : (s.setEntry tu x p e).trees = s.trees := rfl
@[simp] theorem setEntry_treeReqs (s : State) (tu x p : Nat) (e : W64) : (s.setEntry tu x p e).treeReqs = s.treeReqs := rfl
@[simp] theorem setEntry_fns (s : State) (tu x p : Nat) (e : W64) : (s.setEntry tu x p e).fns = s.fns := rfl
@[simp] theorem setEntry_streams (s : State) (tu x p : Nat) (e : W64) : (s.setEntry tu x p e).streams = s.streams := rfl
@[simp] theorem setEntry_hostData (s : State) (tu x p : Nat) (e : W64) : (s.setEntry tu x p e).hostData = s.hostData := rfl
@[simp] theorem setEntry_preloads (s : State) (tu x p : Nat) (e : W64) : (s.setEntry tu x p e).preloads = s.preloads := rfl
@[simp] theorem setEntry_duty (s : State) (tu x p : Nat) (e : W64) : (s.setEntry tu x p e).duty = s.duty := rfl
@[simp] theorem setEntry_kept (s : State) (tu x p : Nat) (e : W64) : (s.setEntry tu x p e).kept = s.kept := rfl

/-! ### What `State.engineStore` leaves alone -/

@[simp] theorem engineStore_now (s : State) (pa n v : Nat) : (s.engineStore pa n v).now = s.now := rfl
@[simp] theorem engineStore_fresh (s : State) (pa n v : Nat) : (s.engineStore pa n v).fresh = s.fresh := rfl
@[simp] theorem engineStore_agenda (s : State) (pa n v : Nat) : (s.engineStore pa n v).agenda = s.agenda := rfl
@[simp] theorem engineStore_cur (s : State) (pa n v : Nat) : (s.engineStore pa n v).cur = s.cur := rfl
@[simp] theorem engineStore_root (s : State) (pa n v : Nat) : (s.engineStore pa n v).root = s.root := rfl
@[simp] theorem engineStore_keys (s : State) (pa n v : Nat) : (s.engineStore pa n v).keys = s.keys := rfl
@[simp] theorem engineStore_dirs (s : State) (pa n v : Nat) : (s.engineStore pa n v).dirs = s.dirs := rfl
@[simp] theorem engineStore_hostMem (s : State) (pa n v : Nat) : (s.engineStore pa n v).hostMem = s.hostMem := rfl
@[simp] theorem engineStore_locks (s : State) (pa n v : Nat) : (s.engineStore pa n v).locks = s.locks := rfl
@[simp] theorem engineStore_rels (s : State) (pa n v : Nat) : (s.engineStore pa n v).rels = s.rels := rfl
@[simp] theorem engineStore_cores (s : State) (pa n v : Nat) : (s.engineStore pa n v).cores = s.cores := rfl
@[simp] theorem engineStore_answers (s : State) (pa n v : Nat) : (s.engineStore pa n v).answers = s.answers := rfl
@[simp] theorem engineStore_sends (s : State) (pa n v : Nat) : (s.engineStore pa n v).sends = s.sends := rfl
@[simp] theorem engineStore_ctxs (s : State) (pa n v : Nat) : (s.engineStore pa n v).ctxs = s.ctxs := rfl
@[simp] theorem engineStore_xlate (s : State) (pa n v : Nat) : (s.engineStore pa n v).xlate = s.xlate := rfl
@[simp] theorem engineStore_devMap (s : State) (pa n v : Nat) : (s.engineStore pa n v).devMap = s.devMap := rfl
@[simp] theorem engineStore_fbuf (s : State) (pa n v : Nat) : (s.engineStore pa n v).fbuf = s.fbuf := rfl
@[simp] theorem engineStore_outsides (s : State) (pa n v : Nat) : (s.engineStore pa n v).outsides = s.outsides := rfl
@[simp] theorem engineStore_log (s : State) (pa n v : Nat) : (s.engineStore pa n v).log = s.log := rfl
@[simp] theorem engineStore_dcnt (s : State) (pa n v : Nat) : (s.engineStore pa n v).dcnt = s.dcnt := rfl
@[simp] theorem engineStore_deadDies (s : State) (pa n v : Nat) : (s.engineStore pa n v).deadDies = s.deadDies := rfl
@[simp] theorem engineStore_qmap (s : State) (pa n v : Nat) : (s.engineStore pa n v).qmap = s.qmap := rfl
@[simp] theorem engineStore_outQ (s : State) (pa n v : Nat) : (s.engineStore pa n v).outQ = s.outQ := rfl
@[simp] theorem engineStore_spares (s : State) (pa n v : Nat) : (s.engineStore pa n v).spares = s.spares := rfl
@[simp] theorem engineStore_kiosk (s : State) (pa n v : Nat) : (s.engineStore pa n v).kiosk = s.kiosk := rfl
@[simp] theorem engineStore_part (s : State) (pa n v : Nat) : (s.engineStore pa n v).part = s.part := rfl
@[simp] theorem engineStore_kernels (s : State) (pa n v : Nat) : (s.engineStore pa n v).kernels = s.kernels := rfl
@[simp] theorem engineStore_nextKernel (s : State) (pa n v : Nat) : (s.engineStore pa n v).nextKernel = s.nextKernel := rfl
@[simp] theorem engineStore_groups (s : State) (pa n v : Nat) : (s.engineStore pa n v).groups = s.groups := rfl
@[simp] theorem engineStore_nextGroup (s : State) (pa n v : Nat) : (s.engineStore pa n v).nextGroup = s.nextGroup := rfl
@[simp] theorem engineStore_cohorts (s : State) (pa n v : Nat) : (s.engineStore pa n v).cohorts = s.cohorts := rfl
@[simp] theorem engineStore_nextCohort (s : State) (pa n v : Nat) : (s.engineStore pa n v).nextCohort = s.nextCohort := rfl
@[simp] theorem engineStore_qbar (s : State) (pa n v : Nat) : (s.engineStore pa n v).qbar = s.qbar := rfl
@[simp] theorem engineStore_dbar (s : State) (pa n v : Nat) : (s.engineStore pa n v).dbar = s.dbar := rfl
@[simp] theorem engineStore_tags (s : State) (pa n v : Nat) : (s.engineStore pa n v).tags = s.tags := rfl
@[simp] theorem engineStore_pubs (s : State) (pa n v : Nat) : (s.engineStore pa n v).pubs = s.pubs := rfl
@[simp] theorem engineStore_leaves (s : State) (pa n v : Nat) : (s.engineStore pa n v).leaves = s.leaves := rfl
@[simp] theorem engineStore_pgops (s : State) (pa n v : Nat) : (s.engineStore pa n v).pgops = s.pgops := rfl
@[simp] theorem engineStore_kvcommits (s : State) (pa n v : Nat) : (s.engineStore pa n v).kvcommits = s.kvcommits := rfl
@[simp] theorem engineStore_tickets (s : State) (pa n v : Nat) : (s.engineStore pa n v).tickets = s.tickets := rfl
@[simp] theorem engineStore_sweeper (s : State) (pa n v : Nat) : (s.engineStore pa n v).sweeper = s.sweeper := rfl
@[simp] theorem engineStore_samples (s : State) (pa n v : Nat) : (s.engineStore pa n v).samples = s.samples := rfl
@[simp] theorem engineStore_voids (s : State) (pa n v : Nat) : (s.engineStore pa n v).voids = s.voids := rfl
@[simp] theorem engineStore_ports (s : State) (pa n v : Nat) : (s.engineStore pa n v).ports = s.ports := rfl
@[simp] theorem engineStore_trees (s : State) (pa n v : Nat) : (s.engineStore pa n v).trees = s.trees := rfl
@[simp] theorem engineStore_treeReqs (s : State) (pa n v : Nat) : (s.engineStore pa n v).treeReqs = s.treeReqs := rfl
@[simp] theorem engineStore_fns (s : State) (pa n v : Nat) : (s.engineStore pa n v).fns = s.fns := rfl
@[simp] theorem engineStore_streams (s : State) (pa n v : Nat) : (s.engineStore pa n v).streams = s.streams := rfl
@[simp] theorem engineStore_hostData (s : State) (pa n v : Nat) : (s.engineStore pa n v).hostData = s.hostData := rfl
@[simp] theorem engineStore_preloads (s : State) (pa n v : Nat) : (s.engineStore pa n v).preloads = s.preloads := rfl
@[simp] theorem engineStore_duty (s : State) (pa n v : Nat) : (s.engineStore pa n v).duty = s.duty := rfl
@[simp] theorem engineStore_kept (s : State) (pa n v : Nat) : (s.engineStore pa n v).kept = s.kept := rfl

/-! ### What `State.engineBlock` leaves alone -/

@[simp] theorem engineBlock_now (s : State) (pa : Nat) (d : BitVec 512) (t : BitVec 16) : (s.engineBlock pa d t).now = s.now := rfl
@[simp] theorem engineBlock_fresh (s : State) (pa : Nat) (d : BitVec 512) (t : BitVec 16) : (s.engineBlock pa d t).fresh = s.fresh := rfl
@[simp] theorem engineBlock_agenda (s : State) (pa : Nat) (d : BitVec 512) (t : BitVec 16) : (s.engineBlock pa d t).agenda = s.agenda := rfl
@[simp] theorem engineBlock_cur (s : State) (pa : Nat) (d : BitVec 512) (t : BitVec 16) : (s.engineBlock pa d t).cur = s.cur := rfl
@[simp] theorem engineBlock_root (s : State) (pa : Nat) (d : BitVec 512) (t : BitVec 16) : (s.engineBlock pa d t).root = s.root := rfl
@[simp] theorem engineBlock_keys (s : State) (pa : Nat) (d : BitVec 512) (t : BitVec 16) : (s.engineBlock pa d t).keys = s.keys := rfl
@[simp] theorem engineBlock_dirs (s : State) (pa : Nat) (d : BitVec 512) (t : BitVec 16) : (s.engineBlock pa d t).dirs = s.dirs := rfl
@[simp] theorem engineBlock_hostMem (s : State) (pa : Nat) (d : BitVec 512) (t : BitVec 16) : (s.engineBlock pa d t).hostMem = s.hostMem := rfl
@[simp] theorem engineBlock_locks (s : State) (pa : Nat) (d : BitVec 512) (t : BitVec 16) : (s.engineBlock pa d t).locks = s.locks := rfl
@[simp] theorem engineBlock_rels (s : State) (pa : Nat) (d : BitVec 512) (t : BitVec 16) : (s.engineBlock pa d t).rels = s.rels := rfl
@[simp] theorem engineBlock_cores (s : State) (pa : Nat) (d : BitVec 512) (t : BitVec 16) : (s.engineBlock pa d t).cores = s.cores := rfl
@[simp] theorem engineBlock_answers (s : State) (pa : Nat) (d : BitVec 512) (t : BitVec 16) : (s.engineBlock pa d t).answers = s.answers := rfl
@[simp] theorem engineBlock_sends (s : State) (pa : Nat) (d : BitVec 512) (t : BitVec 16) : (s.engineBlock pa d t).sends = s.sends := rfl
@[simp] theorem engineBlock_ctxs (s : State) (pa : Nat) (d : BitVec 512) (t : BitVec 16) : (s.engineBlock pa d t).ctxs = s.ctxs := rfl
@[simp] theorem engineBlock_xlate (s : State) (pa : Nat) (d : BitVec 512) (t : BitVec 16) : (s.engineBlock pa d t).xlate = s.xlate := rfl
@[simp] theorem engineBlock_devMap (s : State) (pa : Nat) (d : BitVec 512) (t : BitVec 16) : (s.engineBlock pa d t).devMap = s.devMap := rfl
@[simp] theorem engineBlock_fbuf (s : State) (pa : Nat) (d : BitVec 512) (t : BitVec 16) : (s.engineBlock pa d t).fbuf = s.fbuf := rfl
@[simp] theorem engineBlock_outsides (s : State) (pa : Nat) (d : BitVec 512) (t : BitVec 16) : (s.engineBlock pa d t).outsides = s.outsides := rfl
@[simp] theorem engineBlock_log (s : State) (pa : Nat) (d : BitVec 512) (t : BitVec 16) : (s.engineBlock pa d t).log = s.log := rfl
@[simp] theorem engineBlock_dcnt (s : State) (pa : Nat) (d : BitVec 512) (t : BitVec 16) : (s.engineBlock pa d t).dcnt = s.dcnt := rfl
@[simp] theorem engineBlock_deadDies (s : State) (pa : Nat) (d : BitVec 512) (t : BitVec 16) : (s.engineBlock pa d t).deadDies = s.deadDies := rfl
@[simp] theorem engineBlock_qmap (s : State) (pa : Nat) (d : BitVec 512) (t : BitVec 16) : (s.engineBlock pa d t).qmap = s.qmap := rfl
@[simp] theorem engineBlock_outQ (s : State) (pa : Nat) (d : BitVec 512) (t : BitVec 16) : (s.engineBlock pa d t).outQ = s.outQ := rfl
@[simp] theorem engineBlock_spares (s : State) (pa : Nat) (d : BitVec 512) (t : BitVec 16) : (s.engineBlock pa d t).spares = s.spares := rfl
@[simp] theorem engineBlock_kiosk (s : State) (pa : Nat) (d : BitVec 512) (t : BitVec 16) : (s.engineBlock pa d t).kiosk = s.kiosk := rfl
@[simp] theorem engineBlock_part (s : State) (pa : Nat) (d : BitVec 512) (t : BitVec 16) : (s.engineBlock pa d t).part = s.part := rfl
@[simp] theorem engineBlock_kernels (s : State) (pa : Nat) (d : BitVec 512) (t : BitVec 16) : (s.engineBlock pa d t).kernels = s.kernels := rfl
@[simp] theorem engineBlock_nextKernel (s : State) (pa : Nat) (d : BitVec 512) (t : BitVec 16) : (s.engineBlock pa d t).nextKernel = s.nextKernel := rfl
@[simp] theorem engineBlock_groups (s : State) (pa : Nat) (d : BitVec 512) (t : BitVec 16) : (s.engineBlock pa d t).groups = s.groups := rfl
@[simp] theorem engineBlock_nextGroup (s : State) (pa : Nat) (d : BitVec 512) (t : BitVec 16) : (s.engineBlock pa d t).nextGroup = s.nextGroup := rfl
@[simp] theorem engineBlock_cohorts (s : State) (pa : Nat) (d : BitVec 512) (t : BitVec 16) : (s.engineBlock pa d t).cohorts = s.cohorts := rfl
@[simp] theorem engineBlock_nextCohort (s : State) (pa : Nat) (d : BitVec 512) (t : BitVec 16) : (s.engineBlock pa d t).nextCohort = s.nextCohort := rfl
@[simp] theorem engineBlock_qbar (s : State) (pa : Nat) (d : BitVec 512) (t : BitVec 16) : (s.engineBlock pa d t).qbar = s.qbar := rfl
@[simp] theorem engineBlock_dbar (s : State) (pa : Nat) (d : BitVec 512) (t : BitVec 16) : (s.engineBlock pa d t).dbar = s.dbar := rfl
@[simp] theorem engineBlock_tags (s : State) (pa : Nat) (d : BitVec 512) (t : BitVec 16) : (s.engineBlock pa d t).tags = s.tags := rfl
@[simp] theorem engineBlock_pubs (s : State) (pa : Nat) (d : BitVec 512) (t : BitVec 16) : (s.engineBlock pa d t).pubs = s.pubs := rfl
@[simp] theorem engineBlock_leaves (s : State) (pa : Nat) (d : BitVec 512) (t : BitVec 16) : (s.engineBlock pa d t).leaves = s.leaves := rfl
@[simp] theorem engineBlock_pgops (s : State) (pa : Nat) (d : BitVec 512) (t : BitVec 16) : (s.engineBlock pa d t).pgops = s.pgops := rfl
@[simp] theorem engineBlock_kvcommits (s : State) (pa : Nat) (d : BitVec 512) (t : BitVec 16) : (s.engineBlock pa d t).kvcommits = s.kvcommits := rfl
@[simp] theorem engineBlock_tickets (s : State) (pa : Nat) (d : BitVec 512) (t : BitVec 16) : (s.engineBlock pa d t).tickets = s.tickets := rfl
@[simp] theorem engineBlock_sweeper (s : State) (pa : Nat) (d : BitVec 512) (t : BitVec 16) : (s.engineBlock pa d t).sweeper = s.sweeper := rfl
@[simp] theorem engineBlock_samples (s : State) (pa : Nat) (d : BitVec 512) (t : BitVec 16) : (s.engineBlock pa d t).samples = s.samples := rfl
@[simp] theorem engineBlock_voids (s : State) (pa : Nat) (d : BitVec 512) (t : BitVec 16) : (s.engineBlock pa d t).voids = s.voids := rfl
@[simp] theorem engineBlock_ports (s : State) (pa : Nat) (d : BitVec 512) (t : BitVec 16) : (s.engineBlock pa d t).ports = s.ports := rfl
@[simp] theorem engineBlock_trees (s : State) (pa : Nat) (d : BitVec 512) (t : BitVec 16) : (s.engineBlock pa d t).trees = s.trees := rfl
@[simp] theorem engineBlock_treeReqs (s : State) (pa : Nat) (d : BitVec 512) (t : BitVec 16) : (s.engineBlock pa d t).treeReqs = s.treeReqs := rfl
@[simp] theorem engineBlock_fns (s : State) (pa : Nat) (d : BitVec 512) (t : BitVec 16) : (s.engineBlock pa d t).fns = s.fns := rfl
@[simp] theorem engineBlock_streams (s : State) (pa : Nat) (d : BitVec 512) (t : BitVec 16) : (s.engineBlock pa d t).streams = s.streams := rfl
@[simp] theorem engineBlock_hostData (s : State) (pa : Nat) (d : BitVec 512) (t : BitVec 16) : (s.engineBlock pa d t).hostData = s.hostData := rfl
@[simp] theorem engineBlock_preloads (s : State) (pa : Nat) (d : BitVec 512) (t : BitVec 16) : (s.engineBlock pa d t).preloads = s.preloads := rfl
@[simp] theorem engineBlock_duty (s : State) (pa : Nat) (d : BitVec 512) (t : BitVec 16) : (s.engineBlock pa d t).duty = s.duty := rfl
@[simp] theorem engineBlock_kept (s : State) (pa : Nat) (d : BitVec 512) (t : BitVec 16) : (s.engineBlock pa d t).kept = s.kept := rfl

/-! ### What `State.coreStore` leaves alone -/

@[simp] theorem coreStore_now (s : State) (n pa k v : Nat) : (s.coreStore n pa k v).now = s.now := rfl
@[simp] theorem coreStore_fresh (s : State) (n pa k v : Nat) : (s.coreStore n pa k v).fresh = s.fresh := rfl
@[simp] theorem coreStore_agenda (s : State) (n pa k v : Nat) : (s.coreStore n pa k v).agenda = s.agenda := rfl
@[simp] theorem coreStore_cur (s : State) (n pa k v : Nat) : (s.coreStore n pa k v).cur = s.cur := rfl
@[simp] theorem coreStore_root (s : State) (n pa k v : Nat) : (s.coreStore n pa k v).root = s.root := rfl
@[simp] theorem coreStore_keys (s : State) (n pa k v : Nat) : (s.coreStore n pa k v).keys = s.keys := rfl
@[simp] theorem coreStore_dirs (s : State) (n pa k v : Nat) : (s.coreStore n pa k v).dirs = s.dirs := rfl
@[simp] theorem coreStore_hostMem (s : State) (n pa k v : Nat) : (s.coreStore n pa k v).hostMem = s.hostMem := rfl
@[simp] theorem coreStore_locks (s : State) (n pa k v : Nat) : (s.coreStore n pa k v).locks = s.locks := rfl
@[simp] theorem coreStore_rels (s : State) (n pa k v : Nat) : (s.coreStore n pa k v).rels = s.rels := rfl
@[simp] theorem coreStore_answers (s : State) (n pa k v : Nat) : (s.coreStore n pa k v).answers = s.answers := rfl
@[simp] theorem coreStore_sends (s : State) (n pa k v : Nat) : (s.coreStore n pa k v).sends = s.sends := rfl
@[simp] theorem coreStore_ctxs (s : State) (n pa k v : Nat) : (s.coreStore n pa k v).ctxs = s.ctxs := rfl
@[simp] theorem coreStore_xlate (s : State) (n pa k v : Nat) : (s.coreStore n pa k v).xlate = s.xlate := rfl
@[simp] theorem coreStore_devMap (s : State) (n pa k v : Nat) : (s.coreStore n pa k v).devMap = s.devMap := rfl
@[simp] theorem coreStore_fbuf (s : State) (n pa k v : Nat) : (s.coreStore n pa k v).fbuf = s.fbuf := rfl
@[simp] theorem coreStore_outsides (s : State) (n pa k v : Nat) : (s.coreStore n pa k v).outsides = s.outsides := rfl
@[simp] theorem coreStore_log (s : State) (n pa k v : Nat) : (s.coreStore n pa k v).log = s.log := rfl
@[simp] theorem coreStore_dcnt (s : State) (n pa k v : Nat) : (s.coreStore n pa k v).dcnt = s.dcnt := rfl
@[simp] theorem coreStore_deadDies (s : State) (n pa k v : Nat) : (s.coreStore n pa k v).deadDies = s.deadDies := rfl
@[simp] theorem coreStore_qmap (s : State) (n pa k v : Nat) : (s.coreStore n pa k v).qmap = s.qmap := rfl
@[simp] theorem coreStore_outQ (s : State) (n pa k v : Nat) : (s.coreStore n pa k v).outQ = s.outQ := rfl
@[simp] theorem coreStore_spares (s : State) (n pa k v : Nat) : (s.coreStore n pa k v).spares = s.spares := rfl
@[simp] theorem coreStore_kiosk (s : State) (n pa k v : Nat) : (s.coreStore n pa k v).kiosk = s.kiosk := rfl
@[simp] theorem coreStore_part (s : State) (n pa k v : Nat) : (s.coreStore n pa k v).part = s.part := rfl
@[simp] theorem coreStore_kernels (s : State) (n pa k v : Nat) : (s.coreStore n pa k v).kernels = s.kernels := rfl
@[simp] theorem coreStore_nextKernel (s : State) (n pa k v : Nat) : (s.coreStore n pa k v).nextKernel = s.nextKernel := rfl
@[simp] theorem coreStore_groups (s : State) (n pa k v : Nat) : (s.coreStore n pa k v).groups = s.groups := rfl
@[simp] theorem coreStore_nextGroup (s : State) (n pa k v : Nat) : (s.coreStore n pa k v).nextGroup = s.nextGroup := rfl
@[simp] theorem coreStore_cohorts (s : State) (n pa k v : Nat) : (s.coreStore n pa k v).cohorts = s.cohorts := rfl
@[simp] theorem coreStore_nextCohort (s : State) (n pa k v : Nat) : (s.coreStore n pa k v).nextCohort = s.nextCohort := rfl
@[simp] theorem coreStore_qbar (s : State) (n pa k v : Nat) : (s.coreStore n pa k v).qbar = s.qbar := rfl
@[simp] theorem coreStore_dbar (s : State) (n pa k v : Nat) : (s.coreStore n pa k v).dbar = s.dbar := rfl
@[simp] theorem coreStore_tags (s : State) (n pa k v : Nat) : (s.coreStore n pa k v).tags = s.tags := rfl
@[simp] theorem coreStore_pubs (s : State) (n pa k v : Nat) : (s.coreStore n pa k v).pubs = s.pubs := rfl
@[simp] theorem coreStore_leaves (s : State) (n pa k v : Nat) : (s.coreStore n pa k v).leaves = s.leaves := rfl
@[simp] theorem coreStore_pgops (s : State) (n pa k v : Nat) : (s.coreStore n pa k v).pgops = s.pgops := rfl
@[simp] theorem coreStore_kvcommits (s : State) (n pa k v : Nat) : (s.coreStore n pa k v).kvcommits = s.kvcommits := rfl
@[simp] theorem coreStore_tickets (s : State) (n pa k v : Nat) : (s.coreStore n pa k v).tickets = s.tickets := rfl
@[simp] theorem coreStore_sweeper (s : State) (n pa k v : Nat) : (s.coreStore n pa k v).sweeper = s.sweeper := rfl
@[simp] theorem coreStore_samples (s : State) (n pa k v : Nat) : (s.coreStore n pa k v).samples = s.samples := rfl
@[simp] theorem coreStore_voids (s : State) (n pa k v : Nat) : (s.coreStore n pa k v).voids = s.voids := rfl
@[simp] theorem coreStore_ports (s : State) (n pa k v : Nat) : (s.coreStore n pa k v).ports = s.ports := rfl
@[simp] theorem coreStore_trees (s : State) (n pa k v : Nat) : (s.coreStore n pa k v).trees = s.trees := rfl
@[simp] theorem coreStore_treeReqs (s : State) (n pa k v : Nat) : (s.coreStore n pa k v).treeReqs = s.treeReqs := rfl
@[simp] theorem coreStore_fns (s : State) (n pa k v : Nat) : (s.coreStore n pa k v).fns = s.fns := rfl
@[simp] theorem coreStore_streams (s : State) (n pa k v : Nat) : (s.coreStore n pa k v).streams = s.streams := rfl
@[simp] theorem coreStore_hostData (s : State) (n pa k v : Nat) : (s.coreStore n pa k v).hostData = s.hostData := rfl
@[simp] theorem coreStore_preloads (s : State) (n pa k v : Nat) : (s.coreStore n pa k v).preloads = s.preloads := rfl
@[simp] theorem coreStore_duty (s : State) (n pa k v : Nat) : (s.coreStore n pa k v).duty = s.duty := rfl
@[simp] theorem coreStore_kept (s : State) (n pa k v : Nat) : (s.coreStore n pa k v).kept = s.kept := rfl

/-! ### What `State.acquire` leaves alone -/

@[simp] theorem acquire_now (s : State) (n t : Nat) : (s.acquire n t).now = s.now := rfl
@[simp] theorem acquire_fresh (s : State) (n t : Nat) : (s.acquire n t).fresh = s.fresh := rfl
@[simp] theorem acquire_agenda (s : State) (n t : Nat) : (s.acquire n t).agenda = s.agenda := rfl
@[simp] theorem acquire_cur (s : State) (n t : Nat) : (s.acquire n t).cur = s.cur := rfl
@[simp] theorem acquire_root (s : State) (n t : Nat) : (s.acquire n t).root = s.root := rfl
@[simp] theorem acquire_mem (s : State) (n t : Nat) : (s.acquire n t).mem = s.mem := rfl
@[simp] theorem acquire_seals (s : State) (n t : Nat) : (s.acquire n t).seals = s.seals := rfl
@[simp] theorem acquire_keys (s : State) (n t : Nat) : (s.acquire n t).keys = s.keys := rfl
@[simp] theorem acquire_dirs (s : State) (n t : Nat) : (s.acquire n t).dirs = s.dirs := rfl
@[simp] theorem acquire_hostMem (s : State) (n t : Nat) : (s.acquire n t).hostMem = s.hostMem := rfl
@[simp] theorem acquire_lineTimes (s : State) (n t : Nat) : (s.acquire n t).lineTimes = s.lineTimes := rfl
@[simp] theorem acquire_locks (s : State) (n t : Nat) : (s.acquire n t).locks = s.locks := rfl
@[simp] theorem acquire_rels (s : State) (n t : Nat) : (s.acquire n t).rels = s.rels := rfl
@[simp] theorem acquire_answers (s : State) (n t : Nat) : (s.acquire n t).answers = s.answers := rfl
@[simp] theorem acquire_sends (s : State) (n t : Nat) : (s.acquire n t).sends = s.sends := rfl
@[simp] theorem acquire_ctxs (s : State) (n t : Nat) : (s.acquire n t).ctxs = s.ctxs := rfl
@[simp] theorem acquire_xlate (s : State) (n t : Nat) : (s.acquire n t).xlate = s.xlate := rfl
@[simp] theorem acquire_devMap (s : State) (n t : Nat) : (s.acquire n t).devMap = s.devMap := rfl
@[simp] theorem acquire_fbuf (s : State) (n t : Nat) : (s.acquire n t).fbuf = s.fbuf := rfl
@[simp] theorem acquire_outsides (s : State) (n t : Nat) : (s.acquire n t).outsides = s.outsides := rfl
@[simp] theorem acquire_log (s : State) (n t : Nat) : (s.acquire n t).log = s.log := rfl
@[simp] theorem acquire_dcnt (s : State) (n t : Nat) : (s.acquire n t).dcnt = s.dcnt := rfl
@[simp] theorem acquire_deadDies (s : State) (n t : Nat) : (s.acquire n t).deadDies = s.deadDies := rfl
@[simp] theorem acquire_qmap (s : State) (n t : Nat) : (s.acquire n t).qmap = s.qmap := rfl
@[simp] theorem acquire_outQ (s : State) (n t : Nat) : (s.acquire n t).outQ = s.outQ := rfl
@[simp] theorem acquire_spares (s : State) (n t : Nat) : (s.acquire n t).spares = s.spares := rfl
@[simp] theorem acquire_kiosk (s : State) (n t : Nat) : (s.acquire n t).kiosk = s.kiosk := rfl
@[simp] theorem acquire_part (s : State) (n t : Nat) : (s.acquire n t).part = s.part := rfl
@[simp] theorem acquire_kernels (s : State) (n t : Nat) : (s.acquire n t).kernels = s.kernels := rfl
@[simp] theorem acquire_nextKernel (s : State) (n t : Nat) : (s.acquire n t).nextKernel = s.nextKernel := rfl
@[simp] theorem acquire_groups (s : State) (n t : Nat) : (s.acquire n t).groups = s.groups := rfl
@[simp] theorem acquire_nextGroup (s : State) (n t : Nat) : (s.acquire n t).nextGroup = s.nextGroup := rfl
@[simp] theorem acquire_cohorts (s : State) (n t : Nat) : (s.acquire n t).cohorts = s.cohorts := rfl
@[simp] theorem acquire_nextCohort (s : State) (n t : Nat) : (s.acquire n t).nextCohort = s.nextCohort := rfl
@[simp] theorem acquire_qbar (s : State) (n t : Nat) : (s.acquire n t).qbar = s.qbar := rfl
@[simp] theorem acquire_dbar (s : State) (n t : Nat) : (s.acquire n t).dbar = s.dbar := rfl
@[simp] theorem acquire_tags (s : State) (n t : Nat) : (s.acquire n t).tags = s.tags := rfl
@[simp] theorem acquire_pubs (s : State) (n t : Nat) : (s.acquire n t).pubs = s.pubs := rfl
@[simp] theorem acquire_leaves (s : State) (n t : Nat) : (s.acquire n t).leaves = s.leaves := rfl
@[simp] theorem acquire_pgops (s : State) (n t : Nat) : (s.acquire n t).pgops = s.pgops := rfl
@[simp] theorem acquire_kvcommits (s : State) (n t : Nat) : (s.acquire n t).kvcommits = s.kvcommits := rfl
@[simp] theorem acquire_tickets (s : State) (n t : Nat) : (s.acquire n t).tickets = s.tickets := rfl
@[simp] theorem acquire_sweeper (s : State) (n t : Nat) : (s.acquire n t).sweeper = s.sweeper := rfl
@[simp] theorem acquire_samples (s : State) (n t : Nat) : (s.acquire n t).samples = s.samples := rfl
@[simp] theorem acquire_voids (s : State) (n t : Nat) : (s.acquire n t).voids = s.voids := rfl
@[simp] theorem acquire_ports (s : State) (n t : Nat) : (s.acquire n t).ports = s.ports := rfl
@[simp] theorem acquire_trees (s : State) (n t : Nat) : (s.acquire n t).trees = s.trees := rfl
@[simp] theorem acquire_treeReqs (s : State) (n t : Nat) : (s.acquire n t).treeReqs = s.treeReqs := rfl
@[simp] theorem acquire_fns (s : State) (n t : Nat) : (s.acquire n t).fns = s.fns := rfl
@[simp] theorem acquire_streams (s : State) (n t : Nat) : (s.acquire n t).streams = s.streams := rfl
@[simp] theorem acquire_hostData (s : State) (n t : Nat) : (s.acquire n t).hostData = s.hostData := rfl
@[simp] theorem acquire_preloads (s : State) (n t : Nat) : (s.acquire n t).preloads = s.preloads := rfl
@[simp] theorem acquire_duty (s : State) (n t : Nat) : (s.acquire n t).duty = s.duty := rfl
@[simp] theorem acquire_kept (s : State) (n t : Nat) : (s.acquire n t).kept = s.kept := rfl

/-! ### What `Core.setA` leaves alone -/

@[simp] theorem Core.setA_run (c : Core) (r : Nat) (x : W64) : (c.setA r x).run = c.run := rfl
@[simp] theorem Core.setA_ctx (c : Core) (r : Nat) (x : W64) : (c.setA r x).ctx = c.ctx := rfl
@[simp] theorem Core.setA_pc (c : Core) (r : Nat) (x : W64) : (c.setA r x).pc = c.pc := rfl
@[simp] theorem Core.setA_lbix (c : Core) (r : Nat) (x : W64) : (c.setA r x).lbix = c.lbix := rfl
@[simp] theorem Core.setA_loopBuf (c : Core) (r : Nat) (x : W64) : (c.setA r x).loopBuf = c.loopBuf := rfl
@[simp] theorem Core.setA_body (c : Core) (r : Nat) (x : W64) : (c.setA r x).body = c.body := rfl
@[simp] theorem Core.setA_slow (c : Core) (r : Nat) (x : W64) : (c.setA r x).slow = c.slow := rfl
@[simp] theorem Core.setA_g (c : Core) (r : Nat) (x : W64) : (c.setA r x).g = c.g := rfl
@[simp] theorem Core.setA_stride (c : Core) (r : Nat) (x : W64) : (c.setA r x).stride = c.stride := rfl
@[simp] theorem Core.setA_p (c : Core) (r : Nat) (x : W64) : (c.setA r x).p = c.p := rfl
@[simp] theorem Core.setA_b (c : Core) (r : Nat) (x : W64) : (c.setA r x).b = c.b := rfl
@[simp] theorem Core.setA_v (c : Core) (r : Nat) (x : W64) : (c.setA r x).v = c.v := rfl
@[simp] theorem Core.setA_m (c : Core) (r : Nat) (x : W64) : (c.setA r x).m = c.m := rfl
@[simp] theorem Core.setA_latches (c : Core) (r : Nat) (x : W64) : (c.setA r x).latches = c.latches := rfl
@[simp] theorem Core.setA_latv (c : Core) (r : Nat) (x : W64) : (c.setA r x).latv = c.latv := rfl
@[simp] theorem Core.setA_held (c : Core) (r : Nat) (x : W64) : (c.setA r x).held = c.held := rfl
@[simp] theorem Core.setA_holdv (c : Core) (r : Nat) (x : W64) : (c.setA r x).holdv = c.holdv := rfl
@[simp] theorem Core.setA_pend (c : Core) (r : Nat) (x : W64) : (c.setA r x).pend = c.pend := rfl
@[simp] theorem Core.setA_ic (c : Core) (r : Nat) (x : W64) : (c.setA r x).ic = c.ic := rfl
@[simp] theorem Core.setA_ticks (c : Core) (r : Nat) (x : W64) : (c.setA r x).ticks = c.ticks := rfl
@[simp] theorem Core.setA_lctl (c : Core) (r : Nat) (x : W64) : (c.setA r x).lctl = c.lctl := rfl
@[simp] theorem Core.setA_lstat (c : Core) (r : Nat) (x : W64) : (c.setA r x).lstat = c.lstat := rfl
@[simp] theorem Core.setA_steps (c : Core) (r : Nat) (x : W64) : (c.setA r x).steps = c.steps := rfl
@[simp] theorem Core.setA_wrapped (c : Core) (r : Nat) (x : W64) : (c.setA r x).wrapped = c.wrapped := rfl
@[simp] theorem Core.setA_lent (c : Core) (r : Nat) (x : W64) : (c.setA r x).lent = c.lent := rfl
@[simp] theorem Core.setA_frzcyc (c : Core) (r : Nat) (x : W64) : (c.setA r x).frzcyc = c.frzcyc := rfl
@[simp] theorem Core.setA_latinv (c : Core) (r : Nat) (x : W64) : (c.setA r x).latinv = c.latinv := rfl
@[simp] theorem Core.setA_holdinv (c : Core) (r : Nat) (x : W64) : (c.setA r x).holdinv = c.holdinv := rfl
@[simp] theorem Core.setA_diagunit (c : Core) (r : Nat) (x : W64) : (c.setA r x).diagunit = c.diagunit := rfl
@[simp] theorem Core.setA_scales (c : Core) (r : Nat) (x : W64) : (c.setA r x).scales = c.scales := rfl
@[simp] theorem Core.setA_gen (c : Core) (r : Nat) (x : W64) : (c.setA r x).gen = c.gen := rfl
@[simp] theorem Core.setA_nopen (c : Core) (r : Nat) (x : W64) : (c.setA r x).nopen = c.nopen := rfl
@[simp] theorem Core.setA_rngK (c : Core) (r : Nat) (x : W64) : (c.setA r x).rngK = c.rngK := rfl
@[simp] theorem Core.setA_rngC (c : Core) (r : Nat) (x : W64) : (c.setA r x).rngC = c.rngC := rfl
@[simp] theorem Core.setA_nfs (c : Core) (r : Nat) (x : W64) : (c.setA r x).nfs = c.nfs := rfl
@[simp] theorem Core.setA_cause (c : Core) (r : Nat) (x : W64) : (c.setA r x).cause = c.cause := rfl
@[simp] theorem Core.setA_rpc (c : Core) (r : Nat) (x : W64) : (c.setA r x).rpc = c.rpc := rfl
@[simp] theorem Core.setA_tval (c : Core) (r : Nat) (x : W64) : (c.setA r x).tval = c.tval := rfl
@[simp] theorem Core.setA_faddr (c : Core) (r : Nat) (x : W64) : (c.setA r x).faddr = c.faddr := rfl
@[simp] theorem Core.setA_dcause (c : Core) (r : Nat) (x : W64) : (c.setA r x).dcause = c.dcause := rfl
@[simp] theorem Core.setA_imp (c : Core) (r : Nat) (x : W64) : (c.setA r x).imp = c.imp := rfl
@[simp] theorem Core.setA_hbase (c : Core) (r : Nat) (x : W64) : (c.setA r x).hbase = c.hbase := rfl
@[simp] theorem Core.setA_twin (c : Core) (r : Nat) (x : W64) : (c.setA r x).twin = c.twin := rfl
@[simp] theorem Core.setA_frames (c : Core) (r : Nat) (x : W64) : (c.setA r x).frames = c.frames := rfl
@[simp] theorem Core.setA_reports (c : Core) (r : Nat) (x : W64) : (c.setA r x).reports = c.reports := rfl
@[simp] theorem Core.setA_bksup (c : Core) (r : Nat) (x : W64) : (c.setA r x).bksup = c.bksup := rfl
@[simp] theorem Core.setA_clk (c : Core) (r : Nat) (x : W64) : (c.setA r x).clk = c.clk := rfl
@[simp] theorem Core.setA_wts (c : Core) (r : Nat) (x : W64) : (c.setA r x).wts = c.wts := rfl
@[simp] theorem Core.setA_copies (c : Core) (r : Nat) (x : W64) : (c.setA r x).copies = c.copies := rfl
@[simp] theorem Core.setA_icache (c : Core) (r : Nat) (x : W64) : (c.setA r x).icache = c.icache := rfl
@[simp] theorem Core.setA_mx (c : Core) (r : Nat) (x : W64) : (c.setA r x).mx = c.mx := rfl
@[simp] theorem Core.setA_wbuf (c : Core) (r : Nat) (x : W64) : (c.setA r x).wbuf = c.wbuf := rfl
@[simp] theorem Core.setA_spad (c : Core) (r : Nat) (x : W64) : (c.setA r x).spad = c.spad := rfl
@[simp] theorem Core.setA_tiles (c : Core) (r : Nat) (x : W64) : (c.setA r x).tiles = c.tiles := rfl
@[simp] theorem Core.setA_ifr (c : Core) (r : Nat) (x : W64) : (c.setA r x).ifr = c.ifr := rfl
@[simp] theorem Core.setA_nextSeq (c : Core) (r : Nat) (x : W64) : (c.setA r x).nextSeq = c.nextSeq := rfl
@[simp] theorem Core.setA_fseq (c : Core) (r : Nat) (x : W64) : (c.setA r x).fseq = c.fseq := rfl
@[simp] theorem Core.setA_fseqN (c : Core) (r : Nat) (x : W64) : (c.setA r x).fseqN = c.fseqN := rfl
@[simp] theorem Core.setA_fscope (c : Core) (r : Nat) (x : W64) : (c.setA r x).fscope = c.fscope := rfl
@[simp] theorem Core.setA_fenceX (c : Core) (r : Nat) (x : W64) : (c.setA r x).fenceX = c.fenceX := rfl
@[simp] theorem Core.setA_fenceN (c : Core) (r : Nat) (x : W64) : (c.setA r x).fenceN = c.fenceN := rfl
@[simp] theorem Core.setA_fenceR (c : Core) (r : Nat) (x : W64) : (c.setA r x).fenceR = c.fenceR := rfl
@[simp] theorem Core.setA_relblk (c : Core) (r : Nat) (x : W64) : (c.setA r x).relblk = c.relblk := rfl
@[simp] theorem Core.setA_chan (c : Core) (r : Nat) (x : W64) : (c.setA r x).chan = c.chan := rfl
@[simp] theorem Core.setA_posted (c : Core) (r : Nat) (x : W64) : (c.setA r x).posted = c.posted := rfl
@[simp] theorem Core.setA_heldBundle (c : Core) (r : Nat) (x : W64) : (c.setA r x).heldBundle = c.heldBundle := rfl
@[simp] theorem Core.setA_replay (c : Core) (r : Nat) (x : W64) : (c.setA r x).replay = c.replay := rfl
@[simp] theorem Core.setA_cutEp (c : Core) (r : Nat) (x : W64) : (c.setA r x).cutEp = c.cutEp := rfl
@[simp] theorem Core.setA_cutN (c : Core) (r : Nat) (x : W64) : (c.setA r x).cutN = c.cutN := rfl
@[simp] theorem Core.setA_stop (c : Core) (r : Nat) (x : W64) : (c.setA r x).stop = c.stop := rfl
@[simp] theorem Core.setA_mem (c : Core) (r : Nat) (x : W64) : (c.setA r x).mem = c.mem := rfl
@[simp] theorem Core.setA_bnd (c : Core) (r : Nat) (x : W64) : (c.setA r x).bnd = c.bnd := rfl
@[simp] theorem Core.setA_sv (c : Core) (r : Nat) (x : W64) : (c.setA r x).sv = c.sv := rfl
@[simp] theorem Core.setA_mix (c : Core) (r : Nat) (x : W64) : (c.setA r x).mix = c.mix := rfl
@[simp] theorem Core.setA_nslot (c : Core) (r : Nat) (x : W64) : (c.setA r x).nslot = c.nslot := rfl
@[simp] theorem Core.setA_nleft (c : Core) (r : Nat) (x : W64) : (c.setA r x).nleft = c.nleft := rfl
@[simp] theorem Core.setA_spa (c : Core) (r : Nat) (x : W64) : (c.setA r x).spa = c.spa := rfl
@[simp] theorem Core.setA_xearly (c : Core) (r : Nat) (x : W64) : (c.setA r x).xearly = c.xearly := rfl
@[simp] theorem Core.setA_xl (c : Core) (r : Nat) (x : W64) : (c.setA r x).xl = c.xl := rfl
@[simp] theorem Core.setA_slotReq (c : Core) (r : Nat) (x : W64) : (c.setA r x).slotReq = c.slotReq := rfl
@[simp] theorem Core.setA_nextAt (c : Core) (r : Nat) (x : W64) : (c.setA r x).nextAt = c.nextAt := rfl
@[simp] theorem Core.setA_dutyGroup (c : Core) (r : Nat) (x : W64) : (c.setA r x).dutyGroup = c.dutyGroup := rfl
@[simp] theorem Core.setA_dutyUsed (c : Core) (r : Nat) (x : W64) : (c.setA r x).dutyUsed = c.dutyUsed := rfl

/-! ### What `Core.setStride` leaves alone -/

@[simp] theorem Core.setStride_run (c : Core) (r : Nat) (x : W64) : (c.setStride r x).run = c.run := rfl
@[simp] theorem Core.setStride_ctx (c : Core) (r : Nat) (x : W64) : (c.setStride r x).ctx = c.ctx := rfl
@[simp] theorem Core.setStride_pc (c : Core) (r : Nat) (x : W64) : (c.setStride r x).pc = c.pc := rfl
@[simp] theorem Core.setStride_lbix (c : Core) (r : Nat) (x : W64) : (c.setStride r x).lbix = c.lbix := rfl
@[simp] theorem Core.setStride_loopBuf (c : Core) (r : Nat) (x : W64) : (c.setStride r x).loopBuf = c.loopBuf := rfl
@[simp] theorem Core.setStride_body (c : Core) (r : Nat) (x : W64) : (c.setStride r x).body = c.body := rfl
@[simp] theorem Core.setStride_slow (c : Core) (r : Nat) (x : W64) : (c.setStride r x).slow = c.slow := rfl
@[simp] theorem Core.setStride_g (c : Core) (r : Nat) (x : W64) : (c.setStride r x).g = c.g := rfl
@[simp] theorem Core.setStride_a (c : Core) (r : Nat) (x : W64) : (c.setStride r x).a = c.a := rfl
@[simp] theorem Core.setStride_p (c : Core) (r : Nat) (x : W64) : (c.setStride r x).p = c.p := rfl
@[simp] theorem Core.setStride_b (c : Core) (r : Nat) (x : W64) : (c.setStride r x).b = c.b := rfl
@[simp] theorem Core.setStride_v (c : Core) (r : Nat) (x : W64) : (c.setStride r x).v = c.v := rfl
@[simp] theorem Core.setStride_m (c : Core) (r : Nat) (x : W64) : (c.setStride r x).m = c.m := rfl
@[simp] theorem Core.setStride_latches (c : Core) (r : Nat) (x : W64) : (c.setStride r x).latches = c.latches := rfl
@[simp] theorem Core.setStride_latv (c : Core) (r : Nat) (x : W64) : (c.setStride r x).latv = c.latv := rfl
@[simp] theorem Core.setStride_held (c : Core) (r : Nat) (x : W64) : (c.setStride r x).held = c.held := rfl
@[simp] theorem Core.setStride_holdv (c : Core) (r : Nat) (x : W64) : (c.setStride r x).holdv = c.holdv := rfl
@[simp] theorem Core.setStride_pend (c : Core) (r : Nat) (x : W64) : (c.setStride r x).pend = c.pend := rfl
@[simp] theorem Core.setStride_ic (c : Core) (r : Nat) (x : W64) : (c.setStride r x).ic = c.ic := rfl
@[simp] theorem Core.setStride_ticks (c : Core) (r : Nat) (x : W64) : (c.setStride r x).ticks = c.ticks := rfl
@[simp] theorem Core.setStride_lctl (c : Core) (r : Nat) (x : W64) : (c.setStride r x).lctl = c.lctl := rfl
@[simp] theorem Core.setStride_lstat (c : Core) (r : Nat) (x : W64) : (c.setStride r x).lstat = c.lstat := rfl
@[simp] theorem Core.setStride_steps (c : Core) (r : Nat) (x : W64) : (c.setStride r x).steps = c.steps := rfl
@[simp] theorem Core.setStride_wrapped (c : Core) (r : Nat) (x : W64) : (c.setStride r x).wrapped = c.wrapped := rfl
@[simp] theorem Core.setStride_lent (c : Core) (r : Nat) (x : W64) : (c.setStride r x).lent = c.lent := rfl
@[simp] theorem Core.setStride_frzcyc (c : Core) (r : Nat) (x : W64) : (c.setStride r x).frzcyc = c.frzcyc := rfl
@[simp] theorem Core.setStride_latinv (c : Core) (r : Nat) (x : W64) : (c.setStride r x).latinv = c.latinv := rfl
@[simp] theorem Core.setStride_holdinv (c : Core) (r : Nat) (x : W64) : (c.setStride r x).holdinv = c.holdinv := rfl
@[simp] theorem Core.setStride_diagunit (c : Core) (r : Nat) (x : W64) : (c.setStride r x).diagunit = c.diagunit := rfl
@[simp] theorem Core.setStride_scales (c : Core) (r : Nat) (x : W64) : (c.setStride r x).scales = c.scales := rfl
@[simp] theorem Core.setStride_gen (c : Core) (r : Nat) (x : W64) : (c.setStride r x).gen = c.gen := rfl
@[simp] theorem Core.setStride_nopen (c : Core) (r : Nat) (x : W64) : (c.setStride r x).nopen = c.nopen := rfl
@[simp] theorem Core.setStride_rngK (c : Core) (r : Nat) (x : W64) : (c.setStride r x).rngK = c.rngK := rfl
@[simp] theorem Core.setStride_rngC (c : Core) (r : Nat) (x : W64) : (c.setStride r x).rngC = c.rngC := rfl
@[simp] theorem Core.setStride_nfs (c : Core) (r : Nat) (x : W64) : (c.setStride r x).nfs = c.nfs := rfl
@[simp] theorem Core.setStride_cause (c : Core) (r : Nat) (x : W64) : (c.setStride r x).cause = c.cause := rfl
@[simp] theorem Core.setStride_rpc (c : Core) (r : Nat) (x : W64) : (c.setStride r x).rpc = c.rpc := rfl
@[simp] theorem Core.setStride_tval (c : Core) (r : Nat) (x : W64) : (c.setStride r x).tval = c.tval := rfl
@[simp] theorem Core.setStride_faddr (c : Core) (r : Nat) (x : W64) : (c.setStride r x).faddr = c.faddr := rfl
@[simp] theorem Core.setStride_dcause (c : Core) (r : Nat) (x : W64) : (c.setStride r x).dcause = c.dcause := rfl
@[simp] theorem Core.setStride_imp (c : Core) (r : Nat) (x : W64) : (c.setStride r x).imp = c.imp := rfl
@[simp] theorem Core.setStride_hbase (c : Core) (r : Nat) (x : W64) : (c.setStride r x).hbase = c.hbase := rfl
@[simp] theorem Core.setStride_twin (c : Core) (r : Nat) (x : W64) : (c.setStride r x).twin = c.twin := rfl
@[simp] theorem Core.setStride_frames (c : Core) (r : Nat) (x : W64) : (c.setStride r x).frames = c.frames := rfl
@[simp] theorem Core.setStride_reports (c : Core) (r : Nat) (x : W64) : (c.setStride r x).reports = c.reports := rfl
@[simp] theorem Core.setStride_bksup (c : Core) (r : Nat) (x : W64) : (c.setStride r x).bksup = c.bksup := rfl
@[simp] theorem Core.setStride_clk (c : Core) (r : Nat) (x : W64) : (c.setStride r x).clk = c.clk := rfl
@[simp] theorem Core.setStride_wts (c : Core) (r : Nat) (x : W64) : (c.setStride r x).wts = c.wts := rfl
@[simp] theorem Core.setStride_copies (c : Core) (r : Nat) (x : W64) : (c.setStride r x).copies = c.copies := rfl
@[simp] theorem Core.setStride_icache (c : Core) (r : Nat) (x : W64) : (c.setStride r x).icache = c.icache := rfl
@[simp] theorem Core.setStride_mx (c : Core) (r : Nat) (x : W64) : (c.setStride r x).mx = c.mx := rfl
@[simp] theorem Core.setStride_wbuf (c : Core) (r : Nat) (x : W64) : (c.setStride r x).wbuf = c.wbuf := rfl
@[simp] theorem Core.setStride_spad (c : Core) (r : Nat) (x : W64) : (c.setStride r x).spad = c.spad := rfl
@[simp] theorem Core.setStride_tiles (c : Core) (r : Nat) (x : W64) : (c.setStride r x).tiles = c.tiles := rfl
@[simp] theorem Core.setStride_ifr (c : Core) (r : Nat) (x : W64) : (c.setStride r x).ifr = c.ifr := rfl
@[simp] theorem Core.setStride_nextSeq (c : Core) (r : Nat) (x : W64) : (c.setStride r x).nextSeq = c.nextSeq := rfl
@[simp] theorem Core.setStride_fseq (c : Core) (r : Nat) (x : W64) : (c.setStride r x).fseq = c.fseq := rfl
@[simp] theorem Core.setStride_fseqN (c : Core) (r : Nat) (x : W64) : (c.setStride r x).fseqN = c.fseqN := rfl
@[simp] theorem Core.setStride_fscope (c : Core) (r : Nat) (x : W64) : (c.setStride r x).fscope = c.fscope := rfl
@[simp] theorem Core.setStride_fenceX (c : Core) (r : Nat) (x : W64) : (c.setStride r x).fenceX = c.fenceX := rfl
@[simp] theorem Core.setStride_fenceN (c : Core) (r : Nat) (x : W64) : (c.setStride r x).fenceN = c.fenceN := rfl
@[simp] theorem Core.setStride_fenceR (c : Core) (r : Nat) (x : W64) : (c.setStride r x).fenceR = c.fenceR := rfl
@[simp] theorem Core.setStride_relblk (c : Core) (r : Nat) (x : W64) : (c.setStride r x).relblk = c.relblk := rfl
@[simp] theorem Core.setStride_chan (c : Core) (r : Nat) (x : W64) : (c.setStride r x).chan = c.chan := rfl
@[simp] theorem Core.setStride_posted (c : Core) (r : Nat) (x : W64) : (c.setStride r x).posted = c.posted := rfl
@[simp] theorem Core.setStride_heldBundle (c : Core) (r : Nat) (x : W64) : (c.setStride r x).heldBundle = c.heldBundle := rfl
@[simp] theorem Core.setStride_replay (c : Core) (r : Nat) (x : W64) : (c.setStride r x).replay = c.replay := rfl
@[simp] theorem Core.setStride_cutEp (c : Core) (r : Nat) (x : W64) : (c.setStride r x).cutEp = c.cutEp := rfl
@[simp] theorem Core.setStride_cutN (c : Core) (r : Nat) (x : W64) : (c.setStride r x).cutN = c.cutN := rfl
@[simp] theorem Core.setStride_stop (c : Core) (r : Nat) (x : W64) : (c.setStride r x).stop = c.stop := rfl
@[simp] theorem Core.setStride_mem (c : Core) (r : Nat) (x : W64) : (c.setStride r x).mem = c.mem := rfl
@[simp] theorem Core.setStride_bnd (c : Core) (r : Nat) (x : W64) : (c.setStride r x).bnd = c.bnd := rfl
@[simp] theorem Core.setStride_sv (c : Core) (r : Nat) (x : W64) : (c.setStride r x).sv = c.sv := rfl
@[simp] theorem Core.setStride_mix (c : Core) (r : Nat) (x : W64) : (c.setStride r x).mix = c.mix := rfl
@[simp] theorem Core.setStride_nslot (c : Core) (r : Nat) (x : W64) : (c.setStride r x).nslot = c.nslot := rfl
@[simp] theorem Core.setStride_nleft (c : Core) (r : Nat) (x : W64) : (c.setStride r x).nleft = c.nleft := rfl
@[simp] theorem Core.setStride_spa (c : Core) (r : Nat) (x : W64) : (c.setStride r x).spa = c.spa := rfl
@[simp] theorem Core.setStride_xearly (c : Core) (r : Nat) (x : W64) : (c.setStride r x).xearly = c.xearly := rfl
@[simp] theorem Core.setStride_xl (c : Core) (r : Nat) (x : W64) : (c.setStride r x).xl = c.xl := rfl
@[simp] theorem Core.setStride_slotReq (c : Core) (r : Nat) (x : W64) : (c.setStride r x).slotReq = c.slotReq := rfl
@[simp] theorem Core.setStride_nextAt (c : Core) (r : Nat) (x : W64) : (c.setStride r x).nextAt = c.nextAt := rfl
@[simp] theorem Core.setStride_dutyGroup (c : Core) (r : Nat) (x : W64) : (c.setStride r x).dutyGroup = c.dutyGroup := rfl
@[simp] theorem Core.setStride_dutyUsed (c : Core) (r : Nat) (x : W64) : (c.setStride r x).dutyUsed = c.dutyUsed := rfl

/-! ### What `Core.setB` leaves alone -/

@[simp] theorem Core.setB_run (c : Core) (r : Nat) (x : W64) : (c.setB r x).run = c.run := rfl
@[simp] theorem Core.setB_ctx (c : Core) (r : Nat) (x : W64) : (c.setB r x).ctx = c.ctx := rfl
@[simp] theorem Core.setB_pc (c : Core) (r : Nat) (x : W64) : (c.setB r x).pc = c.pc := rfl
@[simp] theorem Core.setB_lbix (c : Core) (r : Nat) (x : W64) : (c.setB r x).lbix = c.lbix := rfl
@[simp] theorem Core.setB_loopBuf (c : Core) (r : Nat) (x : W64) : (c.setB r x).loopBuf = c.loopBuf := rfl
@[simp] theorem Core.setB_body (c : Core) (r : Nat) (x : W64) : (c.setB r x).body = c.body := rfl
@[simp] theorem Core.setB_slow (c : Core) (r : Nat) (x : W64) : (c.setB r x).slow = c.slow := rfl
@[simp] theorem Core.setB_g (c : Core) (r : Nat) (x : W64) : (c.setB r x).g = c.g := rfl
@[simp] theorem Core.setB_a (c : Core) (r : Nat) (x : W64) : (c.setB r x).a = c.a := rfl
@[simp] theorem Core.setB_stride (c : Core) (r : Nat) (x : W64) : (c.setB r x).stride = c.stride := rfl
@[simp] theorem Core.setB_p (c : Core) (r : Nat) (x : W64) : (c.setB r x).p = c.p := rfl
@[simp] theorem Core.setB_v (c : Core) (r : Nat) (x : W64) : (c.setB r x).v = c.v := rfl
@[simp] theorem Core.setB_m (c : Core) (r : Nat) (x : W64) : (c.setB r x).m = c.m := rfl
@[simp] theorem Core.setB_latches (c : Core) (r : Nat) (x : W64) : (c.setB r x).latches = c.latches := rfl
@[simp] theorem Core.setB_latv (c : Core) (r : Nat) (x : W64) : (c.setB r x).latv = c.latv := rfl
@[simp] theorem Core.setB_held (c : Core) (r : Nat) (x : W64) : (c.setB r x).held = c.held := rfl
@[simp] theorem Core.setB_holdv (c : Core) (r : Nat) (x : W64) : (c.setB r x).holdv = c.holdv := rfl
@[simp] theorem Core.setB_pend (c : Core) (r : Nat) (x : W64) : (c.setB r x).pend = c.pend := rfl
@[simp] theorem Core.setB_ic (c : Core) (r : Nat) (x : W64) : (c.setB r x).ic = c.ic := rfl
@[simp] theorem Core.setB_ticks (c : Core) (r : Nat) (x : W64) : (c.setB r x).ticks = c.ticks := rfl
@[simp] theorem Core.setB_lctl (c : Core) (r : Nat) (x : W64) : (c.setB r x).lctl = c.lctl := rfl
@[simp] theorem Core.setB_lstat (c : Core) (r : Nat) (x : W64) : (c.setB r x).lstat = c.lstat := rfl
@[simp] theorem Core.setB_steps (c : Core) (r : Nat) (x : W64) : (c.setB r x).steps = c.steps := rfl
@[simp] theorem Core.setB_wrapped (c : Core) (r : Nat) (x : W64) : (c.setB r x).wrapped = c.wrapped := rfl
@[simp] theorem Core.setB_lent (c : Core) (r : Nat) (x : W64) : (c.setB r x).lent = c.lent := rfl
@[simp] theorem Core.setB_frzcyc (c : Core) (r : Nat) (x : W64) : (c.setB r x).frzcyc = c.frzcyc := rfl
@[simp] theorem Core.setB_latinv (c : Core) (r : Nat) (x : W64) : (c.setB r x).latinv = c.latinv := rfl
@[simp] theorem Core.setB_holdinv (c : Core) (r : Nat) (x : W64) : (c.setB r x).holdinv = c.holdinv := rfl
@[simp] theorem Core.setB_diagunit (c : Core) (r : Nat) (x : W64) : (c.setB r x).diagunit = c.diagunit := rfl
@[simp] theorem Core.setB_scales (c : Core) (r : Nat) (x : W64) : (c.setB r x).scales = c.scales := rfl
@[simp] theorem Core.setB_gen (c : Core) (r : Nat) (x : W64) : (c.setB r x).gen = c.gen := rfl
@[simp] theorem Core.setB_nopen (c : Core) (r : Nat) (x : W64) : (c.setB r x).nopen = c.nopen := rfl
@[simp] theorem Core.setB_rngK (c : Core) (r : Nat) (x : W64) : (c.setB r x).rngK = c.rngK := rfl
@[simp] theorem Core.setB_rngC (c : Core) (r : Nat) (x : W64) : (c.setB r x).rngC = c.rngC := rfl
@[simp] theorem Core.setB_nfs (c : Core) (r : Nat) (x : W64) : (c.setB r x).nfs = c.nfs := rfl
@[simp] theorem Core.setB_cause (c : Core) (r : Nat) (x : W64) : (c.setB r x).cause = c.cause := rfl
@[simp] theorem Core.setB_rpc (c : Core) (r : Nat) (x : W64) : (c.setB r x).rpc = c.rpc := rfl
@[simp] theorem Core.setB_tval (c : Core) (r : Nat) (x : W64) : (c.setB r x).tval = c.tval := rfl
@[simp] theorem Core.setB_faddr (c : Core) (r : Nat) (x : W64) : (c.setB r x).faddr = c.faddr := rfl
@[simp] theorem Core.setB_dcause (c : Core) (r : Nat) (x : W64) : (c.setB r x).dcause = c.dcause := rfl
@[simp] theorem Core.setB_imp (c : Core) (r : Nat) (x : W64) : (c.setB r x).imp = c.imp := rfl
@[simp] theorem Core.setB_hbase (c : Core) (r : Nat) (x : W64) : (c.setB r x).hbase = c.hbase := rfl
@[simp] theorem Core.setB_twin (c : Core) (r : Nat) (x : W64) : (c.setB r x).twin = c.twin := rfl
@[simp] theorem Core.setB_frames (c : Core) (r : Nat) (x : W64) : (c.setB r x).frames = c.frames := rfl
@[simp] theorem Core.setB_reports (c : Core) (r : Nat) (x : W64) : (c.setB r x).reports = c.reports := rfl
@[simp] theorem Core.setB_bksup (c : Core) (r : Nat) (x : W64) : (c.setB r x).bksup = c.bksup := rfl
@[simp] theorem Core.setB_clk (c : Core) (r : Nat) (x : W64) : (c.setB r x).clk = c.clk := rfl
@[simp] theorem Core.setB_wts (c : Core) (r : Nat) (x : W64) : (c.setB r x).wts = c.wts := rfl
@[simp] theorem Core.setB_copies (c : Core) (r : Nat) (x : W64) : (c.setB r x).copies = c.copies := rfl
@[simp] theorem Core.setB_icache (c : Core) (r : Nat) (x : W64) : (c.setB r x).icache = c.icache := rfl
@[simp] theorem Core.setB_mx (c : Core) (r : Nat) (x : W64) : (c.setB r x).mx = c.mx := rfl
@[simp] theorem Core.setB_wbuf (c : Core) (r : Nat) (x : W64) : (c.setB r x).wbuf = c.wbuf := rfl
@[simp] theorem Core.setB_spad (c : Core) (r : Nat) (x : W64) : (c.setB r x).spad = c.spad := rfl
@[simp] theorem Core.setB_tiles (c : Core) (r : Nat) (x : W64) : (c.setB r x).tiles = c.tiles := rfl
@[simp] theorem Core.setB_ifr (c : Core) (r : Nat) (x : W64) : (c.setB r x).ifr = c.ifr := rfl
@[simp] theorem Core.setB_nextSeq (c : Core) (r : Nat) (x : W64) : (c.setB r x).nextSeq = c.nextSeq := rfl
@[simp] theorem Core.setB_fseq (c : Core) (r : Nat) (x : W64) : (c.setB r x).fseq = c.fseq := rfl
@[simp] theorem Core.setB_fseqN (c : Core) (r : Nat) (x : W64) : (c.setB r x).fseqN = c.fseqN := rfl
@[simp] theorem Core.setB_fscope (c : Core) (r : Nat) (x : W64) : (c.setB r x).fscope = c.fscope := rfl
@[simp] theorem Core.setB_fenceX (c : Core) (r : Nat) (x : W64) : (c.setB r x).fenceX = c.fenceX := rfl
@[simp] theorem Core.setB_fenceN (c : Core) (r : Nat) (x : W64) : (c.setB r x).fenceN = c.fenceN := rfl
@[simp] theorem Core.setB_fenceR (c : Core) (r : Nat) (x : W64) : (c.setB r x).fenceR = c.fenceR := rfl
@[simp] theorem Core.setB_relblk (c : Core) (r : Nat) (x : W64) : (c.setB r x).relblk = c.relblk := rfl
@[simp] theorem Core.setB_chan (c : Core) (r : Nat) (x : W64) : (c.setB r x).chan = c.chan := rfl
@[simp] theorem Core.setB_posted (c : Core) (r : Nat) (x : W64) : (c.setB r x).posted = c.posted := rfl
@[simp] theorem Core.setB_heldBundle (c : Core) (r : Nat) (x : W64) : (c.setB r x).heldBundle = c.heldBundle := rfl
@[simp] theorem Core.setB_replay (c : Core) (r : Nat) (x : W64) : (c.setB r x).replay = c.replay := rfl
@[simp] theorem Core.setB_cutEp (c : Core) (r : Nat) (x : W64) : (c.setB r x).cutEp = c.cutEp := rfl
@[simp] theorem Core.setB_cutN (c : Core) (r : Nat) (x : W64) : (c.setB r x).cutN = c.cutN := rfl
@[simp] theorem Core.setB_stop (c : Core) (r : Nat) (x : W64) : (c.setB r x).stop = c.stop := rfl
@[simp] theorem Core.setB_mem (c : Core) (r : Nat) (x : W64) : (c.setB r x).mem = c.mem := rfl
@[simp] theorem Core.setB_bnd (c : Core) (r : Nat) (x : W64) : (c.setB r x).bnd = c.bnd := rfl
@[simp] theorem Core.setB_sv (c : Core) (r : Nat) (x : W64) : (c.setB r x).sv = c.sv := rfl
@[simp] theorem Core.setB_mix (c : Core) (r : Nat) (x : W64) : (c.setB r x).mix = c.mix := rfl
@[simp] theorem Core.setB_nslot (c : Core) (r : Nat) (x : W64) : (c.setB r x).nslot = c.nslot := rfl
@[simp] theorem Core.setB_nleft (c : Core) (r : Nat) (x : W64) : (c.setB r x).nleft = c.nleft := rfl
@[simp] theorem Core.setB_spa (c : Core) (r : Nat) (x : W64) : (c.setB r x).spa = c.spa := rfl
@[simp] theorem Core.setB_xearly (c : Core) (r : Nat) (x : W64) : (c.setB r x).xearly = c.xearly := rfl
@[simp] theorem Core.setB_xl (c : Core) (r : Nat) (x : W64) : (c.setB r x).xl = c.xl := rfl
@[simp] theorem Core.setB_slotReq (c : Core) (r : Nat) (x : W64) : (c.setB r x).slotReq = c.slotReq := rfl
@[simp] theorem Core.setB_nextAt (c : Core) (r : Nat) (x : W64) : (c.setB r x).nextAt = c.nextAt := rfl
@[simp] theorem Core.setB_dutyGroup (c : Core) (r : Nat) (x : W64) : (c.setB r x).dutyGroup = c.dutyGroup := rfl
@[simp] theorem Core.setB_dutyUsed (c : Core) (r : Nat) (x : W64) : (c.setB r x).dutyUsed = c.dutyUsed := rfl

/-! ### What `Core.setV` leaves alone -/

@[simp] theorem Core.setV_run (c : Core) (r : Nat) (x : Vec) : (c.setV r x).run = c.run := rfl
@[simp] theorem Core.setV_ctx (c : Core) (r : Nat) (x : Vec) : (c.setV r x).ctx = c.ctx := rfl
@[simp] theorem Core.setV_pc (c : Core) (r : Nat) (x : Vec) : (c.setV r x).pc = c.pc := rfl
@[simp] theorem Core.setV_lbix (c : Core) (r : Nat) (x : Vec) : (c.setV r x).lbix = c.lbix := rfl
@[simp] theorem Core.setV_loopBuf (c : Core) (r : Nat) (x : Vec) : (c.setV r x).loopBuf = c.loopBuf := rfl
@[simp] theorem Core.setV_body (c : Core) (r : Nat) (x : Vec) : (c.setV r x).body = c.body := rfl
@[simp] theorem Core.setV_slow (c : Core) (r : Nat) (x : Vec) : (c.setV r x).slow = c.slow := rfl
@[simp] theorem Core.setV_g (c : Core) (r : Nat) (x : Vec) : (c.setV r x).g = c.g := rfl
@[simp] theorem Core.setV_a (c : Core) (r : Nat) (x : Vec) : (c.setV r x).a = c.a := rfl
@[simp] theorem Core.setV_stride (c : Core) (r : Nat) (x : Vec) : (c.setV r x).stride = c.stride := rfl
@[simp] theorem Core.setV_p (c : Core) (r : Nat) (x : Vec) : (c.setV r x).p = c.p := rfl
@[simp] theorem Core.setV_b (c : Core) (r : Nat) (x : Vec) : (c.setV r x).b = c.b := rfl
@[simp] theorem Core.setV_m (c : Core) (r : Nat) (x : Vec) : (c.setV r x).m = c.m := rfl
@[simp] theorem Core.setV_latches (c : Core) (r : Nat) (x : Vec) : (c.setV r x).latches = c.latches := rfl
@[simp] theorem Core.setV_latv (c : Core) (r : Nat) (x : Vec) : (c.setV r x).latv = c.latv := rfl
@[simp] theorem Core.setV_held (c : Core) (r : Nat) (x : Vec) : (c.setV r x).held = c.held := rfl
@[simp] theorem Core.setV_holdv (c : Core) (r : Nat) (x : Vec) : (c.setV r x).holdv = c.holdv := rfl
@[simp] theorem Core.setV_pend (c : Core) (r : Nat) (x : Vec) : (c.setV r x).pend = c.pend := rfl
@[simp] theorem Core.setV_ic (c : Core) (r : Nat) (x : Vec) : (c.setV r x).ic = c.ic := rfl
@[simp] theorem Core.setV_ticks (c : Core) (r : Nat) (x : Vec) : (c.setV r x).ticks = c.ticks := rfl
@[simp] theorem Core.setV_lctl (c : Core) (r : Nat) (x : Vec) : (c.setV r x).lctl = c.lctl := rfl
@[simp] theorem Core.setV_lstat (c : Core) (r : Nat) (x : Vec) : (c.setV r x).lstat = c.lstat := rfl
@[simp] theorem Core.setV_steps (c : Core) (r : Nat) (x : Vec) : (c.setV r x).steps = c.steps := rfl
@[simp] theorem Core.setV_wrapped (c : Core) (r : Nat) (x : Vec) : (c.setV r x).wrapped = c.wrapped := rfl
@[simp] theorem Core.setV_lent (c : Core) (r : Nat) (x : Vec) : (c.setV r x).lent = c.lent := rfl
@[simp] theorem Core.setV_frzcyc (c : Core) (r : Nat) (x : Vec) : (c.setV r x).frzcyc = c.frzcyc := rfl
@[simp] theorem Core.setV_latinv (c : Core) (r : Nat) (x : Vec) : (c.setV r x).latinv = c.latinv := rfl
@[simp] theorem Core.setV_holdinv (c : Core) (r : Nat) (x : Vec) : (c.setV r x).holdinv = c.holdinv := rfl
@[simp] theorem Core.setV_diagunit (c : Core) (r : Nat) (x : Vec) : (c.setV r x).diagunit = c.diagunit := rfl
@[simp] theorem Core.setV_scales (c : Core) (r : Nat) (x : Vec) : (c.setV r x).scales = c.scales := rfl
@[simp] theorem Core.setV_gen (c : Core) (r : Nat) (x : Vec) : (c.setV r x).gen = c.gen := rfl
@[simp] theorem Core.setV_nopen (c : Core) (r : Nat) (x : Vec) : (c.setV r x).nopen = c.nopen := rfl
@[simp] theorem Core.setV_rngK (c : Core) (r : Nat) (x : Vec) : (c.setV r x).rngK = c.rngK := rfl
@[simp] theorem Core.setV_rngC (c : Core) (r : Nat) (x : Vec) : (c.setV r x).rngC = c.rngC := rfl
@[simp] theorem Core.setV_nfs (c : Core) (r : Nat) (x : Vec) : (c.setV r x).nfs = c.nfs := rfl
@[simp] theorem Core.setV_cause (c : Core) (r : Nat) (x : Vec) : (c.setV r x).cause = c.cause := rfl
@[simp] theorem Core.setV_rpc (c : Core) (r : Nat) (x : Vec) : (c.setV r x).rpc = c.rpc := rfl
@[simp] theorem Core.setV_tval (c : Core) (r : Nat) (x : Vec) : (c.setV r x).tval = c.tval := rfl
@[simp] theorem Core.setV_faddr (c : Core) (r : Nat) (x : Vec) : (c.setV r x).faddr = c.faddr := rfl
@[simp] theorem Core.setV_dcause (c : Core) (r : Nat) (x : Vec) : (c.setV r x).dcause = c.dcause := rfl
@[simp] theorem Core.setV_imp (c : Core) (r : Nat) (x : Vec) : (c.setV r x).imp = c.imp := rfl
@[simp] theorem Core.setV_hbase (c : Core) (r : Nat) (x : Vec) : (c.setV r x).hbase = c.hbase := rfl
@[simp] theorem Core.setV_twin (c : Core) (r : Nat) (x : Vec) : (c.setV r x).twin = c.twin := rfl
@[simp] theorem Core.setV_frames (c : Core) (r : Nat) (x : Vec) : (c.setV r x).frames = c.frames := rfl
@[simp] theorem Core.setV_reports (c : Core) (r : Nat) (x : Vec) : (c.setV r x).reports = c.reports := rfl
@[simp] theorem Core.setV_bksup (c : Core) (r : Nat) (x : Vec) : (c.setV r x).bksup = c.bksup := rfl
@[simp] theorem Core.setV_clk (c : Core) (r : Nat) (x : Vec) : (c.setV r x).clk = c.clk := rfl
@[simp] theorem Core.setV_wts (c : Core) (r : Nat) (x : Vec) : (c.setV r x).wts = c.wts := rfl
@[simp] theorem Core.setV_copies (c : Core) (r : Nat) (x : Vec) : (c.setV r x).copies = c.copies := rfl
@[simp] theorem Core.setV_icache (c : Core) (r : Nat) (x : Vec) : (c.setV r x).icache = c.icache := rfl
@[simp] theorem Core.setV_mx (c : Core) (r : Nat) (x : Vec) : (c.setV r x).mx = c.mx := rfl
@[simp] theorem Core.setV_wbuf (c : Core) (r : Nat) (x : Vec) : (c.setV r x).wbuf = c.wbuf := rfl
@[simp] theorem Core.setV_spad (c : Core) (r : Nat) (x : Vec) : (c.setV r x).spad = c.spad := rfl
@[simp] theorem Core.setV_tiles (c : Core) (r : Nat) (x : Vec) : (c.setV r x).tiles = c.tiles := rfl
@[simp] theorem Core.setV_ifr (c : Core) (r : Nat) (x : Vec) : (c.setV r x).ifr = c.ifr := rfl
@[simp] theorem Core.setV_nextSeq (c : Core) (r : Nat) (x : Vec) : (c.setV r x).nextSeq = c.nextSeq := rfl
@[simp] theorem Core.setV_fseq (c : Core) (r : Nat) (x : Vec) : (c.setV r x).fseq = c.fseq := rfl
@[simp] theorem Core.setV_fseqN (c : Core) (r : Nat) (x : Vec) : (c.setV r x).fseqN = c.fseqN := rfl
@[simp] theorem Core.setV_fscope (c : Core) (r : Nat) (x : Vec) : (c.setV r x).fscope = c.fscope := rfl
@[simp] theorem Core.setV_fenceX (c : Core) (r : Nat) (x : Vec) : (c.setV r x).fenceX = c.fenceX := rfl
@[simp] theorem Core.setV_fenceN (c : Core) (r : Nat) (x : Vec) : (c.setV r x).fenceN = c.fenceN := rfl
@[simp] theorem Core.setV_fenceR (c : Core) (r : Nat) (x : Vec) : (c.setV r x).fenceR = c.fenceR := rfl
@[simp] theorem Core.setV_relblk (c : Core) (r : Nat) (x : Vec) : (c.setV r x).relblk = c.relblk := rfl
@[simp] theorem Core.setV_chan (c : Core) (r : Nat) (x : Vec) : (c.setV r x).chan = c.chan := rfl
@[simp] theorem Core.setV_posted (c : Core) (r : Nat) (x : Vec) : (c.setV r x).posted = c.posted := rfl
@[simp] theorem Core.setV_heldBundle (c : Core) (r : Nat) (x : Vec) : (c.setV r x).heldBundle = c.heldBundle := rfl
@[simp] theorem Core.setV_replay (c : Core) (r : Nat) (x : Vec) : (c.setV r x).replay = c.replay := rfl
@[simp] theorem Core.setV_cutEp (c : Core) (r : Nat) (x : Vec) : (c.setV r x).cutEp = c.cutEp := rfl
@[simp] theorem Core.setV_cutN (c : Core) (r : Nat) (x : Vec) : (c.setV r x).cutN = c.cutN := rfl
@[simp] theorem Core.setV_stop (c : Core) (r : Nat) (x : Vec) : (c.setV r x).stop = c.stop := rfl
@[simp] theorem Core.setV_mem (c : Core) (r : Nat) (x : Vec) : (c.setV r x).mem = c.mem := rfl
@[simp] theorem Core.setV_bnd (c : Core) (r : Nat) (x : Vec) : (c.setV r x).bnd = c.bnd := rfl
@[simp] theorem Core.setV_sv (c : Core) (r : Nat) (x : Vec) : (c.setV r x).sv = c.sv := rfl
@[simp] theorem Core.setV_mix (c : Core) (r : Nat) (x : Vec) : (c.setV r x).mix = c.mix := rfl
@[simp] theorem Core.setV_nslot (c : Core) (r : Nat) (x : Vec) : (c.setV r x).nslot = c.nslot := rfl
@[simp] theorem Core.setV_nleft (c : Core) (r : Nat) (x : Vec) : (c.setV r x).nleft = c.nleft := rfl
@[simp] theorem Core.setV_spa (c : Core) (r : Nat) (x : Vec) : (c.setV r x).spa = c.spa := rfl
@[simp] theorem Core.setV_xearly (c : Core) (r : Nat) (x : Vec) : (c.setV r x).xearly = c.xearly := rfl
@[simp] theorem Core.setV_xl (c : Core) (r : Nat) (x : Vec) : (c.setV r x).xl = c.xl := rfl
@[simp] theorem Core.setV_slotReq (c : Core) (r : Nat) (x : Vec) : (c.setV r x).slotReq = c.slotReq := rfl
@[simp] theorem Core.setV_nextAt (c : Core) (r : Nat) (x : Vec) : (c.setV r x).nextAt = c.nextAt := rfl
@[simp] theorem Core.setV_dutyGroup (c : Core) (r : Nat) (x : Vec) : (c.setV r x).dutyGroup = c.dutyGroup := rfl
@[simp] theorem Core.setV_dutyUsed (c : Core) (r : Nat) (x : Vec) : (c.setV r x).dutyUsed = c.dutyUsed := rfl

/-! ### What `Core.setTile` leaves alone -/

@[simp] theorem Core.setTile_run (c : Core) (t : Nat) (v : Tile) : (c.setTile t v).run = c.run := rfl
@[simp] theorem Core.setTile_ctx (c : Core) (t : Nat) (v : Tile) : (c.setTile t v).ctx = c.ctx := rfl
@[simp] theorem Core.setTile_pc (c : Core) (t : Nat) (v : Tile) : (c.setTile t v).pc = c.pc := rfl
@[simp] theorem Core.setTile_lbix (c : Core) (t : Nat) (v : Tile) : (c.setTile t v).lbix = c.lbix := rfl
@[simp] theorem Core.setTile_loopBuf (c : Core) (t : Nat) (v : Tile) : (c.setTile t v).loopBuf = c.loopBuf := rfl
@[simp] theorem Core.setTile_body (c : Core) (t : Nat) (v : Tile) : (c.setTile t v).body = c.body := rfl
@[simp] theorem Core.setTile_slow (c : Core) (t : Nat) (v : Tile) : (c.setTile t v).slow = c.slow := rfl
@[simp] theorem Core.setTile_g (c : Core) (t : Nat) (v : Tile) : (c.setTile t v).g = c.g := rfl
@[simp] theorem Core.setTile_a (c : Core) (t : Nat) (v : Tile) : (c.setTile t v).a = c.a := rfl
@[simp] theorem Core.setTile_stride (c : Core) (t : Nat) (v : Tile) : (c.setTile t v).stride = c.stride := rfl
@[simp] theorem Core.setTile_p (c : Core) (t : Nat) (v : Tile) : (c.setTile t v).p = c.p := rfl
@[simp] theorem Core.setTile_b (c : Core) (t : Nat) (v : Tile) : (c.setTile t v).b = c.b := rfl
@[simp] theorem Core.setTile_v (c : Core) (t : Nat) (v : Tile) : (c.setTile t v).v = c.v := rfl
@[simp] theorem Core.setTile_m (c : Core) (t : Nat) (v : Tile) : (c.setTile t v).m = c.m := rfl
@[simp] theorem Core.setTile_latches (c : Core) (t : Nat) (v : Tile) : (c.setTile t v).latches = c.latches := rfl
@[simp] theorem Core.setTile_latv (c : Core) (t : Nat) (v : Tile) : (c.setTile t v).latv = c.latv := rfl
@[simp] theorem Core.setTile_held (c : Core) (t : Nat) (v : Tile) : (c.setTile t v).held = c.held := rfl
@[simp] theorem Core.setTile_holdv (c : Core) (t : Nat) (v : Tile) : (c.setTile t v).holdv = c.holdv := rfl
@[simp] theorem Core.setTile_pend (c : Core) (t : Nat) (v : Tile) : (c.setTile t v).pend = c.pend := rfl
@[simp] theorem Core.setTile_ic (c : Core) (t : Nat) (v : Tile) : (c.setTile t v).ic = c.ic := rfl
@[simp] theorem Core.setTile_ticks (c : Core) (t : Nat) (v : Tile) : (c.setTile t v).ticks = c.ticks := rfl
@[simp] theorem Core.setTile_lctl (c : Core) (t : Nat) (v : Tile) : (c.setTile t v).lctl = c.lctl := rfl
@[simp] theorem Core.setTile_lstat (c : Core) (t : Nat) (v : Tile) : (c.setTile t v).lstat = c.lstat := rfl
@[simp] theorem Core.setTile_steps (c : Core) (t : Nat) (v : Tile) : (c.setTile t v).steps = c.steps := rfl
@[simp] theorem Core.setTile_wrapped (c : Core) (t : Nat) (v : Tile) : (c.setTile t v).wrapped = c.wrapped := rfl
@[simp] theorem Core.setTile_lent (c : Core) (t : Nat) (v : Tile) : (c.setTile t v).lent = c.lent := rfl
@[simp] theorem Core.setTile_frzcyc (c : Core) (t : Nat) (v : Tile) : (c.setTile t v).frzcyc = c.frzcyc := rfl
@[simp] theorem Core.setTile_latinv (c : Core) (t : Nat) (v : Tile) : (c.setTile t v).latinv = c.latinv := rfl
@[simp] theorem Core.setTile_holdinv (c : Core) (t : Nat) (v : Tile) : (c.setTile t v).holdinv = c.holdinv := rfl
@[simp] theorem Core.setTile_diagunit (c : Core) (t : Nat) (v : Tile) : (c.setTile t v).diagunit = c.diagunit := rfl
@[simp] theorem Core.setTile_scales (c : Core) (t : Nat) (v : Tile) : (c.setTile t v).scales = c.scales := rfl
@[simp] theorem Core.setTile_gen (c : Core) (t : Nat) (v : Tile) : (c.setTile t v).gen = c.gen := rfl
@[simp] theorem Core.setTile_nopen (c : Core) (t : Nat) (v : Tile) : (c.setTile t v).nopen = c.nopen := rfl
@[simp] theorem Core.setTile_rngK (c : Core) (t : Nat) (v : Tile) : (c.setTile t v).rngK = c.rngK := rfl
@[simp] theorem Core.setTile_rngC (c : Core) (t : Nat) (v : Tile) : (c.setTile t v).rngC = c.rngC := rfl
@[simp] theorem Core.setTile_nfs (c : Core) (t : Nat) (v : Tile) : (c.setTile t v).nfs = c.nfs := rfl
@[simp] theorem Core.setTile_cause (c : Core) (t : Nat) (v : Tile) : (c.setTile t v).cause = c.cause := rfl
@[simp] theorem Core.setTile_rpc (c : Core) (t : Nat) (v : Tile) : (c.setTile t v).rpc = c.rpc := rfl
@[simp] theorem Core.setTile_tval (c : Core) (t : Nat) (v : Tile) : (c.setTile t v).tval = c.tval := rfl
@[simp] theorem Core.setTile_faddr (c : Core) (t : Nat) (v : Tile) : (c.setTile t v).faddr = c.faddr := rfl
@[simp] theorem Core.setTile_dcause (c : Core) (t : Nat) (v : Tile) : (c.setTile t v).dcause = c.dcause := rfl
@[simp] theorem Core.setTile_imp (c : Core) (t : Nat) (v : Tile) : (c.setTile t v).imp = c.imp := rfl
@[simp] theorem Core.setTile_hbase (c : Core) (t : Nat) (v : Tile) : (c.setTile t v).hbase = c.hbase := rfl
@[simp] theorem Core.setTile_twin (c : Core) (t : Nat) (v : Tile) : (c.setTile t v).twin = c.twin := rfl
@[simp] theorem Core.setTile_frames (c : Core) (t : Nat) (v : Tile) : (c.setTile t v).frames = c.frames := rfl
@[simp] theorem Core.setTile_reports (c : Core) (t : Nat) (v : Tile) : (c.setTile t v).reports = c.reports := rfl
@[simp] theorem Core.setTile_bksup (c : Core) (t : Nat) (v : Tile) : (c.setTile t v).bksup = c.bksup := rfl
@[simp] theorem Core.setTile_clk (c : Core) (t : Nat) (v : Tile) : (c.setTile t v).clk = c.clk := rfl
@[simp] theorem Core.setTile_wts (c : Core) (t : Nat) (v : Tile) : (c.setTile t v).wts = c.wts := rfl
@[simp] theorem Core.setTile_copies (c : Core) (t : Nat) (v : Tile) : (c.setTile t v).copies = c.copies := rfl
@[simp] theorem Core.setTile_icache (c : Core) (t : Nat) (v : Tile) : (c.setTile t v).icache = c.icache := rfl
@[simp] theorem Core.setTile_mx (c : Core) (t : Nat) (v : Tile) : (c.setTile t v).mx = c.mx := rfl
@[simp] theorem Core.setTile_wbuf (c : Core) (t : Nat) (v : Tile) : (c.setTile t v).wbuf = c.wbuf := rfl
@[simp] theorem Core.setTile_spad (c : Core) (t : Nat) (v : Tile) : (c.setTile t v).spad = c.spad := rfl
@[simp] theorem Core.setTile_ifr (c : Core) (t : Nat) (v : Tile) : (c.setTile t v).ifr = c.ifr := rfl
@[simp] theorem Core.setTile_nextSeq (c : Core) (t : Nat) (v : Tile) : (c.setTile t v).nextSeq = c.nextSeq := rfl
@[simp] theorem Core.setTile_fseq (c : Core) (t : Nat) (v : Tile) : (c.setTile t v).fseq = c.fseq := rfl
@[simp] theorem Core.setTile_fseqN (c : Core) (t : Nat) (v : Tile) : (c.setTile t v).fseqN = c.fseqN := rfl
@[simp] theorem Core.setTile_fscope (c : Core) (t : Nat) (v : Tile) : (c.setTile t v).fscope = c.fscope := rfl
@[simp] theorem Core.setTile_fenceX (c : Core) (t : Nat) (v : Tile) : (c.setTile t v).fenceX = c.fenceX := rfl
@[simp] theorem Core.setTile_fenceN (c : Core) (t : Nat) (v : Tile) : (c.setTile t v).fenceN = c.fenceN := rfl
@[simp] theorem Core.setTile_fenceR (c : Core) (t : Nat) (v : Tile) : (c.setTile t v).fenceR = c.fenceR := rfl
@[simp] theorem Core.setTile_relblk (c : Core) (t : Nat) (v : Tile) : (c.setTile t v).relblk = c.relblk := rfl
@[simp] theorem Core.setTile_chan (c : Core) (t : Nat) (v : Tile) : (c.setTile t v).chan = c.chan := rfl
@[simp] theorem Core.setTile_posted (c : Core) (t : Nat) (v : Tile) : (c.setTile t v).posted = c.posted := rfl
@[simp] theorem Core.setTile_heldBundle (c : Core) (t : Nat) (v : Tile) : (c.setTile t v).heldBundle = c.heldBundle := rfl
@[simp] theorem Core.setTile_replay (c : Core) (t : Nat) (v : Tile) : (c.setTile t v).replay = c.replay := rfl
@[simp] theorem Core.setTile_cutEp (c : Core) (t : Nat) (v : Tile) : (c.setTile t v).cutEp = c.cutEp := rfl
@[simp] theorem Core.setTile_cutN (c : Core) (t : Nat) (v : Tile) : (c.setTile t v).cutN = c.cutN := rfl
@[simp] theorem Core.setTile_stop (c : Core) (t : Nat) (v : Tile) : (c.setTile t v).stop = c.stop := rfl
@[simp] theorem Core.setTile_mem (c : Core) (t : Nat) (v : Tile) : (c.setTile t v).mem = c.mem := rfl
@[simp] theorem Core.setTile_bnd (c : Core) (t : Nat) (v : Tile) : (c.setTile t v).bnd = c.bnd := rfl
@[simp] theorem Core.setTile_sv (c : Core) (t : Nat) (v : Tile) : (c.setTile t v).sv = c.sv := rfl
@[simp] theorem Core.setTile_mix (c : Core) (t : Nat) (v : Tile) : (c.setTile t v).mix = c.mix := rfl
@[simp] theorem Core.setTile_nslot (c : Core) (t : Nat) (v : Tile) : (c.setTile t v).nslot = c.nslot := rfl
@[simp] theorem Core.setTile_nleft (c : Core) (t : Nat) (v : Tile) : (c.setTile t v).nleft = c.nleft := rfl
@[simp] theorem Core.setTile_spa (c : Core) (t : Nat) (v : Tile) : (c.setTile t v).spa = c.spa := rfl
@[simp] theorem Core.setTile_xearly (c : Core) (t : Nat) (v : Tile) : (c.setTile t v).xearly = c.xearly := rfl
@[simp] theorem Core.setTile_xl (c : Core) (t : Nat) (v : Tile) : (c.setTile t v).xl = c.xl := rfl
@[simp] theorem Core.setTile_slotReq (c : Core) (t : Nat) (v : Tile) : (c.setTile t v).slotReq = c.slotReq := rfl
@[simp] theorem Core.setTile_nextAt (c : Core) (t : Nat) (v : Tile) : (c.setTile t v).nextAt = c.nextAt := rfl
@[simp] theorem Core.setTile_dutyGroup (c : Core) (t : Nat) (v : Tile) : (c.setTile t v).dutyGroup = c.dutyGroup := rfl
@[simp] theorem Core.setTile_dutyUsed (c : Core) (t : Nat) (v : Tile) : (c.setTile t v).dutyUsed = c.dutyUsed := rfl

/-! ### What `Core.updMx` leaves alone -/

@[simp] theorem Core.updMx_run (c : Core) (f : Matrix → Matrix) : (c.updMx f).run = c.run := rfl
@[simp] theorem Core.updMx_ctx (c : Core) (f : Matrix → Matrix) : (c.updMx f).ctx = c.ctx := rfl
@[simp] theorem Core.updMx_pc (c : Core) (f : Matrix → Matrix) : (c.updMx f).pc = c.pc := rfl
@[simp] theorem Core.updMx_lbix (c : Core) (f : Matrix → Matrix) : (c.updMx f).lbix = c.lbix := rfl
@[simp] theorem Core.updMx_loopBuf (c : Core) (f : Matrix → Matrix) : (c.updMx f).loopBuf = c.loopBuf := rfl
@[simp] theorem Core.updMx_body (c : Core) (f : Matrix → Matrix) : (c.updMx f).body = c.body := rfl
@[simp] theorem Core.updMx_slow (c : Core) (f : Matrix → Matrix) : (c.updMx f).slow = c.slow := rfl
@[simp] theorem Core.updMx_g (c : Core) (f : Matrix → Matrix) : (c.updMx f).g = c.g := rfl
@[simp] theorem Core.updMx_a (c : Core) (f : Matrix → Matrix) : (c.updMx f).a = c.a := rfl
@[simp] theorem Core.updMx_stride (c : Core) (f : Matrix → Matrix) : (c.updMx f).stride = c.stride := rfl
@[simp] theorem Core.updMx_p (c : Core) (f : Matrix → Matrix) : (c.updMx f).p = c.p := rfl
@[simp] theorem Core.updMx_b (c : Core) (f : Matrix → Matrix) : (c.updMx f).b = c.b := rfl
@[simp] theorem Core.updMx_v (c : Core) (f : Matrix → Matrix) : (c.updMx f).v = c.v := rfl
@[simp] theorem Core.updMx_m (c : Core) (f : Matrix → Matrix) : (c.updMx f).m = c.m := rfl
@[simp] theorem Core.updMx_latches (c : Core) (f : Matrix → Matrix) : (c.updMx f).latches = c.latches := rfl
@[simp] theorem Core.updMx_latv (c : Core) (f : Matrix → Matrix) : (c.updMx f).latv = c.latv := rfl
@[simp] theorem Core.updMx_held (c : Core) (f : Matrix → Matrix) : (c.updMx f).held = c.held := rfl
@[simp] theorem Core.updMx_holdv (c : Core) (f : Matrix → Matrix) : (c.updMx f).holdv = c.holdv := rfl
@[simp] theorem Core.updMx_pend (c : Core) (f : Matrix → Matrix) : (c.updMx f).pend = c.pend := rfl
@[simp] theorem Core.updMx_ic (c : Core) (f : Matrix → Matrix) : (c.updMx f).ic = c.ic := rfl
@[simp] theorem Core.updMx_ticks (c : Core) (f : Matrix → Matrix) : (c.updMx f).ticks = c.ticks := rfl
@[simp] theorem Core.updMx_lctl (c : Core) (f : Matrix → Matrix) : (c.updMx f).lctl = c.lctl := rfl
@[simp] theorem Core.updMx_lstat (c : Core) (f : Matrix → Matrix) : (c.updMx f).lstat = c.lstat := rfl
@[simp] theorem Core.updMx_steps (c : Core) (f : Matrix → Matrix) : (c.updMx f).steps = c.steps := rfl
@[simp] theorem Core.updMx_wrapped (c : Core) (f : Matrix → Matrix) : (c.updMx f).wrapped = c.wrapped := rfl
@[simp] theorem Core.updMx_lent (c : Core) (f : Matrix → Matrix) : (c.updMx f).lent = c.lent := rfl
@[simp] theorem Core.updMx_frzcyc (c : Core) (f : Matrix → Matrix) : (c.updMx f).frzcyc = c.frzcyc := rfl
@[simp] theorem Core.updMx_latinv (c : Core) (f : Matrix → Matrix) : (c.updMx f).latinv = c.latinv := rfl
@[simp] theorem Core.updMx_holdinv (c : Core) (f : Matrix → Matrix) : (c.updMx f).holdinv = c.holdinv := rfl
@[simp] theorem Core.updMx_diagunit (c : Core) (f : Matrix → Matrix) : (c.updMx f).diagunit = c.diagunit := rfl
@[simp] theorem Core.updMx_scales (c : Core) (f : Matrix → Matrix) : (c.updMx f).scales = c.scales := rfl
@[simp] theorem Core.updMx_gen (c : Core) (f : Matrix → Matrix) : (c.updMx f).gen = c.gen := rfl
@[simp] theorem Core.updMx_nopen (c : Core) (f : Matrix → Matrix) : (c.updMx f).nopen = c.nopen := rfl
@[simp] theorem Core.updMx_rngK (c : Core) (f : Matrix → Matrix) : (c.updMx f).rngK = c.rngK := rfl
@[simp] theorem Core.updMx_rngC (c : Core) (f : Matrix → Matrix) : (c.updMx f).rngC = c.rngC := rfl
@[simp] theorem Core.updMx_nfs (c : Core) (f : Matrix → Matrix) : (c.updMx f).nfs = c.nfs := rfl
@[simp] theorem Core.updMx_cause (c : Core) (f : Matrix → Matrix) : (c.updMx f).cause = c.cause := rfl
@[simp] theorem Core.updMx_rpc (c : Core) (f : Matrix → Matrix) : (c.updMx f).rpc = c.rpc := rfl
@[simp] theorem Core.updMx_tval (c : Core) (f : Matrix → Matrix) : (c.updMx f).tval = c.tval := rfl
@[simp] theorem Core.updMx_faddr (c : Core) (f : Matrix → Matrix) : (c.updMx f).faddr = c.faddr := rfl
@[simp] theorem Core.updMx_dcause (c : Core) (f : Matrix → Matrix) : (c.updMx f).dcause = c.dcause := rfl
@[simp] theorem Core.updMx_imp (c : Core) (f : Matrix → Matrix) : (c.updMx f).imp = c.imp := rfl
@[simp] theorem Core.updMx_hbase (c : Core) (f : Matrix → Matrix) : (c.updMx f).hbase = c.hbase := rfl
@[simp] theorem Core.updMx_twin (c : Core) (f : Matrix → Matrix) : (c.updMx f).twin = c.twin := rfl
@[simp] theorem Core.updMx_frames (c : Core) (f : Matrix → Matrix) : (c.updMx f).frames = c.frames := rfl
@[simp] theorem Core.updMx_reports (c : Core) (f : Matrix → Matrix) : (c.updMx f).reports = c.reports := rfl
@[simp] theorem Core.updMx_bksup (c : Core) (f : Matrix → Matrix) : (c.updMx f).bksup = c.bksup := rfl
@[simp] theorem Core.updMx_clk (c : Core) (f : Matrix → Matrix) : (c.updMx f).clk = c.clk := rfl
@[simp] theorem Core.updMx_wts (c : Core) (f : Matrix → Matrix) : (c.updMx f).wts = c.wts := rfl
@[simp] theorem Core.updMx_copies (c : Core) (f : Matrix → Matrix) : (c.updMx f).copies = c.copies := rfl
@[simp] theorem Core.updMx_icache (c : Core) (f : Matrix → Matrix) : (c.updMx f).icache = c.icache := rfl
@[simp] theorem Core.updMx_wbuf (c : Core) (f : Matrix → Matrix) : (c.updMx f).wbuf = c.wbuf := rfl
@[simp] theorem Core.updMx_spad (c : Core) (f : Matrix → Matrix) : (c.updMx f).spad = c.spad := rfl
@[simp] theorem Core.updMx_tiles (c : Core) (f : Matrix → Matrix) : (c.updMx f).tiles = c.tiles := rfl
@[simp] theorem Core.updMx_ifr (c : Core) (f : Matrix → Matrix) : (c.updMx f).ifr = c.ifr := rfl
@[simp] theorem Core.updMx_nextSeq (c : Core) (f : Matrix → Matrix) : (c.updMx f).nextSeq = c.nextSeq := rfl
@[simp] theorem Core.updMx_fseq (c : Core) (f : Matrix → Matrix) : (c.updMx f).fseq = c.fseq := rfl
@[simp] theorem Core.updMx_fseqN (c : Core) (f : Matrix → Matrix) : (c.updMx f).fseqN = c.fseqN := rfl
@[simp] theorem Core.updMx_fscope (c : Core) (f : Matrix → Matrix) : (c.updMx f).fscope = c.fscope := rfl
@[simp] theorem Core.updMx_fenceX (c : Core) (f : Matrix → Matrix) : (c.updMx f).fenceX = c.fenceX := rfl
@[simp] theorem Core.updMx_fenceN (c : Core) (f : Matrix → Matrix) : (c.updMx f).fenceN = c.fenceN := rfl
@[simp] theorem Core.updMx_fenceR (c : Core) (f : Matrix → Matrix) : (c.updMx f).fenceR = c.fenceR := rfl
@[simp] theorem Core.updMx_relblk (c : Core) (f : Matrix → Matrix) : (c.updMx f).relblk = c.relblk := rfl
@[simp] theorem Core.updMx_chan (c : Core) (f : Matrix → Matrix) : (c.updMx f).chan = c.chan := rfl
@[simp] theorem Core.updMx_posted (c : Core) (f : Matrix → Matrix) : (c.updMx f).posted = c.posted := rfl
@[simp] theorem Core.updMx_heldBundle (c : Core) (f : Matrix → Matrix) : (c.updMx f).heldBundle = c.heldBundle := rfl
@[simp] theorem Core.updMx_replay (c : Core) (f : Matrix → Matrix) : (c.updMx f).replay = c.replay := rfl
@[simp] theorem Core.updMx_cutEp (c : Core) (f : Matrix → Matrix) : (c.updMx f).cutEp = c.cutEp := rfl
@[simp] theorem Core.updMx_cutN (c : Core) (f : Matrix → Matrix) : (c.updMx f).cutN = c.cutN := rfl
@[simp] theorem Core.updMx_stop (c : Core) (f : Matrix → Matrix) : (c.updMx f).stop = c.stop := rfl
@[simp] theorem Core.updMx_mem (c : Core) (f : Matrix → Matrix) : (c.updMx f).mem = c.mem := rfl
@[simp] theorem Core.updMx_bnd (c : Core) (f : Matrix → Matrix) : (c.updMx f).bnd = c.bnd := rfl
@[simp] theorem Core.updMx_sv (c : Core) (f : Matrix → Matrix) : (c.updMx f).sv = c.sv := rfl
@[simp] theorem Core.updMx_mix (c : Core) (f : Matrix → Matrix) : (c.updMx f).mix = c.mix := rfl
@[simp] theorem Core.updMx_nslot (c : Core) (f : Matrix → Matrix) : (c.updMx f).nslot = c.nslot := rfl
@[simp] theorem Core.updMx_nleft (c : Core) (f : Matrix → Matrix) : (c.updMx f).nleft = c.nleft := rfl
@[simp] theorem Core.updMx_spa (c : Core) (f : Matrix → Matrix) : (c.updMx f).spa = c.spa := rfl
@[simp] theorem Core.updMx_xearly (c : Core) (f : Matrix → Matrix) : (c.updMx f).xearly = c.xearly := rfl
@[simp] theorem Core.updMx_xl (c : Core) (f : Matrix → Matrix) : (c.updMx f).xl = c.xl := rfl
@[simp] theorem Core.updMx_slotReq (c : Core) (f : Matrix → Matrix) : (c.updMx f).slotReq = c.slotReq := rfl
@[simp] theorem Core.updMx_nextAt (c : Core) (f : Matrix → Matrix) : (c.updMx f).nextAt = c.nextAt := rfl
@[simp] theorem Core.updMx_dutyGroup (c : Core) (f : Matrix → Matrix) : (c.updMx f).dutyGroup = c.dutyGroup := rfl
@[simp] theorem Core.updMx_dutyUsed (c : Core) (f : Matrix → Matrix) : (c.updMx f).dutyUsed = c.dutyUsed := rfl

/-! ### What `Core.setEntry` leaves alone -/

@[simp] theorem Core.setEntry_run (c : Core) (e : Nat) (v : IfrEntry) : (c.setEntry e v).run = c.run := rfl
@[simp] theorem Core.setEntry_ctx (c : Core) (e : Nat) (v : IfrEntry) : (c.setEntry e v).ctx = c.ctx := rfl
@[simp] theorem Core.setEntry_pc (c : Core) (e : Nat) (v : IfrEntry) : (c.setEntry e v).pc = c.pc := rfl
@[simp] theorem Core.setEntry_lbix (c : Core) (e : Nat) (v : IfrEntry) : (c.setEntry e v).lbix = c.lbix := rfl
@[simp] theorem Core.setEntry_loopBuf (c : Core) (e : Nat) (v : IfrEntry) : (c.setEntry e v).loopBuf = c.loopBuf := rfl
@[simp] theorem Core.setEntry_body (c : Core) (e : Nat) (v : IfrEntry) : (c.setEntry e v).body = c.body := rfl
@[simp] theorem Core.setEntry_slow (c : Core) (e : Nat) (v : IfrEntry) : (c.setEntry e v).slow = c.slow := rfl
@[simp] theorem Core.setEntry_g (c : Core) (e : Nat) (v : IfrEntry) : (c.setEntry e v).g = c.g := rfl
@[simp] theorem Core.setEntry_a (c : Core) (e : Nat) (v : IfrEntry) : (c.setEntry e v).a = c.a := rfl
@[simp] theorem Core.setEntry_stride (c : Core) (e : Nat) (v : IfrEntry) : (c.setEntry e v).stride = c.stride := rfl
@[simp] theorem Core.setEntry_p (c : Core) (e : Nat) (v : IfrEntry) : (c.setEntry e v).p = c.p := rfl
@[simp] theorem Core.setEntry_b (c : Core) (e : Nat) (v : IfrEntry) : (c.setEntry e v).b = c.b := rfl
@[simp] theorem Core.setEntry_v (c : Core) (e : Nat) (v : IfrEntry) : (c.setEntry e v).v = c.v := rfl
@[simp] theorem Core.setEntry_m (c : Core) (e : Nat) (v : IfrEntry) : (c.setEntry e v).m = c.m := rfl
@[simp] theorem Core.setEntry_latches (c : Core) (e : Nat) (v : IfrEntry) : (c.setEntry e v).latches = c.latches := rfl
@[simp] theorem Core.setEntry_latv (c : Core) (e : Nat) (v : IfrEntry) : (c.setEntry e v).latv = c.latv := rfl
@[simp] theorem Core.setEntry_held (c : Core) (e : Nat) (v : IfrEntry) : (c.setEntry e v).held = c.held := rfl
@[simp] theorem Core.setEntry_holdv (c : Core) (e : Nat) (v : IfrEntry) : (c.setEntry e v).holdv = c.holdv := rfl
@[simp] theorem Core.setEntry_pend (c : Core) (e : Nat) (v : IfrEntry) : (c.setEntry e v).pend = c.pend := rfl
@[simp] theorem Core.setEntry_ic (c : Core) (e : Nat) (v : IfrEntry) : (c.setEntry e v).ic = c.ic := rfl
@[simp] theorem Core.setEntry_ticks (c : Core) (e : Nat) (v : IfrEntry) : (c.setEntry e v).ticks = c.ticks := rfl
@[simp] theorem Core.setEntry_lctl (c : Core) (e : Nat) (v : IfrEntry) : (c.setEntry e v).lctl = c.lctl := rfl
@[simp] theorem Core.setEntry_lstat (c : Core) (e : Nat) (v : IfrEntry) : (c.setEntry e v).lstat = c.lstat := rfl
@[simp] theorem Core.setEntry_steps (c : Core) (e : Nat) (v : IfrEntry) : (c.setEntry e v).steps = c.steps := rfl
@[simp] theorem Core.setEntry_wrapped (c : Core) (e : Nat) (v : IfrEntry) : (c.setEntry e v).wrapped = c.wrapped := rfl
@[simp] theorem Core.setEntry_lent (c : Core) (e : Nat) (v : IfrEntry) : (c.setEntry e v).lent = c.lent := rfl
@[simp] theorem Core.setEntry_frzcyc (c : Core) (e : Nat) (v : IfrEntry) : (c.setEntry e v).frzcyc = c.frzcyc := rfl
@[simp] theorem Core.setEntry_latinv (c : Core) (e : Nat) (v : IfrEntry) : (c.setEntry e v).latinv = c.latinv := rfl
@[simp] theorem Core.setEntry_holdinv (c : Core) (e : Nat) (v : IfrEntry) : (c.setEntry e v).holdinv = c.holdinv := rfl
@[simp] theorem Core.setEntry_diagunit (c : Core) (e : Nat) (v : IfrEntry) : (c.setEntry e v).diagunit = c.diagunit := rfl
@[simp] theorem Core.setEntry_scales (c : Core) (e : Nat) (v : IfrEntry) : (c.setEntry e v).scales = c.scales := rfl
@[simp] theorem Core.setEntry_gen (c : Core) (e : Nat) (v : IfrEntry) : (c.setEntry e v).gen = c.gen := rfl
@[simp] theorem Core.setEntry_nopen (c : Core) (e : Nat) (v : IfrEntry) : (c.setEntry e v).nopen = c.nopen := rfl
@[simp] theorem Core.setEntry_rngK (c : Core) (e : Nat) (v : IfrEntry) : (c.setEntry e v).rngK = c.rngK := rfl
@[simp] theorem Core.setEntry_rngC (c : Core) (e : Nat) (v : IfrEntry) : (c.setEntry e v).rngC = c.rngC := rfl
@[simp] theorem Core.setEntry_nfs (c : Core) (e : Nat) (v : IfrEntry) : (c.setEntry e v).nfs = c.nfs := rfl
@[simp] theorem Core.setEntry_cause (c : Core) (e : Nat) (v : IfrEntry) : (c.setEntry e v).cause = c.cause := rfl
@[simp] theorem Core.setEntry_rpc (c : Core) (e : Nat) (v : IfrEntry) : (c.setEntry e v).rpc = c.rpc := rfl
@[simp] theorem Core.setEntry_tval (c : Core) (e : Nat) (v : IfrEntry) : (c.setEntry e v).tval = c.tval := rfl
@[simp] theorem Core.setEntry_faddr (c : Core) (e : Nat) (v : IfrEntry) : (c.setEntry e v).faddr = c.faddr := rfl
@[simp] theorem Core.setEntry_dcause (c : Core) (e : Nat) (v : IfrEntry) : (c.setEntry e v).dcause = c.dcause := rfl
@[simp] theorem Core.setEntry_imp (c : Core) (e : Nat) (v : IfrEntry) : (c.setEntry e v).imp = c.imp := rfl
@[simp] theorem Core.setEntry_hbase (c : Core) (e : Nat) (v : IfrEntry) : (c.setEntry e v).hbase = c.hbase := rfl
@[simp] theorem Core.setEntry_twin (c : Core) (e : Nat) (v : IfrEntry) : (c.setEntry e v).twin = c.twin := rfl
@[simp] theorem Core.setEntry_frames (c : Core) (e : Nat) (v : IfrEntry) : (c.setEntry e v).frames = c.frames := rfl
@[simp] theorem Core.setEntry_reports (c : Core) (e : Nat) (v : IfrEntry) : (c.setEntry e v).reports = c.reports := rfl
@[simp] theorem Core.setEntry_bksup (c : Core) (e : Nat) (v : IfrEntry) : (c.setEntry e v).bksup = c.bksup := rfl
@[simp] theorem Core.setEntry_clk (c : Core) (e : Nat) (v : IfrEntry) : (c.setEntry e v).clk = c.clk := rfl
@[simp] theorem Core.setEntry_wts (c : Core) (e : Nat) (v : IfrEntry) : (c.setEntry e v).wts = c.wts := rfl
@[simp] theorem Core.setEntry_copies (c : Core) (e : Nat) (v : IfrEntry) : (c.setEntry e v).copies = c.copies := rfl
@[simp] theorem Core.setEntry_icache (c : Core) (e : Nat) (v : IfrEntry) : (c.setEntry e v).icache = c.icache := rfl
@[simp] theorem Core.setEntry_mx (c : Core) (e : Nat) (v : IfrEntry) : (c.setEntry e v).mx = c.mx := rfl
@[simp] theorem Core.setEntry_wbuf (c : Core) (e : Nat) (v : IfrEntry) : (c.setEntry e v).wbuf = c.wbuf := rfl
@[simp] theorem Core.setEntry_spad (c : Core) (e : Nat) (v : IfrEntry) : (c.setEntry e v).spad = c.spad := rfl
@[simp] theorem Core.setEntry_tiles (c : Core) (e : Nat) (v : IfrEntry) : (c.setEntry e v).tiles = c.tiles := rfl
@[simp] theorem Core.setEntry_nextSeq (c : Core) (e : Nat) (v : IfrEntry) : (c.setEntry e v).nextSeq = c.nextSeq := rfl
@[simp] theorem Core.setEntry_fseq (c : Core) (e : Nat) (v : IfrEntry) : (c.setEntry e v).fseq = c.fseq := rfl
@[simp] theorem Core.setEntry_fseqN (c : Core) (e : Nat) (v : IfrEntry) : (c.setEntry e v).fseqN = c.fseqN := rfl
@[simp] theorem Core.setEntry_fscope (c : Core) (e : Nat) (v : IfrEntry) : (c.setEntry e v).fscope = c.fscope := rfl
@[simp] theorem Core.setEntry_fenceX (c : Core) (e : Nat) (v : IfrEntry) : (c.setEntry e v).fenceX = c.fenceX := rfl
@[simp] theorem Core.setEntry_fenceN (c : Core) (e : Nat) (v : IfrEntry) : (c.setEntry e v).fenceN = c.fenceN := rfl
@[simp] theorem Core.setEntry_fenceR (c : Core) (e : Nat) (v : IfrEntry) : (c.setEntry e v).fenceR = c.fenceR := rfl
@[simp] theorem Core.setEntry_relblk (c : Core) (e : Nat) (v : IfrEntry) : (c.setEntry e v).relblk = c.relblk := rfl
@[simp] theorem Core.setEntry_chan (c : Core) (e : Nat) (v : IfrEntry) : (c.setEntry e v).chan = c.chan := rfl
@[simp] theorem Core.setEntry_posted (c : Core) (e : Nat) (v : IfrEntry) : (c.setEntry e v).posted = c.posted := rfl
@[simp] theorem Core.setEntry_heldBundle (c : Core) (e : Nat) (v : IfrEntry) : (c.setEntry e v).heldBundle = c.heldBundle := rfl
@[simp] theorem Core.setEntry_replay (c : Core) (e : Nat) (v : IfrEntry) : (c.setEntry e v).replay = c.replay := rfl
@[simp] theorem Core.setEntry_cutEp (c : Core) (e : Nat) (v : IfrEntry) : (c.setEntry e v).cutEp = c.cutEp := rfl
@[simp] theorem Core.setEntry_cutN (c : Core) (e : Nat) (v : IfrEntry) : (c.setEntry e v).cutN = c.cutN := rfl
@[simp] theorem Core.setEntry_stop (c : Core) (e : Nat) (v : IfrEntry) : (c.setEntry e v).stop = c.stop := rfl
@[simp] theorem Core.setEntry_mem (c : Core) (e : Nat) (v : IfrEntry) : (c.setEntry e v).mem = c.mem := rfl
@[simp] theorem Core.setEntry_bnd (c : Core) (e : Nat) (v : IfrEntry) : (c.setEntry e v).bnd = c.bnd := rfl
@[simp] theorem Core.setEntry_sv (c : Core) (e : Nat) (v : IfrEntry) : (c.setEntry e v).sv = c.sv := rfl
@[simp] theorem Core.setEntry_mix (c : Core) (e : Nat) (v : IfrEntry) : (c.setEntry e v).mix = c.mix := rfl
@[simp] theorem Core.setEntry_nslot (c : Core) (e : Nat) (v : IfrEntry) : (c.setEntry e v).nslot = c.nslot := rfl
@[simp] theorem Core.setEntry_nleft (c : Core) (e : Nat) (v : IfrEntry) : (c.setEntry e v).nleft = c.nleft := rfl
@[simp] theorem Core.setEntry_spa (c : Core) (e : Nat) (v : IfrEntry) : (c.setEntry e v).spa = c.spa := rfl
@[simp] theorem Core.setEntry_xearly (c : Core) (e : Nat) (v : IfrEntry) : (c.setEntry e v).xearly = c.xearly := rfl
@[simp] theorem Core.setEntry_xl (c : Core) (e : Nat) (v : IfrEntry) : (c.setEntry e v).xl = c.xl := rfl
@[simp] theorem Core.setEntry_slotReq (c : Core) (e : Nat) (v : IfrEntry) : (c.setEntry e v).slotReq = c.slotReq := rfl
@[simp] theorem Core.setEntry_nextAt (c : Core) (e : Nat) (v : IfrEntry) : (c.setEntry e v).nextAt = c.nextAt := rfl
@[simp] theorem Core.setEntry_dutyGroup (c : Core) (e : Nat) (v : IfrEntry) : (c.setEntry e v).dutyGroup = c.dutyGroup := rfl
@[simp] theorem Core.setEntry_dutyUsed (c : Core) (e : Nat) (v : IfrEntry) : (c.setEntry e v).dutyUsed = c.dutyUsed := rfl

/-! ### What `Core.setG` leaves alone -/

@[simp] theorem Core.setG_run (c : Core) (r : Nat) (x : W64) : (c.setG r x).run = c.run := by unfold Core.setG; split <;> rfl
@[simp] theorem Core.setG_ctx (c : Core) (r : Nat) (x : W64) : (c.setG r x).ctx = c.ctx := by unfold Core.setG; split <;> rfl
@[simp] theorem Core.setG_pc (c : Core) (r : Nat) (x : W64) : (c.setG r x).pc = c.pc := by unfold Core.setG; split <;> rfl
@[simp] theorem Core.setG_lbix (c : Core) (r : Nat) (x : W64) : (c.setG r x).lbix = c.lbix := by unfold Core.setG; split <;> rfl
@[simp] theorem Core.setG_loopBuf (c : Core) (r : Nat) (x : W64) : (c.setG r x).loopBuf = c.loopBuf := by unfold Core.setG; split <;> rfl
@[simp] theorem Core.setG_body (c : Core) (r : Nat) (x : W64) : (c.setG r x).body = c.body := by unfold Core.setG; split <;> rfl
@[simp] theorem Core.setG_slow (c : Core) (r : Nat) (x : W64) : (c.setG r x).slow = c.slow := by unfold Core.setG; split <;> rfl
@[simp] theorem Core.setG_a (c : Core) (r : Nat) (x : W64) : (c.setG r x).a = c.a := by unfold Core.setG; split <;> rfl
@[simp] theorem Core.setG_stride (c : Core) (r : Nat) (x : W64) : (c.setG r x).stride = c.stride := by unfold Core.setG; split <;> rfl
@[simp] theorem Core.setG_p (c : Core) (r : Nat) (x : W64) : (c.setG r x).p = c.p := by unfold Core.setG; split <;> rfl
@[simp] theorem Core.setG_b (c : Core) (r : Nat) (x : W64) : (c.setG r x).b = c.b := by unfold Core.setG; split <;> rfl
@[simp] theorem Core.setG_v (c : Core) (r : Nat) (x : W64) : (c.setG r x).v = c.v := by unfold Core.setG; split <;> rfl
@[simp] theorem Core.setG_m (c : Core) (r : Nat) (x : W64) : (c.setG r x).m = c.m := by unfold Core.setG; split <;> rfl
@[simp] theorem Core.setG_latches (c : Core) (r : Nat) (x : W64) : (c.setG r x).latches = c.latches := by unfold Core.setG; split <;> rfl
@[simp] theorem Core.setG_latv (c : Core) (r : Nat) (x : W64) : (c.setG r x).latv = c.latv := by unfold Core.setG; split <;> rfl
@[simp] theorem Core.setG_held (c : Core) (r : Nat) (x : W64) : (c.setG r x).held = c.held := by unfold Core.setG; split <;> rfl
@[simp] theorem Core.setG_holdv (c : Core) (r : Nat) (x : W64) : (c.setG r x).holdv = c.holdv := by unfold Core.setG; split <;> rfl
@[simp] theorem Core.setG_pend (c : Core) (r : Nat) (x : W64) : (c.setG r x).pend = c.pend := by unfold Core.setG; split <;> rfl
@[simp] theorem Core.setG_ic (c : Core) (r : Nat) (x : W64) : (c.setG r x).ic = c.ic := by unfold Core.setG; split <;> rfl
@[simp] theorem Core.setG_ticks (c : Core) (r : Nat) (x : W64) : (c.setG r x).ticks = c.ticks := by unfold Core.setG; split <;> rfl
@[simp] theorem Core.setG_lctl (c : Core) (r : Nat) (x : W64) : (c.setG r x).lctl = c.lctl := by unfold Core.setG; split <;> rfl
@[simp] theorem Core.setG_lstat (c : Core) (r : Nat) (x : W64) : (c.setG r x).lstat = c.lstat := by unfold Core.setG; split <;> rfl
@[simp] theorem Core.setG_steps (c : Core) (r : Nat) (x : W64) : (c.setG r x).steps = c.steps := by unfold Core.setG; split <;> rfl
@[simp] theorem Core.setG_wrapped (c : Core) (r : Nat) (x : W64) : (c.setG r x).wrapped = c.wrapped := by unfold Core.setG; split <;> rfl
@[simp] theorem Core.setG_lent (c : Core) (r : Nat) (x : W64) : (c.setG r x).lent = c.lent := by unfold Core.setG; split <;> rfl
@[simp] theorem Core.setG_frzcyc (c : Core) (r : Nat) (x : W64) : (c.setG r x).frzcyc = c.frzcyc := by unfold Core.setG; split <;> rfl
@[simp] theorem Core.setG_latinv (c : Core) (r : Nat) (x : W64) : (c.setG r x).latinv = c.latinv := by unfold Core.setG; split <;> rfl
@[simp] theorem Core.setG_holdinv (c : Core) (r : Nat) (x : W64) : (c.setG r x).holdinv = c.holdinv := by unfold Core.setG; split <;> rfl
@[simp] theorem Core.setG_diagunit (c : Core) (r : Nat) (x : W64) : (c.setG r x).diagunit = c.diagunit := by unfold Core.setG; split <;> rfl
@[simp] theorem Core.setG_scales (c : Core) (r : Nat) (x : W64) : (c.setG r x).scales = c.scales := by unfold Core.setG; split <;> rfl
@[simp] theorem Core.setG_gen (c : Core) (r : Nat) (x : W64) : (c.setG r x).gen = c.gen := by unfold Core.setG; split <;> rfl
@[simp] theorem Core.setG_nopen (c : Core) (r : Nat) (x : W64) : (c.setG r x).nopen = c.nopen := by unfold Core.setG; split <;> rfl
@[simp] theorem Core.setG_rngK (c : Core) (r : Nat) (x : W64) : (c.setG r x).rngK = c.rngK := by unfold Core.setG; split <;> rfl
@[simp] theorem Core.setG_rngC (c : Core) (r : Nat) (x : W64) : (c.setG r x).rngC = c.rngC := by unfold Core.setG; split <;> rfl
@[simp] theorem Core.setG_nfs (c : Core) (r : Nat) (x : W64) : (c.setG r x).nfs = c.nfs := by unfold Core.setG; split <;> rfl
@[simp] theorem Core.setG_cause (c : Core) (r : Nat) (x : W64) : (c.setG r x).cause = c.cause := by unfold Core.setG; split <;> rfl
@[simp] theorem Core.setG_rpc (c : Core) (r : Nat) (x : W64) : (c.setG r x).rpc = c.rpc := by unfold Core.setG; split <;> rfl
@[simp] theorem Core.setG_tval (c : Core) (r : Nat) (x : W64) : (c.setG r x).tval = c.tval := by unfold Core.setG; split <;> rfl
@[simp] theorem Core.setG_faddr (c : Core) (r : Nat) (x : W64) : (c.setG r x).faddr = c.faddr := by unfold Core.setG; split <;> rfl
@[simp] theorem Core.setG_dcause (c : Core) (r : Nat) (x : W64) : (c.setG r x).dcause = c.dcause := by unfold Core.setG; split <;> rfl
@[simp] theorem Core.setG_imp (c : Core) (r : Nat) (x : W64) : (c.setG r x).imp = c.imp := by unfold Core.setG; split <;> rfl
@[simp] theorem Core.setG_hbase (c : Core) (r : Nat) (x : W64) : (c.setG r x).hbase = c.hbase := by unfold Core.setG; split <;> rfl
@[simp] theorem Core.setG_twin (c : Core) (r : Nat) (x : W64) : (c.setG r x).twin = c.twin := by unfold Core.setG; split <;> rfl
@[simp] theorem Core.setG_frames (c : Core) (r : Nat) (x : W64) : (c.setG r x).frames = c.frames := by unfold Core.setG; split <;> rfl
@[simp] theorem Core.setG_reports (c : Core) (r : Nat) (x : W64) : (c.setG r x).reports = c.reports := by unfold Core.setG; split <;> rfl
@[simp] theorem Core.setG_bksup (c : Core) (r : Nat) (x : W64) : (c.setG r x).bksup = c.bksup := by unfold Core.setG; split <;> rfl
@[simp] theorem Core.setG_clk (c : Core) (r : Nat) (x : W64) : (c.setG r x).clk = c.clk := by unfold Core.setG; split <;> rfl
@[simp] theorem Core.setG_wts (c : Core) (r : Nat) (x : W64) : (c.setG r x).wts = c.wts := by unfold Core.setG; split <;> rfl
@[simp] theorem Core.setG_copies (c : Core) (r : Nat) (x : W64) : (c.setG r x).copies = c.copies := by unfold Core.setG; split <;> rfl
@[simp] theorem Core.setG_icache (c : Core) (r : Nat) (x : W64) : (c.setG r x).icache = c.icache := by unfold Core.setG; split <;> rfl
@[simp] theorem Core.setG_mx (c : Core) (r : Nat) (x : W64) : (c.setG r x).mx = c.mx := by unfold Core.setG; split <;> rfl
@[simp] theorem Core.setG_wbuf (c : Core) (r : Nat) (x : W64) : (c.setG r x).wbuf = c.wbuf := by unfold Core.setG; split <;> rfl
@[simp] theorem Core.setG_spad (c : Core) (r : Nat) (x : W64) : (c.setG r x).spad = c.spad := by unfold Core.setG; split <;> rfl
@[simp] theorem Core.setG_tiles (c : Core) (r : Nat) (x : W64) : (c.setG r x).tiles = c.tiles := by unfold Core.setG; split <;> rfl
@[simp] theorem Core.setG_ifr (c : Core) (r : Nat) (x : W64) : (c.setG r x).ifr = c.ifr := by unfold Core.setG; split <;> rfl
@[simp] theorem Core.setG_nextSeq (c : Core) (r : Nat) (x : W64) : (c.setG r x).nextSeq = c.nextSeq := by unfold Core.setG; split <;> rfl
@[simp] theorem Core.setG_fseq (c : Core) (r : Nat) (x : W64) : (c.setG r x).fseq = c.fseq := by unfold Core.setG; split <;> rfl
@[simp] theorem Core.setG_fseqN (c : Core) (r : Nat) (x : W64) : (c.setG r x).fseqN = c.fseqN := by unfold Core.setG; split <;> rfl
@[simp] theorem Core.setG_fscope (c : Core) (r : Nat) (x : W64) : (c.setG r x).fscope = c.fscope := by unfold Core.setG; split <;> rfl
@[simp] theorem Core.setG_fenceX (c : Core) (r : Nat) (x : W64) : (c.setG r x).fenceX = c.fenceX := by unfold Core.setG; split <;> rfl
@[simp] theorem Core.setG_fenceN (c : Core) (r : Nat) (x : W64) : (c.setG r x).fenceN = c.fenceN := by unfold Core.setG; split <;> rfl
@[simp] theorem Core.setG_fenceR (c : Core) (r : Nat) (x : W64) : (c.setG r x).fenceR = c.fenceR := by unfold Core.setG; split <;> rfl
@[simp] theorem Core.setG_relblk (c : Core) (r : Nat) (x : W64) : (c.setG r x).relblk = c.relblk := by unfold Core.setG; split <;> rfl
@[simp] theorem Core.setG_chan (c : Core) (r : Nat) (x : W64) : (c.setG r x).chan = c.chan := by unfold Core.setG; split <;> rfl
@[simp] theorem Core.setG_posted (c : Core) (r : Nat) (x : W64) : (c.setG r x).posted = c.posted := by unfold Core.setG; split <;> rfl
@[simp] theorem Core.setG_heldBundle (c : Core) (r : Nat) (x : W64) : (c.setG r x).heldBundle = c.heldBundle := by unfold Core.setG; split <;> rfl
@[simp] theorem Core.setG_replay (c : Core) (r : Nat) (x : W64) : (c.setG r x).replay = c.replay := by unfold Core.setG; split <;> rfl
@[simp] theorem Core.setG_cutEp (c : Core) (r : Nat) (x : W64) : (c.setG r x).cutEp = c.cutEp := by unfold Core.setG; split <;> rfl
@[simp] theorem Core.setG_cutN (c : Core) (r : Nat) (x : W64) : (c.setG r x).cutN = c.cutN := by unfold Core.setG; split <;> rfl
@[simp] theorem Core.setG_stop (c : Core) (r : Nat) (x : W64) : (c.setG r x).stop = c.stop := by unfold Core.setG; split <;> rfl
@[simp] theorem Core.setG_mem (c : Core) (r : Nat) (x : W64) : (c.setG r x).mem = c.mem := by unfold Core.setG; split <;> rfl
@[simp] theorem Core.setG_bnd (c : Core) (r : Nat) (x : W64) : (c.setG r x).bnd = c.bnd := by unfold Core.setG; split <;> rfl
@[simp] theorem Core.setG_sv (c : Core) (r : Nat) (x : W64) : (c.setG r x).sv = c.sv := by unfold Core.setG; split <;> rfl
@[simp] theorem Core.setG_mix (c : Core) (r : Nat) (x : W64) : (c.setG r x).mix = c.mix := by unfold Core.setG; split <;> rfl
@[simp] theorem Core.setG_nslot (c : Core) (r : Nat) (x : W64) : (c.setG r x).nslot = c.nslot := by unfold Core.setG; split <;> rfl
@[simp] theorem Core.setG_nleft (c : Core) (r : Nat) (x : W64) : (c.setG r x).nleft = c.nleft := by unfold Core.setG; split <;> rfl
@[simp] theorem Core.setG_spa (c : Core) (r : Nat) (x : W64) : (c.setG r x).spa = c.spa := by unfold Core.setG; split <;> rfl
@[simp] theorem Core.setG_xearly (c : Core) (r : Nat) (x : W64) : (c.setG r x).xearly = c.xearly := by unfold Core.setG; split <;> rfl
@[simp] theorem Core.setG_xl (c : Core) (r : Nat) (x : W64) : (c.setG r x).xl = c.xl := by unfold Core.setG; split <;> rfl
@[simp] theorem Core.setG_slotReq (c : Core) (r : Nat) (x : W64) : (c.setG r x).slotReq = c.slotReq := by unfold Core.setG; split <;> rfl
@[simp] theorem Core.setG_nextAt (c : Core) (r : Nat) (x : W64) : (c.setG r x).nextAt = c.nextAt := by unfold Core.setG; split <;> rfl
@[simp] theorem Core.setG_dutyGroup (c : Core) (r : Nat) (x : W64) : (c.setG r x).dutyGroup = c.dutyGroup := by unfold Core.setG; split <;> rfl
@[simp] theorem Core.setG_dutyUsed (c : Core) (r : Nat) (x : W64) : (c.setG r x).dutyUsed = c.dutyUsed := by unfold Core.setG; split <;> rfl

/-! ### What `Core.setP` leaves alone -/

@[simp] theorem Core.setP_run (c : Core) (r : Nat) (x : Bool) : (c.setP r x).run = c.run := by unfold Core.setP; split <;> rfl
@[simp] theorem Core.setP_ctx (c : Core) (r : Nat) (x : Bool) : (c.setP r x).ctx = c.ctx := by unfold Core.setP; split <;> rfl
@[simp] theorem Core.setP_pc (c : Core) (r : Nat) (x : Bool) : (c.setP r x).pc = c.pc := by unfold Core.setP; split <;> rfl
@[simp] theorem Core.setP_lbix (c : Core) (r : Nat) (x : Bool) : (c.setP r x).lbix = c.lbix := by unfold Core.setP; split <;> rfl
@[simp] theorem Core.setP_loopBuf (c : Core) (r : Nat) (x : Bool) : (c.setP r x).loopBuf = c.loopBuf := by unfold Core.setP; split <;> rfl
@[simp] theorem Core.setP_body (c : Core) (r : Nat) (x : Bool) : (c.setP r x).body = c.body := by unfold Core.setP; split <;> rfl
@[simp] theorem Core.setP_slow (c : Core) (r : Nat) (x : Bool) : (c.setP r x).slow = c.slow := by unfold Core.setP; split <;> rfl
@[simp] theorem Core.setP_g (c : Core) (r : Nat) (x : Bool) : (c.setP r x).g = c.g := by unfold Core.setP; split <;> rfl
@[simp] theorem Core.setP_a (c : Core) (r : Nat) (x : Bool) : (c.setP r x).a = c.a := by unfold Core.setP; split <;> rfl
@[simp] theorem Core.setP_stride (c : Core) (r : Nat) (x : Bool) : (c.setP r x).stride = c.stride := by unfold Core.setP; split <;> rfl
@[simp] theorem Core.setP_b (c : Core) (r : Nat) (x : Bool) : (c.setP r x).b = c.b := by unfold Core.setP; split <;> rfl
@[simp] theorem Core.setP_v (c : Core) (r : Nat) (x : Bool) : (c.setP r x).v = c.v := by unfold Core.setP; split <;> rfl
@[simp] theorem Core.setP_m (c : Core) (r : Nat) (x : Bool) : (c.setP r x).m = c.m := by unfold Core.setP; split <;> rfl
@[simp] theorem Core.setP_latches (c : Core) (r : Nat) (x : Bool) : (c.setP r x).latches = c.latches := by unfold Core.setP; split <;> rfl
@[simp] theorem Core.setP_latv (c : Core) (r : Nat) (x : Bool) : (c.setP r x).latv = c.latv := by unfold Core.setP; split <;> rfl
@[simp] theorem Core.setP_held (c : Core) (r : Nat) (x : Bool) : (c.setP r x).held = c.held := by unfold Core.setP; split <;> rfl
@[simp] theorem Core.setP_holdv (c : Core) (r : Nat) (x : Bool) : (c.setP r x).holdv = c.holdv := by unfold Core.setP; split <;> rfl
@[simp] theorem Core.setP_pend (c : Core) (r : Nat) (x : Bool) : (c.setP r x).pend = c.pend := by unfold Core.setP; split <;> rfl
@[simp] theorem Core.setP_ic (c : Core) (r : Nat) (x : Bool) : (c.setP r x).ic = c.ic := by unfold Core.setP; split <;> rfl
@[simp] theorem Core.setP_ticks (c : Core) (r : Nat) (x : Bool) : (c.setP r x).ticks = c.ticks := by unfold Core.setP; split <;> rfl
@[simp] theorem Core.setP_lctl (c : Core) (r : Nat) (x : Bool) : (c.setP r x).lctl = c.lctl := by unfold Core.setP; split <;> rfl
@[simp] theorem Core.setP_lstat (c : Core) (r : Nat) (x : Bool) : (c.setP r x).lstat = c.lstat := by unfold Core.setP; split <;> rfl
@[simp] theorem Core.setP_steps (c : Core) (r : Nat) (x : Bool) : (c.setP r x).steps = c.steps := by unfold Core.setP; split <;> rfl
@[simp] theorem Core.setP_wrapped (c : Core) (r : Nat) (x : Bool) : (c.setP r x).wrapped = c.wrapped := by unfold Core.setP; split <;> rfl
@[simp] theorem Core.setP_lent (c : Core) (r : Nat) (x : Bool) : (c.setP r x).lent = c.lent := by unfold Core.setP; split <;> rfl
@[simp] theorem Core.setP_frzcyc (c : Core) (r : Nat) (x : Bool) : (c.setP r x).frzcyc = c.frzcyc := by unfold Core.setP; split <;> rfl
@[simp] theorem Core.setP_latinv (c : Core) (r : Nat) (x : Bool) : (c.setP r x).latinv = c.latinv := by unfold Core.setP; split <;> rfl
@[simp] theorem Core.setP_holdinv (c : Core) (r : Nat) (x : Bool) : (c.setP r x).holdinv = c.holdinv := by unfold Core.setP; split <;> rfl
@[simp] theorem Core.setP_diagunit (c : Core) (r : Nat) (x : Bool) : (c.setP r x).diagunit = c.diagunit := by unfold Core.setP; split <;> rfl
@[simp] theorem Core.setP_scales (c : Core) (r : Nat) (x : Bool) : (c.setP r x).scales = c.scales := by unfold Core.setP; split <;> rfl
@[simp] theorem Core.setP_gen (c : Core) (r : Nat) (x : Bool) : (c.setP r x).gen = c.gen := by unfold Core.setP; split <;> rfl
@[simp] theorem Core.setP_nopen (c : Core) (r : Nat) (x : Bool) : (c.setP r x).nopen = c.nopen := by unfold Core.setP; split <;> rfl
@[simp] theorem Core.setP_rngK (c : Core) (r : Nat) (x : Bool) : (c.setP r x).rngK = c.rngK := by unfold Core.setP; split <;> rfl
@[simp] theorem Core.setP_rngC (c : Core) (r : Nat) (x : Bool) : (c.setP r x).rngC = c.rngC := by unfold Core.setP; split <;> rfl
@[simp] theorem Core.setP_nfs (c : Core) (r : Nat) (x : Bool) : (c.setP r x).nfs = c.nfs := by unfold Core.setP; split <;> rfl
@[simp] theorem Core.setP_cause (c : Core) (r : Nat) (x : Bool) : (c.setP r x).cause = c.cause := by unfold Core.setP; split <;> rfl
@[simp] theorem Core.setP_rpc (c : Core) (r : Nat) (x : Bool) : (c.setP r x).rpc = c.rpc := by unfold Core.setP; split <;> rfl
@[simp] theorem Core.setP_tval (c : Core) (r : Nat) (x : Bool) : (c.setP r x).tval = c.tval := by unfold Core.setP; split <;> rfl
@[simp] theorem Core.setP_faddr (c : Core) (r : Nat) (x : Bool) : (c.setP r x).faddr = c.faddr := by unfold Core.setP; split <;> rfl
@[simp] theorem Core.setP_dcause (c : Core) (r : Nat) (x : Bool) : (c.setP r x).dcause = c.dcause := by unfold Core.setP; split <;> rfl
@[simp] theorem Core.setP_imp (c : Core) (r : Nat) (x : Bool) : (c.setP r x).imp = c.imp := by unfold Core.setP; split <;> rfl
@[simp] theorem Core.setP_hbase (c : Core) (r : Nat) (x : Bool) : (c.setP r x).hbase = c.hbase := by unfold Core.setP; split <;> rfl
@[simp] theorem Core.setP_twin (c : Core) (r : Nat) (x : Bool) : (c.setP r x).twin = c.twin := by unfold Core.setP; split <;> rfl
@[simp] theorem Core.setP_frames (c : Core) (r : Nat) (x : Bool) : (c.setP r x).frames = c.frames := by unfold Core.setP; split <;> rfl
@[simp] theorem Core.setP_reports (c : Core) (r : Nat) (x : Bool) : (c.setP r x).reports = c.reports := by unfold Core.setP; split <;> rfl
@[simp] theorem Core.setP_bksup (c : Core) (r : Nat) (x : Bool) : (c.setP r x).bksup = c.bksup := by unfold Core.setP; split <;> rfl
@[simp] theorem Core.setP_clk (c : Core) (r : Nat) (x : Bool) : (c.setP r x).clk = c.clk := by unfold Core.setP; split <;> rfl
@[simp] theorem Core.setP_wts (c : Core) (r : Nat) (x : Bool) : (c.setP r x).wts = c.wts := by unfold Core.setP; split <;> rfl
@[simp] theorem Core.setP_copies (c : Core) (r : Nat) (x : Bool) : (c.setP r x).copies = c.copies := by unfold Core.setP; split <;> rfl
@[simp] theorem Core.setP_icache (c : Core) (r : Nat) (x : Bool) : (c.setP r x).icache = c.icache := by unfold Core.setP; split <;> rfl
@[simp] theorem Core.setP_mx (c : Core) (r : Nat) (x : Bool) : (c.setP r x).mx = c.mx := by unfold Core.setP; split <;> rfl
@[simp] theorem Core.setP_wbuf (c : Core) (r : Nat) (x : Bool) : (c.setP r x).wbuf = c.wbuf := by unfold Core.setP; split <;> rfl
@[simp] theorem Core.setP_spad (c : Core) (r : Nat) (x : Bool) : (c.setP r x).spad = c.spad := by unfold Core.setP; split <;> rfl
@[simp] theorem Core.setP_tiles (c : Core) (r : Nat) (x : Bool) : (c.setP r x).tiles = c.tiles := by unfold Core.setP; split <;> rfl
@[simp] theorem Core.setP_ifr (c : Core) (r : Nat) (x : Bool) : (c.setP r x).ifr = c.ifr := by unfold Core.setP; split <;> rfl
@[simp] theorem Core.setP_nextSeq (c : Core) (r : Nat) (x : Bool) : (c.setP r x).nextSeq = c.nextSeq := by unfold Core.setP; split <;> rfl
@[simp] theorem Core.setP_fseq (c : Core) (r : Nat) (x : Bool) : (c.setP r x).fseq = c.fseq := by unfold Core.setP; split <;> rfl
@[simp] theorem Core.setP_fseqN (c : Core) (r : Nat) (x : Bool) : (c.setP r x).fseqN = c.fseqN := by unfold Core.setP; split <;> rfl
@[simp] theorem Core.setP_fscope (c : Core) (r : Nat) (x : Bool) : (c.setP r x).fscope = c.fscope := by unfold Core.setP; split <;> rfl
@[simp] theorem Core.setP_fenceX (c : Core) (r : Nat) (x : Bool) : (c.setP r x).fenceX = c.fenceX := by unfold Core.setP; split <;> rfl
@[simp] theorem Core.setP_fenceN (c : Core) (r : Nat) (x : Bool) : (c.setP r x).fenceN = c.fenceN := by unfold Core.setP; split <;> rfl
@[simp] theorem Core.setP_fenceR (c : Core) (r : Nat) (x : Bool) : (c.setP r x).fenceR = c.fenceR := by unfold Core.setP; split <;> rfl
@[simp] theorem Core.setP_relblk (c : Core) (r : Nat) (x : Bool) : (c.setP r x).relblk = c.relblk := by unfold Core.setP; split <;> rfl
@[simp] theorem Core.setP_chan (c : Core) (r : Nat) (x : Bool) : (c.setP r x).chan = c.chan := by unfold Core.setP; split <;> rfl
@[simp] theorem Core.setP_posted (c : Core) (r : Nat) (x : Bool) : (c.setP r x).posted = c.posted := by unfold Core.setP; split <;> rfl
@[simp] theorem Core.setP_heldBundle (c : Core) (r : Nat) (x : Bool) : (c.setP r x).heldBundle = c.heldBundle := by unfold Core.setP; split <;> rfl
@[simp] theorem Core.setP_replay (c : Core) (r : Nat) (x : Bool) : (c.setP r x).replay = c.replay := by unfold Core.setP; split <;> rfl
@[simp] theorem Core.setP_cutEp (c : Core) (r : Nat) (x : Bool) : (c.setP r x).cutEp = c.cutEp := by unfold Core.setP; split <;> rfl
@[simp] theorem Core.setP_cutN (c : Core) (r : Nat) (x : Bool) : (c.setP r x).cutN = c.cutN := by unfold Core.setP; split <;> rfl
@[simp] theorem Core.setP_stop (c : Core) (r : Nat) (x : Bool) : (c.setP r x).stop = c.stop := by unfold Core.setP; split <;> rfl
@[simp] theorem Core.setP_mem (c : Core) (r : Nat) (x : Bool) : (c.setP r x).mem = c.mem := by unfold Core.setP; split <;> rfl
@[simp] theorem Core.setP_bnd (c : Core) (r : Nat) (x : Bool) : (c.setP r x).bnd = c.bnd := by unfold Core.setP; split <;> rfl
@[simp] theorem Core.setP_sv (c : Core) (r : Nat) (x : Bool) : (c.setP r x).sv = c.sv := by unfold Core.setP; split <;> rfl
@[simp] theorem Core.setP_mix (c : Core) (r : Nat) (x : Bool) : (c.setP r x).mix = c.mix := by unfold Core.setP; split <;> rfl
@[simp] theorem Core.setP_nslot (c : Core) (r : Nat) (x : Bool) : (c.setP r x).nslot = c.nslot := by unfold Core.setP; split <;> rfl
@[simp] theorem Core.setP_nleft (c : Core) (r : Nat) (x : Bool) : (c.setP r x).nleft = c.nleft := by unfold Core.setP; split <;> rfl
@[simp] theorem Core.setP_spa (c : Core) (r : Nat) (x : Bool) : (c.setP r x).spa = c.spa := by unfold Core.setP; split <;> rfl
@[simp] theorem Core.setP_xearly (c : Core) (r : Nat) (x : Bool) : (c.setP r x).xearly = c.xearly := by unfold Core.setP; split <;> rfl
@[simp] theorem Core.setP_xl (c : Core) (r : Nat) (x : Bool) : (c.setP r x).xl = c.xl := by unfold Core.setP; split <;> rfl
@[simp] theorem Core.setP_slotReq (c : Core) (r : Nat) (x : Bool) : (c.setP r x).slotReq = c.slotReq := by unfold Core.setP; split <;> rfl
@[simp] theorem Core.setP_nextAt (c : Core) (r : Nat) (x : Bool) : (c.setP r x).nextAt = c.nextAt := by unfold Core.setP; split <;> rfl
@[simp] theorem Core.setP_dutyGroup (c : Core) (r : Nat) (x : Bool) : (c.setP r x).dutyGroup = c.dutyGroup := by unfold Core.setP; split <;> rfl
@[simp] theorem Core.setP_dutyUsed (c : Core) (r : Nat) (x : Bool) : (c.setP r x).dutyUsed = c.dutyUsed := by unfold Core.setP; split <;> rfl

/-! ### What `Core.setM` leaves alone -/

@[simp] theorem Core.setM_run (c : Core) (r : Nat) (x : Mask) : (c.setM r x).run = c.run := by unfold Core.setM; split <;> rfl
@[simp] theorem Core.setM_ctx (c : Core) (r : Nat) (x : Mask) : (c.setM r x).ctx = c.ctx := by unfold Core.setM; split <;> rfl
@[simp] theorem Core.setM_pc (c : Core) (r : Nat) (x : Mask) : (c.setM r x).pc = c.pc := by unfold Core.setM; split <;> rfl
@[simp] theorem Core.setM_lbix (c : Core) (r : Nat) (x : Mask) : (c.setM r x).lbix = c.lbix := by unfold Core.setM; split <;> rfl
@[simp] theorem Core.setM_loopBuf (c : Core) (r : Nat) (x : Mask) : (c.setM r x).loopBuf = c.loopBuf := by unfold Core.setM; split <;> rfl
@[simp] theorem Core.setM_body (c : Core) (r : Nat) (x : Mask) : (c.setM r x).body = c.body := by unfold Core.setM; split <;> rfl
@[simp] theorem Core.setM_slow (c : Core) (r : Nat) (x : Mask) : (c.setM r x).slow = c.slow := by unfold Core.setM; split <;> rfl
@[simp] theorem Core.setM_g (c : Core) (r : Nat) (x : Mask) : (c.setM r x).g = c.g := by unfold Core.setM; split <;> rfl
@[simp] theorem Core.setM_a (c : Core) (r : Nat) (x : Mask) : (c.setM r x).a = c.a := by unfold Core.setM; split <;> rfl
@[simp] theorem Core.setM_stride (c : Core) (r : Nat) (x : Mask) : (c.setM r x).stride = c.stride := by unfold Core.setM; split <;> rfl
@[simp] theorem Core.setM_p (c : Core) (r : Nat) (x : Mask) : (c.setM r x).p = c.p := by unfold Core.setM; split <;> rfl
@[simp] theorem Core.setM_b (c : Core) (r : Nat) (x : Mask) : (c.setM r x).b = c.b := by unfold Core.setM; split <;> rfl
@[simp] theorem Core.setM_v (c : Core) (r : Nat) (x : Mask) : (c.setM r x).v = c.v := by unfold Core.setM; split <;> rfl
@[simp] theorem Core.setM_latches (c : Core) (r : Nat) (x : Mask) : (c.setM r x).latches = c.latches := by unfold Core.setM; split <;> rfl
@[simp] theorem Core.setM_latv (c : Core) (r : Nat) (x : Mask) : (c.setM r x).latv = c.latv := by unfold Core.setM; split <;> rfl
@[simp] theorem Core.setM_held (c : Core) (r : Nat) (x : Mask) : (c.setM r x).held = c.held := by unfold Core.setM; split <;> rfl
@[simp] theorem Core.setM_holdv (c : Core) (r : Nat) (x : Mask) : (c.setM r x).holdv = c.holdv := by unfold Core.setM; split <;> rfl
@[simp] theorem Core.setM_pend (c : Core) (r : Nat) (x : Mask) : (c.setM r x).pend = c.pend := by unfold Core.setM; split <;> rfl
@[simp] theorem Core.setM_ic (c : Core) (r : Nat) (x : Mask) : (c.setM r x).ic = c.ic := by unfold Core.setM; split <;> rfl
@[simp] theorem Core.setM_ticks (c : Core) (r : Nat) (x : Mask) : (c.setM r x).ticks = c.ticks := by unfold Core.setM; split <;> rfl
@[simp] theorem Core.setM_lctl (c : Core) (r : Nat) (x : Mask) : (c.setM r x).lctl = c.lctl := by unfold Core.setM; split <;> rfl
@[simp] theorem Core.setM_lstat (c : Core) (r : Nat) (x : Mask) : (c.setM r x).lstat = c.lstat := by unfold Core.setM; split <;> rfl
@[simp] theorem Core.setM_steps (c : Core) (r : Nat) (x : Mask) : (c.setM r x).steps = c.steps := by unfold Core.setM; split <;> rfl
@[simp] theorem Core.setM_wrapped (c : Core) (r : Nat) (x : Mask) : (c.setM r x).wrapped = c.wrapped := by unfold Core.setM; split <;> rfl
@[simp] theorem Core.setM_lent (c : Core) (r : Nat) (x : Mask) : (c.setM r x).lent = c.lent := by unfold Core.setM; split <;> rfl
@[simp] theorem Core.setM_frzcyc (c : Core) (r : Nat) (x : Mask) : (c.setM r x).frzcyc = c.frzcyc := by unfold Core.setM; split <;> rfl
@[simp] theorem Core.setM_latinv (c : Core) (r : Nat) (x : Mask) : (c.setM r x).latinv = c.latinv := by unfold Core.setM; split <;> rfl
@[simp] theorem Core.setM_holdinv (c : Core) (r : Nat) (x : Mask) : (c.setM r x).holdinv = c.holdinv := by unfold Core.setM; split <;> rfl
@[simp] theorem Core.setM_diagunit (c : Core) (r : Nat) (x : Mask) : (c.setM r x).diagunit = c.diagunit := by unfold Core.setM; split <;> rfl
@[simp] theorem Core.setM_scales (c : Core) (r : Nat) (x : Mask) : (c.setM r x).scales = c.scales := by unfold Core.setM; split <;> rfl
@[simp] theorem Core.setM_gen (c : Core) (r : Nat) (x : Mask) : (c.setM r x).gen = c.gen := by unfold Core.setM; split <;> rfl
@[simp] theorem Core.setM_nopen (c : Core) (r : Nat) (x : Mask) : (c.setM r x).nopen = c.nopen := by unfold Core.setM; split <;> rfl
@[simp] theorem Core.setM_rngK (c : Core) (r : Nat) (x : Mask) : (c.setM r x).rngK = c.rngK := by unfold Core.setM; split <;> rfl
@[simp] theorem Core.setM_rngC (c : Core) (r : Nat) (x : Mask) : (c.setM r x).rngC = c.rngC := by unfold Core.setM; split <;> rfl
@[simp] theorem Core.setM_nfs (c : Core) (r : Nat) (x : Mask) : (c.setM r x).nfs = c.nfs := by unfold Core.setM; split <;> rfl
@[simp] theorem Core.setM_cause (c : Core) (r : Nat) (x : Mask) : (c.setM r x).cause = c.cause := by unfold Core.setM; split <;> rfl
@[simp] theorem Core.setM_rpc (c : Core) (r : Nat) (x : Mask) : (c.setM r x).rpc = c.rpc := by unfold Core.setM; split <;> rfl
@[simp] theorem Core.setM_tval (c : Core) (r : Nat) (x : Mask) : (c.setM r x).tval = c.tval := by unfold Core.setM; split <;> rfl
@[simp] theorem Core.setM_faddr (c : Core) (r : Nat) (x : Mask) : (c.setM r x).faddr = c.faddr := by unfold Core.setM; split <;> rfl
@[simp] theorem Core.setM_dcause (c : Core) (r : Nat) (x : Mask) : (c.setM r x).dcause = c.dcause := by unfold Core.setM; split <;> rfl
@[simp] theorem Core.setM_imp (c : Core) (r : Nat) (x : Mask) : (c.setM r x).imp = c.imp := by unfold Core.setM; split <;> rfl
@[simp] theorem Core.setM_hbase (c : Core) (r : Nat) (x : Mask) : (c.setM r x).hbase = c.hbase := by unfold Core.setM; split <;> rfl
@[simp] theorem Core.setM_twin (c : Core) (r : Nat) (x : Mask) : (c.setM r x).twin = c.twin := by unfold Core.setM; split <;> rfl
@[simp] theorem Core.setM_frames (c : Core) (r : Nat) (x : Mask) : (c.setM r x).frames = c.frames := by unfold Core.setM; split <;> rfl
@[simp] theorem Core.setM_reports (c : Core) (r : Nat) (x : Mask) : (c.setM r x).reports = c.reports := by unfold Core.setM; split <;> rfl
@[simp] theorem Core.setM_bksup (c : Core) (r : Nat) (x : Mask) : (c.setM r x).bksup = c.bksup := by unfold Core.setM; split <;> rfl
@[simp] theorem Core.setM_clk (c : Core) (r : Nat) (x : Mask) : (c.setM r x).clk = c.clk := by unfold Core.setM; split <;> rfl
@[simp] theorem Core.setM_wts (c : Core) (r : Nat) (x : Mask) : (c.setM r x).wts = c.wts := by unfold Core.setM; split <;> rfl
@[simp] theorem Core.setM_copies (c : Core) (r : Nat) (x : Mask) : (c.setM r x).copies = c.copies := by unfold Core.setM; split <;> rfl
@[simp] theorem Core.setM_icache (c : Core) (r : Nat) (x : Mask) : (c.setM r x).icache = c.icache := by unfold Core.setM; split <;> rfl
@[simp] theorem Core.setM_mx (c : Core) (r : Nat) (x : Mask) : (c.setM r x).mx = c.mx := by unfold Core.setM; split <;> rfl
@[simp] theorem Core.setM_wbuf (c : Core) (r : Nat) (x : Mask) : (c.setM r x).wbuf = c.wbuf := by unfold Core.setM; split <;> rfl
@[simp] theorem Core.setM_spad (c : Core) (r : Nat) (x : Mask) : (c.setM r x).spad = c.spad := by unfold Core.setM; split <;> rfl
@[simp] theorem Core.setM_tiles (c : Core) (r : Nat) (x : Mask) : (c.setM r x).tiles = c.tiles := by unfold Core.setM; split <;> rfl
@[simp] theorem Core.setM_ifr (c : Core) (r : Nat) (x : Mask) : (c.setM r x).ifr = c.ifr := by unfold Core.setM; split <;> rfl
@[simp] theorem Core.setM_nextSeq (c : Core) (r : Nat) (x : Mask) : (c.setM r x).nextSeq = c.nextSeq := by unfold Core.setM; split <;> rfl
@[simp] theorem Core.setM_fseq (c : Core) (r : Nat) (x : Mask) : (c.setM r x).fseq = c.fseq := by unfold Core.setM; split <;> rfl
@[simp] theorem Core.setM_fseqN (c : Core) (r : Nat) (x : Mask) : (c.setM r x).fseqN = c.fseqN := by unfold Core.setM; split <;> rfl
@[simp] theorem Core.setM_fscope (c : Core) (r : Nat) (x : Mask) : (c.setM r x).fscope = c.fscope := by unfold Core.setM; split <;> rfl
@[simp] theorem Core.setM_fenceX (c : Core) (r : Nat) (x : Mask) : (c.setM r x).fenceX = c.fenceX := by unfold Core.setM; split <;> rfl
@[simp] theorem Core.setM_fenceN (c : Core) (r : Nat) (x : Mask) : (c.setM r x).fenceN = c.fenceN := by unfold Core.setM; split <;> rfl
@[simp] theorem Core.setM_fenceR (c : Core) (r : Nat) (x : Mask) : (c.setM r x).fenceR = c.fenceR := by unfold Core.setM; split <;> rfl
@[simp] theorem Core.setM_relblk (c : Core) (r : Nat) (x : Mask) : (c.setM r x).relblk = c.relblk := by unfold Core.setM; split <;> rfl
@[simp] theorem Core.setM_chan (c : Core) (r : Nat) (x : Mask) : (c.setM r x).chan = c.chan := by unfold Core.setM; split <;> rfl
@[simp] theorem Core.setM_posted (c : Core) (r : Nat) (x : Mask) : (c.setM r x).posted = c.posted := by unfold Core.setM; split <;> rfl
@[simp] theorem Core.setM_heldBundle (c : Core) (r : Nat) (x : Mask) : (c.setM r x).heldBundle = c.heldBundle := by unfold Core.setM; split <;> rfl
@[simp] theorem Core.setM_replay (c : Core) (r : Nat) (x : Mask) : (c.setM r x).replay = c.replay := by unfold Core.setM; split <;> rfl
@[simp] theorem Core.setM_cutEp (c : Core) (r : Nat) (x : Mask) : (c.setM r x).cutEp = c.cutEp := by unfold Core.setM; split <;> rfl
@[simp] theorem Core.setM_cutN (c : Core) (r : Nat) (x : Mask) : (c.setM r x).cutN = c.cutN := by unfold Core.setM; split <;> rfl
@[simp] theorem Core.setM_stop (c : Core) (r : Nat) (x : Mask) : (c.setM r x).stop = c.stop := by unfold Core.setM; split <;> rfl
@[simp] theorem Core.setM_mem (c : Core) (r : Nat) (x : Mask) : (c.setM r x).mem = c.mem := by unfold Core.setM; split <;> rfl
@[simp] theorem Core.setM_bnd (c : Core) (r : Nat) (x : Mask) : (c.setM r x).bnd = c.bnd := by unfold Core.setM; split <;> rfl
@[simp] theorem Core.setM_sv (c : Core) (r : Nat) (x : Mask) : (c.setM r x).sv = c.sv := by unfold Core.setM; split <;> rfl
@[simp] theorem Core.setM_mix (c : Core) (r : Nat) (x : Mask) : (c.setM r x).mix = c.mix := by unfold Core.setM; split <;> rfl
@[simp] theorem Core.setM_nslot (c : Core) (r : Nat) (x : Mask) : (c.setM r x).nslot = c.nslot := by unfold Core.setM; split <;> rfl
@[simp] theorem Core.setM_nleft (c : Core) (r : Nat) (x : Mask) : (c.setM r x).nleft = c.nleft := by unfold Core.setM; split <;> rfl
@[simp] theorem Core.setM_spa (c : Core) (r : Nat) (x : Mask) : (c.setM r x).spa = c.spa := by unfold Core.setM; split <;> rfl
@[simp] theorem Core.setM_xearly (c : Core) (r : Nat) (x : Mask) : (c.setM r x).xearly = c.xearly := by unfold Core.setM; split <;> rfl
@[simp] theorem Core.setM_xl (c : Core) (r : Nat) (x : Mask) : (c.setM r x).xl = c.xl := by unfold Core.setM; split <;> rfl
@[simp] theorem Core.setM_slotReq (c : Core) (r : Nat) (x : Mask) : (c.setM r x).slotReq = c.slotReq := by unfold Core.setM; split <;> rfl
@[simp] theorem Core.setM_nextAt (c : Core) (r : Nat) (x : Mask) : (c.setM r x).nextAt = c.nextAt := by unfold Core.setM; split <;> rfl
@[simp] theorem Core.setM_dutyGroup (c : Core) (r : Nat) (x : Mask) : (c.setM r x).dutyGroup = c.dutyGroup := by unfold Core.setM; split <;> rfl
@[simp] theorem Core.setM_dutyUsed (c : Core) (r : Nat) (x : Mask) : (c.setM r x).dutyUsed = c.dutyUsed := by unfold Core.setM; split <;> rfl

end Sys2Proof.Machine
end

