-- ==== Sys2Proof/Laws/Memory.lean ====
section
/-! SUPPORT. Laws of memories: what is read after a write, and that every operation keeps the canonical form. -/

namespace Sys2Proof.Machine

/-! ### Reading after writing -/

theorem byte_setByte (m : Memory) (a b : Nat) (v : Byte) : (m.setByte a v).byte b = if b = a then v else m.byte b := Tbl.get_set 0 m.cells a v b

@[simp] theorem tag_setByte (m : Memory) (a k : Nat) (v : Byte) : (m.setByte a v).tag k = m.tag k := rfl

theorem tag_setTag (m : Memory) (k j : Nat) (t : BitVec 16) : (m.setTag k t).tag j = if j = k then t else m.tag j := Tbl.get_set 0 m.tags k t j

@[simp] theorem byte_setTag (m : Memory) (a k : Nat) (t : BitVec 16) : (m.setTag k t).byte a = m.byte a := rfl

/-- A write touches no tag. -/
@[simp] theorem tag_write (n : Nat) : ∀ (m : Memory) (a v k : Nat), (m.write a n v).tag k = m.tag k := by
  induction n with
  | zero => intros; rfl
  | succ n ih => intro m a v k; rw [Memory.write, ih, tag_setByte]

/-- A write leaves every byte outside its range alone. -/
theorem byte_write_out (n : Nat) : ∀ (m : Memory) (a v b : Nat), (b < a ∨ a + n ≤ b) → (m.write a n v).byte b = m.byte b := by
  induction n with
  | zero => intros; rfl
  | succ n ih =>
    intro m a v b h
    rw [Memory.write, ih _ _ _ _ (by omega), byte_setByte, if_neg (by omega)]

/-- A write puts the bytes of its value in place, the low one first (03_numbers.md R5). -/
theorem byte_write_in (n : Nat) : ∀ (m : Memory) (a v j : Nat), j < n → (m.write a n v).byte (a + j) = BitVec.ofNat 8 (v / 256 ^ j) := by
  induction n with
  | zero => intro m a v j h; omega
  | succ n ih =>
    intro m a v j h
    rw [Memory.write]
    cases j with
    | zero => rw [byte_write_out _ _ _ _ _ (by omega), byte_setByte]; simp
    | succ j => rw [show a + (j + 1) = a + 1 + j by omega, ih _ _ _ _ (by omega), Nat.div_div_eq_div_mul, pow_succ, Nat.mul_comm]

/-- What is read depends on the bytes read alone. -/
theorem read_congr (n : Nat) : ∀ (m k : Memory) (a : Nat), (∀ j < n, m.byte (a + j) = k.byte (a + j)) → m.read a n = k.read a n := by
  induction n with
  | zero => intros; rfl
  | succ n ih =>
    intro m k a h
    rw [Memory.read, Memory.read, ih m k (a + 1) (fun j hj => by have := h (j + 1) (by omega); rwa [show a + (j + 1) = a + 1 + j by omega] at this)]
    have := h 0 (by omega)
    simp only [Nat.add_zero] at this
    rw [this]

/-- A write outside the bytes read changes nothing of what is read. -/
theorem read_write_out (m : Memory) (a n v b k : Nat) (h : b + k ≤ a ∨ a + n ≤ b) : (m.write a n v).read b k = m.read b k :=
  read_congr k _ _ b (fun j hj => byte_write_out n m a v (b + j) (by omega))

/-- What was written is what is read. -/
theorem read_write (n : Nat) : ∀ (m : Memory) (a v : Nat), (m.write a n v).read a n = v % 256 ^ n := by
  induction n with
  | zero => intro m a v; simp [Memory.read, Nat.mod_one]
  | succ n ih =>
    intro m a v
    rw [Memory.read, Memory.write, ih, byte_write_out _ _ _ _ _ (by omega), byte_setByte, if_pos rfl]
    rw [BitVec.toNat_ofNat, show (2 : Nat) ^ 8 = 256 from rfl, Nat.pow_succ, Nat.mul_comm (256 ^ n) 256, Nat.mod_mul]

theorem read_lt (n : Nat) : ∀ (m : Memory) (a : Nat), m.read a n < 256 ^ n := by
  induction n with
  | zero => intros; simp [Memory.read]
  | succ n ih =>
    intro m a
    have h1 := ih m (a + 1)
    have h2 := (m.byte a).isLt
    rw [Memory.read, pow_succ]
    omega

/-- A block holds what was put into it, and its tag. -/
theorem block_setBlock (m : Memory) (k : Nat) (d : BitVec 512) (t : BitVec 16) : (m.setBlock k d t).block k = d := by
  have h : ∀ (m : Memory) a, (m.setTag k t).read a 64 = m.read a 64 := fun m a => read_congr 64 _ _ a (fun j _ => rfl)
  simp only [Memory.block, Memory.setBlock, h, read_write]
  apply BitVec.eq_of_toNat_eq
  simp only [BitVec.toNat_ofNat]
  have := d.isLt
  rw [show (256 : Nat) ^ 64 = 2 ^ 512 from (pow_mul 2 8 64).symm, Nat.mod_mod, Nat.mod_eq_of_lt this]

theorem tag_setBlock (m : Memory) (k j : Nat) (d : BitVec 512) (t : BitVec 16) : (m.setBlock k d t).tag j = if j = k then t else m.tag j := by
  rw [Memory.setBlock, tag_setTag, tag_write]

/-- A block write leaves the other blocks' bytes alone. -/
theorem byte_setBlock_out (m : Memory) (k a : Nat) (d : BitVec 512) (t : BitVec 16) (h : a < 64 * k ∨ 64 * k + 64 ≤ a) :
    (m.setBlock k d t).byte a = m.byte a := byte_write_out 64 m (64 * k) d.toNat a h

/-! ### The canonical form -/

/-- The form of the cells is that of any sparse map. -/
theorem cellsWf_eq : ∀ (l : List Host.Cell) (lo : Nat), cellsWf lo l = Tbl.wfFrom (0 : Byte) lo l
  | [], _ => rfl
  | (a, b) :: t, lo => by simp only [cellsWf, Tbl.wfFrom, cellsWf_eq t (a + 1), Byte]

theorem wf_iff (m : Memory) : m.wf = true ↔ Tbl.wf (0 : Byte) m.cells = true ∧ Tbl.wf 0 m.tags = true := by
  simp only [Memory.wf, cellsWf_eq, Bool.and_eq_true]; rfl

theorem wf_setByte (m : Memory) (a : Nat) (v : Byte) (h : m.wf = true) : (m.setByte a v).wf = true := by
  rw [wf_iff] at *
  exact ⟨Tbl.wf_set _ _ _ _ h.1, h.2⟩

theorem wf_setTag (m : Memory) (k : Nat) (t : BitVec 16) (h : m.wf = true) : (m.setTag k t).wf = true := by
  rw [wf_iff] at *
  exact ⟨h.1, Tbl.wf_set _ _ _ _ h.2⟩

theorem wf_write (n : Nat) : ∀ (m : Memory) (a v : Nat), m.wf = true → (m.write a n v).wf = true := by
  induction n with
  | zero => intro m a v h; exact h
  | succ n ih => intro m a v h; exact ih _ _ _ (wf_setByte _ _ _ h)

theorem wf_setBlock (m : Memory) (k : Nat) (d : BitVec 512) (t : BitVec 16) (h : m.wf = true) : (m.setBlock k d t).wf = true :=
  wf_setTag _ _ _ (wf_write 64 _ _ _ h)

theorem wf_clear (m : Memory) (lo hi : Nat) (h : m.wf = true) : (m.clear lo hi).wf = true := by
  rw [wf_iff] at *
  exact ⟨Tbl.wf_filter _ _ _ h.1, Tbl.wf_filter _ _ _ h.2⟩

theorem wf_empty : Memory.empty.wf = true := rfl

/-- A fold of steps that each keep the form keeps it. -/
theorem wf_foldl {α : Type} (f : Memory → α → Memory) (hf : ∀ m x, m.wf = true → (f m x).wf = true) (l : List α) :
    ∀ m : Memory, m.wf = true → (l.foldl f m).wf = true := by
  induction l with
  | nil => intro m h; exact h
  | cons x t ih => intro m h; exact ih _ (hf _ _ h)

theorem wf_copyRange (m : Memory) (src dst len : Nat) (h : m.wf = true) : (m.copyRange src dst len).wf = true :=
  wf_foldl _ (fun _ _ h => wf_setTag _ _ _ h) _ _ (wf_foldl _ (fun _ _ h => wf_setByte _ _ _ h) _ _ (wf_clear _ _ _ h))

/-! ### The state's memories -/

theorem memOk_iff (s : State) : s.memOk = true ↔ s.mem.wf = true ∧ s.hostMem.wf = true := by simp [State.memOk]

/-- A change that leaves both memories alone keeps the form. -/
theorem memOk_of_same {s t : State} (h : s.memOk = true) (hm : t.mem = s.mem) (hh : t.hostMem = s.hostMem) : t.memOk = true := by
  rw [memOk_iff] at *; rw [hm, hh]; exact h

/-- A fold of steps that each keep the form keeps it. -/
theorem memOk_foldl {α : Type} (f : State → α → State) (hf : ∀ s x, s.memOk = true → (f s x).memOk = true) (l : List α) :
    ∀ s : State, s.memOk = true → (l.foldl f s).memOk = true := by
  induction l with
  | nil => intro s h; exact h
  | cons x t ih => intro s h; exact ih _ (hf _ _ h)

theorem memOk_setCore (s : State) (n : Nat) (c : Core) (h : s.memOk = true) : (s.setCore n c).memOk = true := h
theorem memOk_upd (s : State) (n : Nat) (f : Core → Core) (h : s.memOk = true) : (s.upd n f).memOk = true := h
theorem memOk_setCtx (s : State) (x : Nat) (c : Ctx) (h : s.memOk = true) : (s.setCtx x c).memOk = true := h
theorem memOk_updCtx (s : State) (x : Nat) (f : Ctx → Ctx) (h : s.memOk = true) : (s.updCtx x f).memOk = true := h
theorem memOk_setKernel (s : State) (k : Nat) (v : Kernel) (h : s.memOk = true) : (s.setKernel k v).memOk = true := h
theorem memOk_setGroup (s : State) (g : Nat) (v : Group) (h : s.memOk = true) : (s.setGroup g v).memOk = true := h
theorem memOk_acquire (s : State) (n t : Nat) (h : s.memOk = true) : (s.acquire n t).memOk = true := h

/-! ### DRAM under its seals -/

theorem wf_openPiece (s : State) (z : Nat) (m : Memory) (p : Nat) (h : m.wf = true) : (s.openPiece z m p).wf = true := by
  unfold State.openPiece
  split
  · exact h
  · exact wf_write 16 _ _ _ h

/-- What an access sees of memory is in the canonical form. -/
theorem wf_decrypted (s : State) (a n : Nat) (h : s.mem.wf = true) : (s.decrypted a n).wf = true :=
  wf_foldl _ (fun m p h => wf_openPiece s _ m p h) _ _ h

/-- Where every piece reads as it was written, an access sees memory as it is. -/
theorem decrypted_plain (s : State) (a n : Nat) (h : s.plain a n = true) : s.decrypted a n = s.mem := by
  have hf : ∀ (l : List Nat) (m : Memory), l.all (s.pieceOpen (sealOf a)) = true → l.foldl (s.openPiece (sealOf a)) m = m := by
    intro l
    induction l with
    | nil => intro m _; rfl
    | cons p t ih =>
      intro m hl
      simp only [List.all_cons, Bool.and_eq_true] at hl
      rw [List.foldl_cons, show s.openPiece (sealOf a) m p = m by simp [State.openPiece, hl.1]]
      exact ih m hl.2
  exact hf _ _ h

/-- A read of pieces that read as they were written. -/
theorem rd_plain (s : State) (a n : Nat) (h : s.plain a n = true) : s.rd a n = s.mem.read (loc a) n := by
  rw [State.rd, decrypted_plain s a n h]

theorem memOk_put (s : State) (a n v : Nat) (h : s.memOk = true) : (s.put a n v).memOk = true := by
  rw [memOk_iff] at *; exact ⟨wf_write n _ _ _ (wf_decrypted s a n h.1), h.2⟩

theorem memOk_putTag (s : State) (a : Nat) (t : BitVec 16) (h : s.memOk = true) : (s.putTag a t).memOk = true := by
  rw [memOk_iff] at *; exact ⟨wf_setTag _ _ _ h.1, h.2⟩

theorem memOk_putBlock (s : State) (a : Nat) (d : BitVec 512) (t : BitVec 16) (h : s.memOk = true) : (s.putBlock a d t).memOk = true :=
  memOk_putTag _ _ _ (memOk_put s _ 64 _ h)

theorem memOk_writeTime (s : State) (clk l : Nat) (h : s.memOk = true) : (s.writeTime clk l).1.memOk = true := h

theorem memOk_writeTimes (s : State) (clk a n : Nat) (h : s.memOk = true) : (s.writeTimes clk a n).1.memOk = true := by
  unfold State.writeTimes
  dsimp only
  split <;> exact h

theorem memOk_coreWriteTime (s : State) (n l : Nat) (h : s.memOk = true) : (s.coreWriteTime n l).memOk = true := h

theorem memOk_noteCmd (s : State) (c k ts : Nat) (h : s.memOk = true) : (s.noteCmd c k ts).memOk = true := h

theorem memOk_timedStore (s : State) (clk pa n v : Nat) (h : s.memOk = true) : (s.timedStore clk pa n v).memOk = true := by
  refine memOk_put _ _ _ _ ?_
  split <;> exact h

theorem memOk_engineStore (s : State) (pa n v : Nat) (h : s.memOk = true) : (s.engineStore pa n v).memOk = true :=
  memOk_put _ _ _ _ h

theorem memOk_engineBlock (s : State) (pa : Nat) (d : BitVec 512) (t : BitVec 16) (h : s.memOk = true) : (s.engineBlock pa d t).memOk = true :=
  memOk_putBlock _ _ _ _ h

theorem memOk_asyncStore (s : State) (c k clk pa n v : Nat) (h : s.memOk = true) : (s.asyncStore c k clk pa n v).memOk = true :=
  memOk_noteCmd _ _ _ _ (memOk_put _ _ _ _ (memOk_writeTimes s _ _ _ h))

theorem memOk_asyncBlock (s : State) (c k pa : Nat) (d : BitVec 512) (t : BitVec 16) (h : s.memOk = true) :
    (s.asyncBlock c k pa d t).memOk = true :=
  memOk_noteCmd _ _ _ _ (memOk_putBlock _ _ _ _ h)

theorem memOk_coreStore (s : State) (n pa k v : Nat) (h : s.memOk = true) : (s.coreStore n pa k v).memOk = true :=
  memOk_put _ _ _ _ (memOk_coreWriteTime s n _ h)

theorem memOk_hostWrite (l : List (BitVec 8)) : ∀ (a : Nat) (s : State), s.memOk = true → (s.hostWrite a l).memOk = true := by
  induction l with
  | nil => intro a s h; exact h
  | cons b t ih => intro a s h; exact ih _ _ (memOk_put _ _ _ _ (memOk_writeTime s _ _ h))

/-- A write to pieces that read as they were written leaves the bytes outside its range alone. -/
theorem put_byte_out (s : State) (pa n v a : Nat) (hp : s.plain pa n = true) (h : a < loc pa ∨ loc pa + n ≤ a) :
    (s.put pa n v).mem.byte a = s.mem.byte a := by
  show ((s.decrypted pa n).write (loc pa) n v).byte a = _
  rw [decrypted_plain s pa n hp]
  exact byte_write_out n s.mem (loc pa) v a h

/-- An engine's store leaves the bytes outside its range alone. -/
theorem engineStore_byte_out (s : State) (pa n v a : Nat) (hp : s.plain pa n = true) (h : a < loc pa ∨ loc pa + n ≤ a) :
    (s.engineStore pa n v).mem.byte a = s.mem.byte a :=
  put_byte_out (s.writeTime 0 (globalLine pa)).1 pa n v a hp h

/-- A core's store leaves the bytes outside its range alone. -/
theorem coreStore_byte_out (s : State) (n pa k v a : Nat) (hp : s.plain pa k = true) (h : a < loc pa ∨ loc pa + k ≤ a) :
    (s.coreStore n pa k v).mem.byte a = s.mem.byte a :=
  put_byte_out (s.coreWriteTime n (globalLine pa)) pa k v a hp h

/-- What was stored reads back. -/
theorem coreStore_read (s : State) (n pa k v : Nat) : (s.coreStore n pa k v).mem.read (loc pa) k = v % 256 ^ k := read_write k _ (loc pa) v

end Sys2Proof.Machine
end

