-- ==== Sys2Proof/Laws/Operations.lean ====
section
/-! SUPPORT. The shared operations a slot is made of: for each one lemma that says everything it can do, so that a proof about an
instruction cites it and unfolds nothing (02_core.md R36, R37, R40, R51; 05_scalar_control.md R137; 08_transfer.md R222; 14_trap.md
R335 to R338). -/

namespace Sys2Proof.Machine

/-- A slot under its guard does the operation or nothing; the address step, where it has one, comes first. -/
theorem guarded_eq (g : Guard) (inc : Option Nat) (op : Op) (i : Issue) :
    guarded g inc op i =
      (let j := match inc with | some a => i.increment a | none => i
       if j.pre.guardOk g then op j else .ok j) := rfl

@[simp] theorem increment_pre (i : Issue) (a : Nat) : (i.increment a).pre = i.pre := rfl
@[simp] theorem increment_s (i : Issue) (a : Nat) : (i.increment a).s = i.s := rfl
@[simp] theorem increment_incs (i : Issue) (a : Nat) : (i.increment a).incs = i.incs ++ [(a, i.pre.getStride a)] := rfl
@[simp] theorem after_s (i : Issue) (f : State → State) : (i.after f).s = i.s := rfl
@[simp] theorem after_pre (i : Issue) (f : State → State) : (i.after f).pre = i.pre := rfl
@[simp] theorem upd_pre (i : Issue) (f : Core → Core) : (i.upd f).pre = i.pre := rfl
@[simp] theorem upd_incs (i : Issue) (f : Core → Core) : (i.upd f).incs = i.incs := rfl
@[simp] theorem upd_cmds (i : Issue) (f : Core → Core) : (i.upd f).cmds = i.cmds := rfl
@[simp] theorem result_pre (i : Issue) (f : RegFile) (r lat : Nat) (x : Vec) : (i.result f r x lat).pre = i.pre := rfl
@[simp] theorem result_incs (i : Issue) (f : RegFile) (r lat : Nat) (x : Vec) : (i.result f r x lat).incs = i.incs := rfl
@[simp] theorem result_cmds (i : Issue) (f : RegFile) (r lat : Nat) (x : Vec) : (i.result f r x lat).cmds = i.cmds := rfl

/-- Reading a register stops only at a lent v register, and the stop is the access violation. -/
theorem readReg_stops (i : Issue) (f : RegFile) (r : Nat) (e : Stop) (h : i.readReg f r = .error e) :
    f = .v ∧ i.core.isLent (i.pre.physV r) = true ∧ e = .trap 5 0 := by
  by_cases hf : f = .v
  · subst hf
    unfold Issue.readReg at h
    dsimp only at h
    split at h
    · rename_i hl; injection h with h; exact ⟨rfl, hl, h.symm⟩
    · injection h
  · cases f <;> first | exact absurd rfl hf | (unfold Issue.readReg at h; injection h)

/-- A source answers the register, the latch, the held value, or zero for an invalid one; it captures, or notes in CDIAG, or does
nothing else. -/
theorem source_ok (i : Issue) (pos : Nat) (k : Src) (f : RegFile) (r : Nat) (x : Vec) (j : Issue) (h : i.source pos k f r = .ok (x, j)) :
    (k = .reg ∧ i.readReg f r = .ok x ∧ j = i) ∨
    (k = .capture ∧ i.readReg f r = .ok x ∧
      j = i.upd (fun c => { c with held := Tbl.set 0 c.held (3 * i.unit.idx + pos) x
                                   holdv := c.holdv ||| BitVec.ofNat 18 (2 ^ (3 * i.unit.idx + pos)) })) ∨
    (k = .latch ∧ i.pre.latv.getLsbD (4 * i.unit.idx + r % 4) = true ∧ x = Tbl.get 0 i.pre.latches (4 * i.unit.idx + r % 4) ∧ j = i) ∨
    (k = .latch ∧ i.pre.latv.getLsbD (4 * i.unit.idx + r % 4) = false ∧ x = 0 ∧ j = i.upd (fun c => c.noteInvalid i.unit true)) ∨
    (k = .held ∧ i.pre.holdv.getLsbD (3 * i.unit.idx + pos) = true ∧ x = Tbl.get 0 i.pre.held (3 * i.unit.idx + pos) ∧ j = i) ∨
    (k = .held ∧ i.pre.holdv.getLsbD (3 * i.unit.idx + pos) = false ∧ x = 0 ∧ j = i.upd (fun c => c.noteInvalid i.unit false)) := by
  cases k <;> simp only [Issue.source] at h
  · cases hr : i.readReg f r with
    | error e => rw [hr] at h; injection h
    | ok y => rw [hr] at h; injection h with h; injection h with h1 h2; exact .inl ⟨rfl, by rw [h1], h2.symm⟩
  · split at h <;> rename_i hv <;> injection h with h <;> injection h with h1 h2
    · exact .inr (.inr (.inl ⟨rfl, hv, h1.symm, h2.symm⟩))
    · exact .inr (.inr (.inr (.inl ⟨rfl, by simpa using hv, h1.symm, h2.symm⟩)))
  · cases hr : i.readReg f r with
    | error e => rw [hr] at h; injection h
    | ok y => rw [hr] at h; injection h with h; injection h with h1 h2; subst h1; exact .inr (.inl ⟨rfl, rfl, h2.symm⟩)
  · split at h <;> rename_i hv <;> injection h with h <;> injection h with h1 h2
    · exact .inr (.inr (.inr (.inr (.inl ⟨rfl, hv, h1.symm, h2.symm⟩))))
    · exact .inr (.inr (.inr (.inr (.inr ⟨rfl, by simpa using hv, h1.symm, h2.symm⟩))))

/-- A source stops only at a lent v register. -/
theorem source_stops (i : Issue) (pos : Nat) (k : Src) (f : RegFile) (r : Nat) (e : Stop) (h : i.source pos k f r = .error e) :
    f = .v ∧ e = .trap 5 0 := by
  cases k <;> simp only [Issue.source] at h
  · cases hr : i.readReg f r <;> simp [hr, bind, Except.bind] at h
    obtain ⟨h1, -, h2⟩ := readReg_stops i f r _ hr
    exact ⟨h1, h ▸ h2⟩
  · split at h <;> simp at h
  · cases hr : i.readReg f r <;> simp [hr, bind, Except.bind] at h
    obtain ⟨h1, -, h2⟩ := readReg_stops i f r _ hr
    exact ⟨h1, h ▸ h2⟩
  · split at h <;> simp at h

/-- Two sources of g never stop. -/
theorem rrG_ok (i : Issue) (o : RR) : ∃ x y j, i.rrG o = .ok (x, y, j) := by
  cases h : i.rrG o with
  | ok v => exact ⟨v.1, v.2.1, v.2.2, rfl⟩
  | error e =>
    exfalso
    unfold Issue.rrG Issue.rrSources at h
    cases h1 : i.source 0 (smode o.mode).1 .g o.s1.toNat with
    | error e1 => exact absurd (source_stops _ _ _ _ _ _ h1).1 (by decide)
    | ok v1 =>
      cases h2 : v1.2.source 1 (smode o.mode).2 .g o.s2.toNat with
      | error e2 => exact absurd (source_stops _ _ _ _ _ _ h2).1 (by decide)
      | ok v2 => simp [h1, h2, bind, Except.bind] at h

/-- A v destination is nil, or a register of a bank that is not lent. -/
theorem destV_ok (i : Issue) (d : Nat) (dnil : Bool) (f : RegFile) (r : Nat) (h : i.destV d dnil = .ok (f, r)) :
    (dnil = true ∧ f = .latch ∧ r = 0) ∨ (dnil = false ∧ i.core.isLent (i.pre.physV d) = false ∧ f = .v ∧ r = i.pre.physV d) := by
  unfold Issue.destV at h
  split at h
  · simp at h; exact .inl ⟨‹_›, h.1.symm, h.2.symm⟩
  · split at h
    · simp at h
    · simp at h; exact .inr ⟨by simpa using ‹¬ dnil = true›, by simpa using ‹¬ _ = true›, h.1.symm, h.2.symm⟩

theorem destV_stops (i : Issue) (d : Nat) (dnil : Bool) (e : Stop) (h : i.destV d dnil = .error e) : dnil = false ∧ e = .trap 5 0 := by
  unfold Issue.destV at h
  split at h
  · simp at h
  · split at h
    · simp at h; exact ⟨by simpa using ‹¬ dnil = true›, h.symm⟩
    · simp at h

/-- A command is added behind those of the bundle, or all 96 entries are in use and the operation traps. -/
theorem command_cases (i : Issue) (e : IfrEntry) :
    (96 ≤ i.core.commands.length + i.cmds.length ∧ i.command e = .error (.trap 13 0)) ∨
    (i.core.commands.length + i.cmds.length < 96 ∧ i.command e = .ok { i with cmds := i.cmds ++ [(i.slot, e)] }) := by
  unfold Issue.command
  split
  · exact .inl ⟨‹_›, rfl⟩
  · exact .inr ⟨by omega, rfl⟩

/-- An examination by the entry it meets (R137 Table 5): the one equation its lemmas come from. -/
theorem examine_eq (i : Issue) (va : W64) (size need : Nat) (w u : Bool) : i.examine va size need w u =
    if va.toNat % size ≠ 0 then .error (.trap 7 va)
    else match translate i.s (tuOf i.n) i.ctxNo va need with
      | .outside => .error (.abort va)
      | .absent k => .error (.freeze (fun s => s.bundleFault i.n i.ctxNo va k need w))
      | .poisonedPage => .error (.trap 10 (BitVec.ofNat 64 (va.toNat / 64 * 64)))
      | .denied => .error (.trap 9 va)
      | .noFrame pa => .error (.fault (.noFrame pa))
      | .dev d off => .ok (.dev d off)
      | .ok pa repl =>
        if (w && wvBars (i.s.ctx i.ctxNo) va) = true then .error (.trap 9 va)
        else if i.pre.replayHolds va.toNat size = true then .error .wait
        else if (u && i.pre.sMisses va) = true then .error .wait
        else if wvLocked (i.s.ctx i.ctxNo) va = true then .error (.freeze (fun s => s.upd i.n (fun c => c.forget (s.replicas i.n i.ctxNo va pa))))
        else .ok (.mem pa repl) := rfl

/-- An access examined reaches memory: aligned, translated with its permission, not barred, not waiting. -/
theorem examine_mem (i : Issue) (va : W64) (size need pa : Nat) (w u repl : Bool) (h : i.examine va size need w u = .ok (.mem pa repl)) :
    va.toNat % size = 0 ∧ translate i.s (tuOf i.n) i.ctxNo va need = .ok pa repl ∧ (w && wvBars (i.s.ctx i.ctxNo) va) = false ∧
    i.pre.replayHolds va.toNat size = false ∧ (u && i.pre.sMisses va) = false ∧ wvLocked (i.s.ctx i.ctxNo) va = false := by
  rw [examine_eq] at h
  by_cases hal : va.toNat % size ≠ 0
  · rw [if_pos hal] at h; injection h
  rw [if_neg hal] at h
  cases ht : translate i.s (tuOf i.n) i.ctxNo va need <;> rw [ht] at h <;> dsimp only at h <;> try (injection h; done)
  · injection h with h; injection h
  rename_i p q
  by_cases h1 : (w && wvBars (i.s.ctx i.ctxNo) va) = true
  · rw [if_pos h1] at h; injection h
  by_cases h2 : i.pre.replayHolds va.toNat size = true
  · rw [if_neg h1, if_pos h2] at h; injection h
  by_cases h3 : (u && i.pre.sMisses va) = true
  · rw [if_neg h1, if_neg h2, if_pos h3] at h; injection h
  by_cases h4 : wvLocked (i.s.ctx i.ctxNo) va = true
  · rw [if_neg h1, if_neg h2, if_neg h3, if_pos h4] at h; injection h
  rw [if_neg h1, if_neg h2, if_neg h3, if_neg h4] at h
  injection h with h; injection h with hp hq
  subst hp hq
  rw [Bool.not_eq_true] at h1 h2 h3 h4
  exact ⟨by simpa using hal, rfl, h1, h2, h3, h4⟩

/-- An access examined reaches a device page. -/
theorem examine_dev (i : Issue) (va : W64) (size need off : Nat) (w u : Bool) (d : DevPage) (h : i.examine va size need w u = .ok (.dev d off)) :
    va.toNat % size = 0 ∧ translate i.s (tuOf i.n) i.ctxNo va need = .dev d off := by
  rw [examine_eq] at h
  by_cases hal : va.toNat % size ≠ 0
  · rw [if_pos hal] at h; injection h
  rw [if_neg hal] at h
  cases ht : translate i.s (tuOf i.n) i.ctxNo va need <;> rw [ht] at h <;> dsimp only at h <;> try (injection h; done)
  · injection h with h; injection h with h1 h2; subst h1 h2; exact ⟨by simpa using hal, rfl⟩
  · repeat' split at h
    all_goals exact absurd h (by simp)

/-- An access whose translation gives a place passes exactly when nothing bars it and nothing holds it back. -/
theorem examine_of_ok (i : Issue) (va : W64) (size need pa : Nat) (w u repl : Bool) (hal : va.toNat % size = 0)
    (ht : translate i.s (tuOf i.n) i.ctxNo va need = .ok pa repl) (h1 : (w && wvBars (i.s.ctx i.ctxNo) va) = false)
    (h2 : i.pre.replayHolds va.toNat size = false) (h3 : (u && i.pre.sMisses va) = false)
    (h4 : wvLocked (i.s.ctx i.ctxNo) va = false) :
    i.examine va size need w u = .ok (.mem pa repl) := by
  rw [examine_eq, ht]; simp [hal, h1, h2, h3, h4]

/-- A store at a place of a page that is not replicated. -/
theorem storeAt_plain (i : Issue) (va : W64) (pa size v : Nat) :
    (kvSays (i.s.ctx i.ctxNo) (i.s.grpOf i.n) true va = .refuse ∧ i.storeAt va pa size v false = .error (.trap 9 va)) ∨
    (kvSays (i.s.ctx i.ctxNo) (i.s.grpOf i.n) true va ≠ .refuse ∧
      i.storeAt va pa size v false = .ok { i with s := i.s.coreStore i.n pa size (i.s.ringValue i.ctxNo va pa size v) }) := by
  unfold Issue.storeAt
  cases hk : kvSays (i.s.ctx i.ctxNo) (i.s.grpOf i.n) true va <;> simp

/-- A load's value comes from a block that is not poisoned, or from the answer its request entry holds. -/
theorem loadAt_ok (i : Issue) (va : W64) (pa size need v : Nat) (j : Issue) (h : i.loadAt va pa size need = .ok (v, j)) :
    (∃ a, i.answered = some a ∧ size ≤ 8 ∧ v = a.toNat % 2 ^ (8 * size) ∧ j = i) ∨
    ∃ t, i.readAt va pa size need = .ok ((v, t), j) ∧ poisoned t = false := by
  unfold Issue.loadAt at h
  split at h
  · rename_i a b ha hs
    simp at h hs
    exact .inl ⟨_, ha, hs, h.1.symm, h.2.symm⟩
  · cases hr : i.readAt va pa size need with
    | error e => simp [hr, bind, Except.bind] at h
    | ok w =>
      obtain ⟨⟨x, t⟩, k⟩ := w
      simp only [hr, bind, Except.bind] at h
      split at h
      · simp at h
      · simp at h
        obtain ⟨rfl, rfl⟩ := h
        exact .inr ⟨t, rfl, by simpa using ‹¬ poisoned t = true›⟩

/-- A scratchpad check that passes changes nothing, and every access lies in the scratchpad, aligned. -/
theorem spadCheck_ok (i j : Issue) (l : List Nat) (size align : Nat) (st : Bool) (h : i.spadCheck l size align st = .ok j) :
    j = i ∧ (∀ a ∈ l, a % align = 0 ∧ a + size ≤ spadSize i.n) := by
  unfold Issue.spadCheck at h
  split at h
  · simp at h
  rename_i h1
  split at h
  · simp at h
  rename_i h2
  dsimp only at h
  have hj : j = i := by
    split at h
    · injection h
    repeat' split at h
    all_goals first | exact (Except.ok.inj h).symm | exact absurd h (by simp)
  refine ⟨hj, fun a ha => ?_⟩
  have e1 := List.find?_eq_none.mp h1 a ha
  have e2 := List.find?_eq_none.mp h2 a ha
  simp at e1 e2
  exact ⟨e1, e2⟩

/-- A trap enters the handler, or is a double trap. -/
theorem takeTrap_eq (s : State) (n cause : Nat) (val addr ret : W64) (k : Option Nat) (imp : Bool) :
    s.takeTrap n cause val addr ret k imp =
      if (s.core n).trapShut then s.doubleTrap n cause else s.upd n (fun c => c.enter cause val addr ret k imp) := rfl

/-- What the entry leaves in the trap registers. -/
theorem enter_registers (c : Core) (cause : Nat) (val addr ret : W64) (k : Option Nat) (imp : Bool) :
    let d := c.enter cause val addr ret k imp
    d.cause = BitVec.ofNat 8 cause ∧ d.rpc = BitVec.ofNat 44 (ret.toNat / 16) ∧ d.tval = val ∧ d.faddr = addr ∧ d.imp = imp ∧ d.twin = false ∧
    d.frames = c.drain.frame ret k :: c.drain.frames ∧ d.lbix = none := ⟨rfl, rfl, rfl, rfl, rfl, rfl, rfl, rfl⟩

/-- Counting frozen cycles changes FRZCYC and the next cycle, and those of a stopped core alone. -/
theorem Core.countFrozen_eq (now : Nat) (c : Core) :
    c.countFrozen now = { c with frzcyc := (c.countFrozen now).frzcyc, nextAt := (c.countFrozen now).nextAt } ∧
    (c.run ≠ .stopped → c.countFrozen now = c) := by
  unfold Core.countFrozen
  split
  · exact ⟨rfl, fun h => absurd ‹_› h⟩
  · exact ⟨rfl, fun _ => rfl⟩

/-- A core that halts with no report waiting leaves its context as it is. -/
theorem State.haltReports_none (s : State) (n : Nat) (h : (s.core n).reports = []) : s.haltReports n = s := if_pos h

end Sys2Proof.Machine
end

