-- ==== Sys2Proof/Laws/PerInstr.lean ====
section
/-! SUPPORT. For each instruction: an event of the table has no word; an operation has one, whose class bits [31:30] are those of its
issue slot (spec/04_encoding.md R104). -/

namespace Sys2Proof

/-- The class bits of the slot an operation issues in: S 0, V 1, M 2, X 3 (R104). -/
def SlotInstr.cls : SlotInstr → BitVec 2
  | .nop => 0
  | .xnop => 3
  | .s _ => 0
  | .v _ => 1
  | .m _ => 2
  | .x _ => 3

theorem cls_encWord (c : BitVec 2) (o : BitVec 7) (p : BitVec 5) (a : BitVec 18) : fld (encWord c o p a) 30 2 = c := by
  ext i hi
  simp only [fld, encWord, BitVec.getElem_extractLsb', BitVec.getLsbD_append]
  repeat' (split; omega)
  rw [show 30 + i - 18 - 5 - 7 = i by omega, BitVec.getLsbD_eq_getElem hi]

theorem cls_encMWord (k : BitVec 3) (g : Guard) (a : BitVec 22) : fld (encMWord k g a).1 30 2 = 2 := by
  ext i hi
  simp only [fld, encMWord, BitVec.getElem_extractLsb', BitVec.getLsbD_append]
  repeat' (split; omega)
  rw [show 30 + i - 22 - 5 - 3 = i by omega, BitVec.getLsbD_eq_getElem hi]
  rfl

/-- Every operation's word carries its class. -/
theorem cls_enc (i : SlotInstr) : fld i.enc.1 30 2 = i.cls := by
  cases i with
  | nop => rfl
  | xnop => rfl
  | s i => cases i <;> exact cls_encWord ..
  | v i => cases i <;> exact cls_encWord ..
  | x i => cases i <;> exact cls_encWord ..
  | m i => cases i <;> exact cls_encMWord ..

/-- What the encoder gives an instruction. -/
def Laws.Encoding.Statement (i : Instr) : Prop :=
  match i.slot with
  | none => encode i = none
  | some sl => ∃ w e, encode i = some (w, e) ∧ fld w 30 2 = sl.cls

theorem Laws.Encoding.of_slot (sl : SlotInstr) {i : Instr} (h : i.slot = some sl) : Laws.Encoding.Statement i := by
  simp only [Laws.Encoding.Statement, encode, h]
  exact ⟨_, _, rfl, cls_enc sl⟩

theorem Laws.Encoding.bundleIssue a0 : Laws.Encoding.Statement (.bundleIssue a0) := rfl
theorem Laws.Encoding.resultDue a0 : Laws.Encoding.Statement (.resultDue a0) := rfl
theorem Laws.Encoding.trapEntry a0 a1 a2 a3 : Laws.Encoding.Statement (.trapEntry a0 a1 a2 a3) := rfl
theorem Laws.Encoding.impreciseTrap a0 : Laws.Encoding.Statement (.impreciseTrap a0) := rfl
theorem Laws.Encoding.clkTick a0 : Laws.Encoding.Statement (.clkTick a0) := rfl
theorem Laws.Encoding.beatDue a0 : Laws.Encoding.Statement (.beatDue a0) := rfl
theorem Laws.Encoding.rowReload a0 a1 : Laws.Encoding.Statement (.rowReload a0 a1) := rfl
theorem Laws.Encoding.parityError a0 : Laws.Encoding.Statement (.parityError a0) := rfl
theorem Laws.Encoding.eccError a0 a1 a2 a3 : Laws.Encoding.Statement (.eccError a0 a1 a2 a3) := rfl
theorem Laws.Encoding.patrolScrub a0 a1 : Laws.Encoding.Statement (.patrolScrub a0 a1) := rfl
theorem Laws.Encoding.requestAnswer a0 a1 : Laws.Encoding.Statement (.requestAnswer a0 a1) := rfl
theorem Laws.Encoding.atomicAtHome a0 a1 : Laws.Encoding.Statement (.atomicAtHome a0 a1) := rfl
theorem Laws.Encoding.replicaCommit a0 : Laws.Encoding.Statement (.replicaCommit a0) := rfl
theorem Laws.Encoding.engineBlockConfirm a0 a1 : Laws.Encoding.Statement (.engineBlockConfirm a0 a1) := rfl
theorem Laws.Encoding.engineResume a0 a1 : Laws.Encoding.Statement (.engineResume a0 a1) := rfl
theorem Laws.Encoding.commandComplete a0 a1 : Laws.Encoding.Statement (.commandComplete a0 a1) := rfl
theorem Laws.Encoding.commandEndError a0 a1 a2 : Laws.Encoding.Statement (.commandEndError a0 a1 a2) := rfl
theorem Laws.Encoding.sendLand a0 a1 : Laws.Encoding.Statement (.sendLand a0 a1) := rfl
theorem Laws.Encoding.xrelPerform a0 a1 : Laws.Encoding.Statement (.xrelPerform a0 a1) := rfl
theorem Laws.Encoding.fenceClear a0 : Laws.Encoding.Statement (.fenceClear a0) := rfl
theorem Laws.Encoding.nmGroup a0 a1 a2 : Laws.Encoding.Statement (.nmGroup a0 a1 a2) := rfl
theorem Laws.Encoding.nmCommandEnd a0 a1 : Laws.Encoding.Statement (.nmCommandEnd a0 a1) := rfl
theorem Laws.Encoding.shootdownAck a0 : Laws.Encoding.Statement (.shootdownAck a0) := rfl
theorem Laws.Encoding.fbufGetWrite a0 : Laws.Encoding.Statement (.fbufGetWrite a0) := rfl
theorem Laws.Encoding.contextLoadDone a0 : Laws.Encoding.Statement (.contextLoadDone a0) := rfl
theorem Laws.Encoding.contextLoadError a0 : Laws.Encoding.Statement (.contextLoadError a0) := rfl
theorem Laws.Encoding.partFrozen a0 a1 : Laws.Encoding.Statement (.partFrozen a0 a1) := rfl
theorem Laws.Encoding.saveDone a0 : Laws.Encoding.Statement (.saveDone a0) := rfl
theorem Laws.Encoding.saveFault a0 : Laws.Encoding.Statement (.saveFault a0) := rfl
theorem Laws.Encoding.restoreDone a0 : Laws.Encoding.Statement (.restoreDone a0) := rfl
theorem Laws.Encoding.restoreFault a0 : Laws.Encoding.Statement (.restoreFault a0) := rfl
theorem Laws.Encoding.scrubDone a0 : Laws.Encoding.Statement (.scrubDone a0) := rfl
theorem Laws.Encoding.resumeReplay a0 : Laws.Encoding.Statement (.resumeReplay a0) := rfl
theorem Laws.Encoding.quarantine a0 : Laws.Encoding.Statement (.quarantine a0) := rfl
theorem Laws.Encoding.dcntWindowClear : Laws.Encoding.Statement .dcntWindowClear := rfl
theorem Laws.Encoding.launchRecordRead a0 : Laws.Encoding.Statement (.launchRecordRead a0) := rfl
theorem Laws.Encoding.priorityAging a0 a1 : Laws.Encoding.Statement (.priorityAging a0 a1) := rfl
theorem Laws.Encoding.groupPlace a0 : Laws.Encoding.Statement (.groupPlace a0) := rfl
theorem Laws.Encoding.groupLoaded a0 : Laws.Encoding.Statement (.groupLoaded a0) := rfl
theorem Laws.Encoding.groupRetire a0 : Laws.Encoding.Statement (.groupRetire a0) := rfl
theorem Laws.Encoding.kernelComplete a0 : Laws.Encoding.Statement (.kernelComplete a0) := rfl
theorem Laws.Encoding.kernelAbort a0 : Laws.Encoding.Statement (.kernelAbort a0) := rfl
theorem Laws.Encoding.replayBegin a0 a1 : Laws.Encoding.Statement (.replayBegin a0 a1) := rfl
theorem Laws.Encoding.replayEnd a0 a1 : Laws.Encoding.Statement (.replayEnd a0 a1) := rfl
theorem Laws.Encoding.chunkOp a0 a1 : Laws.Encoding.Statement (.chunkOp a0 a1) := rfl
theorem Laws.Encoding.barrierArrival a0 a1 : Laws.Encoding.Statement (.barrierArrival a0 a1) := rfl
theorem Laws.Encoding.barrierMemberLeave a0 : Laws.Encoding.Statement (.barrierMemberLeave a0) := rfl
theorem Laws.Encoding.publishCommit a0 a1 : Laws.Encoding.Statement (.publishCommit a0 a1) := rfl
theorem Laws.Encoding.readerLeave a0 : Laws.Encoding.Statement (.readerLeave a0) := rfl
theorem Laws.Encoding.repartitionComplete : Laws.Encoding.Statement .repartitionComplete := rfl
theorem Laws.Encoding.slotRunGrant a0 : Laws.Encoding.Statement (.slotRunGrant a0) := rfl
theorem Laws.Encoding.trrRecordWrite a0 a1 : Laws.Encoding.Statement (.trrRecordWrite a0 a1) := rfl
theorem Laws.Encoding.voidRecordWrite a0 : Laws.Encoding.Statement (.voidRecordWrite a0) := rfl
theorem Laws.Encoding.samplingPoll a0 : Laws.Encoding.Statement (.samplingPoll a0) := rfl
theorem Laws.Encoding.samplingPhase a0 : Laws.Encoding.Statement (.samplingPhase a0) := rfl
theorem Laws.Encoding.kvCompactionCopy a0 : Laws.Encoding.Statement (.kvCompactionCopy a0) := rfl
theorem Laws.Encoding.kvCommitPoint a0 : Laws.Encoding.Statement (.kvCommitPoint a0) := rfl
theorem Laws.Encoding.sweeperJobAccept a0 a1 : Laws.Encoding.Statement (.sweeperJobAccept a0 a1) := rfl
theorem Laws.Encoding.sweeperDispatch : Laws.Encoding.Statement .sweeperDispatch := rfl
theorem Laws.Encoding.sweeperJobComplete a0 : Laws.Encoding.Statement (.sweeperJobComplete a0) := rfl
theorem Laws.Encoding.sweeperJobAbort a0 : Laws.Encoding.Statement (.sweeperJobAbort a0) := rfl
theorem Laws.Encoding.portEnable a0 : Laws.Encoding.Statement (.portEnable a0) := rfl
theorem Laws.Encoding.portDisable a0 : Laws.Encoding.Statement (.portDisable a0) := rfl
theorem Laws.Encoding.portRetrain a0 : Laws.Encoding.Statement (.portRetrain a0) := rfl
theorem Laws.Encoding.trainingUp a0 a1 : Laws.Encoding.Statement (.trainingUp a0 a1) := rfl
theorem Laws.Encoding.trainingDegraded a0 a1 : Laws.Encoding.Statement (.trainingDegraded a0 a1) := rfl
theorem Laws.Encoding.trainingFails a0 : Laws.Encoding.Statement (.trainingFails a0) := rfl
theorem Laws.Encoding.errorRateExceeded a0 : Laws.Encoding.Statement (.errorRateExceeded a0) := rfl
theorem Laws.Encoding.peerLost a0 : Laws.Encoding.Statement (.peerLost a0) := rfl
theorem Laws.Encoding.flitReceive a0 a1 a2 a3 a4 a5 a6 : Laws.Encoding.Statement (.flitReceive a0 a1 a2 a3 a4 a5 a6) := rfl
theorem Laws.Encoding.portStatusRead a0 : Laws.Encoding.Statement (.portStatusRead a0) := rfl
theorem Laws.Encoding.treeReserve a0 a1 a2 a3 a4 a5 : Laws.Encoding.Statement (.treeReserve a0 a1 a2 a3 a4 a5) := rfl
theorem Laws.Encoding.treeReserveAnswer a0 a1 a2 : Laws.Encoding.Statement (.treeReserveAnswer a0 a1 a2) := rfl
theorem Laws.Encoding.hostDoorbell a0 a1 a2 : Laws.Encoding.Statement (.hostDoorbell a0 a1 a2) := rfl
theorem Laws.Encoding.hostRegWrite a0 a1 a2 : Laws.Encoding.Statement (.hostRegWrite a0 a1 a2) := rfl
theorem Laws.Encoding.create a0 a1 : Laws.Encoding.Statement (.create a0 a1) := rfl
theorem Laws.Encoding.destroy a0 a1 : Laws.Encoding.Statement (.destroy a0 a1) := rfl
theorem Laws.Encoding.wvdef a0 a1 : Laws.Encoding.Statement (.wvdef a0 a1) := rfl
theorem Laws.Encoding.wvrem a0 a1 : Laws.Encoding.Statement (.wvrem a0 a1) := rfl
theorem Laws.Encoding.ring a0 a1 : Laws.Encoding.Statement (.ring a0 a1) := rfl
theorem Laws.Encoding.qcreate a0 a1 : Laws.Encoding.Statement (.qcreate a0 a1) := rfl
theorem Laws.Encoding.graphrec a0 a1 : Laws.Encoding.Statement (.graphrec a0 a1) := rfl
theorem Laws.Encoding.replay a0 a1 : Laws.Encoding.Statement (.replay a0 a1) := rfl
theorem Laws.Encoding.launch a0 a1 : Laws.Encoding.Statement (.launch a0 a1) := rfl
theorem Laws.Encoding.stream a0 a1 : Laws.Encoding.Statement (.stream a0 a1) := rfl
theorem Laws.Encoding.streamEnd a0 a1 a2 : Laws.Encoding.Statement (.streamEnd a0 a1 a2) := rfl
theorem Laws.Encoding.attestRequest : Laws.Encoding.Statement .attestRequest := rfl
theorem Laws.Encoding.errorLogGetWrite a0 : Laws.Encoding.Statement (.errorLogGetWrite a0) := rfl
theorem Laws.Encoding.powerMeasure a0 a1 : Laws.Encoding.Statement (.powerMeasure a0 a1) := rfl
theorem Laws.Encoding.thermalTrip : Laws.Encoding.Statement .thermalTrip := rfl
theorem Laws.Encoding.deviceReset : Laws.Encoding.Statement .deviceReset := rfl
theorem Laws.Encoding.bringupStep a0 : Laws.Encoding.Statement (.bringupStep a0) := rfl
theorem Laws.Encoding.lscaleWrite g src : Laws.Encoding.Statement (.lscaleWrite g src) := Laws.Encoding.of_slot ((.s (.swr g ⟨src, 0x020⟩))) rfl
theorem Laws.Encoding.partWrite g src : Laws.Encoding.Statement (.partWrite g src) := Laws.Encoding.of_slot ((.s (.swr g ⟨src, 0x101⟩))) rfl
theorem Laws.Encoding.adoptWrite g src : Laws.Encoding.Statement (.adoptWrite g src) := Laws.Encoding.of_slot ((.s (.swr g ⟨src, 0x100⟩))) rfl
theorem Laws.Encoding.kvpolWrite g src : Laws.Encoding.Statement (.kvpolWrite g src) := Laws.Encoding.of_slot ((.s (.swr g ⟨src, 0x102⟩))) rfl
theorem Laws.Encoding.lctlWrite g src : Laws.Encoding.Statement (.lctlWrite g src) := Laws.Encoding.of_slot ((.s (.swr g ⟨src, 0x010⟩))) rfl
theorem Laws.Encoding.lstatWrite g n src : Laws.Encoding.Statement (.lstatWrite g n src) := Laws.Encoding.of_slot ((.s (.swr g ⟨src, BitVec.ofNat 12 (0x011 + n % 6)⟩))) rfl
theorem Laws.Encoding.wmarkWrite g n src : Laws.Encoding.Statement (.wmarkWrite g n src) := Laws.Encoding.of_slot ((.s (.swr g ⟨src, BitVec.ofNat 12 (0x080 + n % 24)⟩))) rfl
theorem Laws.Encoding.cdiagRead g dst : Laws.Encoding.Statement (.cdiagRead g dst) := Laws.Encoding.of_slot ((.s (.srd g ⟨dst, 0x001⟩))) rfl
theorem Laws.Encoding.hostMemoryAccess a0 a1 a2 a3 : Laws.Encoding.Statement (.hostMemoryAccess a0 a1 a2 a3) := rfl
theorem Laws.Encoding.attestReportDone a0 : Laws.Encoding.Statement (.attestReportDone a0) := rfl
theorem Laws.Encoding.moveCopyDone : Laws.Encoding.Statement .moveCopyDone := rfl
theorem Laws.Encoding.copyNodeComplete a0 : Laws.Encoding.Statement (.copyNodeComplete a0) := rfl
theorem Laws.Encoding.nop : Laws.Encoding.Statement .nop := Laws.Encoding.of_slot (.nop) rfl
theorem Laws.Encoding.add g o : Laws.Encoding.Statement (.add g o) := Laws.Encoding.of_slot ((.s (.add g o))) rfl
theorem Laws.Encoding.sub g o : Laws.Encoding.Statement (.sub g o) := Laws.Encoding.of_slot ((.s (.sub g o))) rfl
theorem Laws.Encoding.addi g o : Laws.Encoding.Statement (.addi g o) := Laws.Encoding.of_slot ((.s (.addi g o))) rfl
theorem Laws.Encoding.mul g o : Laws.Encoding.Statement (.mul g o) := Laws.Encoding.of_slot ((.s (.mul g o))) rfl
theorem Laws.Encoding.mulh g o : Laws.Encoding.Statement (.mulh g o) := Laws.Encoding.of_slot ((.s (.mulh g o))) rfl
theorem Laws.Encoding.mulhn g o : Laws.Encoding.Statement (.mulhn g o) := Laws.Encoding.of_slot ((.s (.mulhn g o))) rfl
theorem Laws.Encoding.div g o : Laws.Encoding.Statement (.div g o) := Laws.Encoding.of_slot ((.s (.div g o))) rfl
theorem Laws.Encoding.divn g o : Laws.Encoding.Statement (.divn g o) := Laws.Encoding.of_slot ((.s (.divn g o))) rfl
theorem Laws.Encoding.rem g o : Laws.Encoding.Statement (.rem g o) := Laws.Encoding.of_slot ((.s (.rem g o))) rfl
theorem Laws.Encoding.remn g o : Laws.Encoding.Statement (.remn g o) := Laws.Encoding.of_slot ((.s (.remn g o))) rfl
theorem Laws.Encoding.and g o : Laws.Encoding.Statement (.and g o) := Laws.Encoding.of_slot ((.s (.and g o))) rfl
theorem Laws.Encoding.or g o : Laws.Encoding.Statement (.or g o) := Laws.Encoding.of_slot ((.s (.or g o))) rfl
theorem Laws.Encoding.xor g o : Laws.Encoding.Statement (.xor g o) := Laws.Encoding.of_slot ((.s (.xor g o))) rfl
theorem Laws.Encoding.andn g o : Laws.Encoding.Statement (.andn g o) := Laws.Encoding.of_slot ((.s (.andn g o))) rfl
theorem Laws.Encoding.shl g o : Laws.Encoding.Statement (.shl g o) := Laws.Encoding.of_slot ((.s (.shl g o))) rfl
theorem Laws.Encoding.shr g o : Laws.Encoding.Statement (.shr g o) := Laws.Encoding.of_slot ((.s (.shr g o))) rfl
theorem Laws.Encoding.sar g o : Laws.Encoding.Statement (.sar g o) := Laws.Encoding.of_slot ((.s (.sar g o))) rfl
theorem Laws.Encoding.shli g o : Laws.Encoding.Statement (.shli g o) := Laws.Encoding.of_slot ((.s (.shli g o))) rfl
theorem Laws.Encoding.shri g o : Laws.Encoding.Statement (.shri g o) := Laws.Encoding.of_slot ((.s (.shri g o))) rfl
theorem Laws.Encoding.sari g o : Laws.Encoding.Statement (.sari g o) := Laws.Encoding.of_slot ((.s (.sari g o))) rfl
theorem Laws.Encoding.rot g o : Laws.Encoding.Statement (.rot g o) := Laws.Encoding.of_slot ((.s (.rot g o))) rfl
theorem Laws.Encoding.clz g o : Laws.Encoding.Statement (.clz g o) := Laws.Encoding.of_slot ((.s (.clz g o))) rfl
theorem Laws.Encoding.popc g o : Laws.Encoding.Statement (.popc g o) := Laws.Encoding.of_slot ((.s (.popc g o))) rfl
theorem Laws.Encoding.min g o : Laws.Encoding.Statement (.min g o) := Laws.Encoding.of_slot ((.s (.min g o))) rfl
theorem Laws.Encoding.max g o : Laws.Encoding.Statement (.max g o) := Laws.Encoding.of_slot ((.s (.max g o))) rfl
theorem Laws.Encoding.minn g o : Laws.Encoding.Statement (.minn g o) := Laws.Encoding.of_slot ((.s (.minn g o))) rfl
theorem Laws.Encoding.maxn g o : Laws.Encoding.Statement (.maxn g o) := Laws.Encoding.of_slot ((.s (.maxn g o))) rfl
theorem Laws.Encoding.sel g o : Laws.Encoding.Statement (.sel g o) := Laws.Encoding.of_slot ((.s (.sel g o))) rfl
theorem Laws.Encoding.li g o : Laws.Encoding.Statement (.li g o) := Laws.Encoding.of_slot ((.s (.li g o))) rfl
theorem Laws.Encoding.lih g o : Laws.Encoding.Statement (.lih g o) := Laws.Encoding.of_slot ((.s (.lih g o))) rfl
theorem Laws.Encoding.aadd g o : Laws.Encoding.Statement (.aadd g o) := Laws.Encoding.of_slot ((.s (.aadd g o))) rfl
theorem Laws.Encoding.cmpEq g o : Laws.Encoding.Statement (.cmpEq g o) := Laws.Encoding.of_slot ((.s (.cmpEq g o))) rfl
theorem Laws.Encoding.cmpNe g o : Laws.Encoding.Statement (.cmpNe g o) := Laws.Encoding.of_slot ((.s (.cmpNe g o))) rfl
theorem Laws.Encoding.cmpLt g o : Laws.Encoding.Statement (.cmpLt g o) := Laws.Encoding.of_slot ((.s (.cmpLt g o))) rfl
theorem Laws.Encoding.cmpLe g o : Laws.Encoding.Statement (.cmpLe g o) := Laws.Encoding.of_slot ((.s (.cmpLe g o))) rfl
theorem Laws.Encoding.cmpGt g o : Laws.Encoding.Statement (.cmpGt g o) := Laws.Encoding.of_slot ((.s (.cmpGt g o))) rfl
theorem Laws.Encoding.cmpGe g o : Laws.Encoding.Statement (.cmpGe g o) := Laws.Encoding.of_slot ((.s (.cmpGe g o))) rfl
theorem Laws.Encoding.cmpLtn g o : Laws.Encoding.Statement (.cmpLtn g o) := Laws.Encoding.of_slot ((.s (.cmpLtn g o))) rfl
theorem Laws.Encoding.cmpLen g o : Laws.Encoding.Statement (.cmpLen g o) := Laws.Encoding.of_slot ((.s (.cmpLen g o))) rfl
theorem Laws.Encoding.cmpGtn g o : Laws.Encoding.Statement (.cmpGtn g o) := Laws.Encoding.of_slot ((.s (.cmpGtn g o))) rfl
theorem Laws.Encoding.cmpGen g o : Laws.Encoding.Statement (.cmpGen g o) := Laws.Encoding.of_slot ((.s (.cmpGen g o))) rfl
theorem Laws.Encoding.pand g o : Laws.Encoding.Statement (.pand g o) := Laws.Encoding.of_slot ((.s (.pand g o))) rfl
theorem Laws.Encoding.por g o : Laws.Encoding.Statement (.por g o) := Laws.Encoding.of_slot ((.s (.por g o))) rfl
theorem Laws.Encoding.pxor g o : Laws.Encoding.Statement (.pxor g o) := Laws.Encoding.of_slot ((.s (.pxor g o))) rfl
theorem Laws.Encoding.pnot g o : Laws.Encoding.Statement (.pnot g o) := Laws.Encoding.of_slot ((.s (.pnot g o))) rfl
theorem Laws.Encoding.pmov g o : Laws.Encoding.Statement (.pmov g o) := Laws.Encoding.of_slot ((.s (.pmov g o))) rfl
theorem Laws.Encoding.amovAG g o : Laws.Encoding.Statement (.amovAG g o) := Laws.Encoding.of_slot ((.s (.amovAG g o))) rfl
theorem Laws.Encoding.amovGA g o : Laws.Encoding.Statement (.amovGA g o) := Laws.Encoding.of_slot ((.s (.amovGA g o))) rfl
theorem Laws.Encoding.amovAA g o : Laws.Encoding.Statement (.amovAA g o) := Laws.Encoding.of_slot ((.s (.amovAA g o))) rfl
theorem Laws.Encoding.ldI8 g o : Laws.Encoding.Statement (.ldI8 g o) := Laws.Encoding.of_slot ((.s (.ldI8 g o))) rfl
theorem Laws.Encoding.ldN8 g o : Laws.Encoding.Statement (.ldN8 g o) := Laws.Encoding.of_slot ((.s (.ldN8 g o))) rfl
theorem Laws.Encoding.ldI16 g o : Laws.Encoding.Statement (.ldI16 g o) := Laws.Encoding.of_slot ((.s (.ldI16 g o))) rfl
theorem Laws.Encoding.ldN16 g o : Laws.Encoding.Statement (.ldN16 g o) := Laws.Encoding.of_slot ((.s (.ldN16 g o))) rfl
theorem Laws.Encoding.ldI32 g o : Laws.Encoding.Statement (.ldI32 g o) := Laws.Encoding.of_slot ((.s (.ldI32 g o))) rfl
theorem Laws.Encoding.ldN32 g o : Laws.Encoding.Statement (.ldN32 g o) := Laws.Encoding.of_slot ((.s (.ldN32 g o))) rfl
theorem Laws.Encoding.ld64 g o : Laws.Encoding.Statement (.ld64 g o) := Laws.Encoding.of_slot ((.s (.ld64 g o))) rfl
theorem Laws.Encoding.astr g o : Laws.Encoding.Statement (.astr g o) := Laws.Encoding.of_slot ((.s (.astr g o))) rfl
theorem Laws.Encoding.st8 g o : Laws.Encoding.Statement (.st8 g o) := Laws.Encoding.of_slot ((.s (.st8 g o))) rfl
theorem Laws.Encoding.st16 g o : Laws.Encoding.Statement (.st16 g o) := Laws.Encoding.of_slot ((.s (.st16 g o))) rfl
theorem Laws.Encoding.st32 g o : Laws.Encoding.Statement (.st32 g o) := Laws.Encoding.of_slot ((.s (.st32 g o))) rfl
theorem Laws.Encoding.st64 g o : Laws.Encoding.Statement (.st64 g o) := Laws.Encoding.of_slot ((.s (.st64 g o))) rfl
theorem Laws.Encoding.br g o : Laws.Encoding.Statement (.br g o) := Laws.Encoding.of_slot ((.s (.br g o))) rfl
theorem Laws.Encoding.bt o : Laws.Encoding.Statement (.bt o) := Laws.Encoding.of_slot ((.s (.bt o))) rfl
theorem Laws.Encoding.movb g o : Laws.Encoding.Statement (.movb g o) := Laws.Encoding.of_slot ((.s (.movb g o))) rfl
theorem Laws.Encoding.call g o : Laws.Encoding.Statement (.call g o) := Laws.Encoding.of_slot ((.s (.call g o))) rfl
theorem Laws.Encoding.ret g o : Laws.Encoding.Statement (.ret g o) := Laws.Encoding.of_slot ((.s (.ret g o))) rfl
theorem Laws.Encoding.loop g o : Laws.Encoding.Statement (.loop g o) := Laws.Encoding.of_slot ((.s (.loop g o))) rfl
theorem Laws.Encoding.lbrk g : Laws.Encoding.Statement (.lbrk g) := Laws.Encoding.of_slot ((.s (.lbrk g))) rfl
theorem Laws.Encoding.rotb g o : Laws.Encoding.Statement (.rotb g o) := Laws.Encoding.of_slot ((.s (.rotb g o))) rfl
theorem Laws.Encoding.stage g o : Laws.Encoding.Statement (.stage g o) := Laws.Encoding.of_slot ((.s (.stage g o))) rfl
theorem Laws.Encoding.halt g : Laws.Encoding.Statement (.halt g) := Laws.Encoding.of_slot ((.s (.halt g))) rfl
theorem Laws.Encoding.quiet g o : Laws.Encoding.Statement (.quiet g o) := Laws.Encoding.of_slot ((.s (.quiet g o))) rfl
theorem Laws.Encoding.lendb g o : Laws.Encoding.Statement (.lendb g o) := Laws.Encoding.of_slot ((.s (.lendb g o))) rfl
theorem Laws.Encoding.retb g o : Laws.Encoding.Statement (.retb g o) := Laws.Encoding.of_slot ((.s (.retb g o))) rfl
theorem Laws.Encoding.srd g o : Laws.Encoding.Statement (.srd g o) := Laws.Encoding.of_slot ((.s (.srd g o))) rfl
theorem Laws.Encoding.swr g o : Laws.Encoding.Statement (.swr g o) := Laws.Encoding.of_slot ((.s (.swr g o))) rfl
theorem Laws.Encoding.trap g o : Laws.Encoding.Statement (.trap g o) := Laws.Encoding.of_slot ((.s (.trap g o))) rfl
theorem Laws.Encoding.trapen g : Laws.Encoding.Statement (.trapen g) := Laws.Encoding.of_slot ((.s (.trapen g))) rfl
theorem Laws.Encoding.tret g : Laws.Encoding.Statement (.tret g) := Laws.Encoding.of_slot ((.s (.tret g))) rfl
theorem Laws.Encoding.ctxstat g o : Laws.Encoding.Statement (.ctxstat g o) := Laws.Encoding.of_slot ((.s (.ctxstat g o))) rfl
theorem Laws.Encoding.ctxfreeze g o : Laws.Encoding.Statement (.ctxfreeze g o) := Laws.Encoding.of_slot ((.s (.ctxfreeze g o))) rfl
theorem Laws.Encoding.ctxfreezeSave g o : Laws.Encoding.Statement (.ctxfreezeSave g o) := Laws.Encoding.of_slot ((.s (.ctxfreezeSave g o))) rfl
theorem Laws.Encoding.ctxsave g o : Laws.Encoding.Statement (.ctxsave g o) := Laws.Encoding.of_slot ((.s (.ctxsave g o))) rfl
theorem Laws.Encoding.cutQuery g o : Laws.Encoding.Statement (.cutQuery g o) := Laws.Encoding.of_slot ((.s (.cutQuery g o))) rfl
theorem Laws.Encoding.cutStop g o : Laws.Encoding.Statement (.cutStop g o) := Laws.Encoding.of_slot ((.s (.cutStop g o))) rfl
theorem Laws.Encoding.ctxresume g o : Laws.Encoding.Statement (.ctxresume g o) := Laws.Encoding.of_slot ((.s (.ctxresume g o))) rfl
theorem Laws.Encoding.ctxrestoreResume g o : Laws.Encoding.Statement (.ctxrestoreResume g o) := Laws.Encoding.of_slot ((.s (.ctxrestoreResume g o))) rfl
theorem Laws.Encoding.ctxrestore g o : Laws.Encoding.Statement (.ctxrestore g o) := Laws.Encoding.of_slot ((.s (.ctxrestore g o))) rfl
theorem Laws.Encoding.wqpush g o : Laws.Encoding.Statement (.wqpush g o) := Laws.Encoding.of_slot ((.s (.wqpush g o))) rfl
theorem Laws.Encoding.wqpop g o : Laws.Encoding.Statement (.wqpop g o) := Laws.Encoding.of_slot ((.s (.wqpop g o))) rfl
theorem Laws.Encoding.wqclose g o : Laws.Encoding.Statement (.wqclose g o) := Laws.Encoding.of_slot ((.s (.wqclose g o))) rfl
theorem Laws.Encoding.wqreopen g o : Laws.Encoding.Statement (.wqreopen g o) := Laws.Encoding.of_slot ((.s (.wqreopen g o))) rfl
theorem Laws.Encoding.wqlen g o : Laws.Encoding.Statement (.wqlen g o) := Laws.Encoding.of_slot ((.s (.wqlen g o))) rfl
theorem Laws.Encoding.gpset g o : Laws.Encoding.Statement (.gpset g o) := Laws.Encoding.of_slot ((.s (.gpset g o))) rfl
theorem Laws.Encoding.gpget g o : Laws.Encoding.Statement (.gpget g o) := Laws.Encoding.of_slot ((.s (.gpget g o))) rfl
theorem Laws.Encoding.glaunch g o : Laws.Encoding.Statement (.glaunch g o) := Laws.Encoding.of_slot ((.s (.glaunch g o))) rfl
theorem Laws.Encoding.kdone g o : Laws.Encoding.Statement (.kdone g o) := Laws.Encoding.of_slot ((.s (.kdone g o))) rfl
theorem Laws.Encoding.grpid g o : Laws.Encoding.Statement (.grpid g o) := Laws.Encoding.of_slot ((.s (.grpid g o))) rfl
theorem Laws.Encoding.grpsize g o : Laws.Encoding.Statement (.grpsize g o) := Laws.Encoding.of_slot ((.s (.grpsize g o))) rfl
theorem Laws.Encoding.binitReset g o : Laws.Encoding.Statement (.binitReset g o) := Laws.Encoding.of_slot ((.s (.binitReset g o))) rfl
theorem Laws.Encoding.binitQuery g o : Laws.Encoding.Statement (.binitQuery g o) := Laws.Encoding.of_slot ((.s (.binitQuery g o))) rfl
theorem Laws.Encoding.barrive g o : Laws.Encoding.Statement (.barrive g o) := Laws.Encoding.of_slot ((.s (.barrive g o))) rfl
theorem Laws.Encoding.bwait g o : Laws.Encoding.Statement (.bwait g o) := Laws.Encoding.of_slot ((.s (.bwait g o))) rfl
theorem Laws.Encoding.btry g o : Laws.Encoding.Statement (.btry g o) := Laws.Encoding.of_slot ((.s (.btry g o))) rfl
theorem Laws.Encoding.wvbind g o : Laws.Encoding.Statement (.wvbind g o) := Laws.Encoding.of_slot ((.s (.wvbind g o))) rfl
theorem Laws.Encoding.wvunbind g o : Laws.Encoding.Statement (.wvunbind g o) := Laws.Encoding.of_slot ((.s (.wvunbind g o))) rfl
theorem Laws.Encoding.wvslot g o : Laws.Encoding.Statement (.wvslot g o) := Laws.Encoding.of_slot ((.s (.wvslot g o))) rfl
theorem Laws.Encoding.wvpublish g o : Laws.Encoding.Statement (.wvpublish g o) := Laws.Encoding.of_slot ((.s (.wvpublish g o))) rfl
theorem Laws.Encoding.wvread g o : Laws.Encoding.Statement (.wvread g o) := Laws.Encoding.of_slot ((.s (.wvread g o))) rfl
theorem Laws.Encoding.confx g o : Laws.Encoding.Statement (.confx g o) := Laws.Encoding.of_slot ((.s (.confx g o))) rfl
theorem Laws.Encoding.kvcommit g o : Laws.Encoding.Statement (.kvcommit g o) := Laws.Encoding.of_slot ((.s (.kvcommit g o))) rfl
theorem Laws.Encoding.kvmodeSet g o : Laws.Encoding.Statement (.kvmodeSet g o) := Laws.Encoding.of_slot ((.s (.kvmodeSet g o))) rfl
theorem Laws.Encoding.kvmodeGet g o : Laws.Encoding.Statement (.kvmodeGet g o) := Laws.Encoding.of_slot ((.s (.kvmodeGet g o))) rfl
theorem Laws.Encoding.kvmodeSpec g o : Laws.Encoding.Statement (.kvmodeSpec g o) := Laws.Encoding.of_slot ((.s (.kvmodeSpec g o))) rfl
theorem Laws.Encoding.kvmodeQuery g o : Laws.Encoding.Statement (.kvmodeQuery g o) := Laws.Encoding.of_slot ((.s (.kvmodeQuery g o))) rfl
theorem Laws.Encoding.lktree g o : Laws.Encoding.Statement (.lktree g o) := Laws.Encoding.of_slot ((.s (.lktree g o))) rfl
theorem Laws.Encoding.lkfree g o : Laws.Encoding.Statement (.lkfree g o) := Laws.Encoding.of_slot ((.s (.lkfree g o))) rfl
theorem Laws.Encoding.lkfreeCheck g o : Laws.Encoding.Statement (.lkfreeCheck g o) := Laws.Encoding.of_slot ((.s (.lkfreeCheck g o))) rfl
theorem Laws.Encoding.pgprobe g o : Laws.Encoding.Statement (.pgprobe g o) := Laws.Encoding.of_slot ((.s (.pgprobe g o))) rfl
theorem Laws.Encoding.pginvUpdate g o : Laws.Encoding.Statement (.pginvUpdate g o) := Laws.Encoding.of_slot ((.s (.pginvUpdate g o))) rfl
theorem Laws.Encoding.pginvMove g o : Laws.Encoding.Statement (.pginvMove g o) := Laws.Encoding.of_slot ((.s (.pginvMove g o))) rfl
theorem Laws.Encoding.vaddF32 g rm o : Laws.Encoding.Statement (.vaddF32 g rm o) := Laws.Encoding.of_slot ((.v (.vaddF32 g rm o))) rfl
theorem Laws.Encoding.vsubF32 g rm o : Laws.Encoding.Statement (.vsubF32 g rm o) := Laws.Encoding.of_slot ((.v (.vsubF32 g rm o))) rfl
theorem Laws.Encoding.vmulF32 g rm o : Laws.Encoding.Statement (.vmulF32 g rm o) := Laws.Encoding.of_slot ((.v (.vmulF32 g rm o))) rfl
theorem Laws.Encoding.vfmaF32 g rm o : Laws.Encoding.Statement (.vfmaF32 g rm o) := Laws.Encoding.of_slot ((.v (.vfmaF32 g rm o))) rfl
theorem Laws.Encoding.vfmsF32 g rm o : Laws.Encoding.Statement (.vfmsF32 g rm o) := Laws.Encoding.of_slot ((.v (.vfmsF32 g rm o))) rfl
theorem Laws.Encoding.vfnmaF32 g rm o : Laws.Encoding.Statement (.vfnmaF32 g rm o) := Laws.Encoding.of_slot ((.v (.vfnmaF32 g rm o))) rfl
theorem Laws.Encoding.vminF32 g rm o : Laws.Encoding.Statement (.vminF32 g rm o) := Laws.Encoding.of_slot ((.v (.vminF32 g rm o))) rfl
theorem Laws.Encoding.vmaxF32 g rm o : Laws.Encoding.Statement (.vmaxF32 g rm o) := Laws.Encoding.of_slot ((.v (.vmaxF32 g rm o))) rfl
theorem Laws.Encoding.vaddBf16 g rm o : Laws.Encoding.Statement (.vaddBf16 g rm o) := Laws.Encoding.of_slot ((.v (.vaddBf16 g rm o))) rfl
theorem Laws.Encoding.vsubBf16 g rm o : Laws.Encoding.Statement (.vsubBf16 g rm o) := Laws.Encoding.of_slot ((.v (.vsubBf16 g rm o))) rfl
theorem Laws.Encoding.vmulBf16 g rm o : Laws.Encoding.Statement (.vmulBf16 g rm o) := Laws.Encoding.of_slot ((.v (.vmulBf16 g rm o))) rfl
theorem Laws.Encoding.vfmaBf16 g rm o : Laws.Encoding.Statement (.vfmaBf16 g rm o) := Laws.Encoding.of_slot ((.v (.vfmaBf16 g rm o))) rfl
theorem Laws.Encoding.vfmsBf16 g rm o : Laws.Encoding.Statement (.vfmsBf16 g rm o) := Laws.Encoding.of_slot ((.v (.vfmsBf16 g rm o))) rfl
theorem Laws.Encoding.vfnmaBf16 g rm o : Laws.Encoding.Statement (.vfnmaBf16 g rm o) := Laws.Encoding.of_slot ((.v (.vfnmaBf16 g rm o))) rfl
theorem Laws.Encoding.vminBf16 g rm o : Laws.Encoding.Statement (.vminBf16 g rm o) := Laws.Encoding.of_slot ((.v (.vminBf16 g rm o))) rfl
theorem Laws.Encoding.vmaxBf16 g rm o : Laws.Encoding.Statement (.vmaxBf16 g rm o) := Laws.Encoding.of_slot ((.v (.vmaxBf16 g rm o))) rfl
theorem Laws.Encoding.vaddF16 g rm o : Laws.Encoding.Statement (.vaddF16 g rm o) := Laws.Encoding.of_slot ((.v (.vaddF16 g rm o))) rfl
theorem Laws.Encoding.vsubF16 g rm o : Laws.Encoding.Statement (.vsubF16 g rm o) := Laws.Encoding.of_slot ((.v (.vsubF16 g rm o))) rfl
theorem Laws.Encoding.vmulF16 g rm o : Laws.Encoding.Statement (.vmulF16 g rm o) := Laws.Encoding.of_slot ((.v (.vmulF16 g rm o))) rfl
theorem Laws.Encoding.vfmaF16 g rm o : Laws.Encoding.Statement (.vfmaF16 g rm o) := Laws.Encoding.of_slot ((.v (.vfmaF16 g rm o))) rfl
theorem Laws.Encoding.vfmsF16 g rm o : Laws.Encoding.Statement (.vfmsF16 g rm o) := Laws.Encoding.of_slot ((.v (.vfmsF16 g rm o))) rfl
theorem Laws.Encoding.vfnmaF16 g rm o : Laws.Encoding.Statement (.vfnmaF16 g rm o) := Laws.Encoding.of_slot ((.v (.vfnmaF16 g rm o))) rfl
theorem Laws.Encoding.vminF16 g rm o : Laws.Encoding.Statement (.vminF16 g rm o) := Laws.Encoding.of_slot ((.v (.vminF16 g rm o))) rfl
theorem Laws.Encoding.vmaxF16 g rm o : Laws.Encoding.Statement (.vmaxF16 g rm o) := Laws.Encoding.of_slot ((.v (.vmaxF16 g rm o))) rfl
theorem Laws.Encoding.vabsF32 g o : Laws.Encoding.Statement (.vabsF32 g o) := Laws.Encoding.of_slot ((.v (.vabsF32 g o))) rfl
theorem Laws.Encoding.vabsH g o : Laws.Encoding.Statement (.vabsH g o) := Laws.Encoding.of_slot ((.v (.vabsH g o))) rfl
theorem Laws.Encoding.vnegF32 g o : Laws.Encoding.Statement (.vnegF32 g o) := Laws.Encoding.of_slot ((.v (.vnegF32 g o))) rfl
theorem Laws.Encoding.vnegH g o : Laws.Encoding.Statement (.vnegH g o) := Laws.Encoding.of_slot ((.v (.vnegH g o))) rfl
theorem Laws.Encoding.vclassF32 g o : Laws.Encoding.Statement (.vclassF32 g o) := Laws.Encoding.of_slot ((.v (.vclassF32 g o))) rfl
theorem Laws.Encoding.vclassBf16 g o : Laws.Encoding.Statement (.vclassBf16 g o) := Laws.Encoding.of_slot ((.v (.vclassBf16 g o))) rfl
theorem Laws.Encoding.vclassF16 g o : Laws.Encoding.Statement (.vclassF16 g o) := Laws.Encoding.of_slot ((.v (.vclassF16 g o))) rfl
theorem Laws.Encoding.vfinF32 g o : Laws.Encoding.Statement (.vfinF32 g o) := Laws.Encoding.of_slot ((.v (.vfinF32 g o))) rfl
theorem Laws.Encoding.vfinBf16 g o : Laws.Encoding.Statement (.vfinBf16 g o) := Laws.Encoding.of_slot ((.v (.vfinBf16 g o))) rfl
theorem Laws.Encoding.vfinF16 g o : Laws.Encoding.Statement (.vfinF16 g o) := Laws.Encoding.of_slot ((.v (.vfinF16 g o))) rfl
theorem Laws.Encoding.vfinNfsF32 g o : Laws.Encoding.Statement (.vfinNfsF32 g o) := Laws.Encoding.of_slot ((.v (.vfinNfsF32 g o))) rfl
theorem Laws.Encoding.vfinNfsBf16 g o : Laws.Encoding.Statement (.vfinNfsBf16 g o) := Laws.Encoding.of_slot ((.v (.vfinNfsBf16 g o))) rfl
theorem Laws.Encoding.vfinNfsF16 g o : Laws.Encoding.Statement (.vfinNfsF16 g o) := Laws.Encoding.of_slot ((.v (.vfinNfsF16 g o))) rfl
theorem Laws.Encoding.vdivF32 g rm o : Laws.Encoding.Statement (.vdivF32 g rm o) := Laws.Encoding.of_slot ((.v (.vdivF32 g rm o))) rfl
theorem Laws.Encoding.vrcpF32 g rm o : Laws.Encoding.Statement (.vrcpF32 g rm o) := Laws.Encoding.of_slot ((.v (.vrcpF32 g rm o))) rfl
theorem Laws.Encoding.vrsqF32 g rm o : Laws.Encoding.Statement (.vrsqF32 g rm o) := Laws.Encoding.of_slot ((.v (.vrsqF32 g rm o))) rfl
theorem Laws.Encoding.vsqrtF32 g rm o : Laws.Encoding.Statement (.vsqrtF32 g rm o) := Laws.Encoding.of_slot ((.v (.vsqrtF32 g rm o))) rfl
theorem Laws.Encoding.vexp2F32 g rm o : Laws.Encoding.Statement (.vexp2F32 g rm o) := Laws.Encoding.of_slot ((.v (.vexp2F32 g rm o))) rfl
theorem Laws.Encoding.vlog2F32 g rm o : Laws.Encoding.Statement (.vlog2F32 g rm o) := Laws.Encoding.of_slot ((.v (.vlog2F32 g rm o))) rfl
theorem Laws.Encoding.vtanhF32 g rm o : Laws.Encoding.Statement (.vtanhF32 g rm o) := Laws.Encoding.of_slot ((.v (.vtanhF32 g rm o))) rfl
theorem Laws.Encoding.vdivBf16 g rm o : Laws.Encoding.Statement (.vdivBf16 g rm o) := Laws.Encoding.of_slot ((.v (.vdivBf16 g rm o))) rfl
theorem Laws.Encoding.vrcpBf16 g rm o : Laws.Encoding.Statement (.vrcpBf16 g rm o) := Laws.Encoding.of_slot ((.v (.vrcpBf16 g rm o))) rfl
theorem Laws.Encoding.vrsqBf16 g rm o : Laws.Encoding.Statement (.vrsqBf16 g rm o) := Laws.Encoding.of_slot ((.v (.vrsqBf16 g rm o))) rfl
theorem Laws.Encoding.vsqrtBf16 g rm o : Laws.Encoding.Statement (.vsqrtBf16 g rm o) := Laws.Encoding.of_slot ((.v (.vsqrtBf16 g rm o))) rfl
theorem Laws.Encoding.vexp2Bf16 g rm o : Laws.Encoding.Statement (.vexp2Bf16 g rm o) := Laws.Encoding.of_slot ((.v (.vexp2Bf16 g rm o))) rfl
theorem Laws.Encoding.vlog2Bf16 g rm o : Laws.Encoding.Statement (.vlog2Bf16 g rm o) := Laws.Encoding.of_slot ((.v (.vlog2Bf16 g rm o))) rfl
theorem Laws.Encoding.vtanhBf16 g rm o : Laws.Encoding.Statement (.vtanhBf16 g rm o) := Laws.Encoding.of_slot ((.v (.vtanhBf16 g rm o))) rfl
theorem Laws.Encoding.viadd32 g o : Laws.Encoding.Statement (.viadd32 g o) := Laws.Encoding.of_slot ((.v (.viadd32 g o))) rfl
theorem Laws.Encoding.viadd16 g o : Laws.Encoding.Statement (.viadd16 g o) := Laws.Encoding.of_slot ((.v (.viadd16 g o))) rfl
theorem Laws.Encoding.viadd8 g o : Laws.Encoding.Statement (.viadd8 g o) := Laws.Encoding.of_slot ((.v (.viadd8 g o))) rfl
theorem Laws.Encoding.visub32 g o : Laws.Encoding.Statement (.visub32 g o) := Laws.Encoding.of_slot ((.v (.visub32 g o))) rfl
theorem Laws.Encoding.visub16 g o : Laws.Encoding.Statement (.visub16 g o) := Laws.Encoding.of_slot ((.v (.visub16 g o))) rfl
theorem Laws.Encoding.visub8 g o : Laws.Encoding.Statement (.visub8 g o) := Laws.Encoding.of_slot ((.v (.visub8 g o))) rfl
theorem Laws.Encoding.vimul32 g o : Laws.Encoding.Statement (.vimul32 g o) := Laws.Encoding.of_slot ((.v (.vimul32 g o))) rfl
theorem Laws.Encoding.vimul16 g o : Laws.Encoding.Statement (.vimul16 g o) := Laws.Encoding.of_slot ((.v (.vimul16 g o))) rfl
theorem Laws.Encoding.vimulhI32 g o : Laws.Encoding.Statement (.vimulhI32 g o) := Laws.Encoding.of_slot ((.v (.vimulhI32 g o))) rfl
theorem Laws.Encoding.vimulhN32 g o : Laws.Encoding.Statement (.vimulhN32 g o) := Laws.Encoding.of_slot ((.v (.vimulhN32 g o))) rfl
theorem Laws.Encoding.viminI32 g o : Laws.Encoding.Statement (.viminI32 g o) := Laws.Encoding.of_slot ((.v (.viminI32 g o))) rfl
theorem Laws.Encoding.viminN32 g o : Laws.Encoding.Statement (.viminN32 g o) := Laws.Encoding.of_slot ((.v (.viminN32 g o))) rfl
theorem Laws.Encoding.viminI16 g o : Laws.Encoding.Statement (.viminI16 g o) := Laws.Encoding.of_slot ((.v (.viminI16 g o))) rfl
theorem Laws.Encoding.viminI8 g o : Laws.Encoding.Statement (.viminI8 g o) := Laws.Encoding.of_slot ((.v (.viminI8 g o))) rfl
theorem Laws.Encoding.vimaxI32 g o : Laws.Encoding.Statement (.vimaxI32 g o) := Laws.Encoding.of_slot ((.v (.vimaxI32 g o))) rfl
theorem Laws.Encoding.vimaxN32 g o : Laws.Encoding.Statement (.vimaxN32 g o) := Laws.Encoding.of_slot ((.v (.vimaxN32 g o))) rfl
theorem Laws.Encoding.vimaxI16 g o : Laws.Encoding.Statement (.vimaxI16 g o) := Laws.Encoding.of_slot ((.v (.vimaxI16 g o))) rfl
theorem Laws.Encoding.vimaxI8 g o : Laws.Encoding.Statement (.vimaxI8 g o) := Laws.Encoding.of_slot ((.v (.vimaxI8 g o))) rfl
theorem Laws.Encoding.vshl32 g o : Laws.Encoding.Statement (.vshl32 g o) := Laws.Encoding.of_slot ((.v (.vshl32 g o))) rfl
theorem Laws.Encoding.vshl16 g o : Laws.Encoding.Statement (.vshl16 g o) := Laws.Encoding.of_slot ((.v (.vshl16 g o))) rfl
theorem Laws.Encoding.vshr32 g o : Laws.Encoding.Statement (.vshr32 g o) := Laws.Encoding.of_slot ((.v (.vshr32 g o))) rfl
theorem Laws.Encoding.vshr16 g o : Laws.Encoding.Statement (.vshr16 g o) := Laws.Encoding.of_slot ((.v (.vshr16 g o))) rfl
theorem Laws.Encoding.vsar32 g o : Laws.Encoding.Statement (.vsar32 g o) := Laws.Encoding.of_slot ((.v (.vsar32 g o))) rfl
theorem Laws.Encoding.vsar16 g o : Laws.Encoding.Statement (.vsar16 g o) := Laws.Encoding.of_slot ((.v (.vsar16 g o))) rfl
theorem Laws.Encoding.vand g o : Laws.Encoding.Statement (.vand g o) := Laws.Encoding.of_slot ((.v (.vand g o))) rfl
theorem Laws.Encoding.vor g o : Laws.Encoding.Statement (.vor g o) := Laws.Encoding.of_slot ((.v (.vor g o))) rfl
theorem Laws.Encoding.vxor g o : Laws.Encoding.Statement (.vxor g o) := Laws.Encoding.of_slot ((.v (.vxor g o))) rfl
theorem Laws.Encoding.vmsel g o : Laws.Encoding.Statement (.vmsel g o) := Laws.Encoding.of_slot ((.v (.vmsel g o))) rfl
theorem Laws.Encoding.vcmpI32 g o : Laws.Encoding.Statement (.vcmpI32 g o) := Laws.Encoding.of_slot ((.v (.vcmpI32 g o))) rfl
theorem Laws.Encoding.vcmpN32 g o : Laws.Encoding.Statement (.vcmpN32 g o) := Laws.Encoding.of_slot ((.v (.vcmpN32 g o))) rfl
theorem Laws.Encoding.vcmpF32 g o : Laws.Encoding.Statement (.vcmpF32 g o) := Laws.Encoding.of_slot ((.v (.vcmpF32 g o))) rfl
theorem Laws.Encoding.vcmpBf16 g o : Laws.Encoding.Statement (.vcmpBf16 g o) := Laws.Encoding.of_slot ((.v (.vcmpBf16 g o))) rfl
theorem Laws.Encoding.vcvtF32 g rm o : Laws.Encoding.Statement (.vcvtF32 g rm o) := Laws.Encoding.of_slot ((.v (.vcvtF32 g rm o))) rfl
theorem Laws.Encoding.vcvtBf16 g rm o : Laws.Encoding.Statement (.vcvtBf16 g rm o) := Laws.Encoding.of_slot ((.v (.vcvtBf16 g rm o))) rfl
theorem Laws.Encoding.vcvtF16 g rm o : Laws.Encoding.Statement (.vcvtF16 g rm o) := Laws.Encoding.of_slot ((.v (.vcvtF16 g rm o))) rfl
theorem Laws.Encoding.vcvtI8 g rm o : Laws.Encoding.Statement (.vcvtI8 g rm o) := Laws.Encoding.of_slot ((.v (.vcvtI8 g rm o))) rfl
theorem Laws.Encoding.vcvtN8 g rm o : Laws.Encoding.Statement (.vcvtN8 g rm o) := Laws.Encoding.of_slot ((.v (.vcvtN8 g rm o))) rfl
theorem Laws.Encoding.vcvtI16 g rm o : Laws.Encoding.Statement (.vcvtI16 g rm o) := Laws.Encoding.of_slot ((.v (.vcvtI16 g rm o))) rfl
theorem Laws.Encoding.vcvtN16 g rm o : Laws.Encoding.Statement (.vcvtN16 g rm o) := Laws.Encoding.of_slot ((.v (.vcvtN16 g rm o))) rfl
theorem Laws.Encoding.vcvtI32 g rm o : Laws.Encoding.Statement (.vcvtI32 g rm o) := Laws.Encoding.of_slot ((.v (.vcvtI32 g rm o))) rfl
theorem Laws.Encoding.vcvtN32 g rm o : Laws.Encoding.Statement (.vcvtN32 g rm o) := Laws.Encoding.of_slot ((.v (.vcvtN32 g rm o))) rfl
theorem Laws.Encoding.vsrnd g o : Laws.Encoding.Statement (.vsrnd g o) := Laws.Encoding.of_slot ((.v (.vsrnd g o))) rfl
theorem Laws.Encoding.vplsplit g o : Laws.Encoding.Statement (.vplsplit g o) := Laws.Encoding.of_slot ((.v (.vplsplit g o))) rfl
theorem Laws.Encoding.vpljoin g o : Laws.Encoding.Statement (.vpljoin g o) := Laws.Encoding.of_slot ((.v (.vpljoin g o))) rfl
theorem Laws.Encoding.voutapply g o : Laws.Encoding.Statement (.voutapply g o) := Laws.Encoding.of_slot ((.v (.voutapply g o))) rfl
theorem Laws.Encoding.vrsumF32 g rm o : Laws.Encoding.Statement (.vrsumF32 g rm o) := Laws.Encoding.of_slot ((.v (.vrsumF32 g rm o))) rfl
theorem Laws.Encoding.vrsumBf16 g rm o : Laws.Encoding.Statement (.vrsumBf16 g rm o) := Laws.Encoding.of_slot ((.v (.vrsumBf16 g rm o))) rfl
theorem Laws.Encoding.vrsumI32 g rm o : Laws.Encoding.Statement (.vrsumI32 g rm o) := Laws.Encoding.of_slot ((.v (.vrsumI32 g rm o))) rfl
theorem Laws.Encoding.vrmaxF32 g rm o : Laws.Encoding.Statement (.vrmaxF32 g rm o) := Laws.Encoding.of_slot ((.v (.vrmaxF32 g rm o))) rfl
theorem Laws.Encoding.vrmaxI32 g rm o : Laws.Encoding.Statement (.vrmaxI32 g rm o) := Laws.Encoding.of_slot ((.v (.vrmaxI32 g rm o))) rfl
theorem Laws.Encoding.vrminF32 g rm o : Laws.Encoding.Statement (.vrminF32 g rm o) := Laws.Encoding.of_slot ((.v (.vrminF32 g rm o))) rfl
theorem Laws.Encoding.vrminI32 g rm o : Laws.Encoding.Statement (.vrminI32 g rm o) := Laws.Encoding.of_slot ((.v (.vrminI32 g rm o))) rfl
theorem Laws.Encoding.vrargmaxF32 g rm o : Laws.Encoding.Statement (.vrargmaxF32 g rm o) := Laws.Encoding.of_slot ((.v (.vrargmaxF32 g rm o))) rfl
theorem Laws.Encoding.vperm g o : Laws.Encoding.Statement (.vperm g o) := Laws.Encoding.of_slot ((.v (.vperm g o))) rfl
theorem Laws.Encoding.vshuf g o : Laws.Encoding.Statement (.vshuf g o) := Laws.Encoding.of_slot ((.v (.vshuf g o))) rfl
theorem Laws.Encoding.vbcast g o : Laws.Encoding.Statement (.vbcast g o) := Laws.Encoding.of_slot ((.v (.vbcast g o))) rfl
theorem Laws.Encoding.vslide g o : Laws.Encoding.Statement (.vslide g o) := Laws.Encoding.of_slot ((.v (.vslide g o))) rfl
theorem Laws.Encoding.vzip g o : Laws.Encoding.Statement (.vzip g o) := Laws.Encoding.of_slot ((.v (.vzip g o))) rfl
theorem Laws.Encoding.vunzip g o : Laws.Encoding.Statement (.vunzip g o) := Laws.Encoding.of_slot ((.v (.vunzip g o))) rfl
theorem Laws.Encoding.vtrn4 g o : Laws.Encoding.Statement (.vtrn4 g o) := Laws.Encoding.of_slot ((.v (.vtrn4 g o))) rfl
theorem Laws.Encoding.vsmmerge g o : Laws.Encoding.Statement (.vsmmerge g o) := Laws.Encoding.of_slot ((.v (.vsmmerge g o))) rfl
theorem Laws.Encoding.vrand g o : Laws.Encoding.Statement (.vrand g o) := Laws.Encoding.of_slot ((.v (.vrand g o))) rfl
theorem Laws.Encoding.vrandf g o : Laws.Encoding.Statement (.vrandf g o) := Laws.Encoding.of_slot ((.v (.vrandf g o))) rfl
theorem Laws.Encoding.vrnorm g o : Laws.Encoding.Statement (.vrnorm g o) := Laws.Encoding.of_slot ((.v (.vrnorm g o))) rfl
theorem Laws.Encoding.vrnormt g o : Laws.Encoding.Statement (.vrnormt g o) := Laws.Encoding.of_slot ((.v (.vrnormt g o))) rfl
theorem Laws.Encoding.vrseed g o : Laws.Encoding.Statement (.vrseed g o) := Laws.Encoding.of_slot ((.v (.vrseed g o))) rfl
theorem Laws.Encoding.vld g o : Laws.Encoding.Statement (.vld g o) := Laws.Encoding.of_slot ((.v (.vld g o))) rfl
theorem Laws.Encoding.vst g o : Laws.Encoding.Statement (.vst g o) := Laws.Encoding.of_slot ((.v (.vst g o))) rfl
theorem Laws.Encoding.vldg g o : Laws.Encoding.Statement (.vldg g o) := Laws.Encoding.of_slot ((.v (.vldg g o))) rfl
theorem Laws.Encoding.vsts g o : Laws.Encoding.Statement (.vsts g o) := Laws.Encoding.of_slot ((.v (.vsts g o))) rfl
theorem Laws.Encoding.vldpl g o : Laws.Encoding.Statement (.vldpl g o) := Laws.Encoding.of_slot ((.v (.vldpl g o))) rfl
theorem Laws.Encoding.mcfgMode g o : Laws.Encoding.Statement (.mcfgMode g o) := Laws.Encoding.of_slot ((.m (.mcfgMode g o))) rfl
theorem Laws.Encoding.mcfgOutlier g o : Laws.Encoding.Statement (.mcfgOutlier g o) := Laws.Encoding.of_slot ((.m (.mcfgOutlier g o))) rfl
theorem Laws.Encoding.mcfgQset g o : Laws.Encoding.Statement (.mcfgQset g o) := Laws.Encoding.of_slot ((.m (.mcfgQset g o))) rfl
theorem Laws.Encoding.mcfgWbp g o : Laws.Encoding.Statement (.mcfgWbp g o) := Laws.Encoding.of_slot ((.m (.mcfgWbp g o))) rfl
theorem Laws.Encoding.mzero g o : Laws.Encoding.Statement (.mzero g o) := Laws.Encoding.of_slot ((.m (.mzero g o))) rfl
theorem Laws.Encoding.msnap g o : Laws.Encoding.Statement (.msnap g o) := Laws.Encoding.of_slot ((.m (.msnap g o))) rfl
theorem Laws.Encoding.mresrd g o : Laws.Encoding.Statement (.mresrd g o) := Laws.Encoding.of_slot ((.m (.mresrd g o))) rfl
theorem Laws.Encoding.mreschk g o : Laws.Encoding.Statement (.mreschk g o) := Laws.Encoding.of_slot ((.m (.mreschk g o))) rfl
theorem Laws.Encoding.mpush g o : Laws.Encoding.Statement (.mpush g o) := Laws.Encoding.of_slot ((.m (.mpush g o))) rfl
theorem Laws.Encoding.mpushWp g : Laws.Encoding.Statement (.mpushWp g) := Laws.Encoding.of_slot ((.m (.mpushWp g))) rfl
theorem Laws.Encoding.mswap g : Laws.Encoding.Statement (.mswap g) := Laws.Encoding.of_slot ((.m (.mswap g))) rfl
theorem Laws.Encoding.mshift g o : Laws.Encoding.Statement (.mshift g o) := Laws.Encoding.of_slot ((.m (.mshift g o))) rfl
theorem Laws.Encoding.mdrain g o : Laws.Encoding.Statement (.mdrain g o) := Laws.Encoding.of_slot ((.m (.mdrain g o))) rfl
theorem Laws.Encoding.mdrainq g o : Laws.Encoding.Statement (.mdrainq g o) := Laws.Encoding.of_slot ((.m (.mdrainq g o))) rfl
theorem Laws.Encoding.xnop : Laws.Encoding.Statement .xnop := Laws.Encoding.of_slot (.xnop) rfl
theorem Laws.Encoding.xcopyIn g o : Laws.Encoding.Statement (.xcopyIn g o) := Laws.Encoding.of_slot ((.x (.xcopyIn g o))) rfl
theorem Laws.Encoding.xcopyOut g o : Laws.Encoding.Statement (.xcopyOut g o) := Laws.Encoding.of_slot ((.x (.xcopyOut g o))) rfl
theorem Laws.Encoding.xcopyOutAcc g o : Laws.Encoding.Statement (.xcopyOutAcc g o) := Laws.Encoding.of_slot ((.x (.xcopyOutAcc g o))) rfl
theorem Laws.Encoding.xgather g o : Laws.Encoding.Statement (.xgather g o) := Laws.Encoding.of_slot ((.x (.xgather g o))) rfl
theorem Laws.Encoding.xscatter g o : Laws.Encoding.Statement (.xscatter g o) := Laws.Encoding.of_slot ((.x (.xscatter g o))) rfl
theorem Laws.Encoding.xwbfill g o : Laws.Encoding.Statement (.xwbfill g o) := Laws.Encoding.of_slot ((.x (.xwbfill g o))) rfl
theorem Laws.Encoding.xpref g o : Laws.Encoding.Statement (.xpref g o) := Laws.Encoding.of_slot ((.x (.xpref g o))) rfl
theorem Laws.Encoding.xsend g o : Laws.Encoding.Statement (.xsend g o) := Laws.Encoding.of_slot ((.x (.xsend g o))) rfl
theorem Laws.Encoding.xrecv g o : Laws.Encoding.Statement (.xrecv g o) := Laws.Encoding.of_slot ((.x (.xrecv g o))) rfl
theorem Laws.Encoding.xrecvaddF32 g o : Laws.Encoding.Statement (.xrecvaddF32 g o) := Laws.Encoding.of_slot ((.x (.xrecvaddF32 g o))) rfl
theorem Laws.Encoding.xrecvaddI32 g o : Laws.Encoding.Statement (.xrecvaddI32 g o) := Laws.Encoding.of_slot ((.x (.xrecvaddI32 g o))) rfl
theorem Laws.Encoding.xrecvaddBf16 g o : Laws.Encoding.Statement (.xrecvaddBf16 g o) := Laws.Encoding.of_slot ((.x (.xrecvaddBf16 g o))) rfl
theorem Laws.Encoding.xrld g o : Laws.Encoding.Statement (.xrld g o) := Laws.Encoding.of_slot ((.x (.xrld g o))) rfl
theorem Laws.Encoding.xrst g o : Laws.Encoding.Statement (.xrst g o) := Laws.Encoding.of_slot ((.x (.xrst g o))) rfl
theorem Laws.Encoding.xamoAdd32 g o : Laws.Encoding.Statement (.xamoAdd32 g o) := Laws.Encoding.of_slot ((.x (.xamoAdd32 g o))) rfl
theorem Laws.Encoding.xamoAdd64 g o : Laws.Encoding.Statement (.xamoAdd64 g o) := Laws.Encoding.of_slot ((.x (.xamoAdd64 g o))) rfl
theorem Laws.Encoding.xamoFaddF32 g o : Laws.Encoding.Statement (.xamoFaddF32 g o) := Laws.Encoding.of_slot ((.x (.xamoFaddF32 g o))) rfl
theorem Laws.Encoding.xamoMin32 g o : Laws.Encoding.Statement (.xamoMin32 g o) := Laws.Encoding.of_slot ((.x (.xamoMin32 g o))) rfl
theorem Laws.Encoding.xamoMin64 g o : Laws.Encoding.Statement (.xamoMin64 g o) := Laws.Encoding.of_slot ((.x (.xamoMin64 g o))) rfl
theorem Laws.Encoding.xamoMax32 g o : Laws.Encoding.Statement (.xamoMax32 g o) := Laws.Encoding.of_slot ((.x (.xamoMax32 g o))) rfl
theorem Laws.Encoding.xamoMax64 g o : Laws.Encoding.Statement (.xamoMax64 g o) := Laws.Encoding.of_slot ((.x (.xamoMax64 g o))) rfl
theorem Laws.Encoding.xamoMinn32 g o : Laws.Encoding.Statement (.xamoMinn32 g o) := Laws.Encoding.of_slot ((.x (.xamoMinn32 g o))) rfl
theorem Laws.Encoding.xamoMinn64 g o : Laws.Encoding.Statement (.xamoMinn64 g o) := Laws.Encoding.of_slot ((.x (.xamoMinn64 g o))) rfl
theorem Laws.Encoding.xamoMaxn32 g o : Laws.Encoding.Statement (.xamoMaxn32 g o) := Laws.Encoding.of_slot ((.x (.xamoMaxn32 g o))) rfl
theorem Laws.Encoding.xamoMaxn64 g o : Laws.Encoding.Statement (.xamoMaxn64 g o) := Laws.Encoding.of_slot ((.x (.xamoMaxn64 g o))) rfl
theorem Laws.Encoding.xamoAnd32 g o : Laws.Encoding.Statement (.xamoAnd32 g o) := Laws.Encoding.of_slot ((.x (.xamoAnd32 g o))) rfl
theorem Laws.Encoding.xamoAnd64 g o : Laws.Encoding.Statement (.xamoAnd64 g o) := Laws.Encoding.of_slot ((.x (.xamoAnd64 g o))) rfl
theorem Laws.Encoding.xamoOr32 g o : Laws.Encoding.Statement (.xamoOr32 g o) := Laws.Encoding.of_slot ((.x (.xamoOr32 g o))) rfl
theorem Laws.Encoding.xamoOr64 g o : Laws.Encoding.Statement (.xamoOr64 g o) := Laws.Encoding.of_slot ((.x (.xamoOr64 g o))) rfl
theorem Laws.Encoding.xamoXor32 g o : Laws.Encoding.Statement (.xamoXor32 g o) := Laws.Encoding.of_slot ((.x (.xamoXor32 g o))) rfl
theorem Laws.Encoding.xamoXor64 g o : Laws.Encoding.Statement (.xamoXor64 g o) := Laws.Encoding.of_slot ((.x (.xamoXor64 g o))) rfl
theorem Laws.Encoding.xamoSwap32 g o : Laws.Encoding.Statement (.xamoSwap32 g o) := Laws.Encoding.of_slot ((.x (.xamoSwap32 g o))) rfl
theorem Laws.Encoding.xamoSwap64 g o : Laws.Encoding.Statement (.xamoSwap64 g o) := Laws.Encoding.of_slot ((.x (.xamoSwap64 g o))) rfl
theorem Laws.Encoding.xamoCas32 g o : Laws.Encoding.Statement (.xamoCas32 g o) := Laws.Encoding.of_slot ((.x (.xamoCas32 g o))) rfl
theorem Laws.Encoding.xamoCas64 g o : Laws.Encoding.Statement (.xamoCas64 g o) := Laws.Encoding.of_slot ((.x (.xamoCas64 g o))) rfl
theorem Laws.Encoding.xfence g o : Laws.Encoding.Statement (.xfence g o) := Laws.Encoding.of_slot ((.x (.xfence g o))) rfl
theorem Laws.Encoding.xrel g o : Laws.Encoding.Statement (.xrel g o) := Laws.Encoding.of_slot ((.x (.xrel g o))) rfl
theorem Laws.Encoding.xacq g o : Laws.Encoding.Statement (.xacq g o) := Laws.Encoding.of_slot ((.x (.xacq g o))) rfl
theorem Laws.Encoding.xvld g o : Laws.Encoding.Statement (.xvld g o) := Laws.Encoding.of_slot ((.x (.xvld g o))) rfl
theorem Laws.Encoding.xnmc g o : Laws.Encoding.Statement (.xnmc g o) := Laws.Encoding.of_slot ((.x (.xnmc g o))) rfl
theorem Laws.Encoding.xnmfence g : Laws.Encoding.Statement (.xnmfence g) := Laws.Encoding.of_slot ((.x (.xnmfence g))) rfl
theorem Laws.Encoding.xtagld g o : Laws.Encoding.Statement (.xtagld g o) := Laws.Encoding.of_slot ((.x (.xtagld g o))) rfl
theorem Laws.Encoding.xtagst g o : Laws.Encoding.Statement (.xtagst g o) := Laws.Encoding.of_slot ((.x (.xtagst g o))) rfl
theorem Laws.Encoding.tstate g o : Laws.Encoding.Statement (.tstate g o) := Laws.Encoding.of_slot ((.x (.tstate g o))) rfl
theorem Laws.Encoding.tlayoutClaim g o : Laws.Encoding.Statement (.tlayoutClaim g o) := Laws.Encoding.of_slot ((.x (.tlayoutClaim g o))) rfl
theorem Laws.Encoding.tlayoutRelabel g o : Laws.Encoding.Statement (.tlayoutRelabel g o) := Laws.Encoding.of_slot ((.x (.tlayoutRelabel g o))) rfl
theorem Laws.Encoding.tlayoutCheck g o : Laws.Encoding.Statement (.tlayoutCheck g o) := Laws.Encoding.of_slot ((.x (.tlayoutCheck g o))) rfl
theorem Laws.Encoding.trelease g o : Laws.Encoding.Statement (.trelease g o) := Laws.Encoding.of_slot ((.x (.trelease g o))) rfl
theorem Laws.Encoding.trjrec g o : Laws.Encoding.Statement (.trjrec g o) := Laws.Encoding.of_slot ((.x (.trjrec g o))) rfl
theorem Laws.Encoding.bfpost g o : Laws.Encoding.Statement (.bfpost g o) := Laws.Encoding.of_slot ((.x (.bfpost g o))) rfl

end Sys2Proof
end

