-- ==== Sys2Proof/Tests/Machine.lean ====
section
/-! SUPPORT. Small states for the tests: a core that runs at address 0 of an active context, with pages and registers of its own. -/

namespace Sys2Proof.Tests
open Sys2Proof.Machine

/-- Always true: p0, not negated, no loop flag. -/
def always : Guard := ⟨0, false, .always⟩

def rr (d a b : Nat) : RR := ⟨BitVec.ofNat 6 d, BitVec.ofNat 6 a, BitVec.ofNat 6 b, 0, false⟩

/-- Core 0 runs context 0 at address 0. -/
def run0 : State := State.reset.launchedAt 0

/-- A page entry: present, every permission, frame `f`. -/
def openPage (f : Nat) : W64 := BitVec.ofNat 64 (f * 2 ^ 40 + 2 ^ 37 + 0xFFF * 2 ^ 20)

/-- Pages 1 and 2 open on frames 1 and 2; page 3 absent; the fault buffer at page 4; registers with small values. -/
def run1 : State :=
  let s := (run0.setEntry 0 0 1 (openPage 1)).setEntry 0 0 2 (openPage 2)
  { s with devMap := [((0, 4), .fbuf)] }.upd 0 (fun c =>
    { c with g := [(1, 7), (2, 2), (3, 0x400040), (4, 0x3F800000)]
             a := [(1, 0x400000), (2, 0x400004), (3, 0xC00000), (4, 0x1000000), (5, 2 ^ 38), (6, 0x40)]
             b := [(1, 0x100), (2, 0x18), (3, 2 ^ 40)]
             p := [(1, true)]
             hbase := 0x40 })

/-- Where a translated address of context 0 of `run1` leads: frame and page have one number, the seal is context 0's (12_context.md R304). -/
def at0 (a : Nat) : Nat := a + 2 ^ 50 * (1 + a / 2 ^ 22 + 2 ^ 42)

/-- `run1` with core 0 changed. -/
def with0 (f : Core → Core) : State := run1.upd 0 f

/-- A computation that stops nowhere. -/
def okB {α : Type} (x : Except Stop α) : Bool := match x with | .ok _ => true | .error _ => false

/-- The premises of `begins`, computed. -/
def beginsB (k : Instr) (g : Guard) (s : State) : Bool :=
  decide (s.me.run = .running ∧ s.me.replay = false ∧ (s.me.twin = false ∨ s.me.reports = [] ∨ s.me.heldBundle = true)) &&
  (decide (k.opn.enc.1 ≠ 0) && k.opn.ok && (!wordPrivileged k.opn.enc.1 || (s.ctx s.me.ctx).priv) &&
    !unitBars (isKiosk s.cur) k.opn.unit k.opn.enc.1 && !modeBars k.opn.unit k.opn.enc.1 k.opn.enc.2) && s.pre.guardOk g &&
  (decide (k.opn.unit ≠ .m) || !s.opened.dutyHolds s.cur)

theorem begins_of {k : Instr} {g : Guard} {s : State} (h : beginsB k g s = true) : k.begins g s := by
  simp only [beginsB, Bool.and_eq_true, decide_eq_true_eq, Bool.or_eq_true, Bool.not_eq_true'] at h
  obtain ⟨⟨⟨h1, ⟨⟨⟨⟨h2, h3⟩, h4⟩, h5⟩, h5'⟩⟩, h7⟩, h6⟩ := h
  refine ⟨⟨h1, h2, h3, fun hp => ?_, h5, h5'⟩, h7, fun hm => ?_⟩
  · rcases h4 with h4 | h4
    · rw [hp] at h4; exact absurd h4 (by decide)
    · exact h4
  · rcases h6 with h6 | h6
    · exact absurd hm h6
    · exact h6

/-- The premises of `asks`, computed. -/
def asksB (k : Instr) (g : Guard) (s : State) : Bool :=
  beginsB k g s && !s.pre.slow.getLsbD k.opn.place && (Tbl.get none s.answers (answerKey s.cur k.opn.place)).isNone && (s.pre.entry (96 + k.opn.place)).isNone

theorem asks_of {k : Instr} {g : Guard} {s : State} (h : asksB k g s = true) : k.asks g s := by
  simp only [asksB, Bool.and_eq_true, Bool.not_eq_true', Option.isNone_iff_eq_none] at h
  obtain ⟨⟨⟨h1, h2⟩, h3⟩, h4⟩ := h
  exact ⟨begins_of h1, h2, h3, h4⟩

/-- The result is a next state, and it passes `p`. -/
def nextB (r : Result) (p : State → Bool) : Bool := match r with | .next t => p t | _ => false

theorem next_of {r : Result} {P : State → Prop} [DecidablePred P] (h : nextB r (fun t => decide (P t)) = true) : ∃ t, r = .next t ∧ P t := by
  cases r with
  | next t => exact ⟨t, rfl, of_decide_eq_true h⟩
  | fault _ => cases h
  | refused _ => cases h

end Sys2Proof.Tests
end

