-- ==== Sys2Proof/Tests/Slice0.lean ====
section
/-! SUPPORT. Tests: ill-formed operations are refused, words laid out by hand from the encoding tables of spec/04_encoding.md decode to
the operations they stand for, and single steps with results worked out from the spec's rules. -/

namespace Sys2Proof.Tests
open Sys2Proof.Machine

/-! ### Ill-formed operations -/

/-- One operation for each check of WellFormed.lean that it alone breaks. -/
theorem test_ill_formed : ∀ i ∈ ([
      .s (.add ⟨24, false, .always⟩ ⟨1, 2, 3, 0, false⟩),     -- R104: predicate codes end at 23
      .s (.add always ⟨1, 4, 3, 1, false⟩),                   -- R106: a latch field above 3, first source
      .s (.add always ⟨1, 2, 4, 2, false⟩),                   -- R106: the same of the second source
      .s (.add always ⟨1, 2, 4, 3, false⟩),
      .s (.add always ⟨1, 2, 3, 6, false⟩),                   -- R106: a held source names no register
      .s (.add always ⟨1, 2, 3, 7, false⟩),
      .s (.add always ⟨1, 2, 3, 0, true⟩),                    -- R107: nil goes with register field 0
      .s (.pand always ⟨1, 2, 3, 4, false⟩),                  -- R106: a predicate source has no such mode
      .s (.cmpEq always ⟨24, 2, 3, 0, false⟩),                -- R105: p registers end at 23
      .s (.aadd always ⟨16, 2, 3, 0, false⟩),                 -- R105: a registers end at 15
      .s (.ret always ⟨0, 8, 0, 0, false⟩),                   -- R105: b registers end at 7
      .s (.ret always ⟨1, 2, 0, 0, false⟩),                   -- R115: a field that is not used is zero
      .s (.addi always ⟨1, 4, 9, 1⟩), .s (.addi always ⟨1, 2, 9, 3⟩), .s (.shli always ⟨1, 2, 64, 0⟩),
      .s (.sel always ⟨1, 2, 3, 24⟩), .s (.lih always ⟨1, 0x10000⟩), .s (.ld64 always ⟨1, 2, 3, 0⟩), .s (.ld64 always ⟨1, 2, 0, 1⟩),
      .s (.bt ⟨24, 0, 0, 0, false, false, false, false, false, 0, .always⟩), .s (.bt ⟨1, 2, 0, 0, false, false, false, false, false, 0, .always⟩),
      .s (.rotb always ⟨0, 0, 6, 0⟩), .s (.lendb always ⟨0, 0, 4, 0⟩), .s (.quiet always ⟨1, 0⟩),
      .v (.vcmpI32 always ⟨48, 2, 3, 0, false⟩), .v (.vcvtF32 always .rne ⟨1, 2, 0, 9, 0, false⟩), .v (.vcvtF32 always .rne ⟨1, 2, 2, 1, 0, false⟩),
      .v (.vcvtF32 always .rne ⟨1, 2, 0, 0, 2, false⟩), .v (.vldpl always ⟨1, 2, 0, 4 * 3 + 16⟩), .v (.vldpl always ⟨1, 2, 1, 0⟩),
      .v (.vmsel always ⟨1, 2, 3, 8⟩),
      .x (.xcopyIn always ⟨1, false, 2, 1, 20⟩), .x (.xcopyIn always ⟨1, false, 2, 0, 62⟩), .x (.xamoAdd32 always ⟨1, 2, 0, 3, 1⟩),
      .x (.xsend always ⟨4, 1, 0, 0, false⟩), .x (.xpref always ⟨0, true, 2, 2, 7⟩),   -- R105: an unused field is zero
      .m (.mzero ⟨3, true, .always⟩ ⟨24⟩)] : List SlotInstr), i.ok = false := by decide

/-- The same operations with the offending field put right. -/
theorem test_well_formed : ∀ i ∈ ([
      .s (.add ⟨23, false, .always⟩ ⟨1, 2, 3, 0, false⟩), .s (.add always ⟨1, 3, 3, 1, false⟩), .s (.add always ⟨1, 2, 3, 2, false⟩),
      .s (.add always ⟨1, 0, 3, 6, false⟩), .s (.add always ⟨0, 2, 3, 0, true⟩), .s (.cmpEq always ⟨23, 2, 3, 0, false⟩),
      .s (.aadd always ⟨15, 2, 3, 0, false⟩), .s (.ret always ⟨0, 7, 0, 0, false⟩), .s (.shli always ⟨1, 2, 63, 0⟩),
      .s (.ld64 always ⟨1, 2, 1, 1⟩), .s (.rotb always ⟨0, 0, 63, 0⟩), .v (.vcvtF32 always .rne ⟨1, 2, 1, 1, 0, false⟩),
      .v (.vldpl always ⟨1, 2, 0, 4 * 2 + 16⟩), .x (.xcopyIn always ⟨1, false, 2, 2, 61⟩), .m (.mzero ⟨3, false, .always⟩ ⟨23⟩)] : List SlotInstr),
      i.ok = true := by decide

/-! ### Words of the encoding tables

Each word is the row's fixed bits with the operand fields of its format (R104 Table 2, R111 Table 4) put in by hand: d = 5, s1 = 3, s2 = 6,
predicate 3 and so on, in a bundle whose header says "up" and whose extension byte is 0. Rows that share one word show the first of them. -/

def gd : Guard := ⟨3, false, .always⟩
def decodes (l : List (W32 × SlotInstr)) : Prop := l.map (fun e => decodeSlot true .rup 0 e.1) = l.map (fun e => .ok e.2)

theorem test_decode_scalar_1 : decodes [
    (0x008C50C6, .s (.add gd ⟨5, 3, 6, 0, false⟩)), (0x010C50C6, .s (.sub gd ⟨5, 3, 6, 0, false⟩)), (0x018C50C9, .s (.addi gd ⟨5, 3, 9, 0⟩)),
    (0x020C50C6, .s (.mul gd ⟨5, 3, 6, 0, false⟩)), (0x028C50C6, .s (.mulh gd ⟨5, 3, 6, 0, false⟩)), (0x030C50C6, .s (.mulhn gd ⟨5, 3, 6, 0, false⟩)),
    (0x038C50C6, .s (.div gd ⟨5, 3, 6, 0, false⟩)), (0x040C50C6, .s (.divn gd ⟨5, 3, 6, 0, false⟩)), (0x048C50C6, .s (.rem gd ⟨5, 3, 6, 0, false⟩)),
    (0x050C50C6, .s (.remn gd ⟨5, 3, 6, 0, false⟩)), (0x058C50C6, .s (.and gd ⟨5, 3, 6, 0, false⟩)), (0x060C50C6, .s (.or gd ⟨5, 3, 6, 0, false⟩)),
    (0x068C50C6, .s (.xor gd ⟨5, 3, 6, 0, false⟩)), (0x070C50C6, .s (.andn gd ⟨5, 3, 6, 0, false⟩)), (0x078C50C6, .s (.shl gd ⟨5, 3, 6, 0, false⟩)),
    (0x080C50C6, .s (.shr gd ⟨5, 3, 6, 0, false⟩)), (0x088C50C6, .s (.sar gd ⟨5, 3, 6, 0, false⟩)), (0x090C50C9, .s (.shli gd ⟨5, 3, 9, 0⟩)),
    (0x098C50C9, .s (.shri gd ⟨5, 3, 9, 0⟩)), (0x0A0C50C9, .s (.sari gd ⟨5, 3, 9, 0⟩)), (0x0A8C50C6, .s (.rot gd ⟨5, 3, 6, 0, false⟩)),
    (0x0B0C50C0, .s (.clz gd ⟨5, 3, 0, 0, false⟩)), (0x0B8C50C0, .s (.popc gd ⟨5, 3, 0, 0, false⟩)), (0x0C0C50C6, .s (.min gd ⟨5, 3, 6, 0, false⟩))] := rfl
theorem test_decode_scalar_2 : decodes [
    (0x0C8C50C6, .s (.max gd ⟨5, 3, 6, 0, false⟩)), (0x0D0C50C6, .s (.minn gd ⟨5, 3, 6, 0, false⟩)), (0x0D8C50C6, .s (.maxn gd ⟨5, 3, 6, 0, false⟩)),
    (0x0E0C50C6, .s (.sel gd ⟨5, 3, 6, 0⟩)), (0x0E8C5009, .s (.li gd ⟨5, 9⟩)), (0x0F0C5009, .s (.lih gd ⟨5, 9⟩)),
    (0x0F8C50C6, .s (.aadd gd ⟨5, 3, 6, 0, false⟩)), (0x100C50C6, .s (.cmpEq gd ⟨5, 3, 6, 0, false⟩)),
    (0x108C50C6, .s (.cmpNe gd ⟨5, 3, 6, 0, false⟩)), (0x110C50C6, .s (.cmpLt gd ⟨5, 3, 6, 0, false⟩)),
    (0x118C50C6, .s (.cmpLe gd ⟨5, 3, 6, 0, false⟩)), (0x120C50C6, .s (.cmpGt gd ⟨5, 3, 6, 0, false⟩)),
    (0x128C50C6, .s (.cmpGe gd ⟨5, 3, 6, 0, false⟩)), (0x130C50C6, .s (.cmpLtn gd ⟨5, 3, 6, 0, false⟩)),
    (0x138C50C6, .s (.cmpLen gd ⟨5, 3, 6, 0, false⟩)), (0x140C50C6, .s (.cmpGtn gd ⟨5, 3, 6, 0, false⟩)),
    (0x148C50C6, .s (.cmpGen gd ⟨5, 3, 6, 0, false⟩)), (0x150C50C6, .s (.pand gd ⟨5, 3, 6, 0, false⟩)),
    (0x158C50C6, .s (.por gd ⟨5, 3, 6, 0, false⟩)), (0x160C50C6, .s (.pxor gd ⟨5, 3, 6, 0, false⟩)), (0x168C50C0, .s (.pnot gd ⟨5, 3, 0, 0, false⟩)),
    (0x170C50C0, .s (.pmov gd ⟨5, 3, 0, 0, false⟩)), (0x178C50C0, .s (.amovAG gd ⟨5, 3, 0, 0, false⟩)),
    (0x178C50C1, .s (.amovGA gd ⟨5, 3, 1, 0, false⟩))] := rfl
theorem test_decode_scalar_3 : decodes [
    (0x178C50C2, .s (.amovAA gd ⟨5, 3, 2, 0, false⟩)), (0x180C5245, .s (.ldI8 gd ⟨5, 2, 1, 5⟩)), (0x188C5245, .s (.ldN8 gd ⟨5, 2, 1, 5⟩)),
    (0x190C5245, .s (.ldI16 gd ⟨5, 2, 1, 5⟩)), (0x198C5245, .s (.ldN16 gd ⟨5, 2, 1, 5⟩)), (0x1A0C5245, .s (.ldI32 gd ⟨5, 2, 1, 5⟩)),
    (0x1A8C5245, .s (.ldN32 gd ⟨5, 2, 1, 5⟩)), (0x1B0C5245, .s (.ld64 gd ⟨5, 2, 1, 5⟩)), (0x1B8C50C0, .s (.astr gd ⟨5, 3, 0, 0, false⟩)),
    (0x1C0C5245, .s (.st8 gd ⟨5, 2, 1, 5⟩)), (0x1C8C5245, .s (.st16 gd ⟨5, 2, 1, 5⟩)), (0x1D0C5245, .s (.st32 gd ⟨5, 2, 1, 5⟩)),
    (0x1D8C5245, .s (.st64 gd ⟨5, 2, 1, 5⟩)), (0x200C0005, .s (.br gd ⟨5⟩)),
    (0x209D2B6F, .s (.bt ⟨7, 9, 11, 13, false, false, false, false, true, 3, .always⟩)), (0x210D8005, .s (.movb gd ⟨3, 5⟩)),
    (0x218C0005, .s (.call gd ⟨5⟩)), (0x220C00C0, .s (.ret gd ⟨0, 3, 0, 0, false⟩)), (0x228C2061, .s (.loop gd ⟨2, 1, 33⟩)),
    (0x230C0000, .s (.lbrk gd)), (0x238C0002, .s (.rotb gd ⟨0, 0, 2, 0⟩)), (0x240C0009, .s (.stage gd ⟨0, 0, 9, 0⟩)), (0x280C0000, .s (.halt gd)),
    (0x288C0009, .s (.quiet gd ⟨0, 9⟩))] := rfl
theorem test_decode_scalar_4 : decodes [
    (0x290C0002, .s (.lendb gd ⟨0, 0, 2, 0⟩)), (0x298C0002, .s (.retb gd ⟨0, 0, 2, 0⟩)), (0x2A0C5101, .s (.srd gd ⟨5, 257⟩)),
    (0x2A8C7101, .s (.swr gd ⟨7, 257⟩)), (0x2B0C0009, .s (.trap gd ⟨0, 9⟩)), (0x2B8C0000, .s (.trapen gd)), (0x2C0C0000, .s (.tret gd)),
    (0x2C8C50C0, .s (.ctxstat gd ⟨5, 3, 0, 0, false⟩)), (0x2D0C50C6, .s (.ctxfreeze gd ⟨5, 3, 6, 0, false⟩)),
    (0x2D8C50C6, .s (.ctxresume gd ⟨5, 3, 6, 0, false⟩)), (0x300C50C6, .s (.wqpush gd ⟨5, 3, 6, 0, false⟩)),
    (0x308C50C6, .s (.wqpop gd ⟨5, 3, 6, 0, false⟩)), (0x310C50C0, .s (.wqclose gd ⟨5, 3, 0, 0, false⟩)),
    (0x318C50C0, .s (.wqlen gd ⟨5, 3, 0, 0, false⟩)), (0x320C00C6, .s (.gpset gd ⟨0, 3, 6, 0, false⟩)),
    (0x328C50C0, .s (.gpget gd ⟨5, 3, 0, 0, false⟩)), (0x330C50C6, .s (.glaunch gd ⟨5, 3, 6, 0, false⟩)),
    (0x338C5000, .s (.kdone gd ⟨5, 0, 0, 0, false⟩)), (0x340C5000, .s (.grpid gd ⟨5, 0, 0, 0, false⟩)),
    (0x348C5000, .s (.grpsize gd ⟨5, 0, 0, 0, false⟩)), (0x350C50C6, .s (.binitReset gd ⟨5, 3, 6, 0, false⟩)),
    (0x358C00C6, .s (.barrive gd ⟨0, 3, 6, 0, false⟩)), (0x360C50C6, .s (.bwait gd ⟨5, 3, 6, 0, false⟩)),
    (0x368C50C6, .s (.btry gd ⟨5, 3, 6, 0, false⟩))] := rfl
theorem test_decode_scalar_5 : decodes [
    (0x380C50C0, .s (.wvbind gd ⟨5, 3, 0, 0, false⟩)), (0x388C50C0, .s (.wvunbind gd ⟨5, 3, 0, 0, false⟩)),
    (0x390C50C0, .s (.wvslot gd ⟨5, 3, 0, 0, false⟩)), (0x398C50C6, .s (.wvpublish gd ⟨5, 3, 6, 0, false⟩)),
    (0x3A0C50C0, .s (.wvread gd ⟨5, 3, 0, 0, false⟩)), (0x3A8C50C6, .s (.confx gd ⟨5, 3, 6, 0, false⟩)),
    (0x3B0C50C0, .s (.kvcommit gd ⟨5, 3, 0, 0, false⟩)), (0x3B8C50C6, .s (.kvmodeSet gd ⟨5, 3, 6, 0, false⟩)),
    (0x3C0C50C6, .s (.lktree gd ⟨5, 3, 6, 0, false⟩)), (0x3C8C50C0, .s (.lkfree gd ⟨5, 3, 0, 0, false⟩)),
    (0x3D0C50C0, .s (.pgprobe gd ⟨5, 3, 0, 0, false⟩)), (0x3D8C50C6, .s (.pginvUpdate gd ⟨5, 3, 6, 0, false⟩))] := rfl
theorem test_decode_vector_1 : decodes [
    (0x400C50C6, .v (.vaddF32 gd .rup ⟨5, 3, 6, 0, false⟩)), (0x408C50C6, .v (.vsubF32 gd .rup ⟨5, 3, 6, 0, false⟩)),
    (0x410C50C6, .v (.vmulF32 gd .rup ⟨5, 3, 6, 0, false⟩)), (0x418C50C6, .v (.vfmaF32 gd .rup ⟨5, 3, 6, 0, false⟩)),
    (0x420C50C6, .v (.vfmsF32 gd .rup ⟨5, 3, 6, 0, false⟩)), (0x428C50C6, .v (.vfnmaF32 gd .rup ⟨5, 3, 6, 0, false⟩)),
    (0x430C50C6, .v (.vminF32 gd .rup ⟨5, 3, 6, 0, false⟩)), (0x438C50C6, .v (.vmaxF32 gd .rup ⟨5, 3, 6, 0, false⟩)),
    (0x440C50C6, .v (.vaddBf16 gd .rup ⟨5, 3, 6, 0, false⟩)), (0x448C50C6, .v (.vsubBf16 gd .rup ⟨5, 3, 6, 0, false⟩)),
    (0x450C50C6, .v (.vmulBf16 gd .rup ⟨5, 3, 6, 0, false⟩)), (0x458C50C6, .v (.vfmaBf16 gd .rup ⟨5, 3, 6, 0, false⟩)),
    (0x460C50C6, .v (.vfmsBf16 gd .rup ⟨5, 3, 6, 0, false⟩)), (0x468C50C6, .v (.vfnmaBf16 gd .rup ⟨5, 3, 6, 0, false⟩)),
    (0x470C50C6, .v (.vminBf16 gd .rup ⟨5, 3, 6, 0, false⟩)), (0x478C50C6, .v (.vmaxBf16 gd .rup ⟨5, 3, 6, 0, false⟩)),
    (0x480C50C6, .v (.vaddF16 gd .rup ⟨5, 3, 6, 0, false⟩)), (0x488C50C6, .v (.vsubF16 gd .rup ⟨5, 3, 6, 0, false⟩)),
    (0x490C50C6, .v (.vmulF16 gd .rup ⟨5, 3, 6, 0, false⟩)), (0x498C50C6, .v (.vfmaF16 gd .rup ⟨5, 3, 6, 0, false⟩)),
    (0x4A0C50C6, .v (.vfmsF16 gd .rup ⟨5, 3, 6, 0, false⟩)), (0x4A8C50C6, .v (.vfnmaF16 gd .rup ⟨5, 3, 6, 0, false⟩)),
    (0x4B0C50C6, .v (.vminF16 gd .rup ⟨5, 3, 6, 0, false⟩)), (0x4B8C50C6, .v (.vmaxF16 gd .rup ⟨5, 3, 6, 0, false⟩))] := rfl
theorem test_decode_vector_2 : decodes [
    (0x4C0C50C0, .v (.vabsF32 gd ⟨5, 3, 0, 0, false⟩)), (0x4C8C50C0, .v (.vabsH gd ⟨5, 3, 0, 0, false⟩)),
    (0x4D0C50C0, .v (.vnegF32 gd ⟨5, 3, 0, 0, false⟩)), (0x4D8C50C0, .v (.vnegH gd ⟨5, 3, 0, 0, false⟩)),
    (0x4E0C50C0, .v (.vclassF32 gd ⟨5, 3, 0, 0, false⟩)), (0x4E8C50C0, .v (.vclassBf16 gd ⟨5, 3, 0, 0, false⟩)),
    (0x4F0C50C0, .v (.vclassF16 gd ⟨5, 3, 0, 0, false⟩)), (0x4F8C50C4, .v (.vfinF32 gd ⟨5, 3, 4, 0, false⟩)),
    (0x500C50C4, .v (.vfinBf16 gd ⟨5, 3, 4, 0, false⟩)), (0x508C50C4, .v (.vfinF16 gd ⟨5, 3, 4, 0, false⟩)),
    (0x4F8C5020, .v (.vfinNfsF32 gd ⟨5, 0, 32, 0, false⟩)), (0x500C5020, .v (.vfinNfsBf16 gd ⟨5, 0, 32, 0, false⟩)),
    (0x508C5020, .v (.vfinNfsF16 gd ⟨5, 0, 32, 0, false⟩)), (0x510C50C6, .v (.vdivF32 gd .rup ⟨5, 3, 6, 0, false⟩)),
    (0x518C50C0, .v (.vrcpF32 gd .rup ⟨5, 3, 0, 0, false⟩)), (0x520C50C0, .v (.vrsqF32 gd .rup ⟨5, 3, 0, 0, false⟩)),
    (0x528C50C0, .v (.vsqrtF32 gd .rup ⟨5, 3, 0, 0, false⟩)), (0x530C50C0, .v (.vexp2F32 gd .rup ⟨5, 3, 0, 0, false⟩)),
    (0x538C50C0, .v (.vlog2F32 gd .rup ⟨5, 3, 0, 0, false⟩)), (0x540C50C0, .v (.vtanhF32 gd .rup ⟨5, 3, 0, 0, false⟩)),
    (0x548C50C6, .v (.vdivBf16 gd .rup ⟨5, 3, 6, 0, false⟩)), (0x550C50C0, .v (.vrcpBf16 gd .rup ⟨5, 3, 0, 0, false⟩)),
    (0x558C50C0, .v (.vrsqBf16 gd .rup ⟨5, 3, 0, 0, false⟩)), (0x560C50C0, .v (.vsqrtBf16 gd .rup ⟨5, 3, 0, 0, false⟩))] := rfl
theorem test_decode_vector_3 : decodes [
    (0x568C50C0, .v (.vexp2Bf16 gd .rup ⟨5, 3, 0, 0, false⟩)), (0x570C50C0, .v (.vlog2Bf16 gd .rup ⟨5, 3, 0, 0, false⟩)),
    (0x578C50C0, .v (.vtanhBf16 gd .rup ⟨5, 3, 0, 0, false⟩)), (0x580C50C6, .v (.viadd32 gd ⟨5, 3, 6, 0, false⟩)),
    (0x588C50C6, .v (.viadd16 gd ⟨5, 3, 6, 0, false⟩)), (0x590C50C6, .v (.viadd8 gd ⟨5, 3, 6, 0, false⟩)),
    (0x598C50C6, .v (.visub32 gd ⟨5, 3, 6, 0, false⟩)), (0x5A0C50C6, .v (.visub16 gd ⟨5, 3, 6, 0, false⟩)),
    (0x5A8C50C6, .v (.visub8 gd ⟨5, 3, 6, 0, false⟩)), (0x5B0C50C6, .v (.vimul32 gd ⟨5, 3, 6, 0, false⟩)),
    (0x5B8C50C6, .v (.vimul16 gd ⟨5, 3, 6, 0, false⟩)), (0x5C0C50C6, .v (.vimulhI32 gd ⟨5, 3, 6, 0, false⟩)),
    (0x5C8C50C6, .v (.vimulhN32 gd ⟨5, 3, 6, 0, false⟩)), (0x5D0C50C6, .v (.viminI32 gd ⟨5, 3, 6, 0, false⟩)),
    (0x5D8C50C6, .v (.viminN32 gd ⟨5, 3, 6, 0, false⟩)), (0x5E0C50C6, .v (.viminI16 gd ⟨5, 3, 6, 0, false⟩)),
    (0x5E8C50C6, .v (.viminI8 gd ⟨5, 3, 6, 0, false⟩)), (0x5F0C50C6, .v (.vimaxI32 gd ⟨5, 3, 6, 0, false⟩)),
    (0x5F8C50C6, .v (.vimaxN32 gd ⟨5, 3, 6, 0, false⟩)), (0x600C50C6, .v (.vimaxI16 gd ⟨5, 3, 6, 0, false⟩)),
    (0x608C50C6, .v (.vimaxI8 gd ⟨5, 3, 6, 0, false⟩)), (0x610C50C6, .v (.vshl32 gd ⟨5, 3, 6, 0, false⟩)),
    (0x618C50C6, .v (.vshl16 gd ⟨5, 3, 6, 0, false⟩)), (0x620C50C6, .v (.vshr32 gd ⟨5, 3, 6, 0, false⟩))] := rfl
theorem test_decode_vector_4 : decodes [
    (0x628C50C6, .v (.vshr16 gd ⟨5, 3, 6, 0, false⟩)), (0x630C50C6, .v (.vsar32 gd ⟨5, 3, 6, 0, false⟩)),
    (0x638C50C6, .v (.vsar16 gd ⟨5, 3, 6, 0, false⟩)), (0x640C50C6, .v (.vand gd ⟨5, 3, 6, 0, false⟩)),
    (0x648C50C6, .v (.vor gd ⟨5, 3, 6, 0, false⟩)), (0x650C50C6, .v (.vxor gd ⟨5, 3, 6, 0, false⟩)), (0x658C50C6, .v (.vmsel gd ⟨5, 3, 6, 0⟩)),
    (0x660D40C6, .v (.vcmpI32 gd ⟨20, 3, 6, 0, false⟩)), (0x668D40C6, .v (.vcmpN32 gd ⟨20, 3, 6, 0, false⟩)),
    (0x670D40C6, .v (.vcmpF32 gd ⟨20, 3, 6, 0, false⟩)), (0x678D40C6, .v (.vcmpBf16 gd ⟨20, 3, 6, 0, false⟩)),
    (0x680C50D2, .v (.vcvtF32 gd .rup ⟨5, 3, 1, 2, 0, false⟩)), (0x688C50C2, .v (.vcvtBf16 gd .rup ⟨5, 3, 0, 2, 0, false⟩)),
    (0x690C50C2, .v (.vcvtF16 gd .rup ⟨5, 3, 0, 2, 0, false⟩)), (0x698C50D2, .v (.vcvtI8 gd .rup ⟨5, 3, 1, 2, 0, false⟩)),
    (0x6A0C50D2, .v (.vcvtN8 gd .rup ⟨5, 3, 1, 2, 0, false⟩)), (0x6A8C50C2, .v (.vcvtI16 gd .rup ⟨5, 3, 0, 2, 0, false⟩)),
    (0x6B0C50C2, .v (.vcvtN16 gd .rup ⟨5, 3, 0, 2, 0, false⟩)), (0x6B8C50D2, .v (.vcvtI32 gd .rup ⟨5, 3, 1, 2, 0, false⟩)),
    (0x6C0C50D2, .v (.vcvtN32 gd .rup ⟨5, 3, 1, 2, 0, false⟩)), (0x6C8C50D2, .v (.vsrnd gd ⟨5, 3, 1, 2, 0, false⟩)),
    (0x6D0C50C2, .v (.vplsplit gd ⟨5, 3, 2, 0, false⟩)), (0x6D8C50C2, .v (.vpljoin gd ⟨5, 3, 2, 0, false⟩)),
    (0x6E0C50C6, .v (.voutapply gd ⟨5, 3, 6, 0, false⟩))] := rfl
theorem test_decode_vector_5 : decodes [
    (0x700C50C6, .v (.vrsumF32 gd .rup ⟨5, 3, 6, 0, false⟩)), (0x708C50C6, .v (.vrsumBf16 gd .rup ⟨5, 3, 6, 0, false⟩)),
    (0x710C50C6, .v (.vrsumI32 gd .rup ⟨5, 3, 6, 0, false⟩)), (0x718C50C6, .v (.vrmaxF32 gd .rup ⟨5, 3, 6, 0, false⟩)),
    (0x720C50C6, .v (.vrmaxI32 gd .rup ⟨5, 3, 6, 0, false⟩)), (0x728C50C6, .v (.vrminF32 gd .rup ⟨5, 3, 6, 0, false⟩)),
    (0x730C50C6, .v (.vrminI32 gd .rup ⟨5, 3, 6, 0, false⟩)), (0x738C50C6, .v (.vrargmaxF32 gd .rup ⟨5, 3, 6, 0, false⟩)),
    (0x740C50C6, .v (.vperm gd ⟨5, 3, 6, 0, false⟩)), (0x748C50C6, .v (.vshuf gd ⟨5, 3, 6, 0, false⟩)), (0x750C50C9, .v (.vbcast gd ⟨5, 3, 9, 0⟩)),
    (0x758C50C9, .v (.vslide gd ⟨5, 3, 9, 0⟩)), (0x760C50C6, .v (.vzip gd ⟨5, 3, 6, 0, false⟩)), (0x768C50C6, .v (.vunzip gd ⟨5, 3, 6, 0, false⟩)),
    (0x770C50C0, .v (.vtrn4 gd ⟨5, 3, 0, 0, false⟩)), (0x778C50C6, .v (.vsmmerge gd ⟨5, 3, 6, 0⟩)), (0x780C5000, .v (.vrand gd ⟨5, 0, 0, 0, false⟩)),
    (0x788C5000, .v (.vrandf gd ⟨5, 0, 0, 0, false⟩)), (0x790C5000, .v (.vrnorm gd ⟨5, 0, 0, 0, false⟩)),
    (0x798C5000, .v (.vrnormt gd ⟨5, 0, 0, 0, false⟩)), (0x7A0C00C0, .v (.vrseed gd ⟨0, 3, 0, 0, false⟩)), (0x7C0C5245, .v (.vld gd ⟨5, 2, 1, 5⟩)),
    (0x7C8C5245, .v (.vst gd ⟨5, 2, 1, 5⟩)), (0x7D0C50C6, .v (.vldg gd ⟨5, 3, 6, 0, false⟩))] := rfl
theorem test_decode_vector_6 : decodes [
    (0x7D8C50C6, .v (.vsts gd ⟨5, 3, 6, 0, false⟩)), (0x7E0C5218, .v (.vldpl gd ⟨5, 2, 0, 24⟩))] := rfl
theorem test_decode_matrix_1 : decodes [
    (0x80C07000, .m (.mcfgMode gd ⟨7⟩)), (0x80C52000, .m (.mzero gd ⟨9⟩)), (0x80C9392C, .m (.msnap gd ⟨9, 100, 44⟩)),
    (0x80CD2007, .m (.mresrd gd ⟨9, 7⟩)), (0x80D12000, .m (.mreschk gd ⟨9⟩)), (0x88C09A00, .m (.mpush gd ⟨77⟩)), (0x88C00100, .m (.mpushWp gd)),
    (0x90C00000, .m (.mswap gd)), (0x98D39B65, .m (.mshift gd ⟨9, true, 77, 44, true, 1⟩)), (0xA0D39B62, .m (.mdrain gd ⟨9, true, 77, 44, 2⟩)),
    (0xA8D39B65, .m (.mdrainq gd ⟨9, true, 77, 44, 5⟩))] := rfl
theorem test_decode_transfer_1 : decodes [
    (0xC08EB287, .x (.xcopyIn gd ⟨21, true, 2, 2, 7⟩)), (0xC10EB287, .x (.xcopyOut gd ⟨21, true, 2, 2, 7⟩)),
    (0xC18EB287, .x (.xgather gd ⟨21, true, 2, 2, 7⟩)), (0xC20EB287, .x (.xscatter gd ⟨21, true, 2, 2, 7⟩)),
    (0xC28C1287, .x (.xwbfill gd ⟨0, true, 2, 2, 7⟩)), (0xC30C0287, .x (.xpref gd ⟨0, false, 2, 2, 7⟩)),
    (0xD00C20C6, .x (.xsend gd ⟨2, 3, 6, 0, false⟩)), (0xD08C50C0, .x (.xrecv gd ⟨5, 3, 0, 0, false⟩)),
    (0xD10C50C2, .x (.xrecvaddF32 gd ⟨5, 3, 2, 0, false⟩)), (0xD18C50C2, .x (.xrecvaddI32 gd ⟨5, 3, 2, 0, false⟩)),
    (0xD20C50C2, .x (.xrecvaddBf16 gd ⟨5, 3, 2, 0, false⟩)), (0xD28C50C6, .x (.xrld gd ⟨5, 3, 6, 0, false⟩)),
    (0xD30C50C6, .x (.xrst gd ⟨5, 3, 6, 0, false⟩)), (0xD80C5283, .x (.xamoAdd32 gd ⟨5, 2, 2, 3, 0⟩)),
    (0xD88C5283, .x (.xamoAdd64 gd ⟨5, 2, 2, 3, 0⟩)), (0xD90C5283, .x (.xamoFaddF32 gd ⟨5, 2, 2, 3, 0⟩)),
    (0xD98C5283, .x (.xamoMin32 gd ⟨5, 2, 2, 3, 0⟩)), (0xDA0C5283, .x (.xamoMin64 gd ⟨5, 2, 2, 3, 0⟩)),
    (0xDA8C5283, .x (.xamoMax32 gd ⟨5, 2, 2, 3, 0⟩)), (0xDB0C5283, .x (.xamoMax64 gd ⟨5, 2, 2, 3, 0⟩)),
    (0xDB8C5283, .x (.xamoMinn32 gd ⟨5, 2, 2, 3, 0⟩)), (0xDC0C5283, .x (.xamoMinn64 gd ⟨5, 2, 2, 3, 0⟩)),
    (0xDC8C5283, .x (.xamoMaxn32 gd ⟨5, 2, 2, 3, 0⟩)), (0xDD0C5283, .x (.xamoMaxn64 gd ⟨5, 2, 2, 3, 0⟩))] := rfl
theorem test_decode_transfer_2 : decodes [
    (0xDD8C5283, .x (.xamoAnd32 gd ⟨5, 2, 2, 3, 0⟩)), (0xDE0C5283, .x (.xamoAnd64 gd ⟨5, 2, 2, 3, 0⟩)),
    (0xDE8C5283, .x (.xamoOr32 gd ⟨5, 2, 2, 3, 0⟩)), (0xDF0C5283, .x (.xamoOr64 gd ⟨5, 2, 2, 3, 0⟩)),
    (0xDF8C5283, .x (.xamoXor32 gd ⟨5, 2, 2, 3, 0⟩)), (0xE00C5283, .x (.xamoXor64 gd ⟨5, 2, 2, 3, 0⟩)),
    (0xE08C5283, .x (.xamoSwap32 gd ⟨5, 2, 2, 3, 0⟩)), (0xE10C5283, .x (.xamoSwap64 gd ⟨5, 2, 2, 3, 0⟩)),
    (0xE18C5283, .x (.xamoCas32 gd ⟨5, 2, 2, 3, 0⟩)), (0xE20C5283, .x (.xamoCas64 gd ⟨5, 2, 2, 3, 0⟩)), (0xE80C0020, .x (.xfence gd ⟨0, 0, 0, 2⟩)),
    (0xE88C72A0, .x (.xrel gd ⟨7, 2, 2, 2⟩)), (0xE90C52A0, .x (.xacq gd ⟨5, 2, 2, 2⟩)), (0xE98C5283, .x (.xvld gd ⟨5, 2, 2, 3, 0⟩)),
    (0xF00C00C0, .x (.xnmc gd ⟨0, 3, 0, 0, false⟩)), (0xF08C0000, .x (.xnmfence gd)), (0xF80C50C0, .x (.xtagld gd ⟨5, 3, 0, 0, false⟩)),
    (0xF88C00C6, .x (.xtagst gd ⟨0, 3, 6, 0, false⟩)), (0xF90C50C0, .x (.tstate gd ⟨5, 3, 0, 0, false⟩)),
    (0xF98C50C6, .x (.tlayoutClaim gd ⟨5, 3, 6, 0, false⟩)), (0xFA0C00C0, .x (.trelease gd ⟨0, 3, 0, 0, false⟩)),
    (0xFA8C00C6, .x (.trjrec gd ⟨0, 3, 6, 0, false⟩)), (0xFB0C00C0, .x (.bfpost gd ⟨0, 3, 0, 0, false⟩))] := rfl

/-- The decoder reads an operation from the word, and its fields are in their ranges. -/
def accepted (w : W32) : Bool := match decodeSlot true .rup 0 w with | .ok i => i.ok | .error _ => false
/-- Words of no row: an unused opcode, an unused field that is not zero, a predicate code above 23, an acc field above 23. -/
theorem test_decode_refuses : accepted 0x3F800000 = false ∧ accepted 0x0B0C50C1 = false ∧ accepted 0x00E050C6 = false ∧ accepted 0x80C70000 = false ∧
    accepted 0x008C50C6 = true := ⟨rfl, rfl, rfl, rfl, rfl⟩

/-! ### Single steps -/

/-- ADD wraps: g2 = 2 and g5 = 2^64 - 1 give 1 at the end of the bundle (05_scalar_control.md R128; latency 1). -/
theorem test_add_wraps : ∃ t, exec (.add always (rr 1 2 5)) (with0 (fun c => c.setG 5 (BitVec.allOnes 64))) = .next t ∧ (t.core 0).getG 1 = 1 :=
  next_of (by decide +kernel)
/-- Both sources are read before the result is written: SUB g2 := g2 - g2. -/
theorem test_sub_reads_first : ∃ t, exec (.sub always (rr 2 2 2)) run1 = .next t ∧ (t.core 0).getG 2 = 0 := next_of (by decide +kernel)
/-- A write to g0 is discarded (02_core.md R25). -/
theorem test_g0_reads_zero : ∃ t, exec (.add always (rr 0 2 2)) run1 = .next t ∧ (t.core 0).getG 0 = 0 := next_of (by decide +kernel)
/-- A store of eight bytes, little-endian (05_scalar_control.md R136; 03_numbers.md R71): g7's low byte stands at the address. -/
theorem test_store_is_little_endian : ∃ t, exec (.st64 always ⟨7, 1, 0, 0⟩) (with0 (fun c => c.setG 7 0x0102030405060708)) = .next t ∧
    t.mem.byte 0x400000 = 8 ∧ t.mem.byte 0x400007 = 1 := next_of (by decide +kernel)
/-- A misaligned load traps with cause 7: the handler at HBASE × 16 comes next and FAULTADDR holds the address (05_scalar_control.md R137). -/
theorem test_misaligned_load_traps : ∃ t, exec (.ld64 always ⟨7, 2, 0, 0⟩) run1 = .next t ∧ (t.core 0).cause = 7 ∧ (t.core 0).pc = 0x400 ∧
    (t.core 0).faddr = 0x400004 := next_of (by decide +kernel)
/-- A load of an absent page freezes the bundle: the pc stays (11_page.md R281). -/
theorem test_absent_page_freezes : ∃ t, exec (.ld64 always ⟨7, 3, 0, 0⟩) run1 = .next t ∧ (t.core 0).pc = 0 ∧ (t.core 0).cause = 0 := next_of (by decide +kernel)
/-- BR by two bundles, from the address of its own (05_scalar_control.md R140). -/
theorem test_branch : ∃ t, exec (.br always ⟨2⟩) run1 = .next t ∧ (t.core 0).pc = 32 := next_of (by decide +kernel)
/-- VADD.f32 of 1.0 and 2^-24 to nearest even gives 1.0, up gives the next number (03_numbers.md R77). -/
theorem test_vadd_rounds : let s := with0 (fun c => (c.setV 1 0x3F800000).setV 2 0x33800000)
    let r (m : RMode) : List W32 := match exec (.vaddF32 always m (rr 3 1 2)) s with
      | .next t => (t.core 0).pend.map (fun p => (p.value : Vec).extractLsb' 0 32)
      | _ => []
    r .rne = [0x3F800000] ∧ r .rup = [0x3F800001] := by decide +kernel
/-- DIV by zero completes with all ones, 20 cycles on (05_scalar_control.md R128, R130). -/
theorem test_divide_by_zero : ∃ t, exec (.div always (rr 1 2 0)) run1 = .next t ∧ (t.core 0).pend.map (fun p => p.value) = [vec64 (BitVec.allOnes 64)] :=
  next_of (by decide +kernel)
/-- TRAP in an open window: the handler comes next, the window is shut (05_scalar_control.md R154; 14_trap.md R337). -/
theorem test_software_trap : ∃ t, exec (.trap always ⟨0, 5⟩) run1 = .next t ∧ (t.core 0).pc = 0x400 ∧ (t.core 0).twin = false := next_of (by decide +kernel)
/-- A fetched word runs: ADD at the pc, one step. -/
theorem test_step_fetches : ∃ t, step (run1.launchedAt (soloWord (.s (.add always (rr 1 0 0))))) = .next t ∧ (t.core 0).pc = 16 := next_of (by decide +kernel)

end Sys2Proof.Tests
end

