-- ==== Sys2Proof/Tests/WitnessEvents.lean ====
section
/-! SUPPORT. States and operands that meet the premises of the statements about device events. -/

namespace Sys2Proof.Tests
open Sys2Proof.Machine

/-! ### Events of cores and commands -/

/-- An in-flight record entry at work. -/
def atWork (kind seq : Nat) (opnd : Nat) : IfrEntry := { IfrEntry.new .idem kind (BitVec.ofNat 512 opnd) [] with seq := seq, started := true, sent := true }

/-- `run1` with the record's entries: a fill of a block at 0x400000 into tile 1, a copy out of tile 0, a fill of the weight buffer, an atomic, a release, an arrival, a near-memory
command, a held load; results, beats and reports due; tile 1 filling, tile 0 draining. -/
def runE : State :=
  let s : State := { run1 with groups := [(1, some ⟨1, 0, 0, none, 0, [0], .running, none⟩)], sends := [⟨0, 9, 0, 1, 0, 5⟩], locks := [⟨0, 0x10000, false⟩] }
  let s := s.setBar (.quarter 0) { Barrier.fresh with exp := 1 }
  s.upd 0 (fun c => { c with
    mem := ⟨1, 1, 0, 0, 0, 1, 1, 0, 0, 1, 0⟩
    ic := 2048, pend := [⟨.s, .g, 1, 5, 0, 3⟩], fenceX := true, fseq := 0, nextSeq := 9
    tiles := [(0, ⟨.draining, 0, 1, false, false⟩), (1, ⟨.filling, 0, 1, false, false⟩)]
    ifr := [(0, atWork 3 0 (0x400000 + 2 ^ 64 + 2 ^ 192)), (1, atWork 4 1 (0x400040 + 2 ^ 64)), (2, atWork 13 2 (0x400080 + 2 ^ 64)), (3, atWork 2 3 (0x400100 + 2 ^ 64 + 0x31 * 2 ^ 192)),
            (4, atWork 8 0 (0x400200 + 5 * 2 ^ 64)), (5, atWork 10 0 0), (6, atWork 9 6 (5 + 2 ^ 32 + 0x400400 * 2 ^ 64)), (7, { atWork 3 7 (0x400000 + 2 ^ 64 + 2 ^ 192) with prog := 64 }),
            (8, { atWork 3 8 (0x400000 + 2 ^ 64 + 0x400500 * 2 ^ 128 + 2 ^ 192) with prog := 64 }), (96, atWork 1 0 (0x400000 + 8 * 2 ^ 64)), (10, { atWork 2 1 0 with ans := true }),
            (11, atWork 3 5 (0xC00000 + 2 ^ 64 + 2 ^ 192)), (12, { atWork 3 5 (0x400000 + 2 ^ 64 + 2 ^ 192) with posted := some 1 })] })

theorem wit_core_events : (∃ p ∈ (runE.core 0).pend, p.due ≤ (runE.core 0).ic) ∧ (runE.core 0).ticks < (runE.core 0).ic / 1024 ∧ (runE.core 0).run = .running ∧
    ((run0.core 0).mx.setSt 23 { (run0.core 0).mx.st 23 with wm := 127 }).st 23 = { (run0.core 0).mx.st 23 with wm := 127 } ∧
    (∃ b ∈ ([⟨0, 0, 0, 5, false, false, false, [], ⟨0, 0⟩, false⟩] : List Beat), b.due ≤ 2048) ∧
    (let c := { run0.core 0 with twin := true, reports := [⟨3, 9, 0⟩] }; c.twin = true ∧ c.heldBundle = false ∧ c.reports ≠ []) := by decide

theorem wit_device_events : frameNamed ((11 * 2 ^ 14 + 15257) * 2 ^ 22 / 2 ^ 22) = true ∧ frameNamed (2 ^ 23 + 366209) = true ∧ frameNamed (11 * 2 ^ 14 + 15258) = false ∧
    (527 : Nat) < 528 ∧ 0 < spadSize 527 ∧ spadSize 0 - 1 < spadSize 0 ∧ run1.root.astat ≠ 1 ∧ run1.root.ready = true ∧ State.reset.root.ready = false ∧ State.reset.root.fail = false ∧
    State.reset.root.step.toNat < 8 := by decide
/-- Die 0 with two uncorrectable errors and a threshold of 1, with no part on its quarters. -/
theorem wit_quarantine : let s : State := { State.reset with log := { State.reset.log with thresh := 1 }, dcnt := [(0, 1)] }
    s.log.thresh ≠ 0 ∧ s.log.thresh.toNat ≤ s.dcntOf 0 ∧ s.deadDies.getLsbD 0 = false ∧ ∀ q ∈ s.quartersOf 0, s.quarterStill q = true := by decide

theorem wit_fill : (∃ e, runE.working 0 0 = some e ∧ e.kind = 3 ∧ e.prog < e.total ∧ runE.engineAt 0 (BitVec.ofNat 64 (e.field 0 8) + BitVec.ofNat 64 e.prog) (permXR + permVT) false = .go (at0 0x400000)) ∧
    storedTag 0 0 false (runE.tagOf (at0 0x400000)) (runE.core 0).spad 1 (runE.leadTag 0 0 0 0x400000) = some 0 ∧ (runE.engineAt 0 0xC00000 (permXR + permVT) false = .absent 1) := by decide +kernel
theorem wit_copy_out : ∃ e, runE.working 0 1 = some e ∧ e.kind = 4 ∧ e.prog < e.total ∧ leavesOk 0 0 false ((runE.core 0).spad.tag 0) ((runE.core 0).spad.tag 0) = true ∧
    runE.engineAt 0 0x400040 (permXW + permVT) true = .go (at0 0x400040) := ⟨_, rfl, by decide +kernel⟩
theorem wit_weights : ∃ e, runE.working 0 2 = some e ∧ e.kind = 13 ∧ e.prog < e.total ∧ runE.engineAt 0 0x400080 permWB false = .go (at0 0x400080) ∧
    codeDefined (tagCode (runE.tagOf (at0 0x400080))) = true := ⟨_, rfl, by decide +kernel⟩
theorem wit_absent : (∃ e, runE.working 0 11 = some e ∧ e.kind = 3 ∧ e.posted = none ∧ e.prog < e.total ∧ runE.engineAt 0 0xC00000 (permXR + permVT) false = .absent 1) ∧
    ∃ e, runE.working 0 12 = some e ∧ e.kind = 3 ∧ e.posted = some 1 ∧
      (match runE.engNext 0 12 e with | .absent va _ _ _ => decide (pageOf va ≠ 1) | _ => true) = true := by
  refine ⟨⟨_, rfl, by decide +kernel⟩, _, rfl, by decide +kernel⟩
theorem wit_tags_brought : poisoned (0xFFFF : BitVec 16) = true ∧ codeDefined (tagCode (0x0100 : BitVec 16)) = true ∧ codeDefined (tagCode (0x8000 : BitVec 16)) = false ∧
    nestedCode 0x06 = false ∧ planeCode 0x06 0 = 0x06 := by decide

theorem wit_ends : (∃ e, runE.working 0 7 = some e ∧ e.copies = true ∧ e.total ≤ e.prog ∧ BitVec.ofNat 64 (e.field 16 8) = (0 : W64)) ∧
    ∃ e, runE.working 0 8 = some e ∧ e.copies = true ∧ e.total ≤ e.prog ∧ BitVec.ofNat 64 (e.field 16 8) = (0x400500 : W64) ∧ runE.engineAt 0 0x400500 permXW true = .go (at0 0x400500) ∧
      poisoned (runE.tagOf (at0 0x400500)) = false ∧ e.rpl = false := ⟨⟨_, rfl, by decide +kernel⟩, _, rfl, by decide +kernel⟩
/-- A fill from a page that gives no permission fails. -/
theorem wit_fails : let s := runE.setEntry 0 0 1 (BitVec.ofNat 64 (2 ^ 40 + 2 ^ 37)); ∃ e, s.working 0 0 = some e ∧ e.kind = 3 ∧ s.engNext 0 0 e = .fail 0x400000 0x13 := by decide +kernel
theorem wit_answers : (∃ e, (runE.core 0).entry 10 = some e ∧ e.ans = true ∧ e.ended = false) ∧ (runE.core 0).replay = false ∧
    (∃ e, (runE.core 0).entry 96 = some e ∧ e.kind = 1 ∧ e.ans = false ∧ e.field 8 1 ≤ 8 ∧ runE.engineAt 0 (BitVec.ofNat 64 (e.field 0 8)) permSL false = .go (at0 0x400000)) ∧
    (∃ e, runE.working 0 3 = some e ∧ e.kind = 2 ∧ e.rpl = false ∧ (runE.core 0).amoPending (BitVec.ofNat 64 (e.field 0 8)) e.seq = false ∧
      runE.engineAt 0 0x400100 (permXR + permXW) true = .go (at0 0x400100)) ∧
    ∃ e, runE.working 0 4 = some e ∧ e.kind = 8 ∧ e.rpl = false ∧ (runE.core 0).allWritten e.seq = true ∧ runE.engineAt 0 0x400200 permXW true = .go (at0 0x400200) :=
  ⟨⟨_, rfl, by decide⟩, rfl, ⟨_, rfl, by decide +kernel⟩, ⟨_, rfl, by decide +kernel⟩, _, rfl, by decide +kernel⟩
theorem wit_queues : (∃ l, runE.locks[0]? = some l ∧ l.granted = false) ∧ (∃ x, runE.sends.find? (fun x => x.src = 0 && x.entry = 9) = some x ∧ x.land ≤ runE.now) ∧
    (runE.core 0).fenceX = true ∧ (runE.core 0).allPerformed (runE.core 0).fseq = true ∧
    (∃ e, (runE.core 0).entry 5 = some e ∧ e.kind = 10 ∧ (runE.core 0).released e = true ∧ (runE.core 0).allWritten e.seq = true ∧ runE.arrivalBar 0 e = some (.bar (.quarter 0)) ∧
      (runE.bar (.quarter 0)).held = [] ∧ (runE.core 0).arrivalBefore e (runE.bar (.quarter 0)).held 0 = false) := ⟨⟨_, rfl, rfl⟩, ⟨_, rfl, by decide⟩, rfl, by decide +kernel, _, rfl, by decide +kernel⟩
theorem wit_leave : let s := (runE.upd 0 (fun c => { c with run := .halted, ifr := [] })); (s.core 0).run = .halted ∧ (∀ e ∈ (s.core 0).commands, e.2.kind = 10 → e.2.ended = true) ∧
    ∃ b ∈ s.barsOf 0, (s.bar b).exp.getLsbD (s.barBit 0 b) = true := by decide +kernel
theorem wit_near_memory : ∃ e, runE.working 0 6 = some e ∧ e.kind = 9 ∧ e.rejected = false ∧ e.rpl = false ∧ runE.nmExamine 0 e.nm = .stack 0 ∧ e.prog / 64 < e.nm.groups ∧
    runE.nmEarlier 0 e 0 = false ∧ runE.engineAt 0 e.nm.bw permNM true = .go (at0 0x400400) := ⟨_, rfl, by decide +kernel⟩
theorem wit_near_memory_done : let e : IfrEntry := { atWork 9 6 (5 + 2 ^ 32 + 0x400400 * 2 ^ 64) with prog := 64 }; e.nm.groups ≤ e.prog / 64 := by decide +kernel
end Sys2Proof.Tests

namespace Sys2Proof.Tests
open Sys2Proof.Machine

/-! ### Contexts, kernels, weights, links, host -/

/-- `run1` with a kernel of each state, groups of its kernel, a graph that waits and one that ends, a barrier, ports, trees, streams. -/
def runK : State :=
  let r : LaunchRec := { LaunchRec.none with entry := 0x100, param := 0x400000, done := 0x400008, gsize := 1, ngrp := 2 }
  let k (st : NodeSt) : Kernel := { Kernel.new 0 1 none 0x400000 0 0 with hasRec := true, lrec := r, st := st, placed := 1 }
  let s : State := { run1.setEntry 16 0 1 (openPage 1) with
    kernels := [(1, some (k .running)), (2, some { Kernel.new 0 1 none 0x400000 0 0 with st := .queued }), (3, some { Kernel.new 0 1 none 0x400004 0 0 with st := .queued }),
      (4, some { k .running with retired := 2, placed := 2 }), (5, some (k .aborted)), (6, some { Kernel.new 0 2 none 0x400100 0 0 with st := .running }),
      (7, some { Kernel.new 0 3 none 0 0 0 with st := .running, chunks := [⟨0, 0x400000, 0x400100, 1, 0, 0, [], false, false⟩, ⟨4, 0x400000, 0x400100, 1, 0, 0, [], false, false⟩, ⟨4, 0, 0, 1, 3, 0, [], false, false⟩] }),
      (8, some { Kernel.new 0 4 none 0 0 0 with st := .running, exec := some 7 }), (9, some { k .queued with lrec := { r with gsize := 1, ngrp := 1 }, placed := 0 })]
    groups := [(1, some ⟨1, 0, 0, none, 0, [0], .running, none⟩), (2, some ⟨1, 0, 1, none, 1, [32], .forming, none⟩)]
    nextKernel := 20, nextGroup := 9
    ports := [(0, { Port.reset with st := .training, en := true }), (1, { Port.reset with st := .up, en := true })]
    trees := [(0, ⟨.allocated, 0, 0, 1, [⟨0, 0xFFFF, 0xFF, 0xFF, 0⟩], false, false⟩), (1, ⟨.reserved, 0, 2, 1, [], false, false⟩)]
    treeReqs := [⟨0, true, ⟨.free, 0, 2, 1, [], false, false⟩, some 1⟩]
    pubs := [⟨0, 1, 4, 0, false, true, 0, none, 0⟩], leaves := [⟨0, 0, 1, 1, 0, none, false⟩], part := { run1.part with busy := true, lrnNew := run1.part.lrn }
    voids := [⟨0, 0, 5, 2, none⟩]
    samples := [⟨0, 0x400040, 0, false, 0, 0, 0, none⟩]
    kvcommits := [⟨0, 1, [(2, 3)], 0, 0, 0, none, 0, false⟩, ⟨0, 2, [(2, 3)], 0, 1, 0, none, 0, false⟩]
    sweeper := ⟨[⟨0, 0, 5, 0x400000, 0x400080, 4, 1, 0, none, none, false⟩], []⟩
    streams := [⟨0, 0, 1, 0x400000, 0x400000, 0, 0, 0, 0, false⟩]
    fns := [(0, { (run1.fn 0) with busy := some 0 })] }
  let s := s.updCtx 0 (fun c => { c with
    graphs := [(0, some ⟨[], [], 0, false, 0, [8], [], [], [], [], none⟩), (1, some ⟨[], [], 0, true, 0, [], [], [], [], [], none⟩)]
    wvt := [(1, ⟨3, 0, false, true, ⟨0x800000, 1, .published, 1⟩, ⟨0xC00000, 1, .writing, 1⟩, 0, 0⟩)]
    ring := some ⟨0x400000, 64, 0, 0, 0, none⟩
    kvpg := 2, kvnp := 1, marks := [(2, .spec 1), (3, .spec 1), (4, .pending)] })
  s.upd 0 (fun c => { c with mem := ⟨1, 1, 0, 0, 0, 1, 1, 0, 0, 1, 0⟩, slotReq := true })

theorem wit_part_frozen : let s := run1.updCtx 0 (fun c => c.setPart 1 .freezing)
    (s.ctx 0).part 1 = .freezing ∧ (∀ g ∈ s.groupsOn 0 1, g.2.st ≠ .forming) ∧ (∀ n ∈ s.partCores 0 1, (s.core n).run ≠ .running) ∧ (s.ctx 0).req = none := by decide +kernel
/-- A request for quarter 1's part, with a save area at 0x400000; its first piece lies in page 1, the quarter's record in page 41. -/
def runS (r : Request) (p : PartSt) (e : W64) : State :=
  (run1.setEntry 0 0 41 e).updCtx 0 (fun c => { c.setPart 1 p with savva := 0x400000, savsz := 0xC000000, req := some r })
theorem wit_save : let s := runS ⟨false, 2, 2, 2, 0, [], none⟩ .saving (openPage 3)
    (∀ q ∈ quartersIn 2, (s.ctx 0).part q = .saving) ∧ s.saveReady 0 2 = true ∧ s.areaStop 0 true (s.areaPieces 0 (s.imageRanges 0 2)) 0 = none := by decide +kernel
theorem wit_restore : let s := runS ⟨true, 1, 2, 2, 0, [(1, .saved)], none⟩ .restoring (openPage 3)
    let rs := s.restoreRanges 0 2
    s.areaStop 0 false (s.areaPieces 0 rs) 0 = none ∧ s.areaPoisoned 0 rs = false ∧ s.roomFor (s.readArea 0 rs) 2 = true := by decide +kernel
theorem wit_area_fault : let s := runS ⟨false, 2, 2, 2, 0, [], none⟩ .saving 0
    (s.areaStop 0 true (s.areaPieces 0 (s.imageRanges 0 2)) 0).map (fun r => (r.1, r.2.1)) = some (.bad, 4096) := by decide +kernel
theorem wit_loading : ((run1.updCtx 1 (fun c => { c with st := .loading })).ctx 1).st = .loading ∧ ((run1.updCtx 1 (fun c => { c with st := .dead })).ctx 1).st = .dead := by decide
theorem wit_shootdown : let o : PgOp := ⟨0, 0, 1, false, 0, 0, 0, [3, 4], pgFirst, 0, true⟩
    (o.phase = pgFirst ∧ 3 ∈ o.units ∧ o.units.filter (· ≠ 3) ≠ []) ∧ [3].filter (fun u => decide (u ≠ 3)) = [] ∧ pgCopy ≠ pgDone := by decide
theorem wit_move : let s : State := { run1 with pgops := [⟨0, 0, 1, true, 5, openPage 1, openPage 1, [], pgCopy, 0, true⟩] }
    ∃ o l, s.pgops = o :: l ∧ o.phase = pgCopy ∧ ∀ c ∈ s.mem.tags, pePfn o.old * 2 ^ 22 / 64 ≤ c.1 → c.1 < pePfn o.old * 2 ^ 22 / 64 + 2 ^ 16 → poisoned c.2 = false :=
  ⟨_, _, rfl, rfl, by decide +kernel⟩

theorem wit_record_read : (∃ v, runK.kernel 3 = some v ∧ v.st = .queued ∧ v.hasRec = false ∧ v.kind = 1 ∧ v.recva.toNat % 64 ≠ 0) ∧
    (∃ v, runK.kernel 2 = some v ∧ v.st = .queued ∧ v.hasRec = false ∧ v.kind = 1 ∧ v.recva.toNat % 64 = 0 ∧ v.job = none) := ⟨⟨_, rfl, by decide⟩, _, rfl, by decide⟩
theorem wit_record_place : inWindow (runK.ctx 0) (0x400000 + 127) = true ∧ runK.cpAt 0 0x400000 permXR false = .go (at0 0x400000) := by decide +kernel
/-- A record of zeros fails a check; a group of 32 cores passes them all. -/
theorem wit_record_checks : (LaunchRec.none).error (runK.ctx 0) runK.part true = some 2 := by decide +kernel
theorem wit_record_passes : ({ LaunchRec.none with entry := 0x100, gsize := 32, ngrp := 1 } : LaunchRec).error (runK.ctx 0) runK.part true = none := by decide +kernel
theorem wit_groups : (∃ v, runK.kernel 1 = some v ∧ ∃ g, runK.group 2 = some g ∧ g.k = 1 ∧ g.st = .forming ∧ v.st ≠ .aborted) ∧
    (∃ v, runK.kernel 4 = some v ∧ v.owed = 0 ∧ v.complete = true) ∧ (∃ v, runK.kernel 5 = some v ∧ v.owed = 0 ∧ v.st = .aborted ∧ v.completed = false) :=
  ⟨⟨_, rfl, _, rfl, by decide⟩, ⟨_, rfl, by decide +kernel⟩, _, rfl, by decide⟩
theorem wit_over : let s := (runK.upd 0 (fun c => { c with run := .halted }))
    ∃ g, s.group 1 = some g ∧ g.st = .running ∧ s.groupOver 1 g false = true ∧ s.ownedBy 0 5 = [] := ⟨_, rfl, by decide +kernel⟩
theorem wit_placeable : ∃ v, runK.kernel 9 = some v ∧ runK.placeable 9 v = true ∧ ∃ l, runK.fits 9 v = some l := ⟨_, rfl, by decide +kernel, _, rfl⟩
theorem wit_graphs : (∃ v, (runK.ctx 0).graph 0 = some v ∧ v.running = false ∧ v.waiting = [8]) ∧ (∃ v, (runK.ctx 0).graph 1 = some v ∧ v.running = true ∧ v.nodes = []) :=
  ⟨⟨_, rfl, rfl, rfl⟩, _, rfl, rfl, rfl⟩
theorem wit_chunks : ∃ v, runK.kernel 7 = some v ∧ v.kind = 3 ∧ v.st = .running ∧ (∃ o, v.chunks[0]? = some o ∧ o.op ≤ 3 ∧ o.dep = 0 ∧ o.done = false) ∧
    (∃ w ∈ runK.kernelList, w.2.exec = some 7 ∧ w.2.st = .running) ∧ (runK.tree 0).st = .allocated ∧ (runK.tree 3).st ≠ .allocated := by
  refine ⟨_, rfl, rfl, rfl, ⟨_, rfl, by decide⟩, ⟨(8, { Kernel.new 0 4 none 0 0 0 with st := .running, exec := some 7 }), by decide +kernel, rfl, rfl⟩, by decide⟩

theorem wit_publish : (∃ p, runK.pubs.find? (fun p => p.ctx = 0 && p.t = 1 && !p.done) = some p ∧ (runK.core p.core).ctx = 0 ∧ (runK.core p.core).allWritten (runK.core p.core).nextSeq = true) ∧
    ((runK.ctx 0).tensor 1).ver ≠ 0 ∧ ((runK.ctx 0).tensor 1).cmt = false ∧ (∃ l, runK.leaves[0]? = some l ∧ runK.readsDone l.ctx l.core l.seq = true) ∧ runK.part.busy = true :=
  ⟨⟨_, rfl, by decide +kernel⟩, by decide, by decide, ⟨_, rfl, by decide +kernel⟩, rfl⟩
theorem wit_recorder : (∃ r, (runK.ctx (runK.core 0).ctx).ring = some r ∧ (runK.core 0).slotReq = true ∧ (runK.core 0).nleft = 0 ∧ runK.ringAt 0 r.base true = .go (at0 0x400000) ∧ r.grant + 16 - 0 ≤ r.cap ∧
    runK.ringAt 0 (r.slotVa 5) true = .go (at0 (0x400040 + 32 * 5))) ∧ (∃ v, runK.voids[0]? = some v) := ⟨⟨_, rfl, by decide +kernel⟩, _, rfl⟩
theorem wit_samples : ∃ b, runK.samples[0]? = some b ∧ b.active = false ∧ (match runK.sampleRead b with | .inl ((d, t), _) => decide (d = 0 ∧ t = 0) | .inr _ => false) = true ∧ outVa 0 = 0 := ⟨_, rfl, by decide +kernel⟩
theorem wit_commits : (∃ c : KvCommit, runK.kvcommits[0]? = some c ∧ let d := c.skip (entryBytes (runK.ctx 0)) c.pairs.length
      d.pairs[d.idx]? = some (2, 3) ∧ runK.placeAt 0 (runK.svUnit 0) (some 1) (BitVec.ofNat 64 (kvAddr (runK.ctx 0) 2 + d.prog)) permXR false = .go (at0 0x800080)) ∧
    ∃ c : KvCommit, runK.kvcommits[1]? = some c ∧ runK.copiesDone c = true ∧ c.marked = false := ⟨⟨_, rfl, by decide +kernel⟩, _, rfl, by decide +kernel⟩
theorem wit_jobs : (∃ j l, runK.sweeper.jobs = j :: l ∧ j.kernel = none) ∧
    (let s : State := { runK with sweeper := ⟨[⟨0, 0, 5, 0x400000, 0x400080, 4, 1, 0, some 5, none, false⟩], []⟩ }
     ∃ j v, s.sweeper.jobs[0]? = some j ∧ j.kernel = some 5 ∧ s.kernel 5 = some v ∧ v.st = .aborted) := ⟨⟨_, _, rfl, rfl⟩, _, _, rfl, rfl, rfl, rfl⟩

theorem wit_ports : (runK.port 0).st = .training ∧ (runK.port 1).st = .up ∧ (runK.port 23).st = .down ∧ runK.placeAt 0 (runK.svUnit 0) none 0x400000 permLK true = .go (at0 0x400000) := by decide +kernel
theorem wit_trees : (runK.tree 2).st = .free ∧ (∃ r l, runK.treeReqs = r :: l ∧ r.slot = some 1 ∧ r.wanted = true) ∧ (runK.tree 1).st = .reserved ∧
    runK.portShut (runK.tree 1).ents 0 (runK.tree 1).ents = none := ⟨by decide, ⟨_, _, rfl, rfl, rfl⟩, by decide, rfl⟩
theorem wit_host : runK.root.fail = false ∧ runK.root.ready = true ∧ frameNamed (0x400000 / 2 ^ 22) = true ∧
    (∃ t c, runK.streams[0]? = some t ∧ (runK.fn t.fn).busy = some c ∧ 0 ≤ t.bytes) := ⟨rfl, rfl, by decide, _, _, rfl, rfl, by decide⟩

/-- A command of function 0 at the head of its ring: opcode, context, operands from bit 64 on. -/
def hostCmd (opc ctx rest : Nat) : BitVec 512 := BitVec.ofNat 512 (opc + ctx * 2 ^ 8 + rest * 2 ^ 64)
def asked (s : State) (cmd : BitVec 512) : State :=
  let v : HostFn := { s.fn 0 with qent := 4 }
  { s with hostMem := v.ringWrite 0 [cmd] s.hostMem }.setFn 0 { v with cput := 1 }
theorem wit_commands : ∀ o ∈ List.range 12, Claims.next (asked run1 (hostCmd o 0 0)) 0 (hostCmd o 0 0) ∧ cmdOpc (hostCmd o 0 0) = o ∧ cmdCtx (hostCmd o 0 0) = 0 := by
  unfold Claims.next; decide +kernel
theorem wit_command_contexts : (run1.ctx 5).st = .free ∧ (run1.ctx 0).st ≠ .free ∧ (run1.ctx 0).creator = 0 ∧ createOk (hostCmd 1 3 0) = true ∧ createOk (hostCmd 1 3 (2 ^ 64)) = false ∧
    cmdCtx (hostCmd 2 64 0) = 64 ∧ ((run1.ctx 0).st = .ready ∨ (run1.ctx 0).st = .active) := by decide +kernel
theorem wit_queue_command : let w (j : Nat) : W64 := (hostCmd 6 0 (0x3F + 0x400000 * 2 ^ 64 + 2 * 2 ^ 128)).extractLsb' (64 + 64 * j) 64
    (w 0).toNat < 64 ∧ (w 1).toNat % 64 = 0 ∧ powerIn (w 2).toNat 1 16 = true ∧ bytesIn (run1.ctx 0) (w 1) (64 + 64 * (w 2).toNat) = true ∧
    Tbl.get none (run1.ctx 0).queues (w 0).toNat = none := by decide +kernel
theorem wit_ring_command : powerIn 64 6 24 = true ∧ bytesIn (run1.ctx 0) 0x400000 (64 + 32 * 64) = true ∧ (run1.ctx 0).ring = none ∧ run1.ringAt 0 0x400000 true = .go (at0 0x400000) := by decide +kernel
theorem wit_graph_command : (run1.ctx 0).graph 3 = none ∧ run1.readNodes 0 0 0x400000 = .inl [] ∧ graphOk [] = true := by decide +kernel
theorem wit_version_commands : rangeIn (run1.ctx 0) 0x400000 1 = true ∧ rangeIn (run1.ctx 0) 0x800000 1 = true ∧ rangesApart 0x400000 1 0x800000 1 = true ∧ (run1.ctx 0).wvt = [] ∧ run1.pgops = [] := by
  decide +kernel
end Sys2Proof.Tests
end

