-- ==== Sys2Proof/Tests/WitnessDevice.lean ====
section
/-! SUPPORT. States and operands that meet the premises of the statements about commands of the host, records, nodes and units: what `WitnessEvents` leaves. -/

namespace Sys2Proof.Tests
open Sys2Proof.Machine

/-- The reading or writing found no obstacle. -/
def inlB {α β : Type} (x : α ⊕ β) : Bool := match x with | .inl _ => true | .inr _ => false

/-! ### The host's commands -/

/-- `run1` with master entries of pages 6 to 9 on frames 6 to 9, a graph that waits for nothing and a tensor of two slots. -/
def runH : State :=
  let m := (List.range 4).foldl (fun (m : Memory) j => m.write (8 * (6 + j)) 8 (openPage (6 + j)).toNat) run1.mem
  ({ run1 with mem := m }).updCtx 0 (fun c => { c with
    graphs := [(0, some ⟨[], [], 0, false, 0, [], [], [], [], [], none⟩)]
    wvt := [(1, ⟨3, 0, false, true, ⟨0x800000, 1, .published, 0⟩, ⟨0xC00000, 1, .free, 0⟩, 0, 0⟩)] })

/-- Operand words of a host command. -/
def words (l : List Nat) : Nat := (l.zip (List.range l.length)).foldl (fun v e => v + e.1 * 2 ^ (64 * e.2)) 0
def cmdOf (opc : Nat) (l : List Nat) : BitVec 512 := hostCmd opc 0 (words l)

set_option exponentiation.threshold 600 in
/-- Each of the nine commands stands next, of context 0. -/
theorem wit_host_commands : ∀ l ∈ [(2, []), (3, [2, 0x1800000, 0x2000000, 2]), (4, [1]), (5, [0x400000, 64]), (6, [63, 0x400000, 2]), (7, [3, 0, 0x400000, 0x400000]), (8, [0, 8]),
      (9, [0x400000, 8]), (10, [5, 0, 0, 0x400000, 1, 0x400000])],
    Claims.next (asked runH (cmdOf l.1 l.2)) 0 (cmdOf l.1 l.2) ∧ cmdCtx (cmdOf l.1 l.2) = 0 ∧ cmdOpc (cmdOf l.1 l.2) = l.1 := by
  unfold Claims.next; decide +kernel
theorem wit_host_context : (runH.ctx 0).st = .active ∧ (runH.ctx 0).creator = 0 ∧ (runH.ctx 0).st ≠ .dead := by decide +kernel
set_option exponentiation.threshold 600 in
/-- WVDEF of two disjoint ranges of two pages, present in named first-tier frames; WVREM of a tensor nobody reads. -/
theorem wit_wvdef : let c := cmdOf 3 [2, 0x1800000, 0x2000000, 2]
    let w := cmdWord c
    let ps := rangePages (w 1) 2 ++ rangePages (w 2) 2
    (w 0).toNat < 4096 ∧ (w 3).toNat = 2 ∧ rangeIn (runH.ctx 0) (w 1) 2 = true ∧ rangeIn (runH.ctx 0) (w 2) 2 = true ∧ rangesApart (w 1) 2 (w 2) 2 = true ∧
    ((runH.ctx 0).tensor 2).ver = 0 ∧ (∀ e ∈ (runH.ctx 0).wvt, ([w 1, w 2].all (fun b => rangesApart b 2 e.2.s0.base e.2.s0.npg && rangesApart b 2 e.2.s1.base e.2.s1.npg)) = true) ∧
    runH.pgops = [] ∧ ps = [6, 7, 8, 9] ∧
    ∀ p ∈ ps, peState (runH.master 0 p) = 1 ∧ frameNamed (pePfn (runH.master 0 p)) = true ∧ homeOf (pePfn (runH.master 0 p) * 2 ^ 22) < 12 := by decide +kernel
theorem wit_wvrem : let e := (runH.ctx 0).tensor 1
    e.ver ≠ 0 ∧ e.s0.rc = 0 ∧ e.s1.rc = 0 ∧ e.cmt = false := by decide +kernel
/-- RING where none is; QCREATE, GRAPHREC of no nodes, REPLAY, LAUNCH and STREAM within their bounds. -/
theorem wit_host_ring : powerIn 64 6 24 = true ∧ bytesIn (runH.ctx 0) 0x400000 (64 + 32 * 64) = true ∧ (runH.ctx 0).ring = none ∧ runH.ringAt 0 0x400000 true = .go (at0 0x400000) := by
  decide +kernel
theorem wit_host_queue : powerIn 2 1 16 = true ∧ bytesIn (runH.ctx 0) 0x400000 (64 + 64 * 2) = true ∧ Tbl.get none (runH.ctx 0).queues 63 = none := by decide +kernel
theorem wit_host_graph : (runH.ctx 0).graph 3 = none ∧ runH.readNodes 0 0 0x400000 = .inl [] ∧ ([] : List Nat).all (nodeOk 0) = true ∧ graphOk ([].map Node.ofBits) = true ∧
    (∃ v, (runH.ctx 0).graph 0 = some v ∧ v.running = false ∧ v.waiting = []) ∧ runH.replaysWaiting 0 < 4 := ⟨by decide +kernel, rfl, rfl, by decide, ⟨_, rfl, rfl, rfl⟩, by decide +kernel⟩
theorem wit_host_stream : bytesIn (runH.ctx 0) 0x400000 0x400000 = true ∧ 0x400000 % 2 ^ 22 = 0 ∧ 0x400000 ≠ 0 ∧ 5 < 2 ^ 32 := by decide +kernel
/-- A read of the write-only CPUT and of a page of a virtual function. -/
theorem wit_host_registers : (runH.fn 1).qent.toNat < 2 ^ 16 ∧ runH.root.fail = false ∧ 0x128 < 4096 ∧ (0x120 : Nat) ≠ 0x128 := by decide +kernel

/-! ### Cores, commands, locks -/

/-- A core halted with its clock behind the machine's; one that runs; one with an answer under way to its held bundle. -/
theorem wit_core_clock : (let s := ({ runE with now := 100 } : State).upd 0 (fun c => { c with run := .halted, nextAt := 90 })
      (s.core 0).run = .halted ∧ ((s.ctx (s.core 0).ctx).part (quarterOf 0) = .running) ∧ (s.core 0).nextAt < s.now) ∧
    (∃ p ∈ (runE.core 0).pend, p.due ≤ (runE.clocked 0).ic) ∧ (runE.core 0).run = .running ∧
    (let s := runE.upd 0 (fun c => { c with slow := 1, heldBundle := true }); (s.core 0).entry 97 = none ∧ (s.core 0).heldBundle = true ∧ (s.core 0).slow.getLsbD (96 - 96) = true) := by
  decide +kernel
theorem wit_home_load : let a := runE.ownReplica 0 0 0x400000 (at0 0x400000)
    poisoned (runE.homeLoad 0 a 8).1.2 = false ∧ runE.engineAt 0 0x400000 0 false = .go (at0 0x400000) := by decide +kernel
/-- A lock whose bundle can be examined under it. -/
theorem wit_lock : ∃ l, runE.locks[0]? = some l ∧ nextB (boundary l.core (fetchAndIssue l.core) { runE.setLocks l.core true with cur := l.core }) (fun _ => true) = true :=
  ⟨_, rfl, by decide +kernel⟩
theorem wit_replay : (let s := runE.upd 0 (fun c => { c with replay := true }); (s.core 0).replay = true ∧ (s.core 0).run = .running ∧ (s.ctx (s.core 0).ctx).part (quarterOf 0) = .running) := by
  decide +kernel

/-! ### Contexts -/

theorem wit_cut : let s := run1.updCtx 0 (fun c => { c.setPart 1 .freezing with req := some ⟨false, 4, 2, 2, 5, [], none⟩ })
    (s.ctx 0).part 1 = .freezing ∧ (s.ctx 0).st ≠ .faulted ∧ (∀ n ∈ s.partCores 0 1, (s.core n).commands = []) := by decide +kernel
/-- The quarter's record lies in a page that migrates. -/
theorem wit_area_waits : let s := runS ⟨false, 2, 2, 2, 0, [], none⟩ .saving (BitVec.ofNat 64 (3 * 2 ^ 40 + 2 * 2 ^ 37 + 0xFFF * 2 ^ 20))
    (s.areaStop 0 true (s.areaPieces 0 (s.imageRanges 0 2)) 0).map (fun r => (r.1, r.2.1)) = some (.migrating, 4096) ∧ s.saveReady 0 2 = true := by decide +kernel
theorem wit_restore_fault : let s := runS ⟨true, 1, 2, 2, 0, [(1, .saved)], none⟩ .restoring 0
    (s.areaStop 0 false (s.areaPieces 0 (s.restoreRanges 0 2)) 0).map (fun r => r.1) = some .bad := by decide +kernel
theorem wit_scrub : let s := (run1.updCtx 1 (fun c => { c with st := .dead }))
    (s.ctx 1).st = .dead ∧ s.over 1 = true := by decide +kernel

/-! ### Nodes, groups, graphs -/

set_option exponentiation.threshold 2000 in
set_option maxRecDepth 4000 in
/-- Kernel 2's record is read; the patches of a node of no graph are none; a copy node and a collective of kernels 6 and 3 of runN find their words. -/
theorem wit_nodes : inlB (runK.cpBlocks2 0 0x400000) = true ∧ (∃ v, runK.kernel 2 = some v ∧ inlB (runK.cpStores 0 0 (runK.patches v 0)) = true) ∧
    inlB (runK.cpWords 0 3 0x400100) = true ∧ inlB (runK.copyBlock 0 0 0x400000 0x400100) = true := by
  refine ⟨by decide +kernel, ⟨_, rfl, by decide +kernel⟩, by decide +kernel, by decide +kernel⟩
set_option exponentiation.threshold 2000 in
set_option maxRecDepth 4000 in
/-- A collective's record at 0x400140 whose table, at 0x400180, holds one operation that loops on nothing. -/
theorem wit_collective : let s : State := { runK with
      kernels := [(3, some { Kernel.new 0 3 none 0x400140 0 0 with st := .queued })]
      mem := (runK.mem.write 0x400140 8 0x400180).write 0x400180 8 (2 ^ 63) }
    (∃ v, s.kernel 3 = some v ∧ v.st = .queued ∧ v.hasRec = false ∧ v.kind = 3 ∧ v.recva.toNat % 8 = 0) ∧ inlB (s.cpWords 0 6 0x400140) = true :=
  ⟨⟨_, rfl, by decide⟩, by decide +kernel⟩
theorem wit_complete : (∃ v, runK.kernel 4 = some v ∧ inlB (runK.cpAdd 0 v.time v.lrec.done 1) = true) ∧ (∃ v, runK.kernel 2 = some v ∧ v.st = .queued ∧ v.ep 100 = min 3 (v.lrec.prio + (100 - v.order) / 2 ^ 20)) ∧
    ((runK.placeable 9 { Kernel.new 0 1 none 0x400000 0 0 with st := .aborted }) = false) := ⟨⟨_, rfl, by decide +kernel⟩, ⟨_, rfl, by decide +kernel⟩, by decide +kernel⟩
theorem wit_replay_end : (∃ v, (runK.ctx 0).graph 1 = some v ∧ v.running = true ∧ v.nodes.length = 0) ∧ inlB (runK.cpAdd 0 runK.latest 0x400000 1) = true := ⟨⟨_, rfl, rfl, rfl⟩, by decide +kernel⟩
theorem wit_executor : ∃ w e, runK.executorOf 7 = some (w, e) ∧ w = 8 ∧
    inlB (runK.x1Reaches 0 0x400000 false 1) = true ∧ inlB (runK.x1Reaches 0 0x400100 true 1) = true ∧ Tbl.get 0 [(32, 5)] 32 = 5 ∧
    inlB (runK.linkSends (runK.tree 0) 0 0 0x400000 1 0) = true ∧ inlB (runK.linkUnits (runK.tree 0) 0 0 0x400000 0x400100 1 0) = true :=
  ⟨_, _, rfl, by decide +kernel⟩

/-! ### Weights, generation -/

theorem wit_commit_under_way : let s := runK.updCtx 0 (fun c => { c with wvt := [(1, ⟨3, 0, true, true, ⟨0x800000, 1, .published, 1⟩, ⟨0xC00000, 1, .writing, 1⟩, 0, 0⟩)] })
    ((s.ctx 0).tensor 1).cmt = true ∧ ((s.ctx 0).tensor 1).act ≤ 1 := by decide +kernel
theorem wit_repartition : runK.part.busy = true ∧ runK.repartFreeze = runK ∧ (∀ x ∈ runK.ctxList, runK.repartParts x = []) := by decide +kernel
theorem wit_record_store : (∃ r, (runK.ctx 0).ring = some r ∧ runK.ringAt 0 (r.slotVa 5) true = .go (at0 (0x400040 + 32 * 5)) ∧ runK.ringAt 0 r.base true = .go (at0 0x400000) ∧
    poisoned (runK.tagOf (at0 (0x400040 + 32 * 5))) = false) ∧
    (let s := runK.upd 0 (fun c => { c with ifr := [(3, atWork 11 0 (5 + 2 ^ 64))] }); ∃ e, s.working 0 3 = some e ∧ e.kind = 11 ∧ e.field 0 8 = 5 ∧ e.posted = none) :=
  ⟨⟨_, rfl, by decide +kernel⟩, _, rfl, by decide +kernel⟩
/-- A sampling block at 0x400040 with 16 logits at 0x400080 and OUT at 0x400200, idle and active. -/
def runSample (active : Bool) : State := { runK with
  samples := [⟨0, 0x400040, 0, active, 0, 0, 0xFFFFFFFF, none⟩]
  mem := runK.mem.write 0x400040 64 (0x400080 + 16 * 2 ^ 64 + 0x400200 * 2 ^ 256) }
theorem wit_sampling_poll : ∃ b, (runSample false).samples[0]? = some b ∧ b.active = false ∧
    (match (runSample false).sampleRead b with | .inl ((d, t), _) => decide (outVa d = 0x400200) && !poisoned t | .inr _ => false) = true := ⟨_, rfl, by decide +kernel⟩
theorem wit_sampling_phase : ∃ b, (runSample true).samples[0]? = some b ∧ b.active = true ∧
    (match (runSample true).sampleRead b with
     | .inl ((d, t), s) => !poisoned t && sampleOk d.toNat &&
       (match s.handleBar b.lrb.toNat with
        | .bar n => decide ((s.bar n).result b.t = some 0) &&
          (match State.kioskBlocks b 1 0x400080 (s.acquire 512 (s.bar n).time) with
           | .inl (l, u) => l.all (fun x => !poisoned x.2) && (match u.kioskAt b (outVa d) permSS true with | .go pa => decide (pa = at0 0x400200) | _ => false) &&
               (u.tokenReady b 0).isSome
           | .inr _ => false)
        | _ => false)
     | .inr _ => false) = true := ⟨_, rfl, by decide +kernel⟩
theorem wit_sampling_registers : (runK.ctx 0).st ≠ .free ∧ (0x400040 : W64).toNat % 64 = 0 ∧ 0 < runK.samples.length := by decide +kernel
theorem wit_sampling_broken : ({ Barrier.fresh with st := .broken } : Barrier).result 0 ≠ some 0 ∧ ({ Barrier.fresh with st := .broken } : Barrier).result 0 ≠ none := by decide
theorem wit_commit_point : inlB (runK.unitAdd 0 permXW 0x400000 1) = true ∧ inlB (runK.unitAdd 0 permBF 0x400000 (1 + 2 ^ 32)) = true ∧ inlB (runK.poisonEntries 0 []) = true := by
  decide +kernel
/-- A posted job whose identity is not read yet; one whose identity repeats; one that rises. -/
theorem wit_job_posts : let s := { (runK.upd 0 (fun c => { c with ifr := [(4, { atWork 12 0 (0x400000 + 7 * 2 ^ 64) with started := false }), (5, atWork 12 1 (0x400040 + 7 * 2 ^ 64))] })) with
      sweeper := ⟨[], [((0, 0), 7)]⟩ }
    (∃ e, s.working 0 4 = some e ∧ e.kind = 12 ∧ e.started = false ∧ e.posted = none) ∧ (∃ e, s.working 0 5 = some e ∧ e.kind = 12 ∧ e.started = true ∧ e.field 8 8 = 7) ∧
    s.sweeper.hi 0 0 = some 7 ∧ s.sweeper.hi 0 1 = none ∧ s.placeAt 0 (s.svUnit 0) (s.grpOf 0) 0x400040 permBF false = .go (at0 0x400040) ∧ poisoned (s.tagOf (at0 0x400040)) = false :=
  ⟨⟨_, rfl, by decide +kernel⟩, ⟨_, rfl, by decide +kernel⟩, by decide +kernel⟩
/-- A stream before its last block, one at its end, and one that a loss has stopped. -/
theorem wit_stream_end : (∃ t, runK.streams[0]? = some t ∧ t.lost = false ∧ t.step < t.total ∧ (t.seals && runK.sending t) = false ∧ runK.streamFrom t = .go (at0 0x400000) ∧
      runK.streamPorts t.peer ≠ []) ∧
    (let t : Stream := ⟨0, 0, 1, 64, 0x400000, 0, 0, 0, 9, false⟩; t.total ≤ t.step ∧ runK.sending t = false) ∧
    (let t : Stream := ⟨0, 0, 1, 64, 0x400000, 0, 0, 0, 1, true⟩; runK.streamStops t = true) := ⟨⟨_, rfl, by decide +kernel⟩, by decide +kernel⟩

/-! ### Ports, trees, reservations, adds that wait -/

/-- A port that works, one that retrains after too many flits sent again, one with no acknowledgement for 2^20 cycles. -/
theorem wit_port_states : (runK.port 1).st = .up ∧ ((runK.port 1).again.filter (fun k => decide ((runK.port 1).flits < k + 2 ^ 20))).length ≤ 16 ∧
    (let v : Port := { Port.reset with st := .up, flits := 40, again := List.range 17 }; 16 < (v.again.filter (fun k => decide (v.flits < k + 2 ^ 20))).length) ∧
    Port.reset.ackAt + 2 ^ 20 ≤ 2 ^ 20 := by decide +kernel
/-- A good flit of a bulk block, the next of its channel; one asked for again. -/
theorem wit_flits : (∃ f : Flit, f.vc = 3 ∧ f.crc = Config.flitCrc f.vc f.num f.seq f.data ∧ f.seq = Tbl.get 0 (runK.port 1).rxSeq f.vc ∧ f.va.toNat % 64 = 0 ∧
      (runK.setPort 1 { runK.port 1 with rxSeq := Tbl.set 0 (runK.port 1).rxSeq 3 (f.seq + 1) }).placeAt f.ctx (runK.svUnit f.ctx) none f.va permLK true = .go (at0 0x400000)) ∧
    (let v : Port := { Port.reset with unacked := [⟨2, 0, 5, 0, 0, 0, 0, 0, false⟩] }; v.unacked.any (fun f => f.vc = 2 && f.seq = 5) = true) ∧
    (∃ w, ({ Port.reset with st := .up, out := [⟨0, 0, 0, 0, 0, 0, 0, 0, false⟩], credits := [(0, 1)] } : Port).send = some w) :=
  ⟨⟨⟨3, 0, 0, Config.flitCrc 3 0 0 0, 0, 0, 0x400000, 0, false⟩, rfl, rfl, by decide +kernel, by decide, by decide +kernel⟩, by decide +kernel, _, rfl⟩
theorem wit_reserve : (runK.port 1).st.works = true ∧ (runK.treeAt 2).st = .free ∧ (runK.treeAt 1).st ≠ .free ∧ runK.lowestFree (BitVec.allOnes 64) = some 2 ∧
    (let s : State := { runK with treeReqs := [⟨0, true, ⟨.free, 0, 2, 1, [], false, false⟩, none⟩] }; ∃ r l, s.treeReqs = r :: l ∧ r.slot = none) :=
  ⟨rfl, rfl, by decide, by decide +kernel, _, _, rfl, rfl⟩
/-- The page of a commit's counter is absent. -/
theorem wit_add_waits : (match runK.unitAdd 0 permXW 0xC00000 1 with | .inr e => decide (e.va = 0xC00000) | .inl _ => false) = true ∧
    (match runK.unitAdd 0 permBF 0xC00000 1 with | .inr e => decide (e.va = 0xC00000) | .inl _ => false) = true := by decide +kernel
/-- A copy node with a block to copy, and with none left; every cohort has its slots. -/
theorem wit_copy_node : (∃ v, runK.kernel 6 = some v ∧ v.kind = 2 ∧ v.st = .running ∧ v.copied = 0) ∧ run1.slotted = true := ⟨⟨_, rfl, by decide⟩, by decide +kernel⟩
/-- A bound register whose reads are over; one whose leave is asked for and over. -/
theorem wit_leaving : let s := with0 fun c => { c with bnd := [(0, ⟨true, 1, 0, 3, false⟩)] }
    (Instr.wvunbind always (rr 1 0 0)).begins always s ∧ (Tbl.get Bind.none s.me.bnd 0).v = true ∧ s.leaveAsked 0 0 = none ∧ s.readsDone 0 0 s.pre.nextSeq = true ∧
    (∃ l, ({ s with leaves := [⟨0, 0, 1, 0, 0, some 0, true⟩] } : State).leaveAsked 0 0 = some l ∧ l.done = true) :=
  ⟨begins_of (by rfl), by decide, by decide +kernel, by decide +kernel, _, rfl, rfl⟩
/-- A doorbell of one command, and the quota of function 1. -/
theorem wit_doorbell : run1.root.fail = false ∧ ((1 : Nat) + 2 ^ 32 - (run1.fn 0).cput.toNat) % 2 ^ 32 = 1 ∧ ((run1.setFn 0 { run1.fn 0 with qent := 4 }).fn 0).qent = 4 ∧
    (run1.fn 1).quota = 0 := by decide +kernel
end Sys2Proof.Tests
end

