-- ==== Sys2Proof/Tests/WitnessGeneral.lean ====
section
/-! SUPPORT. States and operands that meet the premises of the statements about sources, results, guards, traps, memory, steps and encodings. -/

namespace Sys2Proof.Tests
open Sys2Proof.Machine

/-! ### Sources, results, guards, increments -/

/-- The operation that the general witnesses issue. -/
def addOp : SlotInstr := .s (.add always (rr 1 2 3))

/-- Latch x1 of the S unit and held operand 0 of the S unit valid; v3 lent; a result to g5 due at once and one to g6 due later. -/
def runSources : State := with0 (fun c => { c with
  latv := 2, latches := [(1, 77)], holdv := 1, held := [(0, 99)], lent := 4
  pend := [⟨.s, .g, 5, 55, 0, 1⟩, ⟨.s, .g, 6, 66, 0, 9⟩] })

theorem opening_onlyRead (i : SlotInstr) (s : State) : i.onlyRead s (i.opening s) := ⟨rfl, rfl, rfl, fun _ _ => rfl⟩

theorem wit_sources : runSources.pre.isLent (runSources.pre.physV 33) = true ∧ runSources.pre.isLent (runSources.pre.physV 2) = false ∧
    runSources.pre.latv.getLsbD (4 * addOp.unit.idx + 5 % 4) = true ∧ runSources.pre.holdv.getLsbD (3 * addOp.unit.idx + 0) = true ∧
    runSources.pre.latv.getLsbD (4 * addOp.unit.idx + 0 % 4) = false ∧ runSources.pre.holdv.getLsbD (3 * addOp.unit.idx + 2) = false := by decide +kernel
theorem wit_two_sources : ∃ x y j, (addOp.opening run1).rrSources (rr 1 2 3) .g .g = .ok (x, y, j) := ⟨_, _, _, rfl⟩
theorem wit_results : runSources.pre.unwrapped .g ∧ runSources.pre.still .g 7 ∧ ¬ wired .g 7 ∧ wired .g 0 ∧ ∃ l1 l2, runSources.pre.pend = l1 ++ ⟨.s, .g, 5, 55, 0, 1⟩ :: l2 ∧
    1 ≤ runSources.pre.ic + 1 ∧ ∀ q ∈ l2, q.file = .g → q.reg = 5 → runSources.pre.ic + 1 < q.due := by
  refine ⟨.inl rfl, ?_, by simp [wired], by simp [wired], [], [⟨.s, .g, 6, 66, 0, 9⟩], by decide +kernel, by decide, by decide +kernel⟩
  intro p hp; have : p ∈ [(⟨.s, .g, 5, 55, 0, 1⟩ : Pending), ⟨.s, .g, 6, 66, 0, 9⟩] := by
    have e : runSources.pre.pend = [⟨.s, .g, 5, 55, 0, 1⟩, ⟨.s, .g, 6, 66, 0, 9⟩] := by decide +kernel
    rwa [e] at hp
  simp at this; rcases this with rfl | rfl <;> simp
theorem wit_chain : run1.pre.lbix = none ∧ (∀ p ∈ run1.pre.pend, run1.pre.ic + 1 < p.due) ∧ run1.pre.lctl.word = 0 ∧ (∀ r, run1.pre.still .a r) := by
  have e : run1.pre.pend = [] := by decide +kernel
  refine ⟨by decide +kernel, by simp [e], by decide +kernel, ?_⟩
  intro r p hp; rw [e] at hp; simp at hp

/-- A guard on p2, which is clear, on p1 negated, and on the first turn of a loop that does not run. -/
theorem wit_false_guards : run1.pre.guardOk ⟨2, false, .always⟩ = false ∧ run1.pre.guardOk ⟨1, true, .always⟩ = false ∧ run1.pre.guardOk ⟨0, true, .always⟩ = false ∧
    run1.pre.guardOk always = true := by decide +kernel
theorem wit_false_rows : ∀ k ∈ [Instr.add ⟨2, false, .always⟩ (rr 1 2 3), .ld64 ⟨2, false, .always⟩ ⟨1, 1, 1, 1⟩, .xcopyIn ⟨2, false, .always⟩ ⟨5, false, 2, 2, 20⟩,
    .trap ⟨2, false, .always⟩ ⟨0, 5⟩, .halt ⟨2, false, .always⟩, .mshift ⟨2, false, .always⟩ ⟨3, false, 5, 40, true, 0⟩], k.opn.issues run1 := by
  have h (k : Instr) (b : beginsB k always run1 = true) : k.opn.issues run1 := (begins_of b).1
  simp only [List.forall_mem_cons]
  refine ⟨h _ rfl, h _ rfl, h _ rfl, h _ rfl, h _ rfl, h _ rfl, by simp⟩

/-! ### Traps -/

/-- The window is open and the handler set; a result may be in flight. -/
theorem wit_trap_entry : (runSources.core 0).trapShut = false ∧ (run1.core 0).trapShut = false ∧ (run1.core 0).pend = [] := by decide +kernel
theorem wit_return : run1.me.pc.toNat % 16 = 0 ∧ run1.me.pc.toNat < 2 ^ 48 := by decide +kernel
theorem wit_double : ((with0 (fun c => { c with twin := false })).core 0).twin = false ∧ ((with0 (fun c => { c with hbase := 0 })).core 0).hbase = 0 ∧
    3 ≤ ((with0 (fun c => ((c.enter 0 0 0 0 none false).enter 0 0 0 0 none false).enter 0 0 0 0 none false)).core 0).frames.length ∧ (run1.ctx (run1.core 0).ctx).st = .active := by
  decide +kernel

/-- Context 0 without privilege. -/
def runUser : State := run1.updCtx 0 (fun c => { c with priv := false })
theorem runs_user : runUser.runs := by
  refine ⟨?_, ?_, .inr (.inl ?_)⟩ <;> decide +kernel
theorem wit_privileged : ∀ k ∈ Claims.privilegedRows, ∃ o : RR, (k always o).opn.ok = true ∧ (runUser.ctx runUser.me.ctx).priv = false := by
  simp only [Claims.privilegedRows, List.forall_mem_cons]
  refine ⟨?_, ?_, ?_, ?_, ?_, ?_, ?_, ?_, ?_, ?_, ?_, ?_, ?_, ?_, ?_, by simp⟩ <;> first | exact ⟨rr 1 2 3, rfl, rfl⟩ | exact ⟨rr 1 2 0, rfl, rfl⟩
/-- A selector VRAND does not have; the matrix unit, which a kiosk core lacks. -/
theorem wit_illegal : (Instr.vrand always ⟨0, 0, 0, 3, false⟩).opn.ok = false ∧ addOp.ok = true ∧
    (let i := (Instr.mshift always ⟨3, false, 5, 40, true, 0⟩).opn; i.ok = true ∧ wordPrivileged i.enc.1 = false ∧ unitBars (isKiosk 512) i.unit i.enc.1 = true) := by decide

/-- TLAYOUT of X1 that reads its claim from a latch (X1's operand lies in a g field): an illegal instruction there (08_transfer.md R216). -/
theorem wit_mode_bars : modeBars .x1 (Instr.tlayoutClaim always ⟨1, 1, 41, 2, false⟩).opn.enc.1 (Instr.tlayoutClaim always ⟨1, 1, 41, 2, false⟩).opn.enc.2 = true ∧
    modeBars .x0 (Instr.tlayoutClaim always ⟨1, 1, 41, 2, false⟩).opn.enc.1 (Instr.tlayoutClaim always ⟨1, 1, 41, 2, false⟩).opn.enc.2 = false := by decide

/-! ### Held bundles -/

/-- Level 1, and core 0 has issued three matrix bundles in this group of four cycles: its matrix unit is held back. -/
def runDuty : State := { with0 (fun c => { c with dutyGroup := run1.now / 4, dutyUsed := 3 }) with duty := 1 }
theorem wit_duty : runDuty.opened.dutyHolds runDuty.cur = true ∧ runDuty.pre.guardOk always = true ∧ runDuty.pre.guardOk ⟨2, false, .always⟩ = false := by decide +kernel
theorem wit_duty_rows : ∀ k ∈ [Instr.mswap always, .mzero always ⟨23⟩, .mdrain always ⟨0, true, 0, 16, 0⟩], k.opn.issues runDuty := by
  have h (k : Instr) (b : beginsB k always { runDuty with duty := 0 } = true) : k.opn.issues { runDuty with duty := 0 } := (begins_of b).1
  simp only [List.forall_mem_cons]
  refine ⟨h _ rfl, h _ rfl, h _ rfl, by simp⟩
/-- Requests of slot 0 answered late; the answer of slot 0 there. -/
def runSlow : State := run1.upd 0 (fun c => { c with slow := 0xF })
theorem wit_slow : ∀ e ∈ Claims.askingRows, (e.1 always (rr 1 0 0)).begins always runSlow ∧ Tbl.get none runSlow.answers (answerKey runSlow.cur (e.1 always (rr 1 0 0)).opn.place) = none ∧
    runSlow.pre.slow.getLsbD (e.1 always (rr 1 0 0)).opn.place = true := by
  simp only [Claims.askingRows, List.forall_mem_cons]
  refine ⟨?_, ?_, ?_, ?_, ?_, ?_, ?_, ?_, ?_, ?_, ?_, ?_, ?_, ?_, ?_, ?_, ?_, ?_, ?_, by simp⟩ <;> exact ⟨begins_of (by rfl), by decide +kernel, by decide +kernel⟩
theorem wit_slow_answer : (let s : State := { runSlow with answers := [(answerKey 0 (Instr.wvbind always (rr 1 0 0)).opn.place, some 5)] }
    okB (((Instr.kdone always (rr 1 0 0)).opening s).kdone (rr 1 0 0)) && okB (((Instr.wvunbind always (rr 1 0 0)).opening s).withAnswer (fun i => i.wvunbind (rr 1 0 0)) 5)) = true := by decide +kernel

/-! ### Memory -/

theorem wit_load : ∀ e ∈ Claims.loadRows, ((e.1 always ⟨1, 1, 0, 0⟩).openingAt run1 1 0).examine (((e.1 always ⟨1, 1, 0, 0⟩).openingAt run1 1 0).address ⟨1, 1, 0, 0⟩ 11 e.2.1)
      e.2.1 permSL false true = .ok (.mem (at0 0x400000) false) ∧ run1.pre.slow.getLsbD (e.1 always ⟨1, 1, 0, 0⟩).opn.place = false ∧
      run1.pre.entry (96 + (e.1 always ⟨1, 1, 0, 0⟩).opn.place) = none := by
  simp only [Claims.loadRows, List.forall_mem_cons]
  refine ⟨?_, ?_, ?_, ?_, ?_, ?_, ?_, by simp⟩ <;> exact ⟨rfl, by decide +kernel, by decide +kernel⟩
theorem wit_load_marks : kvSays (run1.ctx run1.me.ctx) (run1.opened.grpOf run1.cur) false 0x400000 = .perform ∧
    kvSays (run1.ctx run1.me.ctx) (run1.opened.grpOf run1.cur) true 0x400000 ≠ .refuse ∧ poisoned (run1.tagOf (run1.opened.ownReplica run1.cur run1.me.ctx 0x400000 (at0 0x400000))) = false ∧
    (with0 fun c => { c with heldBundle := true }).pre.heldBundle = true ∧ run1.plain (at0 0x400000) 8 = true := by decide +kernel
theorem wit_store : ∀ e ∈ Claims.storeRows, ((e.1 always ⟨1, 1, 0, 0⟩).openingAt run1 1 0).examine (((e.1 always ⟨1, 1, 0, 0⟩).openingAt run1 1 0).address ⟨1, 1, 0, 0⟩ 11 e.2)
      e.2 permSS true true = .ok (.mem (at0 0x400000) false) ∧ run1.pre.slow.getLsbD (e.1 always ⟨1, 1, 0, 0⟩).opn.place = false ∧ (run1.ctx run1.me.ctx).ring = none := by
  simp only [Claims.storeRows, List.forall_mem_cons]
  refine ⟨?_, ?_, ?_, ?_, by simp⟩ <;> exact ⟨rfl, by decide +kernel, by decide +kernel⟩
/-- The page states of translation: open, replicated, absent, migrating, poisoned. -/
theorem wit_translation : let st (n : Nat) (need : Nat) := translate (run1.setEntry 0 0 5 (BitVec.ofNat 64 (2 ^ 40 + n * 2 ^ 37 + 2 ^ 20))) 0 0 0x1400000 need
    st 1 1 = .ok (0x400000 + 2 ^ 50 * run1.sealNo 0 0x1400000) false ∧ st 3 1 = .ok (0x400000 + 2 ^ 50 * run1.sealNo 0 0x1400000) true ∧ st 1 2 = .denied ∧ st 2 1 = .absent 2 ∧
    st 4 1 = .poisonedPage ∧ translate run1 0 0 (2 ^ 38) 1 = .outside ∧ devAt run1.devMap 0 5 = none ∧
    translate run1 0 0 0x1000000 permXR = .dev .fbuf 0 ∧ translate run1 0 0 0x1000000 permXW = .denied := by decide +kernel
theorem wit_register_rows : ∃ t, exec (Instr.add always (rr 1 2 3)) run1 = .next t := ⟨_, rfl⟩
theorem wit_canonical : ∃ t, State.reset.memOk = true ∧ step State.reset = .next t := ⟨_, by decide, rfl⟩

/-! ### Steps and encodings -/

/-- ADD laid out alone where core 0 fetches; a bundle of zeros there. -/
def runAdd : State := State.reset.launchedAt (soloWord addOp)
theorem wit_steps : runAdd.agenda = [] ∧ runAdd.root.ready = true ∧ runAdd.dueCore = some 0 ∧ coreExists 0 = true ∧ runAdd.inTurn 0 = true ∧ run0.inTurn 0 = true ∧ runAdd.fetch 0 = .word (soloWord addOp) ∧
    run0.fetch 0 = .word 0 ∧ ({ runAdd with agenda := [.bundleIssue 0] } : State).agenda ≠ [] := by decide +kernel
theorem wit_steps_issue : ({ runAdd with cur := 0 } : State).runs ∧ addOp.issues (({ runAdd with cur := 0 } : State).fetched 0 (soloWord addOp)) ∧ (Instr.add always (rr 1 2 3)).slot = some addOp ∧ addOp.enc.1 ≠ 0 ∧ addOp.ok = true :=
  have h : (Instr.add always (rr 1 2 3)).begins always runAdd := begins_of (by decide +kernel)
  have k : (Instr.add always (rr 1 2 3)).begins always (({ runAdd with cur := 0 } : State).fetched 0 (soloWord addOp)) := begins_of (by decide +kernel)
  ⟨h.1.1, k.1, rfl, by decide, rfl⟩
theorem wit_steps_nop : ({ run0 with cur := 0 } : State).runs ∧ (runUser.runs) := by
  refine ⟨⟨?_, ?_, .inr (.inl ?_)⟩, runs_user⟩ <;> decide +kernel
theorem wit_fetch : (runAdd.core 0).buffered = none ∧ runAdd.engineAt 0 (runAdd.core 0).pc permSL false = .go (2 ^ 50 * runAdd.sealNo 0 0) ∧
    (Tbl.get (⟨0, 0, 0⟩ : Copy) (runAdd.core 0).icache (2 ^ 50 * runAdd.sealNo 0 0 / 64)).lease = 0 ∧ poisoned (runAdd.tagOf (2 ^ 50 * runAdd.sealNo 0 0)) = false ∧
    ((with0 fun c => { c with lbix := some 2, loopBuf := [(2, some 7)] }).core 0).buffered = some 7 := by decide +kernel
/-- A store to page 1, replicated, of a core that holds the lock of its line; its word lies where the core fetches. -/
def storeRow : Instr := .st64 always ⟨7, 1, 0, 0⟩
def runReplica : State :=
  let s := (State.reset.launchedAt (soloWord storeRow.opn)).setEntry 0 0 1 (BitVec.ofNat 64 (2 ^ 40 + 3 * 2 ^ 37 + 0xFFF * 2 ^ 20))
  { s.upd 0 (fun c => { c with g := [(7, 5)], a := [(1, 0x400000)] }) with locks := [⟨0, globalLine (at0 0x400000), false⟩] }
set_option maxRecDepth 4000 in
theorem wit_replica : let u : State := { runReplica.setLocks 0 true with cur := 0 }
    (∃ l, runReplica.locks[0]? = some l ∧ l.core = 0 ∧ l.line = globalLine (at0 0x400000)) ∧ runReplica.inTurn 0 = true ∧ u.fetch 0 = .word (soloWord storeRow.opn) :=
  ⟨⟨_, rfl, rfl, rfl⟩, by decide +kernel, by decide +kernel⟩
set_option maxRecDepth 4000 in
theorem wit_replica_store : let u : State := { runReplica.setLocks 0 true with cur := 0 }
    let v := u.fetched 0 (soloWord storeRow.opn)
    let i := storeRow.openingAt v 1 0
    storeRow.begins always v ∧ v.pre.slow.getLsbD storeRow.opn.place = false ∧
    i.examine (i.address ⟨7, 1, 0, 0⟩ 11 8) 8 permSS true true = .ok (.mem (at0 0x400000) true) ∧ (v.ctx v.me.ctx).ring = none ∧
    kvSays (v.ctx v.me.ctx) (v.opened.grpOf v.cur) true 0x400000 ≠ .refuse ∧ wvSlotAt (v.ctx v.me.ctx) 0x400000 = none :=
  ⟨begins_of (by decide +kernel), by decide +kernel, rfl, by decide +kernel, by decide +kernel, by decide +kernel⟩
theorem wit_encode : addOp.ok = true ∧ wordNeedsHeader addOp.enc.1 addOp.enc.2 addOp.brm = false ∧ (SlotInstr.s (.li always ⟨9, 0x1EC78⟩)).ok = true := by decide
end Sys2Proof.Tests
end

