-- ==== Sys2Proof/Tests/WitnessMatrix.lean ====
section
/-! SUPPORT. States and operands that meet the premises of the statements about matrix and transfer operations. -/

namespace Sys2Proof.Tests
open Sys2Proof.Machine

/-! ### Matrix operations -/

/-- `run1` with bank 1 lent, and MCFG words of each kind in g10 to g13. -/
def runMatrix : State := with0 fun c => { c with
  lent := 2, g := [(10, 0), (11, 0x1000000000000001), (12, 0x2000000000000001), (13, 0x3000000000000001), (14, 0x1000000000000000 + 2 ^ 26), (15, 0x3FFE009 + 0x1000000000000000),
    (16, 0x2000000000000000 + 2 ^ 16), (17, 0x3000000000000000 + 2 ^ 13)] }
theorem wit_mcfg : (Instr.mcfgMode always ⟨10⟩).begins always runMatrix ∧ (Instr.mcfgOutlier always ⟨11⟩).begins always runMatrix ∧ (Instr.mcfgQset always ⟨12⟩).begins always runMatrix ∧
    (Instr.mcfgWbp always ⟨13⟩).begins always runMatrix ∧ (Instr.mcfgMode always ⟨10⟩).begins always runMatrix :=
  ⟨begins_of (by rfl), begins_of (by rfl), begins_of (by rfl), begins_of (by rfl), begins_of (by rfl)⟩
/-- Values of each kind that Table 3 allows, and values it forbids. -/
theorem wit_mcfg_values : (runMatrix.pre.getG 11).toNat / 2 ^ 60 = 1 ∧ (runMatrix.pre.getG 11).extractLsb' 26 34 = (0 : BitVec 34) ∧ (runMatrix.pre.getG 14).extractLsb' 26 34 ≠ (0 : BitVec 34) ∧
    2 ^ 19 < ((runMatrix.pre.getG 15).extractLsb' 13 13 : BitVec 13).toNat * 64 + ((runMatrix.pre.getG 15).extractLsb' 0 13 : BitVec 13).toNat * 8 ∧
    (runMatrix.pre.getG 12).toNat / 2 ^ 60 = 2 ∧ (runMatrix.pre.getG 12).extractLsb' 16 44 = (0 : BitVec 44) ∧ (runMatrix.pre.getG 16).extractLsb' 16 44 ≠ (0 : BitVec 44) ∧
    (runMatrix.pre.getG 13).extractLsb' 13 47 = (0 : BitVec 47) ∧ (runMatrix.pre.getG 17).extractLsb' 13 47 ≠ (0 : BitVec 47) := by decide
theorem wit_mcfg_mode : (∃ m, modeWord (BitVec.ofNat 64 (8 * 2 ^ 24 + 2 * 2 ^ 20)) = some m) ∧ modeWord (BitVec.ofNat 64 (9 * 2 ^ 24 + 2 * 2 ^ 20)) = none := ⟨⟨_, rfl⟩, rfl⟩
theorem wit_push_rows : okB (pushRow runMatrix.pre 0) = true ∧ okB (pushRow runMatrix.pre 8191) = false := by decide +kernel
theorem wit_matrix_begin : ∀ k ∈ [Instr.mpush always ⟨0⟩, .mpushWp always, .mswap always, .mshift always ⟨0, false, 127, 16, false, 0⟩, .mdrain always ⟨0, true, 0, 16, 0⟩,
    .mdrainq always ⟨0, true, 0, 16, 3⟩, .msnap always ⟨23, 127, 1⟩, .mresrd always ⟨23, 1⟩, .mzero always ⟨23⟩, .mreschk always ⟨23⟩], k.begins always runMatrix := by
  simp only [List.forall_mem_cons]
  refine ⟨?_, ?_, ?_, ?_, ?_, ?_, ?_, ?_, ?_, ?_, by simp⟩ <;> exact begins_of (by rfl)
/-- Register 16 is lent, 1 is not; the reset planes and mode agree; all 128 rows are reached, none of an accumulator being reloaded. -/
theorem wit_shift : runMatrix.pre.isLent (runMatrix.pre.physV 16) = true ∧ runMatrix.pre.isLent (runMatrix.pre.physV 1) = false ∧
    (let mx := runMatrix.pre.mx; mx.active.fm = mx.mode.fm ∧ mx.mode.fm = false ∧ (mx.st 0).tv = false ∧ 127 < (mx.st 0).wm.toNat) ∧
    (runMatrix.upd 0 (fun c => { c with mx := { c.mx with active := { c.mx.active with fm := true } } })).pre.mx.active.fm ≠ runMatrix.pre.mx.mode.fm ∧
    ((runMatrix.upd 0 (fun c => { c with mx := c.mx.setSt 0 { c.mx.st 0 with wm := 5 } })).pre.mx.st 0).wm.toNat ≤ 5 := by decide
theorem wit_drain : runMatrix.pre.mx.governs 0 = false ∧ runMatrix.pre.mx.mode.dfmt = 0 ∧ (∀ n < 16, poisoned (runMatrix.pre.wbuf.tag (0 / 64 + n)) = false) ∧
    (runMatrix.pre.mx.st 0).mismatch = false := by decide

/-! ### Transfers -/

/-- `run1` with tile 0 ready, tile 1 empty and tile 2 draining, descriptors of one block in g10 to g15, a message in channel 1 and four in channel 2, and a group of one. -/
def runX : State :=
  let s : State := { run1 with groups := [(1, some ⟨1, 0, 0, none, 0, [0], .running, none⟩)] }
  let s := s.updCtx 0 (fun c => { c with
    ring := some ⟨0x400000, 64, 64, 0, 0, none⟩, wvt := [(1, ⟨3, 0, false, true, ⟨0x800000, 1, .published, 0⟩, ⟨0xC00000, 1, .writing, 0⟩, 0, 0⟩)] })
  s.upd 0 (fun c => { c with
    mem := ⟨1, 1, 0, 0, 0, 1, 1, 0, 0, 1, 0⟩, nleft := 4
    tiles := [(0, ⟨.ready, 0, 0, false, false⟩), (2, ⟨.draining, 0, 1, false, false⟩)]
    chan := [(1, [⟨5, 0⟩]), (2, [⟨1, 0⟩, ⟨2, 0⟩, ⟨3, 0⟩, ⟨4, 0⟩])]
    g := [(1, 1), (10, 1), (20, 2 ^ 56 + 1), (30, 0x06 * 2 ^ 56 + 2 ^ 30 + 1), (40, 0x0001), (41, 0x06), (42, 2 ^ 61), (43, 2 ^ 60), (44, 3 * 2 ^ 60), (45, 3 * 2 ^ 32 + 1), (46, 4 * 2 ^ 32 + 1), (47, 0x400000), (48, 2 ^ 12), (49, 0xFF00)] })

theorem wit_copies : ∀ k ∈ [Instr.xcopyIn always ⟨1, false, 1, 0, 10⟩, .xcopyOut always ⟨0, false, 1, 2, 10⟩, .xcopyOutAcc always ⟨0, false, 1, 0, 30⟩, .xwbfill always ⟨0, false, 1, 0, 20⟩,
    .xpref always ⟨0, false, 1, 0, 10⟩, .xgather always ⟨1, true, 1, 0, 10⟩, .xscatter always ⟨0, true, 1, 0, 10⟩], k.begins always runX := by
  simp only [List.forall_mem_cons]
  refine ⟨?_, ?_, ?_, ?_, ?_, ?_, ?_, by simp⟩ <;> exact begins_of (by rfl)
theorem wit_copy_places : Claims.rangeOk runX 0x400000 64 64 ∧ (0x400004 : W64).toNat % 64 ≠ 0 ∧ runX.pre.commands.length < 96 ∧ d1Ok 0 = true ∧ layoutOk 0 = true ∧
    (runX.pre.tile 1).takesFill 0 = true ∧ (runX.pre.tile 0).st = .ready ∧ d0Only 1 [(47, 32), (18, 10), (9, 0)] = true ∧ codeDefined 1 = true := by
  refine ⟨⟨by decide, by decide, by decide⟩, by decide⟩
theorem wit_fields : d0Only 0x3FF [(9, 0)] = true ∧ d0Only 0x400 [(9, 0)] = false ∧ d0Only (2 ^ 63) [(63, 56), (9, 0)] = true := by decide
theorem wit_tiles : (∃ t : Tile, t.st = .filling ∧ t.ncmd = 1 ∧ t.err = false) ∧ (∃ t : Tile, t.st = .draining ∧ t.ncmd = 1 ∧ t.err = false) ∧ ∃ t : Tile, 1 < t.ncmd :=
  ⟨⟨⟨.filling, 0, 1, false, false⟩, by decide⟩, ⟨⟨.draining, 0, 1, false, true⟩, by decide⟩, ⟨.draining, 0, 2, false, true⟩, by decide⟩
/-- The accumulator's rows in format 0x06, 1024 bytes a row. -/
theorem wit_accumulator : let d : Desc := ⟨0x06 * 2 ^ 56 + 2 ^ 30 + 1, 0, 0⟩
    d.srca = true ∧ d.nblk = 1 ∧ (∃ size, drainBytes false d.fmt = some size) ∧ d0Only d.d0 [(63, 56), (55, 48), (30, 30), (29, 27), (25, 19), (9, 0)] = true ∧ d.row0 + d.nblk ≤ 128 ∧
    Claims.rangeOk runX 0x400000 64 1024 ∧ (runX.pre.mx.governs 0) = false := by
  refine ⟨by decide, by decide, ⟨_, rfl⟩, by decide, by decide, ⟨by decide, by decide, by decide⟩, by decide⟩
theorem wit_rows : d0Only 1 [(47, 32), (25, 19), (18, 10), (9, 0)] = true ∧ ((Instr.xgather always ⟨1, true, 1, 0, 10⟩).openingAt runX 1 0).tilesReadable 0 4 = .ok () ∧
    ((Instr.xgather always ⟨1, true, 1, 0, 10⟩).openingAt runX 1 0).layoutBars 0 64 0 = false := ⟨by decide, rfl, rfl⟩

/-- Sends to member 0, the core itself: to channel 1, which has room, and to channel 2, which has none; to no member; receives of channels 1 and 0. -/
theorem wit_network : ∀ k ∈ [Instr.xsend always (rr 1 2 0), .xsend always (rr 2 2 0), .xrecv always (rr 1 1 0), .xrecv always (rr 1 0 0), .xrecvaddF32 always (rr 1 2 1),
    .xrecvaddI32 always (rr 1 2 1), .xrecvaddBf16 always (rr 1 2 1), .xrld always (rr 1 0 0), .xrst always (rr 1 0 0)], k.asks always runX := by
  simp only [List.forall_mem_cons]
  refine ⟨?_, ?_, ?_, ?_, ?_, ?_, ?_, ?_, ?_, by simp⟩ <;> exact asks_of (by rfl)
theorem wit_channels : runX.opened.memberAt 0 0 = some 0 ∧ runX.opened.memberAt 0 1 = none ∧ runX.opened.chanCount 0 1 < 4 ∧ 4 ≤ runX.opened.chanCount 0 2 ∧
    Tbl.get [] runX.pre.chan 0 = [] ∧ Tbl.get [] runX.pre.chan 1 = [⟨5, 0⟩] ∧ (runX.opened.core 0).tile (0 / 2 ^ 15) = ⟨.ready, 0, 0, false, false⟩ := by decide +kernel

set_option exponentiation.threshold 1100 in
set_option maxRecDepth 8000 in
theorem wit_atomics : ∀ e ∈ Claims.amoRows, (e.1 always ⟨0, 1, 0, 1, 0⟩).begins always runX ∧ (e.1 always ⟨1, 1, 0, 1, 0⟩).begins always runX ∧
    runX.pre.entry (96 + (e.1 always ⟨1, 1, 0, 1, 0⟩).opn.place) = none := by
  simp only [Claims.amoRows, List.forall_mem_cons]
  refine ⟨?_, ?_, ?_, ?_, ?_, ?_, ?_, ?_, ?_, ?_, ?_, ?_, ?_, ?_, ?_, ?_, ?_, ?_, ?_, ?_, ?_, by simp⟩ <;> exact ⟨begins_of (by rfl), begins_of (by rfl), by rfl⟩
theorem wit_atomic_place : ((Instr.xamoAdd64 always ⟨1, 1, 0, 1, 0⟩).openingAt runX 1 0).examine 0x400000 8 (permXR + permXW) true false = .ok (.mem (at0 0x400000) false) ∧
    kvSays (runX.opened.ctx runX.pre.ctx) (runX.opened.grpOf runX.cur) true 0x400000 ≠ .refuse ∧ runX.pre.slow.getLsbD (Instr.xamoAdd64 always ⟨1, 1, 0, 1, 0⟩).opn.place = false ∧
    runX.pre.amoPending 0x400000 runX.pre.nextSeq = false ∧ poisoned (runX.mem.tag (0x400000 / 64)) = false := ⟨rfl, by decide⟩

theorem wit_order : ∀ k ∈ [Instr.xfence always ⟨0, 0, 0, 3⟩, .xnmfence always, .xrel always ⟨1, 1, 0, 3⟩, .xacq always ⟨1, 1, 2, 3⟩, .xvld always ⟨1, 1, 0, 45, 0⟩, .xvld always ⟨1, 1, 0, 46, 0⟩,
    .xvld always ⟨1, 1, 0, 48, 0⟩, .xnmc always (rr 0 0 0), .xnmc always (rr 0 2 0), .xtagld always (rr 1 1 0), .xtagst always (rr 0 1 40)], k.begins always runX := by
  simp only [List.forall_mem_cons]
  refine ⟨?_, ?_, ?_, ?_, ?_, ?_, ?_, ?_, ?_, ?_, ?_, by simp⟩ <;> exact begins_of (by rfl)
/-- Version 3 is reached, 4 is not (R240); g48 names no tensor word. -/
theorem wit_versions_reached : (let e := Tbl.get .none (runX.ctx 0).wvt 1; e.ver ≠ 0 ∧ (e.ver - (runX.pre.getG 45).extractLsb' 32 32).toNat < 2 ^ 31 ∧
    2 ^ 31 ≤ (e.ver - (runX.pre.getG 46).extractLsb' 32 32).toNat) ∧ (runX.pre.getG 48).toNat / 2 ^ 12 % 2 ^ 20 ≠ 0 := by decide
theorem wit_acquire : ∃ v j, ((Instr.xacq always ⟨1, 1, 0, 3⟩).openingAt runX 1 0).examine 0x400000 8 permXR false false = .ok (.mem (at0 0x400000) false) ∧
    ((Instr.xacq always ⟨1, 1, 0, 3⟩).openingAt runX 1 0).loadAt 0x400000 (at0 0x400000) 8 permXR = .ok (v, j) := ⟨_, _, rfl, rfl⟩
/-- XACQ of the fault buffer's page. -/
theorem wit_acquire_device : ((Instr.xacq always ⟨1, 4, 0, 3⟩).openingAt runX 4 0).examine 0x1000000 8 permXR false false = .ok (.dev .fbuf 0) := rfl
theorem wit_tags : (∃ t j, ((Instr.xtagld always (rr 1 1 0)).opening runX).tagAt 0x400000 (at0 0x400000) permXR = .ok (t, j)) ∧
    ((Instr.xtagst always (rr 0 1 40)).opening runX).examine 0x400000 64 permXW true false = .ok (.mem (at0 0x400000) false) ∧ codeDefined (0xFFFF / 256) = true ∧
    codeDefined (0x8000 / 256) = false := ⟨⟨_, _, rfl⟩, rfl, by decide⟩

theorem wit_tile_operations : ∀ k ∈ [Instr.tstate always (rr 1 31 0), .tlayoutClaim always (rr 1 1 41), .tlayoutRelabel always (rr 1 0 43), .tlayoutCheck always (rr 1 0 42), .trelease always (rr 0 0 0),
    .trjrec always (rr 0 1 1), .bfpost always (rr 0 47 0)], k.begins always runX := by
  simp only [List.forall_mem_cons]
  refine ⟨?_, ?_, ?_, ?_, ?_, ?_, ?_, by simp⟩ <;> exact begins_of (by rfl)
theorem wit_layouts : layoutOk 0x06 = true ∧ layoutMatches 0 0 = true ∧ layoutMatches 0x06 0x01 = false ∧ (runX.pre.tile 2).ncmd ≠ 0 ∧ runX.pre.nleft ≠ 0 ∧
    (∃ r, (runX.ctx 0).ring = some r) ∧ (run1.ctx 0).ring = none := ⟨by decide, by decide, by decide, by decide, by decide, ⟨_, rfl⟩, rfl⟩
theorem wit_command_block : let i := (Instr.xnmc always (rr 0 0 0)).opening runX
    i.layoutBars 0 64 0 = false ∧ i.tilesReadable 0 64 = .ok () ∧ i.notPoisoned 0 64 = .ok () ∧ 0 + 64 ≤ spadSize runX.cur := ⟨rfl, rfl, rfl, by decide⟩
/-- The same of a list of four indices at offset 0. -/
theorem wit_index_list : let i := (Instr.xgather always ⟨1, true, 1, 0, 10⟩).openingAt runX 1 0
    i.layoutBars 0 16 0x06 = false ∧ i.tilesReadable 0 16 = .ok () ∧ i.notPoisoned 0 16 = .ok () := ⟨rfl, rfl, rfl⟩
theorem wit_post : ((Instr.bfpost always (rr 0 47 0)).opening runX).range 0x400000 64 64 = .ok () ∧ ∃ e, ((Instr.bfpost always (rr 0 1 0)).opening runX).range 1 64 64 = .error e :=
  ⟨rfl, _, rfl⟩
theorem wit_xnop : Instr.xnop.opn.issues runX ∧ runX.runs := ⟨(begins_of (g := always) (by rfl)).1, by unfold State.runs; decide⟩
end Sys2Proof.Tests
end

