-- ==== Sys2Proof/Tests/WitnessScalar.lean ====
section
/-! SUPPORT. States and operands that meet the premises of the statements about scalar, control and object operations. -/

namespace Sys2Proof.Tests
open Sys2Proof.Machine

/-! ### Scalar operations -/

theorem wit_integer : ∀ e ∈ Claims.integerRows, (e.1 always (rr 1 2 3)).begins always run1 := by
  simp only [Claims.integerRows, List.forall_mem_cons]
  refine ⟨?_, ?_, ?_, ?_, ?_, ?_, ?_, ?_, ?_, ?_, ?_, ?_, ?_, ?_, ?_, ?_, ?_, by simp⟩ <;> exact begins_of (by rfl)

theorem wit_division : ∀ k ∈ [Instr.div always (rr 1 2 3), .rem always (rr 1 2 3), .divn always (rr 1 2 3), .remn always (rr 1 2 3)],
    k.begins always run1 := by
  simp only [List.forall_mem_cons]
  refine ⟨?_, ?_, ?_, ?_, by simp⟩ <;> exact begins_of (by rfl)

theorem wit_oneSource : ∀ k ∈ [Instr.addi always ⟨1, 2, 511, 0⟩, .shli always ⟨1, 2, 63, 0⟩, .shri always ⟨1, 2, 0, 0⟩, .sari always ⟨1, 2, 63, 0⟩,
    .clz always (rr 1 2 0), .popc always (rr 1 2 0), .sel always ⟨1, 2, 3, 1⟩, .li always ⟨1, 0x1FFFF⟩, .lih always ⟨1, 0xFFFF⟩],
    k.begins always run1 := by
  simp only [List.forall_mem_cons]
  refine ⟨?_, ?_, ?_, ?_, ?_, ?_, ?_, ?_, ?_, by simp⟩ <;> exact begins_of (by rfl)

theorem wit_oneSource_reads : ∃ x j, ((Instr.addi always ⟨1, 2, 511, 0⟩).opening run1).source 0 (sm1 0) .g 2 = .ok (x, j) := ⟨_, _, rfl⟩

theorem wit_address : ∀ k ∈ [Instr.aadd always (rr 1 2 3), .amovAG always (rr 1 2 0), .amovGA always (rr 1 2 1), .amovAA always (rr 1 2 2), .astr always (rr 1 2 0)],
    k.begins always run1 := by
  simp only [List.forall_mem_cons]
  refine ⟨?_, ?_, ?_, ?_, ?_, by simp⟩ <;> exact begins_of (by rfl)

theorem wit_compares : (∀ e ∈ Claims.compareRows, (e.1 always (rr 1 2 3)).begins always run1) ∧
    ∀ e ∈ Claims.predicateRows, (e.1 always (if e.2 true false = e.2 true true then rr 1 2 0 else rr 1 2 3)).begins always run1 := by
  simp only [Claims.compareRows, Claims.predicateRows, List.forall_mem_cons]
  refine ⟨⟨?_, ?_, ?_, ?_, ?_, ?_, ?_, ?_, ?_, ?_, by simp⟩, ?_, ?_, ?_, ?_, ?_, by simp⟩ <;> exact begins_of (by rfl)

theorem wit_loads : (∀ e ∈ Claims.loadRows, (e.1 always ⟨1, 1, 0, 0⟩).begins always run1) ∧ ∀ e ∈ Claims.storeRows, (e.1 always ⟨1, 1, 0, 0⟩).begins always run1 := by
  simp only [Claims.loadRows, Claims.storeRows, List.forall_mem_cons]
  refine ⟨⟨?_, ?_, ?_, ?_, ?_, ?_, ?_, by simp⟩, ?_, ?_, ?_, ?_, by simp⟩ <;> exact begins_of (by rfl)

/-- A load finds a place, a device page, a misaligned address, an absent page, an address outside the window. -/
theorem wit_load_place : ∃ j, ((Instr.ld64 always ⟨1, 1, 0, 0⟩).openingAt run1 1 0).examine 0x400000 8 permSL false true = .ok (.mem (at0 0x400000) false) ∧
    ((Instr.ld64 always ⟨1, 1, 0, 0⟩).openingAt run1 1 0).loadAt 0x400000 (at0 0x400000) 8 permSL = .ok (0, j) := ⟨_, rfl, rfl⟩
theorem wit_load_device : ((Instr.ld64 always ⟨1, 4, 0, 0⟩).openingAt run1 4 0).examine 0x1000000 8 permSL false true = .ok (.dev .fbuf 0) := rfl
theorem wit_load_stops : (∃ e, ((Instr.ld64 always ⟨1, 2, 0, 0⟩).openingAt run1 2 0).examine 0x400004 8 permSL false true = .error e) ∧
    (∃ e, ((Instr.ld64 always ⟨1, 3, 0, 0⟩).openingAt run1 3 0).examine 0xC00000 8 permSL false true = .error e) ∧
    ∃ e, ((Instr.ld64 always ⟨1, 5, 0, 0⟩).openingAt run1 5 0).examine (2 ^ 38) 8 permSL false true = .error e := ⟨⟨_, rfl⟩, ⟨_, rfl⟩, _, rfl⟩
theorem wit_store_place : ∃ j, ((Instr.st64 always ⟨1, 1, 0, 0⟩).openingAt run1 1 0).examine 0x400000 8 permSS true true = .ok (.mem (at0 0x400000) false) ∧
    ((Instr.st64 always ⟨1, 1, 0, 0⟩).openingAt run1 1 0).storeAt 0x400000 (at0 0x400000) 8 7 false = .ok j := ⟨_, rfl, rfl⟩
theorem wit_store_device : ((Instr.st64 always ⟨1, 4, 0, 0⟩).openingAt run1 4 0).examine 0x1000000 8 permSS true true = .ok (.dev .fbuf 0) := rfl
theorem wit_store_stops : ∃ e, ((Instr.st64 always ⟨1, 2, 0, 0⟩).openingAt run1 2 0).examine 0x400004 8 permSS true true = .error e := ⟨_, rfl⟩
end Sys2Proof.Tests

namespace Sys2Proof.Tests
open Sys2Proof.Machine

/-! ### Control -/

theorem wit_transfers : ∀ k ∈ [Instr.br always ⟨1⟩, .call always ⟨0x400000⟩, .ret always ⟨0, 1, 0, 0, false⟩, .movb always ⟨7, 1⟩], k.begins always run1 := by
  simp only [List.forall_mem_cons]
  refine ⟨?_, ?_, ?_, ?_, by simp⟩ <;> exact begins_of (by rfl)
/-- RET's target: taken, misaligned, outside the window. -/
theorem wit_ret_targets : ((run1.pre.getB 1).toNat % 16 = 0 ∧ inWindow (run1.ctx run1.me.ctx) (run1.pre.getB 1) = true) ∧ (run1.pre.getB 2).toNat % 16 ≠ 0 ∧
    (run1.pre.getB 3).toNat % 16 = 0 ∧ inWindow (run1.ctx run1.me.ctx) (run1.pre.getB 3) = false := by decide
/-- BT with four tests, of which the last (p1) is the first to hold; with none that holds; with a loop flag that does not hold. -/
theorem wit_tree : (Instr.bt ⟨2, 2, 2, 1, false, false, false, false, false, 3, .always⟩).opn.issues run1 ∧ run1.pre.getP 1 = true ∧ run1.pre.getP 2 = false ∧
    inWindow (run1.ctx run1.me.ctx) (run1.pre.getB 3) = false ∧ inWindow (run1.ctx run1.me.ctx) (run1.pre.getB 1) = true ∧ (with0 fun c => { c with lctl := ⟨1, false, 0, 0⟩, wrapped := 1 }).pre.flagOk .first = false :=
  ⟨(begins_of (g := always) (by rfl)).1, by decide⟩

/-- LOOP at level 0, with a count and a mask at the ends of their ranges, and one beyond. -/
theorem wit_loop_first : (Instr.loop always ⟨5, 6, 255⟩).begins always (with0 fun c => { c with g := [(5, 2 ^ 32 - 1), (6, 2 ^ 16 - 1), (7, 2 ^ 32)] }) ∧
    run1.pre.lctl.lact = 0 := ⟨begins_of (by rfl), rfl⟩
/-- An inner LOOP inside level 0, whose body ends where the level ends; LBRK there. -/
theorem wit_loop_inner : let s := with0 fun c => { c with lctl := ⟨1, false, 0, 0⟩, lstat := [(0, ⟨2, 0, 0, 0, 9⟩)], lbix := some 2, loopBuf := [(2, some 0)] }
    (Instr.loop always ⟨1, 2, 6⟩).begins always s ∧ (Instr.lbrk always).begins always s ∧ innermost s.pre.lctl.lact = some 0 ∧ s.pre.lbix = some 2 ∧
    (Tbl.get .zero s.pre.lstat 0).beg.toNat ≤ 2 ∧ 2 + 7 ≤ (Tbl.get .zero s.pre.lstat 0).fin.toNat := ⟨begins_of (by rfl), begins_of (by rfl), by decide⟩
theorem wit_loop_deepest : let s := with0 fun c => { c with lctl := ⟨0x3F, false, 0, 0⟩ }
    (Instr.loop always ⟨1, 2, 6⟩).begins always s ∧ innermost s.pre.lctl.lact = some 5 := ⟨begins_of (by rfl), by decide⟩
theorem wit_lbrk_none : (Instr.lbrk always).begins always run1 ∧ innermost run1.pre.lctl.lact = none := ⟨begins_of (by rfl), by decide⟩

theorem wit_stages : ∀ k ∈ [Instr.rotb always ⟨0, 0, 5, 0⟩, .rotb always ⟨0, 0, 63, 0⟩, .stage always ⟨0, 0, 255, 0⟩, .halt always, .quiet always ⟨0, 3⟩, .lendb always ⟨0, 0, 3, 0⟩,
    .retb always ⟨0, 0, 3, 0⟩], k.begins always run1 := by
  simp only [List.forall_mem_cons]
  refine ⟨?_, ?_, ?_, ?_, ?_, ?_, ?_, by simp⟩ <;> exact begins_of (by rfl)
theorem wit_lend : (run1.pre.lent.getLsbD 3 = false ∧ ∀ p ∈ run1.pre.pend, p.file = .v → p.reg / 16 ≠ 3) ∧
    (with0 fun c => { c with lent := 8 }).pre.lent.getLsbD 3 = true ∧
    ∃ p ∈ (with0 fun c => { c with pend := [⟨.v0, .v, 48, 0, 0, 9⟩] }).pre.pend, p.file = .v ∧ p.reg / 16 = 3 := by decide

theorem wit_traps : ∀ k ∈ [Instr.trap always ⟨0, 5⟩, .trapen always, .tret always], k.begins always run1 := by
  simp only [List.forall_mem_cons]
  refine ⟨?_, ?_, ?_, by simp⟩ <;> exact begins_of (by rfl)
/-- Inside a handler, with a return address in the window; outside one. -/
theorem wit_tret : (let s := with0 fun c => { c with frames := [c.frame 0x20 none], rpc := 3, twin := false }
    (Instr.tret always).begins always s ∧ s.pre.frames ≠ [] ∧ inWindow (s.ctx s.me.ctx) (BitVec.ofNat 64 (s.pre.rpc.toNat * 16)) = true) ∧
    run1.pre.frames = [] := ⟨⟨begins_of (by rfl), by decide⟩, rfl⟩

/-- The same once the handler's results are written: the guard holds, or not; the address lies in the window, or not. -/
theorem wit_tret_drained : let s := with0 fun c => { c with frames := [c.frame 0x20 none], rpc := 3, twin := false, pend := [⟨.v0, .v, 48, 0, 0, 9⟩] }
    let i := { ((Instr.tret always).opening s).upd Core.drain with pre := s.pre.drain }
    i.pre.pend = [] ∧ i.pre.guardOk always = true ∧ i.pre.guardOk ⟨2, false, .always⟩ = false ∧ inWindow (s.ctx s.me.ctx) (BitVec.ofNat 64 (i.pre.rpc.toNat * 16)) = true ∧
    inWindow (s.ctx s.me.ctx) (BitVec.ofNat 64 (2 ^ 43 * 16)) = false := by decide +kernel

/-- SRD of DEVINFO and of a number not listed; SWR of a register that takes writes, and of a read-only one. -/
theorem wit_system : (Instr.srd always ⟨1, 0⟩).begins always run1 ∧ (∃ v, run1.opened.sysRead run1.cur run1.pre 0x050 = some v ∨ run1.opened.sysRead run1.cur run1.pre 0 = some v) ∧
    (Instr.srd always ⟨1, 0xFFF⟩).begins always run1 ∧ run1.opened.sysRead run1.cur run1.pre 0xFFF = none ∧
    (∀ e ∈ Claims.swrRows, (Instr.swr always ⟨1, BitVec.ofNat 12 e.1⟩).begins always run1) ∧ (Instr.swr always ⟨1, 0x021⟩).begins always run1 := by
  refine ⟨begins_of (by rfl), ⟨_, .inr rfl⟩, begins_of (by rfl), rfl, ?_, begins_of (by rfl)⟩
  simp only [Claims.swrRows, List.forall_mem_cons]
  refine ⟨?_, ?_, ?_, ?_, ?_, ?_, ?_, by simp⟩ <;> exact begins_of (by rfl)
theorem wit_special : ∀ k ∈ [Instr.cdiagRead always 1, .lscaleWrite always 4, .lctlWrite always 2, .lstatWrite always 5 1, .wmarkWrite always 23 1, .adoptWrite always 1,
    .partWrite always 1, .kvpolWrite always 1], k.begins always run1 := by
  simp only [List.forall_mem_cons]
  refine ⟨?_, ?_, ?_, ?_, ?_, ?_, ?_, ?_, by simp⟩ <;> exact begins_of (by rfl)
/-- g4 is 1.0, a scale; g0 is none. A rotating level of 5 is the last; 6 is none. Without the context's privilege the last three trap. -/
theorem wit_special_values : (let x : W32 := (run1.pre.getG 4).setWidth 32; x.getLsbD 31 = false ∧ 1 ≤ (x.extractLsb' 23 8).toNat ∧ (x.extractLsb' 23 8).toNat ≤ 254) ∧
    ((run1.pre.getG 0).setWidth 32).extractLsb' 23 8 = (0 : BitVec 8) ∧ ((0x5000 : W64).extractLsb' 12 3 : BitVec 3) < 6 ∧ 6 ≤ ((0x6000 : W64).extractLsb' 12 3 : BitVec 3) ∧
    (run1.ctx run1.me.ctx).priv = true ∧ ((run1.updCtx 0 (fun c => { c with priv := false })).ctx 0).priv = false := by decide
end Sys2Proof.Tests

namespace Sys2Proof.Tests
open Sys2Proof.Machine

/-! ### Operations on objects -/

/-- `run1` with context 1 active, its part of quarter 1 running; an open queue with one record, a graph, a kernel that counts arrivals, a group of one, a tensor with one
slot published and one free, a KV region of one page, and more registers. -/
def run2 : State :=
  let s := run1.updCtx 1 (fun c => { c with st := .active, own := 2, parts := [(1, .running)] })
  let s := s.updCtx 0 (fun c => { c with
    queues := [(0, some ⟨0x400000, 2, 0, 1, .open, [], [], [], []⟩), (1, some ⟨0x400100, 2, 4, 4, .open, [], [], [], []⟩), (2, some ⟨0x400200, 2, 4, 4, .closed, [], [], [], []⟩)]
    graphs := [(0, some ⟨[], [], 0, true, 0, [], [(0, 9)], [], [], [], none⟩)]
    wvt := [(1, ⟨3, 0, false, true, ⟨0x800000, 1, .published, 0⟩, ⟨0xC00000, 1, .writing, 0⟩, 0, 0⟩),
            (2, ⟨3, 0, false, true, ⟨0x1400000, 1, .published, 1⟩, ⟨0x1800000, 1, .retiring, 1⟩, 0, 0⟩),
            (3, ⟨3, 0, false, true, ⟨0x1400000, 1, .published, 0⟩, ⟨0x1800000, 1, .free, 0⟩, 0, 0⟩)]
    kvpg := 2, kvnp := 1, elog := 0, marks := [(1, .pending), (2, .spec 1)] })
  let s : State := { s with kernels := [(1, some { Kernel.new 0 1 none 0 0 0 with lrec := { LaunchRec.none with kdcnt := 2 } })], groups := [(1, some ⟨1, 0, 0, none, 0, [0], .running, none⟩)] }
  s.upd 0 (fun c => { c with
    mem := ⟨1, 1, 0, 0, 0, 1, 1, 0, 0, 1, 0⟩
    g := [(1, 7), (2, 2), (3, 0x400040), (4, 0x10001), (5, 0x20001), (6, 8), (7, 1), (8, 0x100), (9, 0x10000), (10, 0x18000), (11, 0x60000), (12, 4), (13, 0x400000), (14, 5),
            (15, 3), (16, 16), (17, 0x10101), (18, 0x101), (19, 0x3FFFFFFFF), (20, 3 * 2 ^ 32), (21, 0x3F0000003F800000), (22, 2), (23, 0x400000), (24, 0x100000000), (25, 0x200), (26, 6)] })

/-- Requests about a context that may take them, about none, and about the core's own part. -/
theorem wit_contexts : (Instr.ctxstat always (rr 1 5 0)).asks always run2 ∧
    (∀ e ∈ Claims.freezeRows, (e.1 always (rr 1 5 0)).asks always run2) ∧ (∀ e ∈ Claims.resumeRows, (e.1 always (rr 1 5 0)).asks always run2) ∧
    run2.opened.ctxSelect 0x20001 = some (1, 2) ∧ run2.opened.ctxSelect 0x40 = none ∧ run2.opened.ctxSelect 2 = none ∧ run2.opened.ctxSelect 0x10000 = some (0, 1) ∧
    ((Instr.ctxstat always (rr 1 5 0)).opening run2).ownPart 0 1 = true ∧ ((Instr.ctxstat always (rr 1 5 0)).opening run2).ownPart 1 2 = false := by
  refine ⟨asks_of (by rfl), ?_, ?_, by decide⟩
  · simp only [Claims.freezeRows, List.forall_mem_cons]
    refine ⟨?_, ?_, ?_, ?_, ?_, by simp⟩ <;> exact asks_of (by rfl)
  · simp only [Claims.resumeRows, List.forall_mem_cons]
    refine ⟨?_, ?_, ?_, by simp⟩ <;> exact asks_of (by rfl)
theorem wit_freeze_status : run2.opened.freezeStatus 1 0 2 = 0 ∧ run2.opened.freezeStatus 1 0 4 ≠ 0 ∧ run2.opened.resumeStatus 1 0 2 ≠ 0 ∧
    (run2.updCtx 1 (fun c => c.setPart 1 .frozen)).opened.resumeStatus 1 0 2 = 0 := by decide

set_option exponentiation.threshold 600 in
/-- WQPUSH of the record at 0x400040 into queue 0 (a slot free); its outcome is reserved when the unit plans it, and it is answered at once. -/
theorem wit_push : let k := Instr.wqpush always (rr 1 0 3)
    k.begins always run2 ∧ run2.pre.slow.getLsbD k.opn.place = false ∧
      (match (Claims.quick (k.opening run2)).rrG (rr 1 0 3) with
      | .error _ => false
      | .ok (sel, va, j) => match j.queueOf sel 0 with
        | .error _ => false
        | .ok (_, q0) =>
          let key := answerKey run2.cur k.opn.place
          let q := q0.planPush key
          let num := match q.out key with | some (.push m) => m | _ => q0.nextSlot
          decide (va = 0x400040 ∧ q0.st = .open ∧ q0.len < q0.cap ∧ q0.out key = none ∧ q.out key = some (.push num)) && okB (do
            j.queueAddrs va [q.slotAddr num, q.base]
            j.queuePages [(q.base, 0, true), (q.slotAddr num, 0, true), (va, permSL, false)]
            let _ ← j.queuePlace q.base
            let _ ← j.queuePlace (q.slotAddr num)
            let pl ← j.examine va 64 permSL false true
            match pl with
            | .mem pa _ => do
              let ((_, t), _) ← ({ j with s := j.s.acquire run2.cur (j.s.relTime run2.cur) } : Issue).readAt va pa 64 permSL
              if j.core.allWritten j.pointSeq && !poisoned t then .ok () else .error .wait
            | _ => .error .wait)) = true :=
  ⟨begins_of (by rfl), by decide +kernel, by decide +kernel⟩
/-- A full queue; one that is not open; a slow answer. -/
theorem wit_push_states : (Queue.mk 0x400000 2 0 2 .open [] [] [] []).cap ≤ (Queue.mk 0x400000 2 0 2 .open [] [] [] []).len ∧
    (∃ q, (run2.ctx 0).queue 2 = some q ∧ q.st ≠ .open) ∧ ((Queue.mk 0x400000 2 0 2 .open [] [] [] []).planPush 0).out 0 = some (.status 1) ∧
    ((with0 fun c => { c with slow := 0xF }).pre.slow.getLsbD (Instr.wqpush always (rr 1 0 3)).opn.place = true) :=
  ⟨by decide, ⟨_, rfl, by decide⟩, by decide, by decide +kernel⟩
/-- WQPOP of queue 0, which holds a record; of the empty queue 1, blocking and polling; of queue 2, closed; of a queue whose item's push is reserved. -/
theorem wit_pop : let k := Instr.wqpop always (rr 1 0 3)
    k.begins always run2 ∧ run2.pre.slow.getLsbD k.opn.place = false ∧
      (match (k.opening run2).rrG (rr 1 0 3) with
      | .error _ => false
      | .ok (sel, va, j) => match j.queueOf sel 1 with
        | .error _ => false
        | .ok (_, q0) =>
          let q := q0.skip q0.holes.length
          (match j.s.pop (answerKey run2.cur k.opn.place) (some (at0 0x400040)) (sel.getLsbD 8) q with | .item _ _ => true | _ => false) &&
          decide (va = 0x400040 ∧ kvSays (j.s.ctx run2.me.ctx) (j.s.grpOf run2.cur) true va ≠ .refuse) && okB (do
            j.queueAddrs va [q.slotAddr q.first, q.base]
            j.queuePages [(q.base, 0, true), (q.slotAddr q.first, 0, false), (va, permSS, true)]
            let _ ← j.queuePlace q.base
            let _ ← j.queuePlace (q.slotAddr q.first)
            let pl ← j.examine va 64 permSS true true
            match pl with
            | .mem pa r => if pa = at0 0x400040 && !r then .ok () else .error .wait
            | _ => .error .wait)) = true :=
  ⟨begins_of (by rfl), by decide +kernel, by decide +kernel⟩
theorem wit_pop_empty : (∃ q, (run2.ctx 0).queue 1 = some q ∧ run2.pop 0 (some 0x400140) false q = .status 1 q ∧ run2.pop 0 (some 0x400140) true q = .waits) ∧
    (∃ q, (run2.ctx 0).queue 2 = some q ∧ ∃ q', run2.pop 0 (some 0x400240) false q = .status 2 q') ∧
    run2.pop 0 (some 0x400040) false ((Queue.mk 0x400000 2 0 0 .open [] [] [] []).planPush 5) = .later := ⟨⟨_, rfl, rfl, rfl⟩, ⟨_, rfl, _, rfl⟩, rfl⟩
theorem wit_queue_states : (Instr.wqclose always (rr 1 0 0)).begins always run2 ∧ (Instr.wqreopen always (rr 1 8 0)).begins always run2 ∧
    (Instr.wqlen always (rr 1 0 0)).asks always run2 ∧ (∃ qn q hpa, ((Instr.wqlen always (rr 1 0 0)).opening run2).queueHeader 0 0 0 = .ok (qn, q, hpa)) ∧
    (run2.pre.getG 8).getLsbD 8 = true ∧ (run2.pre.getG 0).getLsbD 8 = false := ⟨begins_of (by rfl), begins_of (by rfl), asks_of (by rfl), ⟨_, _, _, rfl⟩, rfl, rfl⟩
theorem wit_queue_back : ∃ q : Queue, q.st = .open ∧ q.waiters = [] ∧ q.outs = [] ∧ q.front = [] ∧ q.holes = [] ∧ q.tail = q.head ∧ 0 < q.cap ∧
    0x400040 % 64 = 0 ∧ 0x400000 % 64 = 0 ∧ loc 0x400040 ≠ loc 0x400000 :=
  ⟨⟨0x400000, 2, 3, 3, .open, [], [], [], []⟩, by decide⟩

/-- GPSET and GPGET of parameter 0 of the running graph 0; KDONE counted, in a kernel that counts; GLAUNCH. -/
theorem wit_kernels : ∀ k ∈ [Instr.gpset always (rr 0 0 1), .gpget always (rr 1 9 0), .glaunch always (rr 1 0 6), .kdone always (rr 1 0 0), .grpid always (rr 1 0 0), .grpsize always (rr 1 0 0)],
    k.asks always run2 := by
  simp only [List.forall_mem_cons]
  refine ⟨?_, ?_, ?_, ?_, ?_, ?_, by simp⟩ <;> exact asks_of (by rfl)
theorem wit_graph : ∃ v, ((Instr.gpget always (rr 1 9 0)).opening run2).graphOf 0x10000 0x13F3F = .ok (0, 0, v) ∧ v.running = true := ⟨_, rfl, rfl⟩
theorem wit_kdone : isKiosk run2.cur = false ∧ (∃ v, run2.opened.kernel run2.pre.mem.kref = some v ∧ v.lrec.kdcnt ≠ 0 ∧ run2.cur ∉ v.kdone ∧
    run2.pre.allWritten ((Instr.kdone always (rr 1 0 0)).opening run2).pointSeq = true) ∧ run1.opened.kernel run1.pre.mem.kref = none := ⟨rfl, ⟨_, rfl, by decide⟩, rfl⟩

/-- Barrier 0 of the group of one: BINIT, a query, an arrival, a phase that is complete (the one before the first) and one that is not. -/
theorem wit_barriers : ∀ k ∈ [Instr.binitReset always (rr 1 0 24), .binitQuery always (rr 1 0 16), .barrive always (rr 0 0 0), .bwait always (rr 1 0 0), .btry always (rr 1 0 0)],
    k.asks always run2 := by
  simp only [List.forall_mem_cons]
  refine ⟨?_, ?_, ?_, ?_, ?_, by simp⟩ <;> exact asks_of (by rfl)
set_option exponentiation.threshold 600 in
set_option maxRecDepth 4000 in
theorem wit_barrier_select : (∃ b, run2.opened.barSelect 0 0 = some (.bar b) ∧ (run2.opened.bar b).result 0xFFFFFFFF ≠ none ∧ (run2.opened.bar b).result 0 = none ∧
    Tbl.get none run2.opened.answers 0 = none) ∧ run2.opened.barSelect 0 2 = none ∧ run2.opened.barExp 0 false (2 ^ 32) = some 1 ∧
    run2.pre.getG 24 = 2 ^ 32 := ⟨⟨_, rfl, by decide⟩, by decide⟩
theorem wit_barrier_arrive : ∃ i, ((Instr.barrive always (rr 0 0 0)).opening run2).command (.new .member 10 (opndArrive 0 0 0) [0]) = .ok i := ⟨_, rfl⟩

/-- WVBIND of tensor 1; WVUNBIND of an empty and of a bound register; WVSLOT of a slot at writing, retiring and free; WVREAD; WVPUBLISH. -/
theorem wit_versions : ∀ k ∈ [Instr.wvbind always (rr 1 7 0), .wvunbind always (rr 1 0 0), .wvslot always (rr 1 7 0), .wvslot always (rr 1 22 0), .wvslot always (rr 1 15 0),
    .wvread always (rr 1 7 0), .wvread always (rr 1 11 0), .wvpublish always (rr 1 7 12), .wvpublish always (rr 1 7 14), .wvbind always (rr 1 7 1), .wvpublish always (rr 1 7 24)],
    k.asks always run2 := by
  simp only [List.forall_mem_cons]
  refine ⟨?_, ?_, ?_, ?_, ?_, ?_, ?_, ?_, ?_, ?_, ?_, by simp⟩ <;> exact asks_of (by rfl)
theorem wit_version_states : (let e := (run2.ctx 0).tensor 1; e.ver ≠ 0 ∧ (e.slot e.other).st = .writing ∧ e.publishStatus 4 = none ∧ e.publishStatus 5 = some 2) ∧
    (let e := (run2.ctx 0).tensor 2; (e.slot e.other).st = .retiring) ∧ (let e := (run2.ctx 0).tensor 3; (e.slot e.other).st = .free) ∧ ((run2.ctx 0).tensor 4).ver = 0 ∧
    run2.pubs = [] ∧ (Tbl.get Bind.none run2.pre.bnd 0).v = false ∧ (Tbl.get Bind.none [(0, (⟨true, 1, 0, 3, false⟩ : Bind))] 0).v = true := by decide

/-- An exit by the confidence 1.0 against the head 0.5 on a range of plain entries, on one that is marked, on none; no exit. -/
theorem wit_kv : ∀ k ∈ [Instr.confx always (rr 1 21 20), .kvcommit always (rr 1 23 0), .kvmodeSet always (rr 1 0 7), .kvmodeGet always (rr 1 7 0), .kvmodeSpec always (rr 1 22 24),
    .kvmodeQuery always (rr 1 15 7)], k.asks always run2 := by
  simp only [List.forall_mem_cons]
  refine ⟨?_, ?_, ?_, ?_, ?_, ?_, by simp⟩ <;> exact asks_of (by rfl)
theorem wit_kv_states : (run2.ctx 0).kvnp ≠ 0 ∧ Claims.exitTaken 0x3F800000 0x3F000000 = true ∧ Claims.exitTaken 0x3F000000 0x3F800000 = false ∧
    kvRangeOk (run2.ctx 0) 3 2 = true ∧ kvRangeOk (run2.ctx 0) 0 0x10001 = false ∧ (∀ m < 2, kvMark (run2.ctx 0) (3 + m) = .plain) ∧ (∃ m < 3, kvMark (run2.ctx 0) m ≠ .plain) ∧
    kvMark (run2.ctx 0) 1 = .pending ∧ kvMark (run2.ctx 0) 2 = .spec 1 ∧ run2.pre.allWritten 0 = true := by decide
set_option exponentiation.threshold 600 in
set_option maxRecDepth 4000 in
/-- A commit record's first block is read (whether a live copy answers the second read is a free choice, R254). -/
theorem wit_kvcommit : okB (do
    let (va, j) ← ((Instr.kvcommit always (rr 1 23 0)).opening run2).rrG1 (rr 1 23 0)
    let (_, i) ← j.commitBlocks va 1
    if i.core.allWritten i.pointSeq then .ok () else .error .wait) = true := by decide +kernel
theorem wit_kvcommit_status : run2.commitStatus 0 1 0 [] = 3 ∧ run2.commitStatus 0 1 0 [(2, 2)] = 0 := by decide

/-- LKTREE of a descriptor of zeros (no entries), LKFREE of a slot free, PGPROBE, PGINV's two forms. -/
theorem wit_links : ∀ k ∈ [Instr.lktree always (rr 1 23 0), .lkfree always (rr 1 0 0), .lkfreeCheck always (rr 1 8 0), .pgprobe always (rr 1 0 0), .pginvUpdate always (rr 1 0 0),
    .pginvMove always (rr 1 0 7)], k.asks always run2 := by
  simp only [List.forall_mem_cons]
  refine ⟨?_, ?_, ?_, ?_, ?_, ?_, by simp⟩ <;> exact asks_of (by rfl)
set_option exponentiation.threshold 600 in
set_option maxRecDepth 4000 in
theorem wit_link_states : (run2.ctx 0).st ≠ .free ∧ (run2.ctx 0).st ≠ .dead ∧ run2.treeReqs = [] ∧ (∃ h i, ((Instr.lktree always (rr 1 23 0)).opening run2).commitBlocks 0x400000 1 = .ok (h, i) ∧
    blocksVal h % 2 ^ 16 < 2) ∧ (run2.tree 0).st ≠ .allocated ∧ run2.opened.pgSelect 0 = some (0, 0) ∧ run2.pgops = [] := ⟨by decide, by decide, rfl, ⟨_, _, rfl, by decide⟩, by decide, rfl, rfl⟩
end Sys2Proof.Tests
end

