-- ==== Sys2Proof/Tests/WitnessVector.lean ====
section
/-! SUPPORT. States and operands that meet the premises of the statements about vector operations. -/

namespace Sys2Proof.Tests
open Sys2Proof.Machine

/-! ### Vector operations: with p0 true and registers not lent, every form begins and reads its sources. -/

theorem wit_floatRows : ∀ e ∈ Claims.floatRows, (e.1 always .rs (rr 1 2 3)).begins always run1 := by
  simp only [Claims.floatRows, List.forall_mem_cons]
  refine ⟨?_, ?_, ?_, ?_, ?_, ?_, ?_, ?_, ?_, ?_, ?_, ?_, ?_, ?_, ?_, ?_, ?_, by simp⟩ <;> exact begins_of (by rfl)

theorem wit_fusedRows : ∀ e ∈ Claims.fusedRows, (e.1 always .rtz (rr 1 2 3)).begins always run1 := by
  simp only [Claims.fusedRows, List.forall_mem_cons]
  refine ⟨?_, ?_, ?_, ?_, ?_, ?_, ?_, ?_, ?_, by simp⟩ <;> exact begins_of (by rfl)

theorem wit_functionRows : ∀ e ∈ Claims.functionRows, (e.1 always .rne (rr 1 2 0)).begins always run1 := by
  simp only [Claims.functionRows, List.forall_mem_cons]
  refine ⟨?_, ?_, ?_, ?_, ?_, ?_, ?_, ?_, ?_, ?_, ?_, ?_, by simp⟩ <;> exact begins_of (by rfl)

theorem wit_patternRows : ∀ e ∈ Claims.patternRows, (e.1 always (rr 1 2 0)).begins always run1 := by
  simp only [Claims.patternRows, List.forall_mem_cons]
  refine ⟨?_, ?_, ?_, ?_, ?_, ?_, ?_, by simp⟩ <;> exact begins_of (by rfl)

theorem wit_finRows : ∀ e ∈ Claims.finRows, (e.1 always (rr 1 2 3)).begins always run1 := by
  simp only [Claims.finRows, List.forall_mem_cons]
  refine ⟨?_, ?_, ?_, by simp⟩ <;> exact begins_of (by rfl)

theorem wit_finReadRows : ∀ e ∈ Claims.finReadRows, (e always (rr 1 0 32)).begins always run1 := by
  simp only [Claims.finReadRows, List.forall_mem_cons]
  refine ⟨?_, ?_, ?_, by simp⟩ <;> exact begins_of (by rfl)

theorem wit_laneRows : ∀ e ∈ Claims.laneRows, (e.1 always (rr 1 2 3)).begins always run1 := by
  simp only [Claims.laneRows, List.forall_mem_cons]
  refine ⟨?_, ?_, ?_, ?_, ?_, ?_, ?_, ?_, ?_, ?_, ?_, ?_, ?_, ?_, ?_, ?_, ?_, ?_, ?_, ?_, ?_, ?_, ?_, ?_, ?_, ?_, ?_, by simp⟩ <;> exact begins_of (by rfl)

theorem wit_vectorCompareRows : ∀ e ∈ Claims.vectorCompareRows, (e.1 always (rr 45 2 3)).begins always run1 := by
  simp only [Claims.vectorCompareRows, List.forall_mem_cons]
  refine ⟨?_, ?_, ?_, ?_, by simp⟩ <;> exact begins_of (by rfl)

theorem wit_convertRows : ∀ e ∈ Claims.convertRows, (e.1 always .rne ⟨1, 2, 0, BitVec.ofNat 4 e.2, 0, false⟩).begins always run1 := by
  simp only [Claims.convertRows, List.forall_mem_cons]
  refine ⟨?_, ?_, ?_, ?_, ?_, ?_, ?_, ?_, ?_, by simp⟩ <;> exact begins_of (by rfl)

theorem wit_reduceRows : ∀ e ∈ Claims.reduceRows, (e.1 always .rne (rr 1 2 3)).begins always run1 := by
  simp only [Claims.reduceRows, List.forall_mem_cons]
  refine ⟨?_, ?_, ?_, ?_, ?_, ?_, ?_, by simp⟩ <;> exact begins_of (by rfl)

theorem wit_permuteRows : ∀ e ∈ Claims.permuteRows, (e.1 always (rr 1 2 3)).begins always run1 := by
  simp only [Claims.permuteRows, List.forall_mem_cons]
  refine ⟨?_, ?_, ?_, ?_, by simp⟩ <;> exact begins_of (by rfl)

theorem wit_drawRows : ∀ e ∈ Claims.drawRows, (e.1 always (rr 1 0 0)).begins always run1 := by
  simp only [Claims.drawRows, List.forall_mem_cons]
  refine ⟨?_, ?_, ?_, ?_, by simp⟩ <;> exact begins_of (by rfl)

theorem wit_vector_others : ∀ k ∈ [Instr.vmsel always ⟨1, 2, 3, 4⟩, .vsrnd always ⟨1, 2, 0, 3, 0, false⟩, .vplsplit always (rr 1 2 3), .vpljoin always (rr 1 2 3),
    .voutapply always (rr 1 2 3), .vrargmaxF32 always .rne (rr 1 2 3), .vtrn4 always (rr 1 2 0), .vbcast always ⟨1, 2, 31, 0⟩, .vslide always ⟨1, 2, 31, 0⟩,
    .vsmmerge always ⟨1, 2, 3, 4⟩, .vrseed always (rr 0 2 0), .vld always ⟨1, 6, 0, 0⟩, .vst always ⟨1, 6, 0, 0⟩, .vldg always (rr 1 2 6), .vsts always (rr 1 2 6),
    .vldpl always ⟨1, 6, 0, 0⟩], k.begins always run1 := by
  simp only [List.forall_mem_cons]
  refine ⟨?_, ?_, ?_, ?_, ?_, ?_, ?_, ?_, ?_, ?_, ?_, ?_, ?_, ?_, ?_, ?_, by simp⟩ <;> exact begins_of (by rfl)

/-- Sources of v registers that stand in banks not lent; the same of a lent bank, which stops. -/
theorem wit_vector_sources : ∃ x y j, ((Instr.vaddF32 always .rne (rr 1 2 3)).opening run1).rrSources (rr 1 2 3) .v .v = .ok (x, y, j) ∧ j.core.isLent (j.pre.physV 1) = false :=
  ⟨_, _, _, rfl, rfl⟩
theorem wit_vector_lent : (with0 fun c => { c with lent := 1 }).pre.isLent ((with0 fun c => { c with lent := 1 }).pre.physV 15) = true := rfl
/-- A scratchpad access that passes its checks, a misaligned one, one beyond the end. -/
def runReady : State := with0 fun c => { c with tiles := [(0, ⟨.ready, 0, 0, false, false⟩)] }
theorem wit_scratchpad : (∃ j, ((Instr.vld always ⟨1, 0, 0, 0⟩).openingAt runReady 0 0).spadCheck [0] 128 128 false = .ok j) ∧
    (∃ e, ((Instr.vld always ⟨1, 6, 0, 0⟩).openingAt run1 6 0).spadCheck [0x40] 128 128 false = .error e) ∧
    ∃ e, ((Instr.vst always ⟨1, 1, 0, 0⟩).openingAt run1 1 0).spadCheck [0x400000] 128 128 true = .error e := ⟨⟨_, rfl⟩, ⟨_, rfl⟩, _, rfl⟩
theorem wit_planes : (0x40 % 512 / 64 + 4 ≤ 8 ∧ 8 < 0x1C0 % 512 / 64 + 2) ∧
    ∃ j, ((Instr.vldpl always ⟨1, 6, 0, 12⟩).openingAt runReady 6 0).spadCheck ((List.range 4).map (fun n => 0x40 + 64 * n)) 32 32 false = .ok j ∧
      (∀ n < 4, tagCode (runReady.pre.spad.tag ((0x40 + 64 * n) / 64)) = 0) := ⟨by decide, _, rfl, by decide⟩
end Sys2Proof.Tests
end

section
/-! The host port (21_link.md R446 to R448): what its rows run, the check of a command's context, and the statement on both. -/

namespace Sys2Proof.Machine

section
variable {s t : State} {f st : Nat} {cmd : BitVec 512} {row : String} {opc : Nat → Bool} {k : State → CmdOut}

/-! ### A command that is next -/

/-- Nothing keeps a command that is next, and whose opcode the row serves, from being taken. -/
theorem command_open (h : Claims.next s f cmd) (hopc : opc (cmdOpc cmd) = true) :
    ¬ (16 ≤ f ∨ (!s.root.ready) = true ∨ (s.fn f).busy.isSome = true ∨ s.nextCmd f ≠ some cmd ∨ (!opc (cmdOpc cmd)) = true ∨
      (s.fn f).qent.toNat ≤ ((s.fn f).rput - (s.fn f).rget).toNat) := by
  obtain ⟨hf, hready, hbusy, hcmd, hroom⟩ := h
  rintro (h | h | h | h | h | h)
  · omega
  · simp [hready] at h
  · simp [hbusy] at h
  · exact h hcmd
  · simp [hopc] at h
  · exact absurd hroom (Nat.not_lt.2 h)

theorem command_of_done (h : Claims.next s f cmd) (hopc : opc (cmdOpc cmd) = true) (hk : k s = .done t st) :
    s.command f cmd row opc k = .next (Claims.completed t f cmd st) := by
  unfold State.command
  rw [if_neg (command_open h hopc), hk]
  rfl

theorem command_of_goesOn (h : Claims.next s f cmd) (hopc : opc (cmdOpc cmd) = true) (hk : k s = .goesOn t) :
    s.command f cmd row opc k = .next (Claims.goingOn t f cmd) := by
  unfold State.command
  rw [if_neg (command_open h hopc), hk]
  rfl

/-! ### The context of a command (R447, R448) -/

theorem owned_of_absent {w : Nat → Ctx → CmdOut} (h : 64 ≤ cmdCtx cmd ∨ (s.ctx (cmdCtx cmd)).st = .free) : s.owned f cmd w = .done s 2 :=
  if_pos h

theorem owned_of_foreign {w : Nat → Ctx → CmdOut} (hx : cmdCtx cmd < 64) (hst : (s.ctx (cmdCtx cmd)).st ≠ .free) (hf : f ≠ 0)
    (hc : (s.ctx (cmdCtx cmd)).creator ≠ f) : s.owned f cmd w = .done s 3 := by
  have hthere : ¬ (64 ≤ cmdCtx cmd ∨ (s.ctx (cmdCtx cmd)).st = .free) := not_or.2 ⟨Nat.not_le.2 hx, hst⟩
  exact (if_neg hthere).trans (if_pos ⟨hf, hc⟩)

/-- A row of Table 8 that names a context takes the command of its opcode and checks the context first. -/
theorem exec_hostRow {e : (Nat → BitVec 512 → Instr) × Nat} (he : e ∈ Claims.hostRows) :
    ∃ (row : String) (opc : Nat → Bool) (w : State → Nat → Ctx → CmdOut),
      exec (e.1 f cmd) s = s.command f cmd row opc (fun s => s.owned f cmd (w s)) ∧ opc e.2 = true := by
  simp only [Claims.hostRows, List.mem_cons, List.not_mem_nil, or_false] at he
  rcases he with rfl | rfl | rfl | rfl | rfl | rfl | rfl | rfl | rfl
  · exact ⟨_, _, _, (show exec (.destroy f cmd) s = execDestroy f cmd s from rfl), rfl⟩
  · exact ⟨_, _, _, (show exec (.wvdef f cmd) s = execWvdef f cmd s from rfl), rfl⟩
  · exact ⟨_, _, _, (show exec (.wvrem f cmd) s = execWvrem f cmd s from rfl), rfl⟩
  · exact ⟨_, _, _, (show exec (.ring f cmd) s = execRing f cmd s from rfl), rfl⟩
  · exact ⟨_, _, _, (show exec (.qcreate f cmd) s = execQcreate f cmd s from rfl), rfl⟩
  · exact ⟨_, _, _, (show exec (.graphrec f cmd) s = execGraphrec f cmd s from rfl), rfl⟩
  · exact ⟨_, _, _, (show exec (.replay f cmd) s = execReplay f cmd s from rfl), rfl⟩
  · exact ⟨_, _, _, (show exec (.launch f cmd) s = execLaunch f cmd s from rfl), rfl⟩
  · exact ⟨_, _, _, (show exec (.stream f cmd) s = execStream f cmd s from rfl), rfl⟩

/-! ### CREATE (12_context.md R298; 21_link.md R447) -/

theorem exec_create : exec (.create f cmd) s = execCreate f cmd s := rfl

/-- CREATE serves its own opcode and those outside Table 8. -/
theorem exec_create_of_done (h : Claims.next s f cmd) (hopc : cmdOpc cmd = 1 ∨ cmdOpc cmd = 0 ∨ 0x0A < cmdOpc cmd) (hk : s.create f cmd = .done t st) :
    exec (.create f cmd) s = .next (Claims.completed t f cmd st) :=
  exec_create.trans (command_of_done h (by simpa [or_assoc] using hopc) hk)

theorem exec_create_of_goesOn (h : Claims.next s f cmd) (hopc : cmdOpc cmd = 1) (hk : s.create f cmd = .goesOn t) :
    exec (.create f cmd) s = .next (Claims.goingOn t f cmd) :=
  exec_create.trans (command_of_goesOn h (by simp [hopc]) hk)

/-- A CREATE whose opcode, context and descriptor pass: what is left to judge. -/
theorem create_of_wellFormed (hopc : cmdOpc cmd = 1) (hx : cmdCtx cmd < 64) (hok : createOk cmd = true) :
    s.create f cmd =
      if f ≠ 0 ∧ (ctxOfCmd f cmd).priv = true then .done s 3
      else if (s.ctx (cmdCtx cmd)).st ≠ .free then .done s 6
      else if f ≠ 0 ∧ (s.fn f).quota ≤ (s.ctxs.filter (fun c => decide (c.2.creator = f) && decide (c.2.st ≠ .free))).length then .done s 5
      else .goesOn (s.setCtx (cmdCtx cmd) (ctxOfCmd f cmd)) := by
  have hbad : ¬ (64 ≤ cmdCtx cmd ∨ (!createOk cmd) = true) := by simp [hok, hx]
  exact (if_neg (not_not.2 hopc)).trans (if_neg hbad)

end

theorem hostCommandsAreChecked : Claims.HostCommandsAreChecked := by
  intro s f cmd h
  refine ⟨fun e he hopc => ?_, fun hopc hx hok hf hst => ?_, fun hopc hx hok hf => ⟨fun hp => ?_, fun hp hst => ⟨fun hq => ?_, fun hq => ?_⟩⟩,
    fun hopc hbad => ?_, fun hopc => ?_⟩
  · obtain ⟨row, opc, w, hexec, hserves⟩ := exec_hostRow (s := s) (f := f) (cmd := cmd) he
    rw [hexec]
    rw [← hopc] at hserves
    exact ⟨fun habs => command_of_done h hserves (owned_of_absent habs),
      fun hx hst hf hc => command_of_done h hserves (owned_of_foreign hx hst hf hc)⟩
  · exact exec_create_of_goesOn h hopc (by simp [create_of_wellFormed hopc hx hok, hf, hst])
  · exact exec_create_of_done h (.inl hopc) (by simp [create_of_wellFormed hopc hx hok, hf, hp])
  · exact exec_create_of_done h (.inl hopc) (by
      rw [create_of_wellFormed hopc hx hok, if_neg (by simp [hp]), if_neg (not_not.2 hst), if_pos ⟨hf, hq⟩])
  · exact exec_create_of_goesOn h hopc (by
      rw [create_of_wellFormed hopc hx hok, if_neg (by simp [hp]), if_neg (not_not.2 hst), if_neg (fun hc => absurd hq (Nat.not_lt.2 hc.2))])
  · exact exec_create_of_done h (.inl hopc) ((if_neg (not_not.2 hopc)).trans (if_pos (by simpa using hbad)))
  · exact exec_create_of_done h (.inr hopc) (if_pos (by omega))

/-! ### The other rows of the host port -/

section
variable {s : State} {f : Nat}


theorem exec_hostRegWrite {off : Nat} {x : BitVec 256} : exec (.hostRegWrite f off x) s = s.hostReg f off x := rfl

/-- Commands that the ring has room for, as many as CPUT rises by, are written on a device that has not failed (R448). -/
theorem doorbell_of_room {put : Nat} {cs : List (BitVec 512)} (hf : f < 16) (hfail : s.root.fail = false)
    (hlen : cs.length = (put + 2 ^ 32 - (s.fn f).cput.toNat) % 2 ^ 32) (hroom : cs.length ≤ (s.fn f).qent.toNat) :
    s.doorbell f put cs = .next
      ({ s with hostMem := (s.fn f).ringWrite (s.fn f).cput.toNat cs s.hostMem }.setFn f { s.fn f with cput := BitVec.ofNat 32 put }) :=
  if_neg (by simp only [hfail, not_or]; exact ⟨by omega, by simp, not_not.2 hlen, by omega⟩)

/-- The quota of a virtual function has its place behind the physical function's page (log entry 37). -/
theorem hostReg_quota {k : Nat} {x : BitVec 256} (hk : 1 ≤ k) (hk' : k < 16) :
    s.hostReg 0 (4096 + 8 * k) x = .next (s.setFn k { s.fn k with quota := x.toNat }) := by
  have hplace : (4096 + 8 * k - 4096) / 8 = k := by omega
  refine (if_pos ⟨rfl, by omega, by omega, hplace.trans_lt hk'⟩).trans ?_
  rw [hplace]

/-- What a virtual function does not have ignores its writes and reads as zero (R448 Table 7; R458 Table 3). -/
theorem hostReg_of_absent {off : Nat} {x : BitVec 256} (hf : f < 16) (hfail : s.root.fail = false) (hvf : f ≠ 0) (hlo : 0x100 ≤ off) (hhi : off < 4096)
    (hareq : off ≠ 0x120) : s.hostReg f off x = .next s ∧ s.hostRegRead f off = 0 := by
  have hbar : ¬ (16 ≤ f ∨ 4096 ≤ off ∨ off = 0x18 ∨ off = 0x120) := by omega
  constructor
  · simp only [State.hostReg, hvf, hbar, hfail, false_and, if_false, Bool.false_eq_true]
    split <;> simp at hlo ⊢
  · simp only [State.hostRegRead, hvf, hfail, false_and, if_false, Bool.false_eq_true]
    split <;> simp at hlo ⊢

/-- A host access inside a named frame, on a ready device (log entry 38). -/
theorem hostAccess_of_named {a : Nat} {w : Bool} {d : List (BitVec 8)} (hf : f < 16) (hready : s.root.ready = true) (hd : d ≠ [])
    (hframe : a / 2 ^ 22 = (a + d.length - 1) / 2 ^ 22) (hnamed : frameNamed (a / 2 ^ 22) = true) :
    s.hostAccess f a w d =
      .next (if w then s.hostWrite a d else { s with hostData := (List.range d.length).map (fun j => BitVec.ofNat 8 (s.rd (a + j) 1)) }) :=
  if_neg (by simp only [hready, hnamed, not_or]; exact ⟨by omega, by simp, hd, not_not.2 hframe, by simp⟩)
end

/-! ### Streams (R446) -/

section
variable {s : State} {i off : Nat} {t : Stream} {c : BitVec 512}

theorem streamEnd_sends {pa p : Nat} {ps : List Nat} (hi : s.streams[i]? = some t) (hc : (s.fn t.fn).busy = some c) (hlost : t.lost = false)
    (hstep : t.step < t.total) (hseal : (t.seals && s.sending t) = false) (hfrom : s.streamFrom t = .go pa) (hports : s.streamPorts t.peer = p :: ps) :
    s.streamEnd i 0 off = .next (s.streamSend i t pa (nth p (p :: ps) (t.step % (ps.length + 1)))) := by
  simp [State.streamEnd, hi, hc, hlost, hstep, hseal, hfrom, hports]

theorem streamEnd_completes (hi : s.streams[i]? = some t) (hc : (s.fn t.fn).busy = some c) (hlost : t.lost = false) (hstep : t.total ≤ t.step)
    (hsent : s.sending t = false) :
    s.streamEnd i 0 off = .next (({ s with streams := s.streams.eraseIdx i } : State).complete t.fn c 0 0) := by
  simp [State.streamEnd, hi, hc, hlost, Nat.not_lt.2 hstep, hsent]

theorem streamEnd_stops (hi : s.streams[i]? = some t) (hc : (s.fn t.fn).busy = some c) (hstop : s.streamStops t = true)
    (hoff : off ≤ min t.bytes (64 * t.step)) : s.streamEnd i 7 off = .next (s.streamLost t off) := by
  unfold State.streamEnd
  simp only [hi, hc, if_true]
  exact if_pos ⟨hstop, hoff⟩
end

theorem hostPortEventsArise : Claims.HostPortEventsArise := by
  intro s f hf
  refine ⟨fun put cs hfail hlen hroom => doorbell_of_room hf hfail hlen hroom, fun x hfail => ?_, fun k x hk hk' => hostReg_quota hk hk',
    fun a d hready hd hframe hnamed => ?_, fun i t c hi hc => ?_⟩
  · have hfn : ¬ 16 ≤ f := Nat.not_le.2 hf
    refine ⟨?_, ?_, ?_, ?_, ?_, fun h0 => ?_, fun hvf off hlo hhi hareq => hostReg_of_absent hf hfail hvf hlo hhi hareq, ?_, ?_, ?_, fun h0 => ?_⟩
    case refine_7 | refine_8 | refine_9 => simp [State.hostRegRead, hfail]
    all_goals simp [exec_hostRegWrite, State.hostReg, *]
  · exact ⟨hostAccess_of_named hf hready hd hframe hnamed, hostAccess_of_named hf hready hd hframe hnamed⟩
  · exact ⟨fun pa p ps off hlost hstep hseal hfrom hports => streamEnd_sends hi hc hlost hstep hseal hfrom hports,
      fun off hlost hstep hsent => streamEnd_completes hi hc hlost hstep hsent, fun off hstop hoff => streamEnd_stops hi hc hstop hoff⟩

/-- Settles O40: the rows of the host port one by one, then the checks that CREATE and the rows naming a context make. -/
theorem hostPortAndCommandChecks : Obligations.HostPortAndCommandChecks :=
  ⟨hostPortEventsArise, hostCommandsAreChecked⟩

end Sys2Proof.Machine
end

section
/-! The canonical form of both memories (O57): what it is of a state, an operation and a step that each keeps it, and the rules of these. -/

namespace Sys2Proof.Machine

/-! ### What is kept -/

/-- Both memories stand in their canonical form, named as a proposition so that its rules can be written after their hypothesis. -/
def State.Canon (s : State) : Prop := s.memOk = true

theorem State.canon_iff {s : State} : s.Canon ↔ s.mem.wf = true ∧ s.hostMem.wf = true := memOk_iff s

/-- A change of state that keeps the canonical form. -/
def Keeps (f : State → State) : Prop := ∀ s, s.Canon → (f s).Canon

/-- What a freeze asks for keeps the form; the other stops ask for nothing. -/
def Stop.Canon : Stop → Prop
  | .freeze f => Keeps f
  | _ => True

/-- The state so far has the form, and what is still to be done keeps it. -/
def Issue.Canon (i : Issue) : Prop := i.s.Canon ∧ Keeps i.post ∧ Keeps i.reserve

/-- The outcome of a part of an operation: what it answers satisfies `P`, and a stop keeps the form. -/
def Ends {α : Type} (P : α → Prop) : Except Stop α → Prop
  | .ok a => P a
  | .error e => e.Canon

/-- An operation keeps the form. -/
def OpCanon (op : Op) : Prop := ∀ i, i.Canon → Ends Issue.Canon (op i)

/-- A step that goes on does so in a state of canonical form. -/
def Steps : Result → Prop
  | .next t => t.Canon
  | _ => True

/-- What an engine's step leaves has the form. -/
def EngOut.Canon : EngOut → Prop
  | .done s => s.Canon
  | _ => True

/-- What a command leaves has the form. -/
def CmdOut.Canon : CmdOut → Prop
  | .done s _ => s.Canon
  | .goesOn s => s.Canon
  | .wait s _ => s.Canon
  | .no => True

/-- The first alternative, where it is the answer, satisfies `P`. -/
def Inl {α β : Type} (P : α → Prop) : α ⊕ β → Prop
  | .inl a => P a
  | .inr _ => True

/-- The value, where there is one, satisfies `P`. -/
def IfSome {α : Type} (P : α → Prop) : Option α → Prop
  | some a => P a
  | none => True

/-- `P` holds of `f`. A structure, so that `delta f` opens `f` as a function, under its binders: opened on its arguments, a function that
matches on an open address makes the kernel evaluate arithmetic on that address. -/
structure Opened {α : Type} (P : α → Prop) (f : α) : Prop where
  out : P f

/-! ### Their rules -/

theorem Keeps.comp {f g : State → State} (hf : Keeps f) (hg : Keeps g) : Keeps (fun s => f (g s)) := fun _ h => hf _ (hg _ h)

section
variable {s t : State} {i : Issue} {α β : Type} {P : α → Prop}

theorem State.Canon.mem (h : s.Canon) : s.mem.wf = true := (State.canon_iff.1 h).1
theorem State.Canon.hostMem (h : s.Canon) : s.hostMem.wf = true := (State.canon_iff.1 h).2

theorem State.Canon.same (h : s.Canon) (hm : t.mem = s.mem) (hh : t.hostMem = s.hostMem) : t.Canon :=
  memOk_of_same h hm hh

theorem State.Canon.foldl {f : State → α → State} {l : List α} (h : s.Canon) (hf : ∀ s x, s.Canon → (f s x).Canon) : (l.foldl f s).Canon :=
  memOk_foldl f hf l s h

theorem State.Canon.foldl_mem {f : State → α → State} {l : List α} (h : s.Canon) (hf : ∀ x ∈ l, ∀ s, s.Canon → (f s x).Canon) :
    (l.foldl f s).Canon :=
  List.foldlRecOn l f h fun s hs x hx => hf x hx s hs

theorem State.Canon.foldl_snd {f : β × State → α → β × State} {l : List α} {p : β × State} (h : p.2.Canon)
    (hf : ∀ p x, p.2.Canon → (f p x).2.Canon) : (l.foldl f p).2.Canon :=
  List.foldlRecOn (motive := fun p : β × State => p.2.Canon) l f h fun p hp x _ => hf p x hp

theorem State.Canon.foldl_fst {f : State × β → α → State × β} {l : List α} {p : State × β} (h : p.1.Canon)
    (hf : ∀ p x, p.1.Canon → (f p x).1.Canon) : (l.foldl f p).1.Canon :=
  List.foldlRecOn (motive := fun p : State × β => p.1.Canon) l f h fun p hp x _ => hf p x hp

theorem State.Canon.snd_of {p : α × State} {a : α} (h : p.2.Canon) (e : p = (a, s)) : s.Canon := by subst e; exact h

theorem Issue.Canon.state (h : i.Canon) : i.s.Canon := h.1
theorem Issue.Canon.post (h : i.Canon) : Keeps i.post := h.2.1
theorem Issue.Canon.reserve (h : i.Canon) : Keeps i.reserve := h.2.2
theorem Issue.Canon.withS (h : i.Canon) (hs : s.Canon) : Issue.Canon { i with s := s } := ⟨hs, h.2⟩
theorem Issue.Canon.withReserve (h : i.Canon) {f : State → State} (hf : Keeps f) : Issue.Canon { i with reserve := f } := ⟨h.1, h.2.1, hf⟩
theorem Issue.Canon.snd_of {p : α × Issue} {a : α} (h : p.2.Canon) (e : p = (a, i)) : i.Canon := by subst e; exact h

theorem Issue.Canon.foldl_snd {f : α × Issue → β → α × Issue} {l : List β} {p : α × Issue} (h : p.2.Canon)
    (hf : ∀ p x, p.2.Canon → (f p x).2.Canon) : (l.foldl f p).2.Canon :=
  List.foldlRecOn (motive := fun p : α × Issue => p.2.Canon) l f h fun p hp x _ => hf p x hp

theorem Ends.bind {Q : β → Prop} {x : Except Stop β} {f : β → Except Stop α} (hx : Ends Q x) (hf : ∀ a, Q a → Ends P (f a)) :
    Ends P (x >>= f) := by
  cases x with
  | error e => exact hx
  | ok a => exact hf a hx

theorem Ends.of_ite {c : Prop} [Decidable c] {x y : Except Stop α} (hx : Ends P x) (hy : Ends P y) : Ends P (if c then x else y) := by
  split
  · exact hx
  · exact hy

theorem State.Canon.of_ite {c : Prop} [Decidable c] (hs : s.Canon) (ht : t.Canon) : (if c then s else t).Canon := by
  split
  · exact hs
  · exact ht

theorem Steps.of_ite {c : Prop} [Decidable c] {x y : Result} (hx : Steps x) (hy : Steps y) : Steps (if c then x else y) := by
  split
  · exact hx
  · exact hy

theorem Ends.wait : Ends P (.error .wait) := fun _ h => h
theorem Ends.illegalOperand : Ends Issue.Canon illegalOperand := trivial

theorem Ends.ok_of {x : Except Stop α} {a : α} (h : Ends P x) (e : x = .ok a) : P a := by subst e; exact h
theorem Ends.error_of {x : Except Stop α} {a : Stop} (h : Ends P x) (e : x = .error a) : a.Canon := by subst e; exact h
theorem Steps.next_of {r : Result} (h : Steps r) (e : r = .next t) : t.Canon := by subst e; exact h
theorem EngOut.Canon.done_of {r : EngOut} (h : r.Canon) (e : r = .done t) : t.Canon := by subst e; exact h
theorem CmdOut.Canon.done_of {r : CmdOut} {st : Nat} (h : r.Canon) (e : r = .done t st) : t.Canon := by subst e; exact h
theorem CmdOut.Canon.goesOn_of {r : CmdOut} (h : r.Canon) (e : r = .goesOn t) : t.Canon := by subst e; exact h
theorem CmdOut.Canon.wait_of {r : CmdOut} {page : Nat} (h : r.Canon) (e : r = .wait t page) : t.Canon := by subst e; exact h
theorem Inl.inl_of {x : α ⊕ β} {a : α} (h : Inl P x) (e : x = .inl a) : P a := by subst e; exact h
theorem IfSome.some_of {x : Option α} {a : α} (h : IfSome P x) (e : x = some a) : P a := by subst e; exact h
end

end Sys2Proof.Machine
end

section
/-! The canonical form is kept by the accessors of the state, by the stores and tags of both memories and by what translation does. -/

namespace Sys2Proof.Machine

theorem State.Canon.setCore {s : State} {n : Nat} {c : Core} (h : s.Canon) : (s.setCore n c).Canon := memOk_setCore _ _ _ h

theorem State.Canon.upd {s : State} {n : Nat} {f : Core → Core} (h : s.Canon) : (s.upd n f).Canon := memOk_upd _ _ _ h

theorem State.Canon.setCtx {s : State} {x : Nat} {c : Ctx} (h : s.Canon) : (s.setCtx x c).Canon := memOk_setCtx _ _ _ h

theorem State.Canon.updCtx {s : State} {x : Nat} {f : Ctx → Ctx} (h : s.Canon) : (s.updCtx x f).Canon := memOk_updCtx _ _ _ h

theorem State.Canon.setKernel {s : State} {k : Nat} {v : Kernel} (h : s.Canon) : (s.setKernel k v).Canon := memOk_setKernel _ _ _ h

theorem State.Canon.setGroup {s : State} {g : Nat} {v : Group} (h : s.Canon) : (s.setGroup g v).Canon := memOk_setGroup _ _ _ h

theorem State.Canon.draw {s : State} (h : s.Canon) : (s.draw).2.Canon :=
  h

theorem State.Canon.choose {s : State} (h : s.Canon) : (s.choose).2.Canon :=
  h

theorem State.Canon.put {s : State} {a n v : Nat} (h : s.Canon) : (s.put a n v).Canon := memOk_put _ _ _ _ h

theorem State.Canon.putTag {s : State} {a : Nat} {t : BitVec 16} (h : s.Canon) : (s.putTag a t).Canon := memOk_putTag _ _ _ h

theorem State.Canon.putBlock {s : State} {a : Nat} {d : BitVec 512} {t : BitVec 16} (h : s.Canon) : (s.putBlock a d t).Canon :=
  memOk_putBlock _ _ _ _ h

theorem State.Canon.readTime {s : State} {n line : Nat} (h : s.Canon) : (s.readTime n line).1.Canon :=
  State.Canon.upd h

theorem State.Canon.writeTime {s : State} {clk l : Nat} (h : s.Canon) : (s.writeTime clk l).1.Canon := memOk_writeTime _ _ _ h

theorem State.Canon.coreWriteTime {s : State} {n l : Nat} (h : s.Canon) : (s.coreWriteTime n l).Canon := memOk_coreWriteTime _ _ _ h

theorem State.Canon.timedStore {s : State} {clk pa n v : Nat} (h : s.Canon) : (s.timedStore clk pa n v).Canon :=
  memOk_timedStore _ _ _ _ _ h

theorem State.Canon.engineStore {s : State} {pa n v : Nat} (h : s.Canon) : (s.engineStore pa n v).Canon := memOk_engineStore _ _ _ _ h

theorem State.Canon.engineBlock {s : State} {pa : Nat} {d : BitVec 512} {t : BitVec 16} (h : s.Canon) : (s.engineBlock pa d t).Canon :=
  memOk_engineBlock _ _ _ _ h

theorem State.Canon.blockWrite {s : State} {clk pa : Nat} {d : BitVec 512} {t : BitVec 16} (h : s.Canon) :
    (s.blockWrite clk pa d t).1.Canon :=
  h.writeTime.putBlock

theorem State.Canon.updEntry {s : State} {n k : Nat} {f : IfrEntry → IfrEntry} (h : s.Canon) : (s.updEntry n k f).Canon :=
  h

theorem State.Canon.noteCmd {s : State} {c k ts : Nat} (h : s.Canon) : (s.noteCmd c k ts).Canon := memOk_noteCmd _ _ _ _ h

theorem State.Canon.asyncStore {s : State} {c k clk pa n v : Nat} (h : s.Canon) : (s.asyncStore c k clk pa n v).Canon :=
  memOk_asyncStore _ _ _ _ _ _ _ h

theorem State.Canon.asyncBlock {s : State} {c k pa : Nat} {d : BitVec 512} {t : BitVec 16} (h : s.Canon) :
    (s.asyncBlock c k pa d t).Canon := memOk_asyncBlock _ _ _ _ _ _ h

theorem State.Canon.commandStore {s : State} {n k : Nat} {va : W64} {pa len v : Nat} (h : s.Canon) :
    (s.commandStore n k va pa len v).Canon :=
  h.asyncStore

theorem State.Canon.commandBlock {s : State} {n k : Nat} {va : W64} {pa : Nat} {d : BitVec 512} {t : BitVec 16} (h : s.Canon) :
    (s.commandBlock n k va pa d t).Canon :=
  h.asyncBlock

theorem State.Canon.acquire {s : State} {n t : Nat} (h : s.Canon) : (s.acquire n t).Canon := memOk_acquire _ _ _ h

theorem State.Canon.coreStore {s : State} {n pa k v : Nat} (h : s.Canon) : (s.coreStore n pa k v).Canon := memOk_coreStore _ _ _ _ _ h

theorem State.Canon.commit {s : State} {n : Nat} {places : List Nat} {put : State → Nat → State} (h : s.Canon)
    (hput : ∀ s0 a1, s0.Canon → (put s0 a1).Canon) :
    (s.commit n places put).Canon :=
  State.Canon.upd (h.foldl fun _ _ h' => hput _ _ h')

theorem State.Canon.meetRelease {s : State} {n pa k : Nat} (h : s.Canon) : (s.meetRelease n pa k).Canon := by
  unfold State.meetRelease
  refine h.foldl fun s x h' => ?_
  split
  · exact h'.acquire
  · exact h'

theorem State.Canon.takeCopy {s : State} {n k : Nat} {v : Copy} (h : s.Canon) : (s.takeCopy n k v).Canon := by
  unfold State.takeCopy
  split
  · exact h.upd
  · exact h.draw.upd

theorem State.Canon.homeLoad {s : State} {n pa k : Nat} (h : s.Canon) : (s.homeLoad n pa k).2.Canon :=
  h.meetRelease.readTime.takeCopy

theorem State.Canon.setEntry {s : State} {tu ctx page : Nat} {e : W64} (h : s.Canon) : (s.setEntry tu ctx page e).Canon :=
  h

theorem State.Canon.markStore {s : State} {x p clk : Nat} (h : s.Canon) : (s.markStore x p clk).1.Canon :=
  h

theorem State.Canon.readMark {s : State} {n x : Nat} {va : W64} {line : Nat} (h : s.Canon) : (s.readMark n x va line).Canon := by
  unfold State.readMark
  split
  · exact h
  · exact h.readTime.upd

theorem State.Canon.postFault {s : State} {f : PageFault} (h : s.Canon) : (s.postFault f).Canon := by
  unfold State.postFault
  dsimp only
  split <;> exact h

theorem State.Canon.bundleFault {s : State} {n ctx : Nat} {va : W64} {kind need : Nat} {write : Bool} (h : s.Canon) :
    (s.bundleFault n ctx va kind need write).Canon := by
  unfold State.bundleFault
  split
  · exact h
  · exact h.postFault.upd

theorem State.Canon.logEntry {s : State} {e : LogEntry} (h : s.Canon) : (s.logEntry e).Canon := by
  unfold State.logEntry
  dsimp only
  split <;> exact h

theorem State.Canon.logError {s : State} {kind ctx src aux : Nat} {addr : W64} (h : s.Canon) : (s.logError kind ctx src aux addr).Canon :=
  h.logEntry

theorem State.Canon.logLost {s : State} {ctx src blk : Nat} {addr : W64} (h : s.Canon) : (s.logLost ctx src blk addr).Canon :=
  h.logEntry

theorem State.Canon.logCorrected {s : State} {ctx src blk : Nat} {addr : W64} (h : s.Canon) : (s.logCorrected ctx src blk addr).Canon := by
  unfold State.logCorrected
  dsimp only
  split
  · exact h
  · exact h.logEntry

end Sys2Proof.Machine
end

section
/-! The canonical form is kept by the barrier units. -/

namespace Sys2Proof.Machine

theorem State.Canon.barSettle {s : State} {o : BarOut} (h : s.Canon) : (s.barSettle o).Canon :=
  h.foldl fun _ _ h => h.upd

theorem State.Canon.setBar {s : State} {b : BarName} {v : Barrier} (h : s.Canon) : (s.setBar b v).Canon := by
  unfold State.setBar
  split <;> exact h

theorem State.Canon.meetAt {s : State} {cores : List Nat} (h : s.Canon) : (s.meetAt cores).Canon :=
  h.foldl fun _ _ h => h.upd

theorem State.Canon.barDo {s : State} {b : BarName} {o : BarOut} (h : s.Canon) : (s.barDo b o).Canon := by
  unfold State.barDo
  dsimp only
  split
  · exact h.setBar.barSettle.meetAt
  · exact h.setBar.barSettle

theorem State.Canon.breakBarriers {s : State} {n : Nat} (h : s.Canon) : (s.breakBarriers n).Canon := by
  unfold State.breakBarriers
  refine h.foldl fun s x h' => ?_
  split
  · exact h'.barDo
  · exact h'

theorem State.Canon.leaveBarriers {s : State} {n : Nat} (h : s.Canon) : (s.leaveBarriers n).Canon := by
  unfold State.leaveBarriers
  refine h.foldl fun s x h' => ?_
  split
  · exact h'.barDo
  · exact h'

theorem State.Canon.voidRun {s : State} {n : Nat} (h : s.Canon) : (s.voidRun n).Canon := by
  unfold State.voidRun
  dsimp only
  split
  · exact h
  · exact State.Canon.upd h

theorem State.Canon.withdraw {s : State} {n : Nat} (h : s.Canon) : (s.withdraw n).Canon := by
  unfold State.withdraw
  exact h

end Sys2Proof.Machine
end

section
/-! The canonical form is kept by freezes, traps, aborts and the completion of a command. -/

namespace Sys2Proof.Machine

theorem State.Canon.freezePart {s : State} {x q : Nat} (h : s.Canon) : (s.freezePart x q).Canon := by
  unfold State.freezePart
  split
  · exact h.updCtx.foldl fun _ _ h => h.withdraw.upd
  · exact h.foldl fun _ _ h => h.withdraw.upd
  · exact h

theorem State.Canon.faultCtx {s : State} {x : Nat} (h : s.Canon) : (s.faultCtx x).Canon := by
  unfold State.faultCtx
  dsimp only
  split
  · exact h.setCtx.foldl fun _ _ h => h.freezePart
  · exact h

theorem State.Canon.haltReports {s : State} {n : Nat} (h : s.Canon) : (s.haltReports n).Canon := by
  unfold State.haltReports
  split
  · exact h
  · exact h.faultCtx

theorem State.Canon.hears {s : State} {va : W64} {src : Nat} (h : s.Canon) : (s.hears va src).Canon :=
  h

theorem State.Canon.abortFrom {s : State} {n src : Nat} {va : W64} (h : s.Canon) : (s.abortFrom n src va).Canon := by
  unfold State.abortFrom
  dsimp only
  split
  · exact h.hears.withdraw.voidRun.upd
  · split
    · exact h.hears.withdraw.voidRun.upd.foldl fun _ _ h => h.withdraw.voidRun.upd
    · exact State.Canon.setKernel (h.hears.withdraw.voidRun.upd.foldl fun _ _ h => h.withdraw.voidRun.upd)

theorem State.Canon.abortBy {s : State} {n : Nat} {va : W64} (h : s.Canon) : (s.abortBy n va).Canon :=
  h.abortFrom

theorem State.Canon.doubleTrap {s : State} {n cause : Nat} (h : s.Canon) : (s.doubleTrap n cause).Canon :=
  h.upd.withdraw.breakBarriers.faultCtx

theorem State.Canon.takeTrap {s : State} {n cause : Nat} {val addr ret : W64} {lbix : Option Nat} {imp : Bool} (h : s.Canon) :
    (s.takeTrap n cause val addr ret lbix imp).Canon := by
  unfold State.takeTrap
  split
  · exact h.doubleTrap
  · exact h.upd

theorem State.Canon.preciseTrap {s : State} {n cause : Nat} {val addr : W64} (h : s.Canon) : (s.preciseTrap n cause val addr).Canon :=
  h.takeTrap

theorem State.Canon.freeCommand {s : State} {n k : Nat} (h : s.Canon) : (s.freeCommand n k).Canon := by
  unfold State.freeCommand
  split
  · exact h
  · exact State.Canon.upd h

theorem State.Canon.takeReport {s : State} {n : Nat} (h : s.Canon) : (s.takeReport n).Canon := by
  unfold State.takeReport
  split
  · exact h
  · dsimp only
    split
    · exact h.doubleTrap
    · exact h.freeCommand.upd.takeTrap

theorem State.Canon.report {s : State} {n entry cause : Nat} {addr : W64} (h : s.Canon) : (s.report n entry cause addr).Canon := by
  unfold State.report
  dsimp only
  split
  · exact h.upd.faultCtx
  · exact h.upd

theorem Issue.Canon.upd {i : Issue} {f : Core → Core} (h : i.Canon) : (i.upd f).Canon :=
  h.withS h.state.upd

theorem Issue.Canon.after {i : Issue} {f : State → State} (h : i.Canon) (hf : Keeps f) : (i.after f).Canon :=
  ⟨h.state, fun _ h' => hf _ (h.post _ h'), h.reserve⟩

theorem Issue.Canon.afterCore {i : Issue} {f : Core → Core} (h : i.Canon) : (i.afterCore f).Canon :=
  h.after (fun _ h => h.upd)

theorem Issue.Canon.result {i : Issue} {file : RegFile} {reg : Nat} {value : Vec} {lat : Nat} (h : i.Canon) :
    (i.result file reg value lat).Canon :=
  h.upd

theorem Issue.Canon.resultG {i : Issue} {reg : Nat} {value : W64} {lat : Nat} (h : i.Canon) : (i.resultG reg value lat).Canon :=
  h.result

theorem Issue.Canon.increment {i : Issue} {a : Nat} (h : i.Canon) : (i.increment a).Canon :=
  h

theorem State.Canon.allocate {s : State} {n place : Nat} {e : IfrEntry} (h : s.Canon) : (s.allocate n place e).Canon :=
  h

theorem Issue.Canon.command {i : Issue} {e : IfrEntry} (h : i.Canon) : Ends Issue.Canon (i.command e) := by
  unfold Issue.command
  split
  · trivial
  · exact h

end Sys2Proof.Machine
end

section
/-! The canonical form is kept by posted faults, the logs and the fields of the units. -/

namespace Sys2Proof.Machine

theorem State.Canon.postHeld {n : Nat} : ∀ {s : State}, s.Canon → (State.postHeld n s).Canon := by
  induction n with
  | zero => exact fun h => h
  | succ n ih =>
    intro s h
    unfold State.postHeld
    split
    · exact h
    · split
      · exact ih (State.Canon.postFault h)
      · exact h

theorem opened_setFbufGet : Opened (fun f => ∀ s v, s.Canon → (f s v).Canon) State.setFbufGet := by
  delta State.setFbufGet
  refine ⟨fun s v h => ?_⟩
  generalize newGet s.fbuf.put 1024 v = g
  cases g with
  | none => exact h
  | some g => exact State.Canon.postHeld h

theorem State.Canon.setFbufGet {s : State} {v : Nat} (h : s.Canon) : (s.setFbufGet v).Canon :=
  opened_setFbufGet.out s v h

theorem opened_setLogGet : Opened (fun f => ∀ s v, s.Canon → (f s v).Canon) State.setLogGet := by
  delta State.setLogGet
  refine ⟨fun s v h => ?_⟩
  generalize newGet s.log.put 4096 v = g
  cases g <;> exact h

theorem State.Canon.setLogGet {s : State} {v : Nat} (h : s.Canon) : (s.setLogGet v).Canon := opened_setLogGet.out s v h

theorem State.Canon.corruption {s : State} {n t : Nat} (h : s.Canon) : (s.corruption n t).Canon :=
  h.logError

theorem State.Canon.setPort {s : State} {p : Nat} {v : Port} (h : s.Canon) : (s.setPort p v).Canon :=
  h

theorem State.Canon.setTree {s : State} {k : Nat} {v : Tree} (h : s.Canon) : (s.setTree k v).Canon :=
  h

theorem State.Canon.freeTree {s : State} {k : Nat} (h : s.Canon) : (s.freeTree k).Canon := by
  unfold State.freeTree
  dsimp only
  split
  · exact h.setTree
  · exact h

theorem State.Canon.endTrees {s : State} {p : Nat} (h : s.Canon) : (s.endTrees p).Canon :=
  h

theorem State.Canon.portEnable {s : State} {p : Nat} (h : s.Canon) : (s.portEnable p).Canon := by
  unfold State.portEnable
  dsimp only
  split <;> exact h.setPort

theorem State.Canon.portDown {s : State} {p : Nat} (h : s.Canon) : (s.portDown p).Canon := by
  unfold State.portDown
  refine State.Canon.setPort ?_
  split
  · exact h.endTrees
  · exact h

theorem State.Canon.portDisable {s : State} {p : Nat} (h : s.Canon) : (s.portDisable p).Canon :=
  h.portDown.setPort

theorem State.Canon.portRetrain {s : State} {p : Nat} (h : s.Canon) : (s.portRetrain p).Canon := by
  unfold State.portRetrain
  dsimp only
  split
  · exact h.endTrees.setPort
  · exact h

theorem State.Canon.queueFlit {s : State} {p : Nat} {f : Flit} (h : s.Canon) : (s.queueFlit p f).Canon := by
  unfold State.queueFlit
  dsimp only
  split
  · exact h.setPort
  · exact h

theorem State.Canon.sendControl {s : State} {p : Nat} {m : Control} {num : Nat} (h : s.Canon) : (s.sendControl p m num).Canon :=
  h.queueFlit

theorem State.Canon.tellTree {s : State} {t : Tree} {k : Nat} {m : Control} (h : s.Canon) : (s.tellTree t k m).Canon := by
  unfold State.tellTree
  refine h.foldl fun s x h' => ?_
  split
  · exact h'.sendControl
  · exact h'

theorem State.Canon.moveServices {s : State} {w lo hi v : Nat} (h : s.Canon) : (s.moveServices w lo hi v).Canon :=
  h

theorem State.Canon.devRead {s : State} {c : Nat} {d : DevPage} {off n : Nat} (h : s.Canon) : (s.devRead c d off n).2.Canon := by
  unfold State.devRead
  dsimp only
  split
  · exact h.acquire.setPort
  · exact h.acquire

theorem State.Canon.devWrite {s : State} {d : DevPage} {off n v : Nat} (h : s.Canon) : (s.devWrite d off n v).Canon := by
  unfold State.devWrite
  dsimp only
  split
  · split
    · exact h.setFbufGet
    · exact h
  · split
    · exact h.setLogGet
    · split <;> exact h
  · split
    · split
      · refine State.Canon.portRetrain ?_
        split
        · exact h.portEnable
        · exact h.portDisable
      · split
        · exact h.portEnable
        · exact h.portDisable
    · exact h
  · exact h.moveServices

end Sys2Proof.Machine
end

section
/-! The canonical form is kept by guards, operand forms, results and the accesses of a bundle. -/

namespace Sys2Proof.Machine

theorem opCanon_guarded {g : Guard} {inc : Option Nat} {op : Op} (hop : OpCanon op) : OpCanon (guarded g inc op) := by
  intro i h
  have step : ∀ j : Issue, j.Canon → Ends Issue.Canon (if j.pre.guardOk g then op j else .ok j) := by
    intro j hj
    split
    · exact hop j hj
    · exact hj
  cases inc with
  | none => exact step i h
  | some a => exact step _ h.increment

theorem State.Canon.dutyCount {s : State} {n : Nat} (h : s.Canon) : (s.dutyCount n).Canon :=
  h

theorem opCanon_guardedM {g : Guard} {op : Op} (hop : OpCanon op) : OpCanon (guardedM g op) := by
  refine opCanon_guarded fun i h => ?_
  split
  · exact Ends.wait
  · exact (hop i h).bind fun _ hj => hj.after fun _ hs => hs.dutyCount

theorem opCanon_awaiting {op : Op} (hop : OpCanon op) : OpCanon (awaiting op) := by
  intro i h
  unfold Machine.awaiting
  split
  · exact Ends.wait
  · exact hop i h

theorem Issue.Canon.perform {i : Issue} {op : Op} {s : State} (h : i.Canon) (hop : OpCanon op) (hs : s.Canon) : (i.perform op s).Canon :=
  by
  have hi : Issue.Canon { i with s := s, post := id } := ⟨hs, fun _ h => h, h.reserve⟩
  unfold Issue.perform
  split
  · exact hs
  · rename_i j hj
    have hj : j.Canon := (hop _ hi).ok_of hj
    exact hj.post _ hj.state

theorem Issue.Canon.withAnswer {i : Issue} {op : Op} {w : W64} (h : i.Canon) (hop : OpCanon op) : Ends Issue.Canon (i.withAnswer op w) :=
  (hop i h).bind fun _ hj => ⟨State.Canon.upd h.state, h.post, hj.reserve⟩

theorem opCanon_unrecorded {op : Op} (hop : OpCanon op) : OpCanon (unrecorded op) := fun i h =>
  Ends.bind (hop { i with pre := { i.pre with slow := 0 } } h) fun _ hj => hj

theorem opCanon_asking {op : Op} (hop : OpCanon op) : OpCanon (asking op) := by
  intro i h
  unfold Machine.asking
  split
  · exact h.withAnswer hop
  · split
    · split
      · rename_i he
        exact (hop i h).error_of he
      · exact fun _ hs => h.perform hop hs
    · exact hop i h

theorem Ends.readReg {i : Issue} {f : RegFile} {r : Nat} : Ends (fun _ => True) (i.readReg f r) := by
  unfold Issue.readReg
  split <;> try exact trivial
  split <;> trivial

theorem Issue.Canon.source {i : Issue} {pos : Nat} {k : Src} {f : RegFile} {r : Nat} (h : i.Canon) :
    Ends (fun p => p.2.Canon) (i.source pos k f r) := by
  unfold Issue.source
  split
  · exact Ends.readReg.bind fun _ _ => h
  · exact Ends.readReg.bind fun _ _ => h.upd
  · dsimp only
    split
    · exact h
    · exact h.upd
  · dsimp only
    split
    · exact h
    · exact h.upd

theorem Issue.Canon.rrSources {i : Issue} {o : RR} {f1 f2 : RegFile} (h : i.Canon) : Ends (fun p => p.2.2.Canon) (i.rrSources o f1 f2) :=
  h.source.bind fun ⟨_, _⟩ h1 => h1.source.bind fun ⟨_, _⟩ h2 => h2

theorem Issue.Canon.rrG {i : Issue} {o : RR} (h : i.Canon) : Ends (fun p => p.2.2.Canon) (i.rrG o) :=
  h.rrSources.bind fun ⟨_, _, _⟩ h' => h'

theorem Issue.Canon.rrG1 {i : Issue} {o : RR} (h : i.Canon) : Ends (fun p => p.2.Canon) (i.rrG1 o) :=
  h.source.bind fun ⟨_, _⟩ h' => h'

theorem Issue.Canon.rrG2 {i : Issue} {o : RR} (h : i.Canon) : Ends (fun p => p.2.Canon) (i.rrG2 o) :=
  h.source.bind fun ⟨_, _⟩ h' => h'

theorem Ends.destV {i : Issue} {d : Nat} {dnil : Bool} : Ends (fun _ => True) (i.destV d dnil) := by
  unfold Issue.destV
  split
  · trivial
  · split <;> trivial

theorem Ends.examine {i : Issue} {va : W64} {size need : Nat} {write sUnit : Bool} :
    Ends (fun _ => True) (i.examine va size need write sUnit) := by
  unfold Issue.examine
  dsimp only
  split
  · trivial
  · split <;> try exact trivial
    · exact fun _ h => h.bundleFault
    · split
      · trivial
      · split
        · exact Ends.wait
        · split
          · exact Ends.wait
          · split
            · exact fun _ h => h.upd
            · trivial

theorem Ends.readPlace {i : Issue} {va : W64} {pa need : Nat} {s : State} : Ends (fun _ => True) (i.readPlace va pa need s) := by
  unfold Issue.readPlace
  dsimp only
  generalize kvSays (s.ctx i.ctxNo) (s.grpOf i.n) false va = k
  generalize translate _ _ _ _ _ = x
  cases k with
  | perform => trivial
  | refuse => trivial
  | wait => exact Ends.wait
  | proxy => cases x with
    | absent k => exact fun _ h => h.bundleFault
    | _ => trivial

theorem Ends.sent {i : Issue} {e : IfrEntry} : Ends (fun _ => True) (i.sent e) := by
  unfold Issue.sent
  split
  · split
    · trivial
    · exact Ends.wait
  · split
    · exact fun _ h => h.allocate
    · trivial

theorem Ends.lineHere {i : Issue} : Ends (fun _ => True) (i.lineHere) := by
  unfold Issue.lineHere
  split
  · exact Ends.wait
  · trivial

theorem Issue.Canon.tryCopy {i : Issue} {p : Nat} (h : i.Canon) : (i.tryCopy p).2.Canon := by
  unfold Issue.tryCopy
  split
  · exact h.withS h.state.choose
  · exact h

theorem Issue.Canon.readHome {i : Issue} {va : W64} {p size need : Nat} (h : i.Canon) :
    Ends (fun p => p.2.Canon) (i.readHome va p size need) :=
  Ends.sent.bind fun _ _ => h.withS h.state.homeLoad.readMark

theorem Issue.Canon.readAt {i : Issue} {va : W64} {pa size need : Nat} (h : i.Canon) :
    Ends (fun p => p.2.Canon) (i.readAt va pa size need) := by
  unfold Issue.readAt
  split
  · rename_i he
    exact h.tryCopy.snd_of he
  · rename_i he'
    exact Ends.readPlace.bind fun _ _ => (h.tryCopy.snd_of he').readHome

theorem Issue.Canon.loadAt {i : Issue} {va : W64} {pa size need : Nat} (h : i.Canon) :
    Ends (fun p => p.2.Canon) (i.loadAt va pa size need) := by
  unfold Issue.loadAt
  dsimp only
  split
  · exact h
  · refine h.readAt.bind fun ⟨⟨_, _⟩, _⟩ h' => ?_
    split
    · trivial
    · exact h'

theorem Issue.Canon.tagAt {i : Issue} {va : W64} {pa need : Nat} (h : i.Canon) : Ends (fun p => p.2.Canon) (i.tagAt va pa need) := by
  unfold Issue.tagAt
  split
  · exact h
  · exact h.readAt.bind fun ⟨⟨_, _⟩, _⟩ h' => h'

theorem Issue.Canon.commitLine {i : Issue} {va : W64} {pa : Nat} {primary : State → State} {put : State → Nat → State} (h : i.Canon)
    (hprimary : Keeps primary) (hput : ∀ s0 a1, s0.Canon → (put s0 a1).Canon) :
    Ends Issue.Canon (i.commitLine va pa primary put) := by
  unfold Issue.commitLine
  dsimp only
  split
  · exact Issue.Canon.withS h (hprimary _ h.state)
  · split
    · split
      · exact Issue.Canon.withS h (h.state.commit (fun _ _ h1 => hput _ _ h1))
      · exact Ends.wait
    · intro s h2
      dsimp only
      split <;> exact h2

theorem Issue.Canon.storeAt {i : Issue} {va : W64} {pa size v : Nat} {repl : Bool} (h : i.Canon) :
    Ends Issue.Canon (i.storeAt va pa size v repl) := by
  unfold Issue.storeAt
  split
  · trivial
  · dsimp only
    split
    · exact h.commitLine (fun _ h => h.coreStore) (fun _ _ h => h.put)
    · exact h.withS h.state.coreStore

theorem Ends.notReady {i : Issue} {t : Nat} : Ends Issue.Canon (i.notReady t) := by
  unfold Issue.notReady
  split
  · trivial
  · exact Ends.wait

theorem Issue.Canon.spadRead {i : Issue} {owner off n : Nat} (h : i.Canon) : (i.spadRead owner off n).2.Canon :=
  h.withS h.state.readTime

theorem Issue.Canon.spadWrite {i : Issue} {owner off n v : Nat} (h : i.Canon) : (i.spadWrite owner off n v).Canon :=
  h.withS h.state.coreWriteTime.upd

end Sys2Proof.Machine
end

section
/-! The canonical form is kept by the issue of a bundle: what its slots leave, what holds it and what ends it. -/

namespace Sys2Proof.Machine

theorem Keeps.allNotes {l : List (Nat × (State → State))} (hl : ∀ e ∈ l, Keeps e.2) : Keeps (allNotes l) := by
  intro s h
  refine h.foldl_mem fun e he s hs => ?_
  obtain ⟨k, -, hk⟩ := List.mem_flatMap.1 he
  exact hl e (List.mem_filter.1 hk).1 s hs

/-- What running the slots gives has the form: the state of an issued bundle, what a held one asks for, the stop of an ended one. -/
def Ran.Canon : Ran → Prop
  | .issued i => i.Canon
  | .held note => Keeps note
  | .stop _ _ e => e.Canon

/-- The operations that the slots were decoded to keep the form. -/
def SlotsCanon (l : List (UnitId × Slot)) : Prop := ∀ u ∈ l, IfSome OpCanon u.2.dec

theorem Ran.Canon.issued_of {r : Ran} {i : Issue} (e : r = .issued i) (h : r.Canon) : i.Canon := by subst e; exact h
theorem Ran.Canon.held_of {r : Ran} {f : State → State} (e : r = .held f) (h : r.Canon) : Keeps f := by subst e; exact h
theorem Ran.Canon.stop_of {r : Ran} {k : Nat} {w : W32} {x : Stop} (e : r = .stop k w x) (h : r.Canon) : x.Canon := by subst e; exact h

theorem Ran.Canon.runSlots {l : List (UnitId × Slot)} (hl : SlotsCanon l) {i : Issue} {w : List (Nat × (State → State))} (h : i.Canon)
    (hw : ∀ e ∈ w, Keeps e.2) : (runSlots l i w).Canon := by
  induction l generalizing w i with
  | nil =>
    cases w with
    | nil => exact h
    | cons e w => exact fun s hs => Keeps.allNotes hw _ (h.reserve s hs)
  | cons u t ih =>
    obtain ⟨u, s⟩ := u
    have ht : SlotsCanon t := fun v hv => hl v (List.mem_cons_of_mem _ hv)
    have hs : IfSome OpCanon s.dec := hl (u, s) List.mem_cons_self
    unfold Machine.runSlots
    cases hd : s.dec with
    | none => exact ih ht h hw
    | some op =>
      have hop := hs.some_of hd { i with unit := u, slot := s.idx, word := s.word } h
      dsimp only
      generalize op { i with unit := u, slot := s.idx, word := s.word } = r at hop
      match r, hop with
      | .ok i', hop => exact ih ht hop hw
      | .error (.freeze f), hop =>
        exact ih ht h fun e he => (List.mem_append.1 he).elim (hw e) fun he => List.mem_singleton.1 he ▸ hop
      | .error (.trap _ _), _ | .error (.stuck _), _ | .error (.abort _), _ | .error (.fault _), _ => trivial

theorem State.Canon.endRequests {s : State} {n : Nat} (h : s.Canon) : (s.endRequests n).Canon := by
  unfold State.endRequests
  split
  · exact h
  · exact h.upd

theorem State.Canon.abandon {s : State} {n : Nat} (h : s.Canon) : (s.abandon n).Canon :=
  h.endRequests.withdraw

theorem State.Canon.startOne {s : State} {n : Nat} {e : IfrEntry} (h : s.Canon) : (s.startOne n e).Canon := by
  unfold State.startOne
  dsimp only
  split
  · exact h.same rfl rfl
  · exact h.allocate

theorem State.Canon.startAll {s : State} {n : Nat} {l : List (Nat × IfrEntry)} (h : s.Canon) : (startAll s n l).Canon :=
  h.foldl fun _ _ h => h.startOne

theorem Issue.Canon.finish {i : Issue} {quiet : Bool} (h : i.Canon) : (i.finish quiet).Canon := by
  unfold Issue.finish
  dsimp only
  split
  · exact State.Canon.startAll (State.Canon.endRequests (State.Canon.upd (h.post _ h.state.setCore)))
  · exact State.Canon.takeTrap (State.Canon.startAll (State.Canon.endRequests (State.Canon.upd (h.post _ h.state.setCore))))

theorem State.Canon.spendCycle {s : State} {n : Nat} (h : s.Canon) : (s.spendCycle n).Canon :=
  h

theorem State.Canon.freezeBundle {s : State} {n : Nat} (h : s.Canon) : (s.freezeBundle n).Canon :=
  h

theorem Steps.issueBundle {n : Nat} {b : Bundle} {s : State} (hb : SlotsCanon b.units) (h : s.Canon) : Steps (issueBundle n b s) := by
  have hbefore := h.spendCycle (n := n)
  have hran : ∀ i : Issue, i.Canon → (runSlots b.units i []).Canon := fun i hi => Ran.Canon.runSlots hb hi fun _ he => nomatch he
  have hid : Keeps id := fun _ h => h
  unfold Machine.issueBundle
  dsimp only
  split
  · exact hbefore.abandon.preciseTrap
  · split
    · exact hbefore.preciseTrap
    · split
      next hr => exact (Ran.Canon.issued_of hr (hran _ ⟨hbefore.upd, hid, hid⟩)).finish
      next hr => exact Ran.Canon.held_of hr (hran _ ⟨hbefore.upd, hid, hid⟩) _ hbefore.freezeBundle
      next hr =>
        split
        · exact hbefore.abandon.preciseTrap
        · split
          · exact hbefore.abandon.takeReport
          · exact hbefore.abandon.preciseTrap
        · exact hbefore.abortBy
        · trivial
        · exact Ran.Canon.stop_of hr (hran _ ⟨hbefore.upd, hid, hid⟩) _ hbefore.freezeBundle

theorem State.Canon.boundary {n : Nat} {k : State → Result} {s : State} (hk : ∀ s0, s0.Canon → Steps (k s0)) (hs : s.Canon) :
    Steps (boundary n k s) := by
  unfold Machine.boundary
  dsimp only
  split
  · trivial
  · split
    · exact hs.spendCycle.takeReport
    · exact hk _ hs

theorem Bundle.mem_slots_of_units {b : Bundle} {u : UnitId × Slot} (h : u ∈ b.units) : u.2 ∈ b.slots := by
  have hclass (k : Nat) {x : Slot} (hx : x ∈ b.ofClass k) : x ∈ b.slots := (List.mem_filter.1 hx).1
  have hone (k : Nat) (v : UnitId) {w : UnitId × Slot} (hw : w ∈ ((b.ofClass k).take 1).map (fun x => (v, x))) : w.2 ∈ b.slots := by
    obtain ⟨x, hx, rfl⟩ := List.mem_map.1 hw
    exact hclass k (List.mem_of_mem_take hx)
  have htwo (k : Nat) (v v' : UnitId) {w : UnitId × Slot}
      (hw : w ∈ (match b.ofClass k with | [] => [] | [x] => [(v, x)] | x :: y :: _ => [(v, x), (v', y)])) : w.2 ∈ b.slots := by
    have hk (x : Slot) (hx : x ∈ b.ofClass k) := hclass k hx
    generalize b.ofClass k = l at hw hk
    match l, hw with
    | [x], hw => exact hk _ (by simp_all)
    | x :: y :: _, hw => rcases (by simpa using hw : w = (v, x) ∨ w = (v', y)) with rfl | rfl <;> exact hk _ (by simp)
  have hall := (List.mem_append.1 h).elim (fun h => (List.mem_filter.1 h).1) fun h => (List.mem_filter.1 h).1
  simp only [List.mem_append] at hall
  rcases hall with ((hs | hv) | hm) | hx
  · exact hone _ _ hs
  · exact htwo _ _ _ hv
  · exact hone _ _ hm
  · exact htwo _ _ _ hx

/-- The bundle of an operation alone: an empty slot before it at most, and the operation where it is legal. -/
theorem SlotsCanon.soloBundle {i : SlotInstr} {op : Op} (h : OpCanon op) : SlotsCanon (soloBundle i op).units := by
  intro u hu
  have hslot : ∀ x ∈ (Machine.soloBundle i op).slots, IfSome OpCanon x.dec := by
    intro x hx
    simp only [Machine.soloBundle, List.mem_append, List.mem_ite_nil_right, List.mem_singleton] at hx
    rcases hx with ⟨-, rfl⟩ | rfl
    · exact fun _ hi => hi
    · dsimp only
      split
      · exact h
      · trivial
  exact hslot _ (Bundle.mem_slots_of_units hu)

theorem Steps.issueSolo {i : SlotInstr} {op : Op} {s : State} (hop : OpCanon op) (h : s.Canon) : Steps (issueSolo i op s) :=
  State.Canon.boundary (fun _ hs => Steps.issueBundle (SlotsCanon.soloBundle hop) hs) h

end Sys2Proof.Machine
end

section
/-! The canonical form is kept by the scalar forms. -/

namespace Sys2Proof.Machine

theorem Issue.Canon.toG {i : Issue} {o : RR} {v : W64} {lat : Nat} (h : i.Canon) : (i.toG o v lat).Canon :=
  h.result

theorem Issue.Canon.alu {i : Issue} {o : RR} {lat : Nat} {f : W64 → W64 → W64} (h : i.Canon) : Ends Issue.Canon (i.alu o lat f) :=
  h.rrG.bind fun ⟨_, _, _⟩ h' => h'.toG

theorem Issue.Canon.alu1 {i : Issue} {o : RR} {lat : Nat} {f : W64 → W64} (h : i.Canon) : Ends Issue.Canon (i.alu1 o lat f) :=
  h.rrG1.bind fun ⟨_, _⟩ h' => h'.toG

theorem Issue.Canon.aluImm {i : Issue} {o : RI} {f : W64 → W64} (h : i.Canon) : Ends Issue.Canon (i.aluImm o f) :=
  h.source.bind fun ⟨_, _⟩ h' => h'.resultG

theorem Issue.Canon.cmp {i : Issue} {o : RR} {k : Cond} (h : i.Canon) : Ends Issue.Canon (i.cmp o k) :=
  h.rrG.bind fun ⟨_, _, _⟩ h' => h'.result

theorem Issue.Canon.predOp {i : Issue} {o : RR} {f : Bool → Bool → Bool} (h : i.Canon) : (i.predOp o f).Canon :=
  h.result

theorem Issue.Canon.toA {i : Issue} {o : RR} {v : W64} (h : i.Canon) : (i.toA o v).Canon :=
  h.result

end Sys2Proof.Machine
end

section
/-! The canonical form is kept by scalar loads and stores. -/

namespace Sys2Proof.Machine

theorem Issue.Canon.scalarLoad {i : Issue} {o : MEM} {size : Nat} {ext : Nat → W64} (h : i.Canon) :
    Ends Issue.Canon (i.scalarLoad o size ext) := by
  unfold Issue.scalarLoad
  refine Ends.examine.bind fun _ _ => ?_
  split
  · exact h.loadAt.bind fun ⟨_, _⟩ h' => h'.resultG
  · exact (h.withS h.state.devRead).resultG

theorem Issue.Canon.scalarStore {i : Issue} {o : MEM} {size : Nat} (h : i.Canon) : Ends Issue.Canon (i.scalarStore o size) := by
  unfold Issue.scalarStore
  refine Ends.examine.bind fun _ _ => ?_
  split
  · exact Ends.lineHere.bind fun _ _ => h.storeAt
  · exact h.withS h.state.devWrite

end Sys2Proof.Machine
end

section
/-! The canonical form is kept by the vector forms. -/

namespace Sys2Proof.Machine

theorem Issue.Canon.toV {i : Issue} {d : Nat} {dnil : Bool} {x : Vec} {lat : Nat} (h : i.Canon) : Ends Issue.Canon (i.toV d dnil x lat) :=
  Ends.destV.bind fun ⟨_, _⟩ _ => h.result

theorem Ends.kept {i : Issue} {d : Nat} {dnil : Bool} : Ends (fun _ => True) (i.kept d dnil) := by
  unfold Issue.kept
  split
  · trivial
  · exact Ends.readReg

theorem Issue.Canon.v1 {i : Issue} {o : RR} (h : i.Canon) : Ends (fun p => p.2.Canon) (i.v1 o) :=
  h.source

theorem Issue.Canon.words {i : Issue} {n : Nat} (h : i.Canon) : (i.words n).2.Canon :=
  h.upd

theorem Issue.Canon.roundWords {i : Issue} {rm : RMode} {n : Nat} (h : i.Canon) : (i.roundWords rm n).2.Canon := by
  unfold Issue.roundWords
  split
  · exact h.words
  · exact h

theorem Issue.Canon.vec2 {i : Issue} {o : RR} {rm : RMode} {w lat : Nat} {f : Nat → Nat → Nat → Nat} (h : i.Canon) :
    Ends Issue.Canon (i.vec2 o rm w lat f) :=
  h.rrSources.bind fun ⟨_, _, _⟩ h' => h'.roundWords.toV

theorem Issue.Canon.vec1 {i : Issue} {o : RR} {rm : RMode} {w lat : Nat} {f : Nat → Nat → Nat} (h : i.Canon) :
    Ends Issue.Canon (i.vec1 o rm w lat f) :=
  h.v1.bind fun ⟨_, _⟩ h' => h'.roundWords.toV

theorem Issue.Canon.vecSum {i : Issue} {o : RR} {rm : RMode} {f : Fmt} {g : FVal → FVal → Sum} (h : i.Canon) :
    Ends Issue.Canon (i.vecSum o rm f g) :=
  h.vec2

theorem Issue.Canon.vecFma {i : Issue} {o : RR} {rm : RMode} {f : Fmt} {g : FVal → FVal → FVal → Sum} (h : i.Canon) :
    Ends Issue.Canon (i.vecFma o rm f g) :=
  Ends.readReg.bind fun _ _ => h.rrSources.bind fun ⟨_, _, _⟩ h' => h'.roundWords.toV

theorem Issue.Canon.cvt {i : Issue} {o : CV} {src dst : CFmt} {rm : RMode} (h : i.Canon) : Ends Issue.Canon (i.cvt o src dst rm) := by
  unfold Issue.cvt
  dsimp only
  split
  · exact Ends.kept.bind fun _ _ => h.source.bind fun ⟨_, _⟩ h1 => h1.roundWords.toV
  · exact Ends.bind (Q := fun _ => True) trivial fun _ _ => h.source.bind fun ⟨_, _⟩ h2 => h2.roundWords.toV

theorem Issue.Canon.reduce {i : Issue} {o : RR} {rm : RMode} {w ident : Nat} {f : List Nat → Nat → List Nat} (h : i.Canon) :
    Ends Issue.Canon (i.reduce o rm w ident f) :=
  h.v1.bind fun ⟨_, _⟩ h' => h'.roundWords.toV

end Sys2Proof.Machine
end

section
/-! The canonical form is kept by the weight buffer. -/

namespace Sys2Proof.Machine

theorem Ends.pushRow {c : Core} {off : Nat} : Ends (fun _ => True) (pushRow c off) := by
  refine Ends.of_ite trivial ?_
  generalize List.find? _ _ = r
  cases r with
  | some k => trivial
  | none =>
    dsimp only
    generalize List.find? _ _ = r
    cases r <;> trivial

end Sys2Proof.Machine
end

section
/-! The canonical form is kept by the matrix operations. -/

namespace Sys2Proof.Machine

theorem Issue.Canon.mcfg {i : Issue} {o : MG} (h : i.Canon) : Ends Issue.Canon (i.mcfg o) := by
  unfold Issue.mcfg
  split
  · exact Ends.illegalOperand
  · exact h.afterCore

theorem Issue.Canon.logM {i : Issue} {kind acc row md : Nat} {half : Bool} {data : BitVec 4096} (h : i.Canon) :
    (i.logM kind acc row md half data).Canon :=
  h.upd

theorem Issue.Canon.push {i : Issue} {off : Nat} {wp : Bool} (h : i.Canon) : Ends Issue.Canon (i.push off wp) := by
  unfold Issue.push
  refine Ends.pushRow.bind fun ⟨_, _⟩ _ => ?_
  exact Issue.Canon.upd ⟨h.state.same rfl rfl, h.post, h.reserve⟩

theorem Issue.Canon.advance {i : Issue} {t : Nat} {rp : Bool} {row : BitVec 7} (h : i.Canon) : (i.advance t rp row).Canon := by
  unfold Issue.advance
  split
  · exact h.afterCore
  · exact h

theorem Ends.lentReg {i : Issue} {v : BitVec 6} : Ends (fun _ => True) (i.lentReg v) := by
  unfold Issue.lentReg
  dsimp only
  split <;> trivial

theorem Issue.Canon.shift {i : Issue} {o : MSH} (h : i.Canon) : Ends Issue.Canon (i.shift o) := by
  unfold Issue.shift
  refine Ends.lentReg.bind fun _ _ => ?_
  dsimp only
  split
  · exact Ends.illegalOperand
  · split
    · exact Ends.wait
    · exact h.logM.upd.advance

theorem Ends.unscale {c : Core} {t : Nat} : Ends (fun _ => True) (c.unscale t) := by
  unfold Core.unscale
  dsimp only
  split
  · trivial
  · split <;> split <;> trivial

theorem Issue.Canon.drain {i : Issue} {o : MDR} (h : i.Canon) : Ends Issue.Canon (i.drain o) := by
  unfold Issue.drain
  refine Ends.lentReg.bind fun _ _ => ?_
  dsimp only
  split
  · exact Ends.illegalOperand
  · split
    · exact Ends.wait
    · split
      · refine Ends.unscale.bind fun _ _ => ?_
        split
        · exact h.result.advance
        · exact h.roundWords.result.advance
      · refine Ends.bind (Q := fun _ => True) trivial fun _ _ => ?_
        split
        · exact h.result.advance
        · exact h.roundWords.result.advance

theorem Issue.Canon.drainq {i : Issue} {o : MDR} (h : i.Canon) : Ends Issue.Canon (i.drainq o) := by
  unfold Issue.drainq
  refine Ends.lentReg.bind fun _ _ => ?_
  dsimp only
  split
  · exact Ends.illegalOperand
  · split
    · exact Ends.wait
    · split
      · trivial
      · exact h.roundWords.result.advance

theorem Issue.Canon.snap {i : Issue} {o : MSN} (h : i.Canon) : Ends Issue.Canon (i.snap o) := by
  unfold Issue.snap
  refine Ends.destV.bind fun ⟨_, _⟩ _ => ?_
  split
  dsimp only
  split
  · exact Ends.wait
  · exact h.upd.result

theorem Issue.Canon.reschk {i : Issue} {t : Nat} (h : i.Canon) : (i.reschk t).Canon := by
  unfold Issue.reschk
  split
  · exact h.upd.withS h.upd.state.corruption
  · exact h

end Sys2Proof.Machine
end

section
/-! The canonical form is kept by the vector units on their scratchpad. -/

namespace Sys2Proof.Machine

theorem Issue.Canon.spadCheck {i : Issue} {addrs : List Nat} {size align : Nat} {store : Bool} (h : i.Canon) :
    Ends Issue.Canon (i.spadCheck addrs size align store) := by
  unfold Issue.spadCheck
  split
  · trivial
  · split
    · trivial
    · dsimp only
      split
      · trivial
      · split
        · split
          · exact Ends.wait
          · exact h
        · split
          · exact Ends.wait
          · split
            · trivial
            · exact h

theorem Issue.Canon.spadRead128 {i : Issue} {off : Nat} (h : i.Canon) : (i.spadRead128 off).2.Canon := by
  unfold Issue.spadRead128
  dsimp only
  exact h.spadRead.spadRead

theorem Issue.Canon.spadWrite128 {i : Issue} {off v : Nat} (h : i.Canon) : (i.spadWrite128 off v).Canon :=
  h.spadWrite.spadWrite

theorem Issue.Canon.vld {i : Issue} {o : MEM} (h : i.Canon) : Ends Issue.Canon (i.vld o) :=
  h.spadCheck.bind fun _ h => h.spadRead128.toV

theorem Issue.Canon.vst {i : Issue} {o : MEM} (h : i.Canon) : Ends Issue.Canon (i.vst o) :=
  Ends.readReg.bind fun _ _ => h.spadCheck.bind fun _ h => h.spadWrite128

theorem Issue.Canon.spadWords {i : Issue} {l : List Nat} (h : i.Canon) : (i.spadWords l).2.Canon := by
  induction l generalizing i with
  | nil => exact h
  | cons a t ih => exact ih (h.spadRead (owner := i.n) (off := a) (n := 4))

theorem Issue.Canon.vldg {i : Issue} {o : RR} (h : i.Canon) : Ends Issue.Canon (i.vldg o) := by
  unfold Issue.vldg
  refine h.v1.bind fun ⟨_, _⟩ h1 => h1.spadCheck.bind fun _ h2 => ?_
  split
  next he => exact (Issue.Canon.snd_of h2.spadWords he).toV

theorem Issue.Canon.vsts {i : Issue} {o : RR} (h : i.Canon) : Ends Issue.Canon (i.vsts o) := by
  unfold Issue.vsts
  refine Ends.readReg.bind fun _ _ => h.v1.bind fun ⟨_, _⟩ h1 => h1.spadCheck.bind fun _ h2 => ?_
  exact List.foldlRecOn _ _ h2 fun _ h3 _ _ => h3.spadWrite

theorem Issue.Canon.vldpl {i : Issue} {o : MEM} (h : i.Canon) : Ends Issue.Canon (i.vldpl o) := by
  unfold Issue.vldpl
  refine Ends.readReg.bind fun old _ => ?_
  split
  · trivial
  · refine h.spadCheck.bind fun j hj => ?_
    dsimp only
    split
    · trivial
    · refine Issue.Canon.toV (Issue.Canon.foldl_snd hj fun _ _ hr => ?_)
      dsimp only
      exact hr.spadRead

end Sys2Proof.Machine
end

section
/-! The canonical form is kept by the operations on tiles. -/

namespace Sys2Proof.Machine

theorem Issue.Canon.putTile {i : Issue} {k : Nat} {v : Tile} (h : i.Canon) : (i.putTile k v).Canon :=
  h.withS h.state.coreWriteTime.upd

theorem Issue.Canon.tlayout {i : Issue} {o : RR} (h : i.Canon) : Ends Issue.Canon (i.tlayout o) := by
  unfold Issue.tlayout
  dsimp only
  refine h.rrG2.bind fun ⟨_, _⟩ h' => ?_
  split
  · exact Ends.illegalOperand
  · split
    · exact h'.resultG.upd.putTile
    · exact h'.resultG.putTile
    · exact Ends.illegalOperand
    · split
      · exact h'.resultG
      · trivial
    · exact Ends.illegalOperand

theorem Issue.Canon.trelease {i : Issue} {k : Nat} (h : i.Canon) : Ends Issue.Canon (i.trelease k) := by
  unfold Issue.trelease
  dsimp only
  split
  · exact h
  · exact h.putTile
  · split
    · exact Ends.illegalOperand
    · exact h.putTile
  · split
    · exact Ends.illegalOperand
    · exact h.putTile

end Sys2Proof.Machine
end

section
/-! The canonical form is kept by the commands started at issue. -/

namespace Sys2Proof.Machine

theorem Ends.range {i : Issue} {va : W64} {align len : Nat} : Ends (fun _ => True) (i.range va align len) := by
  unfold Issue.range
  split
  · trivial
  · split
    · trivial
    · split <;> trivial

theorem Issue.Canon.tileCommand {i : Issue} {t : Nat} {f : Tile → Tile} {e : IfrEntry} (h : i.Canon) :
    Ends Issue.Canon (i.tileCommand t f e) :=
  h.command.bind fun _ h => h.putTile

theorem Issue.Canon.copyIn {i : Issue} {o : XC} (h : i.Canon) : Ends Issue.Canon (i.copyIn o) := by
  unfold Issue.copyIn
  dsimp only
  split
  · exact Ends.illegalOperand
  · exact Ends.range.bind fun _ _ => h.tileCommand

theorem Issue.Canon.copyOutTile {i : Issue} {o : XC} (h : i.Canon) : Ends Issue.Canon (i.copyOutTile o) := by
  unfold Issue.copyOutTile
  dsimp only
  split
  · trivial
  · split
    · exact Ends.illegalOperand
    · refine Ends.range.bind fun _ _ => ?_
      split
      · exact Ends.notReady
      · exact h.tileCommand

theorem Issue.Canon.copyOutAcc {i : Issue} {o : XC} (h : i.Canon) : Ends Issue.Canon (i.copyOutAcc o) := by
  unfold Issue.copyOutAcc
  dsimp only
  split
  · exact Ends.illegalOperand
  · split
    · exact Ends.illegalOperand
    · split
      · split
        · split
          · exact Ends.illegalOperand
          · refine Ends.unscale.bind fun _ _ => ?_
            refine Ends.range.bind fun _ _ => ?_
            split
            · exact Ends.wait
            · exact h.roundWords.command
        · split
          · exact Ends.illegalOperand
          · refine Ends.bind (Q := fun _ => True) trivial fun _ _ => ?_
            refine Ends.range.bind fun _ _ => ?_
            split
            · exact Ends.wait
            · exact h.roundWords.command
      · split
        · exact Ends.illegalOperand
        · split
          · refine Ends.unscale.bind fun _ _ => ?_
            refine Ends.range.bind fun _ _ => ?_
            split
            · exact Ends.wait
            · exact h.roundWords.command
          · refine Ends.bind (Q := fun _ => True) trivial fun _ _ => ?_
            refine Ends.range.bind fun _ _ => ?_
            split
            · exact Ends.wait
            · exact h.roundWords.command

theorem Issue.Canon.copyOut {i : Issue} {o : XC} (h : i.Canon) : Ends Issue.Canon (i.copyOut o) := by
  unfold Issue.copyOut
  split
  · exact h.copyOutAcc
  · exact h.copyOutTile

theorem Issue.Canon.wbFill {i : Issue} {o : XC} (h : i.Canon) : Ends Issue.Canon (i.wbFill o) := by
  unfold Issue.wbFill
  dsimp only
  split
  · exact Ends.illegalOperand
  · exact Ends.range.bind fun _ _ => h.command

theorem Issue.Canon.prefetch {i : Issue} {o : XC} (h : i.Canon) : Ends Issue.Canon (i.prefetch o) := by
  unfold Issue.prefetch
  dsimp only
  split
  · exact Ends.illegalOperand
  · split
    · trivial
    · exact h

theorem Ends.tilesReadable {i : Issue} {off len : Nat} : Ends (fun _ => True) (i.tilesReadable off len) := by
  unfold Issue.tilesReadable
  dsimp only
  split
  · trivial
  · split
    · trivial
    · exact Ends.wait

theorem Ends.notPoisoned {i : Issue} {off len : Nat} : Ends (fun _ => True) (i.notPoisoned off len) := by
  unfold Issue.notPoisoned
  split <;> trivial

theorem Issue.Canon.rowsCommand {i : Issue} {o : XC} {gather : Bool} (h : i.Canon) : Ends Issue.Canon (i.rowsCommand o gather) := by
  unfold Issue.rowsCommand
  extract_lets
  refine Ends.of_ite Ends.illegalOperand (Ends.of_ite trivial (Ends.of_ite trivial (Ends.of_ite trivial ?_)))
  exact Ends.tilesReadable.bind fun _ _ => Ends.of_ite Ends.notReady (Ends.notPoisoned.bind fun _ _ => h.tileCommand)

theorem State.Canon.noteMove {s : State} {n op peer : Nat} (h : s.Canon) : (s.noteMove n op peer).Canon := by
  unfold State.noteMove
  dsimp only
  split
  · split
    · exact h.setKernel
    · exact h
  · exact h

theorem State.Canon.landSend {s : State} {x : Send} (h : s.Canon) : (s.landSend x).Canon :=
  State.Canon.noteMove (State.Canon.upd (State.Canon.upd h))

theorem State.Canon.landSends {k : Nat} {s : State} (h : s.Canon) : (State.landSends k s).Canon := by
  induction k generalizing s with
  | zero => exact h
  | succ k ih =>
    unfold State.landSends
    split
    · exact h
    · exact ih h.landSend

theorem Issue.Canon.send {i : Issue} {o : RR} (h : i.Canon) : Ends Issue.Canon (i.send o) := by
  unfold Issue.send
  dsimp only
  refine h.source.bind fun ⟨_, _⟩ h' => ?_
  split
  · exact Ends.illegalOperand
  · split
    · trivial
    · exact h'.command

theorem Issue.Canon.receive {i : Issue} {ch op : Nat} (h : i.Canon) : Ends (fun p => p.2.Canon) (i.receive ch op) := by
  have hland := h.withS (h.state.landSends (k := i.s.sends.length))
  unfold Issue.receive
  dsimp only
  split
  · trivial
  · exact hland.upd.withS hland.upd.state.noteMove

theorem Issue.Canon.recv {i : Issue} {o : RR} (h : i.Canon) : Ends Issue.Canon (i.recv o) :=
  h.receive.bind fun ⟨_, _⟩ h' => h'.toV

theorem Issue.Canon.recvAdd {i : Issue} {o : RR} {w : Nat} {f : Nat → Nat → Nat} (h : i.Canon) : Ends Issue.Canon (i.recvAdd o w f) :=
  h.source.bind fun ⟨_, _⟩ h1 => h1.receive.bind fun ⟨_, _⟩ h2 => h2.toV

theorem Ends.remote {i : Issue} {o : RR} {store : Bool} : Ends (fun _ => True) (i.remote o store) := by
  unfold Issue.remote
  refine Ends.of_ite trivial ?_
  split
  · trivial
  · refine Ends.of_ite trivial (Ends.of_ite trivial (Ends.of_ite ?_ ?_))
    · show Stop.Canon _
      split
      · trivial
      · exact fun _ h => h
    · split <;> trivial

theorem Issue.Canon.tileSeen {i : Issue} {m off : Nat} (h : i.Canon) : (i.tileSeen m off).Canon :=
  h.withS h.state.readTime

theorem Issue.Canon.remoteLoad {i : Issue} {o : RR} (h : i.Canon) : Ends Issue.Canon (i.remoteLoad o) := by
  unfold Issue.remoteLoad
  dsimp only
  exact Ends.remote.bind fun ⟨_, _⟩ _ => Ends.sent.bind fun _ _ => h.tileSeen.spadRead.spadRead.toV

theorem Issue.Canon.remoteStore {i : Issue} {o : RR} (h : i.Canon) : Ends Issue.Canon (i.remoteStore o) :=
  Ends.readReg.bind fun _ _ => Ends.remote.bind fun ⟨_, _⟩ _ => h.tileSeen.spadWrite.spadWrite

end Sys2Proof.Machine
end

section
/-! The canonical form is kept by tag tables, atomics and ordering operations. -/

namespace Sys2Proof.Machine

theorem State.Canon.tagged {s : State} {home x n sp tag : Nat} {rpl : Bool} {apply : State → W64 × State} (h : s.Canon)
    (happly : ∀ s, s.Canon → (apply s).2.Canon) : (s.tagged home x n sp tag rpl apply).2.Canon := by
  have hrun {l : TagTables} : State.Canon { (apply s).2 with tags := l } := (happly s h).same rfl rfl
  unfold State.tagged
  dsimp only
  split
  · exact hrun
  · split
    · exact h
    · split
      · split
        · exact h
        · exact hrun
      · exact hrun

theorem State.Canon.amoApply {opc pa : Nat} {x c : W64} {put : State → Nat → Nat → Nat → State} {s : State}
    (hput : ∀ s0 a1 a2 a3, s0.Canon → (put s0 a1 a2 a3).Canon) (hs : s.Canon) :
    (amoApply opc pa x c put s).2.Canon :=
  hput _ _ _ _ hs

theorem Issue.Canon.amoWait {i : Issue} {o : XA} {opc : Nat} {va x c : W64} (h : i.Canon) : Ends Issue.Canon (i.amoWait o opc va x c) := by
  have happly {pa : Nat} (s : State) (hs : s.Canon) :
      (amoApply opc pa x c (fun s a n v => s.coreStore i.n a n (s.ringValue i.ctxNo va a n v)) s).2.Canon :=
    hs.amoApply fun _ _ _ _ hs => hs.coreStore
  unfold Issue.amoWait
  dsimp only
  split
  · exact Issue.Canon.resultG (h.withS (h.state.same rfl rfl))
  · refine Ends.of_ite trivial (Ends.examine.bind fun p _ => ?_)
    split
    · trivial
    · refine Ends.of_ite trivial (Ends.of_ite Ends.wait (Ends.of_ite trivial (Ends.sent.bind fun _ _ => ?_)))
      split
      · exact Issue.Canon.resultG (h.withS ((h.state.upd.tagged happly).same rfl rfl))
      · trivial

theorem Issue.Canon.amo {i : Issue} {o : XA} {opc : Nat} (h : i.Canon) : Ends Issue.Canon (i.amo o opc) := by
  unfold Issue.amo
  dsimp only
  split
  · exact h.amoWait
  · exact Ends.range.bind fun _ _ => h.command

theorem Issue.Canon.fence {i : Issue} {scope : Nat} (h : i.Canon) : (i.fence scope).Canon :=
  h.upd

theorem Issue.Canon.nmFence {i : Issue} (h : i.Canon) : (i.nmFence).Canon :=
  h.upd

theorem Issue.Canon.release {i : Issue} {o : XO} (h : i.Canon) : Ends Issue.Canon (i.release o) := by
  unfold Issue.release
  refine Ends.range.bind fun _ _ => ?_
  split
  · trivial
  · exact h.command.bind fun _ h => h.upd

theorem Issue.Canon.xLoad {i : Issue} {d : Nat} {va : W64} (h : i.Canon) : Ends Issue.Canon (i.xLoad d va) := by
  unfold Issue.xLoad
  refine Ends.examine.bind fun _ _ => ?_
  split
  · exact (h.withS h.state.devRead).resultG
  · exact h.loadAt.bind fun ⟨_, _⟩ h' => h'.resultG

theorem Issue.Canon.xvld {i : Issue} {o : XA} (h : i.Canon) : Ends Issue.Canon (i.xvld o) := by
  unfold Issue.xvld
  dsimp only
  split
  · exact Ends.illegalOperand
  · refine Ends.examine.bind fun _ _ => ?_
    split
    · trivial
    · split
      · exact Ends.wait
      · exact (h.withS h.state.acquire).loadAt.bind fun ⟨_, _⟩ h' => h'.resultG

theorem Issue.Canon.nmCommand {i : Issue} {o : RR} (h : i.Canon) : Ends Issue.Canon (i.nmCommand o) := by
  unfold Issue.nmCommand
  dsimp only
  split
  · trivial
  · split
    · trivial
    · split
      · trivial
      · exact Ends.tilesReadable.bind fun _ _ => Ends.notPoisoned.bind fun _ _ => h.command

theorem Issue.Canon.tagLoad {i : Issue} {o : RR} (h : i.Canon) : Ends Issue.Canon (i.tagLoad o) := by
  unfold Issue.tagLoad
  refine Ends.examine.bind fun _ _ => ?_
  split
  · trivial
  · exact h.tagAt.bind fun ⟨_, _⟩ h' => h'.resultG

theorem Issue.Canon.tagStore {i : Issue} {o : RR} (h : i.Canon) : Ends Issue.Canon (i.tagStore o) := by
  unfold Issue.tagStore
  dsimp only
  refine h.rrG2.bind fun ⟨_, _⟩ h' => ?_
  split
  · exact Ends.illegalOperand
  · refine Ends.examine.bind fun _ _ => ?_
    split
    · trivial
    · split
      · trivial
      · split
        · trivial
        · split
          · exact h'.commitLine (fun _ h => h.coreWriteTime.putTag) (fun _ _ h => h.putTag)
          · exact h'.withS h'.state.coreWriteTime.putTag

end Sys2Proof.Machine
end

section
/-! The canonical form is kept by work queues. -/

namespace Sys2Proof.Machine

theorem State.Canon.setQueue {s : State} {x q : Nat} {v : Queue} (h : s.Canon) : (s.setQueue x q v).Canon :=
  h

theorem State.Canon.putQueue {s : State} {x q : Nat} {pa : Option Nat} {v : Queue} (h : s.Canon) : (s.putQueue x q pa v).Canon := by
  unfold State.putQueue
  split
  · exact h.setQueue.engineStore
  · exact h.setQueue

theorem Ends.queuePages {i : Issue} {l : List (W64 × Nat × Bool)} : Ends (fun _ => True) (i.queuePages l) := by
  refine Ends.of_ite trivial ?_
  intro s hs
  refine hs.foldl_mem fun f hf s hs => ?_
  obtain ⟨p, -, hp⟩ := List.mem_filterMap.1 hf
  split at hp
  · exact Option.some.inj hp ▸ hs.bundleFault
  · exact absurd hp (Option.some_ne_none f).symm

theorem Ends.queuePlace {i : Issue} {va : W64} : Ends (fun _ => True) (i.queuePlace va) := by
  unfold Issue.queuePlace
  split <;> try exact trivial
  exact Ends.wait

theorem Ends.queueOf {i : Issue} {sel : W64} {used : Nat} : Ends (fun _ => True) (i.queueOf sel used) := by
  unfold Issue.queueOf
  dsimp only
  split
  · trivial
  · split <;> trivial

theorem Ends.queueAddrs {i : Issue} {va : W64} {l : List W64} : Ends (fun _ => True) (i.queueAddrs va l) := by
  unfold Issue.queueAddrs
  split
  · trivial
  · split <;> trivial

theorem State.Canon.reserveQueue {s : State} {x qn key : Nat} {f : Queue → Queue} (h : s.Canon) : (s.reserveQueue x qn key f).Canon := by
  unfold State.reserveQueue
  split
  · split
    · exact h
    · exact h.setQueue
  · exact h

theorem State.Canon.storeSlot {s : State} {time : Nat} {pa : Option Nat} {d : BitVec 512} {t : BitVec 16} (h : s.Canon) :
    (s.storeSlot time pa d t).Canon := by
  unfold State.storeSlot
  split
  · exact h.writeTime.engineBlock
  · exact h

theorem State.Canon.accept {s : State} {x qn num : Nat} {pa hpa : Option Nat} {q : Queue} {d : BitVec 512} {t : BitVec 16} {time : Nat}
    (h : s.Canon) :
    (s.accept x qn num pa hpa q d t time).Canon := by
  unfold State.accept
  dsimp only
  split
  · split
    · exact h.putQueue
    · exact h.storeSlot.putQueue
  · exact h.storeSlot.putQueue

theorem Issue.Canon.wqpush {i : Issue} {slow : Bool} {o : RR} (h : i.Canon) : Ends Issue.Canon (i.wqpush slow o) := by
  unfold Issue.wqpush
  refine h.rrG.bind fun ⟨_, _, j⟩ hj => Ends.queueOf.bind fun ⟨qn, q0⟩ _ => Ends.queueAddrs.bind fun _ _ => ?_
  refine Ends.queuePages.bind fun _ _ => Ends.queuePlace.bind fun hpa _ => Ends.queuePlace.bind fun spa _ => Ends.examine.bind fun p _ => ?_
  have hnote (x : Nat) : Keeps fun s => s.reserveQueue x qn (answerKey j.n j.slot) fun v => v.planPush (answerKey j.n j.slot) :=
    fun _ hs => hs.reserveQueue
  split
  · trivial
  · refine Ends.of_ite Ends.wait ((hj.withS hj.state.acquire).readAt.bind fun ⟨_, k⟩ hk => Ends.of_ite trivial (Ends.of_ite (hnote _) ?_))
    dsimp only
    split
    · exact (hk.withS hk.state.accept).resultG.withReserve ((hnote _).comp hk.reserve)
    · exact (hk.withS hk.state.putQueue).resultG.withReserve ((hnote _).comp hk.reserve)
    · exact hk.resultG.withReserve ((hnote _).comp hk.reserve)

theorem State.Canon.queueWait {s : State} {x qn key : Nat} (h : s.Canon) : (s.queueWait x qn key).Canon := by
  unfold State.queueWait
  split
  · exact h
  · split
    · exact h
    · exact h.setQueue

theorem Issue.Canon.wqpop {i : Issue} {o : RR} (h : i.Canon) : Ends Issue.Canon (i.wqpop o) := by
  unfold Issue.wqpop
  refine h.rrG.bind fun ⟨sel, _, j⟩ hj => Ends.queueOf.bind fun ⟨qn, q⟩ _ => Ends.queueAddrs.bind fun _ _ => ?_
  refine Ends.queuePages.bind fun _ _ => Ends.queuePlace.bind fun hpa _ => Ends.queuePlace.bind fun spa _ => Ends.examine.bind fun p _ => ?_
  have hnote : Keeps fun s => s.reserveQueue j.ctxNo qn (answerKey j.n j.slot) fun v =>
      s.planPop (answerKey j.n j.slot) spa (sel.getLsbD 8) v := fun _ hs => hs.reserveQueue
  split
  · trivial
  · split
    · exact fun _ hs => hs.queueWait
    · exact Ends.wait
    · exact Ends.of_ite hnote ((hj.withS hj.state.putQueue).resultG.withReserve (hnote.comp hj.reserve))
    next q' x _ =>
      refine Ends.of_ite trivial (Ends.of_ite hnote ?_)
      have htaken : Issue.Canon { j with s := (j.s.putQueue j.ctxNo qn hpa q').acquire j.n x.time } := hj.withS hj.state.putQueue.acquire
      refine Ends.bind (Q := Issue.Canon) ?_ fun k hk => hk.resultG.withReserve (hnote.comp hj.reserve)
      split
      next f he =>
        refine fun s hs => (?_ : Keeps f) _ (hnote s hs)
        split at he
        · exact (htaken.commitLine (fun _ hs => hs.coreWriteTime.putBlock) fun _ _ hs => hs.putBlock).error_of he
        · exact absurd he (by simp)
      next r hr =>
        exact Ends.of_ite (htaken.commitLine (fun _ hs => hs.coreWriteTime.putBlock) fun _ _ hs => hs.putBlock)
          (htaken.withS htaken.state.coreWriteTime.putBlock)

theorem Ends.queueHeader {i : Issue} {sel : W64} {used : Nat} {s2 : BitVec 6} : Ends (fun _ => True) (i.queueHeader sel used s2) := by
  unfold Issue.queueHeader
  refine Ends.queueOf.bind fun ⟨_, _⟩ _ => ?_
  split
  dsimp only
  split
  · refine Ends.bind (Q := fun _ => True) trivial fun _ _ => ?_
    split
    · trivial
    · exact Ends.queuePages.bind fun _ _ => Ends.queuePlace.bind fun _ _ => trivial
  · split
    · trivial
    · exact Ends.queuePages.bind fun _ _ => Ends.queuePlace.bind fun _ _ => trivial

theorem Issue.Canon.wqclose {i : Issue} {o : RR} (h : i.Canon) : Ends Issue.Canon (i.wqclose o) := by
  unfold Issue.wqclose
  refine h.rrG1.bind fun ⟨sel, j⟩ hj => Ends.queueHeader.bind fun ⟨qn, q, hpa⟩ _ => ?_
  have hnote : Keeps fun s =>
      s.reserveQueue j.ctxNo qn (answerKey j.n j.slot) fun v => v.planClose (answerKey j.n j.slot) (sel.getLsbD 8) :=
    fun _ hs => hs.reserveQueue
  exact Ends.of_ite hnote ((hj.withS hj.state.putQueue).resultG.withReserve (hnote.comp hj.reserve))

theorem Issue.Canon.wqlen {i : Issue} {o : RR} (h : i.Canon) : Ends Issue.Canon (i.wqlen o) :=
  h.rrG1.bind fun ⟨_, _⟩ h' => Ends.queueHeader.bind fun ⟨_, _, _⟩ _ => (h'.withS h'.state.putQueue).resultG

end Sys2Proof.Machine
end

section
/-! The canonical form is kept by barrier instructions and barrier events. -/

namespace Sys2Proof.Machine

theorem Issue.Canon.binit {i : Issue} {o : RR} (h : i.Canon) : Ends Issue.Canon (i.binit o) := by
  unfold Issue.binit
  dsimp only
  refine h.rrG.bind fun ⟨_, _, _⟩ h' => ?_
  split
  · exact Ends.illegalOperand
  · split
    · exact Ends.illegalOperand
    · exact Ends.illegalOperand
    · split
      · exact Ends.illegalOperand
      · split
        · split
          · exact Ends.illegalOperand
          · exact h'.resultG
        · split
          · exact Ends.illegalOperand
          · split
            · exact Ends.illegalOperand
            · exact (h'.withS h'.state.barDo).resultG

theorem Issue.Canon.barrive {i : Issue} {o : RR} (h : i.Canon) : Ends Issue.Canon (i.barrive o) := by
  unfold Issue.barrive
  dsimp only
  refine h.rrG.bind fun ⟨_, _, _⟩ h' => ?_
  split
  · exact Ends.illegalOperand
  · exact h'.command

theorem State.Canon.barAcquire {s : State} {n : Nat} {b : BarName} {w : W64} (h : s.Canon) : (s.barAcquire n b w).Canon := by
  unfold State.barAcquire
  split
  · exact h.acquire
  · exact h

theorem Issue.Canon.barOperands {i : Issue} {o : RR} (h : i.Canon) : Ends (fun p => p.2.2.Canon) (i.barOperands o) := by
  unfold Issue.barOperands
  dsimp only
  refine h.rrG.bind fun ⟨_, _, _⟩ h' => ?_
  split
  · trivial
  · split
    · trivial
    · exact h'

theorem Issue.Canon.bwait {i : Issue} {o : RR} (h : i.Canon) : Ends Issue.Canon (i.bwait o) := by
  unfold Issue.bwait
  dsimp only
  refine h.barOperands.bind fun ⟨_, _, _⟩ h1 => ?_
  split
  · refine Issue.Canon.resultG ?_
    refine Issue.Canon.withS h1 ?_
    split
    · exact State.Canon.barAcquire h1.state
    · exact h1.state
  · exact h1.resultG
  · split
    · exact (h1.withS h1.state.barAcquire).resultG
    · intro s h2
      dsimp only
      split
      · exact h2
      · exact h2.setBar

theorem Issue.Canon.btry {i : Issue} {o : RR} (h : i.Canon) : Ends Issue.Canon (i.btry o) := by
  unfold Issue.btry
  dsimp only
  refine h.barOperands.bind fun ⟨_, _, _⟩ h' => ?_
  split
  · exact h'.resultG
  · exact (h'.withS h'.state.barAcquire).resultG

theorem State.Canon.arrive {s : State} {n k : Nat} (h : s.Canon) : Steps (s.arrive n k) := by
  unfold State.arrive
  dsimp only
  split
  · trivial
  · split
    · trivial
    · split
      · exact h.upd
      · exact h.draw.report
      · split
        · trivial
        · exact h.barDo

theorem State.Canon.memberLeave {s : State} {n : Nat} (h : s.Canon) : Steps (s.memberLeave n) := by
  unfold State.memberLeave
  dsimp only
  split
  · trivial
  · exact h.leaveBarriers

end Sys2Proof.Machine
end

section
/-! The canonical form is kept by each step of an engine. -/

namespace Sys2Proof.Machine

theorem State.Canon.reach {s : State} {n : Nat} {va : W64} {need : Nat} {write : Bool} {k : Option Nat → EngOut} (_ : s.Canon)
    (hk : ∀ a0, (k a0).Canon) :
    (s.reach n va need write k).Canon := by
  unfold State.reach
  split <;> try exact trivial
  · exact hk _
  · split
    · trivial
    · exact hk _

theorem State.Canon.entrySent {s : State} {n k home : Nat} (h : s.Canon) : (s.entrySent n k home).Canon := h

theorem State.Canon.advance {s : State} {n k bytes : Nat} (h : s.Canon) : (s.advance n k bytes).Canon :=
  h

theorem State.Canon.blockIn {s : State} {n : Nat} {d : Desc} {t b j : Nat} {reint : Bool} {va : W64} {next : State → EngOut}
    (h : s.Canon) (hnext : ∀ s0, s0.Canon → (next s0).Canon) :
    (s.blockIn n d t b j reint va next).Canon := by
  unfold State.blockIn
  refine State.Canon.reach h ?_
  intro a0
  split
  split
  · trivial
  · exact hnext _ h.writeTime.upd

theorem State.Canon.blockOut {s : State} {n k t b : Nat} {reint : Bool} {va : W64} {next : State → EngOut} (h : s.Canon)
    (hnext : ∀ s0, s0.Canon → (next s0).Canon) :
    (s.blockOut n k t b reint va next).Canon := by
  unfold State.blockOut
  dsimp only
  split
  · trivial
  · refine State.Canon.reach h ?_
    intro a0
    split
    · trivial
    · exact hnext _ h.commandBlock

theorem State.Canon.blockWb {s : State} {n : Nat} {d : Desc} {j : Nat} {reint : Bool} {va : W64} {next : State → EngOut} (h : s.Canon)
    (hnext : ∀ s0, s0.Canon → (next s0).Canon) :
    (s.blockWb n d j reint va next).Canon := by
  unfold State.blockWb
  refine State.Canon.reach h ?_
  intro a0
  split
  dsimp only
  split
  · trivial
  · exact hnext _ h.upd

theorem State.Canon.rowBlocks {n k : Nat} {d : Desc} {t : Nat} {reint gather : Bool} {va : W64} {cnt j : Nat} {s : State} (h : s.Canon) :
    (State.rowBlocks n k d t reint gather va cnt j s).Canon := by
  induction cnt generalizing va j s with
  | zero => exact h
  | succ cnt ih =>
    unfold State.rowBlocks
    dsimp only
    split
    · exact h.blockIn fun _ hs => ih hs
    · exact h.blockOut fun _ hs => ih hs

/-- What an append leaves has the form: the state with the codes, or where the engine stops. -/
def AppendCanon : (State × List Int) ⊕ EngOut → Prop
  | .inl p => p.1.Canon
  | .inr o => o.Canon

theorem AppendCanon.inl_of {r : (State × List Int) ⊕ EngOut} {s : State} {l : List Int} (h : AppendCanon r) (e : r = .inl (s, l)) :
    s.Canon := by
  subst e; exact h
theorem AppendCanon.inr_of {r : (State × List Int) ⊕ EngOut} {o : EngOut} (h : AppendCanon r) (e : r = .inr o) : o.Canon :=
  by subst e; exact h

theorem State.Canon.appendAll {n k : Nat} {list : W64} {l : List (Nat × Narrow)} {s : State} (h : s.Canon) :
    AppendCanon (State.appendAll n k list l s) := by
  induction l generalizing s with
  | nil => exact h
  | cons x t ih =>
    obtain ⟨idx, x⟩ := x
    have hplace (s : State) (hs : s.Canon) (va : W64) (need : Nat) :
        (s.reach n va need true fun pa => match pa with | some pa => .bad pa | none => .hold).Canon :=
      hs.reach fun pa => by cases pa <;> trivial
    cases x with
    | code q =>
      unfold State.appendAll
      split
      next he => exact (ih h).inl_of he
      next he => exact (ih h).inr_of he
    | outlier bits sat =>
      have hrest {s : State} (hs : s.Canon) {q : Int} : AppendCanon (match State.appendAll n k list t s with
          | .inl (s, l) => .inl (s, q :: l)
          | .inr o => .inr o) := by
        split
        next he => exact (ih hs).inl_of he
        next he => exact (ih hs).inr_of he
      unfold State.appendAll
      dsimp only
      split
      · exact hrest h
      · split
        · split
          · trivial
          · split
            · split
              · split
                · trivial
                · exact hrest h.commandStore.commandStore
              · exact hplace _ h _ _
            · exact hrest h.commandStore
        · exact hplace _ h _ _

theorem State.Canon.writeBlocks {n k need : Nat} {va : W64} {l : List (BitVec 512 × BitVec 16)} {s : State} (h : s.Canon) :
    (State.writeBlocks n k need va l s).Canon := by
  induction l generalizing va s with
  | nil => exact h
  | cons b l ih =>
    unfold State.writeBlocks
    refine h.reach fun pa => ?_
    cases pa with
    | none => trivial
    | some pa => exact ih h.commandBlock

theorem State.Canon.listOk {s : State} {n : Nat} {list : W64} {next : EngOut} (h : s.Canon) (hnext : next.Canon) :
    (s.listOk n list next).Canon := by
  unfold State.listOk
  split
  · exact hnext
  · refine State.Canon.reach h ?_
    intro a0
    split
    · trivial
    · dsimp only
      split
      · trivial
      · split
        · exact hnext
        · trivial

theorem State.Canon.drainStep {s : State} {n k : Nat} {e : IfrEntry} {d : Desc} {va : W64} (h : s.Canon) :
    (s.drainStep n k e d va).Canon := by
  have hput {s : State} (hs : s.Canon) {va : W64} {l : List (BitVec 512 × BitVec 16)} :
      EngOut.Canon (match State.writeBlocks n k (permXW + permVT) va l s with
        | .done s => .done (s.advance n k (64 * l.length))
        | o => o) := by
    split
    next he => exact (hs.writeBlocks.done_of he).advance
    next => exact hs.writeBlocks
  have hnarrow {list va : W64} {l : List (Nat × Narrow)} {f : List Int → List (BitVec 512 × BitVec 16)} :
      EngOut.Canon (match State.appendAll n k list l s with
        | .inl (s, codes) => match State.writeBlocks n k (permXW + permVT) va (f codes) s with
          | .done s => .done (s.advance n k (64 * (f codes).length))
          | o => o
        | .inr o => o) := by
    split
    next he => exact hput (h.appendAll.inl_of he)
    next he => exact h.appendAll.inr_of he
  have hlist {next : EngOut} (hnext : next.Canon) {list : W64} : EngOut.Canon (if e.prog = 0 then s.listOk n list next else next) := by
    split
    · exact h.listOk hnext
    · exact hnext
  unfold State.drainStep
  dsimp only
  split
  · exact hput h
  · exact hput h
  · exact hput h
  · exact hput h
  all_goals
    generalize List.map _ (List.zip _ _) = l
    exact hlist hnarrow

theorem State.Canon.copyStep {s : State} {n k : Nat} {e : IfrEntry} (h : s.Canon) : (s.copyStep n k e).Canon := by
  unfold State.copyStep
  dsimp only
  split
  · exact h.blockIn (fun _ h => h.advance)
  · exact h.blockOut (fun _ h => h.advance)
  · exact h.blockWb (fun _ h => h.advance)
  · exact h.drainStep
  · split
    · trivial
    · split
      · rename_i he
        exact (h.rowBlocks.done_of he).advance
      · exact h.rowBlocks
  · trivial

theorem State.Canon.tileChange {s : State} {n k : Nat} {e : IfrEntry} {f : Tile → Tile} (h : s.Canon) : (s.tileChange n k e f).Canon := by
  unfold State.tileChange
  split
  · exact h.writeTime.upd
  · exact h

theorem State.Canon.tileDone {s : State} {n k : Nat} {e : IfrEntry} (h : s.Canon) : (s.tileDone n k e).Canon :=
  h.tileChange

theorem State.Canon.answer {s : State} {n k : Nat} {v : W64} (h : s.Canon) : (s.answer n k v).Canon :=
  h

theorem State.Canon.completeStep {s : State} {n k : Nat} {e : IfrEntry} (h : s.Canon) : (s.completeStep n k e).Canon := by
  unfold State.completeStep
  dsimp only
  split
  · exact h.tileDone.freeCommand
  · refine State.Canon.reach h ?_
    intro a0
    split
    · trivial
    · split
      · trivial
      · split
        · show State.Canon _
          split
          · exact State.Canon.freeCommand (State.Canon.tileDone (State.Canon.choose (h.tagged (fun _ h => h.commandStore))))
          · exact State.Canon.answer (State.Canon.choose (h.tagged (fun _ h => h.commandStore)))
        · exact State.Canon.report (State.Canon.tileDone (State.Canon.choose (h.tagged (fun _ h => h.commandStore))))

theorem State.Canon.amoStep {s : State} {n k : Nat} {e : IfrEntry} (h : s.Canon) : (s.amoStep n k e).Canon := by
  unfold State.amoStep
  dsimp only
  split
  · trivial
  · split
    · trivial
    · refine State.Canon.reach h ?_
      intro a0
      split
      · trivial
      · split
        · trivial
        · split
          · refine State.Canon.answer ?_
            refine State.Canon.tagged h ?_
            intro s h1
            refine State.Canon.amoApply ?_ h1
            intro s0 a1 a2 a3 h2
            split
            · exact h2.coreStore
            · exact h2.commandStore
          · show State.Canon _
            split
            · exact State.Canon.updEntry (h.tagged (fun _ h3 => State.Canon.amoApply (fun _ _ _ _ h => h.coreStore) h3))
            · exact State.Canon.report (h.tagged (fun _ h4 => State.Canon.amoApply (fun _ _ _ _ h => h.commandStore) h4))

theorem State.Canon.relStep {s : State} {n k : Nat} {e : IfrEntry} (h : s.Canon) : (s.relStep n k e).Canon := by
  unfold State.relStep
  dsimp only
  split
  · trivial
  · split
    · trivial
    · refine State.Canon.reach h ?_
      intro a0
      split
      · trivial
      · split
        · refine State.Canon.upd ?_
          refine State.Canon.answer ?_
          refine State.Canon.tagged ?_ (fun _ h => h.coreStore.same rfl rfl)
          split
          · exact h.acquire
          · exact h
        · refine State.Canon.upd ?_
          refine State.Canon.report ?_
          refine State.Canon.tagged ?_ (fun _ h => h.coreStore.same rfl rfl)
          split
          · exact h.acquire
          · exact h

theorem State.Canon.poisonRange {s : State} {pa len : Nat} (h : s.Canon) : (s.poisonRange pa len).Canon :=
  h.foldl fun _ _ h => h.writeTime.putTag

theorem State.Canon.asyncPoison {s : State} {n k pa len : Nat} (h : s.Canon) : (s.asyncPoison n k pa len).Canon :=
  h.foldl fun _ _ h => h.writeTime.putTag.noteCmd

theorem State.Canon.groupError {s : State} {n stack : Nat} {reads : List (W64 × Nat)} (h : s.Canon) :
    (s.groupError n stack reads).Canon := by
  unfold State.groupError
  split
  rename_i he
  split
  · exact h.draw.snd_of he
  · exact (h.draw.snd_of he).poisonRange.logLost

theorem State.Canon.groupDo {s : State} {n k : Nat} {c : NmCmd} {stack grp : Nat} {unc : Bool} {pw : Nat} {pgo : Option Nat} {pm ps : Nat}
    (h : s.Canon) : (s.groupDo n k c stack grp unc pw pgo pm ps).Canon := by
  have hread {reads : List (W64 × Nat)} : (if unc then s.groupError n stack reads else s).Canon := .of_ite h.groupError h
  have hpoison {t : State} {p : Prop} [Decidable p] {pa len : Nat} (ht : t.Canon) : (if p then t.asyncPoison n k pa len else t).Canon :=
    .of_ite ht.asyncPoison ht
  have hstore {t : State} {p : Prop} [Decidable p] {va : W64} {pa len v : Nat} (ht : t.Canon) :
      (if p then t.commandStore n k va pa len v else t).Canon := .of_ite ht.commandStore ht
  unfold State.groupDo
  refine State.Canon.advance (.of_ite ?_ ?_)
  · exact (hpoison (hpoison hread.asyncPoison)).logError.upd
  · exact hstore (hstore hread.commandStore)

theorem State.Canon.nmStep {s : State} {n k : Nat} {e : IfrEntry} {unc : Bool} (h : s.Canon) : (s.nmStep n k e unc).Canon := by
  unfold State.nmStep
  dsimp only
  split <;> try exact trivial
  split
  · trivial
  · refine State.Canon.reach h ?_
    intro a0
    refine State.Canon.reach h ?_
    intro a0
    refine State.Canon.reach h ?_
    intro a0
    refine State.Canon.reach h ?_
    intro a0
    split
    · exact h.groupDo
    · trivial

theorem State.Canon.nmRecord {s : State} {n k : Nat} {cca : W64} {failed status : Nat} (h : s.Canon) :
    (s.nmRecord n k cca failed status).Canon := by
  unfold State.nmRecord
  split
  · exact h
  · split
    · exact h.commandStore.commandStore.commandStore
    · exact h

theorem State.Canon.nmRecordAt {s : State} {n : Nat} {cca : W64} {go : Bool → EngOut} (_ : s.Canon) (hgo : ∀ a0, (go a0).Canon) :
    (s.nmRecordAt n cca go).Canon := by
  unfold State.nmRecordAt
  split
  · exact hgo _
  · split <;> try exact trivial
    · exact hgo _
    · exact hgo _

theorem State.Canon.nmEnd {s : State} {n k : Nat} {e : IfrEntry} (h : s.Canon) : (s.nmEnd n k e).Canon := by
  unfold State.nmEnd
  extract_lets c x finish
  have hfinish {t : State} {home failed status : Nat} {rej : Option W64} (ht : t.Canon) : (finish t home failed status rej).Canon := by
    have htag := ht.tagged (home := home) (x := x) (n := n) (sp := 1) (tag := c.seq) (rpl := e.rpl)
      (apply := fun s => (0, s.nmRecord n k c.cca failed status)) fun _ h => h.nmRecord
    dsimp only [finish]
    split
    · exact htag.report
    · exact htag.freeCommand
    · exact htag.report
  split
  · trivial
  · split
    · exact h.freeCommand
    · exact h.report
    · split
      · refine State.Canon.nmRecordAt h fun _ => ?_
        split
        next hdraw =>
          split
          · exact hfinish (h.draw.snd_of hdraw)
          · exact hfinish h
      · trivial
      · trivial
      · refine State.Canon.nmRecordAt h fun _ => ?_
        split
        · exact hfinish h
        · split
          · exact hfinish h
          · split
            · trivial
            · exact hfinish h

end Sys2Proof.Machine
end

section
/-! The canonical form is kept by changes of pages and shoot-downs. -/

namespace Sys2Proof.Machine

theorem State.Canon.setMaster {s : State} {x page : Nat} {e : W64} (h : s.Canon) : (s.setMaster x page e).Canon :=
  State.canon_iff.2 ⟨wf_write 8 _ _ _ h.mem, h.hostMem⟩

theorem State.Canon.loadCopy {s : State} {tu x : Nat} (h : s.Canon) : (s.loadCopy tu x).Canon :=
  h

theorem State.Canon.reexamine {s : State} {x page : Nat} (h : s.Canon) : (s.reexamine x page).Canon :=
  h

theorem State.Canon.payCcnt {s : State} {x : Nat} (h : s.Canon) : (s.payCcnt x).Canon := by
  unfold State.payCcnt
  dsimp only
  split
  · exact h
  · split
    · exact h.timedStore.updCtx
    · exact h
    · exact h.updCtx

theorem State.Canon.ctxAdd {s : State} {x : Nat} (h : s.Canon) : (s.ctxAdd x).Canon := by
  unfold State.ctxAdd
  dsimp only
  split
  · exact h
  · split
    · exact h.updCtx.postFault
    · exact h.updCtx.payCcnt

theorem State.Canon.unitTakes {s : State} {tu x page : Nat} {old e : W64} (h : s.Canon) : (s.unitTakes tu x page old e).Canon := by
  unfold State.unitTakes
  refine h.setEntry.foldl fun s x h' => ?_
  split
  · exact h'
  · exact h'.upd

theorem State.Canon.pgBegin {s : State} {o : PgOp} (h : s.Canon) : (s.pgBegin o).2.Canon := by
  unfold State.pgBegin
  dsimp only
  split
  · split
    · exact h
    · split
      · exact h
      · split <;> exact h
  · split
    · exact h.setMaster
    · split <;> exact h

theorem State.Canon.pgKick {s : State} (h : s.Canon) : (State.pgKick s).Canon := by
  unfold State.pgKick
  dsimp only
  refine State.Canon.same (State.Canon.foldl_snd (p := (([] : List PgOp), s)) (l := s.pgops) h fun r o hr => ?_) rfl rfl
  split
  · exact hr.pgBegin
  · exact hr

theorem State.Canon.setPgop {s : State} {i : Nat} {o : PgOp} (h : s.Canon) : (s.setPgop i o).Canon :=
  h

theorem State.Canon.ackUnit {s : State} {unit : Nat} (h : s.Canon) : Steps (s.ackUnit unit) := by
  unfold State.ackUnit
  split
  · trivial
  · dsimp only
    split
    · exact h.unitTakes.setPgop
    · split
      · exact h.unitTakes.reexamine.payCcnt.setPgop
      · exact h.unitTakes.reexamine.payCcnt.setPgop.pgKick

theorem State.Canon.copyFrame {s : State} {src dst len : Nat} (h : s.Canon) : (s.copyFrame src dst len).Canon :=
  State.canon_iff.2 ⟨wf_copyRange _ _ _ _ h.mem, h.hostMem⟩

theorem State.Canon.fillReplicas {s : State} {f : Nat} {frames : List Nat} (h : s.Canon) : (s.fillReplicas f frames).Canon :=
  h.foldl fun _ _ h => h.copyFrame

theorem State.Canon.commitPages {s : State} {clk : Nat} {pages : List (Nat × List Nat)} (h : s.Canon) :
    (s.commitPages clk pages).1.Canon :=
  h.foldl fun _ _ h => h.fillReplicas

theorem State.Canon.freeRow {s : State} {x : Nat} (h : s.Canon) : (s.freeRow x).2.Canon :=
  h.draw

theorem State.Canon.drawFrames {used : List Nat} {n : Nat} {s : State} (h : s.Canon) : (State.drawFrames used n s).2.Canon := by
  induction n generalizing used s with
  | zero => exact h
  | succ n ih => exact ih h.draw

theorem State.Canon.takeRow {s : State} {x page : Nat} (h : s.Canon) : (s.takeRow x page).2.Canon := by
  unfold State.takeRow
  exact State.Canon.fillReplicas h.freeRow.drawFrames

theorem State.Canon.freeRowOf {s : State} {x row : Nat} (h : s.Canon) : (s.freeRowOf x row).Canon :=
  h

theorem State.Canon.moveRels {s : State} {src dst : Nat} (h : s.Canon) : (s.moveRels src dst).Canon :=
  h

theorem State.Canon.moveDone {s : State} (h : s.Canon) : Steps (s.moveDone) := by
  unfold State.moveDone
  split
  · trivial
  · exact State.Canon.setPgop (h.copyFrame.moveRels.setMaster.foldl fun _ _ h => h.logError)

theorem State.Canon.readEntry {s : State} {x page : Nat} (h : s.Canon) : (s.readEntry x page).2.Canon := by
  unfold State.readEntry
  dsimp only
  split
  · exact h.choose
  · exact h

theorem State.Canon.probe {s : State} {x : W64} (h : s.Canon) : (s.probe x).2.Canon :=
  h.readEntry

theorem Issue.Canon.pgprobe {i : Issue} {o : RR} (h : i.Canon) : Ends Issue.Canon (i.pgprobe o) := by
  unfold Issue.pgprobe
  dsimp only
  refine h.rrG1.bind fun ⟨_, _⟩ h' => ?_
  split
  · exact Ends.illegalOperand
  · split
    · exact h'.resultG
    · exact Ends.sent.bind fun _ _ => (h'.withS h'.state.readEntry).resultG

theorem Issue.Canon.pginv {i : Issue} {o : RR} (h : i.Canon) : Ends Issue.Canon (i.pginv o) := by
  unfold Issue.pginv
  dsimp only
  refine h.rrG.bind fun ⟨_, _, _⟩ h1 => ?_
  split
  · exact Ends.illegalOperand
  · split
    · exact Ends.illegalOperand
    · split
      · exact fun _ h2 => State.Canon.pgKick h2
      · split
        · exact fun _ h => h.pgKick
        · exact Issue.Canon.resultG (Issue.Canon.withS h1 h1.state)

end Sys2Proof.Machine
end

section
/-! The canonical form is kept by requests on contexts. -/

namespace Sys2Proof.Machine

theorem State.Canon.setTensor {s : State} {x t : Nat} {e : WvEntry} (h : s.Canon) : (s.setTensor x t e).Canon :=
  h

theorem State.Canon.slotLeft {s : State} {clk x t k : Nat} (h : s.Canon) : (s.slotLeft clk x t k).Canon := by
  unfold State.slotLeft
  dsimp only
  split
  · exact h
  · exact h.setTensor

theorem State.Canon.leaveKept {s : State} {x n : Nat} (h : s.Canon) : (s.leaveKept x n).Canon := by
  unfold State.leaveKept
  refine State.Canon.same (h.foldl fun s b hs => ?_) rfl rfl
  split
  · exact hs.slotLeft
  · exact hs

theorem State.Canon.bindAfresh {s : State} {n x k : Nat} {b : Bind} (h : s.Canon) : (s.bindAfresh n x k b).Canon := by
  unfold State.bindAfresh
  split
  · exact h
  · refine State.Canon.upd ?_
    split
    · exact h.setTensor
    · exact h

theorem State.Canon.endRequest {s : State} {x status off : Nat} (h : s.Canon) : (s.endRequest x status off).Canon := by
  unfold State.endRequest
  dsimp only
  split
  · exact h
  · exact h.setCtx.ctxAdd

theorem State.Canon.freezeGroups {s : State} {x q : Nat} (h : s.Canon) : (s.freezeGroups x q).Canon := by
  unfold State.freezeGroups
  refine h.foldl fun s x h' => ?_
  split
  · exact h'
  · exact h'.setGroup

theorem State.Canon.thawGroups {s : State} {x q : Nat} (h : s.Canon) : (s.thawGroups x q).Canon := by
  unfold State.thawGroups
  refine h.foldl fun s x h' => ?_
  split
  · exact h'.setGroup
  · exact h'

theorem State.Canon.kernelSt {s : State} {k : Nat} {st : NodeSt} (h : s.Canon) : (s.kernelSt k st).Canon := by
  unfold State.kernelSt
  split
  · exact h
  · dsimp only
    split
    · exact h.setKernel
    · exact h.setKernel.updCtx

theorem State.Canon.tryRelease {s : State} {gid : Nat} (h : s.Canon) : (s.tryRelease gid).Canon := by
  unfold State.tryRelease
  split
  · exact h
  · extract_lets gs ready t
    refine .of_ite h ?_
    have ht : t.Canon := by
      refine h.foldl fun s x hs => ?_
      split
      · exact State.Canon.setGroup (hs.foldl fun _ _ h => h.upd)
      · exact hs
    split
    · exact .of_ite ht.kernelSt ht
    · exact ht

theorem State.Canon.resumePart {s : State} {x q : Nat} (h : s.Canon) : (s.resumePart x q).Canon :=
  State.Canon.foldl (State.Canon.updCtx (State.Canon.thawGroups (h.foldl fun _ _ h => h.upd))) fun _ _ h => h.tryRelease

theorem State.Canon.areaWaits {s : State} {x : Nat} {r : Request} {va : W64} {write : Bool} (h : s.Canon) :
    (s.areaWaits x r va write).Canon := by
  unfold State.areaWaits
  split
  · exact h
  · exact h.postFault.updCtx

theorem State.Canon.writePiece {s : State} {img : Memory} {off len pa ts : Nat} (h : s.Canon) : (s.writePiece img off len pa ts).Canon :=
  State.canon_iff.2 ⟨wf_foldl _ (fun _ _ h => wf_setByte _ _ _ h) _ _ (wf_clear _ _ _ h.mem), h.hostMem⟩

theorem State.Canon.writeArea {s : State} {x : Nat} {img : Memory} {rs : List (Nat × Nat)} {n : Nat} (h : s.Canon) :
    (s.writeArea x img rs n).Canon := by
  unfold State.writeArea
  refine State.Canon.foldl_fst h fun r p hr => ?_
  dsimp only
  split
  · exact hr
  · split
    · exact hr.writePiece
    · exact hr

theorem State.Canon.writeValid {s : State} {x v : Nat} (h : s.Canon) : (s.writeValid x v).Canon := by
  unfold State.writeValid
  split
  · exact h.timedStore.putTag
  · exact h

theorem State.Canon.groupFor {s : State} {x n dev : Nat} {kept : Option Core} {m : Member} (h : s.Canon) :
    (s.groupFor x n dev kept m).2.Canon := by
  unfold State.groupFor
  dsimp only
  split
  · exact h
  · exact h.same rfl rfl

theorem State.Canon.giveSlot {s : State} {k j : Nat} {b : Barrier} (h : s.Canon) : (s.giveSlot k j b).Canon :=
  h

theorem State.Canon.joinCohort {s : State} {x gid : Nat} {m : Member} (h : s.Canon) : (s.joinCohort x gid m).Canon := by
  unfold State.joinCohort
  generalize s.freeSlots.take 4 = slots
  split
  · exact h
  · split
    next id t he =>
      have ht : t.Canon := by
        refine State.Canon.snd_of ?_ he
        split
        · exact h
        · refine State.Canon.same ?_ rfl rfl
          exact h.foldl fun _ _ hs => hs.giveSlot
      split
      · exact ht
      · dsimp only
        refine State.Canon.foldl ?_ fun _ _ hs => hs.upd
        split
        · exact ht.same rfl rfl
        · exact ht.same rfl rfl

theorem State.Canon.restoreDevBars {s : State} {m : Memory} {x q : Nat} (h : s.Canon) : (s.restoreDevBars m x q).Canon := by
  unfold State.restoreDevBars
  dsimp only
  split
  · exact h.foldl fun _ _ h => h.setBar
  · exact h

theorem State.Canon.restoreReports {s : State} {n : Nat} {k : Option Core} {pend : Nat} (h : s.Canon) :
    (s.restoreReports n k pend).Canon := by
  unfold State.restoreReports
  split
  · exact h.upd
  · exact State.Canon.foldl (h.foldl fun _ _ h => h.choose.choose.draw.upd) fun _ _ h => h.draw.draw.upd

theorem State.Canon.restoreCore {s : State} {m : Memory} {x q i : Nat} (h : s.Canon) : (s.restoreCore m x q i).Canon := by
  unfold State.restoreCore
  dsimp only
  refine State.Canon.joinCohort ?_
  split
  · split
    · exact State.Canon.restoreReports (State.Canon.setCore h.groupFor)
    · exact State.Canon.foldl (State.Canon.restoreReports (State.Canon.setCore h.groupFor.leaveKept)) fun _ _ h => h.bindAfresh
  · split
    · exact State.Canon.restoreReports (State.Canon.setCore h.groupFor)
    · exact State.Canon.foldl (State.Canon.restoreReports (State.Canon.setCore h.groupFor.leaveKept)) fun _ _ h => h.bindAfresh

theorem State.Canon.restoreHwBars {s : State} {m : Memory} {q : Nat} {is : List Nat} (h : s.Canon) : (s.restoreHwBars m q is).Canon :=
  h.foldl fun _ _ h => h.setBar

theorem State.Canon.restorePart {s : State} {m : Memory} {x q : Nat} (h : s.Canon) : (s.restorePart m x q).Canon :=
  State.Canon.loadCopy (State.Canon.restoreDevBars (h.restoreHwBars.foldl fun _ _ h => h.restoreCore))

theorem State.Canon.beginSave {s : State} {x : Nat} {qs : List Nat} (h : s.Canon) : (s.beginSave x qs).Canon :=
  State.Canon.writeValid (h.foldl fun _ _ h => h.updCtx)

theorem State.Canon.freezeProgress {s : State} {x : Nat} (h : s.Canon) : (s.freezeProgress x).Canon := by
  unfold State.freezeProgress
  split
  · exact h
  · dsimp only
    split
    · exact h
    · split
      · exact h.beginSave
      · refine State.Canon.endRequest ?_
        split
        · exact h.updCtx
        · exact h

theorem State.Canon.beginFreeze {s : State} {x op : Nat} {named asked : BitVec 16} {target : Nat} (h : s.Canon) :
    (s.beginFreeze x op named asked target).Canon := by
  unfold State.beginFreeze
  dsimp only
  split
  · refine State.Canon.beginSave ?_
    refine h.setCtx.foldl fun s x h1 => ?_
    split
    · exact h1.freezePart
    · exact h1.freezePart
    · exact h1
    · exact h1.updCtx.foldl fun _ _ h => h.upd
    · exact h1.updCtx.foldl fun _ _ h => h.upd
  · refine State.Canon.freezeProgress ?_
    refine h.setCtx.foldl fun s x h2 => ?_
    split
    · exact h2.freezePart
    · exact h2.freezePart
    · exact h2
    · exact h2.updCtx.foldl fun _ _ h => h.upd
    · exact h2.updCtx.foldl fun _ _ h => h.upd

theorem State.Canon.resumeParts {s : State} {x : Nat} {m : BitVec 16} (h : s.Canon) : (s.resumeParts x m).Canon :=
  h.foldl fun _ _ h => h.resumePart

theorem State.Canon.beginResume {s : State} {x op : Nat} {named : BitVec 16} (h : s.Canon) : (s.beginResume x op named).Canon := by
  unfold State.beginResume
  dsimp only
  split
  · refine State.Canon.endRequest ?_
    refine State.Canon.resumeParts ?_
    refine State.Canon.updCtx ?_
    split
    · exact h.endRequest.foldl fun _ _ h => h.resumePart
    · exact h
  · refine State.Canon.foldl ?_ fun s x h' => ?_
    · refine State.Canon.updCtx ?_
      split
      · exact h.endRequest.foldl fun _ _ h => h.resumePart
      · exact h
    · exact h'.updCtx

theorem Issue.Canon.ctxstat {i : Issue} {o : RR} (h : i.Canon) : Ends Issue.Canon (i.ctxstat o) := by
  unfold Issue.ctxstat
  dsimp only
  refine h.rrG1.bind fun ⟨_, _⟩ h' => ?_
  split
  · exact Ends.illegalOperand
  · exact h'.resultG

theorem Issue.Canon.ctxfreeze {i : Issue} {o : RR} (h : i.Canon) : Ends Issue.Canon (i.ctxfreeze o) := by
  unfold Issue.ctxfreeze
  dsimp only
  refine h.rrG.bind fun ⟨_, _, _⟩ h' => ?_
  split
  · exact Ends.illegalOperand
  · split
    · exact Ends.illegalOperand
    · split
      · exact h'.resultG.after (fun _ h => h.beginFreeze)
      · exact h'.resultG

theorem Issue.Canon.ctxresume {i : Issue} {o : RR} (h : i.Canon) : Ends Issue.Canon (i.ctxresume o) := by
  unfold Issue.ctxresume
  dsimp only
  refine h.rrG.bind fun ⟨_, _, _⟩ h' => ?_
  split
  · exact Ends.illegalOperand
  · split
    · exact Ends.illegalOperand
    · split
      · exact h'.resultG.after (fun _ h => h.beginResume)
      · exact h'.resultG

theorem State.Canon.partFrozen {s : State} {x q : Nat} (h : s.Canon) : Steps (s.partFrozen x q) := by
  unfold State.partFrozen
  dsimp only
  split
  · split
    · split
      · trivial
      · exact State.Canon.freezeProgress (State.Canon.freezeGroups (h.updCtx.foldl fun _ _ h => h.upd))
    · split
      · trivial
      · exact State.Canon.freezeProgress (State.Canon.freezeGroups (h.updCtx.foldl fun _ _ h => h.upd))
  · split
    · trivial
    · exact State.Canon.freezeProgress (State.Canon.freezeGroups (h.updCtx.foldl fun _ _ h => h.upd))

theorem State.Canon.releasePart {s : State} {x q : Nat} {p : PartSt} (h : s.Canon) : (s.releasePart x q p).Canon :=
  State.Canon.updCtx (State.Canon.foldl (h.foldl fun _ _ h => h.setCore) fun _ _ h => h.setBar)

theorem State.Canon.keepCores {s : State} {x q : Nat} (h : s.Canon) : (s.keepCores x q).Canon :=
  h

theorem State.Canon.saveDone {s : State} {x : Nat} (h : s.Canon) : Steps (s.saveDone x) := by
  unfold State.saveDone
  dsimp only
  split
  · trivial
  · split
    · trivial
    · split
      · exact h.areaWaits
      · trivial
      · exact State.Canon.endRequest (State.Canon.updCtx (h.writeArea.writeValid.foldl fun _ _ h => h.keepCores.releasePart))

theorem State.Canon.drawBelow {s : State} {n : Nat} (h : s.Canon) : (s.drawBelow n).2.Canon :=
  h.draw

theorem State.Canon.saveFault {s : State} {x : Nat} (h : s.Canon) : Steps (s.saveFault x) := by
  unfold State.saveFault
  dsimp only
  split
  · trivial
  · split
    · trivial
    · split
      · exact State.Canon.endRequest (State.Canon.updCtx (State.Canon.foldl (h.writeArea.foldl fun _ _ h => h.updCtx) fun _ _ h => h.upd))
      · exact State.Canon.endRequest (State.Canon.updCtx
          (State.Canon.foldl (h.drawBelow.writeArea.foldl fun _ _ h => h.updCtx) fun _ _ h => h.upd))
      · exact State.Canon.endRequest (State.Canon.updCtx
          (State.Canon.foldl (h.drawBelow.writeArea.foldl fun _ _ h => h.updCtx) fun _ _ h => h.upd))

theorem State.Canon.restoreDone {s : State} {x : Nat} (h : s.Canon) : Steps (s.restoreDone x) := by
  unfold State.restoreDone
  dsimp only
  split
  · trivial
  · split
    · trivial
    · split
      · exact h.areaWaits
      · trivial
      · split
        · trivial
        · split
          · trivial
          · split
            · trivial
            · refine State.Canon.endRequest ?_
              refine State.Canon.updCtx ?_
              split
              · exact State.Canon.resumeParts (State.Canon.foldl (h.foldl fun _ _ h => h.restorePart.updCtx) fun _ _ h => h.freezeGroups)
              · exact State.Canon.foldl (h.foldl fun _ _ h => h.restorePart.updCtx) fun _ _ h => h.freezeGroups

theorem State.Canon.restoreFault {s : State} {x : Nat} (h : s.Canon) : Steps (s.restoreFault x) := by
  unfold State.restoreFault
  dsimp only
  split
  · trivial
  · split
    · trivial
    · split
      · exact State.Canon.endRequest (State.Canon.updCtx (h.foldl fun _ _ h => h.updCtx))
      · exact State.Canon.endRequest (State.Canon.updCtx (h.drawBelow.foldl fun _ _ h => h.updCtx))
      · split
        · exact State.Canon.endRequest (State.Canon.updCtx (h.foldl fun _ _ h => h.updCtx))
        · exact State.Canon.endRequest (State.Canon.updCtx (h.drawBelow.foldl fun _ _ h => h.updCtx))

theorem State.Canon.resumeReplay {s : State} {n : Nat} (h : s.Canon) : Steps (s.resumeReplay n) := by
  unfold State.resumeReplay
  dsimp only
  split
  · trivial
  · exact h.upd

end Sys2Proof.Machine
end

section
/-! The canonical form is kept by the weight version table and the partition. -/

namespace Sys2Proof.Machine

theorem State.Canon.leave {s : State} {n : Nat} {b : Bind} (h : s.Canon) : (s.leave n b).Canon := by
  unfold State.leave
  dsimp only
  split
  · exact h
  · split
    · exact h.slotLeft
    · exact h

theorem State.Canon.unbind {s : State} {n k : Nat} (h : s.Canon) : (s.unbind n k).Canon :=
  h

theorem Issue.Canon.leaving {i : Issue} {k : Nat} (h : i.Canon) : Ends Issue.Canon (i.leaving k) := by
  unfold Issue.leaving
  dsimp only
  split
  · exact h.withS h.state.unbind
  · split
    · split
      · exact Issue.Canon.withS h (State.Canon.unbind h.state)
      · exact Ends.wait
    · split
      · exact h.withS h.state.slotLeft.unbind
      · exact fun _ h' => h'

theorem State.Canon.releaseBinds {s : State} {n : Nat} (h : s.Canon) : (s.releaseBinds n).Canon :=
  State.Canon.upd (h.foldl fun _ _ h => h.leave)

theorem State.Canon.readerLeaves {s : State} {idx : Nat} (h : s.Canon) : Steps (s.readerLeaves idx) := by
  unfold State.readerLeaves
  split
  · trivial
  · split
    · trivial
    · dsimp only
      split
      · exact h.slotLeft
      · exact State.Canon.unbind h.slotLeft

theorem State.Canon.bind {s : State} {n k t : Nat} {token : Bool} (h : s.Canon) : (s.bind n k t token).2.Canon := by
  unfold State.bind
  dsimp only
  split
  · exact h
  · split
    · exact h
    · exact h.setTensor.upd.acquire

theorem Issue.Canon.wvbind {i : Issue} {o : RR} (h : i.Canon) : Ends Issue.Canon (i.wvbind o) := by
  unfold Issue.wvbind
  refine h.rrG1.bind fun ⟨_, j⟩ hj => Ends.of_ite trivial ?_
  dsimp only
  split
  · exact hj.leaving.bind fun _ hk => (hk.withS hk.state.bind).resultG
  · exact (hj.withS hj.state.bind).resultG

theorem Issue.Canon.wvunbind {i : Issue} {o : RR} (h : i.Canon) : Ends Issue.Canon (i.wvunbind o) := by
  unfold Issue.wvunbind
  dsimp only
  refine h.rrG1.bind fun ⟨_, _⟩ h' => ?_
  split
  · exact Ends.illegalOperand
  · split
    · exact h'.resultG
    · exact h'.leaving.bind fun _ h => h.resultG

theorem Issue.Canon.wvslot {i : Issue} {o : RR} (h : i.Canon) : Ends Issue.Canon (i.wvslot o) := by
  unfold Issue.wvslot
  dsimp only
  refine h.rrG1.bind fun ⟨_, _⟩ h' => ?_
  split
  · exact Ends.illegalOperand
  · split
    · exact h'.resultG
    · split
      · exact h'.resultG
      · split
        · exact h'.resultG
        · exact Ends.wait
      · exact (h'.withS h'.state.setTensor.acquire).resultG

theorem Issue.Canon.wvpublish {i : Issue} {o : RR} (h : i.Canon) : Ends Issue.Canon (i.wvpublish o) := by
  unfold Issue.wvpublish
  dsimp only
  refine h.rrG.bind fun ⟨_, _, _⟩ h1 => ?_
  split
  · exact Ends.illegalOperand
  · split
    · split
      · exact Issue.Canon.resultG (Issue.Canon.withS h1 h1.state)
      · exact Ends.wait
    · split
      · exact Ends.wait
      · split
        · exact h1.resultG
        · exact fun _ h2 => h2

theorem State.Canon.publishStep {s : State} {x t : Nat} (h : s.Canon) : Steps (s.publishStep x t) := by
  unfold State.publishStep
  dsimp only
  split
  · trivial
  · split
    · exact h.same rfl rfl
    · split
      · split
        · trivial
        · exact h.setTensor
      · exact (h.commitPages (clk := 0)).same rfl rfl

theorem Issue.Canon.wvread {i : Issue} {o : RR} (h : i.Canon) : Ends Issue.Canon (i.wvread o) := by
  unfold Issue.wvread
  dsimp only
  refine h.rrG1.bind fun ⟨_, _⟩ h' => ?_
  split
  · split
    · exact Ends.illegalOperand
    · exact h'.resultG
  · split
    · exact Ends.illegalOperand
    · exact h'.resultG

theorem State.Canon.repartFreeze {s : State} (h : s.Canon) : (s.repartFreeze).Canon := by
  unfold State.repartFreeze
  refine h.foldl fun s x h1 => ?_
  split
  · exact h1
  · refine h1.foldl fun s x h2 => ?_
    split
    · exact h2.freezePart.updCtx
    · exact h2

theorem State.Canon.writePart {s : State} {x : W64} (h : s.Canon) : (s.writePart x).Canon := by
  unfold State.writePart
  dsimp only
  split
  · exact h
  · split
    · exact h
    · exact State.Canon.repartFreeze h

theorem State.Canon.repartEnd {s : State} (h : s.Canon) : Steps s.repartEnd := by
  unfold State.repartEnd
  dsimp only
  split
  · trivial
  · split
    · exact h.repartFreeze
    · split
      · trivial
      · split
        · trivial
        · refine State.Canon.same (State.Canon.foldl (h.foldl fun _ _ h => h.foldl fun _ _ h => ?_) fun _ _ h => h.updCtx) rfl rfl
          split
          · exact h.resumePart
          · exact h

end Sys2Proof.Machine
end

section
/-! The canonical form is kept by kernels, groups and command graphs. -/

namespace Sys2Proof.Machine

theorem State.Canon.cpFault {s : State} {x : Nat} {va : W64} {kind need : Nat} {write : Bool} (h : s.Canon) :
    (s.cpFault x va kind need write).Canon :=
  h.postFault

theorem State.Canon.cpStores {s : State} {x clk : Nat} {l : List (W64 × W64)} (h : s.Canon) : Inl State.Canon (s.cpStores x clk l) := by
  induction l generalizing s with
  | nil => exact h
  | cons w t ih =>
    unfold State.cpStores
    split
    · exact ih h.timedStore
    · trivial

theorem State.Canon.cpAdd {s : State} {x clk : Nat} {va : W64} {v : Nat} (h : s.Canon) : Inl State.Canon (s.cpAdd x clk va v) := by
  unfold State.cpAdd
  split
  · exact h
  · split <;> try exact trivial
    · exact h.timedStore
    · exact h

theorem State.Canon.setGraph {s : State} {x g : Nat} {v : Graph} (h : s.Canon) : (s.setGraph x g v).Canon :=
  h

theorem State.Canon.addKernel {s : State} {v : Kernel} (h : s.Canon) : (s.addKernel v).Canon :=
  h

theorem State.Canon.queueDue {s : State} {x g : Nat} (h : s.Canon) : (s.queueDue x g).Canon := by
  unfold State.queueDue
  split
  · exact h
  · refine h.foldl fun s x h' => ?_
    refine State.Canon.addKernel ?_
    split
    · exact h'.setGraph
    · exact h'

theorem State.Canon.endNode {s : State} {k : Nat} {ok : Bool} {err : Nat} (h : s.Canon) : (s.endNode k ok err).Canon := by
  unfold State.endNode
  split
  · exact h
  · dsimp only
    split
    · split
      · rename_i he
        exact h.setKernel.cpAdd.inl_of he
      · exact h.setKernel.setKernel
    · split
      · exact h.setKernel
      · split
        · exact h.setKernel.setGraph.queueDue
        · exact h.setKernel.setGraph

theorem State.Canon.abortNode {s : State} {k err : Nat} (h : s.Canon) : (s.abortNode k err).Canon := by
  unfold State.abortNode
  dsimp only
  split
  · split
    · split
      · exact h.endNode.endNode
      · exact h.endNode
    · exact h.endNode
  · exact h.endNode

theorem State.Canon.kernelStop {s : State} {k : Nat} {row : String} {e : CpStop} (h : s.Canon) : Steps (s.kernelStop k row e) := by
  unfold State.kernelStop
  split
  · trivial
  · split <;> try exact trivial
    · split
      · trivial
      · exact h.cpFault.setKernel
    · exact h.hears.abortNode
    · exact h.abortNode

theorem State.Canon.readRecord {s : State} {k : Nat} {v : Kernel} (h : s.Canon) : Steps (s.readRecord k v) := by
  unfold State.readRecord
  dsimp only
  split
  · exact h.abortNode
  · split
    · split
      · exact h.abortNode
      · split
        · rename_i he
          exact (h.cpStores.inl_of he).setKernel
        · exact h.kernelStop
    · exact h.kernelStop

theorem State.Canon.startNode {s : State} {k : Nat} {v : Kernel} (h : s.Canon) : Steps (s.startNode k v) := by
  unfold State.startNode
  dsimp only
  split
  · exact h.abortNode
  · split
    · exact h.kernelStop
    · rename_i he
      split
      · exact (h.cpStores.inl_of he).setKernel.kernelSt
      · split
        · exact h.kernelStop
        · split
          · exact h.abortNode
          · split
            · exact h.kernelStop
            · exact (h.cpStores.inl_of he).setKernel.kernelSt.endNode
            · exact (h.cpStores.inl_of he).setKernel.kernelSt.addKernel

theorem State.Canon.recordRead {s : State} {k : Nat} (h : s.Canon) : Steps (s.recordRead k) := by
  unfold State.recordRead
  split
  · trivial
  · split
    · trivial
    · split
      · exact h.startNode
      · exact h.readRecord

theorem State.Canon.age {s : State} {k cycles : Nat} (h : s.Canon) : Steps (s.age k cycles) := by
  unfold State.age
  split
  · trivial
  · split
    · trivial
    · exact h.setKernel

theorem State.Canon.openPart {s : State} {x q : Nat} (h : s.Canon) : (s.openPart x q).Canon := by
  unfold State.openPart
  split
  · exact h.updCtx.loadCopy
  · exact h

theorem State.Canon.reserve {s : State} {k : Nat} {v : Kernel} {gidx : Nat} {cohort : Option Nat} {q : Nat} {ms : List Nat} (h : s.Canon) :
    (s.reserve k v gidx cohort q ms).Canon := by
  have hbars := h.openPart (x := v.ctx) (q := q)
  unfold State.reserve
  dsimp only
  exact State.Canon.same (hbars.foldl fun _ _ hs => hs.foldl fun _ _ hs => hs.setBar) rfl rfl

theorem State.Canon.placeKernel {s : State} {k : Nat} {v : Kernel} {l : List (Nat × List Nat)} (h : s.Canon) :
    (s.placeKernel k v l).Canon := by
  have hgroups (co : Option Nat) :
      State.Canon ((l.zip (List.range l.length)).foldl (fun s e => s.reserve k v (v.placed + e.2) co e.1.1 e.1.2) s) :=
    h.foldl fun _ _ hs => hs.reserve
  have hplaced {t : State} (ht : t.Canon) : State.Canon (if v.st = .queued then t.kernelSt k .placed else t) := by
    split
    · exact ht.kernelSt
    · exact ht
  unfold State.placeKernel
  dsimp only
  generalize (if v.lrec.csize = 0 then none else some s.nextCohort) = co
  refine hplaced (State.Canon.setKernel ?_)
  cases co with
  | none => exact hgroups none
  | some co =>
    dsimp only
    generalize List.take 4 _ = slots
    refine State.Canon.same ?_ rfl rfl
    exact (hgroups (some co)).foldl fun _ _ hs => hs.giveSlot

theorem State.Canon.groupPlace {s : State} {k : Nat} (h : s.Canon) : Steps (s.groupPlace k) := by
  unfold State.groupPlace
  dsimp only
  split
  · trivial
  · split
    · trivial
    · split
      · trivial
      · exact h.placeKernel

theorem State.Canon.groupLoaded {s : State} {gid : Nat} (h : s.Canon) : Steps (s.groupLoaded gid) := by
  unfold State.groupLoaded
  dsimp only
  split
  · trivial
  · split
    · trivial
    · split
      · trivial
      · exact State.Canon.tryRelease (State.Canon.setGroup (h.foldl fun _ _ h => h.setCore))

theorem State.Canon.releaseSlots {s : State} {j : Nat} (h : s.Canon) : (s.releaseSlots j).Canon := by
  unfold State.releaseSlots
  split
  · exact h
  · exact h.foldl fun _ _ h => h.barDo

theorem State.Canon.closePart {s : State} {x q : Nat} (h : s.Canon) : (s.closePart x q).Canon := by
  unfold State.closePart
  split
  · exact h
  · exact h.updCtx

theorem State.Canon.freeMembers {s : State} {gid : Nat} {g : Group} (h : s.Canon) : (s.freeMembers gid g).Canon :=
  State.Canon.foldl (h.foldl fun _ _ h => h.leaveKept) fun _ _ h => h.releaseBinds.setCore

theorem State.Canon.retireGroup {s : State} {gid : Nat} {g : Group} (h : s.Canon) : (s.retireGroup gid g).Canon := by
  unfold State.retireGroup
  extract_lets t s1 s2 s3
  have hs2 : s2.Canon := by
    dsimp only [s2]
    split
    · exact h.freeMembers.setGroup.setKernel
    · exact h.freeMembers.setGroup
  have hs3 : s3.Canon := by
    dsimp only [s3]
    split
    · exact hs2
    · split
      · exact .of_ite hs2.releaseSlots hs2
      · exact hs2
  exact hs3.closePart

theorem State.Canon.zeroBlocks {s : State} {x : Nat} {va : W64} {n : Nat} (h : s.Canon) : Inl State.Canon (s.zeroBlocks x va n) := by
  induction n generalizing s va with
  | zero => exact h
  | succ n ih =>
    unfold State.zeroBlocks
    split
    · exact ih h.engineBlock
    · trivial
    · exact ih h

theorem State.Canon.dropOwned {s : State} {x : Nat} {l : List Nat} (h : s.Canon) : Inl State.Canon (s.dropOwned x l) := by
  induction l generalizing s with
  | nil => exact h
  | cons e t ih =>
    unfold State.dropOwned
    split
    next he => exact ih (h.zeroBlocks.inl_of he).updCtx.markStore
    next => exact h.zeroBlocks

theorem State.Canon.membersLeave {s : State} {g : Group} {aborted : Bool} (h : s.Canon) : (s.membersLeave g aborted).Canon := by
  unfold State.membersLeave
  split
  · exact h
  · exact h.foldl fun _ _ h => h.leaveBarriers

theorem State.Canon.groupRetire {s : State} {gid : Nat} (h : s.Canon) : Steps (s.groupRetire gid) := by
  unfold State.groupRetire
  dsimp only
  split
  · trivial
  · split
    · trivial
    · split
      · rename_i he
        exact (h.dropOwned.inl_of he).membersLeave.retireGroup.freezeProgress
      · split
        · split
          · trivial
          · exact h.postFault.setGroup
        · trivial

theorem State.Canon.payOwed {s : State} {k : Nat} {v : Kernel} {row : String} (h : s.Canon) : Steps (s.payOwed k v row) := by
  unfold State.payOwed
  split
  · rename_i he
    exact (h.cpAdd.inl_of he).setKernel
  · exact h.kernelStop

theorem State.Canon.kernelComplete {s : State} {k : Nat} (h : s.Canon) : Steps (s.kernelComplete k) := by
  unfold State.kernelComplete
  dsimp only
  split
  · trivial
  · split
    · exact h.payOwed
    · split
      · trivial
      · split
        · rename_i he
          exact (h.cpAdd.inl_of he).endNode
        · exact h.kernelStop

theorem State.Canon.kernelAbort {s : State} {k : Nat} (h : s.Canon) : Steps (s.kernelAbort k) := by
  unfold State.kernelAbort
  split
  · trivial
  · split
    · exact h.payOwed
    · split
      · trivial
      · exact h.abortNode

theorem State.Canon.copyBlock {s : State} {x clk : Nat} {src dst : W64} (h : s.Canon) :
    Inl (fun p => p.1.Canon) (s.copyBlock x clk src dst) := by
  unfold State.copyBlock
  dsimp only
  split
  · split
    · exact h.blockWrite
    · trivial
  · split
    · exact h.blockWrite
    · trivial
  · trivial

theorem State.Canon.copyNode {s : State} {k : Nat} (h : s.Canon) : Steps (s.copyNode k) := by
  unfold State.copyNode
  dsimp only
  split
  · trivial
  · split
    · trivial
    · split
      · split
        · exact h.abortNode
        · split
          · exact h.endNode
          · split
            · rename_i he
              exact (h.copyBlock.inl_of he).setKernel
            · exact h.kernelStop
      · exact h.kernelStop

theorem State.Canon.contributions {s : State} {w own : Nat} {l : List TreeEntry} (h : s.Canon) : (s.contributions w own l).2.Canon := by
  induction l generalizing s with
  | nil => exact h
  | cons e t ih =>
    unfold State.contributions
    dsimp only
    split
    · exact ih h
    · exact ih h.draw

theorem State.Canon.treeElem {s : State} {t : Tree} {own : Nat} (h : s.Canon) : (s.treeElem t own).2.Canon :=
  h.contributions

theorem State.Canon.treeElems {s : State} {t : Tree} {l : List Nat} (h : s.Canon) : (s.treeElems t l).2.Canon := by
  induction l generalizing s with
  | nil => exact h
  | cons o l ih => exact ih h.treeElem

theorem State.Canon.sendUnit {s : State} {t : Tree} {k r : Nat} {bad : Bool} {ports : List Nat} (h : s.Canon) :
    (s.sendUnit t k r bad ports).Canon :=
  h.foldl fun _ _ h => h.queueFlit.queueFlit

theorem State.Canon.treeUnit {s : State} {t : Tree} {mode b : Nat} (h : s.Canon) : (s.treeUnit t mode b).2.Canon :=
  h.treeElems

theorem State.Canon.linkUnit {s : State} {t : Tree} {k x clk : Nat} {src dst : W64} (h : s.Canon) :
    Inl (fun p => p.1.Canon) (s.linkUnit t k x clk src dst) := by
  unfold State.linkUnit
  split
  · split
    · exact h.treeUnit.blockWrite.blockWrite.sendUnit
    · trivial
  · trivial

theorem State.Canon.linkUnits {s : State} {t : Tree} {k x : Nat} {src dst : W64} {n clk : Nat} (h : s.Canon) :
    Inl (fun p => p.1.Canon) (s.linkUnits t k x src dst n clk) := by
  induction n generalizing s src dst clk with
  | zero => exact h
  | succ n ih =>
    unfold State.linkUnits
    split
    next he => exact ih (h.linkUnit.inl_of he)
    next => trivial

theorem State.Canon.linkSends {s : State} {t : Tree} {k x : Nat} {src : W64} {n clk : Nat} (h : s.Canon) :
    Inl (fun p => p.1.Canon) (s.linkSends t k x src n clk) := by
  induction n generalizing s src clk with
  | zero => exact h
  | succ n ih =>
    unfold State.linkSends
    split
    · dsimp only
      split
      · exact ih h.sendUnit
      · exact ih h.treeUnit.sendUnit
    · trivial

theorem State.Canon.x1Reaches {s : State} {x : Nat} {va : W64} {write : Bool} {n : Nat} (h : s.Canon) :
    Inl State.Canon (s.x1Reaches x va write n) := by
  induction n generalizing va with
  | zero => exact h
  | succ n ih =>
    unfold State.x1Reaches
    split
    · exact ih
    · split
      · trivial
      · exact ih
    · trivial

theorem State.Canon.chunkDone {s : State} {k j : Nat} (h : s.Canon) : (s.chunkDone k j).Canon := by
  unfold State.chunkDone
  split
  · exact h
  · dsimp only
    split
    · split
      · exact h.setKernel.endNode
      · exact h.setKernel
    · split
      · exact h.setKernel.endNode
      · exact h.setKernel

theorem State.Canon.chunkFails {s : State} {k j : Nat} {v : Kernel} {t : Tree} {va : W64} (h : s.Canon) :
    (s.chunkFails k j v t va).Canon := by
  unfold State.chunkFails
  dsimp only
  split
  · exact h.setKernel
  · exact h.setKernel.draw.report

theorem State.Canon.chunkStop {s : State} {k j src : Nat} {v : Kernel} {t : Tree} {e : CpStop} (h : s.Canon) :
    Steps (s.chunkStop k j src v t e) := by
  unfold State.chunkStop
  dsimp only
  split <;> try exact trivial
  · split
    · trivial
    · exact h.postFault.setKernel
  · exact h.hears.abortNode
  · exact h.chunkFails

theorem State.Canon.executorMoved {s : State} {k : Nat} {o : ChunkOp} (h : s.Canon) : IfSome State.Canon (s.executorMoved k o) := by
  unfold State.executorMoved
  split
  · trivial
  · dsimp only
    split
    · exact h.setKernel
    · trivial

theorem State.Canon.chunkOp {s : State} {k j : Nat} (h : s.Canon) : Steps (s.chunkOp k j) := by
  unfold State.chunkOp
  dsimp only
  split
  · trivial
  · split
    · trivial
    next v _ _ o _ =>
      refine Steps.of_ite trivial (Steps.of_ite ?_ (Steps.of_ite h.chunkFails ?_))
      · have hfirst : Inl State.Canon (if o.op = 1 then s.x1Reaches v.ctx o.src false o.len else s.x1Reaches v.ctx o.dst true o.len) := by
          split
          · exact h.x1Reaches
          · exact h.x1Reaches
        generalize (if o.op = 1 then _ else _) = r at hfirst ⊢
        cases r with
        | inr e => exact h.chunkStop
        | inl t =>
          have hboth : Inl State.Canon (if o.op = 3 then t.x1Reaches v.ctx o.dst false o.len else .inl t) := by
            split
            · exact State.Canon.x1Reaches hfirst
            · exact hfirst
          dsimp only
          generalize (if o.op = 3 then _ else _) = r at hboth ⊢
          cases r with
          | inr e => exact h.chunkStop
          | inl t =>
            dsimp only
            split
            next he => exact ((State.Canon.executorMoved hboth).some_of he).setKernel.chunkDone
            next => trivial
      · have hunits : Inl (fun p => p.1.Canon) (if o.op = 4 then s.linkSends (s.tree o.peer) o.peer v.ctx o.src o.len v.time
            else s.linkUnits (s.tree o.peer) o.peer v.ctx o.src o.dst o.len v.time) := by
          split
          · exact h.linkSends
          · exact h.linkUnits
        generalize (if o.op = 4 then _ else _) = r at hunits ⊢
        cases r with
        | inl p => exact State.Canon.chunkDone (State.Canon.setKernel hunits)
        | inr e => exact h.chunkStop

theorem State.Canon.askReplay {s : State} {x g : Nat} {counter : W64} (h : s.Canon) : (s.askReplay x g counter).2.Canon := by
  unfold State.askReplay
  split
  · exact h
  · split
    · exact h
    · exact h.setGraph

theorem State.Canon.replayBegin {s : State} {x g : Nat} (h : s.Canon) : Steps (s.replayBegin x g) := by
  unfold State.replayBegin
  dsimp only
  split
  · trivial
  · split
    · exact h.setGraph.queueDue
    · trivial

theorem State.Canon.replayEnd {s : State} {x g : Nat} (h : s.Canon) : Steps (s.replayEnd x g) := by
  have hplaces {l : List (W64 × EngAt × Nat)} : State.Canon (l.foldl (fun s p => match p.2.1 with
      | .go pa => s.engineStore pa 4 p.2.2
      | _ => s) s) := by
    refine h.foldl fun _ _ hs => ?_
    split
    · exact hs.engineStore
    · exact hs
  unfold State.replayEnd
  dsimp only
  split
  · trivial
  · refine Steps.of_ite trivial ?_
    split
    · exact Steps.of_ite trivial h.cpFault.setGraph
    · trivial
    · split
      next t he =>
        have ht : t.Canon := (State.Canon.cpAdd hplaces).inl_of he
        exact ht.setGraph
      next =>
        split
        · exact Steps.of_ite trivial h.cpFault.setGraph
        · trivial

theorem Ends.graphOf {i : Issue} {x : W64} {mask : Nat} : Ends (fun _ => True) (i.graphOf x mask) := by
  unfold Issue.graphOf
  split
  · trivial
  · split <;> trivial

theorem Issue.Canon.gpset {i : Issue} {o : RR} (h : i.Canon) : Ends Issue.Canon (i.gpset o) := by
  unfold Issue.gpset
  dsimp only
  refine h.rrG.bind fun ⟨_, _, _⟩ h' => ?_
  split
  · exact Ends.illegalOperand
  · exact Ends.graphOf.bind fun ⟨_, _, _⟩ _ => h'.withS h'.state.setGraph

theorem Issue.Canon.gpget {i : Issue} {o : RR} (h : i.Canon) : Ends Issue.Canon (i.gpget o) :=
  h.rrG1.bind fun ⟨_, _⟩ h' => Ends.graphOf.bind fun ⟨_, _, _⟩ _ => h'.resultG

theorem Issue.Canon.glaunch {i : Issue} {o : RR} (h : i.Canon) : Ends Issue.Canon (i.glaunch o) := by
  unfold Issue.glaunch
  dsimp only
  refine h.rrG.bind fun ⟨_, _, _⟩ h' => ?_
  split
  · exact Ends.illegalOperand
  · exact (h'.withS h'.state.askReplay).resultG

theorem Issue.Canon.kdone {i : Issue} {o : RR} (h : i.Canon) : Ends Issue.Canon (i.kdone o) := by
  unfold Issue.kdone
  dsimp only
  split
  · exact h.resultG
  · split
    · exact h.resultG
    · split
      · exact h.resultG
      · split
        · exact h.resultG
        · split
          · exact Ends.wait
          · exact (h.withS h.state.setKernel).resultG

end Sys2Proof.Machine
end

section
/-! The canonical form is kept by system registers. -/

namespace Sys2Proof.Machine

theorem Issue.Canon.srd {i : Issue} {d : BitVec 6} {r : Nat} (h : i.Canon) : Ends Issue.Canon (i.srd d r) := by
  unfold Issue.srd
  split
  · exact Ends.illegalOperand
  · refine Issue.Canon.resultG ?_
    split
    · exact h.upd
    · exact h

theorem Issue.Canon.writeLctl {i : Issue} {x : W64} (h : i.Canon) : Ends Issue.Canon (i.writeLctl x) := by
  unfold Issue.writeLctl
  dsimp only
  split
  · exact Ends.illegalOperand
  · exact h.afterCore

theorem Issue.Canon.writeLstat {i : Issue} {n : Nat} {x : W64} (h : i.Canon) : Ends Issue.Canon (i.writeLstat n x) := by
  unfold Issue.writeLstat
  split
  · exact Ends.illegalOperand
  · exact h.afterCore

theorem Issue.Canon.writeLscale {i : Issue} {x : W64} (h : i.Canon) : Ends Issue.Canon (i.writeLscale x) := by
  unfold Issue.writeLscale
  dsimp only
  split
  · exact h.afterCore
  · exact Ends.illegalOperand

theorem Issue.Canon.writePriv {i : Issue} {f : State → State} (h : i.Canon) (hf : Keeps f) : Ends Issue.Canon (i.writePriv f) := by
  unfold Issue.writePriv
  split
  · exact h.after hf
  · trivial

theorem State.Canon.writeAdopt {s : State} {x : W64} (h : s.Canon) : (s.writeAdopt x).Canon :=
  h.updCtx

theorem State.Canon.writeKvpol {s : State} {x : W64} (h : s.Canon) : (s.writeKvpol x).Canon :=
  h.updCtx

theorem Issue.Canon.swr {i : Issue} {r : Nat} {x : W64} (h : i.Canon) : Ends Issue.Canon (i.swr r x) := by
  unfold Issue.swr
  split
  · exact Ends.illegalOperand
  · split
    · exact h.afterCore
    · exact h.writeLctl
    · exact h.writeLscale
    · exact h.afterCore
    · exact h.afterCore
    · exact h.afterCore
    · exact h.afterCore
    · exact h.afterCore
    · exact h.afterCore
    · exact h.writePriv (fun _ h => h.writeAdopt)
    · exact h.writePriv (fun _ h => h.writePart)
    · exact h.writePriv (fun _ h => h.writeKvpol)
    · split
      · exact h.writeLstat
      · split
        · exact h.afterCore
        · exact h

theorem Issue.Canon.swrFrom {i : Issue} {r : Nat} {src : BitVec 6} (h : i.Canon) : Ends Issue.Canon (i.swrFrom r src) :=
  h.swr

end Sys2Proof.Machine
end

section
/-! The canonical form is kept by the recorder, the sampling service and KV commits. -/

namespace Sys2Proof.Machine

theorem Issue.Canon.trjrec {i : Issue} {o : RR} (h : i.Canon) : Ends Issue.Canon (i.trjrec o) := by
  unfold Issue.trjrec
  dsimp only
  refine h.rrG.bind fun ⟨_, _, _⟩ h1 => ?_
  split
  · exact Ends.illegalOperand
  · refine h1.command.bind fun _ h2 => ?_
    split
    · exact fun _ h => h.upd
    · exact h2.upd

theorem State.Canon.setRing {s : State} {x : Nat} {r : Ring} (h : s.Canon) : (s.setRing x r).Canon :=
  h.updCtx

theorem State.Canon.recordStore {s : State} {pa v : Nat} (h : s.Canon) : (s.recordStore pa v).Canon :=
  h.engineStore.putTag

theorem State.Canon.trrStep {s : State} {n k : Nat} {e : IfrEntry} (h : s.Canon) : (s.trrStep n k e).Canon := by
  unfold State.trrStep
  dsimp only
  split
  · trivial
  · split <;> try exact trivial
    exact h.asyncStore.putTag.freeCommand

theorem State.Canon.slotGrant {s : State} {n : Nat} (h : s.Canon) : Steps (s.slotGrant n) := by
  unfold State.slotGrant
  dsimp only
  split
  · trivial
  · refine Steps.of_ite trivial ?_
    split
    · generalize s.rd _ 8 = g
      refine Steps.of_ite trivial ?_
      exact State.Canon.upd h.engineStore.setRing
    · refine Steps.of_ite trivial ?_
      exact State.Canon.setRing h.postFault
    · trivial

theorem State.Canon.voidWrite {s : State} {idx : Nat} (h : s.Canon) : Steps (s.voidWrite idx) := by
  have hskip {t : State} (ht : t.Canon) {l : List VoidRun} : Steps (.next { t with voids := l }) := ht.same rfl rfl
  unfold State.voidWrite
  dsimp only
  split
  · trivial
  · split
    · exact hskip h
    · split
      · exact Steps.of_ite trivial (hskip h.postFault)
      · exact Steps.of_ite trivial (hskip h.postFault)
      · trivial
      · trivial
      · exact Steps.of_ite (hskip h) (hskip h.recordStore.engineStore.setRing)
      · exact hskip h

theorem State.Canon.setSample {s : State} {i : Nat} {b : SampleBlk} (h : s.Canon) : (s.setSample i b).Canon :=
  h

theorem State.Canon.kioskBlocks {b : SampleBlk} {n : Nat} {va : W64} {s : State} (h : s.Canon) :
    Inl (fun p => p.2.Canon) (State.kioskBlocks b n va s) := by
  induction n generalizing s va with
  | zero => exact h
  | succ n ih =>
    unfold State.kioskBlocks
    split
    · dsimp only
      split
      next he =>
        have hs := (ih h.homeLoad).inl_of he
        exact hs
      next => exact ih h.homeLoad
    · trivial

theorem State.Canon.sampleEnd {s : State} {i : Nat} {b : SampleBlk} (h : s.Canon) : (s.sampleEnd i b).Canon := by
  unfold State.sampleEnd
  refine State.Canon.setSample ?_
  split
  · exact h.coreStore
  · exact h

theorem State.Canon.sampleStop {s : State} {i : Nat} {b : SampleBlk} {row : String} {va : W64} {at' : EngAt} {need : Nat} {write : Bool}
    (h : s.Canon) :
    Steps (s.sampleStop i b row va at' need write) := by
  unfold State.sampleStop
  split <;> try exact trivial
  · split
    · trivial
    · exact h.postFault.setSample
  · exact h.sampleEnd

theorem State.Canon.sampleRead {s : State} {b : SampleBlk} (h : s.Canon) : Inl (fun p => p.2.Canon) (s.sampleRead b) := by
  unfold State.sampleRead
  split
  · rename_i he
    exact h.kioskBlocks.inl_of he
  · trivial

theorem State.Canon.samplePoll {s : State} {i : Nat} (h : s.Canon) : Steps (s.samplePoll i) := by
  unfold State.samplePoll
  dsimp only
  split
  · trivial
  · split
    · trivial
    · split
      · exact h.sampleStop
      · rename_i he
        split
        · exact (h.sampleRead.inl_of he).sampleEnd
        · split <;> exact (h.sampleRead.inl_of he).setSample

theorem State.Canon.samplingPoll {s : State} {ev : SampleEv} (h : s.Canon) : Steps (s.samplingPoll ev) := by
  unfold State.samplingPoll
  dsimp only
  split
  · exact h.samplePoll
  · split
    · exact h
    · trivial
  · split
    · trivial
    · exact h

theorem State.Canon.tokenReady {s : State} {b : SampleBlk} {token : Nat} (h : s.Canon) : IfSome State.Canon (s.tokenReady b token) := by
  unfold State.tokenReady
  split
  · trivial
  · exact h.barDo

theorem State.Canon.samplePick {s : State} {i : Nat} {b : SampleBlk} {d : BitVec 512} (h : s.Canon) : Steps (s.samplePick i b d) := by
  unfold State.samplePick
  dsimp only
  split
  · exact h.sampleEnd
  · split
    · exact h.sampleStop
    · rename_i he
      split
      · exact (h.kioskBlocks.inl_of he).sampleEnd
      · split
        · split
          · rename_i he'
            exact (((h.kioskBlocks.inl_of he).draw.draw.draw.coreStore.tokenReady.some_of he')).setSample
          · exact (h.kioskBlocks.inl_of he).draw.draw.draw.coreStore.sampleEnd
        · exact (h.kioskBlocks.inl_of he).sampleStop

theorem State.Canon.samplingPhase {s : State} {i : Nat} (h : s.Canon) : Steps (s.samplingPhase i) := by
  unfold State.samplingPhase
  dsimp only
  split
  · trivial
  · split
    · trivial
    · split
      · exact h.sampleStop
      · rename_i he
        split
        · exact (h.sampleRead.inl_of he).sampleEnd
        · split
          · exact (h.sampleRead.inl_of he).sampleEnd
          · split
            · trivial
            · split
              · exact (h.sampleRead.inl_of he).acquire.samplePick
              · exact (h.sampleRead.inl_of he).sampleEnd

theorem State.Canon.markStoreBy {s : State} {n x e0 clk : Nat} (h : s.Canon) : (s.markStoreBy n x e0 clk).Canon :=
  h.markStore.upd

theorem Ends.kvReady {i : Issue} : Ends (fun _ => True) (i.kvReady) := by
  unfold Issue.kvReady
  split <;> trivial

theorem Issue.Canon.confx {i : Issue} {o : RR} (h : i.Canon) : Ends Issue.Canon (i.confx o) := by
  unfold Issue.confx
  refine h.rrG.bind fun ⟨_, _, _⟩ h' => ?_
  refine Ends.kvReady.bind fun _ _ => ?_
  split
  · exact Ends.illegalOperand
  · dsimp only
    split
    · exact h'.resultG
    · split
      · exact Ends.wait
      · split
        · exact h'.resultG
        · split
          · exact h'.resultG
          · exact (h'.withS h'.state.updCtx.markStoreBy.upd).resultG

theorem Issue.Canon.kvmode {i : Issue} {o : RR} (h : i.Canon) : Ends Issue.Canon (i.kvmode o) := by
  unfold Issue.kvmode
  refine h.rrG.bind fun ⟨_, _, _⟩ h' => ?_
  refine Ends.kvReady.bind fun _ _ => ?_
  dsimp only
  split
  · split
    · exact Ends.illegalOperand
    · split
      · exact h'.resultG
      · exact (h'.withS h'.state.updCtx).resultG
  · split
    · exact Ends.illegalOperand
    · exact h'.resultG
  · split
    · exact Ends.illegalOperand
    · split
      · exact Ends.illegalOperand
      · split
        · exact h'.resultG
        · split
          · exact h'.resultG
          · exact (h'.withS h'.state.updCtx.markStoreBy).resultG
  · split
    · exact Ends.illegalOperand
    · split
      · exact h'.resultG
      · split <;> exact h'.resultG
  · exact Ends.illegalOperand

theorem Issue.Canon.commitBlocks {i : Issue} {va : W64} {n : Nat} (h : i.Canon) : Ends (fun p => p.2.Canon) (i.commitBlocks va n) := by
  induction n generalizing i va with
  | zero => exact h
  | succ n ih =>
    unfold Issue.commitBlocks
    refine Ends.examine.bind fun p _ => ?_
    split
    · trivial
    · exact h.readAt.bind fun ⟨_, _⟩ hj => Ends.of_ite trivial ((ih hj).bind fun ⟨_, _⟩ hk => hk)

theorem Issue.Canon.kvcommit {i : Issue} {o : RR} (h : i.Canon) : Ends Issue.Canon (i.kvcommit o) := by
  unfold Issue.kvcommit
  dsimp only
  refine h.rrG1.bind fun ⟨_, _⟩ h1 => ?_
  refine Ends.kvReady.bind fun _ _ => ?_
  split
  · refine h1.commitBlocks.bind fun ⟨_, _⟩ h2 => ?_
    split
    · exact Ends.wait
    · refine h2.commitBlocks.bind fun ⟨_, _⟩ h3 => ?_
      split
      · exact h3.resultG
      · exact Issue.Canon.resultG (Issue.Canon.withS h3 (State.Canon.upd h3.state))
  · exact Ends.illegalOperand

theorem State.Canon.unitAdd {s : State} {x need : Nat} {va : W64} {v : Nat} (h : s.Canon) : Inl State.Canon (s.unitAdd x need va v) := by
  unfold State.unitAdd
  split
  · exact h
  · split <;> try exact trivial
    · exact h.timedStore
    · exact h

theorem State.Canon.commitStop {s : State} {i : Nat} {c : KvCommit} {row : String} {e : CpStop} (h : s.Canon) :
    Steps (s.commitStop i c row e) := by
  unfold State.commitStop
  split <;> try exact trivial
  split
  · trivial
  · exact h.postFault

theorem State.Canon.commitEnds {s : State} {i : Nat} {c : KvCommit} {row : String} (h : s.Canon) : Steps (s.commitEnds i c row) := by
  unfold State.commitEnds
  split
  next t he =>
    have ht : t.Canon := h.unitAdd.inl_of he
    exact ht.same rfl rfl
  next => exact h.commitStop

/-- The translation of an address and the write of a block stand as opaque functions here: evaluated on the addresses of KV entries they are
too long for the kernel. -/
theorem State.Canon.compact {s : State} {i : Nat} (h : s.Canon) : Steps (s.compact i) := by
  have hwrite (clk pa : Nat) (d : BitVec 512) (t : BitVec 16) : (s.blockWrite clk pa d t).1.Canon := h.blockWrite
  unfold State.compact
  obtain ⟨place, hplace⟩ := exists_eq (a' := State.placeAt)
  obtain ⟨write, heq⟩ := exists_eq (a' := State.blockWrite)
  rw [← hplace, ← heq]
  rw [← heq] at hwrite
  dsimp only
  split
  · trivial
  · split
    · trivial
    · split
      · split
        · exact (hwrite _ _ _ _).same rfl rfl
        · exact h.commitEnds
        · exact h.commitEnds
        · exact h.commitStop
      · split
        · exact (hwrite _ _ _ _).same rfl rfl
        · exact h.commitEnds
        · exact h.commitEnds
        · exact h.commitStop
      · exact h.commitEnds
      · exact h.commitStop

theorem State.Canon.commitMarks {s : State} {i : Nat} {c : KvCommit} (h : s.Canon) : (s.commitMarks i c).Canon := by
  unfold State.commitMarks
  dsimp only
  refine State.Canon.same ?_ rfl rfl
  split
  · exact h.same rfl rfl
  · exact h.same rfl rfl

theorem State.Canon.commitPoint {s : State} {i : Nat} (h : s.Canon) : Steps (s.commitPoint i) := by
  unfold State.commitPoint
  dsimp only
  split
  · trivial
  · refine Steps.of_ite trivial ?_
    next c _ =>
      have hmarked : State.Canon (if c.marked then s else s.commitMarks i c) := by
        split
        · exact h
        · exact h.commitMarks
      generalize (if c.marked then s else s.commitMarks i c) = t at hmarked ⊢
      split
      next u he =>
        have hu : u.Canon := hmarked.unitAdd.inl_of he
        exact hu.same rfl rfl
      next =>
        split
        · exact hmarked.commitStop
        · exact hmarked

theorem Issue.Canon.bfpost {i : Issue} {o : RR} (h : i.Canon) : Ends Issue.Canon (i.bfpost o) :=
  h.rrG1.bind fun ⟨_, _⟩ h' => Ends.range.bind fun _ _ => h'.command

theorem State.Canon.jobStep {s : State} {n k : Nat} {e : IfrEntry} (h : s.Canon) : (s.jobStep n k e).Canon := by
  unfold State.jobStep
  dsimp only
  split
  · trivial
  · split <;> try exact trivial
    split
    · trivial
    · split
      · exact h.updEntry
      · split
        · split
          · exact h.freeCommand
          · split
            · trivial
            · split
              · trivial
              · exact State.Canon.freeCommand h
        · split
          · exact h.freeCommand
          · split
            · trivial
            · split
              · trivial
              · exact State.Canon.freeCommand h

theorem State.Canon.setJob {s : State} {i : Nat} {j : Job} (h : s.Canon) : (s.setJob i j).Canon :=
  h

theorem State.Canon.dropJob {s : State} {i : Nat} (h : s.Canon) : (s.dropJob i).Canon :=
  h

theorem State.Canon.dispatch {s : State} (h : s.Canon) : Steps (s.dispatch) := by
  unfold State.dispatch
  split
  · trivial
  · exact h.setJob.addKernel

theorem State.Canon.markPlain {s : State} {x : Nat} {l : List Nat} (h : s.Canon) : (s.markPlain x l).Canon := by
  unfold State.markPlain
  dsimp only
  split
  · exact h.updCtx.markStore
  · exact h.updCtx

theorem State.Canon.jobStop {s : State} {i : Nat} {j : Job} {row : String} {e : CpStop} (h : s.Canon) : Steps (s.jobStop i j row e) := by
  unfold State.jobStop
  split <;> try exact trivial
  split
  · trivial
  · exact h.postFault.setJob

theorem State.Canon.jobAdd {s : State} {i : Nat} {j : Job} {row : String} {v : Nat} (h : s.Canon) : Steps (s.jobAdd i j row v) := by
  unfold State.jobAdd
  split
  · rename_i he
    exact (h.unitAdd.inl_of he).dropJob
  · split
    · exact h.jobStop
    · exact h

theorem State.Canon.jobComplete {s : State} {i : Nat} (h : s.Canon) : Steps (s.jobComplete i) := by
  unfold State.jobComplete
  dsimp only
  split
  · trivial
  · split
    · trivial
    · split
      · trivial
      · refine State.Canon.jobAdd ?_
        split
        · exact h
        · exact h.markPlain.setJob

theorem State.Canon.poisonBlocks {s : State} {x : Nat} {va : W64} {n : Nat} (h : s.Canon) : Inl State.Canon (s.poisonBlocks x va n) := by
  induction n generalizing s va with
  | zero => exact h
  | succ n ih =>
    unfold State.poisonBlocks
    split
    · exact ih h.writeTime.putTag
    · trivial
    · exact ih h

theorem State.Canon.poisonEntries {s : State} {x : Nat} {l : List Nat} (h : s.Canon) : Inl State.Canon (s.poisonEntries x l) := by
  induction l generalizing s with
  | nil => exact h
  | cons e t ih =>
    unfold State.poisonEntries
    split
    next he => exact ih (h.poisonBlocks.inl_of he)
    next => exact h.poisonBlocks

theorem State.Canon.jobAbort {s : State} {i : Nat} (h : s.Canon) : Steps (s.jobAbort i) := by
  unfold State.jobAbort
  dsimp only
  split
  · trivial
  · split
    · trivial
    · split
      · trivial
      · split
        · exact h.jobAdd
        · split
          · exact h.jobStop
          · rename_i he
            exact (h.poisonEntries.inl_of he).markPlain.setJob.jobAdd

end Sys2Proof.Machine
end

section
/-! The canonical form is kept by the events of commands in flight. -/

namespace Sys2Proof.Machine

theorem State.Canon.engNext {s : State} {n k : Nat} {e : IfrEntry} (h : s.Canon) : (s.engNext n k e).Canon := by
  unfold State.engNext
  split
  · exact h.amoStep
  · exact h.relStep
  · split
    · exact h.nmEnd
    · exact h.nmStep
  · exact h.trrStep
  · exact h.jobStep
  · split
    · split
      · exact h.completeStep
      · exact h.copyStep
    · trivial

theorem State.Canon.engEvent {s : State} {n k : Nat} {e : IfrEntry} {row : String} {o : EngOut} (h : s.Canon) (ho : o.Canon) :
    Steps (s.engEvent n k e row o) := by
  unfold State.engEvent
  refine Steps.of_ite trivial ?_
  cases o with
  | done t => exact State.Canon.entrySent ho
  | absent va kd need write => exact Steps.of_ite trivial h.postFault.updEntry
  | outside va => exact h.abortFrom
  | bad | hold | fail => trivial

theorem State.Canon.engRow {s : State} {n k : Nat} {row : String} {want : IfrEntry → Bool} (h : s.Canon) :
    Steps (s.engRow n k row want) := by
  unfold State.engRow
  split
  · split
    · exact h.engEvent h.engNext
    · trivial
  · trivial

theorem State.Canon.endError {s : State} {n k cause : Nat} (h : s.Canon) : Steps (s.endError n k cause) := by
  unfold State.endError
  dsimp only
  split
  · trivial
  · split
    · trivial
    · split
      · split
        · trivial
        · split
          · exact h.updEntry
          · refine State.Canon.report ?_
            split
            · exact h.tileChange.upd
            · exact h.tileChange
      · trivial

theorem State.Canon.engResume {s : State} {n k : Nat} (h : s.Canon) : Steps (s.engResume n k) := by
  unfold State.engResume
  dsimp only
  split
  · trivial
  · split
    · trivial
    · split
      · split
        · trivial
        · exact h.updEntry
      · exact h.updEntry

theorem State.Canon.answerCame {s : State} {n k : Nat} (h : s.Canon) : (s.answerCame n k).Canon :=
  h.upd

theorem State.Canon.answerRead {s : State} {n k line : Nat} {v : W64} (h : s.Canon) : (s.answerRead n k line v).Canon :=
  h

theorem State.Canon.answerBare {s : State} {n k : Nat} (h : s.Canon) : (s.answerBare n k).Canon :=
  h

theorem State.Canon.requestRead {s : State} {n k : Nat} {e : IfrEntry} (h : s.Canon) : Steps (s.requestRead n k e) := by
  unfold State.requestRead
  dsimp only
  split
  · trivial
  · split
    · exact h.probe.answerRead
    · split
      · exact h.answerBare
      · split
        · split
          · split
            · exact h.answerBare
            · exact h.homeLoad.readMark.answerRead
          · split
            · exact h.answerBare
            · exact h.homeLoad.readMark.answerRead
        · trivial
        · exact h.answerBare

theorem State.Canon.requestAnswer {s : State} {n k : Nat} (h : s.Canon) : Steps (s.requestAnswer n k) := by
  unfold State.requestAnswer
  dsimp only
  split
  · split
    · exact h.answerCame
    · trivial
  · split
    · trivial
    · split
      · split
        · refine State.Canon.freeCommand ?_
          split
          · exact h.tileDone
          · exact h
        · trivial
      · exact h.requestRead

theorem State.Canon.atomicAtHome {s : State} {n k : Nat} (h : s.Canon) : Steps (s.atomicAtHome n k) :=
  h.engRow

theorem State.Canon.sendLand {s : State} {n k : Nat} (h : s.Canon) : Steps (s.sendLand n k) := by
  unfold State.sendLand
  split
  · trivial
  · split
    · exact h.landSend
    · trivial

theorem State.Canon.fenceClear {s : State} {n : Nat} (h : s.Canon) : Steps (s.fenceClear n) := by
  unfold State.fenceClear
  dsimp only
  split
  · trivial
  · exact h.setCore

theorem State.Canon.nmGroup {s : State} {n k : Nat} {unc : Bool} (h : s.Canon) : Steps (s.nmGroup n k unc) := by
  unfold State.nmGroup
  dsimp only
  split
  · trivial
  · split
    · trivial
    · exact h.engEvent h.nmStep

end Sys2Proof.Machine
end

section
/-! The canonical form is kept by ports, flits and reduction trees. -/

namespace Sys2Proof.Machine

theorem State.Canon.portEvent {s : State} {p : Nat} {row : String} {ok : PortSt → Bool} {f : State → State} (h : s.Canon) (hf : Keeps f) :
    Steps (s.portEvent p row ok f) := by
  unfold State.portEvent
  split
  · exact hf _ h
  · trivial

theorem State.Canon.trained {s : State} {p peer : Nat} {st : PortSt} (h : s.Canon) : (s.trained p peer st).Canon :=
  h

theorem State.Canon.trainFailed {s : State} {p : Nat} (h : s.Canon) : (s.trainFailed p).Canon :=
  h

theorem State.Canon.bulkWrite {s : State} {p : Nat} {f : Flit} (h : s.Canon) : (s.bulkWrite p f).Canon := by
  unfold State.bulkWrite
  split
  · exact h.sendControl
  · split
    · exact h.writeTime.putBlock.setPort
    · exact h.sendControl

theorem State.Canon.controlCame {s : State} {p : Nat} {f : Flit} (h : s.Canon) : (s.controlCame p f).Canon := by
  unfold State.controlCame
  dsimp only
  split
  · exact h.freeTree
  · split <;> exact h

theorem State.Canon.flitCame {s : State} {p : Nat} {f : Flit} (h : s.Canon) : (s.flitCame p f).Canon := by
  unfold State.flitCame
  dsimp only
  split
  · exact h
  · split
    · exact h.setPort.bulkWrite
    · split
      · exact h.setPort.controlCame
      · exact h.setPort

theorem State.Canon.linkEvent {s : State} {p c x : Nat} {va : BitVec 64} {d : BitVec 512} {tag : BitVec 16} {e : LinkEv} (h : s.Canon) :
    Steps (s.linkEvent p c x va d tag e) := by
  unfold State.linkEvent
  dsimp only
  split
  · trivial
  · split
    · split
      · exact h.flitCame
      · trivial
    · split
      · exact h.setPort
      · trivial
    · exact h.setPort
    · split
      · exact h.setPort
      · trivial
    · split
      · exact h.setPort
      · trivial

theorem State.Canon.treeAnswer {s : State} {i : Nat} {r : TreeReq} {w : W64} (h : s.Canon) : (s.treeAnswer i r w).Canon := by
  unfold State.treeAnswer
  dsimp only
  split <;> exact h

theorem State.Canon.reserveTree {s : State} {k : Nat} {ask : TreeAsk} {t : Tree} (h : s.Canon) : Steps (s.reserveTree k ask t) := by
  unfold State.reserveTree
  dsimp only
  split
  · trivial
  · split
    · split
      · trivial
      · split
        · exact h.sendControl
        · exact h.setTree.sendControl
    · split
      · trivial
      · split
        · trivial
        · exact State.Canon.tellTree (State.Canon.setTree h)

theorem State.Canon.reserveAnswer {s : State} {k status idx : Nat} (h : s.Canon) : Steps (s.reserveAnswer k status idx) := by
  unfold State.reserveAnswer
  extract_lets no t shut
  refine Steps.of_ite trivial (Steps.of_ite ?_ ?_)
  · split
    · exact Steps.of_ite trivial h.treeAnswer
    · trivial
  · refine Steps.of_ite trivial ?_
    split
    extract_lets s1 s2
    have hs2 : s2.Canon := .of_ite h.setTree (State.Canon.tellTree h.setTree)
    split
    · exact hs2.treeAnswer
    · exact hs2

theorem Issue.Canon.lktree {i : Issue} {o : RR} (h : i.Canon) : Ends Issue.Canon (i.lktree o) := by
  unfold Issue.lktree
  dsimp only
  refine h.rrG.bind fun ⟨_, _, _⟩ h1 => ?_
  split
  · exact Ends.illegalOperand
  · split
    · exact Issue.Canon.resultG (Issue.Canon.withS h1 h1.state)
    · split
      · exact Ends.wait
      · refine h1.commitBlocks.bind fun ⟨_, _⟩ h2 => ?_
        split
        · exact h2.resultG
        · refine h2.commitBlocks.bind fun ⟨_, _⟩ h3 => ?_
          split
          · exact h3.resultG
          · exact fun _ h4 => h4

theorem Issue.Canon.lkfree {i : Issue} {o : RR} (h : i.Canon) : Ends Issue.Canon (i.lkfree o) := by
  unfold Issue.lkfree
  dsimp only
  refine h.rrG1.bind fun ⟨_, _⟩ h' => ?_
  split
  · exact Ends.illegalOperand
  · split
    · exact h'.resultG
    · split
      · exact h'.resultG
      · split
        · exact h'.resultG
        · exact (h'.withS h'.state.freeTree.tellTree).resultG

end Sys2Proof.Machine
end

section
/-! The canonical form is kept by the host port and its commands. -/

namespace Sys2Proof.Machine

theorem State.Canon.setFn {s : State} {f : Nat} {v : HostFn} (h : s.Canon) : (s.setFn f v).Canon :=
  h

theorem State.Canon.complete {s : State} {f : Nat} {cmd : BitVec 512} {status arg : Nat} (h : s.Canon) :
    (s.complete f cmd status arg).Canon := by
  unfold State.complete
  refine State.Canon.setFn (State.canon_iff.2 ⟨h.mem, ?_⟩)
  exact wf_write _ _ _ _ h.hostMem

theorem wf_ringWrite {v : HostFn} {l : List (BitVec 512)} {k : Nat} {m : Memory} (h : m.wf = true) : (v.ringWrite k l m).wf = true := by
  induction l generalizing k m with
  | nil => exact h
  | cons c t ih => exact ih (wf_write 64 _ _ _ h)

theorem State.Canon.doorbell {s : State} {f put : Nat} {l : List (BitVec 512)} (h : s.Canon) : Steps (s.doorbell f put l) :=
  Steps.of_ite trivial (State.canon_iff.2 ⟨h.mem, wf_ringWrite h.hostMem⟩)

theorem State.Canon.hostReg {s : State} {f off : Nat} {val : BitVec 256} (h : s.Canon) : Steps (s.hostReg f off val) := by
  unfold State.hostReg
  dsimp only
  split
  · exact h.setFn
  · split
    · trivial
    · split
      · exact h
      · split
        · exact h.setFn
        · exact h.setFn
        · exact h.setFn
        · exact h.setFn
        · split <;> exact h
        · split <;> exact h
        · exact h

theorem State.Canon.command {s : State} {f : Nat} {cmd : BitVec 512} {row : String} {opc : Nat → Bool} {k : State → CmdOut} (h : s.Canon)
    (hk : ∀ s, s.Canon → (k s).Canon) : Steps (s.command f cmd row opc k) := by
  unfold State.command
  refine Steps.of_ite trivial ?_
  split
  next he => exact State.Canon.complete (State.Canon.setFn ((hk s h).done_of he))
  next he => exact State.Canon.setFn (State.Canon.setFn ((hk s h).goesOn_of he))
  next he => exact Steps.of_ite trivial (State.Canon.setFn ((hk s h).wait_of he))
  next => trivial

theorem State.Canon.owned {s : State} {f : Nat} {cmd : BitVec 512} {k : Nat → Ctx → CmdOut} (h : s.Canon) (hk : ∀ a0 a1, (k a0 a1).Canon) :
    (s.owned f cmd k).Canon := by
  unfold State.owned
  dsimp only
  split
  · exact h
  · split
    · exact h
    · exact hk _ _

theorem State.Canon.create {s : State} {f : Nat} {cmd : BitVec 512} (h : s.Canon) : (s.create f cmd).Canon := by
  unfold State.create
  dsimp only
  split
  · exact h
  · split
    · exact h
    · split
      · exact h
      · split
        · exact h
        · split
          · exact h
          · exact h.setCtx

theorem State.Canon.completeFor {s : State} {x opc status : Nat} (h : s.Canon) : (s.completeFor x opc status).Canon := by
  unfold State.completeFor
  split
  · exact h.complete
  · exact h

theorem State.Canon.giveRows {s : State} {x : Nat} {l : List Nat} (h : s.Canon) : (s.giveRows x l).Canon := by
  induction l generalizing s with
  | nil => exact h
  | cons p t ih =>
    unfold State.giveRows
    dsimp only
    split
    · exact ih h.takeRow.setMaster
    · exact ih h

theorem State.Canon.startServices {s : State} {x : Nat} {l : List Nat} (h : s.Canon) : (s.startServices x l).Canon := by
  induction l generalizing s with
  | nil => exact h
  | cons m t ih =>
    unfold State.startServices
    dsimp only
    split
    · exact ih h.choose.draw.draw.setCore
    · exact ih h.choose

theorem State.Canon.mapService {s : State} {x : Nat} (h : s.Canon) : (s.mapService x).Canon := by
  have hmap {t : State} (ht : t.Canon) {l : List ((Nat × Nat) × DevPage)} : State.Canon { t.draw.2 with devMap := l } :=
    ht.draw.same rfl rfl
  unfold State.mapService
  dsimp only
  split
  · split
    · exact hmap (hmap h)
    · exact hmap h
  · split
    · exact hmap h
    · exact h

theorem State.Canon.installKey {s : State} {x : Nat} (h : s.Canon) : (s.installKey x).Canon := h.same rfl rfl

theorem State.Canon.loadDone {s : State} {x : Nat} (h : s.Canon) : Steps (s.loadDone x) := by
  unfold State.loadDone
  split
  · trivial
  · refine State.Canon.completeFor ?_
    split
    · exact State.Canon.mapService (State.Canon.startServices (State.Canon.updCtx
        (State.Canon.installKey (h.giveRows.foldl fun _ _ h => h.loadCopy))))
    · exact State.Canon.updCtx (State.Canon.installKey (h.giveRows.foldl fun _ _ h => h.loadCopy))

theorem State.Canon.loadError {s : State} {x : Nat} (h : s.Canon) : Steps (s.loadError x) := by
  unfold State.loadError
  split
  · trivial
  · exact h.updCtx.completeFor

theorem State.Canon.discard {s : State} {x : Nat} (h : s.Canon) : (s.discard x).Canon :=
  State.Canon.updCtx (State.Canon.foldl (h.foldl fun _ _ h => h.withdraw.voidRun.upd) fun _ _ h => h.abortNode)

theorem State.Canon.destroy {s : State} {x : Nat} {c : Ctx} (h : s.Canon) : (s.destroy x c).Canon := by
  unfold State.destroy
  split
  · exact h
  · refine State.Canon.discard ?_
    split
    · exact h.completeFor
    · exact h

theorem State.Canon.dropFlits {s : State} {t : Stream} (h : s.Canon) : (s.dropFlits t).Canon :=
  h

theorem State.Canon.streamLost {s : State} {t : Stream} {off : Nat} (h : s.Canon) : (s.streamLost t off).Canon := by
  unfold State.streamLost
  dsimp only
  split
  · exact State.Canon.complete (State.Canon.dropFlits h)
  · exact State.Canon.dropFlits h

theorem State.Canon.endStreams {s : State} {x : Nat} (h : s.Canon) : (s.endStreams x).Canon :=
  h.foldl fun _ _ h => h.streamLost

theorem State.Canon.scrubbed {s : State} {x : Nat} (h : s.Canon) : Steps (s.scrubbed x) := by
  unfold State.scrubbed
  split
  · trivial
  · exact State.Canon.completeFor (State.Canon.setCtx (State.Canon.endStreams
      (State.Canon.foldl (h.foldl fun _ _ h => h.setCore) fun _ _ h => h.releaseSlots)))

theorem State.Canon.putEntry {s : State} {x p : Nat} {e : W64} (h : s.Canon) : (s.putEntry x p e).Canon :=
  State.Canon.reexamine (h.setMaster.foldl fun _ _ h => h.setEntry)

theorem State.Canon.lockPage {s : State} {x p : Nat} (h : s.Canon) : (s.lockPage x p).Canon :=
  h.takeRow.putEntry

theorem State.Canon.unlockPage {s : State} {x p : Nat} (h : s.Canon) : (s.unlockPage x p).Canon :=
  h.putEntry.freeRowOf

theorem State.Canon.wvdef {s : State} {cmd : BitVec 512} {x : Nat} {c : Ctx} (h : s.Canon) : (s.wvdef cmd x c).Canon := by
  unfold State.wvdef
  dsimp only
  split
  · exact h
  · split
    · exact h
    · split
      · exact h
      · split
        · exact h
        · split
          · exact h
          · exact State.Canon.setTensor (h.foldl fun _ _ h => h.lockPage)

theorem State.Canon.wvrem {s : State} {cmd : BitVec 512} {x : Nat} {c : Ctx} (h : s.Canon) : (s.wvrem cmd x c).Canon := by
  unfold State.wvrem
  dsimp only
  split
  · exact h
  · split
    · exact h
    · split
      · exact h
      · exact State.Canon.setTensor (h.foldl fun _ _ h => h.unlockPage)

theorem State.Canon.ringCmd {s : State} {cmd : BitVec 512} {x : Nat} {c : Ctx} (h : s.Canon) : (s.ringCmd cmd x c).Canon := by
  unfold State.ringCmd
  dsimp only
  split
  · exact h
  · split
    · exact h
    · split
      · exact h.engineStore.engineStore.engineStore.engineStore.setRing
      · exact h.postFault
      · trivial
      · exact h

theorem State.Canon.qcreate {s : State} {cmd : BitVec 512} {x : Nat} {c : Ctx} (h : s.Canon) : (s.qcreate cmd x c).Canon := by
  unfold State.qcreate
  dsimp only
  split
  · exact h
  · split
    · exact h
    · exact h.updCtx

theorem State.Canon.graphrec {s : State} {cmd : BitVec 512} {x : Nat} {c : Ctx} (h : s.Canon) : (s.graphrec cmd x c).Canon := by
  unfold State.graphrec
  extract_lets g table n status inUse
  split
  · exact h
  · split
    · exact h
    · split
      · extract_lets nodes
        split
        · exact h
        · exact h.setGraph
      · split
        · exact h.cpFault
        · trivial
        · exact h

theorem State.Canon.replayCmd {s : State} {cmd : BitVec 512} {x : Nat} {c : Ctx} (h : s.Canon) : (s.replayCmd cmd x c).Canon := by
  unfold State.replayCmd
  dsimp only
  split
  · exact h
  · split
    · exact h
    · exact h.askReplay

theorem State.Canon.launchCmd {s : State} {cmd : BitVec 512} {x : Nat} {c : Ctx} (h : s.Canon) : (s.launchCmd cmd x c).Canon := by
  unfold State.launchCmd
  dsimp only
  split
  · exact h
  · split
    · exact h
    · split
      · exact h
      · exact h.addKernel

theorem State.Canon.streamCmd {s : State} {f : Nat} {cmd : BitVec 512} {x : Nat} {c : Ctx} (h : s.Canon) :
    (s.streamCmd f cmd x c).Canon := by
  unfold State.streamCmd
  dsimp only
  split
  · split
    · exact h
    · split
      · exact h
      · split
        · split <;> exact h
        · exact h
  · split
    · exact h
    · split <;> exact h

theorem State.Canon.streamSend {s : State} {i : Nat} {t : Stream} {pa p : Nat} (h : s.Canon) : (s.streamSend i t pa p).Canon :=
  State.Canon.queueFlit h

theorem State.Canon.streamEnd {s : State} {i status off : Nat} (h : s.Canon) : Steps (s.streamEnd i status off) := by
  unfold State.streamEnd
  dsimp only
  split
  · trivial
  · split
    · trivial
    · split
      · split
        · exact h.streamLost
        · trivial
      · split
        · trivial
        · split
          · split
            · trivial
            · split
              · exact h.streamSend
              · trivial
          · split
            · trivial
            · exact State.Canon.complete h

theorem State.Canon.hostWrite {s : State} {a : Nat} {l : List (BitVec 8)} (h : s.Canon) : (s.hostWrite a l).Canon := by
  induction l generalizing s a with
  | nil => exact h
  | cons b t ih => exact ih h.writeTime.put

theorem State.Canon.hostAccess {s : State} {f addr : Nat} {write : Bool} {data : List (BitVec 8)} (h : s.Canon) :
    Steps (s.hostAccess f addr write data) := by
  unfold State.hostAccess
  split
  · trivial
  · show State.Canon _
    split
    · exact h.hostWrite
    · exact h

end Sys2Proof.Machine
end

section
/-! The canonical form is kept by errors, quarantine, power and bring-up. -/

namespace Sys2Proof.Machine

theorem State.Canon.logBlock {s : State} {unc : Bool} {x src blk : Nat} {addr : W64} (h : s.Canon) :
    (s.logBlock unc x src blk addr).Canon := by
  unfold State.logBlock
  split
  · exact h.logLost
  · exact h.logCorrected

theorem State.Canon.dramError {s : State} {pa src : Nat} {unc : Bool} (h : s.Canon) : (s.dramError pa src unc).Canon := by
  unfold State.dramError
  refine State.Canon.logBlock ?_
  split
  · exact h.poisonRange
  · exact h

theorem State.Canon.sramError {s : State} {n k off : Nat} {unc : Bool} {f : Core → Core} (h : s.Canon) :
    (s.sramError n k off unc f).Canon := by
  unfold State.sramError
  refine State.Canon.logBlock ?_
  split
  · exact h.upd
  · exact h

theorem State.Canon.drawBlock {s : State} (h : s.Canon) : s.drawBlock.2.Canon :=
  State.Canon.foldl_snd h fun _ _ hs => hs.draw

theorem State.Canon.tableLost {s : State} {tu x b : Nat} (h : s.Canon) : (s.tableLost tu x b).Canon :=
  h.foldl fun _ _ h => h.setEntry

theorem State.Canon.ecc {s : State} {space addr src : Nat} {unc : Bool} (h : s.Canon) : Steps (s.ecc space addr src unc) := by
  unfold State.ecc
  dsimp only
  split
  · split
    · exact h.dramError
    · trivial
  · split
    · split
      · exact h.sramError
      · trivial
    · split
      · split
        · exact h.sramError
        · trivial
      · split
        · split
          · exact h.drawBlock.sramError
          · trivial
        · split
          · split
            · exact h.sramError
            · trivial
          · split
            · split
              · exact h.sramError
              · trivial
            · split
              · refine State.Canon.logBlock ?_
                split
                · exact h.tableLost
                · exact h
              · trivial

theorem State.Canon.scrub {s : State} {blk outcome : Nat} (h : s.Canon) : Steps (s.scrub blk outcome) := by
  unfold State.scrub
  dsimp only
  split
  · trivial
  · show State.Canon _
    split
    · exact h
    · exact h.dramError

theorem State.Canon.parity {s : State} {n : Nat} (h : s.Canon) : Steps (s.parity n) := by
  unfold State.parity
  dsimp only
  split
  · trivial
  · exact h.doubleTrap.logError

theorem State.Canon.movePart {s : State} {q x : Nat} (h : s.Canon) : (s.movePart q x).Canon := by
  unfold State.movePart
  dsimp only
  split
  · exact h.freezePart.updCtx.freezeGroups.choose.faultCtx
  · split
    · exact State.Canon.resumePart (h.freezePart.updCtx.freezeGroups.choose.foldl fun _ _ h => h.upd)
    · exact h.freezePart.updCtx.freezeGroups.choose.foldl fun _ _ h => h.upd

theorem State.Canon.replaceQuarter {s : State} {q : Nat} (h : s.Canon) : (s.replaceQuarter q).Canon := by
  unfold State.replaceQuarter
  dsimp only
  split
  · exact State.Canon.logError (h.foldl fun _ _ h => h.movePart)
  · exact State.Canon.logError (h.foldl fun _ _ h => h.faultCtx)

theorem State.Canon.quarantine {s : State} {die : Nat} (h : s.Canon) : Steps (s.quarantine die) := by
  unfold State.quarantine
  split
  · trivial
  · exact State.Canon.foldl h fun _ _ h => h.replaceQuarter

theorem State.Canon.attest {s : State} (h : s.Canon) : Steps (s.attest) := by
  unfold State.attest
  show State.Canon _
  split <;> exact h

theorem State.Canon.attestDone {s : State} {ok : Bool} (h : s.Canon) : Steps (s.attestDone ok) := by
  unfold State.attestDone
  refine Steps.of_ite trivial (Steps.of_ite (h.same rfl rfl) ?_)
  generalize s.reportBody = r
  generalize List.range (64 + 3309) = bytes
  refine State.canon_iff.2 ⟨h.mem, ?_⟩
  exact wf_foldl _ (fun _ _ hm => wf_setByte _ _ _ hm) _ _ (wf_write _ _ _ _ h.hostMem)

theorem State.Canon.power {s : State} {watts temp : Nat} (h : s.Canon) : (s.power watts temp).Canon := by
  unfold State.power
  dsimp only
  split
  · split
    · exact h
    · exact State.Canon.logError h
  · split
    · exact h
    · exact State.Canon.logError h

theorem State.Canon.resetDevice {s : State} (h : s.Canon) : s.resetDevice.Canon := State.canon_iff.2 ⟨wf_empty, h.hostMem⟩

theorem State.Canon.setSpares {s : State} (h : s.Canon) : (s.setSpares).Canon :=
  h

theorem State.Canon.bringup {s : State} {ok : Bool} (h : s.Canon) : Steps (s.bringup ok) := by
  unfold State.bringup
  refine Steps.of_ite trivial (Steps.of_ite (h.same rfl rfl) ?_)
  show State.Canon _
  split
  · exact State.canon_iff.2 ⟨wf_empty, h.hostMem⟩
  · split
    · exact State.Canon.setSpares (h.same rfl rfl)
    · exact h.same rfl rfl

end Sys2Proof.Machine
end

section
/-! The canonical form is kept by a core's own clock and its traps. -/

namespace Sys2Proof.Machine

theorem State.Canon.coreEvent {s : State} {n : Nat} {row : String} {ok : Core → Bool} {f : Core → Core} (h : s.Canon) :
    Steps (s.coreEvent n row ok f) := by
  unfold State.coreEvent
  split
  · exact h.upd
  · trivial

theorem State.Canon.trapEvent {s : State} {n cause val addr : Nat} (h : s.Canon) : Steps (s.trapEvent n cause val addr) := by
  unfold State.trapEvent
  dsimp only
  split
  · trivial
  · exact h.abandon.preciseTrap

theorem State.Canon.impreciseEvent {s : State} {n : Nat} (h : s.Canon) : Steps (s.impreciseEvent n) := by
  unfold State.impreciseEvent
  dsimp only
  split
  · trivial
  · exact h.takeReport

end Sys2Proof.Machine
end

section
/-! The canonical form is kept by control transfers, loops and HALT. -/

namespace Sys2Proof.Machine

theorem Issue.Canon.transfer {i : Issue} {t : W64} (h : i.Canon) : Ends Issue.Canon (i.transfer t) := by
  unfold Issue.transfer
  split
  · trivial
  · split
    · trivial
    · exact h

theorem Issue.Canon.doLoop {i : Issue} {o : LP} (h : i.Canon) : Ends Issue.Canon (i.doLoop o) := by
  unfold Issue.doLoop
  dsimp only
  split
  · exact Ends.illegalOperand
  · split
    · exact Issue.Canon.upd (Issue.Canon.withS h h.state)
    · split
      · exact Ends.illegalOperand
      · split
        · exact Ends.illegalOperand
        · exact h.upd

theorem Issue.Canon.doLbrk {i : Issue} (h : i.Canon) : Ends Issue.Canon (i.doLbrk) := by
  unfold Issue.doLbrk
  split
  · exact Ends.illegalOperand
  · exact h.upd

theorem Issue.Canon.doLend {i : Issue} {k : Nat} (h : i.Canon) : Ends Issue.Canon (i.doLend k) := by
  unfold Issue.doLend
  split
  · trivial
  · exact h.upd

theorem Issue.Canon.doTret {i : Issue} (h : i.Canon) : Ends Issue.Canon (i.doTret) := by
  unfold Issue.doTret
  split
  · exact Ends.illegalOperand
  · dsimp only
    split
    · trivial
    · exact Issue.Canon.withS h h.state

theorem Issue.Canon.drained {i : Issue} (h : i.Canon) : (i.drained).Canon := by
  unfold Issue.drained
  split
  · exact h
  · exact h.upd

end Sys2Proof.Machine
end

section
/-! The canonical form is kept by the two forms of VFIN. -/

namespace Sys2Proof.Machine

theorem Issue.Canon.vfin {i : Issue} {o : RR} {f : Fmt} (h : i.Canon) : Ends Issue.Canon (i.vfin o f) :=
  h.v1.bind fun ⟨_, _⟩ h' => h'.upd.result

theorem Issue.Canon.vfinRead {i : Issue} {o : RR} (h : i.Canon) : (i.vfinRead o).Canon :=
  h.upd.result

end Sys2Proof.Machine
end

section
/-! The canonical form is kept by the vector integer and compare forms. -/

namespace Sys2Proof.Machine

theorem Issue.Canon.vbits {i : Issue} {o : RR} {f : Vec → Vec → Vec} (h : i.Canon) : Ends Issue.Canon (i.vbits o f) :=
  h.rrSources.bind fun ⟨_, _, _⟩ h' => h'.toV

theorem Issue.Canon.vcmp {i : Issue} {o : RR} {w : Nat} {f : Nat → Nat → Nat → Bool} (h : i.Canon) : Ends Issue.Canon (i.vcmp o w f) :=
  h.rrSources.bind fun ⟨_, _, _⟩ h' => h'.result

end Sys2Proof.Machine
end

section
/-! The canonical form is kept by the vector moves and draws. -/

namespace Sys2Proof.Machine

theorem Issue.Canon.vpair {i : Issue} {o : RR} {f : Vec → Vec → Vec} (h : i.Canon) : Ends Issue.Canon (i.vpair o f) :=
  h.rrSources.bind fun ⟨_, _, _⟩ h' => h'.toV

theorem Issue.Canon.vimm {i : Issue} {o : RI} {f : Vec → Vec} (h : i.Canon) : Ends Issue.Canon (i.vimm o f) :=
  h.source.bind fun ⟨_, _⟩ h' => h'.toV

theorem Issue.Canon.vdraw {i : Issue} {o : RR} {n lat : Nat} {f : List Nat → Vec} (h : i.Canon) : Ends Issue.Canon (i.vdraw o n lat f) :=
  h.words.toV

end Sys2Proof.Machine
end

section
/-! Every slot operation keeps the canonical form, by class. -/

namespace Sys2Proof.Machine

theorem opCanon_opBt {o : BTO} : OpCanon (opBt o) := by
  intro i h
  unfold opBt
  split
  · exact h
  · split
    · exact h
    · exact h.transfer

theorem opCanon_opTrapen {g : Guard} : OpCanon (opTrapen g) := by
  refine opCanon_guarded fun i h => ?_
  split
  · exact h
  · exact h.afterCore

theorem opCanon_sOp {i : SInstr} : OpCanon (sOp i) := by
  delta sOp
  cases i with
  | add | sub | mul | mulh | mulhn | div | divn | rem | remn | and | or | xor | andn | shl | shr | sar | rot | min | max | minn | maxn =>
    exact opCanon_guarded fun _ h => h.alu
  | addi | shli | shri | sari => exact opCanon_guarded fun _ h => h.aluImm
  | clz | popc => exact opCanon_guarded fun _ h => h.alu1
  | sel | li | lih => exact opCanon_guarded fun _ h => h.resultG
  | aadd => exact opCanon_guarded fun _ h => h.rrG2.bind fun ⟨_, _⟩ h' => h'.toA
  | cmpEq | cmpNe | cmpLt | cmpLe | cmpGt | cmpGe | cmpLtn | cmpLen | cmpGtn | cmpGen => exact opCanon_guarded fun _ h => h.cmp
  | pand | por | pxor | pnot | pmov => exact opCanon_guarded fun _ h => h.predOp
  | amovAG => exact opCanon_guarded fun _ h => h.rrG1.bind fun ⟨_, _⟩ h' => h'.toA
  | amovGA => exact opCanon_guarded fun _ h => h.toG
  | amovAA => exact opCanon_guarded fun _ h => h.toA
  | ldI8 | ldN8 | ldI16 | ldN16 | ldI32 | ldN32 | ld64 => exact opCanon_guarded fun _ h => h.scalarLoad
  | astr => exact opCanon_guarded fun _ h => h.rrG1.bind fun ⟨_, _⟩ h' => h'.afterCore
  | st8 | st16 | st32 | st64 => exact opCanon_guarded fun _ h => h.scalarStore
  | br | ret => exact opCanon_guarded fun _ h => h.transfer
  | bt => exact opCanon_opBt
  | movb | grpid | grpsize => exact opCanon_guarded fun _ h => h.result
  | call => exact opCanon_guarded fun _ h => h.result.transfer
  | loop => exact opCanon_guarded fun _ h => h.doLoop
  | lbrk => exact opCanon_guarded fun _ h => h.doLbrk
  | rotb | stage => exact opCanon_guarded fun _ h => h.afterCore
  | halt => exact opCanon_guarded fun _ h => h.after (fun _ h' => h'.voidRun.haltReports)
  | quiet | retb => exact opCanon_guarded fun _ h => h.upd
  | lendb => exact opCanon_guarded fun _ h => h.doLend
  | srd => exact opCanon_guarded fun _ h => h.srd
  | swr => exact opCanon_guarded fun _ h => h.swrFrom
  | trap => exact opCanon_guarded fun _ h => h
  | trapen => exact opCanon_opTrapen
  | tret => exact fun _ h => opCanon_guarded (fun _ h => h.doTret) _ h.drained
  | ctxstat => exact opCanon_guarded (opCanon_asking fun _ h => h.ctxstat)
  | ctxfreeze | ctxfreezeSave | ctxsave | cutQuery | cutStop => exact opCanon_guarded (opCanon_asking fun _ h => h.ctxfreeze)
  | ctxresume | ctxrestoreResume | ctxrestore => exact opCanon_guarded (opCanon_asking fun _ h => h.ctxresume)
  | wqpush => exact opCanon_guarded fun i h => opCanon_unrecorded (fun _ hj => hj.wqpush) i h
  | wqpop => exact opCanon_guarded fun _ h => h.wqpop
  | wqclose | wqreopen => exact opCanon_guarded fun _ h => h.wqclose
  | wqlen => exact opCanon_guarded (opCanon_asking fun _ h => h.wqlen)
  | gpset => exact opCanon_guarded (opCanon_asking fun _ h => h.gpset)
  | gpget => exact opCanon_guarded (opCanon_asking fun _ h => h.gpget)
  | glaunch => exact opCanon_guarded (opCanon_asking fun _ h => h.glaunch)
  | kdone => exact opCanon_guarded (opCanon_asking fun _ h => h.kdone)
  | binitReset | binitQuery => exact opCanon_guarded (opCanon_asking fun _ h => h.binit)
  | barrive => exact opCanon_guarded fun _ h => h.barrive
  | bwait => exact opCanon_guarded (opCanon_awaiting fun _ h => h.bwait)
  | btry => exact opCanon_guarded (opCanon_asking fun _ h => h.btry)
  | wvbind => exact opCanon_guarded (opCanon_asking fun _ h => h.wvbind)
  | wvunbind => exact opCanon_guarded (opCanon_asking fun _ h => h.wvunbind)
  | wvslot => exact opCanon_guarded (opCanon_asking fun _ h => h.wvslot)
  | wvpublish => exact opCanon_guarded (opCanon_asking fun _ h => h.wvpublish)
  | wvread => exact opCanon_guarded (opCanon_asking fun _ h => h.wvread)
  | confx => exact opCanon_guarded (opCanon_asking fun _ h => h.confx)
  | kvcommit => exact opCanon_guarded (opCanon_asking (opCanon_unrecorded (fun _ h => h.kvcommit)))
  | kvmodeSet | kvmodeGet | kvmodeSpec | kvmodeQuery => exact opCanon_guarded (opCanon_asking fun _ h => h.kvmode)
  | lktree => exact opCanon_guarded (opCanon_unrecorded fun _ h => h.lktree)
  | lkfree | lkfreeCheck => exact opCanon_guarded (opCanon_asking fun _ h => h.lkfree)
  | pgprobe => exact opCanon_guarded fun _ h => h.pgprobe
  | pginvUpdate | pginvMove => exact opCanon_guarded fun _ h => h.pginv

theorem opCanon_vOp {i : VInstr} : OpCanon (vOp i) := by
  delta vOp
  cases i with
  | vaddF32 | vsubF32 | vaddBf16 | vsubBf16 | vaddF16 | vsubF16 => exact opCanon_guarded fun _ h => h.vecSum
  | vmulF32 | vminF32 | vmaxF32 | vmulBf16 | vminBf16 | vmaxBf16 | vmulF16 | vminF16 | vmaxF16 | vdivF32 | vdivBf16 | viadd32 | viadd16
  | viadd8 | visub32 | visub16 | visub8 | vimul32 | vimul16 | vimulhI32 | vimulhN32 | viminI32 | viminN32 | viminI16 | viminI8 | vimaxI32
  | vimaxN32 | vimaxI16 | vimaxI8 | vshl32 | vshl16 | vshr32 | vshr16 | vsar32 | vsar16 => exact opCanon_guarded fun _ h => h.vec2
  | vfmaF32 | vfmsF32 | vfnmaF32 | vfmaBf16 | vfmsBf16 | vfnmaBf16 | vfmaF16 | vfmsF16 | vfnmaF16 =>
    exact opCanon_guarded fun _ h => h.vecFma
  | vabsF32 | vabsH | vnegF32 | vnegH | vclassF32 | vclassBf16 | vclassF16 | vrcpF32 | vrsqF32 | vsqrtF32 | vexp2F32 | vlog2F32 | vtanhF32
  | vrcpBf16 | vrsqBf16 | vsqrtBf16 | vexp2Bf16 | vlog2Bf16 | vtanhBf16 => exact opCanon_guarded fun _ h => h.vec1
  | vfinF32 | vfinBf16 | vfinF16 => exact opCanon_guarded fun _ h => h.vfin
  | vfinNfsF32 | vfinNfsBf16 | vfinNfsF16 => exact opCanon_guarded fun _ h => h.vfinRead
  | vand | vor | vxor => exact opCanon_guarded fun _ h => h.vbits
  | vmsel => exact opCanon_guarded fun _ h => Ends.readReg.bind fun _ _ => Ends.readReg.bind fun _ _ => h.toV
  | vcmpI32 | vcmpN32 | vcmpF32 | vcmpBf16 => exact opCanon_guarded fun _ h => h.vcmp
  | vcvtF32 | vcvtBf16 | vcvtF16 | vcvtI8 | vcvtN8 | vcvtI16 | vcvtN16 | vcvtI32 | vcvtN32 | vsrnd =>
    exact opCanon_guarded fun _ h => h.cvt
  | vplsplit | vpljoin => exact opCanon_guarded fun _ h => Ends.kept.bind fun _ _ => h.v1.bind fun ⟨_, _⟩ h' => h'.toV
  | voutapply => exact opCanon_guarded fun _ h => Ends.kept.bind fun _ _ => h.rrSources.bind fun ⟨_, _, _⟩ h' => h'.toV
  | vrsumF32 | vrsumBf16 | vrsumI32 | vrmaxF32 | vrmaxI32 | vrminF32 | vrminI32 | vrargmaxF32 => exact opCanon_guarded fun _ h => h.reduce
  | vperm | vshuf | vzip | vunzip => exact opCanon_guarded fun _ h => h.vpair
  | vbcast | vslide => exact opCanon_guarded fun _ h => h.vimm
  | vtrn4 => exact opCanon_guarded fun _ h => h.v1.bind fun ⟨_, _⟩ h' => h'.toV
  | vsmmerge =>
    exact opCanon_guarded fun _ h => Ends.readReg.bind fun _ _ => Ends.readReg.bind fun _ _ => Ends.readReg.bind fun _ _ =>
      Ends.readReg.bind fun _ _ => h.toV
  | vrand | vrandf | vrnorm | vrnormt => exact opCanon_guarded fun _ h => h.vdraw
  | vrseed => exact opCanon_guarded fun _ h => h.v1.bind fun ⟨_, _⟩ h' => h'.afterCore
  | vld => exact opCanon_guarded fun _ h => h.vld
  | vst => exact opCanon_guarded fun _ h => h.vst
  | vldg => exact opCanon_guarded fun _ h => h.vldg
  | vsts => exact opCanon_guarded fun _ h => h.vsts
  | vldpl => exact opCanon_guarded fun _ h => h.vldpl

theorem opCanon_xOp {i : XInstr} : OpCanon (xOp i) := by
  delta xOp
  cases i with
  | xcopyIn => exact opCanon_guarded fun _ h => h.copyIn
  | xcopyOut | xcopyOutAcc => exact opCanon_guarded fun _ h => h.copyOut
  | xgather | xscatter => exact opCanon_guarded fun _ h => h.rowsCommand
  | xwbfill => exact opCanon_guarded fun _ h => h.wbFill
  | xpref => exact opCanon_guarded fun _ h => h.prefetch
  | xsend => exact opCanon_guarded fun _ h => h.send
  | xrecv => exact opCanon_guarded fun _ h => h.recv
  | xrecvaddF32 | xrecvaddI32 | xrecvaddBf16 => exact opCanon_guarded fun _ h => h.recvAdd
  | xrld => exact opCanon_guarded fun _ h => h.remoteLoad
  | xrst => exact opCanon_guarded fun _ h => h.remoteStore
  | xamoAdd32 | xamoAdd64 | xamoFaddF32 | xamoMin32 | xamoMin64 | xamoMax32 | xamoMax64 | xamoMinn32 | xamoMinn64 | xamoMaxn32
  | xamoMaxn64 | xamoAnd32 | xamoAnd64 | xamoOr32 | xamoOr64 | xamoXor32 | xamoXor64 | xamoSwap32 | xamoSwap64 | xamoCas32 | xamoCas64 =>
    exact opCanon_guarded fun _ h => h.amo
  | xfence => exact opCanon_guarded fun _ h => h.fence
  | xrel => exact opCanon_guarded fun _ h => h.release
  | xacq => exact opCanon_guarded fun _ h => h.xLoad
  | xvld => exact opCanon_guarded fun _ h => h.xvld
  | xnmc => exact opCanon_guarded fun _ h => h.nmCommand
  | xnmfence => exact opCanon_guarded fun _ h => h.nmFence
  | xtagld => exact opCanon_guarded fun _ h => h.tagLoad
  | xtagst => exact opCanon_guarded fun _ h => h.tagStore
  | tstate => exact opCanon_guarded fun _ h => h.resultG
  | tlayoutClaim | tlayoutRelabel | tlayoutCheck => exact opCanon_guarded fun _ h => h.tlayout
  | trelease => exact opCanon_guarded fun _ h => h.trelease
  | trjrec => exact opCanon_guarded fun _ h => h.trjrec
  | bfpost => exact opCanon_guarded fun _ h => h.bfpost

theorem opCanon_mOp {i : MInstr} : OpCanon (mOp i) := by
  delta mOp
  cases i with
  | mcfgMode | mcfgOutlier | mcfgQset | mcfgWbp => exact opCanon_guardedM fun _ h => h.mcfg
  | mzero => exact opCanon_guardedM fun _ h => h.upd
  | msnap => exact opCanon_guardedM fun _ h => h.snap
  | mresrd => exact opCanon_guardedM fun _ h => h.resultG
  | mreschk => exact opCanon_guardedM fun _ h => h.reschk
  | mpush | mpushWp => exact opCanon_guardedM fun _ h => h.push
  | mswap => exact opCanon_guardedM fun _ h => h.logM.upd
  | mshift => exact opCanon_guardedM fun _ h => h.shift
  | mdrain => exact opCanon_guardedM fun _ h => h.drain
  | mdrainq => exact opCanon_guardedM fun _ h => h.drainq

end Sys2Proof.Machine
end

section
/-! The issue of a fetched bundle keeps the canonical form. -/

namespace Sys2Proof.Machine

theorem State.Canon.setLocks {s : State} {n : Nat} {held : Bool} (h : s.Canon) : (s.setLocks n held).Canon :=
  h

theorem opCanon_slotOp {i : SlotInstr} : OpCanon (slotOp i) := by
  cases i with
  | nop | xnop => exact fun _ h => h
  | s i => exact opCanon_sOp
  | v i => exact opCanon_vOp
  | x i => exact opCanon_xOp
  | m i => exact opCanon_mOp

theorem IfSome.readSlot {w : BitVec 128} {k : Nat} : IfSome OpCanon (readSlot w k).dec := by
  unfold Machine.readSlot
  dsimp only
  split
  · exact opCanon_slotOp
  · trivial

theorem SlotsCanon.readBundle {w : BitVec 128} : SlotsCanon (readBundle w).units := by
  intro u hu
  obtain ⟨k, -, hk⟩ := List.mem_map.1 (Bundle.mem_slots_of_units hu)
  exact hk ▸ IfSome.readSlot

theorem State.Canon.fetched {s : State} {n : Nat} {w : BitVec 128} (h : s.Canon) : (s.fetched n w).Canon := by
  unfold State.fetched
  dsimp only
  split
  · exact h
  · split
    · exact h.same rfl rfl
    · exact h

theorem State.Canon.fetchAndIssue {n : Nat} {s : State} (h : s.Canon) : Steps (fetchAndIssue n s) := by
  unfold Machine.fetchAndIssue
  split
  · exact Steps.issueBundle SlotsCanon.readBundle h.fetched
  · exact h.spendCycle.freezeBundle.bundleFault
  · exact h.spendCycle.freezeBundle
  · exact h.spendCycle.abandon.preciseTrap
  · exact h.spendCycle.abortBy
  · trivial

theorem State.Canon.execBundleIssue {core : Nat} {s : State} (h : s.Canon) : Steps (execBundleIssue core s) :=
  Steps.of_ite (State.Canon.boundary (fun _ h => h.fetchAndIssue) (h.same rfl rfl)) trivial

theorem State.Canon.replicaCommit {s : State} {idx : Nat} (h : s.Canon) : Steps (s.replicaCommit idx) := by
  unfold State.replicaCommit
  split
  · trivial
  next l _ =>
    have hissue : Steps (Machine.boundary l.core (Machine.fetchAndIssue l.core) { s.setLocks l.core true with cur := l.core }) :=
      State.Canon.boundary (fun _ h => h.fetchAndIssue) (h.same rfl rfl)
    split
    · trivial
    · split
      next t ht =>
        have hnext := hissue.next_of ht
        show State.Canon _
        split
        · exact hnext.setLocks
        · exact hnext.same rfl rfl
      · exact hissue

theorem State.Canon.execNop {s : State} (h : s.Canon) : Steps (execNop s) :=
  State.Canon.boundary (fun _ h => Steps.issueBundle (fun _ hu => nomatch Bundle.mem_slots_of_units hu) h) h

end Sys2Proof.Machine
end

section
/-! Every row of the opcode table, and so every step, keeps the canonical form. -/

namespace Sys2Proof.Machine

theorem Steps.slotRow {i : SlotInstr} {op : Op} {s : State} (hop : op = slotOp i) (h : s.Canon) : Steps (Machine.issueSolo i op s) :=
  Steps.issueSolo (hop ▸ opCanon_slotOp) h

theorem State.Canon.exec {i : Instr} {s : State} (h : s.Canon) : Steps (Machine.exec i s) := by
  delta Machine.exec
  cases i with
  | bundleIssue => exact h.execBundleIssue
  | replicaCommit => exact h.replicaCommit
  | nop => exact h.execNop
  | resultDue | clkTick | beatDue | rowReload => exact h.coreEvent
  | trapEntry => exact h.trapEvent
  | impreciseTrap => exact h.impreciseEvent
  | parityError => exact h.parity
  | eccError => exact h.ecc
  | patrolScrub => exact h.scrub
  | requestAnswer => exact h.requestAnswer
  | atomicAtHome => exact h.atomicAtHome
  | engineBlockConfirm | commandComplete | xrelPerform | nmCommandEnd | trrRecordWrite | sweeperJobAccept => exact h.engRow
  | engineResume => exact h.engResume
  | commandEndError => exact h.endError
  | sendLand => exact h.sendLand
  | fenceClear => exact h.fenceClear
  | nmGroup => exact h.nmGroup
  | shootdownAck => exact h.ackUnit
  | fbufGetWrite => exact h.setFbufGet
  | contextLoadDone => exact h.loadDone
  | contextLoadError => exact h.loadError
  | partFrozen => exact h.partFrozen
  | saveDone => exact h.saveDone
  | saveFault => exact h.saveFault
  | restoreDone => exact h.restoreDone
  | restoreFault => exact h.restoreFault
  | scrubDone => exact h.scrubbed
  | resumeReplay => exact h.resumeReplay
  | quarantine => exact h.quarantine
  | dcntWindowClear => exact h
  | launchRecordRead => exact h.recordRead
  | priorityAging => exact h.age
  | groupPlace => exact h.groupPlace
  | groupLoaded => exact h.groupLoaded
  | groupRetire => exact h.groupRetire
  | kernelComplete => exact h.kernelComplete
  | kernelAbort => exact h.kernelAbort
  | replayBegin => exact h.replayBegin
  | replayEnd => exact h.replayEnd
  | chunkOp => exact h.chunkOp
  | barrierArrival => exact h.arrive
  | barrierMemberLeave => exact h.memberLeave
  | publishCommit => exact h.publishStep
  | readerLeave => exact h.readerLeaves
  | repartitionComplete => exact h.repartEnd
  | slotRunGrant => exact h.slotGrant
  | voidRecordWrite => exact h.voidWrite
  | samplingPoll => exact h.samplingPoll
  | samplingPhase => exact h.samplingPhase
  | kvCompactionCopy => exact h.compact
  | kvCommitPoint => exact h.commitPoint
  | sweeperDispatch => exact h.dispatch
  | sweeperJobComplete => exact h.jobComplete
  | sweeperJobAbort => exact h.jobAbort
  | portEnable => exact h.portEvent fun _ h => h.portEnable
  | portDisable => exact h.portEvent fun _ h => h.portDisable
  | portRetrain | errorRateExceeded => exact h.portEvent fun _ h => h.portRetrain
  | trainingUp | trainingDegraded => exact h.portEvent fun _ h => h.trained
  | trainingFails => exact h.portEvent fun _ h => h.trainFailed
  | peerLost => exact h.portEvent fun _ h => h.portDown
  | flitReceive => exact h.linkEvent
  | portStatusRead => exact h.portEvent fun _ h => h.setPort
  | treeReserve => exact h.reserveTree
  | treeReserveAnswer => exact h.reserveAnswer
  | hostDoorbell => exact h.doorbell
  | hostRegWrite => exact h.hostReg
  | create => exact h.command fun _ h => h.create
  | destroy => exact h.command fun _ h => h.owned fun _ _ => h.destroy
  | wvdef => exact h.command fun _ h => h.owned fun _ _ => h.wvdef
  | wvrem => exact h.command fun _ h => h.owned fun _ _ => h.wvrem
  | ring => exact h.command fun _ h => h.owned fun _ _ => h.ringCmd
  | qcreate => exact h.command fun _ h => h.owned fun _ _ => h.qcreate
  | graphrec => exact h.command fun _ h => h.owned fun _ _ => h.graphrec
  | replay => exact h.command fun _ h => h.owned fun _ _ => h.replayCmd
  | launch => exact h.command fun _ h => h.owned fun _ _ => h.launchCmd
  | stream => exact h.command fun _ h => h.owned fun _ _ => h.streamCmd
  | streamEnd => exact h.streamEnd
  | attestRequest => exact h.attest
  | errorLogGetWrite => exact h.setLogGet
  | powerMeasure => exact h.power
  | thermalTrip | deviceReset => exact h.resetDevice
  | bringupStep => exact h.bringup
  | hostMemoryAccess => exact h.hostAccess
  | attestReportDone => exact h.attestDone
  | moveCopyDone => exact h.moveDone
  | copyNodeComplete => exact h.copyNode
  | lscaleWrite | partWrite | adoptWrite | kvpolWrite | lctlWrite | lstatWrite | wmarkWrite =>
    exact Steps.issueSolo (opCanon_guarded fun _ h => h.swrFrom) h
  | cdiagRead => exact Steps.issueSolo (opCanon_guarded fun _ h => h.srd) h
  | _ => exact Steps.slotRow rfl h

theorem State.Canon.firstEvent {l : List Instr} {s : State} (h : s.Canon) : IfSome Steps (firstEvent l s) := by
  induction l with
  | nil => trivial
  | cons i t ih =>
    unfold Machine.firstEvent
    split
    · exact ih
    · exact h.exec

theorem State.Canon.nextCycle {s : State} (h : s.Canon) : s.nextCycle.Canon := h.same rfl rfl

theorem State.Canon.idleStep {s : State} (h : s.Canon) : Steps (idleStep s) := by
  unfold Machine.idleStep
  split
  · split
    · exact h.nextCycle
    · exact h.exec
  · split
    · exact h.exec
    · split
      next hr => exact h.nextCycle.firstEvent.some_of hr
      · exact h.nextCycle

theorem State.Canon.step {s : State} (h : s.Canon) : Steps (step s) := by
  unfold Machine.step
  split
  · exact State.Canon.exec (h.same rfl rfl)
  · exact h.idleStep

/-- Settles O57: every function by which a step changes the state keeps the canonical form, so the step does. -/
theorem stepKeepsMemoryCanonical : Obligations.StepKeepsMemoryCanonical :=
  fun _ _ hs hstep => (State.Canon.step hs).next_of hstep

end Sys2Proof.Machine
end

section
/-! The events of a core's own clock (02_core.md R29; 07_matrix.md R203, R204; 09_memory_model.md R255; 14_trap.md R335, R337) and what the
reload of a row leaves. -/

namespace Sys2Proof.Machine

/-! ### A row's reload (07_matrix.md R204) -/

theorem row_setRow (m : Matrix) (t r : Nat) (x : BitVec 8192) (r' : Nat) : (m.setRow t r x).row t r' = if r' = r then x else m.row t r' := by
  simp [Matrix.row, Matrix.setRow, Tbl.get_set]

theorem st_setSt (m : Matrix) (t : Nat) (x : AccStat) (u : Nat) : (m.setSt t x).st u = if u = t then x else m.st u := by
  simp [Matrix.st, Matrix.setSt, Tbl.get_set]

theorem row_reloadRow (c : Core) (t r : Nat) : (c.reloadRow t).mx.row t r =
    if r = (c.mx.st t).wm.toNat then Tbl.get 0 c.mx.reload (128 * t + (c.mx.st t).wm.toNat) else c.mx.row t r :=
  row_setRow c.mx t _ _ r

theorem st_reloadRow (c : Core) (t u : Nat) :
    (c.reloadRow t).mx.st u = if u = t then { c.mx.st t with wm := (c.mx.st t).wm + 1 } else c.mx.st u :=
  st_setSt _ t _ u

theorem rowReloadTakesTheImage : Claims.RowReloadTakesTheImage := by
  intro c t r hw
  refine ⟨by rw [row_reloadRow, if_pos rfl], ?_, fun hr _ => by rw [row_reloadRow, if_neg hr], fun u hu => by rw [st_reloadRow, if_neg hu]⟩
  rw [st_reloadRow, if_pos rfl]
  exact BitVec.toNat_add_of_lt (by simpa using by omega)

/-! ### Events of a core -/

section
variable {s : State} {n : Nat}

theorem coreExists_of_lt (hn : n < 528) : coreExists n = true := decide_eq_true hn

/-- An event whose condition holds of the core does its work on the core. -/
theorem coreEvent_of_holds {row : String} {ok : Core → Bool} {f : Core → Core} (hn : n < 528) (hok : ok (s.core n) = true) :
    s.coreEvent n row ok f = .next (s.upd n f) :=
  if_pos (by rw [coreExists_of_lt hn, hok]; rfl)

/-- Two functions that agree at the core it holds update a state alike. -/
theorem upd_congr {f g : Core → Core} (h : f (s.core n) = g (s.core n)) : s.upd n f = s.upd n g := congrArg (s.setCore n) h

theorem exec_resultDue :
    exec (.resultDue n) s = s.coreEvent n "RESULT_DUE" (fun _ => s.resultDue n) (fun _ => (s.clocked n).land) := rfl

theorem exec_beatDue :
    exec (.beatDue n) s = s.coreEvent n "BEAT_DUE" (fun _ => s.beatDue n) (fun _ => (s.clocked n).settled) := rfl

theorem exec_clkTick : exec (.clkTick n) s = s.coreEvent n "CLK_TICK" (fun c => decide (0 < c.ticksDue)) Core.tick := rfl

theorem exec_rowReload {t : Nat} : exec (.rowReload n t) s =
    s.coreEvent n "ROW_RELOAD" (fun c => decide (t < 24) && decide ((c.mx.st t).wm.toNat < 128)) (fun c => c.reloadRow t) := rfl

theorem catchUp_ic (now : Nat) (c : Core) : (c.catchUp now).ic = if c.run = .halted then c.ic + (now - c.nextAt) else c.ic := by
  unfold Core.catchUp
  split <;> rfl

/-- Issue cycles pass at a halted core while its part runs or freezes for a cut (05_scalar_control.md R150; 12_context.md R311). -/
theorem clocked_ic (s : State) (n : Nat) : (s.clocked n).ic =
    if (s.core n).run = .halted ∧ (isKiosk n = true ∨ (s.ctx (s.core n).ctx).part (quarterOf n) = .running ∨
        (s.ctx (s.core n).ctx).part (quarterOf n) = .freezing ∧ (s.core n).stop ≠ .none)
    then (s.core n).ic + (s.now - (s.core n).nextAt) else (s.core n).ic := by
  unfold State.clocked
  by_cases hgo : isKiosk n = true ∨ (s.ctx (s.core n).ctx).part (quarterOf n) = .running ∨
      (s.ctx (s.core n).ctx).part (quarterOf n) = .freezing ∧ (s.core n).stop ≠ .none
  · simp [hgo, catchUp_ic, or_assoc]
  · simp [hgo, or_assoc]

theorem resultDue_iff : s.resultDue n = true ↔ ∃ p ∈ (s.core n).pend, p.due ≤ (s.clocked n).ic := by
  simp [State.resultDue]

theorem beatDue_iff : s.beatDue n = true ↔ ∃ b ∈ (s.clocked n).mx.beats, b.due < (s.clocked n).ic := by
  simp [State.beatDue]

/-- CLK rises by the ticks not yet counted (09_memory_model.md R255). -/
theorem exec_clkTick_of_due (hn : n < 528) (h : (s.core n).ticks < (s.core n).ic / 1024) : exec (.clkTick n) s =
    .next (s.upd n (fun c => { c with clk := c.clk + 128 * (c.ic / 1024 - c.ticks), ticks := c.ic / 1024 })) := by
  have hdue : 0 < (s.core n).ticksDue := Nat.sub_pos_of_lt h
  rw [exec_clkTick, coreEvent_of_holds hn (decide_eq_true hdue)]
  refine congrArg _ (upd_congr ?_)
  simp only [Core.tick, Core.ticksDue, Nat.max_eq_right h.le]

/-- A precise trap of a cause that its held bundle can meet is taken, no report going before it (14_trap.md R334, R337, R344). -/
theorem trapEvent_of_due {cause v a : Nat} (hn : n < 528) (hrun : (s.core n).run = .running) (h1 : 1 ≤ cause) (h14 : cause ≤ 0x14)
    (h11 : cause ≠ 0x11) (h13 : cause ≠ 0x13)
    (hrep : ¬ ((s.core n).twin = true ∧ (s.core n).heldBundle = false ∧ (s.core n).reports ≠ [])) :
    s.trapEvent n cause v a =
      .next ((s.abandon n).preciseTrap n cause (trapVal cause (BitVec.ofNat 64 v)) (trapAddr cause (BitVec.ofNat 64 a))) := by
  refine if_neg ?_
  rintro (h | h | h | h | h | h | ⟨htwin, hheld, hreports⟩)
  · simp [coreExists_of_lt hn] at h
  · exact h hrun
  · omega
  · omega
  · exact h11 h
  · exact h13 h
  · exact hrep ⟨htwin, by simpa using hheld, hreports⟩

/-- A report is taken with the window open and no bundle held (14_trap.md R335). -/
theorem impreciseEvent_of_due (hn : n < 528) (hrun : (s.core n).run = .running) (htwin : (s.core n).twin = true)
    (hheld : (s.core n).heldBundle = false) (hrep : (s.core n).reports ≠ []) : s.impreciseEvent n = .next (s.takeReport n) :=
  if_neg (by simp [coreExists_of_lt hn, hrun, htwin, hheld, hrep])

theorem parity_of_program (hn : n < 528) (hrun : (s.core n).run ≠ .idle) :
    s.parity n = .next ((s.doubleTrap n 0x15).logError 3 (s.core n).ctx (srcOf n) 0 0) :=
  if_neg (by simp [coreExists_of_lt hn, hrun])

end

theorem coreEventsArise : Claims.CoreEventsArise := by
  intro n s hn
  exact ⟨clocked_ic s n,
    fun h => exec_resultDue.trans (coreEvent_of_holds hn (resultDue_iff.2 h)),
    fun h => exec_beatDue.trans (coreEvent_of_holds hn (beatDue_iff.2 h)),
    exec_clkTick_of_due hn,
    fun t ht hw => exec_rowReload.trans (coreEvent_of_holds hn (by simp [ht, hw])),
    fun cause v a hrun h1 h14 h11 h13 hrep => trapEvent_of_due hn hrun h1 h14 h11 h13 hrep,
    impreciseEvent_of_due hn,
    parity_of_program hn⟩

/-- Settles O29: each event of a core arises by the check of its row; the reload writes one row and one status. -/
theorem coreEventsAndRowReload : Obligations.CoreEventsAndRowReload := ⟨coreEventsArise, rowReloadTakesTheImage⟩

end Sys2Proof.Machine
end

section
/-! Sources of an operand (02_core.md R36, R37, R51; 04_encoding.md R106): what a read gives by its mode, and that an issue which has only
read answers every later source as the opening one does. -/

namespace Sys2Proof.Machine

section
variable {i : SlotInstr} {s : State} {j : Issue} {pos r : Nat} {f : RegFile} {k : Src} {x : Vec}

/-! ### One source by its mode -/

theorem source_reg (h : j.readReg f r = .ok x) : j.source pos .reg f r = .ok (x, j) := by
  simp only [Issue.source, h, bind, Except.bind]

theorem source_capture (h : j.readReg f r = .ok x) : j.source pos .capture f r =
    .ok (x, j.upd (fun c => { c with held := Tbl.set 0 c.held (3 * j.unit.idx + pos) x
                                     holdv := c.holdv ||| BitVec.ofNat 18 (2 ^ (3 * j.unit.idx + pos)) })) := by
  simp only [Issue.source, h, bind, Except.bind]

theorem source_lent {e : Stop} (h : j.readReg f r = .error e) :
    j.source pos .reg f r = .error e ∧ j.source pos .capture f r = .error e := by
  simp only [Issue.source, h, bind, Except.bind, and_self]

theorem source_latch (h : j.pre.latv.getLsbD (4 * j.unit.idx + r % 4) = true) :
    j.source pos .latch f r = .ok (Tbl.get 0 j.pre.latches (4 * j.unit.idx + r % 4), j) := if_pos h

theorem source_latch_invalid (h : j.pre.latv.getLsbD (4 * j.unit.idx + r % 4) = false) :
    j.source pos .latch f r = .ok (0, j.upd (fun c => c.noteInvalid j.unit true)) := if_neg (by rw [h]; decide)

theorem source_held (h : j.pre.holdv.getLsbD (3 * j.unit.idx + pos) = true) :
    j.source pos .held f r = .ok (Tbl.get 0 j.pre.held (3 * j.unit.idx + pos), j) := if_pos h

theorem source_held_invalid (h : j.pre.holdv.getLsbD (3 * j.unit.idx + pos) = false) :
    j.source pos .held f r = .ok (0, j.upd (fun c => c.noteInvalid j.unit false)) := if_neg (by rw [h]; decide)

theorem opening_pre : (i.opening s).pre = s.pre := rfl

theorem opening_core : (i.opening s).core = s.pre := rfl

/-- A register that is not lent reads as it stands before the bundle. -/
theorem readReg_opening (h : f ≠ .v ∨ s.pre.isLent (s.pre.physV r) = false) : (i.opening s).readReg f r = .ok (s.pre.named f r) := by
  cases f
  case v =>
    have hl : s.pre.isLent (s.pre.physV r) = false := h.resolve_left (fun hne => hne rfl)
    simp only [Issue.readReg, opening_core, opening_pre, hl, Core.named, Core.reg, if_true, Bool.false_eq_true, if_false]
  all_goals simp only [Issue.readReg, opening_pre, Core.named, Core.reg, reduceCtorEq, if_false] <;> rfl

theorem readReg_lent (h : s.pre.isLent (s.pre.physV r) = true) : (i.opening s).readReg .v r = .error (.trap 5 0) := by
  simp only [Issue.readReg, opening_core, opening_pre, h, if_true]

/-- The word of one bit has that bit and no other; there is none from the width on. -/
theorem getLsbD_ofNat_two_pow (w n m : Nat) : (BitVec.ofNat w (2 ^ n)).getLsbD m = decide (m < w ∧ n = m) := by
  rw [BitVec.getLsbD_ofNat, Nat.testBit_two_pow, Bool.decide_and]

/-- Setting bit h of an 18-bit word. -/
theorem getLsbD_setBit (v : BitVec 18) (h m : Nat) :
    (v ||| BitVec.ofNat 18 (2 ^ h)).getLsbD m = (v.getLsbD m || decide (m < 18 ∧ h = m)) := by
  rw [BitVec.getLsbD_or, getLsbD_ofNat_two_pow]

/-- A captured value stands at its position, valid where the position exists, and no other is touched (02_core.md R36). -/
theorem capture_holds (c : Core) (h : Nat) (x : Vec) :
    let d : Core := { c with held := Tbl.set 0 c.held h x, holdv := c.holdv ||| BitVec.ofNat 18 (2 ^ h) }
    Tbl.get 0 d.held h = x ∧ (h < 18 → d.holdv.getLsbD h = true) ∧
    ∀ m, m ≠ h → Tbl.get 0 d.held m = Tbl.get 0 c.held m ∧ d.holdv.getLsbD m = c.holdv.getLsbD m := by
  refine ⟨(Tbl.get_set ..).trans (if_pos rfl), fun hlt => (getLsbD_setBit ..).trans (by simp [hlt]), fun m hm => ⟨?_, ?_⟩⟩
  · exact (Tbl.get_set ..).trans (if_neg hm)
  · exact (getLsbD_setBit ..).trans (by simp [Ne.symm hm])

/-! ### Issues that have only read -/

/-- The core without what a source may change: captures and the notes of CDIAG (02_core.md R36, R37). -/
def Core.sansReads (c : Core) : Core := { c with held := [], holdv := 0, latinv := false, holdinv := false, diagunit := 0 }

/-- Only captures and notes differ, as `SlotInstr.onlyRead` says it. -/
theorem sansReads_eq_iff {c d : Core} : c.sansReads = d.sansReads ↔
    ({ c with held := d.held, holdv := d.holdv, latinv := d.latinv, holdinv := d.holdinv, diagunit := d.diagunit } : Core) = d := by
  constructor <;> intro h
  · exact congrArg (fun e : Core => { e with
      held := d.held, holdv := d.holdv, latinv := d.latinv, holdinv := d.holdinv, diagunit := d.diagunit }) h
  · have := congrArg Core.sansReads h
    exact this

theorem lent_of_sansReads {c d : Core} (h : c.sansReads = d.sansReads) : c.lent = d.lent := by
  have := congrArg Core.lent h
  exact this

theorem onlyRead_opening : i.onlyRead s (i.opening s) := ⟨rfl, sansReads_eq_iff.1 rfl, rfl, fun _ _ => rfl⟩

theorem onlyRead_sansReads (h : i.onlyRead s j) : j.core.sansReads = s.pre.sansReads := by
  obtain ⟨-, hcore, -⟩ := h
  exact (sansReads_eq_iff (c := j.core) (d := s.pre)).2 hcore

theorem upd_core (j : Issue) (u : Core → Core) : (j.upd u).core = u j.core := by
  show (j.s.upd j.n u).core j.n = _
  rw [core_upd, if_pos rfl]; rfl

/-- A change of captures and notes alone is a read. -/
theorem onlyRead_upd (h : i.onlyRead s j) {u : Core → Core} (hu : ∀ c, (u c).sansReads = c.sansReads) : i.onlyRead s (j.upd u) := by
  have hread := onlyRead_sansReads h
  have hn : j.n = s.cur := (onlyRead_facts h).1
  obtain ⟨hissue, -, hstate, hothers⟩ := h
  refine ⟨hissue, sansReads_eq_iff.1 ?_, hstate, fun m hm => ?_⟩
  · rw [upd_core, hu, hread]
  · rw [← hothers m hm]
    show (j.s.upd j.n u).core m = _
    rw [core_upd, if_neg (hn ▸ hm)]

theorem onlyRead_capture (h : i.onlyRead s j) (p : Nat) (x : Vec) :
    i.onlyRead s (j.upd (fun c => { c with held := Tbl.set 0 c.held p x, holdv := c.holdv ||| BitVec.ofNat 18 (2 ^ p) })) :=
  onlyRead_upd h fun _ => rfl

theorem onlyRead_noteInvalid (h : i.onlyRead s j) (u : UnitId) (latch : Bool) : i.onlyRead s (j.upd (fun c => c.noteInvalid u latch)) :=
  onlyRead_upd h fun _ => rfl

/-- A source reads, and does nothing else. -/
theorem onlyRead_source {j' : Issue} (h : i.onlyRead s j) (hs : j.source pos k f r = .ok (x, j')) : i.onlyRead s j' := by
  rcases source_ok j pos k f r x j' hs with ⟨-, -, rfl⟩ | ⟨-, -, rfl⟩ | ⟨-, -, -, rfl⟩ | ⟨-, -, -, rfl⟩ | ⟨-, -, -, rfl⟩ | ⟨-, -, -, rfl⟩
  · exact h
  · exact onlyRead_capture h _ _
  · exact h
  · exact onlyRead_noteInvalid h _ _
  · exact h
  · exact onlyRead_noteInvalid h _ _

/-- A register is read as it stood before the bundle, whatever the slot's earlier sources have captured. -/
theorem readReg_of_onlyRead (h : i.onlyRead s j) : j.readReg f r = (i.opening s).readReg f r := by
  have hpre : j.pre = (i.opening s).pre := (onlyRead_facts h).2.1
  have hlent : j.core.lent = (i.opening s).core.lent := lent_of_sansReads (onlyRead_sansReads h)
  unfold Issue.readReg Core.isLent
  rw [hpre, hlent]

/-- A later source gives the value that it would give as the first. -/
theorem source_of_onlyRead {j' : Issue} (h : i.onlyRead s j) (hs : j.source pos k f r = .ok (x, j')) :
    ∃ j1, (i.opening s).source pos k f r = .ok (x, j1) := by
  obtain ⟨-, hpre, -, -, hunit⟩ := onlyRead_facts h
  rcases source_ok j pos k f r x j' hs with
    ⟨rfl, hr, -⟩ | ⟨rfl, hr, -⟩ | ⟨rfl, hv, rfl, -⟩ | ⟨rfl, hv, rfl, -⟩ | ⟨rfl, hv, rfl, -⟩ | ⟨rfl, hv, rfl, -⟩
  · exact ⟨_, source_reg (readReg_of_onlyRead h ▸ hr)⟩
  · exact ⟨_, source_capture (readReg_of_onlyRead h ▸ hr)⟩
  all_goals rw [hpre, hunit] at *
  · exact ⟨_, source_latch hv⟩
  · exact ⟨_, source_latch_invalid hv⟩
  · exact ⟨_, source_held hv⟩
  · exact ⟨_, source_held_invalid hv⟩

/-! ### Two sources -/

/-- Both are read, the first at position 0. -/
theorem rrSources_ok {o : RR} {f1 f2 : RegFile} {y : Vec} {j' : Issue} (h : j.rrSources o f1 f2 = .ok (x, y, j')) :
    ∃ j1, j.source 0 (smode o.mode).1 f1 o.s1.toNat = .ok (x, j1) ∧ j1.source 1 (smode o.mode).2 f2 o.s2.toNat = .ok (y, j') := by
  unfold Issue.rrSources at h
  cases h1 : j.source 0 (smode o.mode).1 f1 o.s1.toNat with
  | error e => simp [h1, bind, Except.bind] at h
  | ok v =>
    obtain ⟨a, j1⟩ := v
    cases h2 : j1.source 1 (smode o.mode).2 f2 o.s2.toNat with
    | error e => simp [h1, h2, bind, Except.bind] at h
    | ok w =>
      obtain ⟨b, j2⟩ := w
      simp only [h1, h2, bind, Except.bind, Except.ok.injEq, Prod.mk.injEq] at h
      obtain ⟨rfl, rfl, rfl⟩ := h
      exact ⟨j1, rfl, h2⟩

theorem sources_of_rrSources {o : RR} {f1 f2 : RegFile} {y : Vec} (h : (i.opening s).rrSources o f1 f2 = .ok (x, y, j)) :
    i.onlyRead s j ∧ ∃ j1 j2, (i.opening s).source 0 (smode o.mode).1 f1 o.s1.toNat = .ok (x, j1) ∧
      (i.opening s).source 1 (smode o.mode).2 f2 o.s2.toNat = .ok (y, j2) := by
  obtain ⟨j1, h1, h2⟩ := rrSources_ok h
  have hread := onlyRead_source onlyRead_opening h1
  obtain ⟨j2, h2'⟩ := source_of_onlyRead hread h2
  exact ⟨onlyRead_source hread h2, j1, j2, h1, h2'⟩

end

/-- Settles O42: each mode's read by its own equation; a second source reads what it would have read as the first. -/
theorem sourcesAreReadByTheirMode : Obligations.SourcesAreReadByTheirMode := by
  refine ⟨fun i s pos r f => ⟨fun h => ?_, fun h => ?_, fun h => ?_, fun h => ?_⟩, fun i s o f1 f2 x y j h => sources_of_rrSources h⟩
  · have hr := readReg_opening (i := i) h
    refine ⟨source_reg hr, _, source_capture hr, onlyRead_capture onlyRead_opening _ _, ?_⟩
    rw [upd_core]
    exact capture_holds _ _ _
  · exact source_lent (readReg_lent h)
  · exact source_latch h
  · exact source_held h

/-! ### CDIAG (02_core.md R37, R39) -/

/-- Bits 7 and 6 of CDIAG are the notes of an invalid latch and of an invalid held operand. -/
theorem cdiag_notes (c : Core) : c.cdiag.getLsbD 7 = c.latinv ∧ c.cdiag.getLsbD 6 = c.holdinv := by
  have hunit := c.diagunit.isLt
  unfold Core.cdiag
  simp only [BitVec.getLsbD_ofNat, Nat.testBit_eq_decide_div_mod_eq]
  cases c.latinv <;> cases c.holdinv <;> simp [b2n] <;> omega

/-- What an issue cycle changes of a core: the registers, the latches, the results in flight and the count. -/
def Core.sansLanding (c : Core) : Core :=
  { c with g := [], a := [], p := [], b := [], v := [], m := [], latches := [], latv := 0, pend := [], ic := 0 }

theorem sansLanding_landOne (c : Core) (p : Pending) : (c.landOne p).sansLanding = c.sansLanding := by
  obtain ⟨u, file, reg, v, t, d⟩ := p
  show (Core.pushLatch _ _ _).sansLanding = _
  cases file
  case a | b | v | latch => rfl
  all_goals
    simp only [Core.setG, Core.setP, Core.setM]
    split <;> rfl

theorem sansLanding_idleCycle (c : Core) : c.idleCycle.sansLanding = c.sansLanding := by
  rw [idleCycle_eq]
  refine List.foldlRecOn _ Core.landOne ?_ fun d hd p _ => (sansLanding_landOne d p).trans hd
  rfl

theorem addIncs_eq (c : Core) (l : List (Nat × W64)) : ∃ a, c.addIncs l = { c with a := a } := by
  unfold Core.addIncs
  induction l generalizing c with
  | nil => exact ⟨c.a, rfl⟩
  | cons x l ih =>
    obtain ⟨a, ha⟩ := ih (c.setA x.1 (c.getA x.1 + x.2))
    exact ⟨a, ha⟩

theorem cutCheck_eq (c : Core) (q : Bool) : ∃ run stop, c.cutCheck q = { c with run := run, stop := stop } := by
  unfold Core.cutCheck
  split
  · split <;> exact ⟨_, _, rfl⟩
  · split <;> exact ⟨_, _, rfl⟩
  · exact ⟨_, _, rfl⟩

/-- What a plain bundle leaves of its core is what the issue cycle left, but for address registers, time, the next bundle's place and the
notes of a held bundle (02_core.md R43, R148). -/
theorem goesOn_eq (j : Issue) : ∃ a clk ticks slow, j.goesOn =
    { j.turnedCore.idleCycle with a := a, clk := clk, ticks := ticks, slow := slow, pc := (j.next j.sequenced.1 j.sequenced.2.2.1).1,
                                  lbix := (j.next j.sequenced.1 j.sequenced.2.2.1).2, heldBundle := false, posted := [], bksup := false } := by
  obtain ⟨a, ha⟩ := addIncs_eq j.turnedCore.idleCycle (j.incs ++ j.sequenced.2.1)
  unfold Issue.goesOn Core.leave
  rw [ha]
  exact ⟨_, _, _, _, rfl⟩

/-- The same at the end of the bundle: a cut may stop the core, and its requests go. -/
theorem closing_core {i : SlotInstr} {s : State} {j : Issue} (h : j.plain) (hn : j.n = s.cur) :
    ∃ run stop ifr, (i.closing s j).core s.cur = { j.goesOn with run := run, stop := stop, ifr := ifr } := by
  unfold SlotInstr.closing
  rw [finish_core j h, if_pos hn.symm]
  obtain ⟨run, stop, hcut⟩ := cutCheck_eq j.goesOn (decide (wordClass i.enc.1 = 0 ∧ wordOp i.enc.1 = 0x51))
  exact ⟨run, stop, _, congrArg (fun c : Core => { c with ifr := c.ifr.filter (fun e => e.1 < 96) }) hcut⟩

/-- A note stands in CDIAG at the end of the bundle (02_core.md R37): neither the sequencer nor the issue cycle clears it. -/
theorem closing_cdiag_notes {i : SlotInstr} {s : State} {j : Issue} (h : i.onlyRead s j) :
    ((i.closing s j).core s.cur).cdiag.getLsbD 7 = j.core.latinv ∧ ((i.closing s j).core s.cur).cdiag.getLsbD 6 = j.core.holdinv := by
  obtain ⟨hn, -, -, hplain, -⟩ := onlyRead_facts h
  obtain ⟨-, -, -, -, -, -, -, -, -, -, hlat, hhold⟩ := sequenced_sameBut j
  have hturned : j.turnedCore.latinv = j.core.latinv ∧ j.turnedCore.holdinv = j.core.holdinv := by
    unfold Issue.turnedCore
    split <;> exact ⟨hlat, hhold⟩
  have hcycle := sansLanding_idleCycle j.turnedCore
  obtain ⟨_, _, _, hclosing⟩ := closing_core (i := i) hplain hn
  obtain ⟨_, _, _, _, hgoes⟩ := goesOn_eq j
  rw [(cdiag_notes _).1, (cdiag_notes _).2, hclosing, hgoes, ← hturned.1, ← hturned.2]
  exact ⟨by have := congrArg Core.latinv hcycle; exact this, by have := congrArg Core.holdinv hcycle; exact this⟩

theorem noteInvalid_notes (c : Core) (u : UnitId) : (c.noteInvalid u true).latinv = true ∧ (c.noteInvalid u false).holdinv = true :=
  ⟨Bool.or_true _, Bool.or_true _⟩

/-- Settles O43: the read notes its bit in the core, and nothing at the end of the bundle clears it. -/
theorem invalidSourcesReadAsZero : Obligations.InvalidSourcesReadAsZero := by
  intro i s pos r f
  have noted (latch : Bool) : i.onlyRead s ((i.opening s).upd (fun c => c.noteInvalid (i.opening s).unit latch)) :=
    onlyRead_noteInvalid onlyRead_opening _ _
  refine ⟨fun h => ⟨_, source_latch_invalid (j := i.opening s) h, noted true, ?_⟩,
    fun h => ⟨_, source_held_invalid (j := i.opening s) h, noted false, ?_⟩⟩
  · rw [(closing_cdiag_notes (noted true)).1, (cdiag_notes _).1, upd_core, (noteInvalid_notes _ _).1]
    exact ⟨rfl, rfl⟩
  · rw [(closing_cdiag_notes (noted false)).2, (cdiag_notes _).2, upd_core, (noteInvalid_notes _ _).2]
    exact ⟨rfl, rfl⟩

end Sys2Proof.Machine
end

section
/-! The end of a bundle that has read sources and delivered at most one result (02_core.md R27 to R31, R34, R38, R43, R148): the results that
land, the latch chain, the frame, and the post-increment. -/

namespace Sys2Proof.Machine

section
variable {i : SlotInstr} {s : State} {j : Issue} {f : RegFile} {r lat : Nat} {x : Vec}

/-! ### The issue before the end -/

/-- What the end of the bundle needs of an issue: it is the core's own, asked for nothing, and started from the core as it was. -/
def Issue.atEnd (j : Issue) (s : State) : Prop := j.n = s.cur ∧ j.pre = s.pre ∧ j.incs = [] ∧ j.plain

theorem atEnd_of_onlyRead (h : i.onlyRead s j) : j.atEnd s := by
  obtain ⟨hn, hpre, hincs, hplain, -⟩ := onlyRead_facts h
  exact ⟨hn, hpre, hincs, hplain⟩

theorem atEnd_result (h : i.onlyRead s j) : (j.result f r x lat).atEnd s := (atEnd_of_onlyRead h : j.atEnd s)

/-- A delivered result, as it waits in the pipeline (02_core.md R27). -/
def Issue.delivered (j : Issue) (f : RegFile) (r : Nat) (x : Vec) (lat : Nat) : Pending := ⟨j.unit, f, r, x, j.pre.ic, j.pre.ic + lat⟩

theorem result_pend (h : i.onlyRead s j) : (j.result f r x lat).core.pend = s.pre.pend ++ [j.delivered f r x lat] := by
  rw [result_core, (onlyRead_core h).1.symm]
  rfl

theorem delivered_due (h : i.onlyRead s j) : (j.delivered f r x lat).due = s.pre.ic + lat := by
  show j.pre.ic + lat = _
  rw [(onlyRead_facts h).2.1]

theorem result_ic (h : i.onlyRead s j) : (j.result f r x lat).core.ic = s.pre.ic := by
  rw [result_core, ← (onlyRead_core h).2.1]

theorem result_reg (h : i.onlyRead s j) (f' : RegFile) (r' : Nat) : (j.result f r x lat).core.reg f' r' = s.pre.reg f' r' := by
  rw [result_core, ← (onlyRead_core h).2.2.1 f' r']
  cases f' <;> rfl

/-! ### Registers and results in flight at the end -/

/-- A register at the end is what the issue cycle left of it. -/
theorem closing_reg (h : j.atEnd s) (hu : s.pre.unwrapped f) :
    ((i.closing s j).core s.cur).reg f r = j.turnedCore.idleCycle.reg f r := by
  obtain ⟨hn, hpre, hincs, hplain⟩ := h
  rw [(closing_agrees i s j hplain hn).2.1]
  exact goesOn_reg j hincs f r (hpre ▸ hu)

theorem closing_pend (h : j.atEnd s) :
    ((i.closing s j).core s.cur).pend = j.core.pend.filter (fun p => decide (j.core.ic + 1 < p.due)) := by
  obtain ⟨hn, -, -, hplain⟩ := h
  obtain ⟨-, -, hpend, hic, -⟩ := turnedCore_keeps j
  obtain ⟨_, _, _, hclosing⟩ := closing_core (i := i) hplain hn
  obtain ⟨_, _, _, _, hgoes⟩ := goesOn_eq j
  rw [hclosing, hgoes, ← hpend, ← hic]
  exact idleCycle_pend _

/-- A register on which nothing falls due keeps its value. -/
theorem closing_reg_still (h : j.atEnd s) (hu : s.pre.unwrapped f) (hs : j.core.still f r) :
    ((i.closing s j).core s.cur).reg f r = j.core.reg f r := by
  have hu' : j.pre.unwrapped f := h.2.1 ▸ hu
  obtain ⟨-, -, hpend, hic, -⟩ := turnedCore_keeps j
  rw [closing_reg h hu, reg_idleCycle_still, turned_reg j f r hu']
  intro p hp hf hr
  rw [hic]
  exact hs p (hpend ▸ hp) hf hr

theorem closing_reg_wired (h : j.atEnd s) (hu : s.pre.unwrapped f) (hw : wired f r) :
    ((i.closing s j).core s.cur).reg f r = j.core.reg f r := by
  have hu' : j.pre.unwrapped f := h.2.1 ▸ hu
  rw [closing_reg h hu, reg_idleCycle_wired _ _ _ hw, turned_reg j f r hu']

/-- The last result that falls due on a register is what it holds, and no longer in flight (02_core.md R29). -/
theorem closing_reg_due (h : j.atEnd s) {l1 l2 : List Pending} {p : Pending} (hl : j.core.pend = l1 ++ p :: l2)
    (hu : s.pre.unwrapped p.file) (hd : p.due ≤ j.core.ic + 1) (hw : ¬ wired p.file p.reg)
    (hlater : ∀ q ∈ l2, q.file = p.file → q.reg = p.reg → j.core.ic + 1 < q.due) :
    ((i.closing s j).core s.cur).reg p.file p.reg = fitted p.file p.value ∧ p ∉ ((i.closing s j).core s.cur).pend := by
  obtain ⟨-, -, hpend, hic, -⟩ := turnedCore_keeps j
  constructor
  · rw [closing_reg h hu]
    exact reg_idleCycle_due _ l1 l2 p (hpend.trans hl) (hic ▸ hd) hw (hic ▸ hlater)
  · rw [closing_pend h, List.mem_filter]
    rintro ⟨-, hdue⟩
    exact absurd (of_decide_eq_true hdue) (Nat.not_lt.2 hd)

/-- Nothing falls due on a register of which the core and the delivered result say so. -/
theorem still_result (h : i.onlyRead s j) {f' : RegFile} {r' : Nat} (hs : s.pre.still f' r')
    (hnew : f = f' → r = r' → 1 < lat) : (j.result f r x lat).core.still f' r' := by
  intro p hp hf hr
  rw [result_ic h]
  rw [result_pend h, List.mem_append, List.mem_singleton] at hp
  rcases hp with hp | rfl
  · exact hs p hp hf hr
  · rw [delivered_due h]
    have := hnew hf hr
    omega

theorem still_onlyRead (h : i.onlyRead s j) (hs : s.pre.still f r) : j.core.still f r := by
  obtain ⟨hpend, hic, -⟩ := onlyRead_core h
  intro p hp hf hr
  rw [hic]
  exact hs p (hpend ▸ hp) hf hr

end

theorem resultsLandWhenTheyFallDue : Claims.ResultsLandWhenTheyFallDue := by
  intro i s j f r x h hu
  refine ⟨fun hs hw => ?_, fun lat hlat hs => ⟨?_, ?_⟩, fun l1 p l2 hl hf hr hd hlater hw => ?_, fun hw lat => ?_⟩
  · refine (closing_reg_due (p := j.delivered f r x 1) (atEnd_result h) (result_pend h) hu ?_ hw (fun q hq => absurd hq List.not_mem_nil)).1
    rw [delivered_due h, result_ic h]
  · rw [closing_reg_still (atEnd_result h) hu (still_result h hs fun _ _ => hlat), result_reg h]
  · have hmem : j.delivered f r x lat ∈ ((i.closing s (j.result f r x lat)).core s.cur).pend := by
      rw [closing_pend (atEnd_result h), List.mem_filter, result_pend h, result_ic h, delivered_due h]
      exact ⟨by simp, by simpa using hlat⟩
    obtain ⟨-, hpre, -, -, hunit⟩ := onlyRead_facts h
    rwa [Issue.delivered, hpre, hunit] at hmem
  · subst hf hr
    obtain ⟨hpend, hic, -⟩ := onlyRead_core h
    rw [← hic] at hd hlater
    exact closing_reg_due (atEnd_of_onlyRead h) (hpend.trans hl) hu hd hw hlater
  · rw [closing_reg_wired (atEnd_result h) hu hw, result_reg h]

/-! ### The latch chain (02_core.md R34, R38) -/

/-- A latch by number: whether it is valid, and what it holds. -/
def Core.latch (c : Core) (m : Nat) : Bool × Vec := (c.latv.getLsbD m, Tbl.get 0 c.latches m)

/-- Latch `n` takes what the latch before it holds, with its validity. -/
def Core.shiftLatch (n : Nat) (c : Core) : Core :=
  { c with latches := Tbl.set 0 c.latches n (Tbl.get 0 c.latches (n - 1)),
           latv := if c.latv.getLsbD (n - 1) then c.latv ||| BitVec.ofNat 24 (2 ^ n) else c.latv &&& ~~~ BitVec.ofNat 24 (2 ^ n) }

/-- Latch `n` takes a value. -/
def Core.fillLatch (n : Nat) (x : Vec) (c : Core) : Core :=
  { c with latches := Tbl.set 0 c.latches n x, latv := c.latv ||| BitVec.ofNat 24 (2 ^ n) }

theorem pushLatch_eq (c : Core) (u : UnitId) (x : Vec) : c.pushLatch u x =
    (((c.shiftLatch (4 * u.idx + 3)).shiftLatch (4 * u.idx + 2)).shiftLatch (4 * u.idx + 1)).fillLatch (4 * u.idx) x := rfl

/-- Writing bit n of a 24-bit word. -/
theorem getLsbD_writeBit (v : BitVec 24) {n : Nat} (hn : n < 24) (b : Bool) (m : Nat) :
    (if b then v ||| BitVec.ofNat 24 (2 ^ n) else v &&& ~~~ BitVec.ofNat 24 (2 ^ n)).getLsbD m = if m = n then b else v.getLsbD m := by
  have hbit : (BitVec.ofNat 24 (2 ^ n)).getLsbD m = decide (m = n) := by
    rw [getLsbD_ofNat_two_pow, decide_eq_decide]
    omega
  have hlt (h : v.getLsbD m = true) : m < 24 := BitVec.lt_of_getLsbD h
  by_cases hm : m = n
  · cases b
    · rw [if_neg (by decide), BitVec.getLsbD_and, BitVec.getLsbD_not, hbit]
      simp [hm]
    · rw [if_pos rfl, BitVec.getLsbD_or, hbit]
      simp [hm]
  · cases b
    · rw [if_neg (by decide), BitVec.getLsbD_and, BitVec.getLsbD_not, hbit]
      simpa [hm] using hlt
    · rw [if_pos rfl, BitVec.getLsbD_or, hbit]
      simp [hm]

theorem latch_shiftLatch (c : Core) {n : Nat} (hn : n < 24) (m : Nat) :
    (c.shiftLatch n).latch m = if m = n then c.latch (n - 1) else c.latch m := by
  unfold Core.latch Core.shiftLatch
  dsimp only
  rw [getLsbD_writeBit _ hn, Tbl.get_set]
  split <;> rfl

theorem latch_fillLatch (c : Core) {n : Nat} (hn : n < 24) (x : Vec) (m : Nat) :
    (c.fillLatch n x).latch m = if m = n then (true, x) else c.latch m := by
  have hbit := getLsbD_writeBit c.latv hn true m
  rw [if_pos rfl] at hbit
  unfold Core.latch Core.fillLatch
  dsimp only
  rw [hbit, Tbl.get_set]
  split <;> rfl

theorem UnitId.idx_lt (u : UnitId) : u.idx < 6 := by cases u <;> decide

/-- A result enters x0 of its unit, x0 to x2 move on, and no latch of another unit moves. -/
theorem latch_pushLatch (c : Core) (u : UnitId) (x : Vec) :
    let k := 4 * u.idx
    (c.pushLatch u x).latch k = (true, x) ∧ (∀ n < 3, (c.pushLatch u x).latch (k + n + 1) = c.latch (k + n)) ∧
    (∀ m, m < k ∨ k + 4 ≤ m → (c.pushLatch u x).latch m = c.latch m) := by
  intro k
  have hk : k + 3 < 24 := by have := u.idx_lt; omega
  have hpush (m : Nat) : (c.pushLatch u x).latch m =
      if m = k then (true, x) else if m = k + 1 then c.latch k else if m = k + 2 then c.latch (k + 1)
      else if m = k + 3 then c.latch (k + 2) else c.latch m := by
    rw [pushLatch_eq, latch_fillLatch _ (by omega), latch_shiftLatch _ (by omega), latch_shiftLatch _ (by omega), latch_shiftLatch _ (by omega)]
    have h1 : k + 1 - 1 = k := by omega
    have h2 : k + 2 - 1 = k + 1 := by omega
    have h3 : k + 3 - 1 = k + 2 := by omega
    simp only [show 4 * u.idx = k from rfl, h1, h2, h3, latch_shiftLatch _ (show k + 2 < 24 by omega), latch_shiftLatch _ hk]
    simp
  refine ⟨by rw [hpush, if_pos rfl], fun n hn => ?_, fun m hm => ?_⟩
  · rw [hpush]
    interval_cases n <;> simp only [Nat.add_zero, Nat.add_assoc, Nat.add_eq_left, Nat.add_left_cancel_iff, Nat.reduceAdd, Nat.reduceEqDiff,
      OfNat.ofNat_ne_zero, one_ne_zero, if_true, if_false]
  · rw [hpush, if_neg (by omega), if_neg (by omega), if_neg (by omega), if_neg (by omega)]

/-- Of what a landing result writes, only its entry into the chain touches a latch. -/
theorem latch_landOne (c : Core) (p : Pending) (m : Nat) : (c.landOne p).latch m = (c.pushLatch p.unit p.value).latch m := by
  obtain ⟨u, file, reg, v, t, d⟩ := p
  cases file
  case a | b | v | latch => rfl
  all_goals
    simp only [Core.landOne, Core.setG, Core.setP, Core.setM]
    split <;> rfl

section
variable {i : SlotInstr} {s : State} {j : Issue}

/-- The latches at the end of a bundle outside a loop buffer are those that its issue cycle left. -/
theorem closing_latches (h : j.atEnd s) (hl : s.pre.lbix = none) :
    ((i.closing s j).core s.cur).latv = j.core.idleCycle.latv ∧ ((i.closing s j).core s.cur).latches = j.core.idleCycle.latches := by
  obtain ⟨hn, hpre, -, hplain⟩ := h
  obtain ⟨_, _, _, hclosing⟩ := closing_core (i := i) hplain hn
  obtain ⟨_, _, _, _, hgoes⟩ := goesOn_eq j
  rw [hclosing, hgoes, turnedCore_none j (hpre ▸ hl)]
  exact ⟨rfl, rfl⟩

theorem closing_latch (h : j.atEnd s) (hl : s.pre.lbix = none) (m : Nat) :
    ((i.closing s j).core s.cur).latch m = j.core.idleCycle.latch m := by
  unfold Core.latch
  rw [(closing_latches h hl).1, (closing_latches h hl).2]

/-- Nothing falls due among results that are all due later. -/
theorem due_of_later {c : Core} (h : ∀ p ∈ c.pend, c.ic + 1 < p.due) : c.pend.filter (fun p => decide (p.due ≤ c.ic + 1)) = [] :=
  List.filter_eq_nil_iff.2 fun p hp => by simpa using h p hp

/-- When the one result that falls due is the one delivered, the issue cycle brings it into the chain. -/
theorem latch_idleCycle_result {f : RegFile} {r : Nat} {x : Vec} (h : i.onlyRead s j) (hlater : ∀ p ∈ s.pre.pend, s.pre.ic + 1 < p.due) (m : Nat) :
    (j.result f r x 1).core.idleCycle.latch m = (s.pre.pushLatch i.unit x).latch m := by
  obtain ⟨-, -, -, -, hunit⟩ := onlyRead_facts h
  obtain ⟨-, -, -, hlatches, hlatv, -⟩ := onlyRead_core h
  have hdue : (j.result f r x 1).core.pend.filter (fun p => decide (p.due ≤ (j.result f r x 1).core.ic + 1)) = [j.delivered f r x 1] := by
    rw [result_pend h, result_ic h, List.filter_append, due_of_later hlater, List.filter_singleton, delivered_due h]
    simp
  rw [idleCycle_eq, hdue, List.foldl_cons, List.foldl_nil, latch_landOne, result_core]
  have hvalue : (j.delivered f r x 1).value = x := rfl
  have hfrom : (j.delivered f r x 1).unit = i.unit := hunit
  rw [hvalue, hfrom]
  simp only [Core.latch, Core.pushLatch, hlatches, hlatv]

end

theorem resultsEnterTheLatchChain : Claims.ResultsEnterTheLatchChain := by
  intro i s j h hl hlater
  refine ⟨fun f r x => ?_, ?_⟩
  · have hlatch (m : Nat) : ((i.closing s (j.result f r x 1)).core s.cur).latch m = (s.pre.pushLatch i.unit x).latch m :=
      (closing_latch (atEnd_result h) hl m).trans (latch_idleCycle_result h hlater m)
    obtain ⟨hfirst, hmove, hothers⟩ := latch_pushLatch s.pre i.unit x
    have same {c d : Core} {m n : Nat} (e : c.latch m = d.latch n) :
        c.latv.getLsbD m = d.latv.getLsbD n ∧ Tbl.get 0 c.latches m = Tbl.get 0 d.latches n := Prod.mk.inj e
    exact ⟨Prod.mk.inj ((hlatch _).trans hfirst), fun n hn => same ((hlatch _).trans (hmove n hn)),
      fun m hm => same ((hlatch m).trans (hothers m hm))⟩
  · obtain ⟨hpend, hic, -, hlatches, hlatv, -⟩ := onlyRead_core h
    have hdue := due_of_later (c := j.core) (by rw [hpend, hic]; exact hlater)
    obtain ⟨hv, hx⟩ := closing_latches (i := i) (atEnd_of_onlyRead h) hl
    have hcycle : j.core.idleCycle.latv = j.core.latv ∧ j.core.idleCycle.latches = j.core.latches := by
      rw [idleCycle_eq, hdue]
      exact ⟨rfl, rfl⟩
    exact ⟨hv.trans (hcycle.1.trans hlatv), hx.trans (hcycle.2.trans hlatches)⟩

/-- Settles O44: what falls due lands in the issue cycle that the end of the bundle is, and lands into the chain as well. -/
theorem resultsLandAndEnterTheLatchChain : Obligations.ResultsLandAndEnterTheLatchChain :=
  ⟨resultsLandWhenTheyFallDue, resultsEnterTheLatchChain⟩

/-! ### The frame (02_core.md R24, R28, R31, R148) -/

section
variable {i : SlotInstr} {s : State} {j : Issue} {f : RegFile} {r lat : Nat} {x : Vec}

/-- The core without what reading and delivering a result change of it before the end of the bundle. -/
def Core.sansDelivery (c : Core) : Core := { c.sansReads with pend := [] }

/-- The slot has changed nothing of the state but captures, notes and results in flight of its own core. -/
def Issue.inFrame (j : Issue) (s : State) : Prop :=
  j.core.sansDelivery = s.pre.sansDelivery ∧ j.s.sansCores = s.opened.sansCores ∧ ∀ m, m ≠ s.cur → j.s.core m = s.core m

theorem core_opened {m : Nat} (hm : m ≠ s.cur) : s.opened.core m = s.core m := by
  unfold State.opened State.spendCycle
  rw [core_upd, if_neg hm, core_upd, if_neg hm]
  rfl

theorem sansCores_of_eq {t u : State} (h : ({ t with cores := u.cores } : State) = u) : t.sansCores = u.sansCores := by
  have := congrArg State.sansCores h
  exact this

theorem sansDelivery_of_sansReads {c d : Core} (h : c.sansReads = d.sansReads) : c.sansDelivery = d.sansDelivery :=
  congrArg (fun e : Core => { e with pend := [] }) h

theorem inFrame_of_onlyRead (h : i.onlyRead s j) : j.inFrame s := by
  have hread := onlyRead_sansReads h
  obtain ⟨-, -, hstate, hothers⟩ := h
  exact ⟨sansDelivery_of_sansReads hread, sansCores_of_eq hstate, fun m hm => (hothers m hm).trans (core_opened hm)⟩

theorem inFrame_result (hn : j.n = s.cur) (h : j.inFrame s) : (j.result f r x lat).inFrame s := by
  obtain ⟨hcore, hstate, hothers⟩ := h
  refine ⟨?_, hstate, fun m hm => ?_⟩
  · rw [result_core, ← hcore]
    rfl
  · show (j.s.upd j.n _).core m = _
    rw [core_upd, if_neg (hn ▸ hm), hothers m hm]

theorem rest_of_sansDelivery {c d : Core} (h : c.sansDelivery = d.sansDelivery) : c.rest = d.rest := by
  have := congrArg Core.rest h
  exact this

theorem kept_of_sansDelivery {c d : Core} (h : c.sansDelivery = d.sansDelivery) : c.mx = d.mx ∧ c.lctl = d.lctl ∧ c.lstat = d.lstat := by
  have hmx := congrArg Core.mx h
  have hlctl := congrArg Core.lctl h
  have hlstat := congrArg Core.lstat h
  exact ⟨hmx, hlctl, hlstat⟩

theorem kept_of_rest {c d : Core} (h : c.rest = d.rest) :
    c.dutyGroup = d.dutyGroup ∧ c.dutyUsed = d.dutyUsed ∧ ∀ a, c.getStride a = d.getStride a := by
  have hgroup := congrArg Core.dutyGroup h
  have hused := congrArg Core.dutyUsed h
  have hstride := congrArg Core.getStride h
  exact ⟨hgroup, hused, fun a => congrFun hstride a⟩

theorem kept_of_sansLanding {c d : Core} (h : c.sansLanding = d.sansLanding) : c.mx = d.mx ∧ c.lctl = d.lctl ∧ c.lstat = d.lstat := by
  have hmx := congrArg Core.mx h
  have hlctl := congrArg Core.lctl h
  have hlstat := congrArg Core.lstat h
  exact ⟨hmx, hlctl, hlstat⟩

/-- Everything beside the cores and time is as it was, and so is every other core. -/
theorem closing_othersKept (h : j.atEnd s) (hf : j.inFrame s) : s.othersKept (i.closing s j) := by
  obtain ⟨hn, -, -, hplain⟩ := h
  obtain ⟨-, hstate, hothers⟩ := hf
  refine ⟨?_, fun m hm => (closing_others i s j hplain hn m hm).trans (hothers m hm)⟩
  have hsans : (i.closing s j).sansCores = s.opened.sansCores := (closing_sansCores i s j hplain).trans hstate
  exact congrArg (fun t : State => { t with cores := s.cores, now := s.now }) hsans

theorem closing_rest (h : j.atEnd s) (hf : j.inFrame s) : ((i.closing s j).core s.cur).rest = s.pre.rest := by
  obtain ⟨hn, -, -, hplain⟩ := h
  obtain ⟨hrest, -⟩ := closing_agrees i s j hplain hn
  rw [hrest, Issue.goesOn, leave_rest, rest_idleCycle, (turnedCore_keeps j).1, rest_of_sansDelivery hf.1]

theorem closing_mx (h : j.atEnd s) (hf : j.inFrame s) : ((i.closing s j).core s.cur).mx = s.pre.mx := by
  obtain ⟨hn, -, -, hplain⟩ := h
  obtain ⟨-, -, -, -, hmx⟩ := turnedCore_keeps j
  obtain ⟨_, _, _, hclosing⟩ := closing_core (i := i) hplain hn
  obtain ⟨_, _, _, _, hgoes⟩ := goesOn_eq j
  rw [hclosing, hgoes, ← (kept_of_sansDelivery hf.1).1, ← hmx]
  exact (kept_of_sansLanding (sansLanding_idleCycle _)).1

/-- Outside a loop buffer the next bundle is the one behind, and no loop register moves. -/
theorem closing_sequence (h : j.atEnd s) (hf : j.inFrame s) (hl : s.pre.lbix = none) :
    let d := (i.closing s j).core s.cur
    d.pc = s.pre.pc + 16 ∧ d.lctl = s.pre.lctl ∧ d.lstat = s.pre.lstat := by
  obtain ⟨hn, hpre, -, hplain⟩ := h
  obtain ⟨-, hlctl, hlstat⟩ := kept_of_sansLanding (sansLanding_idleCycle j.turnedCore)
  obtain ⟨-, hlctl', hlstat'⟩ := kept_of_sansDelivery hf.1
  have hlj : j.pre.lbix = none := hpre ▸ hl
  have hnext : (j.next j.sequenced.1 j.sequenced.2.2.1).1 = s.pre.pc + 16 := by
    obtain ⟨htaken, hloop, -⟩ := hplain
    rw [← hpre]
    simp only [Issue.next, htaken, hloop, hlj]
  obtain ⟨_, _, _, hclosing⟩ := closing_core (i := i) hplain hn
  obtain ⟨_, _, _, _, hgoes⟩ := goesOn_eq j
  rw [hclosing, hgoes, ← hnext, ← hlctl', ← hlstat', ← turnedCore_none j hlj, ← hlctl, ← hlstat]
  exact ⟨rfl, rfl, rfl⟩

end

/-- Settles O45: reading and delivering stay in the frame, and the end of the bundle does. -/
theorem bundleEndKeepsTheRest : Obligations.BundleEndKeepsTheRest := by
  intro i s j f r lat x h _ t ht
  have frame : ∀ k : Issue, k.atEnd s → k.inFrame s →
      (∀ f' r', (f', r') ≠ (f, r) → s.pre.still f' r' → k.core.still f' r' ∧ k.core.reg f' r' = s.pre.reg f' r') →
      t = i.closing s k →
      let d := t.core s.cur
      s.othersKept t ∧ s.pre.restKept d ∧ d.dutyGroup = s.pre.dutyGroup ∧ d.dutyUsed = s.pre.dutyUsed ∧ d.mx = s.pre.mx ∧
      (s.pre.lbix = none → d.pc = s.pre.pc + 16 ∧ d.lctl = s.pre.lctl ∧ d.lstat = s.pre.lstat) ∧
      (∀ f' r', (f', r') ≠ (f, r) → s.pre.still f' r' → s.pre.unwrapped f' → d.reg f' r' = s.pre.reg f' r') ∧
      (∀ a, d.getStride a = s.pre.getStride a) := by
    rintro k hend hframe hregs rfl
    have hrest := closing_rest (i := i) hend hframe
    obtain ⟨hgroup, hused, hstride⟩ := kept_of_rest hrest
    refine ⟨closing_othersKept hend hframe, hrest, hgroup, hused, closing_mx hend hframe, closing_sequence hend hframe, ?_, hstride⟩
    intro f' r' hne hs hu
    obtain ⟨hstill, hreg⟩ := hregs f' r' hne hs
    rw [closing_reg_still hend hu hstill, hreg]
  have hread := inFrame_of_onlyRead h
  rcases ht with ht | ht
  · exact frame j (atEnd_of_onlyRead h) hread (fun f' r' _ hs => ⟨still_onlyRead h hs, (onlyRead_core h).2.2.1 f' r'⟩) ht
  · refine frame _ (atEnd_result h) (inFrame_result (onlyRead_facts h).1 hread) (fun f' r' hne hs => ⟨still_result h hs ?_, result_reg h f' r'⟩) ht
    rintro rfl rfl
    exact absurd rfl hne

end Sys2Proof.Machine
end

section
/-! Guards that are false, post-increments, and bundles that wait (02_core.md R30, R40 to R43; 16_kernel.md R373; 22_reliability.md R462). -/

namespace Sys2Proof.Machine

section
variable {k : Instr} {i : SlotInstr} {g : Guard} {s : State}

/-! ### Slots whose guard is false (02_core.md R40 to R42) -/

/-- The row is a slot operation that does all it does under its guard, but for the address step `inc`. -/
def UnderGuard (k : Instr) (g : Guard) (inc : Option Nat) : Prop :=
  ∃ i op, k.slot = some i ∧ slotOp i = guarded g inc op

theorem opn_of_slot (h : k.slot = some i) : k.opn = i := by rw [Instr.opn, h]; rfl

/-- Such a row completes with nothing done when its guard is false. -/
theorem ends_of_falseGuard (hk : UnderGuard k g none) (hg : s.pre.guardOk g = false) (hi : k.opn.issues s) : k.ends s (k.opening s) := by
  obtain ⟨i, op, hslot, hop⟩ := hk
  obtain rfl := opn_of_slot hslot
  have hrun := guarded_false g none op (k.opn.opening s) (by rwa [opening_pre])
  rw [← hop] at hrun
  exact ends_of hslot hi hrun

/-- The same of a row with a memory operand: its address register still steps (04_encoding.md R110). -/
theorem endsAt_of_falseGuard {a : BitVec 4} {am : BitVec 2} (hk : UnderGuard k g (incOf a am)) (hg : s.pre.guardOk g = false)
    (hi : k.opn.issues s) : k.ends s (k.openingAt s a am) := by
  obtain ⟨i, op, hslot, hop⟩ := hk
  obtain rfl := opn_of_slot hslot
  have hrun := guarded_false g (incOf a am) op (k.opn.opening s) (by rwa [opening_pre])
  rw [← hop] at hrun
  exact ends_of hslot hi hrun

/-- The row is an M operation: its slot runs it under its guard and the duty level. -/
def UnderDuty (k : Instr) (g : Guard) : Prop := ∃ i op, k.slot = some i ∧ slotOp i = guardedM g op

theorem underGuard_of_underDuty (h : UnderDuty k g) : UnderGuard k g none := by
  obtain ⟨i, op, hslot, hop⟩ := h
  exact ⟨i, _, hslot, hop⟩

end

section
variable {g : Guard}

theorem underGuard_integerRows : ∀ e ∈ Claims.integerRows, ∀ o, UnderGuard (e.1 g o) g none := by
  simp only [Claims.integerRows, List.forall_mem_cons, List.not_mem_nil, false_implies, implies_true, and_true]
  and_intros <;> exact fun _ => ⟨_, _, rfl, by dsimp only [slotOp, sOp]; exact rfl⟩

theorem underGuard_compareRows : ∀ e ∈ Claims.compareRows, ∀ o, UnderGuard (e.1 g o) g none := by
  simp only [Claims.compareRows, List.forall_mem_cons, List.not_mem_nil, false_implies, implies_true, and_true]
  and_intros <;> exact fun _ => ⟨_, _, rfl, by dsimp only [slotOp, sOp]; exact rfl⟩

theorem underGuard_predicateRows : ∀ e ∈ Claims.predicateRows, ∀ o, UnderGuard (e.1 g o) g none := by
  simp only [Claims.predicateRows, List.forall_mem_cons, List.not_mem_nil, false_implies, implies_true, and_true]
  and_intros <;> exact fun _ => ⟨_, _, rfl, by dsimp only [slotOp, sOp]; exact rfl⟩

theorem underGuard_loadRows : ∀ e ∈ Claims.loadRows, ∀ o, UnderGuard (e.1 g o) g (incOf o.a o.am) := by
  simp only [Claims.loadRows, List.forall_mem_cons, List.not_mem_nil, false_implies, implies_true, and_true]
  and_intros <;> exact fun _ => ⟨_, _, rfl, by dsimp only [slotOp, sOp]; exact rfl⟩

theorem underGuard_storeRows : ∀ e ∈ Claims.storeRows, ∀ o, UnderGuard (e.1 g o) g (incOf o.a o.am) := by
  simp only [Claims.storeRows, List.forall_mem_cons, List.not_mem_nil, false_implies, implies_true, and_true]
  and_intros <;> exact fun _ => ⟨_, _, rfl, by dsimp only [slotOp, sOp]; exact rfl⟩

end

theorem falseGuardsDoNothing : Claims.FalseGuardsDoNothing := by
  intro g s hg
  refine ⟨fun o k hk => ends_of_falseGuard ?_ hg, fun o k hk => endsAt_of_falseGuard ?_ hg, fun o k hk => endsAt_of_falseGuard ?_ hg,
    fun o => ends_of_falseGuard ⟨.s (.trap g o), _, rfl, show opTrap g o = _ from rfl⟩ hg,
    ends_of_falseGuard ⟨.s (.halt g), _, rfl, show opHalt g = _ from rfl⟩ hg,
    fun o => ends_of_falseGuard (underGuard_of_underDuty ⟨.m (.mshift g o), _, rfl, show opMshift g o = _ from rfl⟩) hg⟩
  · simp only [List.mem_append] at hk
    obtain ((hk | hk) | hk) | hk := hk
    · obtain ⟨e, he, rfl⟩ := List.mem_map.1 hk
      exact underGuard_integerRows e he o
    · obtain ⟨e, he, rfl⟩ := List.mem_map.1 hk
      exact underGuard_compareRows e he o
    · obtain ⟨e, he, rfl⟩ := List.mem_map.1 hk
      exact underGuard_predicateRows e he o
    · revert k
      simp only [List.forall_mem_cons, List.not_mem_nil, false_implies, implies_true, and_true]
      and_intros <;> exact ⟨_, _, rfl, by dsimp only [slotOp, sOp, vOp, xOp, mOp]; exact rfl⟩
  · simp only [List.mem_append] at hk
    obtain (hk | hk) | hk := hk
    · obtain ⟨e, he, rfl⟩ := List.mem_map.1 hk
      exact underGuard_loadRows e he o
    · obtain ⟨e, he, rfl⟩ := List.mem_map.1 hk
      exact underGuard_storeRows e he o
    · revert k
      simp only [List.forall_mem_cons, List.not_mem_nil, false_implies, implies_true, and_true]
      and_intros <;> exact ⟨_, _, rfl, by dsimp only [slotOp, sOp, vOp, xOp, mOp]; exact rfl⟩
  · revert k
    simp only [List.forall_mem_cons, List.not_mem_nil, false_implies, implies_true, and_true]
    and_intros <;> exact ⟨_, _, rfl, by dsimp only [slotOp, sOp, vOp, xOp, mOp]; exact rfl⟩

/-! ### Post-increments (02_core.md R43) -/

theorem vec64_injective : Function.Injective vec64 := fun x y h => by
  have := congrArg (BitVec.setWidth 64) h
  simpa [vec64, BitVec.setWidth_setWidth] using this

/-- Address registers of two cores agree where they hold the same as registers. -/
theorem getA_of_reg {c d : Core} {r : Nat} (h : c.reg .a r = d.reg .a r) : c.getA r = d.getA r := vec64_injective h

theorem addIncs_one (c : Core) (a : Nat) (x : W64) (r : Nat) :
    (c.addIncs [(a, x)]).getA r = if r = a then c.getA a + x else c.getA r := getA_setA c a r (c.getA a + x)

/-- Outside a loop buffer the address updates of a bundle are its slots' own, added to what the issue cycle left. -/
theorem closing_getA {i : SlotInstr} {s : State} {j : Issue} (hp : j.plain) (hn : j.n = s.cur) (hpre : j.pre = s.pre) (hl : s.pre.lbix = none) (r : Nat) :
    ((i.closing s j).core s.cur).getA r = (j.core.idleCycle.addIncs j.incs).getA r := by
  have hlj : j.pre.lbix = none := hpre ▸ hl
  refine (getA_of_reg ((closing_agrees i s j hp hn).2.1 .a r)).trans ?_
  unfold Issue.goesOn
  rw [turnedCore_none j hlj, sequenced_none j hlj, List.append_nil]
  rfl

theorem increment_plain (i : SlotInstr) (s : State) (a : Nat) : ((i.opening s).increment a).plain :=
  ⟨rfl, rfl, rfl, rfl, rfl, rfl, rfl, rfl⟩

theorem increment_core (i : SlotInstr) (s : State) (a : Nat) : ((i.opening s).increment a).core = s.pre := rfl

theorem postIncrementAddsTheStride : Claims.PostIncrementAddsTheStride := by
  intro i s a hl hs
  have hplain := increment_plain i s a
  have hidle (r : Nat) : s.pre.idleCycle.getA r = s.pre.getA r := getA_of_reg (reg_idleCycle_still _ _ _ (hs r))
  have hget (r : Nat) : ((i.closing s ((i.opening s).increment a)).core s.cur).getA r =
      if r = a then s.pre.getA a + s.pre.getStride a else s.pre.getA r := by
    rw [closing_getA hplain rfl rfl hl r, increment_core, increment_incs, opening_pre, ← hidle, ← hidle]
    exact addIncs_one s.pre.idleCycle a (s.pre.getStride a) r
  have hrest : ((i.closing s ((i.opening s).increment a)).core s.cur).rest = s.pre.rest := by
    obtain ⟨hrest, -⟩ := closing_agrees i s _ hplain rfl
    rw [hrest, Issue.goesOn, leave_rest, rest_idleCycle, (turnedCore_keeps _).1, increment_core]
  exact ⟨(hget a).trans (if_pos rfl), fun r hr => (hget r).trans (if_neg hr), (kept_of_rest hrest).2.2⟩

/-- Settles O46: a guard is read before anything its slot does, and the address step comes before the guard. -/
theorem falseGuardsAndPostIncrements : Obligations.FalseGuardsAndPostIncrements := ⟨falseGuardsDoNothing, postIncrementAddsTheStride⟩

/-! ### Bundles that wait -/

/-- An M operation whose guard holds waits while the duty level holds its core back (22_reliability.md R462). -/
theorem guardedM_held (g : Guard) (op : Op) (i : Issue) (h : i.pre.guardOk g = true) (hd : i.s.dutyHolds i.n = true) :
    guardedM g op i = .error .wait := by
  unfold guardedM
  rw [guarded_true g none _ i h]
  exact if_pos hd

theorem stops_of_duty {k : Instr} {g : Guard} {s : State} (hk : UnderDuty k g) (hi : k.opn.issues s) (hg : s.pre.guardOk g = true)
    (hd : s.opened.dutyHolds s.cur = true) : k.stops s .wait := by
  obtain ⟨i, op, hslot, hop⟩ := hk
  obtain rfl := opn_of_slot hslot
  exact stops_of hslot hi (by rw [hop]; exact guardedM_held g op (k.opn.opening s) hg hd)

theorem dutyHoldsMatrixOperations : Claims.DutyHoldsMatrixOperations := by
  intro g a b c d e h q s k hk hi
  have hduty : UnderDuty k g := by
    clear hi
    revert k
    simp only [List.forall_mem_cons, List.not_mem_nil, false_implies, implies_true, and_true]
    and_intros <;> exact ⟨_, _, rfl, by dsimp only [slotOp, sOp, vOp, xOp, mOp]; exact rfl⟩
  exact ⟨fun hg hd => stops_of_duty hduty hi hg hd, fun hg => ends_of_falseGuard (underGuard_of_underDuty hduty) hg hi⟩

/-- The rows that ask a unit do so under their guard. -/
theorem asking_of_askingRows : ∀ e ∈ Claims.askingRows, ∀ g o, ∃ i, (e.1 g o).slot = some i ∧ slotOp i = guarded g none (asking (e.2 o)) := by
  simp only [Claims.askingRows, List.forall_mem_cons, List.not_mem_nil, false_implies, implies_true, and_true]
  and_intros <;> exact fun _ _ => ⟨_, rfl, rfl⟩

/-- An issue that has taken an answer leaves none behind (16_kernel.md R373). -/
theorem withAnswer_takes {i j : Issue} {op : Op} {w : W64} (h : i.withAnswer op w = .ok j) : Tbl.get none j.s.answers (answerKey i.n i.slot) = none := by
  unfold Issue.withAnswer at h
  cases hop : op i with
  | error e => simp [hop, bind, Except.bind] at h
  | ok u =>
    simp only [hop, bind, Except.bind, Except.ok.injEq] at h
    subst h
    exact (Tbl.get_set none i.s.answers _ none _).trans (if_pos rfl)

theorem requestsHoldTheirBundle : Claims.RequestsHoldTheirBundle := by
  intro e he g o s hb
  obtain ⟨i, hslot, hop⟩ := asking_of_askingRows e he g o
  refine ⟨fun j hnone hslow hj => ?_, fun w j hw hj => ⟨?_, ?_⟩⟩
  · exact stops_guarded hslot hop hb (asking_held (e.2 o) ((e.1 g o).opening s) j hslow hnone hj)
  · exact ends_guarded hslot hop hb ((asking_answered (e.2 o) ((e.1 g o).opening s) w hw).trans hj)
  · exact withAnswer_takes hj

/-- Settles O47: the duty level and an answer that is not there stop the bundle before its slot takes effect. -/
theorem heldBundlesWait : Obligations.HeldBundlesWait := ⟨dutyHoldsMatrixOperations, requestsHoldTheirBundle⟩

end Sys2Proof.Machine
end

section
/-! The decoder on words the encoder made (04_encoding.md R94 to R118): the fields of a word and of an extension byte, and each operand
format read back. -/

namespace Sys2Proof

/-! ### Fields of appended words -/

theorem extract_low {m n : Nat} {x : BitVec m} {y : BitVec n} {l k : Nat} (h : l + k ≤ n) : (x ++ y).extractLsb' l k = y.extractLsb' l k :=
  BitVec.extractLsb'_append_eq_of_add_le h

theorem extract_high {m n : Nat} {x : BitVec m} {y : BitVec n} {l k : Nat} (h : n ≤ l) : (x ++ y).extractLsb' l k = x.extractLsb' (l - n) k :=
  BitVec.extractLsb'_append_eq_of_le h

theorem bit_low {m n : Nat} {x : BitVec m} {y : BitVec n} {l : Nat} (h : l < n) : (x ++ y).getLsbD l = y.getLsbD l := by
  rw [BitVec.getLsbD_append, if_pos h]

theorem bit_high {m n : Nat} {x : BitVec m} {y : BitVec n} {l : Nat} (h : n ≤ l) : (x ++ y).getLsbD l = x.getLsbD (l - n) := by
  rw [BitVec.getLsbD_append, if_neg (Nat.not_lt.2 h)]

theorem bit_ofBool (b : Bool) : (BitVec.ofBool b).getLsbD 0 = b := by cases b <;> rfl

theorem bit_zero {w l : Nat} : (0#w).getLsbD l = false := BitVec.getLsbD_zero

theorem extract_zero {w l k : Nat} : (0#w).extractLsb' l k = 0#k := BitVec.extractLsb'_zero

/-- The upper and the lower part of a value, put together. -/
theorem glue {m n : Nat} (x : BitVec (m + n)) : x.extractLsb' n m ++ x.extractLsb' 0 n = x := by
  rw [BitVec.extractLsb'_append_extractLsb'_eq_extractLsb' (Nat.zero_add n).symm]
  exact BitVec.extractLsb'_eq_self

theorem low_extend {m n : Nat} {s : Bool} (x : BitVec n) :
    (if s then x.signExtend (m + n) else x.setWidth (m + n)).extractLsb' 0 n = x := by
  ext l hl
  cases s <;> simp [BitVec.getElem_extractLsb', BitVec.getElem_signExtend, hl, Nat.lt_add_left m hl]

/-- An immediate of `m` extension bits and `n` slot bits (R105): with a header its two parts together are read. Without one the slot bits
alone are extended, and what is read is the immediate where the extension bits of both are zero. -/
theorem immediate_read {m n : Nat} {s hdr : Bool} (x : BitVec (m + n)) {y : BitVec (m + n)}
    (hy : y = if hdr then x.extractLsb' n m ++ x.extractLsb' 0 n
      else if s then (x.extractLsb' 0 n).signExtend (m + n) else (x.extractLsb' 0 n).setWidth (m + n))
    (h : hdr = true ∨ y.extractLsb' n m = 0#m ∧ x.extractLsb' n m = 0#m) : y = x := by
  cases hdr with
  | true => exact hy.trans (glue x)
  | false =>
    obtain ⟨hhigh, hx⟩ := h.resolve_left Bool.false_ne_true
    have hlow : y.extractLsb' 0 n = x.extractLsb' 0 n := by rw [hy]; exact low_extend _
    rw [← glue y, ← glue x, hhigh, hx, hlow]

/-! ### Fields of an encoded word and its extension byte (R103, R104) -/

section
variable {c : BitVec 2} {op : BitVec 7} {p : BitVec 5} {area : BitVec 18} {g : Guard} {a : BitVec 5}

theorem fld_area {l n : Nat} (h : l + n ≤ 18) : fld (encWord c op p area) l n = area.extractLsb' l n := extract_low h

theorem bit_area {l : Nat} (h : l < 18) : (encWord c op p area).getLsbD l = area.getLsbD l := bit_low h

theorem fld_guard : fld (encWord c op p area) 18 5 = p := by
  simp (disch := decide) only [fld, encWord, extract_low, extract_high, Nat.reduceSub, BitVec.extractLsb'_eq_self]

theorem fld_op : fld (encWord c op p area) 23 7 = op := by
  simp (disch := decide) only [fld, encWord, extract_low, extract_high, Nat.reduceSub, BitVec.extractLsb'_eq_self]

theorem ext_aux {l n : Nat} (h : l + n ≤ 5) : (encExt g a).extractLsb' l n = a.extractLsb' l n := extract_low h

theorem aux_encExt : aux (encExt g a) = a := (ext_aux (Nat.le_refl 5)).trans BitVec.extractLsb'_eq_self

theorem bit_aux {l : Nat} (h : l < 5) : (encExt g a).getLsbD l = a.getLsbD l := bit_low h

theorem bit_neg : (encExt g a).getLsbD 7 = g.neg := by
  simp (disch := decide) only [encExt, bit_high, Nat.reduceSub, bit_ofBool]

theorem decFlag_encExt : decFlag (encExt g a) = some g.flag := by
  have hflag : (encExt g a).extractLsb' 5 2 = encFlag g.flag := by
    simp (disch := decide) only [encExt, extract_low, extract_high, Nat.reduceSub, BitVec.extractLsb'_eq_self]
  unfold decFlag
  rw [hflag]
  cases g.flag <;> rfl

/-- The word and extension byte `x` carry opcode `op` and guard `g`. -/
def Shows (x : W32 × Byte) (op : BitVec 7) (g : Guard) : Prop := ∃ c area a, x = (encWord c op g.p area, encExt g a)

namespace Shows
variable {x : W32 × Byte}

theorem opcode (h : Shows x op g) : fld x.1 23 7 = op := by
  obtain ⟨c, area, a, rfl⟩ := h
  exact fld_op

theorem guard (h : Shows x op g) : (⟨fld x.1 18 5, x.2.getLsbD 7, g.flag⟩ : Guard) = g := by
  obtain ⟨c, area, a, rfl⟩ := h
  rw [fld_guard, bit_neg]

theorem flag (h : Shows x op g) : decFlag x.2 = some g.flag := by
  obtain ⟨c, area, a, rfl⟩ := h
  exact decFlag_encExt

end Shows

theorem ext_zero {a : BitVec 5} {l n : Nat} (h : l + n ≤ 5) (h0 : encExt g a = 0) : a.extractLsb' l n = 0#n := by
  rw [← ext_aux (g := g) h, h0]
  exact extract_zero

theorem aux_zero (h0 : encExt g a = 0) : a = 0#5 := by
  rw [← aux_encExt (g := g) (a := a), h0]
  rfl

theorem ifAux_ok {α : Type} {b : Bool} {i j : α} (h : b = true) (hi : i = j) : ifAux b i = .ok j := by rw [h, hi]; rfl

theorem ifWord_ok {α : Type} {b : Bool} {i j : Except Reject α} (h : b = true) (hi : i = j) : ifWord b i = j := by rw [h, hi]; rfl

/-! ### Operand formats read back (R104 Table 2) -/

theorem shows_encRR {o : RR} : Shows (encRR c op g o) op g := ⟨_, _, _, rfl⟩
theorem shows_encRI {o : RI} : Shows (encRI c op g o) op g := ⟨_, _, _, rfl⟩
theorem shows_encRRR {o : RRR} : Shows (encRRR c op g o) op g := ⟨_, _, _, rfl⟩
theorem shows_encI12 {o : I12} : Shows (encI12 c op g o) op g := ⟨_, _, _, rfl⟩
theorem shows_encMEM {o : MEM} : Shows (encMEM c op g o) op g := ⟨_, _, _, rfl⟩
theorem shows_encJ {o : JO} : Shows (encJ c op g o) op g := ⟨_, _, _, rfl⟩
theorem shows_encJB {o : JB} : Shows (encJB c op g o) op g := ⟨_, _, _, rfl⟩
theorem shows_encLP {o : LP} : Shows (encLP c op g o) op g := ⟨_, _, _, rfl⟩
theorem shows_encSYS {o : SYS} : Shows (encSYS c op g o) op g := ⟨_, _, _, rfl⟩
theorem shows_encZ : Shows (encZ c op g) op g := ⟨_, _, _, rfl⟩
theorem shows_encCV {o : CV} : Shows (encCV c op g o) op g := ⟨_, _, _, rfl⟩
theorem shows_encXC {o : XC} : Shows (encXC c op g o) op g := ⟨_, _, _, rfl⟩
theorem shows_encXA {o : XA} : Shows (encXA c op g o) op g := ⟨_, _, _, rfl⟩
theorem shows_encXO {o : XO} : Shows (encXO c op g o) op g := ⟨_, _, _, rfl⟩

/-- BT keeps its first test where other operations keep their guard (R108). -/
theorem shows_encBT {o : BTO} : Shows (encBT o) 0x41 ⟨o.t0, o.n0, o.flag⟩ := ⟨_, _, _, rfl⟩

theorem decRR_enc {o : RR} : decRR (encRR c op g o).1 (encRR c op g o).2 = o := by
  simp (disch := decide) only [decRR, encRR, fld_area, ext_aux, bit_aux, extract_low, extract_high, bit_low, bit_high, bit_ofBool,
    Nat.reduceSub, BitVec.extractLsb'_eq_self]

/-- Format RR leaves the lowest bit of AUX reserved. -/
theorem free_encRR {o : RR} : (!(encRR c op g o).2.getLsbD 0) = true := by
  simp (disch := decide) only [encRR, bit_aux, bit_low, bit_zero, Bool.not_false]

theorem fld_encRR {o : RR} : fld (encRR c op g o).1 0 6 = o.s2 := by
  simp (disch := decide) only [encRR, fld_area, extract_low, BitVec.extractLsb'_eq_self]

theorem decRRR_enc {o : RRR} : decRRR (encRRR c op g o).1 (encRRR c op g o).2 = o := by
  simp (disch := decide) only [decRRR, encRRR, fld_area, aux_encExt, extract_low, extract_high, Nat.reduceSub, BitVec.extractLsb'_eq_self]

theorem decLP_enc {o : LP} : decLP (encLP c op g o).1 (encLP c op g o).2 = o := by
  simp (disch := decide) only [decLP, encLP, fld_area, ext_aux, extract_low, extract_high, Nat.reduceSub, BitVec.extractLsb'_eq_self]
  rw [glue (m := 2) (n := 6) o.len]

theorem free_encLP {o : LP} : decide ((encLP c op g o).2.extractLsb' 2 3 = 0) = true := by
  simp (disch := decide) only [encLP, ext_aux, extract_high, Nat.reduceSub, BitVec.extractLsb'_eq_self]
  rfl

theorem decSYS_enc {o : SYS} : decSYS (encSYS c op g o).1 = o := by
  simp (disch := decide) only [decSYS, encSYS, fld_area, extract_low, extract_high, Nat.reduceSub, BitVec.extractLsb'_eq_self]

theorem decCV_enc {o : CV} : decCV (encCV c op g o).1 (encCV c op g o).2 = o := by
  simp (disch := decide) only [decCV, encCV, fld_area, ext_aux, bit_aux, extract_low, extract_high, bit_low, bit_high, bit_ofBool,
    Nat.reduceSub, BitVec.extractLsb'_eq_self]

theorem free_encCV {o : CV} : (!(encCV c op g o).2.getLsbD 0) = true := by
  simp (disch := decide) only [encCV, bit_aux, bit_low, bit_zero, Bool.not_false]

theorem decXC_enc {o : XC} : decXC (encXC c op g o).1 = o := by
  simp (disch := decide) only [decXC, encXC, fld_area, bit_area, extract_low, extract_high, bit_low, bit_high, bit_ofBool, Nat.reduceSub,
    BitVec.extractLsb'_eq_self]

theorem decXA_enc {o : XA} : decXA (encXA c op g o).1 (encXA c op g o).2 = o := by
  simp (disch := decide) only [decXA, encXA, fld_area, aux_encExt, extract_low, extract_high, Nat.reduceSub, BitVec.extractLsb'_eq_self]

theorem decXO_enc {o : XO} : decXO (encXO c op g o).1 = o := by
  simp (disch := decide) only [decXO, encXO, fld_area, extract_low, extract_high, Nat.reduceSub, BitVec.extractLsb'_eq_self]

theorem free_encXO {o : XO} : decide (fld (encXO c op g o).1 0 4 = 0) = true := by
  simp (disch := decide) only [encXO, fld_area, extract_low, BitVec.extractLsb'_eq_self]
  rfl

theorem free_encZ : decide (fld (encZ c op g).1 0 18 = 0) = true := by
  simp (disch := decide) only [encZ, fld_area, BitVec.extractLsb'_eq_self]
  rfl

/-- AUX of an operation that has none is zero. -/
theorem free_aux : decide (aux (encExt g 0) = 0) = true := by rw [aux_encExt]; rfl

theorem decBT_enc {o : BTO} : decBT (encBT o).1 (encBT o).2 o.flag = o := by
  have hn0 : (encBT o).2.getLsbD 7 = o.n0 := bit_neg (g := ⟨o.t0, o.n0, o.flag⟩)
  simp (disch := decide) only [decBT, hn0]
  simp (disch := decide) only [encBT, fld_guard, fld_area, bit_area, extract_low, extract_high, bit_low, bit_high, bit_ofBool, Nat.reduceSub,
    BitVec.extractLsb'_eq_self]

theorem free_encBT {o : BTO} : decide ((encBT o).2.extractLsb' 0 2 = 0) = true := by
  simp (disch := decide) only [encBT, extract_low, BitVec.extractLsb'_eq_self]
  rfl

end

/-! ### Formats with an immediate, with a header or without (R105) -/

section
variable {hdr s : Bool} {c c' : BitVec 2} {op op' : BitVec 7} {g g' : Guard}

theorem decRI_enc {o : RI}
    (h : hdr = true ∨ (encRI c' op' g' (decRI s hdr (encRI c op g o).1 (encRI c op g o).2)).2 = 0 ∧ (encRI c op g o).2 = 0) :
    decRI s hdr (encRI c op g o).1 (encRI c op g o).2 = o := by
  have himm : (decRI s hdr (encRI c op g o).1 (encRI c op g o).2).imm = o.imm := by
    refine immediate_read (m := 3) (n := 6) (s := s) (hdr := hdr) o.imm ?_ (h.imp_right fun hz => ⟨?_, ?_⟩)
    · simp (disch := decide) only [decRI, encRI, fld_area, ext_aux, extract_low, BitVec.extractLsb'_eq_self]
    · have hext := ext_zero (l := 0) (n := 3) (by decide) hz.1
      simpa (disch := decide) only [extract_low, BitVec.extractLsb'_eq_self] using hext
    · have hext := ext_zero (l := 0) (n := 3) (by decide) hz.2
      simpa (disch := decide) only [extract_low, BitVec.extractLsb'_eq_self] using hext
  have hrest : decRI s hdr (encRI c op g o).1 (encRI c op g o).2
      = ⟨o.d, o.s1, (decRI s hdr (encRI c op g o).1 (encRI c op g o).2).imm, o.sm1⟩ := by
    simp (disch := decide) only [decRI, encRI, fld_area, ext_aux, extract_low, extract_high, Nat.reduceSub, BitVec.extractLsb'_eq_self]
  rw [hrest, himm]

theorem decI12_enc {o : I12}
    (h : hdr = true ∨ (encI12 c' op' g' (decI12 s hdr (encI12 c op g o).1 (encI12 c op g o).2)).2 = 0 ∧ (encI12 c op g o).2 = 0) :
    decI12 s hdr (encI12 c op g o).1 (encI12 c op g o).2 = o := by
  have himm : (decI12 s hdr (encI12 c op g o).1 (encI12 c op g o).2).imm = o.imm := by
    refine immediate_read (m := 5) (n := 12) (s := s) (hdr := hdr) o.imm ?_ (h.imp_right fun hz => ⟨aux_zero hz.1, aux_zero hz.2⟩)
    simp (disch := decide) only [decI12, encI12, fld_area, aux_encExt, extract_low, BitVec.extractLsb'_eq_self]
  have hrest : decI12 s hdr (encI12 c op g o).1 (encI12 c op g o).2
      = ⟨o.d, (decI12 s hdr (encI12 c op g o).1 (encI12 c op g o).2).imm⟩ := by
    simp (disch := decide) only [decI12, encI12, fld_area, extract_high, Nat.reduceSub, BitVec.extractLsb'_eq_self]
  rw [hrest, himm]

theorem decMEM_enc {o : MEM}
    (h : hdr = true ∨ (encMEM c' op' g' (decMEM s hdr (encMEM c op g o).1 (encMEM c op g o).2)).2 = 0 ∧ (encMEM c op g o).2 = 0) :
    decMEM s hdr (encMEM c op g o).1 (encMEM c op g o).2 = o := by
  have himm : (decMEM s hdr (encMEM c op g o).1 (encMEM c op g o).2).off = o.off := by
    refine immediate_read (m := 5) (n := 6) (s := s) (hdr := hdr) o.off ?_ (h.imp_right fun hz => ⟨aux_zero hz.1, aux_zero hz.2⟩)
    simp (disch := decide) only [decMEM, encMEM, fld_area, aux_encExt, extract_low, BitVec.extractLsb'_eq_self]
  have hrest : decMEM s hdr (encMEM c op g o).1 (encMEM c op g o).2
      = ⟨o.data, o.a, o.am, (decMEM s hdr (encMEM c op g o).1 (encMEM c op g o).2).off⟩ := by
    simp (disch := decide) only [decMEM, encMEM, fld_area, extract_low, extract_high, Nat.reduceSub, BitVec.extractLsb'_eq_self]
  rw [hrest, himm]

theorem decJ_enc {o : JO} (h : hdr = true ∨ (encJ c' op' g' (decJ hdr (encJ c op g o).1 (encJ c op g o).2)).2 = 0 ∧ (encJ c op g o).2 = 0) :
    decJ hdr (encJ c op g o).1 (encJ c op g o).2 = o := by
  have himm : (decJ hdr (encJ c op g o).1 (encJ c op g o).2).off = o.off := by
    refine immediate_read (m := 5) (n := 18) (s := true) (hdr := hdr) o.off ?_ (h.imp_right fun hz => ⟨aux_zero hz.1, aux_zero hz.2⟩)
    simp (disch := decide) only [decJ, encJ, fld_area, aux_encExt, BitVec.extractLsb'_eq_self, if_true]
  exact congrArg JO.mk himm

theorem decJB_enc {o : JB}
    (h : hdr = true ∨ (encJB c' op' g' (decJB hdr (encJB c op g o).1 (encJB c op g o).2)).2 = 0 ∧ (encJB c op g o).2 = 0) :
    decJB hdr (encJB c op g o).1 (encJB c op g o).2 = o := by
  have himm : (decJB hdr (encJB c op g o).1 (encJB c op g o).2).off = o.off := by
    refine immediate_read (m := 5) (n := 15) (s := true) (hdr := hdr) o.off ?_ (h.imp_right fun hz => ⟨aux_zero hz.1, aux_zero hz.2⟩)
    simp (disch := decide) only [decJB, encJB, fld_area, aux_encExt, extract_low, BitVec.extractLsb'_eq_self, if_true]
  have hb : fld (encJB c op g o).1 15 3 = o.b := by
    simp (disch := decide) only [encJB, fld_area, extract_high, Nat.reduceSub, BitVec.extractLsb'_eq_self]
  exact congrArg₂ JB.mk hb himm

end

end Sys2Proof
end

section
/-! Every row's word and extension byte decode to its operation (04_encoding.md R94 to R118), and without a header those that need none
do. -/

namespace Sys2Proof

/-- The decoder `dec` of one class reads operation `i` back from word and extension byte `x`. Without a header it reads an operation `j`,
which is `i` where neither has extension bits. -/
def ReadsBack {α : Type} (dec : Guard → Byte → W32 → Except Reject α) (enc : α → W32 × Byte) (hdr : Bool) (x : W32 × Byte) (i : α) : Prop :=
  ∃ f j, decFlag x.2 = some f ∧ dec ⟨fld x.1 18 5, x.2.getLsbD 7, f⟩ x.2 x.1 = .ok j ∧ (hdr = true ∨ (enc j).2 = 0 ∧ x.2 = 0 → j = i)

section
variable {α : Type} {dec : Guard → Byte → W32 → Except Reject α} {enc : α → W32 × Byte} {hdr : Bool} {x : W32 × Byte} {op : BitVec 7} {g : Guard}
  {i j : α}

theorem ReadsBack.of_shows (hx : Shows x op g) (hd : dec g x.2 x.1 = .ok j) (hj : hdr = true ∨ (enc j).2 = 0 ∧ x.2 = 0 → j = i) :
    ReadsBack dec enc hdr x i :=
  ⟨g.flag, j, hx.flag, by rwa [hx.guard], hj⟩

theorem ReadsBack.of_same (hx : Shows x op g) (hd : dec g x.2 x.1 = .ok i) : ReadsBack dec enc hdr x i :=
  .of_shows hx hd fun _ => rfl

end

/-- A field whose range is one value holds it. -/
theorem has_one {n : Nat} {l : Bool} {x : BitVec 6} (h : FieldRange.has ⟨n, n + 1, l⟩ x = true) : x.toNat = n := by
  simp only [FieldRange.has, Bool.and_eq_true, decide_eq_true_eq] at h
  omega

theorem has_below {r : FieldRange} {n : Nat} {x : BitVec 6} (h : r.has x = true) (hn : r.hi ≤ n) : x.toNat ≠ n := by
  simp only [FieldRange.has, Bool.and_eq_true, decide_eq_true_eq] at h
  omega

theorem RR.ok_s2 {o : RR} {d k1 k2 : FieldRange} {dn : Bool} (h : o.ok d k1 k2 dn = true) : k2.has o.s2 = true := by
  simp only [RR.ok, Bool.and_eq_true] at h
  obtain ⟨⟨⟨-, hs2⟩, -⟩, -⟩ := h
  exact hs2

theorem decodeS_enc {hdr : Bool} (i : SInstr) (h : i.ok = true) : ReadsBack (decodeS hdr) SInstr.enc hdr i.enc i.canon := by
  cases i with
  | add g o | sub g o | mul g o | mulh g o | mulhn g o | div g o | divn g o | rem g o | remn g o | and g o | or g o | xor g o | andn g o
  | shl g o | shr g o | sar g o | rot g o | clz g o | popc g o | min g o | max g o | minn g o | maxn g o | aadd g o | cmpEq g o | cmpNe g o
  | cmpLt g o | cmpLe g o | cmpGt g o | cmpGe g o | cmpLtn g o | cmpLen g o | cmpGtn g o | cmpGen g o | pand g o | por g o | pxor g o
  | pnot g o | pmov g o | astr g o | ret g o | ctxstat g o | ctxfreeze g o | ctxfreezeSave g o | ctxsave g o | cutQuery g o | cutStop g o
  | ctxresume g o | ctxrestoreResume g o | ctxrestore g o | wqpush g o | wqpop g o | wqclose g o | wqreopen g o | wqlen g o | gpset g o
  | gpget g o | glaunch g o | kdone g o | grpid g o | grpsize g o | binitReset g o | binitQuery g o | barrive g o | bwait g o | btry g o
  | wvbind g o | wvunbind g o | wvslot g o | wvpublish g o | wvread g o | confx g o | kvcommit g o | kvmodeSet g o | kvmodeGet g o
  | kvmodeSpec g o | kvmodeQuery g o | lktree g o | lkfree g o | lkfreeCheck g o | pgprobe g o | pginvUpdate g o | pginvMove g o =>
    exact .of_same shows_encRR (by rw [SInstr.enc, decodeS, shows_encRR.opcode]; exact ifAux_ok free_encRR (by rw [decRR_enc]; rfl))
  | sel g o =>
    exact .of_same shows_encRRR (by rw [SInstr.enc, decodeS, shows_encRRR.opcode, decRRR_enc]; rfl)
  | addi g o | shli g o | shri g o | sari g o | rotb g o | stage g o | lendb g o | retb g o =>
    apply ReadsBack.of_shows shows_encRI
    · rw [decodeS, shows_encRI.opcode]
      rfl
    · intro h
      rw [decRI_enc h]
      rfl
  | li g o | lih g o | quiet g o | trap g o =>
    apply ReadsBack.of_shows shows_encI12
    · rw [decodeS, shows_encI12.opcode]
      rfl
    · intro h
      rw [decI12_enc h]
      rfl
  | ldI8 g o | ldN8 g o | ldI16 g o | ldN16 g o | ldI32 g o | ldN32 g o | ld64 g o | st8 g o | st16 g o | st32 g o | st64 g o =>
    apply ReadsBack.of_shows shows_encMEM
    · rw [decodeS, shows_encMEM.opcode]
      rfl
    · intro h
      rw [decMEM_enc h]
      rfl
  | br g o | call g o =>
    apply ReadsBack.of_shows shows_encJ
    · rw [decodeS, shows_encJ.opcode]
      rfl
    · intro h
      rw [decJ_enc h]
      rfl
  | movb g o =>
    apply ReadsBack.of_shows shows_encJB
    · rw [decodeS, shows_encJB.opcode]
      rfl
    · intro h
      rw [decJB_enc h]
      rfl
  | loop g o =>
    exact .of_same shows_encLP (by rw [SInstr.enc, decodeS, shows_encLP.opcode]; exact ifAux_ok free_encLP (by rw [decLP_enc]; rfl))
  | srd g o | swr g o =>
    exact .of_same shows_encSYS (by rw [SInstr.enc, decodeS, shows_encSYS.opcode]; exact ifAux_ok free_aux (by rw [decSYS_enc]; rfl))
  | lbrk g | halt g | trapen g | tret g =>
    exact .of_same shows_encZ (by rw [SInstr.enc, decodeS, shows_encZ.opcode]; exact ifWord_ok free_encZ (ifAux_ok free_aux rfl))
  | amovAG g o | amovGA g o | amovAA g o =>
    have hs2 := has_one (RR.ok_s2 (Bool.and_eq_true_iff.1 h).2)
    exact .of_same shows_encRR (by rw [SInstr.enc, decodeS, shows_encRR.opcode, fld_encRR, hs2]; exact ifAux_ok free_encRR (by rw [decRR_enc]; rfl))
  | bt o =>
    exact .of_same shows_encBT (by rw [SInstr.enc, decodeS, shows_encBT.opcode]; exact ifAux_ok free_encBT (by rw [decBT_enc]; rfl))

theorem decodeV_enc {hdr : Bool} (i : VInstr) (h : i.ok = true) : ReadsBack (decodeV hdr i.brm) VInstr.enc hdr i.enc i := by
  cases i with
  | vabsF32 g o | vabsH g o | vnegF32 g o | vnegH g o | vclassF32 g o | vclassBf16 g o | vclassF16 g o | viadd32 g o | viadd16 g o
  | viadd8 g o | visub32 g o | visub16 g o | visub8 g o | vimul32 g o | vimul16 g o | vimulhI32 g o | vimulhN32 g o | viminI32 g o
  | viminN32 g o | viminI16 g o | viminI8 g o | vimaxI32 g o | vimaxN32 g o | vimaxI16 g o | vimaxI8 g o | vshl32 g o | vshl16 g o
  | vshr32 g o | vshr16 g o | vsar32 g o | vsar16 g o | vand g o | vor g o | vxor g o | vcmpI32 g o | vcmpN32 g o | vcmpF32 g o
  | vcmpBf16 g o | vplsplit g o | vpljoin g o | voutapply g o | vperm g o | vshuf g o | vzip g o | vunzip g o | vtrn4 g o | vrand g o
  | vrandf g o | vrnorm g o | vrnormt g o | vrseed g o | vldg g o | vsts g o =>
    exact .of_same shows_encRR (by rw [VInstr.enc, decodeV, shows_encRR.opcode]; exact ifAux_ok free_encRR (by rw [decRR_enc]))
  | vaddF32 g rm o | vsubF32 g rm o | vmulF32 g rm o | vfmaF32 g rm o | vfmsF32 g rm o | vfnmaF32 g rm o | vminF32 g rm o | vmaxF32 g rm o
  | vaddBf16 g rm o | vsubBf16 g rm o | vmulBf16 g rm o | vfmaBf16 g rm o | vfmsBf16 g rm o | vfnmaBf16 g rm o | vminBf16 g rm o
  | vmaxBf16 g rm o | vaddF16 g rm o | vsubF16 g rm o | vmulF16 g rm o | vfmaF16 g rm o | vfmsF16 g rm o | vfnmaF16 g rm o | vminF16 g rm o
  | vmaxF16 g rm o | vdivF32 g rm o | vrcpF32 g rm o | vrsqF32 g rm o | vsqrtF32 g rm o | vexp2F32 g rm o | vlog2F32 g rm o
  | vtanhF32 g rm o | vdivBf16 g rm o | vrcpBf16 g rm o | vrsqBf16 g rm o | vsqrtBf16 g rm o | vexp2Bf16 g rm o | vlog2Bf16 g rm o
  | vtanhBf16 g rm o | vrsumF32 g rm o | vrsumBf16 g rm o | vrsumI32 g rm o | vrmaxF32 g rm o | vrmaxI32 g rm o | vrminF32 g rm o
  | vrminI32 g rm o | vrargmaxF32 g rm o =>
    exact .of_same shows_encRR (by rw [VInstr.enc, decodeV, shows_encRR.opcode]; exact ifAux_ok free_encRR (by rw [decRR_enc]; rfl))
  | vmsel g o | vsmmerge g o =>
    exact .of_same shows_encRRR (by rw [VInstr.enc, decodeV, shows_encRRR.opcode, decRRR_enc]; rfl)
  | vbcast g o | vslide g o =>
    apply ReadsBack.of_shows shows_encRI
    · rw [decodeV, shows_encRI.opcode]
      rfl
    · intro h
      rw [decRI_enc h]
  | vld g o | vst g o | vldpl g o =>
    apply ReadsBack.of_shows shows_encMEM
    · rw [decodeV, shows_encMEM.opcode]
      rfl
    · intro h
      rw [decMEM_enc h]
  | vcvtF32 g rm o | vcvtBf16 g rm o | vcvtF16 g rm o | vcvtI8 g rm o | vcvtN8 g rm o | vcvtI16 g rm o | vcvtN16 g rm o | vcvtI32 g rm o
  | vcvtN32 g rm o =>
    exact .of_same shows_encCV (by rw [VInstr.enc, decodeV, shows_encCV.opcode]; exact ifAux_ok free_encCV (by rw [decCV_enc]; rfl))
  | vsrnd g o =>
    exact .of_same shows_encCV (by rw [VInstr.enc, decodeV, shows_encCV.opcode]; exact ifAux_ok free_encCV (by rw [decCV_enc]))
  | vfinF32 g o | vfinBf16 g o | vfinF16 g o =>
    have hs2 : o.s2.toNat ≠ 32 := has_below (RR.ok_s2 (Bool.and_eq_true_iff.1 h).2) (by decide)
    exact .of_same shows_encRR (by
      rw [VInstr.enc, decodeV, shows_encRR.opcode, fld_encRR]
      exact (if_neg hs2).trans (ifAux_ok free_encRR (by rw [decRR_enc])))
  | vfinNfsF32 g o | vfinNfsBf16 g o | vfinNfsF16 g o =>
    have hs2 : o.s2.toNat = 32 := has_one (RR.ok_s2 (Bool.and_eq_true_iff.1 h).2)
    exact .of_same shows_encRR (by
      rw [VInstr.enc, decodeV, shows_encRR.opcode, fld_encRR]
      exact (if_pos hs2).trans (ifAux_ok free_encRR (by rw [decRR_enc])))

theorem decodeX_enc {hdr : Bool} (i : XInstr) : ReadsBack decodeX XInstr.enc hdr i.enc i.canon := by
  cases i with
  | xsend g o | xrecv g o | xrecvaddF32 g o | xrecvaddI32 g o | xrecvaddBf16 g o | xrld g o | xrst g o | xnmc g o | xtagld g o | xtagst g o
  | tstate g o | tlayoutClaim g o | tlayoutRelabel g o | tlayoutCheck g o | trelease g o | trjrec g o | bfpost g o =>
    exact .of_same shows_encRR (by rw [XInstr.enc, decodeX, shows_encRR.opcode]; exact ifAux_ok free_encRR (by rw [decRR_enc]; rfl))
  | xamoAdd32 g o | xamoAdd64 g o | xamoFaddF32 g o | xamoMin32 g o | xamoMin64 g o | xamoMax32 g o | xamoMax64 g o | xamoMinn32 g o
  | xamoMinn64 g o | xamoMaxn32 g o | xamoMaxn64 g o | xamoAnd32 g o | xamoAnd64 g o | xamoOr32 g o | xamoOr64 g o | xamoXor32 g o
  | xamoXor64 g o | xamoSwap32 g o | xamoSwap64 g o | xamoCas32 g o | xamoCas64 g o | xvld g o =>
    exact .of_same shows_encXA (by rw [XInstr.enc, decodeX, shows_encXA.opcode, decXA_enc]; rfl)
  | xcopyIn g o | xcopyOut g o | xcopyOutAcc g o | xgather g o | xscatter g o | xwbfill g o | xpref g o =>
    exact .of_same shows_encXC (by rw [XInstr.enc, decodeX, shows_encXC.opcode]; exact ifAux_ok free_aux (by rw [decXC_enc]; rfl))
  | xfence g o | xrel g o | xacq g o =>
    exact .of_same shows_encXO (by rw [XInstr.enc, decodeX, shows_encXO.opcode]; exact ifWord_ok free_encXO (ifAux_ok free_aux (by rw [decXO_enc]; rfl)))
  | xnmfence g =>
    exact .of_same shows_encZ (by rw [XInstr.enc, decodeX, shows_encZ.opcode]; exact ifWord_ok free_encZ (ifAux_ok free_aux rfl))

end Sys2Proof
end

section
/-! Every word decodes to its operation: class M, and the slot decoder over all classes. -/

namespace Sys2Proof

section
variable {kind : BitVec 3} {g : Guard} {area : BitVec 22}

theorem fld_mArea {l n : Nat} (h : l + n ≤ 22) : fld (encMWord kind g area).1 l n = area.extractLsb' l n := extract_low h

theorem bit_mArea {l : Nat} (h : l < 22) : (encMWord kind g area).1.getLsbD l = area.getLsbD l := bit_low h

theorem fld_mGuard : fld (encMWord kind g area).1 22 5 = g.p := by
  simp (disch := decide) only [fld, encMWord, extract_low, extract_high, Nat.reduceSub, BitVec.extractLsb'_eq_self]

theorem fld_mKind : fld (encMWord kind g area).1 27 3 = kind := by
  simp (disch := decide) only [fld, encMWord, extract_low, extract_high, Nat.reduceSub, BitVec.extractLsb'_eq_self]

theorem guard_encMWord : (⟨fld (encMWord kind g area).1 22 5, (encMWord kind g area).2.getLsbD 7, g.flag⟩ : Guard) = g := by
  rw [fld_mGuard, show (encMWord kind g area).2.getLsbD 7 = g.neg from bit_neg]

end

theorem decodeM_enc (i : MInstr) : ∃ g, decodeM g i.enc.1 = .ok i.canon ∧ decFlag i.enc.2 = some g.flag ∧ aux i.enc.2 = 0 ∧
    (⟨fld i.enc.1 22 5, i.enc.2.getLsbD 7, g.flag⟩ : Guard) = g := by
  cases i with
  | mcfgMode g o | mcfgOutlier g o | mcfgQset g o | mcfgWbp g o =>
    refine ⟨g, ?_, decFlag_encExt, aux_encExt, guard_encMWord⟩
    simp (disch := decide) only [MInstr.enc, decodeM, fld_mKind, fld_mArea, extract_low, extract_high, Nat.reduceSub, BitVec.extractLsb'_eq_self]
    rfl
  | mzero g o | msnap g o | mresrd g o | mreschk g o | mpush g o =>
    refine ⟨g, ?_, decFlag_encExt, aux_encExt, guard_encMWord⟩
    simp (disch := decide) only [MInstr.enc, decodeM, fld_mKind, fld_mArea, bit_mArea, extract_low, extract_high, bit_low, bit_high,
      Nat.reduceSub, BitVec.extractLsb'_eq_self]
    rfl
  | mpushWp g | mswap g =>
    refine ⟨g, ?_, decFlag_encExt, aux_encExt, guard_encMWord⟩
    simp (disch := decide) only [MInstr.enc, decodeM, fld_mKind, fld_mArea, bit_mArea]
    rfl
  | mshift g o | mdrain g o | mdrainq g o =>
    refine ⟨g, ?_, decFlag_encExt, aux_encExt, guard_encMWord⟩
    simp (disch := decide) only [MInstr.enc, decodeM, decMSH, decMDR, fld_mKind, fld_mArea, bit_mArea, extract_low, extract_high, bit_low, bit_high,
      bit_ofBool, Nat.reduceSub, BitVec.extractLsb'_eq_self]
    rfl

/-! ### The slot decoder -/

theorem decodeS_zero {hdr : Bool} {g : Guard} {e : Byte} : decodeS hdr g e 0 = .error .unassigned := rfl

theorem decodeX_zero {g : Guard} {e : Byte} {w : W32} (h : fld w 23 7 = 0) : decodeX g e w = .error .unassigned := by
  rw [decodeX, h]
  rfl

theorem rawDecode_enc {hdr : Bool} (i : SlotInstr) (h : i.ok = true) :
    ∃ j, rawDecode hdr i.brm i.enc.2 i.enc.1 = .ok j ∧ (hdr = true ∨ j.enc.2 = 0 ∧ i.enc.2 = 0 → j = i.canon) := by
  have hcls := cls_enc i
  cases i with
  | nop => exact ⟨.nop, rfl, fun _ => rfl⟩
  | xnop => exact ⟨.xnop, rfl, fun _ => rfl⟩
  | s i =>
    obtain ⟨f, j, hf, hj, hsame⟩ := decodeS_enc (hdr := hdr) i h
    have hne : i.enc.1 ≠ 0 := fun h0 => by
      rw [h0, decodeS_zero] at hj
      cases hj
    refine ⟨.s j, ?_, fun hj => congrArg SlotInstr.s (hsame hj)⟩
    simp only [rawDecode, hcls]
    simp only [SlotInstr.enc, hf, if_neg hne, hj]
    rfl
  | v i =>
    obtain ⟨f, j, hf, hj, hsame⟩ := decodeV_enc (hdr := hdr) i h
    refine ⟨.v j, ?_, fun hj => congrArg SlotInstr.v (hsame hj)⟩
    simp only [rawDecode, hcls]
    simp only [SlotInstr.enc, SlotInstr.brm, hf, hj]
    rfl
  | x i =>
    obtain ⟨f, j, hf, hj, hsame⟩ := decodeX_enc (hdr := hdr) i
    have hne : fld i.enc.1 23 7 ≠ 0 := fun h0 => by
      rw [decodeX_zero h0] at hj
      cases hj
    refine ⟨.x j, ?_, fun hj => congrArg SlotInstr.x (hsame hj)⟩
    simp only [rawDecode, hcls]
    simp only [SlotInstr.enc, hf, if_neg hne, hj]
    rfl
  | m i =>
    obtain ⟨g, hj, hf, haux, hg⟩ := decodeM_enc i
    refine ⟨.m i.canon, ?_, fun _ => rfl⟩
    simp only [rawDecode, hcls]
    simp only [SlotInstr.enc, hf, if_pos haux, hg, hj]
    rfl

theorem SInstr.canon_ok (i : SInstr) : i.canon.ok = i.ok := by cases i <;> rfl

theorem XInstr.canon_ok (i : XInstr) : i.canon.ok = i.ok := by cases i <;> rfl

theorem MInstr.canon_ok (i : MInstr) : i.canon.ok = i.ok := by cases i <;> rfl

theorem SlotInstr.canon_ok (i : SlotInstr) : i.canon.ok = i.ok := by
  cases i with
  | nop | xnop | v i => rfl
  | s i => exact i.canon_ok
  | x i => exact i.canon_ok
  | m i => exact i.canon_ok

/-- What a word that needs no header tells of its operation. -/
theorem needs_no_header {w : W32} {ext : Byte} {rm : RMode} (h : wordNeedsHeader w ext rm = false) :
    ext = 0 ∧ rm = .rne ∧ signedTop w = false := by
  simp only [wordNeedsHeader, Bool.or_eq_false_iff, decide_eq_false_iff_not, not_not] at h
  obtain ⟨⟨⟨-, hext⟩, hrm⟩, hsigned⟩ := h
  exact ⟨hext, hrm, hsigned⟩

/-- A word that reads the same from its slot bits alone gives an operation without extension bits. -/
theorem ext_of_signedTop {w : W32} {j : SlotInstr} (hj : rawDecode false .rne 0 w = .ok j) (h : signedTop w = false) : j.enc.2 = 0 := by
  unfold signedTop decodeSlot at h
  rw [hj] at h
  cases hok : j.ok <;> simp only [hok, if_true, Bool.false_eq_true, if_false, Bool.true_eq_false] at h
  exact not_not.1 (of_decide_eq_false h)

/-- A well-formed operation's word is read back, behind a header or, where it needs none, without. -/
theorem decodeSlot_enc {hdr : Bool} {i : SlotInstr} (h : i.ok = true) (hneed : hdr = true ∨ wordNeedsHeader i.enc.1 i.enc.2 i.brm = false) :
    decodeSlot hdr i.brm i.enc.2 i.enc.1 = .ok i.canon := by
  obtain ⟨j, hj, hsame⟩ := rawDecode_enc (hdr := hdr) i h
  have hji : j = i.canon := by
    cases hdr with
    | true => exact hsame (.inl rfl)
    | false =>
      obtain ⟨hext, hrm, hsigned⟩ := needs_no_header (hneed.resolve_left Bool.false_ne_true)
      have hraw : rawDecode false .rne 0 i.enc.1 = .ok j := by rw [← hj, hrm, hext]
      exact hsame (.inr ⟨ext_of_signedTop hraw hsigned, hext⟩)
  simp only [decodeSlot, hj, hji, SlotInstr.canon_ok, h, if_true]

end Sys2Proof

namespace Sys2Proof.Machine

theorem sOp_canon (i : SInstr) : sOp i.canon = sOp i := by cases i <;> rfl

theorem xOp_canon (i : XInstr) : xOp i.canon = xOp i := by cases i <;> rfl

theorem mOp_canon (i : MInstr) : mOp i.canon = mOp i := by cases i <;> rfl

/-- Rows that share a word run the same operation. -/
theorem slotOp_canon (i : SlotInstr) : slotOp i.canon = slotOp i := by
  cases i with
  | nop | xnop | v i => rfl
  | s i => exact sOp_canon i
  | x i => exact xOp_canon i
  | m i => exact mOp_canon i

end Sys2Proof.Machine
end

section
/-! Empty slots of a bundle (04_encoding.md R96): a bundle issues as the bundle of its other slots does. -/

namespace Sys2Proof.Machine

/-- The bundle without its empty slots. -/
def Bundle.solid (b : Bundle) : Bundle := { b with slots := b.slots.filter (fun x => x.word ≠ 0) }

/-- Every empty slot of a bundle passes decode, and no other slot has its place. -/
def Bundle.spaced (b : Bundle) : Prop := ∀ x ∈ b.slots, x.word = 0 → x.dec.isSome = true ∧ ∀ y ∈ b.slots, y.word ≠ 0 → y.idx ≠ x.idx

/-- A search that no dropped element meets finds the same in what is left. -/
theorem find?_filter_of {α : Type} {p q : α → Bool} : ∀ {l : List α}, (∀ x ∈ l, q x = true → p x = true) → (l.filter p).find? q = l.find? q
  | [], _ => rfl
  | x :: l, h => by
    have ih := find?_filter_of (l := l) fun y hy => h y (List.mem_cons_of_mem x hy)
    cases hp : p x with
    | true => rw [List.filter_cons_of_pos hp, List.find?_cons, List.find?_cons, ih]
    | false =>
      have hq : q x = false := Bool.eq_false_iff.2 fun hq => Bool.false_ne_true (hp.symm.trans (h x List.mem_cons_self hq))
      rw [List.filter_cons_of_neg (by simp [hp]), List.find?_cons_of_neg (by simp [hq]), ih]

theorem any_filter_of {α : Type} {p q : α → Bool} {l : List α} (h : ∀ x ∈ l, q x = true → p x = true) : (l.filter p).any q = l.any q := by
  rw [Bool.eq_iff_iff, List.any_eq_true, List.any_eq_true]
  constructor
  · rintro ⟨x, hx, hq⟩
    exact ⟨x, (List.mem_filter.1 hx).1, hq⟩
  · rintro ⟨x, hx, hq⟩
    exact ⟨x, List.mem_filter.2 ⟨hx, h x hx hq⟩, hq⟩

theorem wordDest_zero (e : Byte) : wordDest 0 e = none := rfl

theorem ofClass_solid (b : Bundle) (k : Nat) : b.solid.ofClass k = b.ofClass k := by
  unfold Bundle.ofClass Bundle.solid
  rw [List.filter_filter]
  exact List.filter_congr fun x _ => by cases decide (x.word ≠ 0) <;> simp

theorem units_solid (b : Bundle) : b.solid.units = b.units := by
  unfold Bundle.units
  simp only [ofClass_solid]

theorem excess_solid (b : Bundle) : b.solid.excess = b.excess := by
  unfold Bundle.excess
  simp only [ofClass_solid]

theorem quietSlot_solid (b : Bundle) : b.solid.quietSlot = b.quietSlot :=
  find?_filter_of fun x _ h => by
    simp only [Bool.and_eq_true] at h
    exact h.1.2

theorem tretBad_solid (b : Bundle) : b.solid.tretBad = b.tretBad := by
  have hfind : b.solid.slots.find? (fun s => wordClass s.word = 0 && s.word ≠ 0 && wordOp s.word = 0x58)
      = b.slots.find? (fun s => wordClass s.word = 0 && s.word ≠ 0 && wordOp s.word = 0x58) :=
    find?_filter_of fun x _ h => by
      simp only [Bool.and_eq_true] at h
      exact h.1.2
  have hany (t : Slot) : b.solid.slots.any (fun s => s.idx ≠ t.idx && s.word ≠ 0xC0000000 && s.word ≠ 0)
      = b.slots.any (fun s => s.idx ≠ t.idx && s.word ≠ 0xC0000000 && s.word ≠ 0) :=
    any_filter_of fun x _ h => by
      simp only [Bool.and_eq_true] at h
      exact h.2
  unfold Bundle.tretBad
  simp only [hfind, hany]

theorem clash_solid : ∀ l : List Slot, clash (l.filter (fun x => x.word ≠ 0)) = clash l
  | [] => rfl
  | x :: l => by
    have ih := clash_solid l
    have hfind (d : RegFile × Nat) : (l.filter (fun x => x.word ≠ 0)).find? (fun y => wordDest y.word y.ext = some d)
        = l.find? (fun y => wordDest y.word y.ext = some d) :=
      find?_filter_of fun y _ hy => decide_eq_true fun h0 => by
        rw [h0, wordDest_zero] at hy
        exact absurd (of_decide_eq_true hy) (by simp)
    by_cases h0 : x.word = 0
    · rw [List.filter_cons_of_neg (by simp [h0]), ih]
      conv => rhs; rw [clash]
      rw [h0, wordDest_zero]
    · rw [List.filter_cons_of_pos (p := fun x : Slot => decide (x.word ≠ 0)) (decide_eq_true h0)]
      conv => lhs; rw [clash]
      conv => rhs; rw [clash]
      simp only [hfind, ih]

theorem two_mem {l : List Slot} {u v : UnitId} {e : UnitId × Slot}
    (h : e ∈ (match l with | [] => [] | [x] => [(u, x)] | x :: y :: _ => [(u, x), (v, y)] : List (UnitId × Slot))) : e.2 ∈ l := by
  match l with
  | [] => cases h
  | [x] => simp_all
  | x :: y :: l => 
    simp only [List.mem_cons, List.not_mem_nil, or_false] at h
    rcases h with rfl | rfl <;> simp

/-- What a unit executes is a slot of the bundle that is not empty. -/
theorem units_mem {b : Bundle} {u : UnitId × Slot} (h : u ∈ b.units) : u.2 ∈ b.slots ∧ u.2.word ≠ 0 := by
  have hclass {k : Nat} {x : Slot} (hx : x ∈ b.ofClass k) : x ∈ b.slots ∧ x.word ≠ 0 := by
    simp only [Bundle.ofClass, List.mem_filter, Bool.and_eq_true, decide_eq_true_eq] at hx
    exact ⟨hx.1, hx.2.1⟩
  unfold Bundle.units at h
  dsimp only at h
  rw [List.mem_append, List.mem_filter, List.mem_filter] at h
  have hall := h.elim And.left And.left
  simp only [List.mem_append, List.mem_map] at hall
  obtain ((⟨x, hx, rfl⟩ | hv) | ⟨x, hx, rfl⟩) | hx := hall
  · exact hclass (List.mem_of_mem_take hx)
  · exact hclass (two_mem hv)
  · exact hclass (List.mem_of_mem_take hx)
  · exact hclass (two_mem hx)

theorem tretBad_mem {b : Bundle} {t : Slot} (h : b.tretBad = some t) : t ∈ b.slots ∧ t.word ≠ 0 := by
  unfold Bundle.tretBad at h
  split at h
  · cases h
  next y hy =>
    split at h
    · cases h
      have hp := List.find?_some hy
      simp only [Bool.and_eq_true, decide_eq_true_eq] at hp
      exact ⟨List.mem_of_find?_eq_some hy, hp.1.2⟩
    · cases h

/-- The decode checks of a bundle do not see its empty slots. -/
theorem decodeFault_solid {b : Bundle} (hb : b.spaced) (priv kiosk : Bool) : b.solid.decodeFault priv kiosk = b.decodeFault priv kiosk := by
  have hbar {x : Slot} (hx : x ∈ b.slots) {f : UnitId × Slot → Bool} (h : b.units.any (fun u => u.2.idx = x.idx && f u) = true) : x.word ≠ 0 := fun h0 => by
    obtain ⟨u, hu, hidx⟩ := List.any_eq_true.1 h
    rw [Bool.and_eq_true, decide_eq_true_eq] at hidx
    exact (hb x hx h0).2 u.2 (units_mem hu).1 (units_mem hu).2 hidx.1
  have hprivileged : b.solid.slots.find? (fun s => wordPrivileged s.word) = b.slots.find? (fun s => wordPrivileged s.word) :=
    find?_filter_of fun x hx h => decide_eq_true fun h0 => by
      rw [h0] at h
      cases h
  have hbarred : b.solid.slots.find? (fun s => b.units.any (fun u => u.2.idx = s.idx && unitBars kiosk u.1 s.word))
      = b.slots.find? (fun s => b.units.any (fun u => u.2.idx = s.idx && unitBars kiosk u.1 s.word)) :=
    find?_filter_of fun x hx h => decide_eq_true (hbar hx h)
  unfold Bundle.decodeFault
  simp only [excess_solid, quietSlot_solid, tretBad_solid, units_solid, hprivileged, hbarred]
  simp only [Bundle.solid, clash_solid]
  rw [find?_filter_of (p := fun x : Slot => decide (x.word ≠ 0))]
  · rfl
  · intro x hx h
    refine decide_eq_true fun h0 => ?_
    obtain ⟨hdec, hidx⟩ := hb x hx h0
    rw [Bool.or_eq_true, Bool.or_eq_true] at h
    obtain (h | h) | h := h
    · rw [Option.isNone_iff_eq_none] at h
      rw [h] at hdec
      cases hdec
    · split at h
      next t ht => exact hidx t (tretBad_mem ht).1 (tretBad_mem ht).2 (of_decide_eq_true h)
      next => cases h
    · exact hbar hx h h0

/-- A bundle issues as it does without its empty slots. -/
theorem issueBundle_solid {b : Bundle} (hb : b.spaced) (n : Nat) (s : State) : issueBundle n b.solid s = issueBundle n b s := by
  unfold issueBundle
  simp only [decodeFault_solid hb, units_solid]
  rfl

/-- The bits of slot 0 tell nothing more once the header is read: only a trap for a header at fault names them. -/
theorem issueBundle_head {b : Bundle} (hquiet : b.quiet = true → b.quietSlot.isSome = true) (hbad : b.badHead = false) (h : W32) (n : Nat) (s : State) :
    issueBundle n { b with head := h } s = issueBundle n b s := by
  have hq : (b.quiet && b.quietSlot.isNone) = false := by
    cases hb : b.quiet with
    | false => rfl
    | true => rw [Bool.true_and, Option.isNone_eq_false_iff]; exact hquiet hb
  have hfault (priv kiosk : Bool) : ({ b with head := h } : Bundle).decodeFault priv kiosk = b.decodeFault priv kiosk := by
    have hq' : (b.quiet && ({ b with head := h } : Bundle).quietSlot.isNone) = false := hq
    unfold Bundle.decodeFault
    simp only [hq, hq', Bool.false_eq_true, if_false]
    simp only [hbad, Bool.false_eq_true, if_false]
    rfl
  unfold issueBundle
  simp only [hfault]
  rfl

end Sys2Proof.Machine
end

section
/-! The bits of the bundle that holds one operation alone, read back slot by slot (04_encoding.md R94 to R103, R123). -/

namespace Sys2Proof.Machine

/-! ### Values placed in a bundle -/

/-- The bits of `x` from position `l` of a bundle on. -/
def put {m : Nat} (x : BitVec m) (l : Nat) : BitVec 128 := x.setWidth 128 <<< l

theorem put_same {m l : Nat} {x : BitVec m} (h : l + m ≤ 128) : (put x l).extractLsb' l m = x := by
  ext j hj
  simp only [put, BitVec.getElem_extractLsb', BitVec.getLsbD_shiftLeft, BitVec.getLsbD_setWidth, BitVec.getLsbD_eq_getElem hj, Nat.add_sub_cancel_left,
    Nat.not_lt.2 (Nat.le_add_right l j), show l + j < 128 by omega, show j < 128 by omega, decide_true, decide_false, Bool.not_false, Bool.true_and]

theorem put_apart {m l a n : Nat} {x : BitVec m} (h : l + n ≤ a ∨ a + m ≤ l) : (put x a).extractLsb' l n = 0#n := by
  ext j hj
  simp only [put, BitVec.getElem_extractLsb', BitVec.getLsbD_shiftLeft, BitVec.getLsbD_setWidth, BitVec.getElem_zero]
  obtain h | h := h
  · simp only [show l + j < a by omega, decide_true, Bool.not_true, Bool.and_false, Bool.false_and]
  · rw [BitVec.getLsbD_of_ge x _ (by omega), Bool.and_false, Bool.and_false]

theorem bit_extract {m l : Nat} {x : BitVec m} : x.getLsbD l = (x.extractLsb' l 1).getLsbD 0 := by
  rw [BitVec.getLsbD_extractLsb']
  rfl

/-! ### What a bundle's header tells -/

theorem wordClass_fld (w : W32) : wordClass w = (fld w 30 2).toNat := by
  have hw := w.isLt
  unfold wordClass fld
  rw [BitVec.extractLsb'_toNat, Nat.shiftRight_eq_div_pow]
  omega

theorem hasHeader_slot (w : BitVec 128) : hasHeader w = (decide (wordClass (slotWord w 0) = 0) && (slotWord w 0).getLsbD 29) := rfl

theorem hasHeader_eq (w : BitVec 128) : hasHeader w = (decide ((w.extractLsb' 30 2).toNat = 0) && w.getLsbD 29) := by
  have hclass : (w.extractLsb' (32 * 0) 32).extractLsb' 30 2 = w.extractLsb' 30 2 := by
    ext j hj
    simp only [BitVec.getElem_extractLsb', BitVec.getLsbD_extractLsb', show 30 + j < 32 by omega, Nat.mul_zero, Nat.zero_add, decide_true, Bool.true_and]
  unfold hasHeader slotWord
  simp only [wordClass_fld, fld, hclass, BitVec.getLsbD_extractLsb']
  rfl

theorem modeBits_eq (w : BitVec 128) : bits w.toNat 26 24 = (w.extractLsb' 24 3).toNat := by
  rw [BitVec.extractLsb'_toNat]
  rfl

theorem ofCode_code (rm : RMode) : RMode.ofCode rm.code.toNat = some rm := by cases rm <;> rfl

/-- A header's bits: HDR, QUIET, BRM and one extension byte. -/
def headBits (quiet : Bool) (rm : RMode) (ext : Byte) (l : Nat) : BitVec 128 :=
  put 1#1 29 ||| put (BitVec.ofBool quiet) 28 ||| put rm.code 24 ||| put ext l

/-- Whether a word stands on X1 only. -/
def onX1 (w : W32) : Bool := decide (wordClass w = 3) && x1Only (wordOp w)

theorem wordOp_fld (w : W32) : wordOp w = (fld w 23 7).toNat := by
  unfold wordOp bits fld
  rw [BitVec.extractLsb'_toNat]

/-- Whether a word is QUIET. -/
def isQuiet (w : W32) : Bool := decide (wordClass w = 0 ∧ wordOp w = 0x51)

section
variable {w : W32} {ext : Byte} {rm : RMode}

theorem put_quiet (b : Bool) : (BitVec.ofNat 128 (b2n b)) <<< 28 = put (BitVec.ofBool b) 28 := by cases b <;> rfl

theorem put_xnop : (0xC0000000 : BitVec 128) = BitVec.setWidth 128 0xC0000000#32 := rfl

theorem zero_bits : (0 : BitVec 128) = 0#128 := rfl

theorem aloneWord_header (h : onX1 w = false) : aloneWord true w ext rm = headBits (isQuiet w) rm ext 0 ||| put w 32 ||| put 0#32 64 := by
  unfold onX1 at h
  rw [show put 0#32 64 = 0#128 from rfl]
  simp only [aloneWord, soloSlot, h, put_quiet, zero_bits, Bool.and_false, Bool.true_or, Bool.false_eq_true, if_true, if_false, BitVec.or_zero]
  rfl

theorem aloneWord_header_x1 (h : onX1 w = true) :
    aloneWord true w ext rm = headBits (isQuiet w) rm ext 8 ||| put 0xC0000000#32 32 ||| put w 64 := by
  unfold onX1 at h
  simp only [aloneWord, h, put_quiet, put_xnop, Bool.and_true, if_true]
  rfl

theorem aloneWord_x1 (h : onX1 w = true) : aloneWord false w ext rm = put 0xC0000000#32 0 ||| put w 32 := by
  unfold onX1 at h
  simp only [aloneWord, soloSlot, h, put_xnop, zero_bits, Bool.false_and, Bool.or_true, Bool.false_eq_true, if_true, if_false, BitVec.zero_or]
  rfl

theorem aloneWord_second (h : onX1 w = false) (h2 : (decide (wordClass w = 0) && decide (0x40 ≤ wordOp w)) = true) :
    aloneWord false w ext rm = put 0#32 0 ||| put w 32 := by
  unfold onX1 at h
  rw [show put 0#32 0 = 0#128 from rfl]
  simp only [aloneWord, soloSlot, h, h2, zero_bits, Bool.false_and, Bool.or_true, Bool.true_or, Bool.false_eq_true, if_true, if_false, BitVec.zero_or,
    BitVec.or_zero]
  rfl

theorem aloneWord_first (h : onX1 w = false) (h2 : (decide (wordClass w = 0) && decide (0x40 ≤ wordOp w)) = false) :
    aloneWord false w ext rm = put w 0 ||| put 0#32 32 := by
  unfold onX1 at h
  rw [show put 0#32 32 = 0#128 from rfl]
  simp only [aloneWord, soloSlot, h, h2, zero_bits, Bool.false_and, Bool.or_false, Bool.false_eq_true, if_false, BitVec.zero_or, BitVec.or_zero]
  rfl

end

/-! ### Reading slots -/

theorem bit29_of_low {w : W32} (h : wordOp w < 0x40) : w.getLsbD 29 = false := by
  unfold wordOp bits at h
  rw [BitVec.getLsbD, Nat.testBit_eq_decide_div_mod_eq]
  rw [Nat.shiftRight_eq_div_pow] at h
  exact decide_eq_false (by omega)

section
variable {w : BitVec 128} {hdr : Bool} {rm : RMode}

/-- A slot of a bundle whose header is known, from its word, its extension byte and what they decode to. -/
theorem readSlot_eq {k : Nat} {x : W32} {e : Byte} {i : SlotInstr} (hhdr : hasHeader w = hdr) (hrm : bundleMode w = some rm)
    (hx : slotWord w k = x) (he : slotExt w k = e) (hi : decodeSlot hdr rm e x = .ok i) : readSlot w k = ⟨k, x, e, some (slotOp i)⟩ := by
  simp only [readSlot, hhdr, hrm, hx, he, Option.getD_some, hi]

/-- An empty slot. -/
def emptySlot (k : Nat) : Slot := ⟨k, 0, 0, some .ok⟩

theorem readSlot_empty {k : Nat} (hhdr : hasHeader w = hdr) (hrm : bundleMode w = some rm) (hx : slotWord w k = 0) (he : slotExt w k = 0) :
    readSlot w k = emptySlot k :=
  readSlot_eq hhdr hrm hx he (i := .nop) rfl

theorem readSlot_xnop {k : Nat} (hhdr : hasHeader w = hdr) (hrm : bundleMode w = some rm) (hx : slotWord w k = 0xC0000000) (he : slotExt w k = 0) :
    readSlot w k = xnopSlot k :=
  readSlot_eq hhdr hrm hx he (i := .xnop) rfl

theorem slotExt_none (h : hasHeader w = false) (k : Nat) : slotExt w k = 0 := by
  unfold slotExt
  rw [h]
  rfl

theorem bundleMode_none (h : hasHeader w = false) : bundleMode w = some .rne := by
  unfold bundleMode
  rw [h]
  rfl

end

/-! ### The five layouts of one operation (R97, R123) -/

/-- A bundle of decoded slots, with a header that says no more than its mode and QUIET. -/
def layout (head : W32) (quiet : Bool) (rm : RMode) (slots : List Slot) : Bundle :=
  { head := head, quiet := quiet, bkpt := false, badHead := false, rm := rm, slots := slots }

theorem readBundle_headless {w : BitVec 128} (h : hasHeader w = false) :
    readBundle w = layout (slotWord w 0) false .rne ([0, 1, 2, 3].map (readSlot w)) := by
  simp only [readBundle, layout, h, bundleMode_none h, Bool.false_and, Option.isNone_some, Option.getD_some, Bool.false_eq_true, if_false]

theorem readBundle_headed {w : BitVec 128} {q : Bool} {rm : RMode} (h : hasHeader w = true) (hquiet : w.getLsbD 28 = q) (hbkpt : w.getLsbD 27 = false)
    (hrm : bundleMode w = some rm) : readBundle w = layout (slotWord w 0) q rm ([1, 2, 3].map (readSlot w)) := by
  simp only [readBundle, layout, h, hquiet, hbkpt, hrm, Bool.true_and, Option.isNone_some, Option.getD_some, if_true]

/-- Bits below the slots of a header's bundle belong to the header, the first two slots after it hold `a` and `c`, the last is empty. -/
theorem headBits_read (q : Bool) (rm : RMode) (ext : Byte) (l : Nat) (a c : W32) (hl : l + 8 ≤ 24) :
    let b := headBits q rm ext l ||| put a 32 ||| put c 64
    hasHeader b = true ∧ bundleMode b = some rm ∧ (slotWord b 1 = a ∧ slotWord b 2 = c ∧ slotWord b 3 = 0) ∧
      readBundle b = layout (slotWord b 0) q rm ([1, 2, 3].map (readSlot b)) := by
  intro b
  have hhdr : hasHeader b = true := by
    rw [hasHeader_eq, bit_extract]
    simp (disch := omega) only [b, headBits, BitVec.extractLsb'_or, put_same, put_apart, BitVec.or_zero]
    rfl
  have hquiet : b.getLsbD 28 = q := by
    rw [bit_extract]
    simp (disch := omega) only [b, headBits, BitVec.extractLsb'_or, put_same, put_apart, BitVec.or_zero, BitVec.zero_or, bit_ofBool]
  have hbkpt : b.getLsbD 27 = false := by
    rw [bit_extract]
    simp (disch := omega) only [b, headBits, BitVec.extractLsb'_or, put_apart, BitVec.or_zero, bit_zero]
  have hrm : bundleMode b = some rm := by
    unfold bundleMode
    rw [hhdr, if_pos rfl, modeBits_eq]
    simp (disch := omega) only [b, headBits, BitVec.extractLsb'_or, put_same, put_apart, BitVec.or_zero, BitVec.zero_or, ofCode_code]
  refine ⟨hhdr, hrm, ?_, readBundle_headed hhdr hquiet hbkpt hrm⟩
  simp (disch := omega) only [slotWord, b, headBits, BitVec.extractLsb'_or, put_same, put_apart, BitVec.or_zero, BitVec.zero_or, Nat.reduceMul]
  exact ⟨trivial, trivial, rfl⟩

theorem slotExt_first (q : Bool) (rm : RMode) (ext : Byte) (a c : W32) :
    let b := headBits q rm ext 0 ||| put a 32 ||| put c 64
    slotExt b 1 = ext ∧ slotExt b 2 = 0 ∧ slotExt b 3 = 0 := by
  intro b
  simp only [slotExt, (headBits_read q rm ext 0 a c (by decide)).1, b, if_true]
  simp (disch := decide) only [headBits, BitVec.extractLsb'_or, put_same, put_apart, BitVec.or_zero, BitVec.zero_or, Nat.reduceMul, Nat.reduceSub]
  exact ⟨trivial, rfl, rfl⟩

theorem slotExt_second (q : Bool) (rm : RMode) (ext : Byte) (a c : W32) :
    let b := headBits q rm ext 8 ||| put a 32 ||| put c 64
    slotExt b 1 = 0 ∧ slotExt b 2 = ext ∧ slotExt b 3 = 0 := by
  intro b
  simp only [slotExt, (headBits_read q rm ext 8 a c (by decide)).1, b, if_true]
  simp (disch := decide) only [headBits, BitVec.extractLsb'_or, put_same, put_apart, BitVec.or_zero, BitVec.zero_or, Nat.reduceMul, Nat.reduceSub]
  exact ⟨rfl, trivial, rfl⟩

theorem slots_two (a c : W32) : let b := put a 0 ||| put c 32
    slotWord b 0 = a ∧ slotWord b 1 = c ∧ slotWord b 2 = 0 ∧ slotWord b 3 = 0 := by
  intro b
  simp (disch := decide) only [slotWord, b, BitVec.extractLsb'_or, put_same, put_apart, BitVec.or_zero, BitVec.zero_or, Nat.reduceMul]
  exact ⟨trivial, trivial, rfl, rfl⟩

section
variable {w : W32} {ext : Byte} {rm : RMode} {i : SlotInstr}

theorem readBundle_header (h : onX1 w = false) (hi : decodeSlot true rm ext w = .ok i) :
    ∃ head, readBundle (aloneWord true w ext rm) = layout head (isQuiet w) rm [⟨1, w, ext, some (slotOp i)⟩, emptySlot 2, emptySlot 3] := by
  rw [aloneWord_header h]
  obtain ⟨hhdr, hrm, ⟨h1, h2, h3⟩, hread⟩ := headBits_read (isQuiet w) rm ext 0 w 0#32 (by decide)
  obtain ⟨e1, e2, e3⟩ := slotExt_first (isQuiet w) rm ext w 0#32
  rw [hread]
  simp only [List.map, readSlot_eq hhdr hrm h1 e1 hi, readSlot_empty hhdr hrm h2 e2, readSlot_empty hhdr hrm h3 e3]
  exact ⟨_, rfl⟩

theorem readBundle_header_x1 (h : onX1 w = true) (hi : decodeSlot true rm ext w = .ok i) :
    ∃ head, readBundle (aloneWord true w ext rm) = layout head (isQuiet w) rm [xnopSlot 1, ⟨2, w, ext, some (slotOp i)⟩, emptySlot 3] := by
  rw [aloneWord_header_x1 h]
  obtain ⟨hhdr, hrm, ⟨h1, h2, h3⟩, hread⟩ := headBits_read (isQuiet w) rm ext 8 0xC0000000#32 w (by decide)
  obtain ⟨e1, e2, e3⟩ := slotExt_second (isQuiet w) rm ext 0xC0000000#32 w
  rw [hread]
  simp only [List.map, readSlot_xnop hhdr hrm h1 e1, readSlot_eq hhdr hrm h2 e2 hi, readSlot_empty hhdr hrm h3 e3]
  exact ⟨_, rfl⟩

theorem readBundle_x1 (h : onX1 w = true) (hi : decodeSlot false .rne 0 w = .ok i) :
    ∃ head, readBundle (aloneWord false w ext rm) = layout head false .rne [xnopSlot 0, ⟨1, w, 0, some (slotOp i)⟩, emptySlot 2, emptySlot 3] := by
  rw [aloneWord_x1 h]
  obtain ⟨h0, h1, h2, h3⟩ := slots_two 0xC0000000#32 w
  have hhdr : hasHeader (put 0xC0000000#32 0 ||| put w 32) = false := by
    rw [hasHeader_slot, h0]
    rfl
  have hrm := bundleMode_none hhdr
  have he := slotExt_none hhdr
  rw [readBundle_headless hhdr]
  simp only [List.map, readSlot_xnop hhdr hrm h0 (he 0), readSlot_eq hhdr hrm h1 (he 1) hi, readSlot_empty hhdr hrm h2 (he 2),
    readSlot_empty hhdr hrm h3 (he 3)]
  exact ⟨_, rfl⟩

theorem readBundle_second (h : onX1 w = false) (h2 : (decide (wordClass w = 0) && decide (0x40 ≤ wordOp w)) = true)
    (hi : decodeSlot false .rne 0 w = .ok i) :
    ∃ head, readBundle (aloneWord false w ext rm) = layout head false .rne [emptySlot 0, ⟨1, w, 0, some (slotOp i)⟩, emptySlot 2, emptySlot 3] := by
  rw [aloneWord_second h h2]
  obtain ⟨h0, h1, h2, h3⟩ := slots_two 0#32 w
  have hhdr : hasHeader (put 0#32 0 ||| put w 32) = false := by
    rw [hasHeader_slot, h0]
    rfl
  have hrm := bundleMode_none hhdr
  have he := slotExt_none hhdr
  rw [readBundle_headless hhdr]
  simp only [List.map, readSlot_empty hhdr hrm h0 (he 0), readSlot_eq hhdr hrm h1 (he 1) hi, readSlot_empty hhdr hrm h2 (he 2),
    readSlot_empty hhdr hrm h3 (he 3)]
  exact ⟨_, rfl⟩

theorem readBundle_first (h : onX1 w = false) (h2 : (decide (wordClass w = 0) && decide (0x40 ≤ wordOp w)) = false)
    (hi : decodeSlot false .rne 0 w = .ok i) :
    ∃ head, readBundle (aloneWord false w ext rm) = layout head false .rne [⟨0, w, 0, some (slotOp i)⟩, emptySlot 1, emptySlot 2, emptySlot 3] := by
  rw [aloneWord_first h h2]
  obtain ⟨h0, h1, h2', h3⟩ := slots_two w 0#32
  have hhdr : hasHeader (put w 0 ||| put 0#32 32) = false := by
    rw [hasHeader_slot, h0]
    by_cases hc : wordClass w = 0
    · rw [decide_eq_true hc, Bool.true_and, decide_eq_false_iff_not, Nat.not_le] at h2
      rw [bit29_of_low h2, Bool.and_false]
    · rw [decide_eq_false hc, Bool.false_and]
  have hrm := bundleMode_none hhdr
  have he := slotExt_none hhdr
  rw [readBundle_headless hhdr]
  simp only [List.map, readSlot_eq hhdr hrm h0 (he 0) hi, readSlot_empty hhdr hrm h1 (he 1), readSlot_empty hhdr hrm h2' (he 2),
    readSlot_empty hhdr hrm h3 (he 3)]
  exact ⟨_, rfl⟩

end

end Sys2Proof.Machine
end

section
/-! A fetched bundle that holds one operation issues as that operation alone does (04_encoding.md R94, R123). -/

namespace Sys2Proof.Machine

theorem isQuiet_of_headless {w : W32} {ext : Byte} {rm : RMode} (h : wordNeedsHeader w ext rm = false) : isQuiet w = false := by
  simp only [wordNeedsHeader, Bool.or_eq_false_iff, decide_eq_false_iff_not] at h
  obtain ⟨⟨⟨hnot, -⟩, -⟩, -⟩ := h
  refine decide_eq_false fun hq => hnot ?_
  rw [wordClass_fld, wordOp_fld] at hq
  exact ⟨BitVec.eq_of_toNat_eq hq.1, BitVec.eq_of_toNat_eq hq.2⟩

/-- A bundle read from its bits issues as it does without its empty slots and with any header word. -/
theorem issueBundle_layout {head : W32} {q : Bool} {rm : RMode} {slots : List Slot} (hsp : (layout head q rm slots).spaced)
    (hq : q = true → ∃ x ∈ slots, x.word ≠ 0 ∧ isQuiet x.word = true) (n : Nat) (s : State) :
    issueBundle n (layout head q rm slots) s = issueBundle n (layout 0 q rm (slots.filter (fun x => x.word ≠ 0))) s := by
  have hquiet : (layout 0 q rm slots).quiet = true → (layout 0 q rm slots).quietSlot.isSome = true := fun h => by
    obtain ⟨x, hx, h0, hqx⟩ := hq h
    obtain ⟨hc, ho⟩ := of_decide_eq_true hqx
    refine List.find?_isSome.2 ⟨x, hx, ?_⟩
    simp only [hc, ho, h0, ne_eq, not_false_eq_true, decide_true, Bool.and_self]
  calc issueBundle n (layout head q rm slots) s
      = issueBundle n (layout 0 q rm slots) s := issueBundle_head hquiet rfl head n s
    _ = issueBundle n (layout 0 q rm (slots.filter (fun x => x.word ≠ 0))) s := (issueBundle_solid (b := layout 0 q rm slots) hsp n s).symm

section
variable {i : SlotInstr} {op : Op} {n : Nat} {s : State}

theorem soloBundle_x1 (hok : i.ok = true) (hx : onX1 i.enc.1 = true) : soloBundle i op =
    let k := if wordNeedsHeader i.enc.1 i.enc.2 i.brm then 2 else 1
    layout 0 (isQuiet i.enc.1) i.brm [xnopSlot (k - 1), ⟨k, i.enc.1, i.enc.2, some op⟩] := by
  have hclass := hx
  rw [onX1, Bool.and_eq_true, decide_eq_true_eq] at hclass
  obtain ⟨h3, h1⟩ := hclass
  cases hhdr : wordNeedsHeader i.enc.1 i.enc.2 i.brm <;> simp [soloBundle, soloSlot, layout, isQuiet, xnopSlot, h3, h1, hhdr, hok]

theorem soloBundle_single (hok : i.ok = true) (hx : onX1 i.enc.1 = false) : soloBundle i op =
    layout 0 (isQuiet i.enc.1) i.brm [⟨soloSlot i.enc.1 (wordNeedsHeader i.enc.1 i.enc.2 i.brm), i.enc.1, i.enc.2, some op⟩] := by
  unfold onX1 at hx
  simp [soloBundle, layout, isQuiet, Bool.and_assoc, hx, hok]

theorem soloSlot_eq (w : W32) (hdr : Bool) :
    soloSlot w hdr = if hdr || (decide (wordClass w = 0) && decide (0x40 ≤ wordOp w)) || onX1 w then 1 else 0 := rfl

/-- The bundle of the bits that hold one operation issues as the bundle of that operation. -/
theorem issueBundle_soloWord (hok : i.ok = true) (h0 : i.enc.1 ≠ 0) :
    issueBundle n (readBundle (soloWord i)) s = issueBundle n (soloBundle i (slotOp i)) s := by
  have h0' : ¬ i.enc.1 = 0#32 := h0
  have hdec (hdr : Bool) := decodeSlot_enc (hdr := hdr) hok
  unfold soloWord
  cases hhdr : wordNeedsHeader i.enc.1 i.enc.2 i.brm with
  | true =>
    cases hx : onX1 i.enc.1 with
    | true =>
      obtain ⟨head, hread⟩ := readBundle_header_x1 hx (hdec true (.inl rfl))
      rw [hread, slotOp_canon, issueBundle_layout, soloBundle_x1 hok hx, hhdr]
      · simp [emptySlot, xnopSlot, h0']
      · simp [Bundle.spaced, layout, emptySlot, xnopSlot, h0']
      · exact fun hq => ⟨_, List.mem_cons_of_mem _ List.mem_cons_self, h0, hq⟩
    | false =>
      obtain ⟨head, hread⟩ := readBundle_header hx (hdec true (.inl rfl))
      rw [hread, slotOp_canon, issueBundle_layout, soloBundle_single hok hx, hhdr]
      · simp [emptySlot, soloSlot_eq, h0']
      · simp [Bundle.spaced, layout, emptySlot, h0']
      · exact fun hq => ⟨_, List.mem_cons_self, h0, hq⟩
  | false =>
    obtain ⟨hext, hrm, -⟩ := needs_no_header hhdr
    have hquiet := isQuiet_of_headless hhdr
    have hi := hdec false (.inr hhdr)
    rw [hext, hrm] at hi
    cases hx : onX1 i.enc.1 with
    | true =>
      obtain ⟨head, hread⟩ := readBundle_x1 (ext := i.enc.2) (rm := i.brm) hx hi
      rw [hread, slotOp_canon, issueBundle_layout, soloBundle_x1 hok hx, hhdr, hquiet, hext, hrm]
      · simp [emptySlot, xnopSlot, h0']
      · simp [Bundle.spaced, layout, emptySlot, xnopSlot, h0']
      · exact nofun
    | false =>
      cases h2 : decide (wordClass i.enc.1 = 0) && decide (0x40 ≤ wordOp i.enc.1) with
      | true =>
        obtain ⟨head, hread⟩ := readBundle_second (ext := i.enc.2) (rm := i.brm) hx h2 hi
        rw [hread, slotOp_canon, issueBundle_layout, soloBundle_single hok hx, hhdr, hquiet, hext, hrm]
        · simp [emptySlot, soloSlot_eq, h2, hx, h0']
        · simp [Bundle.spaced, layout, emptySlot, h0']
        · exact nofun
      | false =>
        obtain ⟨head, hread⟩ := readBundle_first (ext := i.enc.2) (rm := i.brm) hx h2 hi
        rw [hread, slotOp_canon, issueBundle_layout, soloBundle_single hok hx, hhdr, hquiet, hext, hrm]
        · simp [emptySlot, soloSlot_eq, h2, hx, h0']
        · simp [Bundle.spaced, layout, emptySlot, h0']
        · exact nofun

end

end Sys2Proof.Machine
end

section
/-! What a step runs (02_core.md R24, R28; 04_encoding.md R94, R123). -/

namespace Sys2Proof.Machine

/-! ### A fetch does not depend on which core the model last acted for -/

section
variable {s : State} {n m : Nat}

theorem ctx_cur : ({ s with cur := m } : State).ctx = s.ctx := rfl

theorem core_cur : ({ s with cur := m } : State).core = s.core := rfl

theorem translate_cur : translate ({ s with cur := m } : State) = translate s := rfl

theorem grpOf_cur : ({ s with cur := m } : State).grpOf = s.grpOf := rfl

theorem ownReplica_cur : ({ s with cur := m } : State).ownReplica = s.ownReplica := rfl

theorem codeLine_cur : ({ s with cur := m } : State).codeLine = s.codeLine := rfl

theorem placeAt_cur : ({ s with cur := m } : State).placeAt = s.placeAt := by
  unfold State.placeAt
  rw [translate_cur, ctx_cur]

theorem engineAt_cur : ({ s with cur := m } : State).engineAt = s.engineAt := by
  unfold State.engineAt State.markedAddr
  rw [core_cur, ctx_cur, grpOf_cur, ownReplica_cur, placeAt_cur]

theorem fetch_cur : ({ s with cur := m } : State).fetch = s.fetch := by
  unfold State.fetch
  rw [core_cur, engineAt_cur, codeLine_cur]

end

/-! ### What a fetch gives and leaves -/

section
variable {s : State} {n : Nat} {w : BitVec 128}

theorem fetch_buffered (h : (s.core n).buffered = some w) : s.fetch n = .word w := by
  simp only [State.fetch, h]

/-- Without a copy in the instruction cache a fetch reads the block in memory. -/
theorem codeLine_uncached {pa : Nat} (h : (Tbl.get (⟨0, 0, 0⟩ : Copy) (s.core n).icache (pa / 64)).lease = 0) (j : Nat) :
    s.codeLine n pa j = ⟨s.rdBlock pa, s.tagOf pa, 1⟩ := by
  simp only [State.codeLine, h, ne_eq, not_true_eq_false, decide_false, Bool.false_and, Bool.false_eq_true, if_false]

theorem fetch_memory {pa : Nat} (hb : (s.core n).buffered = none) (hpa : s.engineAt n (s.core n).pc permSL false = .go pa)
    (hc : (Tbl.get (⟨0, 0, 0⟩ : Copy) (s.core n).icache (pa / 64)).lease = 0) (hp : poisoned (s.tagOf pa) = false) :
    s.fetch n = .word (BitVec.ofNat 128 (blockBytes (s.rdBlock pa) (pa % 64) 16)) := by
  simp only [State.fetch, hb, hpa, codeLine_uncached hc, hp, Bool.false_eq_true, if_false]

theorem fetched_mem : (s.fetched n w).mem = s.mem := by
  unfold State.fetched
  dsimp only
  split
  · rfl
  · split <;> rfl

theorem fetched_cur : (s.fetched n w).cur = s.cur := by
  unfold State.fetched
  dsimp only
  split
  · rfl
  · split <;> rfl

theorem buffer_eq (c : Core) : ∃ b, c.buffer w = { c with loopBuf := b } := by
  unfold Core.buffer
  split
  · exact ⟨_, rfl⟩
  · exact ⟨_, rfl⟩

theorem fetched_core : ∃ lines b, (s.fetched n w).core n = { s.core n with icache := lines, loopBuf := b } := by
  unfold State.fetched
  dsimp only
  split
  · exact ⟨_, _, rfl⟩
  · split
    next pa _ =>
      obtain ⟨b, hb⟩ := buffer_eq (w := w) ((s.core n).takeCode (Config.freeValue s.fresh).toNat (pa / 64) (s.codeLine n pa s.fresh))
      rw [core_upd, if_pos rfl]
      exact ⟨_, b, hb⟩
    · exact ⟨_, _, rfl⟩

/-- A fetch of the core leaves it running. -/
theorem fetched_runs : (s.fetched s.cur w).runs ↔ s.runs := by
  obtain ⟨lines, b, hcore⟩ := fetched_core (s := s) (n := s.cur) (w := w)
  have hme : (s.fetched s.cur w).me = { s.me with icache := lines, loopBuf := b } := by
    rw [State.me, fetched_cur, hcore]
    rfl
  unfold State.runs
  rw [hme]

end

/-! ### The bundle event of a core -/

section
variable {s : State} {n : Nat} {w : BitVec 128}

/-- A core whose turn it is runs the bundle its fetch gives. -/
theorem bundleIssue_fetched (hn : coreExists n = true) (ht : s.inTurn n = true) (hf : s.fetch n = .word w) (hr : ({ s with cur := n } : State).runs) :
    exec (.bundleIssue n) s = issueBundle n (readBundle w) (({ s with cur := n } : State).fetched n w) := by
  calc exec (.bundleIssue n) s
      = boundary n (fetchAndIssue n) { s with cur := n } := by
        show execBundleIssue n s = _
        unfold execBundleIssue
        rw [hn, ht]
        rfl
    _ = fetchAndIssue n { s with cur := n } := runs_boundary { s with cur := n } (fetchAndIssue n) hr
    _ = issueBundle n (readBundle w) (({ s with cur := n } : State).fetched n w) := by
        unfold fetchAndIssue
        rw [fetch_cur, hf]

/-- A fetched bundle that holds one operation runs the meaning of its row. -/
theorem bundleIssue_exec {k : Instr} {i : SlotInstr} (hn : coreExists n = true) (ht : s.inTurn n = true) (hk : k.slot = some i) (h0 : i.enc.1 ≠ 0)
    (hok : i.ok = true) (hf : s.fetch n = .word (soloWord i)) (hr : ({ s with cur := n } : State).runs) :
    exec (.bundleIssue n) s = exec k (({ s with cur := n } : State).fetched n (soloWord i)) := by
  have hcur : (({ s with cur := n } : State).fetched n (soloWord i)).cur = n := fetched_cur
  have hruns : (({ s with cur := n } : State).fetched n (soloWord i)).runs := fetched_runs.2 hr
  generalize hu : ({ s with cur := n } : State).fetched n (soloWord i) = u at hcur hruns
  subst hcur
  calc exec (.bundleIssue u.cur) s
      = issueBundle u.cur (readBundle (soloWord i)) u := by rw [bundleIssue_fetched hn ht hf hr, hu]
    _ = issueBundle u.cur (soloBundle i (slotOp i)) u := issueBundle_soloWord hok h0
    _ = issueSolo i (slotOp i) u := (runs_boundary u _ hruns).symm
    _ = exec k u := (exec_slot k i u hk h0).symm

/-- The bundle of zeros has four empty slots. -/
theorem readBundle_zero : readBundle 0 = layout 0 false .rne [emptySlot 0, emptySlot 1, emptySlot 2, emptySlot 3] := by
  have hslot (k : Nat) : slotWord 0 k = 0 := BitVec.extractLsb'_zero
  have hhdr : hasHeader 0 = false := by
    rw [hasHeader_slot, hslot]
    rfl
  rw [readBundle_headless hhdr, hslot]
  simp only [List.map, readSlot_empty hhdr (bundleMode_none hhdr) (hslot _) (slotExt_none hhdr _)]

theorem decodeFault_nil (priv kiosk : Bool) : (layout 0 false .rne []).decodeFault priv kiosk = none := by cases priv <;> rfl

theorem mem_sansCores (s : State) : s.sansCores.mem = s.mem := rfl

/-- A bundle that ends without more than its opening leaves the memory. -/
theorem mem_finish_openIssue (s : State) (rm : RMode) (q : Bool) : ((openIssue s rm).finish q).mem = s.mem := by
  have hplain : (openIssue s rm).plain := ⟨rfl, rfl, rfl, rfl, rfl, rfl, rfl, rfl⟩
  rw [← mem_sansCores, finish_sansCores _ hplain]
  rfl

/-- Four empty slots issue: the memory stays. -/
theorem issueBundle_zero (hcur : s.cur = n) : ∃ t, issueBundle n (readBundle 0) s = .next t ∧ t.mem = s.mem := by
  subst hcur
  refine ⟨(openIssue s .rne).finish false, ?_, mem_finish_openIssue s .rne false⟩
  have hspaced : (layout 0 false .rne [emptySlot 0, emptySlot 1, emptySlot 2, emptySlot 3]).spaced := by
    simp [Bundle.spaced, layout, emptySlot]
  rw [readBundle_zero, issueBundle_layout hspaced (fun h => absurd h Bool.false_ne_true)]
  exact issueBundle_run s (layout 0 false .rne []) (decodeFault_nil _ _) rfl

end

/-- Settles O58: the clauses on fetching and on the order of events are the definitions' own cases; a fetched bundle is decoded back to the
operation it holds (`decodeSlot_enc`, `issueBundle_soloWord`). -/
theorem stepRunsTheFetchedInstruction : Obligations.StepRunsTheFetchedInstruction := by
  intro s
  refine ⟨fun n w h => fetch_buffered h, fun n pa hb hpa hc hp => fetch_memory hb hpa hc hp, ?_, ?_, ?_, ?_, ?_, ?_⟩
  · intro e rest h
    unfold step
    rw [h]
  · intro n ha hr hd
    unfold step idleStep
    rw [ha, hr, hd]
    rfl
  · exact fun n w hn ht hf hr => bundleIssue_fetched hn ht hf hr
  · exact fun n k i hn ht hk h0 hok hf hr => bundleIssue_exec hn ht hk h0 hok hf hr
  · intro n k i j hn ht hk hok hf u hi hends
    have hr : ({ s with cur := n } : State).runs := fetched_runs.1 hi.1
    rw [bundleIssue_exec hn ht hk hi.2.1 hok hf hr]
    rw [Instr.ends, opn_of_slot hk] at hends
    exact hends
  · intro n hn ht hf hr
    obtain ⟨t, hnext, hmem⟩ := issueBundle_zero (s := ({ s with cur := n } : State).fetched n 0) fetched_cur
    exact ⟨t, (bundleIssue_fetched hn ht hf hr).trans hnext, hmem.trans fetched_mem⟩

end Sys2Proof.Machine
end

section
/-! The decode checks of a bundle that holds one operation (04_encoding.md R112, R113): which check an operation alone fails, and the trap
its row then takes. -/

namespace Sys2Proof.Machine

/-- The slots of a bundle go together: no class has too many, QUIET and its bit agree, no destination is named twice, the header names a
rounding mode, TRET stands alone (04_encoding.md R97, R100, R101; 02_core.md R29; 14_trap.md R342). -/
structure Bundle.Matched (b : Bundle) : Prop where
  excess : b.excess = none
  quiet : b.quietSlot.isSome = b.quiet
  clash : clash b.slots = none
  head : b.badHead = false
  tret : b.tretBad = none

/-- The check that slot `x` fails on its own account, met by unit `u`: its fields and source mode, then privilege, then its unit. -/
def Slot.fault (x : Slot) (u : UnitId) (priv kiosk : Bool) : Option (Nat × W64) :=
  if x.dec.isNone || modeBars u x.word x.ext then some (2, slotVal x.idx x.word)
  else if !priv && wordPrivileged x.word then some (3, slotVal x.idx x.word)
  else if unitBars kiosk u x.word then some (2, slotVal x.idx x.word)
  else none

section
variable {b : Bundle} {x : Slot} {u : UnitId} {priv kiosk : Bool}

/-- Where the slots go together, the first slot that fails a check on its own account tells the trap, field checks before privilege and
privilege before units. -/
theorem decodeFault_matched (h : b.Matched) : b.decodeFault priv kiosk =
    ((b.slots.find? fun s => s.dec.isNone || b.units.any fun u => u.2.idx = s.idx && modeBars u.1 s.word s.ext).map
        fun s => (2, slotVal s.idx s.word)).or
      (((b.slots.find? fun s => !priv && wordPrivileged s.word).map fun s => (3, slotVal s.idx s.word)).or
        ((b.slots.find? fun s => b.units.any fun u => u.2.idx = s.idx && unitBars kiosk u.1 s.word).map
          fun s => (2, slotVal s.idx s.word))) := by
  have hbit : (b.quiet && b.quietSlot.isNone) = false ∧ (if b.quiet then none else b.quietSlot) = none := by
    rw [← h.quiet]
    cases b.quietSlot <;> exact ⟨rfl, rfl⟩
  have hpriv : (if priv then none else b.slots.find? fun s => wordPrivileged s.word)
      = b.slots.find? fun s => !priv && wordPrivileged s.word := by
    cases priv with
    | false => rfl
    | true => exact (List.find?_eq_none.2 fun _ _ => Bool.false_ne_true).symm
  unfold Bundle.decodeFault
  rw [h.excess, h.clash, h.head, h.tret, hbit.2, hpriv]
  simp only [hbit.1, Bool.false_eq_true, if_false, Bool.or_false]
  cases b.slots.find? fun s => s.dec.isNone || b.units.any fun u => u.2.idx = s.idx && modeBars u.1 s.word s.ext with
  | some s => rfl
  | none =>
    cases b.slots.find? fun s => !priv && wordPrivileged s.word with
    | some s => rfl
    | none => cases b.slots.find? fun s => b.units.any fun u => u.2.idx = s.idx && unitBars kiosk u.1 s.word <;> rfl

/-- A bundle of one slot fails the check that its slot fails. -/
theorem decodeFault_one (hs : b.slots = [x]) (h0 : x.word ≠ 0) (hh : b.badHead = false)
    (hq : b.quiet = decide (wordClass x.word = 0 ∧ wordOp x.word = 0x51)) (hu : b.units = [(u, x)]) :
    b.decodeFault priv kiosk = x.fault u priv kiosk := by
  have hmatched : b.Matched :=
    ⟨by simp only [Bundle.excess, Bundle.ofClass, hs, filter_one_drop, List.append_nil], (quietSlot_one b x hs h0).trans hq.symm,
      by rw [hs, clash_one], hh, tretBad_one b x hs⟩
  rw [decodeFault_matched hmatched, hs, hu]
  simp only [List.find?_singleton, List.any_cons, List.any_nil, decide_true, Bool.true_and, Bool.or_false]
  unfold Slot.fault
  split_ifs <;> rfl

theorem quietSlot_x1 {k : Nat} (hs : b.slots = [xnopSlot k, x]) (h3 : wordClass x.word = 3) : b.quietSlot = none := by
  simp [Bundle.quietSlot, hs, h3, xnopSlot, wordClass_xnop]

theorem tretBad_x1 {k : Nat} (hs : b.slots = [xnopSlot k, x]) (h3 : wordClass x.word = 3) : b.tretBad = none := by
  simp [Bundle.tretBad, hs, h3, xnopSlot, wordClass_xnop]

theorem clash_xnop (k : Nat) (x : Slot) : clash [xnopSlot k, x] = none := by
  have hnone : wordDest (xnopSlot k).word (xnopSlot k).ext = none := (by decide : wordDest 0xC0000000#32 0#8 = none)
  rw [clash, hnone]
  exact clash_one x

/-- A bundle of XNOP and an X1 operation fails the check that the X1 operation fails. -/
theorem decodeFault_x1 {k : Nat} (hs : b.slots = [xnopSlot k, x]) (h0 : x.word ≠ 0) (hh : b.badHead = false) (hq : b.quiet = false)
    (h3 : wordClass x.word = 3) (h1 : x1Only (wordOp x.word) = true) (hk : x.idx ≠ k) :
    b.decodeFault priv kiosk = x.fault .x1 priv kiosk := by
  have hmatched : b.Matched :=
    ⟨by simp [Bundle.excess, ofClass_x1 b k x hs h0 h3], by rw [quietSlot_x1 hs h3, hq]; rfl, by rw [hs, clash_xnop], hh, tretBad_x1 hs h3⟩
  rw [decodeFault_matched hmatched, hs, units_x1 b k x hs h0 h3 h1]
  have hdec : (xnopSlot k).dec.isNone = false := rfl
  have hmode : modeBars .x0 (xnopSlot k).word (xnopSlot k).ext = false := rfl
  have hpriv : wordPrivileged (xnopSlot k).word = false := (by decide : wordPrivileged 0xC0000000#32 = false)
  have hbar : unitBars kiosk .x0 (xnopSlot k).word = false :=
    (by cases kiosk <;> decide : unitBars kiosk .x0 0xC0000000#32 = false)
  have hidx : (xnopSlot k).idx = k := rfl
  simp only [List.find?_cons, List.find?_nil, List.any_cons, List.any_nil, decide_true, decide_false, Bool.true_and, Bool.false_and, Bool.and_false,
    Bool.or_false, hdec, hmode, hpriv, hbar, hidx, hk, hk.symm, Bool.false_or]
  unfold Slot.fault
  split_ifs <;> simp [*]

theorem Slot.fault_illegal (h : x.dec = none) : x.fault u priv kiosk = some (2, slotVal x.idx x.word) := by
  rw [Slot.fault, h]
  rfl

theorem Slot.fault_privileged (hd : x.dec.isSome = true) (hm : modeBars u x.word x.ext = false) (hw : wordPrivileged x.word = true) :
    x.fault u false kiosk = some (3, slotVal x.idx x.word) := by
  rw [Slot.fault, Option.isNone_eq_false_iff.2 hd, hm, hw]
  rfl

/-- A unit that lacks the operation gives the illegal-instruction trap whether it allows the source mode or not. -/
theorem Slot.fault_barred (hp : wordPrivileged x.word = true → priv = true) (hu : unitBars kiosk u x.word = true) :
    x.fault u priv kiosk = some (2, slotVal x.idx x.word) := by
  have hpriv : (!priv && wordPrivileged x.word) = false := by
    cases hw : wordPrivileged x.word with
    | false => exact Bool.and_false _
    | true => rw [hp hw]; rfl
  rw [Slot.fault, hpriv, hu]
  exact ite_self _

end

/-! ### One operation alone in its bundle -/

section
variable {i : SlotInstr} {op : Op}

theorem onX1_iff {w : W32} : onX1 w = true ↔ wordClass w = 3 ∧ x1Only (wordOp w) = true := by
  rw [onX1, Bool.and_eq_true, decide_eq_true_eq]

/-- The slot of an operation alone in its bundle. -/
def aloneSlot (i : SlotInstr) (op : Op) : Slot := ⟨i.place, i.enc.1, i.enc.2, if i.ok then some op else none⟩

theorem soloBundle_slots_single (hx : onX1 i.enc.1 = false) : (soloBundle i op).slots = [aloneSlot i op] := by
  unfold onX1 at hx
  simp [soloBundle, aloneSlot, SlotInstr.place, Bool.and_assoc, hx]

theorem soloBundle_slots_x1 (hx : onX1 i.enc.1 = true) : (soloBundle i op).slots = [xnopSlot (i.place - 1), aloneSlot i op] := by
  obtain ⟨h3, h1⟩ := onX1_iff.1 hx
  simp [soloBundle, aloneSlot, xnopSlot, SlotInstr.place, h3, h1]

/-- An operation that only X1 executes stands behind an XNOP (R123). -/
theorem place_pos (hx : onX1 i.enc.1 = true) : 0 < i.place := by
  obtain ⟨h3, h1⟩ := onX1_iff.1 hx
  simp only [SlotInstr.place, soloSlot, h3, h1]
  split <;> simp

theorem unit_x1 (hx : onX1 i.enc.1 = true) : i.unit = .x1 := by
  obtain ⟨h3, h1⟩ := onX1_iff.1 hx
  simp [SlotInstr.unit, h3, h1]

theorem unit_single (hx : onX1 i.enc.1 = false) : i.unit = match wordClass i.enc.1 with | 0 => .s | 1 => .v0 | 2 => .m | _ => .x0 := by
  have hclass := wordClass_lt i.enc.1
  unfold SlotInstr.unit
  rw [onX1] at hx
  interval_cases hc : wordClass i.enc.1
  · rfl
  · rfl
  · rfl
  · exact if_neg (Bool.eq_false_iff.1 hx)

/-- An operation alone in its bundle fails the check that its slot fails. -/
theorem decodeFault_soloBundle {priv kiosk : Bool} (h0 : i.enc.1 ≠ 0) :
    (soloBundle i op).decodeFault priv kiosk = (aloneSlot i op).fault i.unit priv kiosk := by
  cases hx : onX1 i.enc.1 with
  | true =>
    obtain ⟨h3, h1⟩ := onX1_iff.1 hx
    have hplace := place_pos hx
    have hquiet : (soloBundle i op).quiet = false := decide_eq_false fun h => absurd (h3.symm.trans h.1) (by decide)
    rw [unit_x1 hx]
    exact decodeFault_x1 (soloBundle_slots_x1 hx) h0 rfl hquiet h3 h1 (show i.place ≠ i.place - 1 by omega)
  | false =>
    have hslots := soloBundle_slots_single (op := op) hx
    refine decodeFault_one hslots h0 rfl rfl ?_
    rw [units_one _ _ hslots h0, unit_single hx]
    rfl

/-- TRAPVAL of a decode check holds the slot number below the slot word (R112). -/
theorem slotVal_place : slotVal i.place i.enc.1 = (BitVec.ofNat 64 i.enc.1.toNat) <<< 32 ||| BitVec.ofNat 64 i.place := by
  have hword : i.enc.1.toNat < 2 ^ 32 := i.enc.1.isLt
  have hplace := place_lt i
  apply BitVec.eq_of_toNat_eq
  rw [slotVal, BitVec.toNat_or, BitVec.toNat_shiftLeft, BitVec.toNat_ofNat, BitVec.toNat_ofNat, BitVec.toNat_ofNat, Nat.shiftLeft_eq,
    Nat.mod_eq_of_lt (a := i.enc.1.toNat) (by omega), Nat.mod_eq_of_lt (a := i.place) (by omega), Nat.mod_eq_of_lt (by omega),
    Nat.mod_eq_of_lt (by omega), mul_comm]
  exact Nat.two_pow_add_eq_or_of_lt (by omega) i.enc.1.toNat

/-- A bundle that fails a decode check traps at the boundary, its cycle spent, before any slot takes effect (R112). -/
theorem issueBundle_fault {b : Bundle} {s : State} {cause : Nat} {val : W64}
    (h : b.decodeFault (s.ctx s.me.ctx).priv (isKiosk s.cur) = some (cause, val)) :
    issueBundle s.cur b s = .next ((s.spent.abandon s.cur).preciseTrap s.cur cause val 0) := by
  have hopened : b.decodeFault (s.opened.ctx (s.opened.core s.cur).ctx).priv (isKiosk s.cur) = some (cause, val) := by
    rw [ctx_opened, show (s.opened.core s.cur).ctx = s.me.ctx from pre_ctx s, h]
  unfold issueBundle
  dsimp only
  rw [show (s.spendCycle s.cur).upd s.cur Core.settle = s.opened from rfl, hopened]
  rfl

/-- A row whose slot fails a check takes the trap of that check. -/
theorem exec_of_fault {k : Instr} {s : State} {cause : Nat} (hk : k.slot = some i) (h0 : i.enc.1 ≠ 0) (hr : s.runs)
    (hf : (aloneSlot i (slotOp i)).fault i.unit (s.ctx s.me.ctx).priv (isKiosk s.cur) = some (cause, slotVal i.place i.enc.1)) :
    exec k s = .next (Claims.decodeTrap i s cause) := by
  rw [exec_slot k i s hk h0, issueSolo, runs_boundary s _ hr, issueBundle_fault ((decodeFault_soloBundle h0).trans hf), slotVal_place]
  rfl

end

/-- Settles O51: the slot's own check is the first that an operation alone in its bundle can fail (`decodeFault_soloBundle`). -/
theorem illegalOperationsTrap : Obligations.IllegalOperationsTrap := by
  intro k i s hk h0 hr
  refine ⟨fun hok => exec_of_fault hk h0 hr (Slot.fault_illegal ?_), fun _ hpriv hbar => exec_of_fault hk h0 hr (Slot.fault_barred hpriv hbar)⟩
  exact if_neg (Bool.eq_false_iff.1 hok)

/-! ### Privilege -/

/-- Privileged operations are of class S (R114). -/
theorem class_of_privileged {w : W32} (h : wordPrivileged w = true) : wordClass w = 0 := by
  rw [wordPrivileged, Bool.and_eq_true, decide_eq_true_eq] at h
  exact h.1

theorem ne_zero_of_privileged {w : W32} (h : wordPrivileged w = true) : w ≠ 0 := by
  rintro rfl
  exact absurd h (by decide)

theorem unit_of_privileged {i : SlotInstr} (h : wordPrivileged i.enc.1 = true) : i.unit = .s := by
  rw [SlotInstr.unit, class_of_privileged h]
  rfl

/-- Whether a class S word of format RR is privileged is told by its opcode. -/
theorem wordPrivileged_encRR {op : BitVec 7} {g : Guard} {o : RR} :
    wordPrivileged (encRR 0 op g o).1 = ((0x59 ≤ op.toNat && op.toNat ≤ 0x5B) || (0x78 ≤ op.toNat && op.toNat ≤ 0x7B)) := by
  have hclass : wordClass (encRR 0 op g o).1 = 0 := by rw [wordClass_fld, encRR, cls_encWord]; rfl
  have hop : wordOp (encRR 0 op g o).1 = op.toNat := by rw [wordOp_fld, shows_encRR.opcode]
  rw [wordPrivileged, hclass, hop]
  rfl

/-- The rows marked privileged are slot operations whose words are (R113, R114). -/
theorem privilegedRows_privileged :
    ∀ k ∈ Claims.privilegedRows, ∀ g o, ∃ i, (k g o).slot = some i ∧ wordPrivileged i.enc.1 = true := by
  simp only [Claims.privilegedRows, List.forall_mem_cons, List.not_mem_nil, false_implies, implies_true, and_true]
  and_intros <;> exact fun _ _ => ⟨_, rfl, wordPrivileged_encRR⟩

/-- Settles O50: a privileged operation's fields pass, its privilege check comes next. -/
theorem privilegedOperationsTrapWithoutPrivilege : Obligations.PrivilegedOperationsTrapWithoutPrivilege := by
  intro k hmem g o s hr hok hpriv
  obtain ⟨i, hk, hw⟩ := privilegedRows_privileged k hmem g o
  obtain rfl := opn_of_slot hk
  refine exec_of_fault hk (ne_zero_of_privileged hw) hr ?_
  have hdec : (aloneSlot (k g o).opn (slotOp (k g o).opn)).dec.isSome = true := by rw [aloneSlot, if_pos hok]; rfl
  have hmode : modeBars (k g o).opn.unit (k g o).opn.enc.1 (k g o).opn.enc.2 = false := by rw [unit_of_privileged hw]; rfl
  rw [hpriv]
  exact Slot.fault_privileged hdec hmode hw

end Sys2Proof.Machine
end

section
/-! The encoding's round trip and the spec's worked words (04_encoding.md R94 to R118). -/

namespace Sys2Proof

/-- Settles O60: `decodeSlot_enc`, behind a header of the operation's rounding mode; a word that needs none has byte 0 and mode rne. -/
theorem decodeUndoesEncode : Obligations.DecodeUndoesEncode := by
  intro i hok
  refine ⟨decodeSlot_enc hok (.inl rfl), fun hneed => ?_⟩
  obtain ⟨hext, hrm, -⟩ := needs_no_header hneed
  have hread := decodeSlot_enc (hdr := false) hok (.inr hneed)
  rwa [hext, hrm] at hread

/-- Settles O59: each word and byte is a literal, and the decoder evaluates on it. -/
theorem wordsOfTheSpecDecode : Obligations.WordsOfTheSpecDecode := by
  unfold Obligations.WordsOfTheSpecDecode
  simp only [Claims.specWords, List.forall_mem_cons, List.not_mem_nil, false_implies, implies_true, and_true]
  and_intros <;> rfl

end Sys2Proof
end

section
/-! Rows of two g sources and a g result (05_scalar_control.md R128 to R130). -/

namespace Sys2Proof.Machine

section
variable {k : Instr} {i : SlotInstr} {g : Guard} {o : RR} {s : State} {lat : Nat} {f : W64 → W64 → W64}

theorem alu_of_rrG {i j : Issue} {x y : W64} (h : i.rrG o = .ok (x, y, j)) : i.alu o lat f = .ok (j.toG o (f x y) lat) := by
  simp only [Issue.alu, h, bind, Except.bind]

/-- The row is an operation on two g sources: its slot delivers `f` of them at latency `lat`, under its guard. -/
def DeliversG (k : Instr) (g : Guard) (o : RR) (lat : Nat) (f : W64 → W64 → W64) : Prop :=
  ∃ i, k.slot = some i ∧ slotOp i = guarded g none (fun j => j.alu o lat f)

/-- Two g sources never stop, so such a row completes on every pair of operands. -/
theorem ends_of_deliversG (hk : DeliversG k g o lat f) (hb : k.begins g s) :
    ∃ (x y : W64) (j : Issue), (k.opening s).rrG o = .ok (x, y, j) ∧ k.ends s (j.toG o (f x y) lat) := by
  obtain ⟨i, hslot, hop⟩ := hk
  obtain ⟨x, y, j, hread⟩ := rrG_ok (k.opening s) o
  exact ⟨x, y, j, hread, ends_guarded hslot hop hb (alu_of_rrG hread)⟩

end

/-! ### Effects -/

/-- The upper half of a 128-bit word holds the quotient by 2^64, rounded down. -/
theorem extractHigh_ofInt (p : Int) : (BitVec.ofInt 128 p).extractLsb' 64 64 = BitVec.ofInt 64 (p / 2 ^ 64) := by
  apply BitVec.eq_of_toNat_eq
  rw [BitVec.extractLsb'_toNat, BitVec.toNat_ofInt, BitVec.toNat_ofInt, Nat.shiftRight_eq_div_pow]
  omega

theorem mulh_eq (x y : W64) : w64 (x.toInt * y.toInt / 2 ^ 64) = (x.signExtend 128 * y.signExtend 128).extractLsb' 64 64 := by
  rw [w64, ← extractHigh_ofInt, BitVec.ofInt_mul]
  rfl

theorem mulhn_eq (x y : W64) : BitVec.ofNat 64 (x.toNat * y.toNat / 2 ^ 64) = (x.setWidth 128 * y.setWidth 128).extractLsb' 64 64 := by
  have hx := x.isLt
  have hy := y.isLt
  have hxy : x.toNat * y.toNat < 2 ^ 64 * 2 ^ 64 := Nat.mul_lt_mul'' hx hy
  apply BitVec.eq_of_toNat_eq
  rw [BitVec.toNat_ofNat, BitVec.extractLsb'_toNat, BitVec.toNat_mul, BitVec.toNat_setWidth, BitVec.toNat_setWidth,
    Nat.mod_eq_of_lt (a := x.toNat) (by omega), Nat.mod_eq_of_lt (a := y.toNat) (by omega), Nat.mod_eq_of_lt (a := x.toNat * y.toNat) (by omega),
    Nat.shiftRight_eq_div_pow]

theorem shamt_eq (y : W64) : shamt y = (y.extractLsb' 0 6).toNat := by
  rw [BitVec.extractLsb'_toNat]; rfl

theorem rotateLeft_eq (x : W64) {k : Nat} (h : k < 64) : x.rotateLeft k = x <<< k ||| x >>> (64 - k) := by
  rw [BitVec.rotateLeft_def, Nat.mod_eq_of_lt h]

/-- Where both choices agree on equal keys, choosing by `≤` is choosing by `<`. -/
theorem ite_le_eq_ite_lt {α β : Type} [LinearOrder α] {a b : α} {x y : β} (h : a = b → x = y) :
    (if a ≤ b then x else y) = if a < b then x else y := by
  rcases lt_trichotomy a b with hlt | heq | hgt
  · rw [if_pos hlt.le, if_pos hlt]
  · rw [if_pos heq.le, if_neg heq.not_lt, h heq]
  · rw [if_neg hgt.not_ge, if_neg hgt.not_gt]

theorem signedMin_eq (x y : W64) : (if x.toInt ≤ y.toInt then x else y) = if x.slt y then x else y := by
  simp only [BitVec.slt_iff_toInt_lt]
  exact ite_le_eq_ite_lt BitVec.eq_of_toInt_eq

theorem signedMax_eq (x y : W64) : (if x.toInt ≤ y.toInt then y else x) = if x.slt y then y else x := by
  simp only [BitVec.slt_iff_toInt_lt]
  exact ite_le_eq_ite_lt fun h => (BitVec.eq_of_toInt_eq h).symm

theorem unsignedMin_eq (x y : W64) : (if x.toNat ≤ y.toNat then x else y) = if x < y then x else y :=
  ite_le_eq_ite_lt BitVec.eq_of_toNat_eq

theorem unsignedMax_eq (x y : W64) : (if x.toNat ≤ y.toNat then y else x) = if x < y then y else x :=
  ite_le_eq_ite_lt fun h => (BitVec.eq_of_toNat_eq h).symm

theorem deliversG_of_eq {k : Instr} {i : SlotInstr} {g : Guard} {o : RR} {lat : Nat} {f f' : W64 → W64 → W64} (hk : k.slot = some i)
    (hop : slotOp i = guarded g none (fun j => j.alu o lat f')) (hf : ∀ x y, f' x y = f x y) : DeliversG k g o lat f :=
  ⟨i, hk, hop.trans (by rw [funext fun x => funext (hf x)])⟩

/-- Each row's slot computes the effect that Table 1 names (05_scalar_control.md R128). -/
theorem deliversG_integerRows : ∀ e ∈ Claims.integerRows, ∀ g o, DeliversG (e.1 g o) g o e.2.1 e.2.2 := by
  simp only [Claims.integerRows, List.forall_mem_cons, List.not_mem_nil, false_implies, implies_true, and_true]
  exact ⟨fun g o => ⟨.s (.add g o), rfl, rfl⟩, fun g o => ⟨.s (.sub g o), rfl, rfl⟩, fun g o => ⟨.s (.mul g o), rfl, rfl⟩,
    fun g o => deliversG_of_eq (i := .s (.mulh g o)) rfl rfl mulh_eq, fun g o => deliversG_of_eq (i := .s (.mulhn g o)) rfl rfl mulhn_eq,
    fun g o => ⟨.s (.and g o), rfl, rfl⟩, fun g o => ⟨.s (.or g o), rfl, rfl⟩, fun g o => ⟨.s (.xor g o), rfl, rfl⟩,
    fun g o => ⟨.s (.andn g o), rfl, rfl⟩, fun g o => deliversG_of_eq (i := .s (.shl g o)) rfl rfl fun x y => congrArg (x <<< ·) (shamt_eq y),
    fun g o => deliversG_of_eq (i := .s (.shr g o)) rfl rfl fun x y => congrArg (x >>> ·) (shamt_eq y),
    fun g o => deliversG_of_eq (i := .s (.sar g o)) rfl rfl fun x y => congrArg x.sshiftRight (shamt_eq y),
    fun g o => deliversG_of_eq (i := .s (.rot g o)) rfl rfl fun x y => rotateLeft_eq x (Nat.mod_lt _ (by decide)),
    fun g o => deliversG_of_eq (i := .s (.min g o)) rfl rfl signedMin_eq, fun g o => deliversG_of_eq (i := .s (.max g o)) rfl rfl signedMax_eq,
    fun g o => deliversG_of_eq (i := .s (.minn g o)) rfl rfl unsignedMin_eq, fun g o => deliversG_of_eq (i := .s (.maxn g o)) rfl rfl unsignedMax_eq⟩

/-- Settles O1: each row is an operation on two g sources, which never stops. -/
theorem integerOperationsDeliverTheirEffect : Obligations.IntegerOperationsDeliverTheirEffect :=
  fun e he g o _ hb => ends_of_deliversG (deliversG_integerRows e he g o) hb

/-! ### Division (R130) -/

/-- Division that truncates is the quotient of the magnitudes under the sign of R130. -/
theorem divQ_eq (x y : Int) : divQ x y = Claims.quotient x y := by
  unfold divQ Claims.quotient
  refine ite_congr rfl (fun _ => rfl) fun _ => ?_
  obtain m | m := x <;> obtain n | n := y <;> simp [Int.tdiv, Int.negSucc_lt_zero, (Int.natCast_nonneg _).not_gt]

theorem divR_eq (x y : Int) : divR x y = Claims.remainder x y := by
  unfold divR Claims.remainder
  refine ite_congr rfl (fun _ => rfl) fun hy => ?_
  rw [Int.tmod_def, ← divQ_eq, divQ, if_neg hy, Int.mul_comm]

theorem deliversG_of_division {k : Instr} {g : Guard} {o : RR} {f : W64 → W64 → Int}
    (hk : (k, f) ∈ [(Instr.div g o, fun x y => Claims.quotient x.toInt y.toInt), (Instr.rem g o, fun x y => Claims.remainder x.toInt y.toInt),
      (Instr.divn g o, fun x y => Claims.quotient x.toNat y.toNat), (Instr.remn g o, fun x y => Claims.remainder x.toNat y.toNat)]) :
    DeliversG k g o 20 (fun x y => BitVec.ofInt 64 (f x y)) := by
  simp only [List.mem_cons, List.not_mem_nil, or_false, Prod.mk.injEq] at hk
  rcases hk with ⟨rfl, rfl⟩ | ⟨rfl, rfl⟩ | ⟨rfl, rfl⟩ | ⟨rfl, rfl⟩
  · exact deliversG_of_eq (i := .s (.div g o)) rfl rfl fun x y => congrArg w64 (divQ_eq _ _)
  · exact deliversG_of_eq (i := .s (.rem g o)) rfl rfl fun x y => congrArg w64 (divR_eq _ _)
  · exact deliversG_of_eq (i := .s (.divn g o)) rfl rfl fun x y => congrArg w64 (divQ_eq _ _)
  · exact deliversG_of_eq (i := .s (.remn g o)) rfl rfl fun x y => congrArg w64 (divR_eq _ _)

/-- Settles O2: the four rows are operations on two g sources, with the quotient and remainder that truncating division gives. -/
theorem divisionDeliversQuotientAndRemainder : Obligations.DivisionDeliversQuotientAndRemainder :=
  fun _ _ _ _ _ hk hb => ends_of_deliversG (deliversG_of_division hk) hb

end Sys2Proof.Machine
end

section
/-! Rows of one source or of registers named in the word: immediates, counts, SEL, LI, LIH and the address operations (05_scalar_control.md
R128, R129, R131, R132). -/

namespace Sys2Proof.Machine

section
variable {k : Instr} {i : Issue} {g : Guard} {o : RR} {s : State}

/-- A source of g never stops. -/
theorem sourceG_ok (i : Issue) (pos : Nat) (m : Src) (r : Nat) : ∃ x j, i.source pos m .g r = .ok (x, j) := by
  cases h : i.source pos m .g r with
  | ok v => exact ⟨v.1, v.2, rfl⟩
  | error e => exact absurd (source_stops _ _ _ _ _ _ h).1 (by decide)

theorem rrG1_ok (i : Issue) (o : RR) : ∃ x j, i.rrG1 o = .ok (x, j) := by
  obtain ⟨x, j, h⟩ := sourceG_ok i 0 (smode o.mode).1 o.s1.toNat
  exact ⟨_, j, by rw [Issue.rrG1, h]; rfl⟩

theorem rrG2_ok (i : Issue) (o : RR) : ∃ y j, i.rrG2 o = .ok (y, j) := by
  obtain ⟨y, j, h⟩ := sourceG_ok i 1 (smode o.mode).2 o.s2.toNat
  exact ⟨_, j, by rw [Issue.rrG2, h]; rfl⟩

/-- A second source is read in an issue that stands at the core before the bundle. -/
theorem rrG2_pre {l : SlotInstr} {y : W64} {j : Issue} (h : (l.opening s).rrG2 o = .ok (y, j)) : j.pre = s.pre := by
  obtain ⟨x, j', hread⟩ := sourceG_ok (l.opening s) 1 (smode o.mode).2 o.s2.toNat
  rw [Issue.rrG2, hread] at h
  obtain ⟨-, rfl⟩ := Prod.mk.inj (Except.ok.inj h)
  obtain ⟨-, hpre, -⟩ := onlyRead_facts (onlyRead_source onlyRead_opening hread)
  exact hpre

/-- A row of one g source completes with `f` of it. -/
theorem ends_of_alu1 {l : SlotInstr} {lat : Nat} {f : W64 → W64} (hk : k.slot = some l)
    (hop : slotOp l = guarded g none (fun j => j.alu1 o lat f)) (hb : k.begins g s) :
    ∃ (x : W64) (j : Issue), (k.opening s).rrG1 o = .ok (x, j) ∧ k.ends s (j.toG o (f x) lat) := by
  obtain ⟨x, j, hread⟩ := rrG1_ok (k.opening s) o
  exact ⟨x, j, hread, ends_guarded hk hop hb (by rw [Issue.alu1, hread]; rfl)⟩

/-- The row is an operation on a g source and an immediate: its slot delivers `f` of the source under its guard. -/
def DeliversOfImm (k : Instr) (g : Guard) (o : RI) (f : W64 → W64) : Prop := ∃ i, k.slot = some i ∧ slotOp i = guarded g none (fun j => j.aluImm o f)

theorem ends_of_deliversOfImm {o : RI} {f : W64 → W64} (hk : DeliversOfImm k g o f) (hb : k.begins g s) :
    ∃ (x : Vec) (j : Issue), (k.opening s).source 0 (sm1 o.sm1) .g o.s1.toNat = .ok (x, j) ∧
      k.ends s (j.resultG o.d.toNat (f (x.setWidth 64)) 1) := by
  obtain ⟨l, hslot, hop⟩ := hk
  obtain ⟨x, j, hread⟩ := sourceG_ok (k.opening s) 0 (sm1 o.sm1) o.s1.toNat
  exact ⟨x, j, hread, ends_guarded hslot hop hb (by rw [Issue.aluImm, hread]; rfl)⟩

end

/-! ### Counts -/

/-- CLZ counts down to the leading one: no one stands above it, and where there is one it stands there. -/
theorem clzN_spec (n x : Nat) : clzN n x ≤ n ∧ (∀ b < n, x.testBit (n - 1 - b) = true → clzN n x ≤ b) ∧
    (clzN n x < n → x.testBit (n - 1 - clzN n x) = true) := by
  induction n with
  | zero => exact ⟨le_rfl, fun b hb => absurd hb b.not_lt_zero, fun h => absurd h (Nat.lt_irrefl 0)⟩
  | succ n ih =>
    obtain ⟨hle, habove, hone⟩ := ih
    unfold clzN
    by_cases htop : x.testBit n = true
    · rw [if_pos htop]
      exact ⟨Nat.zero_le _, fun b _ _ => Nat.zero_le b, fun _ => htop⟩
    · rw [if_neg htop]
      refine ⟨by omega, fun b hb hbit => ?_, fun h => ?_⟩
      · cases b with
        | zero => exact absurd hbit htop
        | succ b =>
          have := habove b (by omega) (by rwa [show n + 1 - 1 - (b + 1) = n - 1 - b by omega] at hbit)
          omega
      · rw [show n + 1 - 1 - (1 + clzN n x) = n - 1 - clzN n x by omega]
        exact hone (by omega)

/-- POPC counts the ones. -/
theorem popcN_eq_countP (n x : Nat) : popcN n x = (List.range n).countP (fun b => x.testBit b) := by
  induction n generalizing x with
  | zero => rfl
  | succ n ih =>
    rw [popcN, ih, List.range_succ_eq_map, List.countP_cons, List.countP_map, Nat.add_comm]
    congr 1
    · simp [Function.comp_def, Nat.testBit_succ]
    · rcases Nat.mod_two_eq_zero_or_one x with h | h <;> simp [Nat.testBit_zero, h]

/-- LIH: the shifted register has no bit where a 16-bit immediate has one, so inserting is adding (05_scalar_control.md R131). -/
theorem lih_eq (x : W64) (imm : BitVec 17) (h : imm.toNat < 65536) :
    x <<< 16 ||| imm.setWidth 64 = BitVec.ofNat 64 (x.toNat * 2 ^ 16 % 2 ^ 64 + imm.toNat) := by
  have hdisjoint : x <<< 16 &&& imm.setWidth 64 = 0#64 := by
    ext b hb
    rw [BitVec.getElem_and, BitVec.getElem_shiftLeft, BitVec.getElem_setWidth, BitVec.getLsbD]
    by_cases hlow : b < 16
    · simp [hlow]
    · rw [Nat.testBit_lt_two_pow (Nat.lt_of_lt_of_le h (Nat.pow_le_pow_right (n := 2) (by decide) (Nat.le_of_not_lt hlow))), Bool.and_false,
        BitVec.getElem_zero]
  rw [← BitVec.add_eq_or_of_and_eq_zero _ _ hdisjoint]
  apply BitVec.eq_of_toNat_eq
  rw [BitVec.toNat_add, BitVec.toNat_shiftLeft, BitVec.toNat_setWidth, BitVec.toNat_ofNat, Nat.shiftLeft_eq]
  omega

theorem imm_lt_of_lih {g : Guard} {o : I12} {s : State} (hb : (Instr.lih g o).begins g s) : o.imm.toNat < 65536 := by
  have hok : (SlotInstr.s (.lih g o)).ok = true := hb.1.2.2.1
  rw [SlotInstr.ok, SInstr.ok, Bool.and_eq_true, decide_eq_true_eq] at hok
  exact hok.2

theorem oneSourceIntegerOperations : Claims.OneSourceIntegerOperations := by
  refine ⟨fun g o s k f hk => ends_of_deliversOfImm ?_, fun g o s hb => ?_, fun g o s hb => ?_, fun g o s hb => ?_, fun g o s hb => ?_,
    fun g o s hb => ?_⟩
  · simp only [List.mem_cons, List.not_mem_nil, or_false, Prod.mk.injEq] at hk
    rcases hk with ⟨rfl, rfl⟩ | ⟨rfl, rfl⟩ | ⟨rfl, rfl⟩ | ⟨rfl, rfl⟩
    · exact ⟨.s (.addi g o), rfl, rfl⟩
    · exact ⟨.s (.shli g o), rfl, rfl⟩
    · exact ⟨.s (.shri g o), rfl, rfl⟩
    · exact ⟨.s (.sari g o), rfl, rfl⟩
  · obtain ⟨x, j, hread, hends⟩ := ends_of_alu1 (l := .s (.clz g o)) rfl (show opClz g o = _ from rfl) hb
    obtain ⟨hle, habove, hone⟩ := clzN_spec 64 x.toNat
    exact ⟨x, j, _, hread, hle, habove, hone, hends⟩
  · obtain ⟨x, j, hread, hends⟩ := ends_of_alu1 (l := .s (.popc g o)) rfl (show opPopc g o = _ from rfl) hb
    rw [popcN_eq_countP] at hends
    exact ⟨x, j, hread, hends⟩
  · exact ends_guarded (i := .s (.sel g o)) rfl (show opSel g o = _ from rfl) hb rfl
  · exact ends_guarded (i := .s (.li g o)) rfl (show opLi g o = _ from rfl) hb rfl
  · rw [← lih_eq _ _ (imm_lt_of_lih hb)]
    exact ends_guarded (i := .s (.lih g o)) rfl (show opLih g o = _ from rfl) hb rfl

theorem addressOperations : Claims.AddressOperations := by
  refine ⟨fun g o s hb => ?_, fun g o s hb => ?_, fun g o s hb => ?_, fun g o s hb => ?_, fun g o s hb => ?_⟩
  · obtain ⟨y, j, hread⟩ := rrG2_ok ((Instr.aadd g o).opening s) o
    refine ⟨y, j, hread, ends_guarded (i := .s (.aadd g o)) rfl (show opAadd g o = _ from rfl) hb ?_⟩
    rw [hread, ← rrG2_pre hread]
    rfl
  · obtain ⟨x, j, hread⟩ := rrG1_ok ((Instr.amovAG g o).opening s) o
    exact ⟨x, j, hread, ends_guarded (i := .s (.amovAG g o)) rfl (show opAmovAG g o = _ from rfl) hb (by rw [hread]; rfl)⟩
  · exact ends_guarded (i := .s (.amovGA g o)) rfl (show opAmovGA g o = _ from rfl) hb rfl
  · exact ends_guarded (i := .s (.amovAA g o)) rfl (show opAmovAA g o = _ from rfl) hb rfl
  · obtain ⟨x, j, hread⟩ := rrG1_ok ((Instr.astr g o).opening s) o
    exact ⟨x, j, hread, ends_guarded (i := .s (.astr g o)) rfl (show opAstr g o = _ from rfl) hb (by rw [hread]; rfl)⟩

/-- Settles O3: a g source never stops, and the other operands are registers and immediates that the word names. -/
theorem immediateAndAddressOperations : Obligations.ImmediateAndAddressOperations := ⟨oneSourceIntegerOperations, addressOperations⟩

end Sys2Proof.Machine
end

section
/-! Compares and operations on predicates (05_scalar_control.md R126, R134, R135). -/

namespace Sys2Proof.Machine

section
variable {k : Instr} {g : Guard} {o : RR} {s : State}

theorem cmp_of_rrG {i j : Issue} {c : Cond} {x y : W64} (h : i.rrG o = .ok (x, y, j)) :
    i.cmp o c = .ok (j.result (if o.dnil then .latch else .p) o.d.toNat (if c.holds x y then 1 else 0) 1) := by
  simp only [Issue.cmp, h, bind, Except.bind]

/-- The row is a compare: its slot delivers to p whether a condition holds of two g sources, and that is what `f` says of them. -/
def Compares (k : Instr) (g : Guard) (o : RR) (f : W64 → W64 → Bool) : Prop :=
  ∃ i c, k.slot = some i ∧ slotOp i = guarded g none (fun j => j.cmp o c) ∧ ∀ x y, c.holds x y = f x y

theorem ends_of_compares {f : W64 → W64 → Bool} (hk : Compares k g o f) (hb : k.begins g s) :
    ∃ (x y : W64) (j : Issue), (k.opening s).rrG o = .ok (x, y, j) ∧
      k.ends s (j.result (if o.dnil then .latch else .p) o.d.toNat (if f x y then 1 else 0) 1) := by
  obtain ⟨i, c, hslot, hop, hcond⟩ := hk
  obtain ⟨x, y, j, hread⟩ := rrG_ok (k.opening s) o
  exact ⟨x, y, j, hread, ends_guarded hslot hop hb (hcond x y ▸ cmp_of_rrG hread)⟩

/-- The row works on predicates: its slot delivers to p what `f` says of the two that its word names. -/
def CombinesP (k : Instr) (g : Guard) (o : RR) (f : Bool → Bool → Bool) : Prop :=
  ∃ i, k.slot = some i ∧ slotOp i = guarded g none (fun j => .ok (j.predOp o f))

theorem ends_of_combinesP {f : Bool → Bool → Bool} (hk : CombinesP k g o f) (hb : k.begins g s) :
    k.ends s ((k.opening s).result (if o.dnil then .latch else .p) o.d.toNat (if f (s.pre.getP o.s1.toNat) (s.pre.getP o.s2.toNat) then 1 else 0) 1) := by
  obtain ⟨i, hslot, hop⟩ := hk
  exact ends_guarded hslot hop hb rfl

end

/-- Not below is at least, for the keys by which values are compared. -/
theorem decide_le_eq_not {α : Type} [LinearOrder α] (a b : α) : decide (a ≤ b) = !decide (b < a) := by
  rw [← decide_not, decide_eq_decide]
  exact not_lt.symm

/-- The conditions of Table 3 (05_scalar_control.md R134). -/
theorem compares_compareRows : ∀ e ∈ Claims.compareRows, ∀ g o, Compares (e.1 g o) g o e.2 := by
  simp only [Claims.compareRows, List.forall_mem_cons, List.not_mem_nil, false_implies, implies_true, and_true]
  exact ⟨fun g o => ⟨.s (.cmpEq g o), .eq, rfl, rfl, fun _ _ => rfl⟩,
    fun g o => ⟨.s (.cmpNe g o), .ne, rfl, rfl, fun _ _ => (decide_not ..).symm⟩,
    fun g o => ⟨.s (.cmpLt g o), .lt, rfl, rfl, fun _ _ => rfl⟩, fun g o => ⟨.s (.cmpLe g o), .le, rfl, rfl, fun _ _ => decide_le_eq_not _ _⟩,
    fun g o => ⟨.s (.cmpGt g o), .gt, rfl, rfl, fun _ _ => rfl⟩, fun g o => ⟨.s (.cmpGe g o), .ge, rfl, rfl, fun _ _ => decide_le_eq_not _ _⟩,
    fun g o => ⟨.s (.cmpLtn g o), .ltn, rfl, rfl, fun _ _ => rfl⟩,
    fun g o => ⟨.s (.cmpLen g o), .len, rfl, rfl, fun _ _ => decide_le_eq_not _ _⟩,
    fun g o => ⟨.s (.cmpGtn g o), .gtn, rfl, rfl, fun _ _ => rfl⟩, fun g o => ⟨.s (.cmpGen g o), .gen, rfl, rfl, fun _ _ => decide_le_eq_not _ _⟩⟩

theorem combinesP_predicateRows : ∀ e ∈ Claims.predicateRows, ∀ g o, CombinesP (e.1 g o) g o e.2 := by
  simp only [Claims.predicateRows, List.forall_mem_cons, List.not_mem_nil, false_implies, implies_true, and_true]
  exact ⟨fun g o => ⟨.s (.pand g o), rfl, rfl⟩, fun g o => ⟨.s (.por g o), rfl, rfl⟩, fun g o => ⟨.s (.pxor g o), rfl, rfl⟩,
    fun g o => ⟨.s (.pnot g o), rfl, rfl⟩, fun g o => ⟨.s (.pmov g o), rfl, rfl⟩⟩

/-- Settles O4: two g sources never stop, and predicates are read as they stand before the bundle. -/
theorem comparesAndPredicatesDeliverTruth : Obligations.ComparesAndPredicatesDeliverTruth :=
  ⟨fun e he g o _ hb => ends_of_compares (compares_compareRows e he g o) hb,
    fun e he g o _ hb => ends_of_combinesP (combinesP_predicateRows e he g o) hb⟩

end Sys2Proof.Machine
end

section
/-! Scalar loads and stores (05_scalar_control.md R136 to R139): each outcome of the checks, and how many bytes a load answers. -/

namespace Sys2Proof.Machine

/-! ### A load answers as many bytes as it asks for -/

theorem rd_lt (s : State) (a n : Nat) : s.rd a n < 2 ^ (8 * n) := by
  have h : s.rd a n < 256 ^ n := read_lt n _ _
  rwa [show (256 : Nat) = 2 ^ 8 from rfl, ← pow_mul] at h

theorem readHome_lt {i j : Issue} {va : W64} {p size need v : Nat} {t : BitVec 16} (h : i.readHome va p size need = .ok ((v, t), j)) :
    v < 2 ^ (8 * size) := by
  unfold Issue.readHome at h
  cases hs : i.sent (readRequest va (if size = 1 && need = permXR then 64 else size) (homeOf p)) with
  | error e => simp only [hs, bind, Except.bind, reduceCtorEq] at h
  | ok u =>
    simp only [hs, bind, Except.bind, Except.ok.injEq, Prod.mk.injEq] at h
    obtain ⟨⟨rfl, -⟩, -⟩ := h
    exact rd_lt _ _ _

theorem readAt_lt {i j : Issue} {va : W64} {pa size need v : Nat} {t : BitVec 16} (h : i.readAt va pa size need = .ok ((v, t), j)) :
    v < 2 ^ (8 * size) := by
  unfold Issue.readAt at h
  split at h
  · simp only [Except.ok.injEq, Prod.mk.injEq] at h
    obtain ⟨⟨rfl, -⟩, -⟩ := h
    exact Nat.mod_lt _ (Nat.two_pow_pos _)
  · rename_i i' _
    cases hp : i'.readPlace va pa need i'.s with
    | error e => simp only [hp, bind, Except.bind, reduceCtorEq] at h
    | ok p =>
      simp only [hp, bind, Except.bind] at h
      exact readHome_lt h

theorem loadAt_lt {i j : Issue} {va : W64} {pa size need v : Nat} (h : i.loadAt va pa size need = .ok (v, j)) : v < 2 ^ (8 * size) := by
  rcases loadAt_ok i va pa size need v j h with ⟨a, -, -, rfl, -⟩ | ⟨t, hread, -⟩
  · exact Nat.mod_lt _ (Nat.two_pow_pos _)
  · exact readAt_lt hread

theorem devRead_lt (s : State) (c : Nat) (d : DevPage) (off n : Nat) : (s.devRead c d off n).1 < 2 ^ (8 * n) := by
  unfold State.devRead
  dsimp only
  split <;> exact Nat.mod_lt _ (Nat.two_pow_pos _)

/-! ### The value made of the bytes (R136 Table 4) -/

/-- Reading the low bits of a number as two's complement is reading the word of that width as signed. -/
theorem sext_eq_toInt {w : Nat} (v : Nat) (hw : 0 < w) : sext v w = (BitVec.ofNat w v).toInt := by
  obtain ⟨w, rfl⟩ : ∃ n, w = n + 1 := ⟨w - 1, by omega⟩
  rw [sext, BitVec.toInt_eq_toNat_cond, BitVec.toNat_ofNat, Nat.add_sub_cancel, Nat.pow_succ]
  exact if_congr (by omega) rfl rfl

theorem w64_sext {w : Nat} (v : Nat) (hw : 0 < w) : w64 (sext v w) = (BitVec.ofNat w v).signExtend 64 := by
  rw [sext_eq_toInt v hw]; rfl

theorem ofNat_eq_setWidth {w v : Nat} (h : v < 2 ^ w) : BitVec.ofNat 64 v = (BitVec.ofNat w v).setWidth 64 := by
  apply BitVec.eq_of_toNat_eq
  rw [BitVec.toNat_setWidth, BitVec.toNat_ofNat, BitVec.toNat_ofNat, Nat.mod_eq_of_lt h]

/-! ### Loads -/

section
variable {i j : Issue} {o : MEM} {size pa : Nat} {r : Bool} {ext : Nat → W64}

theorem scalarLoad_mem {v : Nat} (hx : i.examine (i.address o 11 size) size permSL false true = .ok (.mem pa r))
    (hl : i.loadAt (i.address o 11 size) pa size permSL = .ok (v, j)) : i.scalarLoad o size ext = .ok (j.resultG o.data.toNat (ext v) 4) := by
  simp only [Issue.scalarLoad, hx, hl, bind, Except.bind]

theorem scalarLoad_mem_stop {e : Stop} (hx : i.examine (i.address o 11 size) size permSL false true = .ok (.mem pa r))
    (hl : i.loadAt (i.address o 11 size) pa size permSL = .error e) : i.scalarLoad o size ext = .error e := by
  simp only [Issue.scalarLoad, hx, hl, bind, Except.bind]

theorem scalarLoad_dev {d : DevPage} {off : Nat} (hx : i.examine (i.address o 11 size) size permSL false true = .ok (.dev d off)) :
    i.scalarLoad o size ext = .ok ({ i with s := (i.s.devRead i.n d off size).2 }.resultG o.data.toNat (ext (i.s.devRead i.n d off size).1) 4) := by
  simp only [Issue.scalarLoad, hx, bind, Except.bind]

theorem scalarLoad_stop {e : Stop} (hx : i.examine (i.address o 11 size) size permSL false true = .error e) : i.scalarLoad o size ext = .error e := by
  simp only [Issue.scalarLoad, hx, bind, Except.bind]

/-- A store at a place waits for its line before it is made. -/
theorem scalarStore_mem (hx : i.examine (i.address o 11 size) size permSS true true = .ok (.mem pa r)) : i.scalarStore o size =
    if i.pre.slow.getLsbD i.slot then .error .wait
    else i.storeAt (i.address o 11 size) pa size ((i.pre.getG o.data.toNat).toNat % 2 ^ (8 * size)) r := by
  simp only [Issue.scalarStore, hx, Issue.lineHere, bind, Except.bind]
  cases i.pre.slow.getLsbD i.slot <;> rfl

theorem scalarStore_dev {d : DevPage} {off : Nat} (hx : i.examine (i.address o 11 size) size permSS true true = .ok (.dev d off)) :
    i.scalarStore o size = .ok { i with s := i.s.devWrite d off size ((i.pre.getG o.data.toNat).toNat % 2 ^ (8 * size)) } := by
  simp only [Issue.scalarStore, hx, bind, Except.bind]

theorem scalarStore_stop {e : Stop} (hx : i.examine (i.address o 11 size) size permSS true true = .error e) : i.scalarStore o size = .error e := by
  simp only [Issue.scalarStore, hx, bind, Except.bind]

end

/-- The row is a scalar load: its slot loads `size` bytes under its guard, and makes of them what `f` does. -/
def Loads (k : Instr) (g : Guard) (o : MEM) (size : Nat) (f : Nat → W64) : Prop :=
  ∃ i ext, k.slot = some i ∧ slotOp i = guarded g (incOf o.a o.am) (fun j => j.scalarLoad o size ext) ∧ ∀ v < 2 ^ (8 * size), ext v = f v

/-- The row is a scalar store: its slot stores `size` bytes under its guard. -/
def Stores (k : Instr) (g : Guard) (o : MEM) (size : Nat) : Prop :=
  ∃ i, k.slot = some i ∧ slotOp i = guarded g (incOf o.a o.am) (fun j => j.scalarStore o size)

theorem loads_loadRows : ∀ e ∈ Claims.loadRows, ∀ g o, Loads (e.1 g o) g o e.2.1 e.2.2 := by
  simp only [Claims.loadRows, List.forall_mem_cons, List.not_mem_nil, false_implies, implies_true, and_true]
  exact ⟨fun g o => ⟨.s (.ldI8 g o), _, rfl, rfl, fun v _ => w64_sext v (by decide)⟩,
    fun g o => ⟨.s (.ldN8 g o), _, rfl, rfl, fun v hv => ofNat_eq_setWidth hv⟩,
    fun g o => ⟨.s (.ldI16 g o), _, rfl, rfl, fun v _ => w64_sext v (by decide)⟩,
    fun g o => ⟨.s (.ldN16 g o), _, rfl, rfl, fun v hv => ofNat_eq_setWidth hv⟩,
    fun g o => ⟨.s (.ldI32 g o), _, rfl, rfl, fun v _ => w64_sext v (by decide)⟩,
    fun g o => ⟨.s (.ldN32 g o), _, rfl, rfl, fun v hv => ofNat_eq_setWidth hv⟩,
    fun g o => ⟨.s (.ld64 g o), _, rfl, rfl, fun v _ => rfl⟩⟩

theorem stores_storeRows : ∀ e ∈ Claims.storeRows, ∀ g o, Stores (e.1 g o) g o e.2 := by
  simp only [Claims.storeRows, List.forall_mem_cons, List.not_mem_nil, false_implies, implies_true, and_true]
  exact ⟨fun g o => ⟨.s (.st8 g o), rfl, rfl⟩, fun g o => ⟨.s (.st16 g o), rfl, rfl⟩, fun g o => ⟨.s (.st32 g o), rfl, rfl⟩,
    fun g o => ⟨.s (.st64 g o), rfl, rfl⟩⟩

theorem openingAt_eq (k : Instr) (s : State) (a : BitVec 4) (am : BitVec 2) :
    (k.openingAt s a am).pre = s.pre ∧ (k.openingAt s a am).slot = k.opn.place := by
  unfold Instr.openingAt
  split <;> exact ⟨rfl, rfl⟩

theorem scalarLoadsDeliverTheirBytes : Claims.ScalarLoadsDeliverTheirBytes := by
  intro e he g o s hb i va
  obtain ⟨l, ext, hslot, hop, hext⟩ := loads_loadRows e he g o
  refine ⟨fun pa r v j hx hl => ?_, fun d off hx => ?_, fun pa r x hx hl => ?_, fun x hx => ?_⟩
  · rw [← hext v (loadAt_lt hl)]
    exact ends_guardedAt hslot hop hb (scalarLoad_mem hx hl)
  · rw [← hext _ (devRead_lt _ _ _ _ _)]
    exact ends_guardedAt hslot hop hb (scalarLoad_dev hx)
  · exact stops_guardedAt hslot hop hb (scalarLoad_mem_stop hx hl)
  · exact stops_guardedAt hslot hop hb (scalarLoad_stop hx)

theorem scalarStoresStoreTheirBytes : Claims.ScalarStoresStoreTheirBytes := by
  intro e he g o s hb i va v
  obtain ⟨l, hslot, hop⟩ := stores_storeRows e he g o
  obtain ⟨hpre, hplace⟩ := openingAt_eq (e.1 g o) s o.a o.am
  have hv : (i.pre.getG o.data.toNat).toNat % 2 ^ (8 * e.2) = v := by rw [show i.pre = s.pre from hpre]
  refine ⟨fun pa r hx => ?_, fun d off hx => ?_, fun x hx => stops_guardedAt hslot hop hb (scalarStore_stop hx)⟩
  · have hstore := scalarStore_mem hx
    rw [hv, show i.pre = s.pre from hpre, show i.slot = _ from hplace] at hstore
    refine ⟨fun hslow => ?_, fun hslow => ⟨fun j hj => ?_, fun x hj => ?_⟩⟩ <;> rw [hslow] at hstore
    · exact stops_guardedAt hslot hop hb hstore
    · exact ends_guardedAt hslot hop hb (hstore.trans hj)
    · exact stops_guardedAt hslot hop hb (hstore.trans hj)
  · rw [← hv]
    exact ends_guardedAt hslot hop hb (scalarStore_dev hx)

/-- Settles O5: each outcome of the checks and of the access is one case of the slot's operation. -/
theorem scalarLoadsAndStoresComplete : Obligations.ScalarLoadsAndStoresComplete := ⟨scalarLoadsDeliverTheirBytes, scalarStoresStoreTheirBytes⟩

end Sys2Proof.Machine
end

section
/-! Control transfers (05_scalar_control.md R140 to R142; 04_encoding.md R108): the target taken, and the first true test of a branch tree. -/

namespace Sys2Proof.Machine

/-! ### A transfer by where its target lies -/

section
variable {i : Issue} {t : W64}

theorem transfer_misaligned (h : t.toNat % 16 ≠ 0) : i.transfer t = .error (.trap 8 t) := if_pos h

theorem transfer_outside (h : t.toNat % 16 = 0) (hw : inWindow i.ctx t = false) : i.transfer t = .error (.abort t) := by
  rw [Issue.transfer, if_neg (not_not.2 h), if_pos (by rw [hw]; rfl)]

theorem transfer_taken (h : t.toNat % 16 = 0) (hw : inWindow i.ctx t = true) : i.transfer t = .ok { i with taken := some t } := by
  rw [Issue.transfer, if_neg (not_not.2 h), if_neg (by rw [hw]; decide)]

end

/-- The context in which a slot starts is the one its core ran in. -/
theorem opening_ctx (k : Instr) (s : State) : (k.opening s).ctx = s.ctx s.me.ctx := by
  show s.opened.ctx s.pre.ctx = _
  rw [pre_ctx, ctx_opened]

/-- A field of an offset, read as signed, is the offset (R93). -/
theorem sext_toNat {w : Nat} (x : BitVec w) (hw : 0 < w) : sext x.toNat w = x.toInt := by
  rw [sext_eq_toInt _ hw, BitVec.ofNat_toNat, BitVec.setWidth_eq]

theorem target_eq {w : Nat} (i : Issue) (x : BitVec w) (hw : 0 < w) : i.target x.toNat w = i.pre.pc + BitVec.ofInt 64 (16 * x.toInt) := by
  rw [Issue.target, sext_toNat x hw]

/-- The row transfers to `t`, its slot having made `i` of what it starts from. -/
def TransfersTo (k : Instr) (g : Guard) (s : State) (i : Issue) (t : W64) : Prop :=
  ∃ l op, k.slot = some l ∧ slotOp l = guarded g none op ∧ op (k.opening s) = i.transfer t ∧ i.ctx = s.ctx s.me.ctx

/-- A transfer whose guard holds takes its target, traps or aborts by where the target lies (R141). -/
theorem outcomes_of_transfersTo {k : Instr} {g : Guard} {s : State} {i : Issue} {t : W64} (hk : TransfersTo k g s i t) (hb : k.begins g s) :
    (t.toNat % 16 = 0 → inWindow (s.ctx s.me.ctx) t = true → k.ends s { i with taken := some t }) ∧
    (t.toNat % 16 ≠ 0 → k.stops s (.trap 8 t)) ∧
    (t.toNat % 16 = 0 → inWindow (s.ctx s.me.ctx) t = false → k.stops s (.abort t)) := by
  obtain ⟨l, op, hslot, hop, hrun, hctx⟩ := hk
  rw [← hctx]
  exact ⟨fun h hw => ends_guarded hslot hop hb (hrun.trans (transfer_taken h hw)),
    fun h => stops_guarded hslot hop hb (hrun.trans (transfer_misaligned h)),
    fun h hw => stops_guarded hslot hop hb (hrun.trans (transfer_outside h hw))⟩

theorem result_ctx (i : Issue) (f : RegFile) (r lat : Nat) (x : Vec) : (i.result f r x lat).ctx = i.ctx := rfl

/-! ### The four rows, their offsets read as signed (R140) -/

section
variable (g : Guard)

theorem opBr_eq (o : JO) : opBr g o = guarded g none (fun i => i.transfer (i.pre.pc + BitVec.ofInt 64 (16 * o.off.toInt))) := by
  simp only [opBr, target_eq _ o.off (by decide : 0 < 23)]

theorem opCall_eq (o : JO) : opCall g o = guarded g none (fun i =>
    (i.result .b 7 (vec64 (i.pre.pc + 16)) 1).transfer (i.pre.pc + BitVec.ofInt 64 (16 * o.off.toInt))) := by
  simp only [opCall, target_eq _ o.off (by decide : 0 < 23), result_pre]

theorem opMovb_eq (o : JB) : opMovb g o = guarded g none (fun i =>
    .ok (i.result .b o.b.toNat (vec64 (i.pre.pc + BitVec.ofInt 64 (16 * o.off.toInt))) 1)) := by
  simp only [opMovb, target_eq _ o.off (by decide : 0 < 20)]

end

theorem controlTransfersTakeTheirTarget : Claims.ControlTransfersTakeTheirTarget := by
  refine fun g s => ⟨fun k i t hk => outcomes_of_transfersTo ?_, fun o hb => ends_guarded (i := .s (.movb g o)) rfl (opMovb_eq g o) hb rfl⟩
  rcases hk with ⟨o, rfl, rfl, rfl⟩ | ⟨o, rfl, rfl, rfl⟩ | ⟨o, rfl, rfl, rfl⟩
  · exact ⟨.s (.br g o), _, rfl, opBr_eq g o, rfl, opening_ctx _ s⟩
  · exact ⟨.s (.call g o), _, rfl, opCall_eq g o, rfl, (result_ctx ..).trans (opening_ctx _ s)⟩
  · exact ⟨.s (.ret g o), _, rfl, show opRet g o = _ from rfl, rfl, opening_ctx _ s⟩

/-! ### Branch trees -/

/-- The first true test, counted from `k` on, is number `k + n` where test `n` of the list is true and none before it is. -/
theorem btFirst_some {c : Core} {l : List (BitVec 5 × Bool)} {n k : Nat} {p : BitVec 5 × Bool} (hn : l[n]? = some p) (htrue : c.getP p.1.toNat ≠ p.2)
    (hbefore : ∀ m < n, ∀ q, l[m]? = some q → c.getP q.1.toNat = q.2) : btFirst c l k = some (k + n) := by
  induction l generalizing n k with
  | nil => simp at hn
  | cons q l ih =>
    obtain ⟨r, b⟩ := q
    cases n with
    | zero =>
      obtain rfl : (r, b) = p := by simpa using hn
      rw [btFirst, if_pos (by simpa using htrue), Nat.add_zero]
    | succ n =>
      have hhead : c.getP r.toNat = b := hbefore 0 (Nat.succ_pos n) (r, b) rfl
      rw [btFirst, if_neg (by simp [hhead]), ih (by simpa using hn) fun m hm q hq => hbefore (m + 1) (by omega) q (by simpa using hq)]
      congr 1
      omega

theorem btFirst_none {c : Core} {l : List (BitVec 5 × Bool)} {k : Nat} (h : ∀ q ∈ l, c.getP q.1.toNat = q.2) : btFirst c l k = none := by
  induction l generalizing k with
  | nil => rfl
  | cons q l ih =>
    obtain ⟨r, b⟩ := q
    have hhead : c.getP r.toNat = b := h (r, b) List.mem_cons_self
    rw [btFirst, if_neg (by simp [hhead]), ih fun q hq => h q (List.mem_cons_of_mem _ hq)]

/-- The tests of a branch tree are its first NT + 1 (R142). -/
theorem btTests_getElem? (o : BTO) (n : Nat) : (btTests o)[n]? = if n ≤ o.nt.toNat then some (Claims.treeTest o n) else none := by
  have hnt : o.nt.toNat < 4 := o.nt.isLt
  rw [btTests, List.getElem?_take]
  by_cases h : n ≤ o.nt.toNat
  · have hn : n < 4 := by omega
    rw [if_pos (by omega), if_pos h]
    interval_cases n <;> rfl
  · rw [if_neg (by omega), if_neg h]

section
variable {o : BTO} {i : Issue}

theorem opBt_taken {n : Nat} (hflag : i.pre.flagOk o.flag = true) (hn : btFirst i.pre (btTests o) 0 = some n) :
    opBt o i = i.transfer (i.pre.getB (4 * b2n o.tb + n)) := by
  simp only [opBt, hflag, hn, Bool.not_true, Bool.false_eq_true, if_false]

theorem opBt_falls (h : i.pre.flagOk o.flag = false ∨ btFirst i.pre (btTests o) 0 = none) : opBt o i = .ok i := by
  rcases h with h | h
  · simp only [opBt, h, Bool.not_false, if_true]
  · simp only [opBt, h, ite_self]

end

/-- A row whose operation, from the row's opening, answers an issue completes with it. -/
theorem ends_of_run {k : Instr} {i : SlotInstr} {s : State} {op : Op} {j : Issue} (h : k.slot = some i) (hop : slotOp i = op) (hi : k.opn.issues s)
    (hj : op (k.opening s) = .ok j) : k.ends s j := by
  obtain rfl := opn_of_slot h
  exact ends_of h hi (hop ▸ hj)

/-- A row whose operation, from the row's opening, answers a stop stops its bundle with it. -/
theorem stops_of_run {k : Instr} {i : SlotInstr} {s : State} {op : Op} {e : Stop} (h : k.slot = some i) (hop : slotOp i = op) (hi : k.opn.issues s)
    (hj : op (k.opening s) = .error e) : k.stops s e := by
  obtain rfl := opn_of_slot h
  exact stops_of h hi (hop ▸ hj)

theorem branchTreeTakesTheFirstTrueTest : Claims.BranchTreeTakesTheFirstTrueTest := by
  intro o s hi holds
  refine ⟨?_, fun h => ?_⟩
  · intro n hn hflag htrue hbefore t hal hw
    have hfirst : btFirst s.pre (btTests o) 0 = some n := by
      rw [← Nat.zero_add n]
      exact btFirst_some (by rw [btTests_getElem?, if_pos hn]) htrue fun m hm q hq => by
        rw [btTests_getElem?, if_pos (by omega)] at hq
        obtain rfl := Option.some.inj hq
        exact not_not.1 (hbefore m hm)
    have htarget : s.pre.getB (4 * b2n o.tb + n) = t := by
      show _ = s.pre.getB ((if o.tb then 4 else 0) + n)
      cases o.tb <;> rfl
    refine ends_of_run (i := .s (.bt o)) (op := opBt o) rfl rfl hi ?_
    rw [opBt_taken (i := (Instr.bt o).opening s) hflag hfirst]
    exact (congrArg _ htarget).trans (transfer_taken hal (by rw [opening_ctx, hw]))
  · refine ends_of_run (i := .s (.bt o)) (op := opBt o) rfl rfl hi (opBt_falls (i := (Instr.bt o).opening s) ?_)
    refine h.imp_right fun h => btFirst_none fun q hq => ?_
    obtain ⟨n, hq⟩ := List.mem_iff_getElem?.1 hq
    rw [btTests_getElem?] at hq
    split at hq
    · obtain rfl := Option.some.inj hq
      exact not_not.1 (h n ‹_›)
    · exact absurd hq (by simp)

/-- Settles O6: a transfer's outcomes are those of where its target lies; a branch tree's target is that of its first true test. -/
theorem transfersTakeTheirTarget : Obligations.TransfersTakeTheirTarget := ⟨controlTransfersTakeTheirTarget, branchTreeTakesTheFirstTrueTest⟩

end Sys2Proof.Machine
end

section
/-! Stage predicates, rotation, HALT, QUIET and lent banks (05_scalar_control.md R146, R147, R150 to R152; 02_core.md R51, R52). -/

namespace Sys2Proof.Machine

/-! ### Stage predicates -/

/-- Setting the first `n` stage predicates writes p8 to p(7 + n). -/
theorem getP_setFirstStages (c : Core) (v n r : Nat) :
    ((List.range n).foldl (fun (c : Core) k => c.setP (8 + k) (v.testBit k)) c).getP r =
      if 8 ≤ r ∧ r < 8 + n then v.testBit (r - 8) else c.getP r := by
  induction n with
  | zero => rw [if_neg (by omega)]; rfl
  | succ n ih =>
    rw [List.range_succ, List.foldl_append, List.foldl_cons, List.foldl_nil, getP_setP, ih]
    by_cases hr : r = 8 + n
    · rw [if_pos ⟨hr, by omega⟩, if_pos (by omega), hr, Nat.add_sub_cancel_left]
    · rw [if_neg (fun h => hr h.1)]
      exact if_congr (by omega) rfl rfl

theorem getP_setStages (c : Core) (v r : Nat) : (c.setStages v).getP r = if 8 ≤ r ∧ r < 16 then v.testBit (r - 8) else c.getP r :=
  getP_setFirstStages c v 8 r

/-- A predicate write touches p alone. -/
theorem setP_sansP (c : Core) (r : Nat) (x : Bool) (l : Tbl Bool) : ({ c.setP r x with p := l } : Core) = { c with p := l } := by
  unfold Core.setP
  split <;> rfl

theorem setStages_sansP (c : Core) (v : Nat) : ({ c.setStages v with p := c.p } : Core) = c :=
  List.foldlRecOn (motive := fun d : Core => ({ d with p := c.p } : Core) = c) _ _ rfl fun d hd _ _ => (setP_sansP d _ _ _).trans hd

theorem stagePredicatesTakeTheBits : Claims.StagePredicatesTakeTheBits := by
  refine fun c v => ⟨fun k hk => ?_, fun r hr => ?_, setStages_sansP c v⟩
  · rw [getP_setStages, if_pos (by omega), Nat.add_sub_cancel_left]
  · rw [getP_setStages, if_neg (by omega)]

/-! ### The rows -/

/-- ROTB's immediate 63 ends the rotation, another names its level (R146). -/
theorem rotb_eq (c : Core) (imm : BitVec 9) : c.rotb imm.toNat =
    if imm = 63 then { c with lctl := { c.lctl with roten := false, vrot := 0 } }
    else { c.setStages 1 with lctl := { c.lctl with roten := true, rotlvl := BitVec.ofNat 3 imm.toNat, vrot := 0 } } :=
  if_congr (BitVec.toNat_inj (y := 63)) rfl rfl

theorem opRotb_eq (g : Guard) (o : RI) : opRotb g o = guarded g none (fun i => .ok (i.afterCore (fun c =>
    if o.imm = 63 then { c with lctl := { c.lctl with roten := false, vrot := 0 } }
    else { c.setStages 1 with lctl := { c.lctl with roten := true, rotlvl := BitVec.ofNat 3 o.imm.toNat, vrot := 0 } }))) := by
  simp only [opRotb, rotb_eq]

/-- A cut number not greater than the one held opens an epoch (R151; 12_context.md R311). -/
theorem quietCut_eq (c : Core) (n : Nat) : c.quietCut n =
    { c with cutN := some n
             cutEp := if (match c.cutN with | none => false | some m => decide (n ≤ m)) then (c.cutEp + 1) % 2 ^ 31 else c.cutEp } := by
  unfold Core.quietCut
  cases c.cutN with
  | none => rfl
  | some m => simp only [decide_eq_true_eq]

section
variable {i : Issue} {k : Nat}

/-- A bank that is not lent, with no result on its way to it, is lent (R52). -/
theorem doLend_lends (hlent : i.pre.lent.getLsbD k = false) (hpend : ∀ p ∈ i.pre.pend, p.file = .v → p.reg / 16 ≠ k) :
    i.doLend k = .ok (i.upd (fun c => { c with lent := c.lent ||| BitVec.ofNat 4 (2 ^ k) })) := by
  refine if_neg ?_
  simpa [hlent] using hpend

theorem doLend_traps (h : i.pre.lent.getLsbD k = true ∨ ∃ p ∈ i.pre.pend, p.file = .v ∧ p.reg / 16 = k) : i.doLend k = .error (.trap 6 0) := by
  refine if_pos ?_
  simpa using h

end

theorem stageHaltQuietAndLending : Claims.StageHaltQuietAndLending := by
  refine fun g s => ⟨fun o hb => ends_guarded (i := .s (.rotb g o)) rfl (opRotb_eq g o) hb rfl,
    fun o hb => ends_guarded (i := .s (.stage g o)) rfl (show opStage g o = _ from rfl) hb rfl,
    fun hb => ends_guarded (i := .s (.halt g)) rfl (show opHalt g = _ from rfl) hb rfl, fun o hb => ?_, fun o hb => ⟨fun hlent hpend => ?_, fun h => ?_⟩,
    fun o hb => ends_guarded (i := .s (.retb g o)) rfl (show opRetb g o = _ from rfl) hb rfl⟩
  · refine ends_guarded (i := .s (.quiet g o)) rfl (show opQuiet g o = _ from rfl) hb ?_
    exact congrArg (fun f => Except.ok (Issue.upd _ f)) (funext fun c => quietCut_eq c _)
  · exact ends_guarded (i := .s (.lendb g o)) rfl (show opLendb g o = _ from rfl) hb
      (doLend_lends (i := (Instr.lendb g o).opening s) hlent hpend)
  · exact stops_guarded (i := .s (.lendb g o)) rfl (show opLendb g o = _ from rfl) hb (doLend_traps (i := (Instr.lendb g o).opening s) h)

/-- Settles O8: each row's slot does one thing under its guard; the stage predicates are written one by one. -/
theorem stagesHaltQuietAndLending : Obligations.StagesHaltQuietAndLending := ⟨stageHaltQuietAndLending, stagePredicatesTakeTheBits⟩

end Sys2Proof.Machine
end

section
/-! Traps raised by software and the return from a handler (05_scalar_control.md R154; 14_trap.md R340 to R342). -/

namespace Sys2Proof.Machine

/-! ### A core whose results have been written -/

theorem rest_idleCycles (n : Nat) (c : Core) : (Core.idleCycles n c).rest = c.rest := by
  induction n generalizing c with
  | zero => rfl
  | succ n ih => exact (ih c.idleCycle).trans (rest_idleCycle c)

theorem rest_drain (c : Core) : c.drain.rest = c.rest := rest_idleCycles _ c

theorem drain_frames (c : Core) : c.drain.frames = c.frames := by
  have := congrArg Core.frames (rest_drain c)
  exact this

theorem drain_ctx (c : Core) : c.drain.ctx = c.ctx := by
  have := congrArg Core.ctx (rest_drain c)
  exact this

/-! ### TRET (R342) -/

section
variable {i : Issue}

/-- In a handler TRET's bundle goes on from where the handler's results have been written. -/
theorem drained_of_handler (h : i.pre.frames ≠ []) : i.drained = { i.upd Core.drain with pre := i.core.drain } := by
  unfold Issue.drained
  rw [if_neg (mt List.isEmpty_iff.1 h)]
  simp only [upd_core]

theorem drained_of_depth_zero (h : i.pre.frames = []) : i.drained = i := if_pos (List.isEmpty_iff.2 h)

theorem doTret_of_depth_zero (h : i.pre.frames = []) : i.doTret = .error (.trap 4 0) := if_pos (List.isEmpty_iff.2 h)

theorem doTret_inside (h : i.pre.frames ≠ []) (hw : inWindow i.ctx (BitVec.ofNat 64 (i.pre.rpc.toNat * 16)) = true) :
    i.doTret = .ok { i with final := Core.trapReturn i.interruptedBody, s := { i.s with fresh := i.s.fresh + 256 } } := by
  rw [Issue.doTret, if_neg (mt List.isEmpty_iff.1 h), if_neg (by rw [hw]; decide)]

theorem doTret_outside (h : i.pre.frames ≠ []) (hw : inWindow i.ctx (BitVec.ofNat 64 (i.pre.rpc.toNat * 16)) = false) :
    i.doTret = .error (.abort (BitVec.ofNat 64 (i.pre.rpc.toNat * 16))) := by
  rw [Issue.doTret, if_neg (mt List.isEmpty_iff.1 h), if_pos (by rw [hw]; rfl)]

end

/-- TRET's issue in a handler: the opening, drained. -/
theorem opTret_in_handler {g : Guard} {s : State} (h : s.pre.frames ≠ []) : opTret g ((Instr.tret g).opening s) =
    guarded g none Issue.doTret { ((Instr.tret g).opening s).upd Core.drain with pre := s.pre.drain } :=
  congrArg (guarded g none Issue.doTret) (drained_of_handler (i := (Instr.tret g).opening s) h)

theorem opTret_at_depth_zero {g : Guard} {i : Issue} (h : i.pre.frames = []) (hg : i.pre.guardOk g = true) : opTret g i = .error (.trap 4 0) := by
  rw [opTret, drained_of_depth_zero h]
  exact (guarded_true g none _ i hg).trans (doTret_of_depth_zero h)

theorem tret_ctx (g : Guard) (s : State) :
    ({ ((Instr.tret g).opening s).upd Core.drain with pre := s.pre.drain } : Issue).ctx = s.ctx s.me.ctx := by
  show (s.opened.upd s.cur Core.drain).ctx s.pre.drain.ctx = _
  rw [drain_ctx, pre_ctx]
  rfl

/-- Settles O9: TRAP and TRAPEN act under their guard; TRET reads its guard when the handler's results are written, and then by its depth
and where it returns to. -/
theorem softwareTrapsAndReturn : Obligations.SoftwareTrapsAndReturn := by
  refine fun g s => ⟨fun o hb => ends_guarded (i := .s (.trap g o)) rfl (show opTrap g o = _ from rfl) hb rfl, fun hb => ⟨fun h => ?_, fun h => ?_⟩,
    fun hi => ⟨fun h => ?_, fun h hg => ?_⟩⟩
  · refine ends_guarded (i := .s (.trapen g)) rfl (show opTrapen g = _ from rfl) hb ?_
    exact congrArg Except.ok (if_neg (mt List.isEmpty_iff.1 h))
  · refine ends_guarded (i := .s (.trapen g)) rfl (show opTrapen g = _ from rfl) hb ?_
    exact congrArg Except.ok (if_pos (List.isEmpty_iff.2 h))
  · intro i
    have hrun : opTret g ((Instr.tret g).opening s) = guarded g none Issue.doTret i := opTret_in_handler h
    have hframes : i.pre.frames ≠ [] := by rwa [show i.pre.frames = s.pre.frames from drain_frames _]
    rw [← show i.ctx = s.ctx s.me.ctx from tret_ctx g s]
    clear_value i
    refine ⟨fun hg hw => ends_of_run (i := .s (.tret g)) (op := opTret g) rfl rfl hi ?_,
      fun hg hw => stops_of_run (i := .s (.tret g)) (op := opTret g) rfl rfl hi ?_,
      fun hg => ends_of_run (i := .s (.tret g)) (op := opTret g) rfl rfl hi (hrun.trans (guarded_false g none _ i hg))⟩
    · exact hrun.trans ((guarded_true g none _ i hg).trans (doTret_inside hframes hw))
    · exact hrun.trans ((guarded_true g none _ i hg).trans (doTret_outside hframes hw))
  · refine stops_of_run (i := .s (.tret g)) (op := opTret g) rfl rfl hi (opTret_at_depth_zero h ?_)
    exact hg

end Sys2Proof.Machine
end

section
/-! What leaves both memories as they are (05_scalar_control.md R126): the traps and reports of a core, and a bundle whose slots work on registers
alone. -/

namespace Sys2Proof.Machine

/-- Both memories of the state. -/
def State.memories (s : State) : Memory × Memory := (s.mem, s.hostMem)

theorem memories_eq_iff {s t : State} : t.memories = s.memories ↔ t.mem = s.mem ∧ t.hostMem = s.hostMem := Prod.mk_inj

theorem memories_foldl {α : Type} {f : State → α → State} (hf : ∀ s x, (f s x).memories = s.memories) (l : List α) (s : State) :
    (l.foldl f s).memories = s.memories :=
  List.foldlRecOn (motive := fun t : State => t.memories = s.memories) l f rfl fun t ht x _ => (hf t x).trans ht

/-! ### Traps and reports -/

section
variable (s : State) (n x : Nat)

@[simp] theorem memories_setCore (c : Core) : (s.setCore n c).memories = s.memories := memories_eq_iff.2 ⟨rfl, rfl⟩
@[simp] theorem memories_upd (f : Core → Core) : (s.upd n f).memories = s.memories := memories_eq_iff.2 ⟨rfl, rfl⟩
@[simp] theorem memories_setCtx (c : Ctx) : (s.setCtx x c).memories = s.memories := memories_eq_iff.2 ⟨rfl, rfl⟩
@[simp] theorem memories_withdraw : (s.withdraw n).memories = s.memories := by
  rw [memories_eq_iff]
  simp only [State.withdraw, setCtx_mem, upd_mem, setCtx_hostMem, upd_hostMem, and_self]

@[simp] theorem memories_spendCycle : (s.spendCycle n).memories = s.memories := memories_eq_iff.2 ⟨rfl, rfl⟩

@[simp] theorem memories_setBar (b : BarName) (v : Barrier) : (s.setBar b v).memories = s.memories := by
  unfold State.setBar
  split <;> rfl

@[simp] theorem memories_barSettle (o : BarOut) : (s.barSettle o).memories = s.memories := by
  unfold State.barSettle
  refine memories_foldl (fun t a => ?_) _ _
  rfl

@[simp] theorem memories_meetAt (cores : List Nat) : (s.meetAt cores).memories = s.memories := by
  unfold State.meetAt
  refine memories_foldl (fun t m => ?_) _ _
  rfl

@[simp] theorem memories_barDo (b : BarName) (o : BarOut) : (s.barDo b o).memories = s.memories := by
  unfold State.barDo
  cases b with
  | quarter q => exact (memories_meetAt ..).trans ((memories_barSettle ..).trans (memories_setBar ..))
  | device d => exact (memories_barSettle ..).trans (memories_setBar ..)

@[simp] theorem memories_breakBarriers : (s.breakBarriers n).memories = s.memories := by
  unfold State.breakBarriers
  refine memories_foldl (fun t b => ?_) _ _
  split
  · exact memories_barDo ..
  · rfl

@[simp] theorem memories_freezePart (q : Nat) : (s.freezePart x q).memories = s.memories := by
  unfold State.freezePart
  split
  · refine (memories_foldl (fun t n => ?_) _ _).trans (memories_setCtx ..)
    exact (memories_upd ..).trans (memories_withdraw ..)
  · refine memories_foldl (fun t n => ?_) _ _
    exact (memories_upd ..).trans (memories_withdraw ..)
  · rfl

@[simp] theorem memories_faultCtx : (s.faultCtx x).memories = s.memories := by
  unfold State.faultCtx
  dsimp only
  split
  · exact (memories_foldl (fun t q => memories_freezePart t x q) _ _).trans (memories_setCtx ..)
  · rfl

@[simp] theorem memories_doubleTrap (cause : Nat) : (s.doubleTrap n cause).memories = s.memories := by
  simp only [State.doubleTrap, memories_faultCtx, memories_breakBarriers, memories_withdraw, memories_upd]

@[simp] theorem memories_takeTrap (cause : Nat) (val addr ret : W64) (k : Option Nat) (imp : Bool) :
    (s.takeTrap n cause val addr ret k imp).memories = s.memories := by
  rw [takeTrap_eq]
  split
  · exact memories_doubleTrap ..
  · rfl

@[simp] theorem memories_preciseTrap (cause : Nat) (val addr : W64) : (s.preciseTrap n cause val addr).memories = s.memories :=
  memories_takeTrap ..

@[simp] theorem memories_freeCommand (k : Nat) : (s.freeCommand n k).memories = s.memories := by
  unfold State.freeCommand
  split <;> rfl

@[simp] theorem memories_takeReport : (s.takeReport n).memories = s.memories := by
  unfold State.takeReport
  split
  · rfl
  · dsimp only
    split
    · exact memories_doubleTrap ..
    · simp only [memories_takeTrap, memories_upd, memories_freeCommand]

@[simp] theorem memories_endRequests : (s.endRequests n).memories = s.memories := by
  unfold State.endRequests
  split <;> rfl

@[simp] theorem memories_abandon : (s.abandon n).memories = s.memories := by
  rw [State.abandon, memories_withdraw, memories_endRequests]

end

/-! ### Slots that work on registers -/

/-- `j` has come from `i` without a change of a memory, and asks for nothing more at the end of the bundle. -/
def Issue.RegistersOnly (i j : Issue) : Prop :=
  j.s.memories = i.s.memories ∧ j.post = i.post ∧ j.cmds = i.cmds ∧ j.trapAfter = i.trapAfter

/-- An operation that never stops and works on registers alone. -/
def WorksOnRegisters (op : Op) : Prop := ∀ i, ∃ j, op i = .ok j ∧ i.RegistersOnly j

section
variable {i j : Issue}

theorem registersOnly_refl (i : Issue) : i.RegistersOnly i := ⟨rfl, rfl, rfl, rfl⟩

theorem registersOnly_trans {k : Issue} (h : i.RegistersOnly j) (h' : j.RegistersOnly k) : i.RegistersOnly k := by
  obtain ⟨hmem, hpost, hcmds, htrap⟩ := h
  obtain ⟨hmem', hpost', hcmds', htrap'⟩ := h'
  exact ⟨hmem'.trans hmem, hpost'.trans hpost, hcmds'.trans hcmds, htrap'.trans htrap⟩

theorem registersOnly_upd (i : Issue) (f : Core → Core) : i.RegistersOnly (i.upd f) := ⟨rfl, rfl, rfl, rfl⟩

theorem registersOnly_result (i : Issue) (f : RegFile) (r lat : Nat) (x : Vec) : i.RegistersOnly (i.result f r x lat) := registersOnly_upd i _

theorem registersOnly_source {pos r : Nat} {k : Src} {f : RegFile} {x : Vec} (h : i.source pos k f r = .ok (x, j)) : i.RegistersOnly j := by
  rcases source_ok i pos k f r x j h with ⟨-, -, rfl⟩ | ⟨-, -, rfl⟩ | ⟨-, -, -, rfl⟩ | ⟨-, -, -, rfl⟩ | ⟨-, -, -, rfl⟩ | ⟨-, -, -, rfl⟩
  · exact registersOnly_refl _
  · exact registersOnly_upd _ _
  · exact registersOnly_refl _
  · exact registersOnly_upd _ _
  · exact registersOnly_refl _
  · exact registersOnly_upd _ _

theorem registersOnly_rrG {o : RR} {x y : W64} (h : i.rrG o = .ok (x, y, j)) : i.RegistersOnly j := by
  unfold Issue.rrG at h
  cases hs : i.rrSources o .g .g with
  | error e => simp only [hs, bind, Except.bind, reduceCtorEq] at h
  | ok v =>
    simp only [hs, bind, Except.bind, Except.ok.injEq, Prod.mk.injEq] at h
    obtain ⟨-, -, rfl⟩ := h
    obtain ⟨j1, h1, h2⟩ := rrSources_ok hs
    exact registersOnly_trans (registersOnly_source h1) (registersOnly_source h2)

end

theorem worksOnRegisters_alu (o : RR) (lat : Nat) (f : W64 → W64 → W64) : WorksOnRegisters (fun i => i.alu o lat f) := fun i => by
  obtain ⟨x, y, j, hread⟩ := rrG_ok i o
  exact ⟨_, alu_of_rrG hread, registersOnly_trans (registersOnly_rrG hread) (registersOnly_result ..)⟩

theorem worksOnRegisters_cmp (o : RR) (c : Cond) : WorksOnRegisters (fun i => i.cmp o c) := fun i => by
  obtain ⟨x, y, j, hread⟩ := rrG_ok i o
  exact ⟨_, cmp_of_rrG hread, registersOnly_trans (registersOnly_rrG hread) (registersOnly_result ..)⟩

theorem worksOnRegisters_predOp (o : RR) (f : Bool → Bool → Bool) : WorksOnRegisters (fun i => .ok (i.predOp o f)) := fun i =>
  ⟨_, rfl, registersOnly_result i _ _ _ _⟩

theorem worksOnRegisters_guarded {g : Guard} {op : Op} (h : WorksOnRegisters op) : WorksOnRegisters (guarded g none op) := fun i => by
  cases hg : i.pre.guardOk g with
  | true => rw [guarded_true g none op i hg]; exact h i
  | false => exact ⟨i, guarded_false g none op i hg, registersOnly_refl i⟩

/-! ### Bundles of such slots -/

/-- Slots that work on registers all issue. -/
theorem runSlots_of_worksOnRegisters {l : List (UnitId × Slot)} (hl : ∀ u ∈ l, IfSome WorksOnRegisters u.2.dec) (i : Issue) :
    ∃ j, runSlots l i [] = .issued j ∧ i.RegistersOnly j := by
  induction l generalizing i with
  | nil => exact ⟨i, rfl, registersOnly_refl i⟩
  | cons u t ih =>
    obtain ⟨u, x⟩ := u
    have ht := ih fun v hv => hl v (List.mem_cons_of_mem _ hv)
    have hx : IfSome WorksOnRegisters x.dec := hl (u, x) List.mem_cons_self
    unfold runSlots
    cases hd : x.dec with
    | none => exact ht i
    | some op =>
      obtain ⟨j, hop, hj⟩ := hx.some_of hd { i with unit := u, slot := x.idx, word := x.word }
      obtain ⟨j', hrun, hj'⟩ := ht j
      exact ⟨j', by dsimp only; rw [hop]; exact hrun, registersOnly_trans hj hj'⟩

/-- The end of a bundle that asks for nothing there changes no memory. -/
theorem finish_memories {j : Issue} (hpost : j.post = id) (hcmds : j.cmds = []) (htrap : j.trapAfter = none) (q : Bool) :
    (j.finish q).memories = j.s.memories := by
  simp only [Issue.finish, hpost, hcmds, htrap, startAll_nil, memories_endRequests, memories_upd, memories_setCore, id]

/-- A bundle of such slots, met anywhere, leaves the memories: it traps in decode, or it issues. -/
theorem issueBundle_memories {n : Nat} {b : Bundle} {s t : State} (hb : ∀ u ∈ b.units, IfSome WorksOnRegisters u.2.dec)
    (h : issueBundle n b s = .next t) : t.memories = s.memories := by
  unfold issueBundle at h
  dsimp only at h
  split at h
  · obtain rfl := Host.Outcome.next.inj h
    simp only [memories_preciseTrap, memories_abandon, memories_spendCycle]
  · split at h
    · obtain rfl := Host.Outcome.next.inj h
      simp only [memories_preciseTrap, memories_spendCycle]
    · obtain ⟨j, hrun, hmem, hpost, hcmds, htrap⟩ := runSlots_of_worksOnRegisters hb _
      rw [hrun] at h
      obtain rfl := Host.Outcome.next.inj h
      rw [finish_memories hpost hcmds htrap, hmem, memories_upd, memories_spendCycle]

/-- One such operation alone in its bundle, whatever state it is met in. -/
theorem issueSolo_memories {i : SlotInstr} {op : Op} {s t : State} (hop : WorksOnRegisters op) (h : issueSolo i op s = .next t) :
    t.memories = s.memories := by
  have hslots : ∀ x ∈ (soloBundle i op).slots, IfSome WorksOnRegisters x.dec := by
    intro x hx
    simp only [soloBundle, List.mem_append, List.mem_ite_nil_right, List.mem_singleton] at hx
    rcases hx with ⟨-, rfl⟩ | rfl
    · exact fun i => ⟨i, rfl, registersOnly_refl i⟩
    · dsimp only
      split
      · exact hop
      · trivial
  unfold issueSolo boundary at h
  dsimp only at h
  split at h
  · cases h
  · split at h
    · obtain rfl := Host.Outcome.next.inj h
      simp only [memories_takeReport, memories_spendCycle]
    · exact issueBundle_memories (fun u hu => hslots _ (Bundle.mem_slots_of_units hu)) h

/-! ### The rows -/

/-- The row is a slot operation that works on registers alone. -/
def RegisterRow (k : Instr) : Prop := ∃ i, k.slot = some i ∧ WorksOnRegisters (slotOp i)

theorem exec_memories {k : Instr} {s t : State} (hk : RegisterRow k) (hword : k.opn.enc.1 ≠ 0) (h : exec k s = .next t) :
    t.memories = s.memories := by
  obtain ⟨i, hslot, hop⟩ := hk
  obtain rfl := opn_of_slot hslot
  rw [exec_slot k k.opn s hslot hword] at h
  exact issueSolo_memories hop h

theorem registerRow_of_deliversG {k : Instr} {g : Guard} {o : RR} {lat : Nat} {f : W64 → W64 → W64} (hk : DeliversG k g o lat f) :
    RegisterRow k := by
  obtain ⟨i, hslot, hop⟩ := hk
  exact ⟨i, hslot, hop ▸ worksOnRegisters_guarded (worksOnRegisters_alu o lat f)⟩

theorem registerRow_of_compares {k : Instr} {g : Guard} {o : RR} {f : W64 → W64 → Bool} (hk : Compares k g o f) : RegisterRow k := by
  obtain ⟨i, c, hslot, hop, -⟩ := hk
  exact ⟨i, hslot, hop ▸ worksOnRegisters_guarded (worksOnRegisters_cmp o c)⟩

theorem registerRow_of_combinesP {k : Instr} {g : Guard} {o : RR} {f : Bool → Bool → Bool} (hk : CombinesP k g o f) : RegisterRow k := by
  obtain ⟨i, hslot, hop⟩ := hk
  exact ⟨i, hslot, hop ▸ worksOnRegisters_guarded (worksOnRegisters_predOp o f)⟩

/-- The rows named by O54: the operations on two g sources, the compares and the operations on predicates. -/
noncomputable def registerRows (g : Guard) (o : RR) : List Instr :=
  Claims.integerRows.map (fun e => e.1 g o) ++ Claims.compareRows.map (fun e => e.1 g o) ++ Claims.predicateRows.map (fun e => e.1 g o) ++
    [.div g o, .divn g o, .rem g o, .remn g o]

theorem registerRow_registerRows {g : Guard} {o : RR} : ∀ k ∈ registerRows g o, RegisterRow k := by
  intro k hk
  simp only [registerRows, List.mem_append, List.mem_map] at hk
  obtain ((⟨e, he, rfl⟩ | ⟨e, he, rfl⟩) | ⟨e, he, rfl⟩) | hdiv := hk
  · exact registerRow_of_deliversG (deliversG_integerRows e he g o)
  · exact registerRow_of_compares (compares_compareRows e he g o)
  · exact registerRow_of_combinesP (combinesP_predicateRows e he g o)
  · simp only [List.mem_cons, List.not_mem_nil, or_false] at hdiv
    rcases hdiv with rfl | rfl | rfl | rfl
    · exact registerRow_of_deliversG (g := g) (o := o) ⟨.s (.div g o), rfl, rfl⟩
    · exact registerRow_of_deliversG (g := g) (o := o) ⟨.s (.divn g o), rfl, rfl⟩
    · exact registerRow_of_deliversG (g := g) (o := o) ⟨.s (.rem g o), rfl, rfl⟩
    · exact registerRow_of_deliversG (g := g) (o := o) ⟨.s (.remn g o), rfl, rfl⟩

/-- A class S word of format RR is not the empty word: its opcode is not 0. -/
theorem encRR_ne_zero {op : BitVec 7} {g : Guard} {o : RR} (h : op ≠ 0) : (encRR 0 op g o).1 ≠ 0 := by
  intro hzero
  have hop : wordOp (encRR 0 op g o).1 = op.toNat := by rw [wordOp_fld, shows_encRR.opcode]
  rw [hzero] at hop
  exact h (BitVec.eq_of_toNat_eq hop.symm)

theorem word_ne_zero_registerRows {g : Guard} {o : RR} : ∀ k ∈ registerRows g o, k.opn.enc.1 ≠ 0 := by
  simp only [registerRows, Claims.integerRows, Claims.compareRows, Claims.predicateRows, List.map_cons, List.map_nil, List.cons_append,
    List.nil_append, List.forall_mem_cons, List.not_mem_nil, false_implies, implies_true, and_true]
  and_intros <;> exact encRR_ne_zero (by decide)

/-- Settles O54: such a row's bundle traps in decode, gives way to a report, or issues with registers changed; none of these changes a memory. -/
theorem registerOperationsLeaveMemoryAlone : Obligations.RegisterOperationsLeaveMemoryAlone := fun _ _ _ _ k hk h =>
  memories_eq_iff.1 (exec_memories (registerRow_registerRows k hk) (word_ne_zero_registerRows k hk) h)

end Sys2Proof.Machine
end

section
/-! Lanes of a vector (06_vector.md R157): what a lane and a bit of a vector packed from a list are. -/

namespace Sys2Proof.Machine

theorem nth_eq_getD {α : Type} (d : α) (l : List α) (n : Nat) : nth d l n = l.getD n d := by
  induction l generalizing n with
  | nil => rfl
  | cons x t ih =>
    cases n with
    | zero => rfl
    | succ n => exact ih n

/-- A map reads through, within the list. -/
theorem nth_map {α β : Type} {l : List α} {n : Nat} (h : n < l.length) (d : α) (d' : β) (f : α → β) : nth d' (l.map f) n = f (nth d l n) := by
  simp only [nth_eq_getD, List.getD_eq_getElem?_getD, List.getElem?_map, List.getElem?_eq_getElem h, Option.map_some, Option.getD_some]

theorem nth_map_range {α : Type} {m n : Nat} (h : n < m) (d : α) (f : Nat → α) : nth d ((List.range m).map f) n = f n := by
  rw [nth_map (by rwa [List.length_range]) 0, nth_eq_getD, List.getD_eq_getElem _ _ (by rwa [List.length_range]), List.getElem_range]

theorem lane_lt (v : Vec) (w n : Nat) : lane v w n < 2 ^ w := Nat.mod_lt _ (Nat.two_pow_pos w)

theorem testBit_lane (v : Vec) (w n b : Nat) : (lane v w n).testBit b = (decide (b < w) && v.getLsbD (w * n + b)) := by
  rw [lane, Nat.testBit_mod_two_pow, Nat.testBit_shiftRight]
  rfl

/-- A packed number, shifted to a place of the list, shows the element there; beyond the list's end that is 0. -/
theorem packLanes_shiftRight (w : Nat) (l : List Nat) (n : Nat) : (packLanes w l >>> (w * n)) % 2 ^ w = nth 0 l n % 2 ^ w := by
  induction l generalizing n with
  | nil => simp only [packLanes, nth, Nat.zero_shiftRight]
  | cons x t ih =>
    cases n with
    | zero => simp only [packLanes, nth, Nat.mul_zero, Nat.shiftRight_zero, Nat.add_mul_mod_self_left, Nat.mod_mod]
    | succ n =>
      have htail : (x % 2 ^ w + 2 ^ w * packLanes w t) >>> w = packLanes w t := by
        rw [Nat.shiftRight_eq_div_pow, Nat.add_mul_div_left _ _ (Nat.two_pow_pos w), Nat.div_eq_of_lt (Nat.mod_lt _ (Nat.two_pow_pos w)), Nat.zero_add]
      rw [packLanes, Nat.mul_succ, Nat.add_comm (w * n), Nat.shiftRight_add, htail]
      exact ih n

/-- Bit b of a packed number is the bit of the element that its place falls in. -/
theorem testBit_packLanes {w : Nat} (hw : 0 < w) (l : List Nat) (b : Nat) : (packLanes w l).testBit b = (nth 0 l (b / w)).testBit (b % w) := by
  have hbit := congrArg (fun x => Nat.testBit x (b % w)) (packLanes_shiftRight w l (b / w))
  have hlt := Nat.mod_lt b hw
  simp only [Nat.testBit_mod_two_pow, hlt, decide_true, Bool.true_and, Nat.testBit_shiftRight, Nat.div_add_mod] at hbit
  exact hbit

/-- A lane of a vector packed from a list, where the vector has that lane. -/
theorem lane_vecOf {w n : Nat} (h : n < 1024 / w) (l : List Nat) : lane (vecOf w l) w n = nth 0 l n % 2 ^ w := by
  have hfits : w * n + w ≤ 1024 := by
    have := Nat.mul_le_of_le_div w (n + 1) 1024 h
    rwa [Nat.mul_comm, Nat.mul_succ] at this
  rw [← packLanes_shiftRight]
  refine Nat.eq_of_testBit_eq fun b => ?_
  rw [testBit_lane, vecOf, BitVec.getLsbD_ofNat, Nat.testBit_mod_two_pow, Nat.testBit_shiftRight]
  by_cases hb : b < w
  · rw [decide_eq_true (show w * n + b < 1024 by omega), Bool.true_and]
  · simp only [hb, decide_false, Bool.false_and]

theorem lane_mapLanes {w n : Nat} (h : n < 1024 / w) (f : Nat → Nat) : lane (mapLanes w f) w n = f n % 2 ^ w := by
  rw [mapLanes, lane_vecOf h, nth_map_range h]

/-- Bit b of the mask made of a condition on lanes of width w is the condition on the lane that byte b belongs to (06_vector.md R157). -/
theorem getLsbD_maskOf {w b : Nat} (hw : w = 16 ∨ w = 32) (hb : b < 128) (f : Nat → Bool) : (maskOf w f).getLsbD b = f (8 * b / w) := by
  obtain ⟨hpos, hlane, hplace⟩ : 0 < w / 8 ∧ b / (w / 8) < 1024 / w ∧ b / (w / 8) = 8 * b / w := by
    rcases hw with rfl | rfl <;> omega
  rw [maskOf, BitVec.getLsbD_ofNat, testBit_packLanes hpos, nth_map_range hlane, hplace, decide_eq_true hb, Bool.true_and]
  cases f (8 * b / w)
  · exact Nat.zero_testBit _
  · rw [if_pos rfl, Nat.testBit_two_pow_sub_one]
    exact decide_eq_true (Nat.mod_lt b hpos)

end Sys2Proof.Machine
end

section
/-! Rows that deliver lanes (06_vector.md R157 to R160): from what a row's slot computes once its operands are read, to what the row delivers. -/

namespace Sys2Proof.Machine

section
variable {k : Instr} {l : SlotInstr} {g : Guard} {rm : RMode} {o : RR} {s : State} {i j : Issue} {x y : Vec} {d : BitVec 6} {dnil : Bool} {lat w : Nat}

/-! ### Destinations -/

theorem toV_nil (j : Issue) (d : Nat) (v : Vec) (lat : Nat) : j.toV d true v lat = .ok (j.result .latch 0 v lat) := rfl

theorem toV_free {d : Nat} (h : j.core.isLent (j.pre.physV d) = false) (v : Vec) (lat : Nat) :
    j.toV d false v lat = .ok (j.result .v (j.pre.physV d) v lat) := by
  simp only [Issue.toV, Issue.destV, h, Bool.false_eq_true, if_false, bind, Except.bind]

theorem toV_lent {d : Nat} (h : j.core.isLent (j.pre.physV d) = true) (v : Vec) (lat : Nat) : j.toV d false v lat = .error (.trap 5 0) := by
  simp only [Issue.toV, Issue.destV, h, Bool.false_eq_true, if_false, if_true, bind, Except.bind]

/-- A row whose operation ends by sending a vector to its v destination delivers that vector's lanes. -/
theorem deliversLanes_of_toV {op : Op} {v : Vec} {f : Nat → Nat} (hslot : k.slot = some l) (hop : slotOp l = guarded g none op) (hb : k.begins g s)
    (hrun : op (k.opening s) = j.toV d.toNat dnil v lat) (hv : ∀ n < 1024 / w, lane v w n = f n % 2 ^ w) :
    Claims.deliversLanes k s j d dnil lat w f := by
  refine ⟨v, hv, ?_, ?_, ?_⟩
  · rintro rfl
    exact ends_guarded hslot hop hb (hrun.trans (toV_nil ..))
  · rintro rfl hfree
    exact ends_guarded hslot hop hb (hrun.trans (toV_free hfree ..))
  · rintro rfl hlent
    exact stops_guarded hslot hop hb (hrun.trans (toV_lent hlent ..))

/-! ### Rows of one source and of two -/

/-- An operation on two v sources that draws the words of a stochastic rounding, one for each lane of width w. -/
def Issue.onPair (i : Issue) (o : RR) (rm : RMode) (w lat : Nat) (F : Vec → Vec → List Nat → Vec) : Except Stop Issue := do
  let (x, y, i) ← i.rrSources o .v .v
  let (ws, i) := i.roundWords rm (1024 / w)
  i.toV o.d.toNat o.dnil (F x y ws) lat

/-- The same on the first source alone. -/
def Issue.onOne (i : Issue) (o : RR) (rm : RMode) (w lat : Nat) (F : Vec → List Nat → Vec) : Except Stop Issue := do
  let (x, i) ← i.v1 o
  let (ws, i) := i.roundWords rm (1024 / w)
  i.toV o.d.toNat o.dnil (F x ws) lat

/-- The row's slot is an operation on two v sources whose lane n is `f n` of the sources and the words drawn. -/
def DeliversOfPair (k : Instr) (g : Guard) (o : RR) (rm : RMode) (w lat : Nat) (f : Vec → Vec → List Nat → Nat → Nat) : Prop :=
  ∃ l F, k.slot = some l ∧ slotOp l = guarded g none (fun i => i.onPair o rm w lat F) ∧
    ∀ x y ws, ∀ n < 1024 / w, lane (F x y ws) w n = f x y ws n % 2 ^ w

/-- The same of an operation on one v source. -/
def DeliversOfOne (k : Instr) (g : Guard) (o : RR) (rm : RMode) (w lat : Nat) (f : Vec → List Nat → Nat → Nat) : Prop :=
  ∃ l F, k.slot = some l ∧ slotOp l = guarded g none (fun i => i.onOne o rm w lat F) ∧ ∀ x ws, ∀ n < 1024 / w, lane (F x ws) w n = f x ws n % 2 ^ w

theorem deliversLanes_of_pair {f : Vec → Vec → List Nat → Nat → Nat} (hk : DeliversOfPair k g o rm w lat f) (hb : k.begins g s)
    (hread : (k.opening s).rrSources o .v .v = .ok (x, y, j)) :
    Claims.deliversLanes k s (j.roundWords rm (1024 / w)).2 o.d o.dnil lat w (f x y (j.roundWords rm (1024 / w)).1) := by
  obtain ⟨l, F, hslot, hop, hF⟩ := hk
  exact deliversLanes_of_toV hslot hop hb (by rw [Issue.onPair, hread]; rfl) (hF x y _)

theorem deliversLanes_of_one {f : Vec → List Nat → Nat → Nat} (hk : DeliversOfOne k g o rm w lat f) (hb : k.begins g s)
    (hread : (k.opening s).v1 o = .ok (x, j)) :
    Claims.deliversLanes k s (j.roundWords rm (1024 / w)).2 o.d o.dnil lat w (f x (j.roundWords rm (1024 / w)).1) := by
  obtain ⟨l, F, hslot, hop, hF⟩ := hk
  exact deliversLanes_of_toV hslot hop hb (by rw [Issue.onOne, hread]; rfl) (hF x _)

/-- A row that applies an element function lane by lane; one that agrees with it on lanes delivers the same. -/
theorem deliversOfPair_of_agree {e e' : Nat → Nat → Nat → Nat} (hslot : k.slot = some l)
    (hop : slotOp l = guarded g none (fun i => i.vec2 o rm w lat e')) (he : ∀ x < 2 ^ w, ∀ y < 2 ^ w, ∀ u, e' x y u % 2 ^ w = e x y u % 2 ^ w) :
    DeliversOfPair k g o rm w lat (fun x y ws n => e (lane x w n) (lane y w n) (nth 0 ws n)) :=
  ⟨l, fun x y ws => mapLanes w (fun n => e' (lane x w n) (lane y w n) (nth 0 ws n)), hslot, hop, fun x y _ n hn => by
    rw [lane_mapLanes hn, he _ (lane_lt x w n) _ (lane_lt y w n)]⟩

theorem deliversOfPair_of_vec2 {e : Nat → Nat → Nat → Nat} (hslot : k.slot = some l)
    (hop : slotOp l = guarded g none (fun i => i.vec2 o rm w lat e)) :
    DeliversOfPair k g o rm w lat (fun x y ws n => e (lane x w n) (lane y w n) (nth 0 ws n)) :=
  deliversOfPair_of_agree hslot hop fun _ _ _ _ _ => rfl

theorem deliversOfOne_of_agree {e e' : Nat → Nat → Nat} (hslot : k.slot = some l) (hop : slotOp l = guarded g none (fun i => i.vec1 o rm w lat e'))
    (he : ∀ x < 2 ^ w, ∀ u, e' x u % 2 ^ w = e x u % 2 ^ w) :
    DeliversOfOne k g o rm w lat (fun x ws n => e (lane x w n) (nth 0 ws n)) :=
  ⟨l, fun x ws => mapLanes w (fun n => e' (lane x w n) (nth 0 ws n)), hslot, hop, fun x _ n hn => by
    rw [lane_mapLanes hn, he _ (lane_lt x w n)]⟩

theorem deliversOfOne_of_vec1 {e : Nat → Nat → Nat} (hslot : k.slot = some l) (hop : slotOp l = guarded g none (fun i => i.vec1 o rm w lat e)) :
    DeliversOfOne k g o rm w lat (fun x ws n => e (lane x w n) (nth 0 ws n)) :=
  deliversOfOne_of_agree hslot hop fun _ _ _ => rfl

/-- A v source is read in an issue that stands at the core before the bundle. -/
theorem pre_of_source {pos r : Nat} {m : Src} {f : RegFile} (h : (l.opening s).source pos m f r = .ok (x, j)) : j.pre = s.pre := by
  obtain ⟨-, hpre, -⟩ := onlyRead_facts (onlyRead_source onlyRead_opening h)
  exact hpre

end

end Sys2Proof.Machine
end

section
/-! Float operations of two and three operands, functions, and operations on bit patterns, lane by lane (06_vector.md R161 to R166). -/

namespace Sys2Proof.Machine

/-! ### Two operands, and functions of one -/

/-- Every float row of two operands applies its element to two lanes of its format and a drawn word. -/
theorem deliversOfPair_floatRows : ∀ e ∈ Claims.floatRows, ∀ g rm o, DeliversOfPair (e.1 g rm o) g o rm e.2.1.w e.2.2.1
    (fun x y ws n => e.2.2.2 rm (nth 0 ws n) (e.2.1.val (lane x e.2.1.w n)) (e.2.1.val (lane y e.2.1.w n)) (lane x e.2.1.w n) (lane y e.2.1.w n)) := by
  simp only [Claims.floatRows, List.forall_mem_cons, List.not_mem_nil, false_implies, implies_true, and_true]
  exact ⟨fun g rm o => deliversOfPair_of_vec2 (l := .v (.vaddF32 g rm o)) rfl rfl,
    fun g rm o => deliversOfPair_of_vec2 (l := .v (.vaddBf16 g rm o)) rfl rfl,
    fun g rm o => deliversOfPair_of_vec2 (l := .v (.vaddF16 g rm o)) rfl rfl,
    fun g rm o => deliversOfPair_of_vec2 (l := .v (.vsubF32 g rm o)) rfl rfl,
    fun g rm o => deliversOfPair_of_vec2 (l := .v (.vsubBf16 g rm o)) rfl rfl,
    fun g rm o => deliversOfPair_of_vec2 (l := .v (.vsubF16 g rm o)) rfl rfl,
    fun g rm o => deliversOfPair_of_vec2 (l := .v (.vmulF32 g rm o)) rfl rfl,
    fun g rm o => deliversOfPair_of_vec2 (l := .v (.vmulBf16 g rm o)) rfl rfl,
    fun g rm o => deliversOfPair_of_vec2 (l := .v (.vmulF16 g rm o)) rfl rfl,
    fun g rm o => deliversOfPair_of_vec2 (l := .v (.vminF32 g rm o)) rfl rfl,
    fun g rm o => deliversOfPair_of_vec2 (l := .v (.vminBf16 g rm o)) rfl rfl,
    fun g rm o => deliversOfPair_of_vec2 (l := .v (.vminF16 g rm o)) rfl rfl,
    fun g rm o => deliversOfPair_of_vec2 (l := .v (.vmaxF32 g rm o)) rfl rfl,
    fun g rm o => deliversOfPair_of_vec2 (l := .v (.vmaxBf16 g rm o)) rfl rfl,
    fun g rm o => deliversOfPair_of_vec2 (l := .v (.vmaxF16 g rm o)) rfl rfl,
    fun g rm o => deliversOfPair_of_vec2 (l := .v (.vdivF32 g rm o)) rfl rfl,
    fun g rm o => deliversOfPair_of_vec2 (l := .v (.vdivBf16 g rm o)) rfl rfl⟩

/-- Every function row applies its function to a lane of its format and a drawn word. -/
theorem deliversOfOne_functionRows : ∀ e ∈ Claims.functionRows, ∀ g rm o, DeliversOfOne (e.1 g rm o) g o rm e.2.1.w 8
    (fun x ws n => e.2.2 rm (nth 0 ws n) (e.2.1.val (lane x e.2.1.w n))) := by
  simp only [Claims.functionRows, List.forall_mem_cons, List.not_mem_nil, false_implies, implies_true, and_true]
  exact ⟨fun g rm o => deliversOfOne_of_vec1 (l := .v (.vrcpF32 g rm o)) rfl rfl,
    fun g rm o => deliversOfOne_of_vec1 (l := .v (.vrcpBf16 g rm o)) rfl rfl,
    fun g rm o => deliversOfOne_of_vec1 (l := .v (.vrsqF32 g rm o)) rfl rfl,
    fun g rm o => deliversOfOne_of_vec1 (l := .v (.vrsqBf16 g rm o)) rfl rfl,
    fun g rm o => deliversOfOne_of_vec1 (l := .v (.vsqrtF32 g rm o)) rfl rfl,
    fun g rm o => deliversOfOne_of_vec1 (l := .v (.vsqrtBf16 g rm o)) rfl rfl,
    fun g rm o => deliversOfOne_of_vec1 (l := .v (.vexp2F32 g rm o)) rfl rfl,
    fun g rm o => deliversOfOne_of_vec1 (l := .v (.vexp2Bf16 g rm o)) rfl rfl,
    fun g rm o => deliversOfOne_of_vec1 (l := .v (.vlog2F32 g rm o)) rfl rfl,
    fun g rm o => deliversOfOne_of_vec1 (l := .v (.vlog2Bf16 g rm o)) rfl rfl,
    fun g rm o => deliversOfOne_of_vec1 (l := .v (.vtanhF32 g rm o)) rfl rfl,
    fun g rm o => deliversOfOne_of_vec1 (l := .v (.vtanhBf16 g rm o)) rfl rfl⟩

/-! ### Bit patterns (R163) -/

/-- Inverting the top bit of a pattern of w + 1 bits is adding its weight, the carry lost. -/
theorem xor_two_pow_eq_add {w x : Nat} (hx : x < 2 ^ (w + 1)) : Nat.xor x (2 ^ w) = (x + 2 ^ w) % 2 ^ (w + 1) := by
  refine Nat.eq_of_testBit_eq fun b => ?_
  rw [show Nat.xor x (2 ^ w) = x ^^^ 2 ^ w from rfl, Nat.testBit_xor, Nat.testBit_mod_two_pow, Nat.testBit_two_pow, Nat.add_comm x]
  rcases lt_trichotomy b w with hlow | rfl | hhigh
  · rw [Nat.testBit_two_pow_add_gt hlow]
    simp [hlow.ne', hlow.trans (Nat.lt_succ_self w)]
  · simp [Nat.testBit_two_pow_add_eq]
  · have hbit : x.testBit b = false := Nat.testBit_lt_two_pow (hx.trans_le (Nat.pow_le_pow_right (by decide) hhigh))
    simp [hbit, hhigh.ne, show ¬ b < w + 1 by omega]

theorem deliversOfOne_of_pattern {k : Instr} {l : SlotInstr} {g : Guard} {o : RR} {w : Nat} {e e' : Nat → Nat} (hslot : k.slot = some l)
    (hop : slotOp l = guarded g none (fun i => i.vec1 o .rne w 2 (fun x _ => e' x))) (he : ∀ x < 2 ^ w, e' x = e x) :
    DeliversOfOne k g o .rne w 2 (fun x _ n => e (lane x w n)) :=
  deliversOfOne_of_agree (e := fun x _ => e x) hslot hop fun x hx _ => congrArg (· % 2 ^ w) (he x hx)

/-- Every pattern row applies its element to a lane; it draws no word. -/
theorem deliversOfOne_patternRows : ∀ e ∈ Claims.patternRows, ∀ g o, DeliversOfOne (e.1 g o) g o .rne e.2.1 2
    (fun x _ n => e.2.2 (lane x e.2.1 n)) := by
  simp only [Claims.patternRows, List.forall_mem_cons, List.not_mem_nil, false_implies, implies_true, and_true]
  exact ⟨fun g o => deliversOfOne_of_pattern (l := .v (.vabsF32 g o)) rfl rfl fun _ _ => rfl,
    fun g o => deliversOfOne_of_pattern (l := .v (.vabsH g o)) rfl rfl fun _ _ => rfl,
    fun g o => deliversOfOne_of_pattern (l := .v (.vnegF32 g o)) (e := fun x => (x + 2 ^ 31) % 2 ^ 32) rfl rfl fun _ => xor_two_pow_eq_add (w := 31),
    fun g o => deliversOfOne_of_pattern (l := .v (.vnegH g o)) (e := fun x => (x + 2 ^ 15) % 2 ^ 16) rfl rfl fun _ => xor_two_pow_eq_add (w := 15),
    fun g o => deliversOfOne_of_pattern (l := .v (.vclassF32 g o)) rfl rfl fun _ _ => rfl,
    fun g o => deliversOfOne_of_pattern (l := .v (.vclassBf16 g o)) rfl rfl fun _ _ => rfl,
    fun g o => deliversOfOne_of_pattern (l := .v (.vclassF16 g o)) rfl rfl fun _ _ => rfl⟩

/-! ### Three operands (R161) -/

section
variable {k : Instr} {g : Guard} {rm : RMode} {o : RR} {s : State} {j : Issue} {c x y : Vec} {f : Fmt} {h : FVal → FVal → FVal → Sum}

/-- The row's slot is a fused operation of format `f`, whose exact sum is `h` of the two sources and the destination. -/
def Fuses (k : Instr) (g : Guard) (rm : RMode) (o : RR) (f : Fmt) (h : FVal → FVal → FVal → Sum) : Prop :=
  ∃ l, k.slot = some l ∧ slotOp l = guarded g none (fun i => i.vecFma o rm f h)

theorem fuses_fusedRows : ∀ e ∈ Claims.fusedRows, ∀ g rm o, Fuses (e.1 g rm o) g rm o e.2.1 (e.2.2 rm) := by
  simp only [Claims.fusedRows, List.forall_mem_cons, List.not_mem_nil, false_implies, implies_true, and_true]
  exact ⟨fun g rm o => ⟨.v (.vfmaF32 g rm o), rfl, rfl⟩, fun g rm o => ⟨.v (.vfmaBf16 g rm o), rfl, rfl⟩,
    fun g rm o => ⟨.v (.vfmaF16 g rm o), rfl, rfl⟩, fun g rm o => ⟨.v (.vfmsF32 g rm o), rfl, rfl⟩,
    fun g rm o => ⟨.v (.vfmsBf16 g rm o), rfl, rfl⟩, fun g rm o => ⟨.v (.vfmsF16 g rm o), rfl, rfl⟩,
    fun g rm o => ⟨.v (.vfnmaF32 g rm o), rfl, rfl⟩, fun g rm o => ⟨.v (.vfnmaBf16 g rm o), rfl, rfl⟩,
    fun g rm o => ⟨.v (.vfnmaF16 g rm o), rfl, rfl⟩⟩

theorem deliversLanes_of_fuses (hk : Fuses k g rm o f h) (hb : k.begins g s) (hc : (k.opening s).readReg .v o.d.toNat = .ok c)
    (hread : (k.opening s).rrSources o .v .v = .ok (x, y, j)) :
    Claims.deliversLanes k s (j.roundWords rm (1024 / f.w)).2 o.d false 4 f.w (fun n =>
      roundSum f rm (nth 0 (j.roundWords rm (1024 / f.w)).1 n) (h (f.val (lane x f.w n)) (f.val (lane y f.w n)) (f.val (lane c f.w n)))) := by
  obtain ⟨l, hslot, hop⟩ := hk
  exact deliversLanes_of_toV hslot hop hb (by rw [Issue.vecFma, hc, hread]; rfl) fun n hn => lane_mapLanes hn _

end

theorem floatOperationsDeliverEachLane : Claims.FloatOperationsDeliverEachLane := fun g rm o _ =>
  ⟨fun e he hb _ _ _ hread => deliversLanes_of_pair (deliversOfPair_floatRows e he g rm o) hb hread,
    fun e he hb _ _ _ _ hc hread => deliversLanes_of_fuses (fuses_fusedRows e he g rm o) hb hc hread⟩

theorem functionOperationsDeliverEachLane : Claims.FunctionOperationsDeliverEachLane := fun g rm o _ =>
  ⟨fun e he hb _ _ hread => deliversLanes_of_one (deliversOfOne_functionRows e he g rm o) hb hread,
    fun e he hb _ _ hread => deliversLanes_of_one (deliversOfOne_patternRows e he g o) hb hread⟩

/-- Settles O16: each row's slot applies its element to the lanes it has read, and a v destination takes the vector of the results. -/
theorem floatAndFunctionLanes : Obligations.FloatAndFunctionLanes := ⟨floatOperationsDeliverEachLane, functionOperationsDeliverEachLane⟩

end Sys2Proof.Machine
end

section
/-! VFIN and its read form, and integer, bitwise, select and compare operations, lane by lane (06_vector.md R164, R167 to R169). -/

namespace Sys2Proof.Machine

/-! ### The finite test (R164) -/

section
variable {k : Instr} {g : Guard} {o : RR} {s : State} {i j : Issue} {x : Vec} {f : Fmt}

theorem isFin_eq_false_iff (v : FVal) : v.isFin = false ↔ v.isNan = true ∨ v.isInf = true := by
  cases v <;> simp [FVal.isFin, FVal.isNan, FVal.isInf]

/-- An enabled lane of `x` is an infinity or a NaN. -/
def nonFinite (m : Mask) (f : Fmt) (x : Vec) : Bool := (List.range (1024 / f.w)).any (fun n => laneOn m f.w n && !(f.val (lane x f.w n)).isFin)

theorem nonFinite_iff (m : Mask) (f : Fmt) (x : Vec) : nonFinite m f x = true ↔
    ∃ n < 1024 / f.w, m.getLsbD (n * f.w / 8) = true ∧ ((f.val (lane x f.w n)).isNan = true ∨ (f.val (lane x f.w n)).isInf = true) := by
  simp only [nonFinite, List.any_eq_true, List.mem_range, Bool.and_eq_true, Bool.not_eq_true', isFin_eq_false_iff, laneOn]

theorem vfin_of_v1 (h : i.v1 o = .ok (x, j)) : i.vfin o f =
    .ok ((j.upd (fun c => { c with nfs := c.nfs || nonFinite (j.pre.getM o.s2.toNat) f x })).result (if o.dnil then .latch else .p) o.d.toNat
      (if nonFinite (j.pre.getM o.s2.toNat) f x then 1 else 0) 2) := by
  rw [Issue.vfin, h]
  rfl

/-- The row's slot is VFIN's test in format `f`. -/
def TestsFinite (k : Instr) (g : Guard) (o : RR) (f : Fmt) : Prop := ∃ l, k.slot = some l ∧ slotOp l = guarded g none (fun i => i.vfin o f)

theorem testsFinite_finRows : ∀ e ∈ Claims.finRows, ∀ g o, TestsFinite (e.1 g o) g o e.2 := by
  simp only [Claims.finRows, List.forall_mem_cons, List.not_mem_nil, false_implies, implies_true, and_true]
  exact ⟨fun g o => ⟨.v (.vfinF32 g o), rfl, rfl⟩, fun g o => ⟨.v (.vfinBf16 g o), rfl, rfl⟩, fun g o => ⟨.v (.vfinF16 g o), rfl, rfl⟩⟩

theorem ends_of_testsFinite (hk : TestsFinite k g o f) (hb : k.begins g s) (hread : (k.opening s).v1 o = .ok (x, j)) :
    ∃ n : Bool, (n = true ↔ ∃ m < 1024 / f.w, (s.pre.getM o.s2.toNat).getLsbD (m * f.w / 8) = true ∧
        ((f.val (lane x f.w m)).isNan = true ∨ (f.val (lane x f.w m)).isInf = true)) ∧
      k.ends s ((j.upd (fun c => { c with nfs := c.nfs || n })).result (if o.dnil then .latch else .p) o.d.toNat (if n then 1 else 0) 2) := by
  obtain ⟨l, hslot, hop⟩ := hk
  have hpre : j.pre = s.pre := pre_of_source hread
  exact ⟨_, nonFinite_iff .., ends_guarded hslot hop hb (hpre ▸ vfin_of_v1 hread)⟩

/-- The row's slot is VFIN's read form. -/
def ReadsSticky (k : Instr) (g : Guard) (o : RR) : Prop := ∃ l, k.slot = some l ∧ slotOp l = guarded g none (fun i => .ok (i.vfinRead o))

theorem readsSticky_finReadRows : ∀ e ∈ Claims.finReadRows, ∀ g o, ReadsSticky (e g o) g o := by
  simp only [Claims.finReadRows, List.forall_mem_cons, List.not_mem_nil, false_implies, implies_true, and_true]
  exact ⟨fun g o => ⟨.v (.vfinNfsF32 g o), rfl, rfl⟩, fun g o => ⟨.v (.vfinNfsBf16 g o), rfl, rfl⟩, fun g o => ⟨.v (.vfinNfsF16 g o), rfl, rfl⟩⟩

theorem ends_of_readsSticky (hk : ReadsSticky k g o) (hb : k.begins g s) :
    k.ends s (((k.opening s).upd (fun c => { c with nfs := false })).result (if o.dnil then .latch else .p) o.d.toNat (if s.pre.nfs then 1 else 0) 2) := by
  obtain ⟨l, hslot, hop⟩ := hk
  exact ends_guarded hslot hop hb rfl

end

theorem finiteTestsKeepTheStickyFlag : Claims.FiniteTestsKeepTheStickyFlag := fun g o _ =>
  ⟨fun e he hb _ _ hread => ends_of_testsFinite (testsFinite_finRows e he g o) hb hread,
    fun e he hb => ends_of_readsSticky (readsSticky_finReadRows e he g o) hb⟩

/-! ### Elements of the integer rows (R167) -/

theorem wrapN_eq_toNat (x : Int) (w : Nat) : wrapN x w = (BitVec.ofInt w x).toNat := (BitVec.toNat_ofInt ..).symm

/-- The upper half of a 64-bit word holds the quotient by 2^32, rounded down. -/
theorem extractHigh32_ofInt (p : Int) : (BitVec.ofInt 64 p).extractLsb' 32 32 = BitVec.ofInt 32 (p / 2 ^ 32) := by
  apply BitVec.eq_of_toNat_eq
  rw [BitVec.extractLsb'_toNat, BitVec.toNat_ofInt, BitVec.toNat_ofInt, Nat.shiftRight_eq_div_pow]
  omega

theorem mulHigh32_eq (x y : Nat) : wrapN (sext x 32 * sext y 32 / 2 ^ 32) 32 =
    (((BitVec.ofNat 32 x).signExtend 64 * (BitVec.ofNat 32 y).signExtend 64).extractLsb' 32 32).toNat := by
  rw [wrapN_eq_toNat, ← extractHigh32_ofInt, BitVec.ofInt_mul, sext_eq_toInt x (by decide), sext_eq_toInt y (by decide)]
  rfl

theorem arithmeticShift_eq {w : Nat} (hw : 0 < w) (x n : Nat) : wrapN (sext x w / 2 ^ n) w = ((BitVec.ofNat w x).sshiftRight n).toNat := by
  rw [wrapN_eq_toNat, sext_eq_toInt x hw, BitVec.sshiftRight, Int.shiftRight_eq_div_pow, Int.natCast_pow]
  rfl

theorem iminmax_min (w : Nat) (signed : Bool) (x y : Nat) :
    iminmax w signed false x y = if intVal w signed x ≤ intVal w signed y then x else y := by
  simp only [iminmax, Bool.bne_false, decide_eq_true_eq]

theorem iminmax_max (w : Nat) (signed : Bool) (x y : Nat) :
    iminmax w signed true x y = if intVal w signed x ≤ intVal w signed y then y else x := by
  simp only [iminmax, Bool.bne_true, Bool.not_eq_true', decide_eq_false_iff_not, ite_not]

/-- Two lanes of equal signed value are equal. -/
theorem eq_of_toInt_ofNat_eq {w x y : Nat} (hx : x < 2 ^ w) (hy : y < 2 ^ w) (h : (BitVec.ofNat w x).toInt = (BitVec.ofNat w y).toInt) : x = y := by
  have := congrArg BitVec.toNat (BitVec.eq_of_toInt_eq h)
  rwa [BitVec.toNat_ofNat, BitVec.toNat_ofNat, Nat.mod_eq_of_lt hx, Nat.mod_eq_of_lt hy] at this

theorem iminmax_signed_min {w : Nat} (hw : 0 < w) {x y : Nat} (hx : x < 2 ^ w) (hy : y < 2 ^ w) :
    iminmax w true false x y = if (BitVec.ofNat w x).slt (BitVec.ofNat w y) then x else y := by
  rw [iminmax_min]
  simp only [intVal, if_true, sext_eq_toInt _ hw, BitVec.slt_iff_toInt_lt]
  exact ite_le_eq_ite_lt (eq_of_toInt_ofNat_eq hx hy)

theorem iminmax_signed_max {w : Nat} (hw : 0 < w) {x y : Nat} (hx : x < 2 ^ w) (hy : y < 2 ^ w) :
    iminmax w true true x y = if (BitVec.ofNat w x).slt (BitVec.ofNat w y) then y else x := by
  rw [iminmax_max]
  simp only [intVal, if_true, sext_eq_toInt _ hw, BitVec.slt_iff_toInt_lt]
  exact ite_le_eq_ite_lt fun h => (eq_of_toInt_ofNat_eq hx hy h).symm

theorem intVal_unsigned {w x : Nat} (hx : x < 2 ^ w) : intVal w false x = x := by
  simp only [intVal, Bool.false_eq_true, if_false, Nat.mod_eq_of_lt hx]

theorem iminmax_unsigned_min {w x y : Nat} (hx : x < 2 ^ w) (hy : y < 2 ^ w) : iminmax w false false x y = min x y := by
  rw [iminmax_min, intVal_unsigned hx, intVal_unsigned hy, min_def]
  simp only [Int.ofNat_le]

theorem iminmax_unsigned_max {w x y : Nat} (hx : x < 2 ^ w) (hy : y < 2 ^ w) : iminmax w false true x y = max x y := by
  rw [iminmax_max, intVal_unsigned hx, intVal_unsigned hy, max_def]
  simp only [Int.ofNat_le]

/-- Subtracting from a lane with a borrow from above is adding the complement. -/
theorem subtract_wraps {w : Nat} (x : Nat) (_ : x < 2 ^ w) (y : Nat) (hy : y < 2 ^ w) :
    (x + 2 ^ w - y) % 2 ^ w = x + (2 ^ w - y) ∨ (x + 2 ^ w - y) % 2 ^ w = (x + (2 ^ w - y)) % 2 ^ w :=
  .inr (congrArg (· % 2 ^ w) (Nat.add_sub_assoc hy.le x))

theorem lane_and (x y : Vec) (w n : Nat) : lane (x &&& y) w n = lane x w n &&& lane y w n := by
  refine Nat.eq_of_testBit_eq fun b => ?_
  rw [Nat.testBit_and, testBit_lane, testBit_lane, testBit_lane, BitVec.getLsbD_and]
  cases decide (b < w) <;> rfl

theorem lane_or (x y : Vec) (w n : Nat) : lane (x ||| y) w n = lane x w n ||| lane y w n := by
  refine Nat.eq_of_testBit_eq fun b => ?_
  rw [Nat.testBit_or, testBit_lane, testBit_lane, testBit_lane, BitVec.getLsbD_or]
  cases decide (b < w) <;> rfl

theorem lane_xor (x y : Vec) (w n : Nat) : lane (x ^^^ y) w n = lane x w n ^^^ lane y w n := by
  refine Nat.eq_of_testBit_eq fun b => ?_
  rw [Nat.testBit_xor, testBit_lane, testBit_lane, testBit_lane, BitVec.getLsbD_xor]
  cases decide (b < w) <;> rfl

/-! ### The integer rows -/

section
variable {k : Instr} {l : SlotInstr} {g : Guard} {o : RR} {s : State} {w : Nat}

/-- An integer row draws no word; its element and the slot's agree on lanes, or wrap to the same. -/
theorem deliversOfPair_of_integer {e e' : Nat → Nat → Nat} (hslot : k.slot = some l)
    (hop : slotOp l = guarded g none (fun i => i.vec2 o .rne w 2 (fun x y _ => e' x y)))
    (he : ∀ x < 2 ^ w, ∀ y < 2 ^ w, e' x y = e x y ∨ e' x y = e x y % 2 ^ w) :
    DeliversOfPair k g o .rne w 2 (fun x y _ n => e (lane x w n) (lane y w n)) :=
  deliversOfPair_of_agree (e := fun x y _ => e x y) hslot hop fun x hx y hy _ => by
    rcases he x hx y hy with h | h <;> simp only [h, Nat.mod_mod]

/-- A bitwise row works on all bits at once, and so on each byte. -/
theorem deliversOfPair_of_bitwise {e : Nat → Nat → Nat} {F : Vec → Vec → Vec} (hslot : k.slot = some l)
    (hop : slotOp l = guarded g none (fun i => i.vbits o F)) (he : ∀ x y n, lane (F x y) 8 n = e (lane x 8 n) (lane y 8 n)) :
    DeliversOfPair k g o .rne 8 2 (fun x y _ n => e (lane x 8 n) (lane y 8 n)) :=
  ⟨l, fun x y _ => F x y, hslot, hop, fun x y _ n _ => by dsimp only; rw [← he, Nat.mod_eq_of_lt (lane_lt ..)]⟩

end

/-- Each row's slot computes the element that Table 7 names, or one that wraps to the same (06_vector.md R167). -/
theorem deliversOfPair_laneRows : ∀ e ∈ Claims.laneRows, ∀ g o, DeliversOfPair (e.1 g o) g o .rne e.2.1 2
    (fun x y _ n => e.2.2 (lane x e.2.1 n) (lane y e.2.1 n)) := by
  simp only [Claims.laneRows, List.forall_mem_cons, List.not_mem_nil, false_implies, implies_true, and_true]
  exact ⟨fun g o => deliversOfPair_of_integer (l := .v (.viadd32 g o)) (e := (· + ·)) rfl rfl fun _ _ _ _ => .inr rfl,
    fun g o => deliversOfPair_of_integer (l := .v (.viadd16 g o)) (e := (· + ·)) rfl rfl fun _ _ _ _ => .inr rfl,
    fun g o => deliversOfPair_of_integer (l := .v (.viadd8 g o)) (e := (· + ·)) rfl rfl fun _ _ _ _ => .inr rfl,
    fun g o => deliversOfPair_of_integer (l := .v (.visub32 g o)) (e := fun x y => x + (2 ^ 32 - y)) rfl rfl subtract_wraps,
    fun g o => deliversOfPair_of_integer (l := .v (.visub16 g o)) (e := fun x y => x + (2 ^ 16 - y)) rfl rfl subtract_wraps,
    fun g o => deliversOfPair_of_integer (l := .v (.visub8 g o)) (e := fun x y => x + (2 ^ 8 - y)) rfl rfl subtract_wraps,
    fun g o => deliversOfPair_of_integer (l := .v (.vimul32 g o)) (e := (· * ·)) rfl rfl fun _ _ _ _ => .inr rfl,
    fun g o => deliversOfPair_of_integer (l := .v (.vimul16 g o)) (e := (· * ·)) rfl rfl fun _ _ _ _ => .inr rfl,
    fun g o => deliversOfPair_of_integer (l := .v (.vimulhI32 g o)) rfl rfl fun x _ y _ => .inl (mulHigh32_eq x y),
    fun g o => deliversOfPair_of_integer (l := .v (.vimulhN32 g o)) (e := fun x y => x * y / 2 ^ 32) rfl rfl fun _ _ _ _ => .inl rfl,
    fun g o => deliversOfPair_of_integer (l := .v (.viminI32 g o)) rfl rfl fun _ hx _ hy => .inl (iminmax_signed_min (by decide) hx hy),
    fun g o => deliversOfPair_of_integer (l := .v (.viminN32 g o)) rfl rfl fun _ hx _ hy => .inl (iminmax_unsigned_min hx hy),
    fun g o => deliversOfPair_of_integer (l := .v (.viminI16 g o)) rfl rfl fun _ hx _ hy => .inl (iminmax_signed_min (by decide) hx hy),
    fun g o => deliversOfPair_of_integer (l := .v (.viminI8 g o)) rfl rfl fun _ hx _ hy => .inl (iminmax_signed_min (by decide) hx hy),
    fun g o => deliversOfPair_of_integer (l := .v (.vimaxI32 g o)) rfl rfl fun _ hx _ hy => .inl (iminmax_signed_max (by decide) hx hy),
    fun g o => deliversOfPair_of_integer (l := .v (.vimaxN32 g o)) rfl rfl fun _ hx _ hy => .inl (iminmax_unsigned_max hx hy),
    fun g o => deliversOfPair_of_integer (l := .v (.vimaxI16 g o)) rfl rfl fun _ hx _ hy => .inl (iminmax_signed_max (by decide) hx hy),
    fun g o => deliversOfPair_of_integer (l := .v (.vimaxI8 g o)) rfl rfl fun _ hx _ hy => .inl (iminmax_signed_max (by decide) hx hy),
    fun g o => deliversOfPair_of_integer (l := .v (.vshl32 g o)) (e := fun x y => x * 2 ^ (y % 32)) rfl rfl fun _ _ _ _ => .inr rfl,
    fun g o => deliversOfPair_of_integer (l := .v (.vshl16 g o)) (e := fun x y => x * 2 ^ (y % 16)) rfl rfl fun _ _ _ _ => .inr rfl,
    fun g o => deliversOfPair_of_integer (l := .v (.vshr32 g o)) (e := fun x y => x / 2 ^ (y % 32)) rfl rfl fun _ _ _ _ => .inl rfl,
    fun g o => deliversOfPair_of_integer (l := .v (.vshr16 g o)) (e := fun x y => x / 2 ^ (y % 16)) rfl rfl fun _ _ _ _ => .inl rfl,
    fun g o => deliversOfPair_of_integer (l := .v (.vsar32 g o)) rfl rfl fun x _ y _ => .inl (arithmeticShift_eq (by decide) x (y % 32)),
    fun g o => deliversOfPair_of_integer (l := .v (.vsar16 g o)) rfl rfl fun x _ y _ => .inl (arithmeticShift_eq (by decide) x (y % 16)),
    fun g o => deliversOfPair_of_bitwise (l := .v (.vand g o)) (e := (· &&& ·)) rfl rfl fun x y n => lane_and x y 8 n,
    fun g o => deliversOfPair_of_bitwise (l := .v (.vor g o)) (e := (· ||| ·)) rfl rfl fun x y n => lane_or x y 8 n,
    fun g o => deliversOfPair_of_bitwise (l := .v (.vxor g o)) (e := (· ^^^ ·)) rfl rfl fun x y n => lane_xor x y 8 n⟩

/-! ### Compares (R168) -/

section
variable {k : Instr} {g : Guard} {o : RR} {s : State} {j : Issue} {x y : Vec} {w : Nat} {f : Nat → Nat → Nat → Bool}

/-- The row's slot compares lanes of width w by the condition `f` of the code and the lanes. -/
def ComparesLanes (k : Instr) (g : Guard) (o : RR) (w : Nat) (f : Nat → Nat → Nat → Bool) : Prop :=
  ∃ l, k.slot = some l ∧ slotOp l = guarded g none (fun i => i.vcmp o w f) ∧ (w = 16 ∨ w = 32)

theorem comparesLanes_vectorCompareRows : ∀ e ∈ Claims.vectorCompareRows, ∀ g o, ComparesLanes (e.1 g o) g o e.2.1 e.2.2 := by
  simp only [Claims.vectorCompareRows, List.forall_mem_cons, List.not_mem_nil, false_implies, implies_true, and_true]
  refine ⟨fun g o => ⟨.v (.vcmpI32 g o), rfl, ?_, .inr rfl⟩, fun g o => ⟨.v (.vcmpN32 g o), rfl, rfl, .inr rfl⟩,
    fun g o => ⟨.v (.vcmpF32 g o), rfl, rfl, .inr rfl⟩, fun g o => ⟨.v (.vcmpBf16 g o), rfl, rfl, .inl rfl⟩⟩
  show opVcmpI32 g o = _
  simp only [opVcmpI32, sext_eq_toInt _ (show 0 < 32 by decide)]

theorem ends_of_comparesLanes (hk : ComparesLanes k g o w f) (hb : k.begins g s) (hread : (k.opening s).rrSources o .v .v = .ok (x, y, j)) :
    ∃ m : Mask, (∀ b < 128, m.getLsbD b = f (o.d.toNat / 8) (lane x w (8 * b / w)) (lane y w (8 * b / w))) ∧
      k.ends s (j.result .m (o.d.toNat % 8) (m.setWidth 1024) 2) := by
  obtain ⟨l, hslot, hop, hw⟩ := hk
  exact ⟨maskOf w fun n => f (o.d.toNat / 8) (lane x w n) (lane y w n), fun b hb => getLsbD_maskOf hw hb _,
    ends_guarded hslot hop hb (by rw [Issue.vcmp, hread]; rfl)⟩

/-- VMSEL reads two registers and takes each byte from the one that the mask's bit of the byte names (06_vector.md R169). -/
theorem deliversLanes_vmsel {q : RRR} (hb : (Instr.vmsel g q).begins g s) (hx : ((Instr.vmsel g q).opening s).readReg .v q.s1.toNat = .ok x)
    (hy : ((Instr.vmsel g q).opening s).readReg .v q.s2.toNat = .ok y) :
    Claims.deliversLanes (Instr.vmsel g q) s ((Instr.vmsel g q).opening s) q.d false 2 8 (fun n =>
      if (s.pre.getM q.s3.toNat).getLsbD n then lane x 8 n else lane y 8 n) :=
  deliversLanes_of_toV (l := .v (.vmsel g q)) rfl (show opVmsel g q = _ from rfl) hb (by rw [hx, hy]; rfl) fun _ hn => lane_mapLanes hn _

end

theorem integerLanesAndCompares : Claims.IntegerLanesAndCompares := fun g o _ =>
  ⟨fun e he hb _ _ _ hread => deliversLanes_of_pair (deliversOfPair_laneRows e he g o) hb hread,
    fun e he hb _ _ _ hread => ends_of_comparesLanes (comparesLanes_vectorCompareRows e he g o) hb hread,
    fun _ hb _ _ hx hy => deliversLanes_vmsel hb hx hy⟩

/-- Settles O17: VFIN asks of each enabled lane whether it is finite; the other rows compute their element on the lanes read, or wrap to it. -/
theorem finiteTestsIntegersAndCompares : Obligations.FiniteTestsIntegersAndCompares := ⟨finiteTestsKeepTheStickyFlag, integerLanesAndCompares⟩

end Sys2Proof.Machine
end

section
/-! Conversions, bit planes, outlier application, draws and VRSEED (06_vector.md R170 to R175, R180, R181; 03_numbers.md R88 to R91). -/

namespace Sys2Proof.Machine

/-! ### Conversions (R170 to R172) -/

theorem cfmt_w_pos (code : Nat) : 0 < (cfmt code).w ∧ (cfmt code).w ≤ 1024 := by
  unfold cfmt
  split <;> decide

/-- The block of `cnt` lanes that lane n falls in, and its place there. -/
theorem mem_block_iff {cnt : Nat} (hcnt : 0 < cnt) (part n : Nat) : (part * cnt ≤ n ∧ n < part * cnt + cnt) ↔ n / cnt = part := by
  rw [Nat.div_eq_iff hcnt]
  omega

/-- Each lane of a converted register; of the register kept, only a narrower destination keeps lanes. -/
theorem lane_convVec {src dst : CFmt} (hsrc : 0 < src.w ∧ src.w ≤ 1024) {n : Nat} (hn : n < 1024 / dst.w) (rm : RMode) (part : Nat)
    (ws : List Nat) (x old old' : Vec) (hold : dst.w < src.w → old' = old) :
    lane (convVec src dst rm part ws x old') dst.w n = Claims.convertedLane src dst rm part ws x old n % 2 ^ dst.w := by
  rw [convVec, lane_mapLanes hn]
  refine congrArg (· % 2 ^ dst.w) ?_
  unfold Claims.convertedLane
  dsimp only
  rcases lt_trichotomy dst.w src.w with hnarrow | hsame | hwide
  · have hcnt : 0 < 1024 / src.w := Nat.div_pos hsrc.2 hsrc.1
    simp only [hnarrow, max_eq_left hnarrow.le, if_true, lt_irrefl, if_false, mem_block_iff hcnt, hold hnarrow]
    split
    next hpart =>
      rw [← hpart, Nat.mul_comm, ← Nat.mod_eq_sub]
    next => rfl
  · simp only [hsame, max_self, lt_irrefl, if_false]
  · simp only [hwide, max_eq_right hwide.le, hwide.not_gt, if_true, if_false]

section
variable {k : Instr} {g : Guard} {rm : RMode} {o : CV} {s : State} {j : Issue} {x old : Vec} {src dst : CFmt}

/-- The row's slot converts from `src` to `dst` under mode `rm`. -/
def Converts (k : Instr) (g : Guard) (o : CV) (src dst : CFmt) (rm : RMode) : Prop :=
  ∃ l, k.slot = some l ∧ slotOp l = guarded g none (fun i => i.cvt o src dst rm)

theorem converts_convertRows : ∀ e ∈ Claims.convertRows, ∀ g rm o, Converts (e.1 g rm o) g o (cfmt o.sfmt.toNat) (cfmt e.2) rm := by
  simp only [Claims.convertRows, List.forall_mem_cons, List.not_mem_nil, false_implies, implies_true, and_true]
  exact ⟨fun g rm o => ⟨.v (.vcvtF32 g rm o), rfl, rfl⟩, fun g rm o => ⟨.v (.vcvtBf16 g rm o), rfl, rfl⟩,
    fun g rm o => ⟨.v (.vcvtF16 g rm o), rfl, rfl⟩, fun g rm o => ⟨.v (.vcvtI8 g rm o), rfl, rfl⟩,
    fun g rm o => ⟨.v (.vcvtN8 g rm o), rfl, rfl⟩, fun g rm o => ⟨.v (.vcvtI16 g rm o), rfl, rfl⟩,
    fun g rm o => ⟨.v (.vcvtN16 g rm o), rfl, rfl⟩, fun g rm o => ⟨.v (.vcvtI32 g rm o), rfl, rfl⟩,
    fun g rm o => ⟨.v (.vcvtN32 g rm o), rfl, rfl⟩⟩

theorem deliversLanes_of_converts (hk : Converts k g o src dst rm) (hsrc : 0 < src.w ∧ src.w ≤ 1024) (hb : k.begins g s)
    (hold : dst.w < src.w → (k.opening s).kept o.d.toNat o.dnil = .ok old)
    (hread : (k.opening s).source 0 (smode o.mode).1 .v o.s1.toNat = .ok (x, j)) :
    Claims.deliversLanes k s (j.roundWords rm (1024 / max src.w dst.w)).2 o.d o.dnil 4 dst.w
      (Claims.convertedLane src dst rm o.part.toNat (j.roundWords rm (1024 / max src.w dst.w)).1 x old) := by
  obtain ⟨l, hslot, hop⟩ := hk
  have hrun : (k.opening s).cvt o src dst rm = (j.roundWords rm (1024 / max src.w dst.w)).2.toV o.d.toNat o.dnil
      (convVec src dst rm o.part.toNat (j.roundWords rm (1024 / max src.w dst.w)).1 x (if dst.w < src.w then old else 0)) 4 := by
    unfold Issue.cvt
    by_cases h : dst.w < src.w
    · rw [if_pos h, if_pos h, hold h, hread]; rfl
    · rw [if_neg h, if_neg h, hread]; rfl
  exact deliversLanes_of_toV hslot hop hb hrun fun n hn => lane_convVec hsrc hn _ _ _ _ _ _ fun h => if_pos h

end

/-! ### Bit planes (R173, R174) -/

section
variable {g : Guard} {o : RR} {s : State} {j : Issue} {x y old : Vec}

theorem deliversLanes_vplsplit (hb : (Instr.vplsplit g o).begins g s) (hold : ((Instr.vplsplit g o).opening s).kept o.d.toNat o.dnil = .ok old)
    (hread : ((Instr.vplsplit g o).opening s).v1 o = .ok (x, j)) :
    Claims.deliversLanes (Instr.vplsplit g o) s j o.d o.dnil 2 1 (fun b =>
      if b % 256 / 128 = o.s2.toNat % 2 then lane x 8 (b % 128) / 2 ^ (7 - 4 * (o.s2.toNat / 2) - b / 256) else lane old 1 b) := by
  refine deliversLanes_of_toV (l := .v (.vplsplit g o)) rfl (show opVplsplit g o = _ from rfl) hb (by rw [hold, hread]; rfl) fun b hlt => ?_
  rw [plSplit, lane_mapLanes hlt]
  dsimp only
  rw [show b % 256 % 128 = b % 128 by omega, bitN, Nat.shiftRight_eq_div_pow]
  split
  next => exact Nat.mod_mod _ 2
  next => rfl

theorem deliversLanes_vpljoin (hb : (Instr.vpljoin g o).begins g s) (hold : ((Instr.vpljoin g o).opening s).kept o.d.toNat o.dnil = .ok old)
    (hread : ((Instr.vpljoin g o).opening s).v1 o = .ok (x, j)) :
    Claims.deliversLanes (Instr.vpljoin g o) s j o.d o.dnil 2 1 (fun b =>
      if 4 - 4 * (o.s2.toNat / 2) ≤ b % 8 ∧ b % 8 ≤ 7 - 4 * (o.s2.toNat / 2)
      then lane x 1 (256 * (7 - 4 * (o.s2.toNat / 2) - b % 8) + 128 * (o.s2.toNat % 2) + b / 8) else lane old 1 b) := by
  refine deliversLanes_of_toV (l := .v (.vpljoin g o)) rfl (show opVpljoin g o = _ from rfl) hb (by rw [hold, hread]; rfl) fun b hlt => ?_
  rw [plJoin, lane_mapLanes hlt, show 7 - 4 * (o.s2.toNat / 2) - 3 = 4 - 4 * (o.s2.toNat / 2) by omega]

/-! ### Outliers (R175) -/

theorem nth_setNth {l : List Nat} {n : Nat} (hn : n < l.length) (m v : Nat) : nth 0 (setNth l m v) n = if m = n then v else nth 0 l n := by
  induction l generalizing n m with
  | nil => exact absurd hn n.not_lt_zero
  | cons x t ih =>
    cases m <;> cases n <;> simp only [setNth, nth, if_true, reduceCtorEq, if_false, Nat.add_right_cancel_iff]
    exact ih (Nat.lt_of_succ_lt_succ hn) _

theorem length_setNth (l : List Nat) (m v : Nat) : (setNth l m v).length = l.length := by
  induction l generalizing m with
  | nil => rfl
  | cons x t ih => cases m <;> simp only [setNth, List.length_cons, ih]

/-- One outlier on the elements from `e0` on: it is added to the element of its index, where that is one of the 32. -/
def outStep (ents : Vec) (e0 : Nat) (l : List Nat) (m : Nat) : List Nat :=
  let idx := lane ents 32 (2 * m)
  if e0 ≤ idx ∧ idx - e0 < 32 then setNth l (idx - e0) (addF32 (nth 0 l (idx - e0)) (lane ents 32 (2 * m + 1))) else l

theorem outApply_eq (ents : Vec) (e0 : Nat) (old : Vec) : outApply ents e0 old = vecOf 32 ((List.range 16).foldl (outStep ents e0) (lanes old 32)) := rfl

theorem outStep_lane {ents : Vec} {e0 n m : Nat} {l : List Nat} (hl : l.length = 32) (hn : n < 32) :
    (outStep ents e0 l m).length = 32 ∧ nth 0 (outStep ents e0 l m) n =
      if lane ents 32 (2 * m) = e0 + n then addF32 (nth 0 l n) (lane ents 32 (2 * m + 1)) else nth 0 l n := by
  unfold outStep
  dsimp only
  split
  next hidx =>
    refine ⟨(length_setNth ..).trans hl, ?_⟩
    rw [nth_setNth (by omega)]
    by_cases h : lane ents 32 (2 * m) = e0 + n
    · rw [if_pos h, if_pos (by omega), h, Nat.add_sub_cancel_left]
    · rw [if_neg h, if_neg (by omega)]
  next hidx => exact ⟨hl, (if_neg (by omega)).symm⟩

/-- Each lane receives the outliers of its own index, in entry order. -/
theorem nth_foldl_outStep {ents : Vec} {e0 n : Nat} (hn : n < 32) (ms l : List Nat) (hl : l.length = 32) :
    nth 0 (ms.foldl (outStep ents e0) l) n =
      ms.foldl (fun a m => if lane ents 32 (2 * m) = e0 + n then addF32 a (lane ents 32 (2 * m + 1)) else a) (nth 0 l n) := by
  induction ms generalizing l with
  | nil => rfl
  | cons m ms ih =>
    obtain ⟨hlen, hlane⟩ := outStep_lane (ents := ents) (e0 := e0) (m := m) hl hn
    rw [List.foldl_cons, ih _ hlen, hlane, List.foldl_cons]

theorem deliversLanes_voutapply {ents base : Vec} (hb : (Instr.voutapply g o).begins g s)
    (hold : ((Instr.voutapply g o).opening s).kept o.d.toNat o.dnil = .ok old)
    (hread : ((Instr.voutapply g o).opening s).rrSources o .v .v = .ok (ents, base, j)) :
    Claims.deliversLanes (Instr.voutapply g o) s j o.d o.dnil 4 32 (fun n => (List.range 16).foldl (fun a m =>
      if lane ents 32 (2 * m) = lane base 32 0 + n then addF32 a (lane ents 32 (2 * m + 1)) else a) (lane old 32 n)) := by
  refine deliversLanes_of_toV (l := .v (.voutapply g o)) rfl (show opVoutapply g o = _ from rfl) hb (by rw [hold, hread]; rfl) fun n hn => ?_
  rw [outApply_eq, lane_vecOf hn, nth_foldl_outStep hn _ _ rfl, lanes, nth_map_range hn]

end

theorem conversionsAndPlanes : Claims.ConversionsAndPlanes := by
  refine fun g s => ⟨fun rm o k src dst md hk hb x old j hold hread => ?_, fun _ _ _ _ hb hold hread => deliversLanes_vplsplit hb hold hread,
    fun _ _ _ _ hb hold hread => deliversLanes_vpljoin hb hold hread, fun _ _ _ _ _ hb hold hread => deliversLanes_voutapply hb hold hread⟩
  obtain ⟨e, he, rfl, rfl, rfl, rfl⟩ | ⟨rfl, rfl, rfl, rfl⟩ := hk
  · exact deliversLanes_of_converts (converts_convertRows e he g md o) (cfmt_w_pos _) hb hold hread
  · exact deliversLanes_of_converts ⟨.v (.vsrnd g o), rfl, rfl⟩ (cfmt_w_pos 0) hb hold hread

/-! ### Draws (R180; 03_numbers.md R89) -/

/-- The blocks of a draw are those of the counter and its successors. -/
theorem rngBlocks_eq (K n C : Nat) : rngBlocks K n (C % 2 ^ 128) = (List.range n).flatMap (fun m => rngBlock ((C + m) % 2 ^ 128) K) := by
  induction n generalizing C with
  | zero => rfl
  | succ n ih =>
    rw [rngBlocks, Nat.mod_add_mod, ih, List.range_succ_eq_map, List.flatMap_cons, List.flatMap_map]
    simp only [Nat.add_zero, Nat.succ_eq_add_one, Nat.add_assoc, Nat.add_comm 1]

theorem length_rngBlocks (K n C : Nat) : (rngBlocks K n C).length = 4 * n := by
  induction n generalizing C with
  | zero => rfl
  | succ n ih =>
    rw [rngBlocks, List.length_append, ih, show (rngBlock C K).length = 4 from rfl, Nat.mul_succ, Nat.add_comm]

/-- The words that a draw of n takes from the core's generator. -/
def Core.drawn (c : Core) (n : Nat) : List Nat := (List.range (n / 4)).flatMap (fun m => rngBlock ((c.rngC.toNat + m) % 2 ^ 128) c.rngK.toNat)

theorem words_eq (i : Issue) {n : Nat} (hn : n % 4 = 0) :
    i.words n = (i.core.drawn n, i.upd (fun c => { c with rngC := c.rngC + BitVec.ofNat 128 (n / 4) })) := by
  have hblocks : (n + 3) / 4 = n / 4 := by omega
  rw [Issue.words, hblocks, Core.drawn, ← rngBlocks_eq, Nat.mod_eq_of_lt i.core.rngC.isLt]

theorem length_drawn (c : Core) {n : Nat} (hn : n % 4 = 0) : (c.drawn n).length = n := by
  rw [Core.drawn, ← rngBlocks_eq, length_rngBlocks]
  omega

section
variable {k : Instr} {g : Guard} {o : RR} {s : State} {n lat : Nat} {f : List Nat → Nat → Nat}

/-- The row's slot draws n words and delivers `f` of them to each lane. -/
def Draws (k : Instr) (g : Guard) (o : RR) (n lat : Nat) (f : List Nat → Nat → Nat) : Prop :=
  ∃ l F, k.slot = some l ∧ slotOp l = guarded g none (fun i => i.vdraw o n lat F) ∧ n % 4 = 0 ∧
    ∀ ws, ws.length = n → ∀ m < 32, lane (F ws) 32 m = f ws m % 2 ^ 32

/-- A draw of a word for each lane. -/
theorem lane_vecOf_map {ws : List Nat} (hws : ws.length = 32) {m : Nat} (hm : m < 32) (f : Nat → Nat) :
    lane (vecOf 32 (ws.map f)) 32 m = f (nth 0 ws m) % 2 ^ 32 := by
  rw [lane_vecOf hm, nth_map (by omega) 0]

theorem draws_drawRows : ∀ e ∈ Claims.drawRows, ∀ g o, Draws (e.1 g o) g o e.2.1 e.2.2.1 e.2.2.2 := by
  simp only [Claims.drawRows, List.forall_mem_cons, List.not_mem_nil, false_implies, implies_true, and_true]
  exact ⟨fun g o => ⟨.v (.vrand g o), _, rfl, rfl, rfl, fun _ _ _ hm => lane_vecOf hm _⟩,
    fun g o => ⟨.v (.vrandf g o), _, rfl, rfl, rfl, fun _ hws _ hm => lane_vecOf_map hws hm _⟩,
    fun g o => ⟨.v (.vrnorm g o), _, rfl, rfl, rfl, fun _ _ _ hm => lane_mapLanes hm _⟩,
    fun g o => ⟨.v (.vrnormt g o), _, rfl, rfl, rfl, fun _ hws _ hm => lane_vecOf_map hws hm _⟩⟩

theorem deliversLanes_of_draws (hk : Draws k g o n lat f) (hb : k.begins g s) :
    Claims.deliversLanes k s ((k.opening s).upd (fun c => { c with rngC := c.rngC + BitVec.ofNat 128 (n / 4) })) o.d o.dnil lat 32
      (f (s.pre.drawn n)) := by
  obtain ⟨l, F, hslot, hop, hn, hF⟩ := hk
  exact deliversLanes_of_toV hslot hop hb (by rw [Issue.vdraw, words_eq _ hn]; rfl) (hF _ (length_drawn _ hn))

/-- VRSEED takes key and counter from the low and the next 128 bits of its source (06_vector.md R181). -/
theorem ends_vrseed {x : Vec} {j : Issue} (hb : (Instr.vrseed g o).begins g s) (hread : ((Instr.vrseed g o).opening s).v1 o = .ok (x, j)) :
    (Instr.vrseed g o).ends s (j.afterCore (fun c => { c with rngK := x.extractLsb' 0 128, rngC := x.extractLsb' 128 128 })) := by
  rw [← BitVec.setWidth_eq_extractLsb' (by decide), show x.extractLsb' 128 128 = (x >>> 128).setWidth 128 from
    BitVec.setWidth_ushiftRight_eq_extractLsb.symm]
  exact ends_guarded (i := .v (.vrseed g o)) rfl (show opVrseed g o = _ from rfl) hb (by rw [hread]; rfl)

end

theorem drawsTakeWholeBlocks : Claims.DrawsTakeWholeBlocks := fun g o _ =>
  ⟨fun e he hb => deliversLanes_of_draws (draws_drawRows e he g o) hb, fun hb _ _ hread => ends_vrseed hb hread⟩

/-- Settles O18: lane by lane, what conversion, plane, outlier and drawing rows compute; a draw takes whole blocks of the counter. -/
theorem conversionsPlanesAndDraws : Obligations.ConversionsPlanesAndDraws := ⟨conversionsAndPlanes, drawsTakeWholeBlocks⟩

end Sys2Proof.Machine
end

section
/-! Trees of a reduction (06_vector.md R177; 03_numbers.md R83): a tree of halves, the sum and the first greatest element at its root. -/

namespace Sys2Proof.Machine

/-! ### Trees of halves -/

section
variable {op : Nat → Nat → Nat}

/-- Pairing up goes half by half, and halves the length. -/
theorem pairUp_append {m : Nat} {l : List Nat} (hl : l.length = 2 * m) (l' : List Nat) :
    pairUp op (l ++ l') = pairUp op l ++ pairUp op l' ∧ (pairUp op l).length = m := by
  induction m generalizing l with
  | zero =>
    obtain rfl := List.eq_nil_of_length_eq_zero hl
    exact ⟨rfl, rfl⟩
  | succ m ih =>
    match l, hl with
    | a :: b :: t, hl =>
      obtain ⟨happend, hlen⟩ := ih (l := t) (by simp only [List.length_cons] at hl; omega)
      exact ⟨congrArg (op a b :: ·) happend, congrArg (· + 1) hlen⟩

/-- The root joins the roots of the two halves. -/
theorem treeRoot_append {n : Nat} {l l' : List Nat} (hl : l.length = 2 ^ n) (hl' : l'.length = 2 ^ n) :
    treeRoot op (n + 1) (l ++ l') = op (treeRoot op n l) (treeRoot op n l') := by
  induction n generalizing l l' with
  | zero =>
    obtain ⟨a, rfl⟩ := List.length_eq_one_iff.1 hl
    obtain ⟨b, rfl⟩ := List.length_eq_one_iff.1 hl'
    rfl
  | succ n ih =>
    rw [Nat.pow_succ, Nat.mul_comm] at hl hl'
    obtain ⟨happend, hlen⟩ := pairUp_append (op := op) hl l'
    have hlen' := (pairUp_append (op := op) hl' []).2
    show treeRoot op (n + 1) (pairUp op (l ++ l')) = _
    rw [happend, ih hlen hlen']
    rfl

/-- What holds of each element as a tree of its own, and of a node where it holds of the two halves, holds of the whole tree's root. -/
theorem treeRoot_induction {P : Nat → List Nat → Prop} (leaf : ∀ a, P a [a]) (node : ∀ a b l l', P a l → P b l' → P (op a b) (l ++ l'))
    {n : Nat} {l : List Nat} (hl : l.length = 2 ^ n) : P (treeRoot op n l) l := by
  induction n generalizing l with
  | zero =>
    obtain ⟨a, rfl⟩ := List.length_eq_one_iff.1 hl
    exact leaf a
  | succ n ih =>
    have htake : (l.take (2 ^ n)).length = 2 ^ n := by rw [List.length_take, hl, Nat.pow_succ]; omega
    have hdrop : (l.drop (2 ^ n)).length = 2 ^ n := by rw [List.length_drop, hl, Nat.pow_succ]; omega
    have := node _ _ _ _ (ih htake) (ih hdrop)
    rwa [← treeRoot_append (op := op) htake hdrop, List.take_append_drop] at this

end

/-- A tree of wrapping additions holds the sum, wrapped. -/
theorem treeRoot_add {n : Nat} {l : List Nat} (hl : l.length = 2 ^ n) :
    treeRoot (fun a b => (a + b) % 2 ^ 32) n l % 2 ^ 32 = l.sum % 2 ^ 32 :=
  treeRoot_induction (P := fun a l => a % 2 ^ 32 = l.sum % 2 ^ 32) (fun a => by rw [List.sum_singleton])
    (fun a b l l' ha hb => by rw [List.sum_append, Nat.mod_mod, Nat.add_mod, ha, hb, ← Nat.add_mod]) hl

/-! ### The first greatest element -/

section
variable {α : Type} [LinearOrder α] (rank : Nat → α)

/-- `a` stands in the list where no element ranks above it, and those before rank below it. -/
def FirstGreatest (a : Nat) (l : List Nat) : Prop :=
  ∃ i : Nat, l[i]? = some a ∧ (∀ n < i, ∀ c, l[n]? = some c → rank c < rank a) ∧ ∀ (n : Nat) (c : Nat), l[n]? = some c → rank c ≤ rank a

variable {rank} {a b : Nat} {l l' : List Nat}

theorem firstGreatest_singleton (a : Nat) : FirstGreatest rank a [a] := by
  refine ⟨0, rfl, fun n hn => absurd hn n.not_lt_zero, fun n c hc => ?_⟩
  rw [List.mem_singleton.1 (List.mem_of_getElem? hc)]

theorem firstGreatest_append_left (ha : FirstGreatest rank a l) (hb : FirstGreatest rank b l') (h : ¬ rank a < rank b) :
    FirstGreatest rank a (l ++ l') := by
  obtain ⟨i, hat, hbefore, hall⟩ := ha
  obtain ⟨-, -, -, hall'⟩ := hb
  have hi : i < l.length := (List.getElem?_eq_some_iff.1 hat).1
  refine ⟨i, by rw [List.getElem?_append_left hi, hat], fun n hn c hc => ?_, fun n c hc => ?_⟩
  · rw [List.getElem?_append_left (hn.trans hi)] at hc
    exact hbefore n hn c hc
  · rw [List.getElem?_append] at hc
    split at hc
    · exact hall n c hc
    · exact (hall' _ c hc).trans (not_lt.1 h)

theorem firstGreatest_append_right (ha : FirstGreatest rank a l) (hb : FirstGreatest rank b l') (h : rank a < rank b) :
    FirstGreatest rank b (l ++ l') := by
  obtain ⟨-, -, -, hall⟩ := ha
  obtain ⟨i, hat, hbefore, hall'⟩ := hb
  refine ⟨l.length + i, by rw [List.getElem?_append_right (Nat.le_add_right ..), Nat.add_sub_cancel_left, hat], fun n hn c hc => ?_,
    fun n c hc => ?_⟩
  · rw [List.getElem?_append] at hc
    split at hc
    · exact (hall n c hc).trans_lt h
    · exact hbefore _ (by omega) c hc
  · rw [List.getElem?_append] at hc
    split at hc
    · exact (hall n c hc).trans h.le
    · exact hall' _ c hc

/-- A tree whose nodes keep the greater element, the first of equals, has the first greatest element at its root. -/
theorem firstGreatest_treeRoot {op : Nat → Nat → Nat} (hop : ∀ a b, op a b = if rank a < rank b then b else a) {n : Nat}
    (hl : l.length = 2 ^ n) : FirstGreatest rank (treeRoot op n l) l := by
  refine treeRoot_induction firstGreatest_singleton (fun a b l l' ha hb => ?_) hl
  rw [hop]
  split
  next h => exact firstGreatest_append_right ha hb h
  next h => exact firstGreatest_append_left ha hb h

end

end Sys2Proof.Machine
end

section
/-! The order of float values (06_vector.md R162, R177): exact dyadics compare as the rationals they stand for, so VRARGMAX's nodes compare
ranks of one linear order. -/

namespace Sys2Proof.Machine

/-- The rational a dyadic stands for. -/
def Dy.value (d : Dy) : ℚ := d.num * 2 ^ d.exp

theorem value_add (a b : Dy) : (Dy.add a b).value = a.value + b.value := by
  have hshift {m n : ℤ} (h : m ≤ n) : (2 : ℚ) ^ (n - m).toNat * 2 ^ m = 2 ^ n := by
    rw [← zpow_natCast, Int.toNat_of_nonneg (by omega), ← zpow_add₀ two_ne_zero, sub_add_cancel]
  unfold Dy.add Dy.value
  split
  next h => push_cast; rw [add_mul, mul_assoc, hshift h]
  next h => push_cast; rw [add_mul, mul_assoc, hshift (by omega)]

theorem value_neg (a : Dy) : a.neg.value = -a.value := by
  simp only [Dy.value, Dy.neg, Int.cast_neg, neg_mul]

theorem value_neg_iff (a : Dy) : a.value < 0 ↔ a.num < 0 := by
  rw [Dy.value, ← not_le, mul_nonneg_iff_of_pos_right (zpow_pos two_pos _), not_le, Int.cast_lt_zero]

theorem dyLt_iff (a b : Dy) : Dy.lt a b = true ↔ a.value < b.value := by
  rw [Dy.lt, decide_eq_true_eq, ← value_neg_iff, value_add, value_neg, ← sub_eq_add_neg, sub_neg]

/-- The rank of a value: NaN lowest, then −∞, the numbers by value, +∞ (06_vector.md R177). -/
def FVal.rank : FVal → ℕ ×ₗ ℚ
  | .nan => toLex (0, 0)
  | .inf true => toLex (1, 0)
  | .fin n m e => toLex (2, (FVal.fin n m e).dy.value)
  | .inf false => toLex (3, 0)

/-- One value ranks below another exactly when it is less, or alone is a NaN. -/
theorem rank_lt_iff (a b : FVal) : a.rank < b.rank ↔ (a.isNan && !b.isNan || a.lt b) = true := by
  match a, b with
  | .nan, .nan | .nan, .inf true | .nan, .inf false | .nan, .fin .. | .inf true, .nan | .inf false, .nan | .fin .., .nan
  | .inf true, .inf true | .inf true, .inf false | .inf false, .inf true | .inf false, .inf false | .inf true, .fin .. | .inf false, .fin ..
  | .fin .., .inf true | .fin .., .inf false => simp [FVal.rank, FVal.isNan, FVal.lt, Prod.Lex.toLex_lt_toLex]
  | .fin .., .fin .. => simp [FVal.rank, FVal.isNan, FVal.lt, Prod.Lex.toLex_lt_toLex, dyLt_iff]

theorem lt_false_of_rank_le {a b : FVal} (h : b.rank ≤ a.rank) : a.lt b = false := by
  by_contra hlt
  exact h.not_gt ((rank_lt_iff a b).2 (by rw [Bool.eq_true_of_not_eq_false hlt, Bool.or_true]))

theorem lt_of_rank_lt {a b : FVal} (ha : a.isNan = false) (h : a.rank < b.rank) : a.lt b = true := by
  simpa [ha] using (rank_lt_iff a b).1 h

/-- What ranks at least as high as a number is one. -/
theorem isNan_false_of_rank_le {a b : FVal} (ha : a.isNan = false) (h : a.rank ≤ b.rank) : b.isNan = false := by
  by_contra hb
  exact h.not_gt ((rank_lt_iff b a).2 (by rw [Bool.eq_true_of_not_eq_false hb, ha]; rfl))

theorem argNode_eq (a b : Nat) :
    argNode a b = if (Fmt.f32.val (a % 2 ^ 32)).rank < (Fmt.f32.val (b % 2 ^ 32)).rank then b else a := by
  rw [argNode]
  exact if_congr (rank_lt_iff ..).symm rfl rfl

/-- VRARGMAX answers the value and the place of the first lane of greatest rank, or the canonical NaN where that lane is one. -/
theorem argMax_spec {v : Nat → Nat} (hv : ∀ n, v n < 2 ^ 32) : ∃ i < 32,
    argMax ((List.range 32).map v) = (if (Fmt.f32.val (v i)).isNan then [Fmt.f32.nan, 0] else [v i, i]) ∧
    (∀ n < i, (Fmt.f32.val (v n)).rank < (Fmt.f32.val (v i)).rank) ∧ ∀ n < 32, (Fmt.f32.val (v n)).rank ≤ (Fmt.f32.val (v i)).rank := by
  have hpairs : (List.range ((List.range 32).map v).length).map (fun n => nth 0 ((List.range 32).map v) n + 2 ^ 32 * n) =
      (List.range 32).map (fun n => v n + 2 ^ 32 * n) := by
    rw [List.length_map, List.length_range]
    exact List.map_congr_left fun n hn => by rw [nth_map_range (List.mem_range.1 hn)]
  have hat {n : Nat} (hn : n < 32) : ((List.range 32).map (fun n => v n + 2 ^ 32 * n))[n]? = some (v n + 2 ^ 32 * n) := by
    rw [List.getElem?_map, List.getElem?_range hn, Option.map_some]
  have hlow (n : Nat) : (v n + 2 ^ 32 * n) % 2 ^ 32 = v n := by rw [Nat.add_mul_mod_self_left, Nat.mod_eq_of_lt (hv n)]
  have hhigh (n : Nat) : (v n + 2 ^ 32 * n) / 2 ^ 32 = n := by
    rw [Nat.add_mul_div_left _ _ (by decide), Nat.div_eq_of_lt (hv n), Nat.zero_add]
  obtain ⟨i, hroot, hbefore, hall⟩ := firstGreatest_treeRoot (rank := fun a => (Fmt.f32.val (a % 2 ^ 32)).rank) argNode_eq (n := 5)
    (l := (List.range 32).map (fun n => v n + 2 ^ 32 * n)) rfl
  have hi : i < 32 := by simpa using (List.getElem?_eq_some_iff.1 hroot).1
  rw [hat hi, Option.some_inj] at hroot
  rw [← hroot] at hbefore hall
  simp only [hlow] at hbefore hall
  refine ⟨i, hi, ?_, fun n hn => ?_, fun n hn => ?_⟩
  · simp only [argMax, hpairs, ← hroot, hlow, hhigh]
  · have := hbefore n hn _ (hat (hn.trans hi)); rwa [hlow] at this
  · have := hall n _ (hat hn); rwa [hlow] at this

end Sys2Proof.Machine
end

section
/-! Reductions, VRARGMAX, permutes and VSMMERGE, lane by lane (06_vector.md R176 to R179). -/

namespace Sys2Proof.Machine

/-! ### Reductions (R176, R177) -/

/-- The lanes of width w that a reduction combines: those that the mask excludes stand at the identity. -/
def maskedLanes (m : Mask) (w ident : Nat) (x : Vec) : List Nat := (List.range (1024 / w)).map (fun n => if m.getLsbD (n * w / 8) then lane x w n else ident)

section
variable {k : Instr} {g : Guard} {rm : RMode} {o : RR} {s : State} {j : Issue} {x y : Vec} {w ident : Nat}

/-- The row's slot is a reduction that packs what `F` makes of the lanes and a drawn word. -/
def Reduces (k : Instr) (g : Guard) (o : RR) (rm : RMode) (w ident : Nat) (F : List Nat → Nat → List Nat) : Prop :=
  ∃ l, k.slot = some l ∧ slotOp l = guarded g none (fun i => i.reduce o rm w ident F)

theorem deliversLanes_of_reduces {F : List Nat → Nat → List Nat} {f : Nat → Nat} (hk : Reduces k g o rm w ident F) (hb : k.begins g s)
    (hread : (k.opening s).v1 o = .ok (x, j))
    (hf : ∀ n < 1024 / w, nth 0 (F (maskedLanes (s.pre.getM o.s2.toNat) w ident x) (nth 0 (j.roundWords rm 4).1 0)) n % 2 ^ w = f n % 2 ^ w) :
    Claims.deliversLanes k s (j.roundWords rm 4).2 o.d o.dnil 6 w f := by
  obtain ⟨l, hslot, hop⟩ := hk
  have hpre : j.pre = s.pre := pre_of_source hread
  rw [← hpre] at hf
  exact deliversLanes_of_toV hslot hop hb (by rw [Issue.reduce, hread]; rfl) fun n hn => (lane_vecOf hn _).trans (hf n hn)

/-- The row's slot reduces the lanes to one value, and that is `v` of them up to wrapping. -/
def ReducesTo (k : Instr) (g : Guard) (o : RR) (rm : RMode) (w ident : Nat) (v : List Nat → Nat → Nat) : Prop :=
  ∃ v' : List Nat → Nat → Nat, Reduces k g o rm w ident (fun l u => [v' l u]) ∧ ∀ l u, l.length = 1024 / w → v' l u % 2 ^ w = v l u % 2 ^ w

theorem reducesTo_of_reduces {v : List Nat → Nat → Nat} (hk : Reduces k g o rm w ident (fun l u => [v l u])) : ReducesTo k g o rm w ident v :=
  ⟨v, hk, fun _ _ _ => rfl⟩

theorem reducesTo_reduceRows : ∀ e ∈ Claims.reduceRows, ∀ g rm o, ReducesTo (e.1 g rm o) g o rm e.2.1 e.2.2.1 (e.2.2.2 rm) := by
  simp only [Claims.reduceRows, List.forall_mem_cons, List.not_mem_nil, false_implies, implies_true, and_true]
  exact ⟨fun g rm o => reducesTo_of_reduces ⟨.v (.vrsumF32 g rm o), rfl, rfl⟩, fun g rm o => reducesTo_of_reduces ⟨.v (.vrsumBf16 g rm o), rfl, rfl⟩,
    fun g rm o => ⟨_, ⟨.v (.vrsumI32 g rm o), rfl, rfl⟩, fun _ _ hl => treeRoot_add hl⟩,
    fun g rm o => reducesTo_of_reduces ⟨.v (.vrmaxF32 g rm o), rfl, rfl⟩, fun g rm o => reducesTo_of_reduces ⟨.v (.vrmaxI32 g rm o), rfl, rfl⟩,
    fun g rm o => reducesTo_of_reduces ⟨.v (.vrminF32 g rm o), rfl, rfl⟩, fun g rm o => reducesTo_of_reduces ⟨.v (.vrminI32 g rm o), rfl, rfl⟩⟩

/-- The value stands in lane 0, and the lanes above are 0. -/
theorem deliversLanes_of_reducesTo {v : List Nat → Nat → Nat} (hk : ReducesTo k g o rm w ident v) (hb : k.begins g s)
    (hread : (k.opening s).v1 o = .ok (x, j)) :
    Claims.deliversLanes k s (j.roundWords rm 4).2 o.d o.dnil 6 w (fun n =>
      if n = 0 then v (maskedLanes (s.pre.getM o.s2.toNat) w ident x) (nth 0 (j.roundWords rm 4).1 0) else 0) := by
  obtain ⟨v', hreduces, hv⟩ := hk
  refine deliversLanes_of_reduces hreduces hb hread fun n _ => ?_
  cases n with
  | zero => exact hv _ _ (by rw [maskedLanes, List.length_map, List.length_range])
  | succ n => rfl

/-- What VRARGMAX says of its lanes `v` and of the two lanes it fills. -/
theorem argMax_lanes {v : Nat → Nat} (hv : ∀ n, v n < 2 ^ 32) {f : Nat → Nat} (hf : ∀ n, f n = nth 0 (argMax ((List.range 32).map v)) n) :
    (∀ n, 2 ≤ n → f n = 0) ∧ ((∀ n < 32, (Fmt.f32.val (v n)).isNan = true) → f 0 = Fmt.f32.nan ∧ f 1 = 0) ∧
    ∀ n < 32, (Fmt.f32.val (v n)).isNan = false → f 1 < 32 ∧ f 0 = v (f 1) ∧ (Fmt.f32.val (v (f 1))).isNan = false ∧
      (Fmt.f32.val (v (f 1))).lt (Fmt.f32.val (v n)) = false ∧ (n < f 1 → (Fmt.f32.val (v n)).lt (Fmt.f32.val (v (f 1))) = true) := by
  obtain ⟨i, hi, hargMax, hbefore, hall⟩ := argMax_spec hv
  simp only [hf, hargMax]
  refine ⟨fun n hn => ?_, fun hnan => ?_, fun n hn hnum => ?_⟩
  · obtain ⟨n, rfl⟩ := Nat.exists_eq_add_of_le' hn
    split <;> rfl
  · rw [if_pos (hnan i hi)]
    exact ⟨rfl, rfl⟩
  · have hnum' := isNan_false_of_rank_le hnum (hall n hn)
    rw [if_neg (by rw [hnum']; decide)]
    exact ⟨hi, rfl, hnum', lt_false_of_rank_le (hall n hn), fun hlt => lt_of_rank_lt hnum (hbefore n hlt)⟩

/-- VRARGMAX's identity, −∞, and its lanes are patterns of 32 bits. -/
theorem maskedLane_lt (m : Mask) (x : Vec) (n : Nat) : (if m.getLsbD (4 * n) then lane x 32 n else 0xFF800000) < 2 ^ 32 := by
  split
  · exact lane_lt ..
  · decide

theorem maskedLanes_32 (m : Mask) (ident : Nat) (x : Vec) :
    maskedLanes m 32 ident x = (List.range 32).map (fun n => if m.getLsbD (4 * n) then lane x 32 n else ident) :=
  List.map_congr_left fun n _ => by rw [show n * 32 / 8 = 4 * n by omega]

theorem deliversLanes_vrargmaxF32 (hb : (Instr.vrargmaxF32 g rm o).begins g s) (hread : ((Instr.vrargmaxF32 g rm o).opening s).v1 o = .ok (x, j)) :
    Claims.deliversLanes (Instr.vrargmaxF32 g rm o) s (j.roundWords rm 4).2 o.d o.dnil 6 32 (nth 0 (argMax ((List.range 32).map (fun n =>
      if (s.pre.getM o.s2.toNat).getLsbD (4 * n) then lane x 32 n else 0xFF800000)))) :=
  deliversLanes_of_reduces (ident := 0xFF800000) ⟨.v (.vrargmaxF32 g rm o), rfl, rfl⟩ hb hread fun n _ => by rw [maskedLanes_32]

/-! ### Permutes (R178) -/

theorem deliversOfPair_of_vpair {l : SlotInstr} {F : Vec → Vec → Vec} {f : Vec → Vec → Nat → Nat} (hslot : k.slot = some l)
    (hop : slotOp l = guarded g none (fun i => i.vpair o F)) (hf : ∀ x y, ∀ n < 1024 / w, lane (F x y) w n = f x y n % 2 ^ w) :
    DeliversOfPair k g o .rne w 2 (fun x y _ => f x y) :=
  ⟨l, fun x y _ => F x y, hslot, hop, fun x y _ => hf x y⟩

theorem deliversOfPair_permuteRows : ∀ e ∈ Claims.permuteRows, ∀ g o, DeliversOfPair (e.1 g o) g o .rne e.2.1 2 (fun x y _ => e.2.2 x y) := by
  simp only [Claims.permuteRows, List.forall_mem_cons, List.not_mem_nil, false_implies, implies_true, and_true]
  refine ⟨fun g o => deliversOfPair_of_vpair (l := .v (.vperm g o)) rfl rfl fun _ _ _ hn => lane_mapLanes hn _,
    fun g o => deliversOfPair_of_vpair (l := .v (.vshuf g o)) rfl rfl fun _ _ _ hn => lane_mapLanes hn _,
    fun g o => deliversOfPair_of_vpair (l := .v (.vzip g o)) rfl rfl fun x y n hn => ?_,
    fun g o => deliversOfPair_of_vpair (l := .v (.vunzip g o)) rfl rfl fun x y n hn => ?_⟩
  · rw [lane_mapLanes hn, ← apply_ite (fun v => lane v 32 (n / 2))]
  · rw [lane_mapLanes hn, Nat.mul_sub]

theorem deliversLanes_vtrn4 (hb : (Instr.vtrn4 g o).begins g s) (hread : ((Instr.vtrn4 g o).opening s).v1 o = .ok (x, j)) :
    Claims.deliversLanes (Instr.vtrn4 g o) s j o.d o.dnil 2 32 (fun n => lane x 32 (n / 16 * 16 + 4 * (n % 4) + n / 4 % 4)) :=
  deliversLanes_of_toV (l := .v (.vtrn4 g o)) rfl (show opVtrn4 g o = _ from rfl) hb (by rw [hread]; rfl) fun _ hn => lane_mapLanes hn _

/-- The row's slot is a permute by an immediate whose lane n is `f n` of the source. -/
def PermutesByImm (k : Instr) (g : Guard) (q : RI) (f : Vec → Nat → Nat) : Prop :=
  ∃ l F, k.slot = some l ∧ slotOp l = guarded g none (fun i => i.vimm q F) ∧ ∀ x, ∀ n < 32, lane (F x) 32 n = f x n % 2 ^ 32

theorem deliversLanes_of_permutesByImm {q : RI} {f : Vec → Nat → Nat} (hk : PermutesByImm k g q f) (hb : k.begins g s)
    (hread : (k.opening s).source 0 (sm1 q.sm1) .v q.s1.toNat = .ok (x, j)) : Claims.deliversLanes k s j q.d false 2 32 (f x) := by
  obtain ⟨l, F, hslot, hop, hF⟩ := hk
  exact deliversLanes_of_toV hslot hop hb (by rw [Issue.vimm, hread]; rfl) (hF x)

/-! ### VSMMERGE (R179) -/

theorem deliversLanes_vsmmerge {q : RRR} {o1 o2 m1 m2 : Vec} (hb : (Instr.vsmmerge g q).begins g s)
    (h1 : ((Instr.vsmmerge g q).opening s).readReg .v q.d.toNat = .ok o1) (h2 : ((Instr.vsmmerge g q).opening s).readReg .v q.s1.toNat = .ok o2)
    (h3 : ((Instr.vsmmerge g q).opening s).readReg .v q.s2.toNat = .ok m1) (h4 : ((Instr.vsmmerge g q).opening s).readReg .v q.s3.toNat = .ok m2) :
    Claims.deliversLanes (Instr.vsmmerge g q) s ((Instr.vsmmerge g q).opening s) q.d false 8 32 (fun n =>
      smMerge (lane o1 32 n) (lane o2 32 n) (lane m1 32 n) (lane m2 32 n)) :=
  deliversLanes_of_toV (l := .v (.vsmmerge g q)) rfl (show opVsmmerge g q = _ from rfl) hb (by rw [h1, h2, h3, h4]; rfl)
    fun _ hn => lane_mapLanes hn _

end

/-- Settles O19: a reduction packs its tree's root, and VRARGMAX's root is the first lane of greatest rank; the other rows compute each lane. -/
theorem reductionsPermutesAndMerge : Obligations.ReductionsPermutesAndMerge := by
  refine fun g rm o s => ⟨fun e he hb x j hread => deliversLanes_of_reducesTo (reducesTo_reduceRows e he g rm o) hb hread,
    fun hb x j hread => ⟨_, deliversLanes_vrargmaxF32 hb hread, argMax_lanes (maskedLane_lt _ x) fun _ => rfl⟩,
    fun e he hb x y j hread => deliversLanes_of_pair (deliversOfPair_permuteRows e he g o) hb hread, fun hb x j hread => deliversLanes_vtrn4 hb hread,
    fun q k f hk hb x j hread => deliversLanes_of_permutesByImm ?_ hb hread, fun q hb _ _ _ _ h1 h2 h3 h4 => deliversLanes_vsmmerge hb h1 h2 h3 h4⟩
  simp only [List.mem_cons, List.not_mem_nil, or_false, Prod.mk.injEq] at hk
  rcases hk with ⟨rfl, rfl⟩ | ⟨rfl, rfl⟩
  · exact ⟨.v (.vbcast g q), _, rfl, rfl, fun _ _ hn => lane_mapLanes hn _⟩
  · exact ⟨.v (.vslide g q), _, rfl, rfl, fun _ _ hn => lane_mapLanes hn _⟩

end Sys2Proof.Machine
end

section
/-! The issue a slot's operation starts from, and what starts a command at it (08_transfer.md R218 to R222): each check where it passes. -/

namespace Sys2Proof.Machine

/-- The issue stands where its bundle was opened: nothing is done yet but to note a step of an address register. -/
structure Issue.AtOpening (i : Issue) (s : State) : Prop where
  n : i.n = s.cur
  pre : i.pre = s.pre
  state : i.s = s.opened
  cmds : i.cmds = []

theorem atOpening_opening (k : Instr) (s : State) : (k.opening s).AtOpening s := ⟨rfl, rfl, rfl, rfl⟩

theorem atOpening_openingAt (k : Instr) (s : State) (a : BitVec 4) (am : BitVec 2) : (k.openingAt s a am).AtOpening s := by
  unfold Instr.openingAt
  split <;> exact ⟨rfl, rfl, rfl, rfl⟩

section
variable {i : Issue} {s : State} {va : W64} {align len : Nat}

theorem Issue.AtOpening.core (h : i.AtOpening s) : i.core = s.pre := by
  rw [Issue.core, h.state, h.n]; rfl

theorem Issue.AtOpening.ctxNo (h : i.AtOpening s) : i.ctxNo = s.pre.ctx := congrArg Core.ctx h.pre

theorem Issue.AtOpening.ctx (h : i.AtOpening s) : i.ctx = s.ctx s.me.ctx := by
  rw [Issue.ctx, h.state, h.pre, pre_ctx]; rfl

theorem Issue.AtOpening.desc (h : i.AtOpening s) (o : XC) :
    i.desc o = ⟨(s.pre.getG o.g.toNat).toNat, (s.pre.getG (o.g.toNat + 1)).toNat, (s.pre.getG (o.g.toNat + 2)).toNat⟩ := by
  rw [Issue.desc, h.pre]

/-- A range that passes orders 4 and 5 of R222. -/
theorem Issue.AtOpening.range (h : i.AtOpening s) (hr : Claims.rangeOk s va align len) : i.range va align len = .ok () := by
  obtain ⟨halign, hfirst, hlast⟩ := hr
  simp [Issue.range, h.ctx, halign, hfirst, hlast]

theorem range_misaligned (i : Issue) (len : Nat) (h : va.toNat % align ≠ 0) : i.range va align len = .error (.trap 7 va) := if_pos h

theorem command_starts (h : i.core.commands.length + i.cmds.length < 96) (e : IfrEntry) : i.command e = .ok (Claims.starting i e) :=
  if_neg (Nat.not_le.2 h)

theorem Issue.AtOpening.command (h : i.AtOpening s) (hfree : s.pre.commands.length < 96) (e : IfrEntry) : i.command e = .ok (Claims.starting i e) :=
  command_starts (by rw [h.core, h.cmds, List.length_nil, Nat.add_zero]; exact hfree) e

theorem Issue.AtOpening.tileCommand (h : i.AtOpening s) (hfree : s.pre.commands.length < 96) (t : Nat) (f : Tile → Tile) (e : IfrEntry) :
    i.tileCommand t f e = .ok ((Claims.starting i e).putTile t (f (s.pre.tile t))) := by
  have hcore : (Claims.starting i e).core = s.pre := h.core
  simp only [Issue.tileCommand, h.command hfree, bind, Except.bind, hcore]

end

/-! ### Fields of a descriptor word (R218) -/

theorem testBit_field {hi lo : Nat} (h : lo ≤ hi) (b : Nat) : ((2 ^ (hi + 1 - lo) - 1) * 2 ^ lo).testBit b = decide (lo ≤ b ∧ b ≤ hi) := by
  rw [← Nat.shiftLeft_eq, Nat.testBit_shiftLeft, Nat.testBit_two_pow_sub_one, ← Bool.decide_and]
  exact decide_eq_decide.2 (by omega)

/-- A bit of the union of fields lies in one of them. -/
theorem testBit_foldl_field {l : List (Nat × Nat)} (hl : ∀ f ∈ l, f.2 ≤ f.1) (m b : Nat) :
    (l.foldl (fun m f => Nat.lor m ((2 ^ (f.1 + 1 - f.2) - 1) * 2 ^ f.2)) m).testBit b = true ↔
      m.testBit b = true ∨ ∃ f ∈ l, f.2 ≤ b ∧ b ≤ f.1 := by
  induction l generalizing m with
  | nil => simp
  | cons f l ih =>
    obtain ⟨hf, hl⟩ := List.forall_mem_cons.1 hl
    have hlor : (Nat.lor m ((2 ^ (f.1 + 1 - f.2) - 1) * 2 ^ f.2)).testBit b = (m.testBit b || decide (f.2 ≤ b ∧ b ≤ f.1)) := by
      rw [← testBit_field hf]; exact Nat.testBit_or ..
    rw [List.foldl_cons, ih hl, hlor, Bool.or_eq_true, decide_eq_true_eq, List.exists_mem_cons_iff, or_assoc]

/-- A number that a mask leaves whole has set bits only where the mask has. -/
theorem land_eq_self_iff (d m : Nat) : Nat.land d m = d ↔ ∀ b, d.testBit b = true → m.testBit b = true := by
  have hand (b : Nat) : (Nat.land d m).testBit b = (d.testBit b && m.testBit b) := Nat.testBit_and ..
  refine ⟨fun h b hb => ?_, fun h => Nat.eq_of_testBit_eq fun b => ?_⟩
  · rw [← h, hand, Bool.and_eq_true] at hb
    exact hb.2
  · rw [hand]
    cases hb : d.testBit b
    · rfl
    · rw [h b hb]; rfl

theorem descriptorKeepsToItsFields : Claims.DescriptorKeepsToItsFields := by
  intro d l hl
  rw [d0Only, decide_eq_true_eq, land_eq_self_iff]
  refine forall₂_congr fun b _ => ?_
  rw [testBit_foldl_field hl, Nat.zero_testBit]
  simp only [Bool.false_eq_true, false_or]

end Sys2Proof.Machine
end

section
/-! Copies start their command, and a tile follows its commands (08_transfer.md R226, R227, R230, R231; 10_tile.md R275). -/

namespace Sys2Proof.Machine

section
variable {i : Issue} {o : XC} {s : State} {d : Desc}

/-- XCOPY.in past the checks of R221 to R223 has its range examined and starts its command. -/
theorem copyIn_checked (h : i.AtOpening s) (hd : i.desc o = d) (hfields : d0Only d.d0 [(47, 32), (18, 10), (9, 0)] = true) (hcount : 1 ≤ d.nblk)
    (htile : d.toff + d.nblk ≤ 512) (hlayout : layoutOk d.layout = true) (hd1 : d1Ok d.d1 = true)
    (hfill : (s.pre.tile o.tile.toNat).takesFill d.layout = true) :
    i.copyIn o = (do
      i.range (s.pre.getA o.a.toNat) 64 (64 * d.nblk)
      i.tileCommand o.tile.toNat (fun x => x.fillStart (BitVec.ofNat 16 d.layout)) (.new .idem 3 (opndXC (s.pre.getA o.a.toNat) d o.tile.toNat o.reint false) [])) := by
  have hn : nblkOk d.nblk = true := decide_eq_true (by omega)
  simp [Issue.copyIn, hd, h.core, h.pre, fLAYOUT, fTOFF, fNBLK, hfields, hn, Nat.not_lt.2 htile, hlayout, hd1, hfill]

/-- XCOPY.out of a tile, the same. -/
theorem copyOut_checked (h : i.AtOpening s) (hd : i.desc o = d) (hsrc : d.srca = false) (hkiosk : isKiosk s.cur = true → o.tile.toNat < 8)
    (hfields : d0Only d.d0 [(31, 31), (30, 30), (18, 10), (9, 0)] = true) (hcount : 1 ≤ d.nblk) (htile : d.toff + d.nblk ≤ 512) (hd1 : d1Ok d.d1 = true)
    (hst : (s.pre.tile o.tile.toNat).st = .ready ∨ (s.pre.tile o.tile.toNat).st = .draining) :
    i.copyOut o = (do
      i.range (s.pre.getA o.a.toNat) 64 (64 * d.nblk)
      i.tileCommand o.tile.toNat (fun x => x.drainStart d.rel) (.new .idem 4 (opndXC (s.pre.getA o.a.toNat) d o.tile.toNat o.reint false) [])) := by
  have hn : nblkOk d.nblk = true := decide_eq_true (by omega)
  have hk : (isKiosk s.cur && decide (8 ≤ o.tile.toNat)) = false := by
    cases hc : isKiosk s.cur
    · rfl
    · simp [hkiosk hc]
  have hempty : (s.pre.tile o.tile.toNat).st ≠ .empty := by rcases hst with h | h <;> rw [h] <;> decide
  have hfilling : (s.pre.tile o.tile.toNat).st ≠ .filling := by rcases hst with h | h <;> rw [h] <;> decide
  simp [Issue.copyOut, Issue.copyOutTile, hd, hsrc, hk, h.n, h.core, h.pre, fREL, fSRCA, fTOFF, fNBLK, hfields, hn, Nat.not_lt.2 htile, hd1, hempty, hfilling]

/-- XWBFILL past the checks of R221. -/
theorem wbFill_checked (h : i.AtOpening s) (hd : i.desc o = d) (hfields : d0Only d.d0 [(63, 56), (22, 10), (9, 0)] = true) (hcount : 1 ≤ d.nblk)
    (hmost : d.nblk ≤ 512) (hroom : d.woff + d.nblk ≤ 8192) (hcode : codeDefined d.fmt = true) (hff : d.fmt ≠ 0xFF) (hd1 : d1Ok d.d1 = true)
    (htile : o.tile = 0) :
    i.wbFill o = (do
      i.range (s.pre.getA o.a.toNat) 64 (64 * d.nblk)
      i.command (.new .idem 13 (opndXC (s.pre.getA o.a.toNat) d 0 o.reint false) [])) := by
  have hn : nblkOk d.nblk = true := decide_eq_true ⟨hcount, hmost⟩
  simp [Issue.wbFill, hd, h.pre, fFMT, fWOFF, fNBLK, hfields, hn, Nat.not_lt.2 hroom, hcode, hff, hd1, htile]

/-- XPREF past the checks of R221 examines the alignment alone. -/
theorem prefetch_checked (h : i.AtOpening s) (hd : i.desc o = d) (hfields : d0Only d.d0 [(9, 0)] = true) (hcount : 1 ≤ d.nblk) (hmost : d.nblk ≤ 512)
    (htile : o.tile = 0) :
    i.prefetch o = if (s.pre.getA o.a.toNat).toNat % 64 ≠ 0 then .error (.trap 7 (s.pre.getA o.a.toNat)) else .ok i := by
  have hn : nblkOk d.nblk = true := decide_eq_true ⟨hcount, hmost⟩
  simp [Issue.prefetch, hd, h.pre, fNBLK, hfields, hn, htile]

end

theorem copiesStartTheirCommand : Claims.CopiesStartTheirCommand := by
  intro g o s hfree t va d starts hd1
  have hopen (k : Instr) : (k.openingAt s o.a o.am).AtOpening s := atOpening_openingAt k s o.a o.am
  have hd (k : Instr) : (k.openingAt s o.a o.am).desc o = d := (hopen k).desc o
  refine ⟨fun hb hfields hcount htile hlayout hfill => ?_, fun hb hsrc hkiosk hfields hcount htile hst hr => ?_,
    fun hb hfields hcount hmost hroom hcode hff htile hr => ?_, fun hb hfields hcount hmost htile => ?_⟩
  · have hrun := copyIn_checked (hopen (.xcopyIn g o)) (hd _) hfields hcount htile hlayout hd1 hfill
    refine ⟨fun hr => ends_guardedAt (i := .x (.xcopyIn g o)) rfl (show opXcopyIn g o = _ from rfl) hb ?_,
      fun hmis => stops_guardedAt (i := .x (.xcopyIn g o)) rfl (show opXcopyIn g o = _ from rfl) hb ?_⟩
    · rw [hrun, (hopen _).range hr, (hopen _).tileCommand hfree]
      rfl
    · rw [hrun, range_misaligned _ _ hmis]; rfl
  · refine ends_guardedAt (i := .x (.xcopyOut g o)) rfl (show opXcopyOut g o = _ from rfl) hb ?_
    rw [copyOut_checked (hopen _) (hd _) hsrc hkiosk hfields hcount htile hd1 hst, (hopen _).range hr, (hopen _).tileCommand hfree]
    rfl
  · refine ends_guardedAt (i := .x (.xwbfill g o)) rfl (show opXwbfill g o = _ from rfl) hb ?_
    rw [wbFill_checked (hopen _) (hd _) hfields hcount hmost hroom hcode hff hd1 htile, (hopen _).range hr]
    exact (hopen _).command hfree _
  · have hrun := prefetch_checked (hopen (.xpref g o)) (hd _) hfields hcount hmost htile
    refine ⟨fun halign => ends_guardedAt (i := .x (.xpref g o)) rfl (show opXpref g o = _ from rfl) hb ?_,
      fun hmis => stops_guardedAt (i := .x (.xpref g o)) rfl (show opXpref g o = _ from rfl) hb ?_⟩
    · exact hrun.trans (if_neg (not_not.2 halign))
    · exact hrun.trans (if_pos hmis)

/-! ### Tiles under commands (10_tile.md R275 Table 3) -/

section
variable {t : Tile}

theorem fillStart_empty (h : t.st = .empty) (l : BitVec 16) : t.fillStart l = { t with st := .filling, layout := l, ncmd := 1, err := false } := by
  unfold Tile.fillStart; rw [h]

theorem fillStart_filling (h : t.st = .filling) (l : BitVec 16) : t.fillStart l = { t with ncmd := t.ncmd + 1 } := by
  unfold Tile.fillStart; rw [h]

theorem drainStart_draining (h : t.st = .draining) (rel : Bool) : t.drainStart rel = { t with ncmd := t.ncmd + 1, relp := t.relp || rel } := by
  unfold Tile.drainStart; rw [h]

theorem drainStart_first (h : t.st ≠ .draining) (rel : Bool) : t.drainStart rel = { t with st := .draining, ncmd := 1, err := false, relp := rel } := by
  unfold Tile.drainStart
  split
  · exact absurd ‹_› h
  · rfl

/-- A command that is not the last, or whose tile has failed, changes the count alone. -/
theorem complete_counts (h : 1 < t.ncmd ∨ t.err = true) : t.complete = { t with ncmd := t.ncmd - 1 } :=
  if_pos (h.imp_left fun h => by omega)

/-- The last command of a tile that has not failed. -/
theorem complete_filling (hst : t.st = .filling) (hn : t.ncmd = 1) (herr : t.err = false) : t.complete = { t with ncmd := 0, st := .ready } := by
  simp [Tile.complete, hst, hn, herr]

theorem complete_draining (hst : t.st = .draining) (hn : t.ncmd = 1) (herr : t.err = false) :
    t.complete = { t with ncmd := 0, st := if t.relp then .empty else .ready, relp := false } := by
  simp [Tile.complete, hst, hn, herr]

end

theorem tilesFollowTheirCommands : Claims.TilesFollowTheirCommands := by
  intro t l rel
  refine ⟨fun h => ?_, fun h => fillStart_filling h l, fun h => drainStart_first h rel, fun h => drainStart_draining h rel, fun hst hn herr => complete_filling hst hn herr,
    fun hst hn herr => ?_, complete_counts, rfl⟩
  · rw [fillStart_empty h]; exact ⟨rfl, rfl, rfl, rfl⟩
  · rw [complete_draining hst hn herr]; exact ⟨rfl, rfl, rfl, rfl⟩

/-- Settles O23: a descriptor's fields bit by bit; each copy past its checks starts one command; a tile's changes case by case. -/
theorem descriptorsTilesAndCopyCommands : Obligations.DescriptorsTilesAndCopyCommands :=
  ⟨descriptorKeepsToItsFields, copiesStartTheirCommand, tilesFollowTheirCommands⟩

end Sys2Proof.Machine
end

section
/-! Copies out of an accumulator, and gathers and scatters, carry what they read at issue (08_transfer.md R228, R229). -/

namespace Sys2Proof.Machine

/-! ### Rows laid end to end -/

theorem length_flatMap_range {α : Type} (m n : Nat) (f : Nat → Nat → α) :
    ((List.range m).flatMap (fun r => (List.range n).map (f r))).length = m * n := by
  simp only [List.length_flatMap, List.length_map, List.length_range, List.map_const', List.sum_replicate_nat]

theorem row_place_lt {m n r k : Nat} (hr : r < m) (hk : k < n) : r * n + k < m * n :=
  calc r * n + k < r * n + n := Nat.add_lt_add_left hk _
    _ = (r + 1) * n := (Nat.succ_mul r n).symm
    _ ≤ m * n := Nat.mul_le_mul_right n hr

/-- Element `n` of row `r`, all rows being of one length. -/
theorem nth_flatMap_range {α : Type} {m n r k : Nat} (hr : r < m) (hk : k < n) (d : α) (f : Nat → Nat → α) :
    nth d ((List.range m).flatMap (fun r => (List.range n).map (f r))) (r * n + k) = f r k := by
  rw [nth_eq_getD]
  induction m with
  | zero => exact absurd hr (Nat.not_lt_zero r)
  | succ m ih =>
    rw [List.range_succ, List.flatMap_append]
    have hlen := length_flatMap_range m n f
    rcases Nat.lt_succ_iff_lt_or_eq.1 hr with hlt | rfl
    · rw [List.getD_append _ _ _ _ (hlen.symm ▸ row_place_lt hlt hk), ih hlt]
    · rw [List.getD_append_right _ _ _ _ (by omega), hlen, Nat.add_sub_cancel_left]
      simp [List.getD_eq_getElem?_getD, hk]

theorem nth_zip_map {l m : List Nat} {n : Nat} (hl : n < l.length) (hm : n < m.length) (f : Nat × Nat → Nat) :
    nth 0 ((l.zip m).map f) n = f (nth 0 l n, nth 0 m n) := by
  rw [nth_map (by rw [List.length_zip]; omega) (0, 0)]
  have hz : n < (l.zip m).length := by rw [List.length_zip]; omega
  simp only [nth_eq_getD, List.getD_eq_getElem _ _ hz, List.getD_eq_getElem _ _ hl, List.getD_eq_getElem _ _ hm, List.getElem_zip]

/-- A stochastic rounding of `n` elements draws a word for each (03_numbers.md R79, R89). -/
theorem le_length_roundWords (i : Issue) (n : Nat) : n ≤ (i.roundWords .rs n).1.length := by
  have hlen : (i.roundWords .rs n).1.length = 4 * ((n + 3) / 4) := length_rngBlocks _ _ _
  omega

/-- Drawing words leaves the record's entries, and what the bundle has started. -/
theorem roundWords_starts {i : Issue} {s : State} (h : i.AtOpening s) (hfree : s.pre.commands.length < 96) (rm : RMode) (n : Nat) (e : IfrEntry) :
    (i.roundWords rm n).2.command e = .ok (Claims.starting (i.roundWords rm n).2 e) := by
  refine command_starts ?_ e
  have hkeep : (i.roundWords rm n).2.core.commands = i.core.commands ∧ (i.roundWords rm n).2.cmds = i.cmds := by
    unfold Issue.roundWords
    split
    · refine ⟨?_, rfl⟩
      show (i.upd _).core.commands = _
      rw [upd_core]; rfl
    · exact ⟨rfl, rfl⟩
  rw [hkeep.1, hkeep.2, h.core, h.cmds, List.length_nil, Nat.add_zero]
  exact hfree

/-! ### Copies out of an accumulator (R228) -/

/-- Rows that one stripe of the output takes, by governing mode. -/
def Desc.stripe (d : Desc) (fm : Bool) : Nat := if d.fmt = 0x17 then (if fm then 8 else 2) else 1

/-- The checks of R221 on the descriptor of a drain of accumulator `t` under governing mode `fm`. -/
structure Desc.DrainOk (d : Desc) (fm : Bool) (t : Nat) : Prop where
  fields : d0Only d.d0 [(63, 56), (55, 48), (30, 30), (29, 27), (25, 19), (9, 0)] = true
  count : 1 ≤ d.nblk
  rows : d.row0 + d.nblk ≤ 128
  mode : d.rm ≤ 4
  scale : d.scl ≠ 255
  counter : d1Ok d.d1 = true
  first : d.row0 % d.stripe fm = 0
  whole : d.nblk % d.stripe fm = 0
  align : d.d2 % 64 = 0
  place : d.d2 < 2 ^ 48
  tile : t < 24

/-- The format takes a drawn word for each element (03_numbers.md R79). -/
abbrev Desc.draws (d : Desc) : Prop := d.rm = 4 ∧ d.fmt ≠ 0x06 ∧ d.fmt ≠ 0x01

/-- The values a drain carries: `n` elements of each row, as `f` reads them. -/
def Matrix.drained (m : Matrix) (t row0 rows n : Nat) (f : Nat → Nat) : List Nat :=
  (List.range rows).flatMap (fun r => (List.range n).map (fun k => f (rowElem (m.row t (row0 + r)) k)))

/-- Each value with the word drawn for it. -/
def withWords (draws : Prop) [Decidable draws] (xs ws : List Nat) : List Nat := if draws then (xs.zip ws).map (fun p => p.1 + 2 ^ 32 * p.2) else xs

section
variable {i : Issue} {o : XC} {s : State} {d : Desc} {fm : Bool} {size : Nat} {recip : Option W32}

/-- XCOPY.out of an accumulator past its checks draws its words and starts its command. -/
theorem copyOutAcc_starts (h : i.AtOpening s) (hd : i.desc o = d) (hfree : s.pre.commands.length < 96) (hcore : isKiosk s.cur = false)
    (hsrc : d.srca = true) (hfm : s.pre.mx.governs o.tile.toNat = fm) (hsize : drainBytes fm d.fmt = some size)
    (hrecip : (if fm then s.pre.unscale o.tile.toNat else .ok none) = .ok recip) (hok : d.DrainOk fm o.tile.toNat)
    (hrange : Claims.rangeOk s (s.pre.getA o.a.toNat) (if d.fmt = 0x17 then 512 else 64) (size * d.nblk))
    (hwm : d.row0 + d.nblk ≤ (s.pre.mx.st o.tile.toNat).wm.toNat) :
    let n := if fm then 64 else 256
    let r := i.roundWords (if d.draws then .rs else .rne) (d.nblk * n)
    i.copyOut o = .ok (Claims.starting r.2 (.new .idem 6 (opndXC (s.pre.getA o.a.toNat) d o.tile.toNat o.reint true)
      (b2n fm :: withWords d.draws (s.pre.mx.drained o.tile.toNat d.row0 d.nblk n (fun x => if fm then unscaled recip x else x)) r.1))) := by
  intro n r
  obtain ⟨hfields, hcount, hrows, hmode, hscale, hcounter, hfirst, hwhole, halign, hplace, htile⟩ := hok
  rw [← roundWords_starts h hfree]
  unfold Desc.stripe at hfirst hwhole
  have hcount' : d.nblk ≠ 0 := Nat.ne_of_gt hcount
  simp only [Issue.copyOut, hd, hsrc, if_true, Issue.copyOutAcc, h.n, hcore, h.pre, hfm, hsize, h.core, h.range hrange, fFMT, fSCL, fSRCA, fRM, fROW, fNBLK,
    hfields, hcount', Nat.not_lt.2 hrows, Nat.not_lt.2 (Nat.le_of_lt_succ htile), Nat.not_lt.2 hmode, hscale, hcounter, hfirst, hwhole, halign,
    Nat.not_le.2 hplace, Nat.not_lt.2 hwm, bind, Except.bind, length_flatMap_range]
  cases fm
  · rfl
  · rw [if_pos rfl] at hrecip
    rw [hrecip]
    rfl

end

section
variable {draws : Prop} [Decidable draws] {xs ws : List Nat}

theorem length_withWords (h : draws → xs.length ≤ ws.length) : (withWords draws xs ws).length = xs.length := by
  unfold withWords
  split
  · rw [List.length_map, List.length_zip, Nat.min_eq_left (h ‹_›)]
  · rfl

theorem nth_withWords {n : Nat} (h : draws) (hn : n < xs.length) (hlen : xs.length ≤ ws.length) :
    nth 0 (withWords draws xs ws) n = nth 0 xs n + 2 ^ 32 * nth 0 ws n := by
  rw [withWords, if_pos h, nth_zip_map hn (by omega)]

end

/-- The words drawn suffice for the elements that take one. -/
theorem drained_le_words (d : Desc) (i : Issue) (n : Nat) (h : d.draws) : n ≤ (i.roundWords (if d.draws then .rs else .rne) n).1.length := by
  rw [if_pos h]
  exact le_length_roundWords i n

/-- Both rows run the one operation, which looks at SRCA of the descriptor. -/
theorem slot_copyOut {k : Instr} {g : Guard} {o : XC} (hk : k = .xcopyOutAcc g o ∨ k = .xcopyOut g o) :
    ∃ l, k.slot = some l ∧ slotOp l = guarded g (incOf o.a o.am) (fun i => i.copyOut o) := by
  rcases hk with rfl | rfl
  · exact ⟨.x (.xcopyOutAcc g o), rfl, rfl⟩
  · exact ⟨.x (.xcopyOut g o), rfl, rfl⟩

theorem accumulatorCopiesCarryTheirRows : Claims.AccumulatorCopiesCarryTheirRows := by
  intro g o s k hk hb t va d fm per stripe hfree hcore hsrc htile size recip hsize hrecip hfields hcount hrows hmode hscale hcounter hfirst hwhole halign
    hplace hrange hwm draws i r
  have hopen : i.AtOpening s := atOpening_openingAt k s o.a o.am
  have hstart := copyOutAcc_starts hopen (hopen.desc o) hfree hcore hsrc rfl hsize hrecip
    ⟨hfields, hcount, hrows, hmode, hscale, hcounter, hfirst, hwhole, halign, hplace, htile⟩ hrange hwm
  obtain ⟨l, hslot, hop⟩ := slot_copyOut hk
  let xs := s.pre.mx.drained t d.row0 d.nblk per (fun x => if fm then unscaled recip x else x)
  have hlen : xs.length = d.nblk * per := length_flatMap_range _ _ _
  have hwords : d.draws → xs.length ≤ r.1.length := fun h => hlen ▸ drained_le_words d i _ h
  refine ⟨withWords d.draws xs r.1, (length_withWords hwords).trans hlen, fun row hrow n hn => ?_, ends_guardedAt hslot hop hb hstart⟩
  have hplace : row * per + n < xs.length := hlen.symm ▸ row_place_lt hrow hn
  have helem : nth 0 xs (row * per + n) = if fm then unscaled recip (rowElem (s.pre.mx.row t (d.row0 + row)) n) else rowElem (s.pre.mx.row t (d.row0 + row)) n :=
    nth_flatMap_range hrow hn 0 _
  refine ⟨fun h => ?_, fun h => ?_⟩
  · rw [withWords, if_neg h, helem]
  · rw [nth_withWords h hplace (hwords h), helem]

/-! ### Row lists (R229) -/

/-- The checks of R221 to R223 on the descriptor of a gather into a tile, or of a scatter from it. -/
structure Desc.RowsOk (d : Desc) (gather : Bool) (tile : Tile) : Prop where
  fields : d0Only d.d0 (if gather then [(47, 32), (25, 19), (18, 10), (9, 0)] else [(31, 31), (25, 19), (18, 10), (9, 0)]) = true
  count : 1 ≤ d.nblk
  room : d.toff + d.nblk ≤ 512
  whole : d.nblk % (d.rblk + 1) = 0
  counter : d1Ok d.d1 = true
  align : d.d2 % 2 ^ 20 % 4 = 0
  reserved : d.d2 / 2 ^ 20 % 2 ^ 12 = 0
  pitch : d.d2 / 2 ^ 32 % 64 = 0
  fills : gather = true → layoutOk d.layout = true ∧ tile.takesFill d.layout = true
  drains : gather = false → tile.st = .ready ∨ tile.st = .draining

theorem bits_eq (x h l : Nat) : bits x h l = x / 2 ^ l % 2 ^ (h + 1 - l) := by rw [bits, Nat.shiftRight_eq_div_pow]

section
variable {i : Issue} {o : XC} {s : State} {d : Desc} {gather : Bool} {list n : Nat}

/-- A gather or scatter past its checks reads its list and starts its command. -/
theorem rowsCommand_starts (h : i.AtOpening s) (hd : i.desc o = d) (hfree : s.pre.commands.length < 96) (hok : d.RowsOk gather (s.pre.tile o.tile.toNat))
    (hlist : d.d2 % 2 ^ 20 = list) (hrows : d.nblk / (d.rblk + 1) = n) (hlayout : o.reint = true ∨ i.layoutBars list (4 * n) 0x06 = false)
    (halign : (s.pre.getA o.a.toNat).toNat % 64 = 0) (hroom : list + 4 * n ≤ spadSize s.cur) (hread : i.tilesReadable list (4 * n) = .ok ())
    (hclean : i.notPoisoned list (4 * n) = .ok ()) :
    i.rowsCommand o gather = .ok ((Claims.starting i (.new .idem 5 (opndXC (s.pre.getA o.a.toNat) d o.tile.toNat o.reint true)
      ((List.range n).map (fun m => s.pre.spad.read (list + 4 * m) 4)))).putTile o.tile.toNat
        (if gather then (s.pre.tile o.tile.toNat).fillStart (BitVec.ofNat 16 d.layout) else (s.pre.tile o.tile.toNat).drainStart d.rel)) := by
  obtain ⟨hfields, hcount, htile, hwhole, hcounter, hword, hreserved, hpitch, hfills, hdrains⟩ := hok
  have hn : nblkOk d.nblk = true := decide_eq_true (by omega)
  have hbits : bits d.d2 19 0 = list := by rw [bits_eq, Nat.pow_zero, Nat.div_one]; exact hlist
  have hzero : bits d.d2 31 20 = 0 := (bits_eq ..).trans hreserved
  have hbars : (!o.reint && i.layoutBars list (4 * n) 0x06) = false := by
    rcases hlayout with h | h <;> simp only [h, Bool.not_true, Bool.false_and, Bool.and_false]
  rw [hlist] at hword
  have hstart := h.tileCommand hfree o.tile.toNat (fun x => if gather then x.fillStart (BitVec.ofNat 16 d.layout) else x.drainStart d.rel)
    (.new .idem 5 (opndXC (s.pre.getA o.a.toNat) d o.tile.toNat o.reint true) ((List.range n).map (fun m => s.pre.spad.read (list + 4 * m) 4)))
  rw [← hstart]
  cases gather
  · have hempty : (s.pre.tile o.tile.toNat).st ≠ .empty := by rcases hdrains rfl with h | h <;> rw [h] <;> decide
    have hfilling : (s.pre.tile o.tile.toNat).st ≠ .filling := by rcases hdrains rfl with h | h <;> rw [h] <;> decide
    replace hfields : d0Only d.d0 [fREL, fROW, fTOFF, fNBLK] = true := hfields
    simp only [Issue.rowsCommand, hd, h.n, h.core, h.pre, hrows, hbits, hzero, Bool.false_eq_true, if_false, hfields, hn, Nat.not_lt.2 htile, hwhole, hcounter,
      hword, hpitch, hempty, hfilling, Bool.and_assoc, hbars, Bool.and_false, halign, Nat.not_lt.2 hroom, hread, hclean, bind, Except.bind]
    rfl
  · obtain ⟨hstated, htakes⟩ := hfills rfl
    replace hfields : d0Only d.d0 [fLAYOUT, fROW, fTOFF, fNBLK] = true := hfields
    simp only [Issue.rowsCommand, hd, h.n, h.core, h.pre, hrows, hbits, hzero, if_true, hfields, hn, Nat.not_lt.2 htile, hwhole, hcounter,
      hword, hpitch, hstated, htakes, Bool.and_assoc, hbars, Bool.and_false, halign, Nat.not_lt.2 hroom, hread, hclean, bind, Except.bind]
    rfl

end

theorem gathersCarryTheirIndices : Claims.GathersCarryTheirIndices := by
  intro g o s k gather hk hb t va d list n i hfree hfields hcount htile hwhole hcounter hlist hreserved hpitch hfills hdrains hlayout halign hroom hread hclean
  have hopen : i.AtOpening s := atOpening_openingAt k s o.a o.am
  have hstart := rowsCommand_starts hopen (hopen.desc o) hfree ⟨hfields, hcount, htile, hwhole, hcounter, hlist, hreserved, hpitch, hfills, hdrains⟩
    rfl rfl hlayout halign hroom hread hclean
  rcases hk with ⟨rfl, rfl⟩ | ⟨rfl, rfl⟩
  · exact ends_guardedAt (i := .x (.xgather g o)) rfl (show opXgather g o = _ from rfl) hb hstart
  · exact ends_guardedAt (i := .x (.xscatter g o)) rfl (show opXscatter g o = _ from rfl) hb hstart

/-- Settles O24: past its checks each row reads what its command carries: the rows of an accumulator with the words drawn, or the list of rows. -/
theorem accumulatorCopiesAndRowLists : Obligations.AccumulatorCopiesAndRowLists := ⟨accumulatorCopiesCarryTheirRows, gathersCarryTheirIndices⟩

end Sys2Proof.Machine
end

section
/-! The quarter network (08_transfer.md R232 to R234): sends, receives, and accesses to the scratchpad of another member. -/

namespace Sys2Proof.Machine

/-! ### Sends (R232) -/

section
variable {i j : Issue} {o : RR} {v : Vec} {k m : Nat}

/-- With no member of that number the operand is illegal. -/
theorem send_nobody (hread : i.source 0 (smode o.mode).1 .v o.s1.toNat = .ok (v, j)) (hk : (j.pre.getG o.s2.toNat).toNat = k)
    (hm : 32 ≤ k ∨ j.s.memberAt j.n k = none) : i.send o = .error (.trap 4 0) := by
  have hnone : (if k < 32 then j.s.memberAt j.n k else none) = none := by
    rcases hm with h | h
    · exact if_neg (Nat.not_lt.2 h)
    · rw [h]; exact ite_self none
  simp only [Issue.send, hread, bind, Except.bind, hk, hnone]
  rfl

/-- A send to a member starts its command, or finds the channel full. -/
theorem send_member (hread : i.source 0 (smode o.mode).1 .v o.s1.toNat = .ok (v, j)) (hk : (j.pre.getG o.s2.toNat).toNat = k) (hlt : k < 32)
    (hm : j.s.memberAt j.n k = some m) :
    i.send o = if 4 ≤ j.s.chanCount m o.d.toNat then .error (.trap 14 0)
      else j.command (.new .idem 7 (BitVec.ofNat 512 (m % 32 + o.d.toNat * 256)) [v.toNat, m]) := by
  simp only [Issue.send, hread, bind, Except.bind, hk, hlt, if_true, hm]

end

/-- An issue that has only read has started no command. -/
theorem cmds_of_onlyRead {l : SlotInstr} {s : State} {j : Issue} (h : l.onlyRead s j) : j.cmds = [] := by
  obtain ⟨hissue, -⟩ := h
  exact congrArg Issue.cmds hissue

/-! ### Receives (R233) -/

/-- The sends whose payload is readable have landed. -/
def Issue.landed (i : Issue) : Issue := { i with s := i.s.landSends i.s.sends.length }

/-- The channel's oldest entry is taken, its sender noted under operation `op`. -/
def Issue.took (i : Issue) (ch op : Nat) (x : ChanEntry) (rest : List ChanEntry) : Issue :=
  let j := i.upd (fun c => { c with chan := Tbl.set [] c.chan ch rest })
  { j with s := j.s.noteMove j.n op x.sender }

section
variable {i j : Issue} {o : RR} {ch op w : Nat} {f : Nat → Nat → Nat} {a : Vec}

theorem receive_empty (h : Tbl.get [] i.landed.core.chan ch = []) : i.receive ch op = .error (.trap 15 0) := by
  rw [Issue.landed] at h
  simp only [Issue.receive, h]

theorem receive_oldest {x : ChanEntry} {rest : List ChanEntry} (h : Tbl.get [] i.landed.core.chan ch = x :: rest) :
    i.receive ch op = .ok (x.value, i.landed.took ch op x rest) := by
  rw [Issue.landed] at h
  simp only [Issue.receive, h]
  rfl

theorem recv_empty (h : Tbl.get [] i.landed.core.chan o.s1.toNat = []) : i.recv o = .error (.trap 15 0) := by
  simp only [Issue.recv, receive_empty h, bind, Except.bind]

theorem recv_oldest {x : ChanEntry} {rest : List ChanEntry} (h : Tbl.get [] i.landed.core.chan o.s1.toNat = x :: rest) :
    i.recv o = (i.landed.took o.s1.toNat 2 x rest).toV o.d.toNat o.dnil x.value 2 := by
  simp only [Issue.recv, receive_oldest h, bind, Except.bind]

theorem recvAdd_empty (hread : i.source 0 (smode o.mode).1 .v o.s1.toNat = .ok (a, j)) (h : Tbl.get [] j.landed.core.chan o.s2.toNat = []) :
    i.recvAdd o w f = .error (.trap 15 0) := by
  simp only [Issue.recvAdd, hread, receive_empty h, bind, Except.bind]

theorem recvAdd_oldest {x : ChanEntry} {rest : List ChanEntry} (hread : i.source 0 (smode o.mode).1 .v o.s1.toNat = .ok (a, j))
    (h : Tbl.get [] j.landed.core.chan o.s2.toNat = x :: rest) :
    i.recvAdd o w f = (j.landed.took o.s2.toNat 3 x rest).toV o.d.toNat o.dnil (mapLanes w (fun k => f (lane a w k) (lane x.value w k))) 14 := by
  simp only [Issue.recvAdd, hread, receive_oldest h, bind, Except.bind]

end

/-- The row's slot adds a received payload to its source, lanes of `w` bits by `f`. -/
def ReceivesSum (k : Instr) (g : Guard) (o : RR) (w : Nat) (f : Nat → Nat → Nat) : Prop :=
  ∃ l, k.slot = some l ∧ slotOp l = guarded g none (fun i => i.recvAdd o w f)

theorem receivesSum_recvAddRows : ∀ e ∈ Claims.recvAddRows, ∀ g o, ReceivesSum (e.1 g o) g o e.2.1 e.2.2 := by
  simp only [Claims.recvAddRows, List.forall_mem_cons, List.not_mem_nil, false_implies, implies_true, and_true]
  exact ⟨fun g o => ⟨.x (.xrecvaddF32 g o), rfl, rfl⟩, fun g o => ⟨.x (.xrecvaddI32 g o), rfl, rfl⟩, fun g o => ⟨.x (.xrecvaddBf16 g o), rfl, rfl⟩⟩

/-! ### Accesses to a member's scratchpad (R234) -/

theorem takesLoad_of {t : Tile} (h : t.st = .ready ∨ t.st = .draining) : t.takesLoad = true := decide_eq_true h

theorem takesStore_of {t : Tile} (h : t.st = .ready) : t.takesStore = true := decide_eq_true h

section
variable {i : Issue} {s : State} {o : RR} {store : Bool} {off x m : Nat} (h : i.AtOpening s) (hoff : (s.pre.getA o.s1.toNat).toNat = off)
  (hx : (s.pre.getG o.s2.toNat).toNat = x) (hlt : x < 32) (hm : s.opened.memberAt s.cur x = some m)
include h hoff hx hlt hm

theorem remote_misaligned (hmis : off % 128 ≠ 0) : i.remote o store = .error (.trap 7 (BitVec.ofNat 64 off)) := by
  simp only [Issue.remote, h.pre, hoff, hx, Nat.not_le.2 hlt, if_false, h.state, h.n, hm]
  exact if_pos hmis

/-- An aligned offset within a tile that takes the access, the blocks a load reads not poisoned. -/
theorem remote_reaches (halign : off % 128 = 0) (hin : off < 2 ^ 20)
    (htake : store = true ∧ ((s.opened.core m).tile (off / 2 ^ 15)).takesStore = true ∨ store = false ∧ ((s.opened.core m).tile (off / 2 ^ 15)).takesLoad = true ∧
      poisoned ((s.opened.core m).spad.tag (off / 64)) = false ∧ poisoned ((s.opened.core m).spad.tag (off / 64 + 1)) = false) :
    i.remote o store = .ok (m, off) := by
  simp only [Issue.remote, h.pre, hoff, hx, Nat.not_le.2 hlt, if_false, h.state, h.n, hm, halign, Nat.not_le.2 hin, tileOf]
  rcases htake with ⟨rfl, hstore⟩ | ⟨rfl, hload, h1, h2⟩
  · simp only [if_true, hstore]
    rfl
  · simp only [Bool.false_eq_true, if_false, hload, List.find?_cons, h1, h2, List.find?_nil]
    rfl

end

section
variable {i : Issue} {o : RR} {off m : Nat}

/-- A request that no earlier one of the slot stands in the record for, answered in the cycle it leaves the core. -/
theorem sent_now (hentry : i.pre.entry (96 + i.slot) = none) (hslow : i.pre.slow.getLsbD i.slot = false) (e : IfrEntry) : i.sent e = .ok () := by
  simp only [Issue.sent, hentry, hslow, Bool.false_eq_true, if_false]

theorem remoteLoad_reaches (hr : i.remote o false = .ok (m, off)) (hentry : i.pre.entry (96 + i.slot) = none)
    (hslow : i.pre.slow.getLsbD i.slot = false) :
    let lo := (i.tileSeen m off).spadRead m off 64
    let hi := lo.2.spadRead m (off + 64) 64
    i.remoteLoad o = hi.2.toV o.d.toNat o.dnil (BitVec.ofNat 1024 (lo.1 + 2 ^ 512 * hi.1)) 16 := by
  simp only [Issue.remoteLoad, hr, sent_now hentry hslow, bind, Except.bind]

theorem remoteLoad_stop {e : Stop} (hr : i.remote o false = .error e) : i.remoteLoad o = .error e := by
  simp only [Issue.remoteLoad, hr, bind, Except.bind]

theorem remoteStore_stop {v : Vec} {e : Stop} (hread : i.readReg .v o.d.toNat = .ok v) (hr : i.remote o true = .error e) : i.remoteStore o = .error e := by
  simp only [Issue.remoteStore, hread, hr, bind, Except.bind]

theorem remoteStore_reaches {v : Vec} (hread : i.readReg .v o.d.toNat = .ok v) (hr : i.remote o true = .ok (m, off)) :
    i.remoteStore o = .ok (((i.tileSeen m off).spadWrite m off 64 (v.toNat % 2 ^ 512)).spadWrite m (off + 64) 64 (v.toNat / 2 ^ 512)) := by
  simp only [Issue.remoteStore, hread, hr, bind, Except.bind]

end

/-! ### The rows -/

section
variable {g : Guard} {o : RR} {s : State}

theorem xsend_outcomes (hb : (Instr.xsend g o).begins g s) {v : Vec} {j : Issue}
    (hread : ((Instr.xsend g o).opening s).source 0 (smode o.mode).1 .v o.s1.toNat = .ok (v, j)) :
    let k := (s.pre.getG o.s2.toNat).toNat
    (∀ m, k < 32 → j.s.memberAt s.cur k = some m → j.s.chanCount m o.d.toNat < 4 → s.pre.commands.length < 96 → j.core.commands.length < 96 →
      (Instr.xsend g o).ends s (Claims.starting j (.new .idem 7 (BitVec.ofNat 512 (m % 32 + o.d.toNat * 256)) [v.toNat, m]))) ∧
    (∀ m, k < 32 → j.s.memberAt s.cur k = some m → 4 ≤ j.s.chanCount m o.d.toNat → (Instr.xsend g o).stops s (.trap 14 0)) ∧
    (32 ≤ k ∨ j.s.memberAt s.cur k = none → (Instr.xsend g o).stops s (.trap 4 0)) := by
  intro k
  have hop : slotOp (.x (.xsend g o)) = guarded g none (fun i => i.send o) := rfl
  have hreads := onlyRead_source (i := (Instr.xsend g o).opn) onlyRead_opening hread
  obtain ⟨hn, hpre, -⟩ := onlyRead_facts hreads
  have hk : (j.pre.getG o.s2.toNat).toNat = k := by rw [hpre]
  rw [← hn]
  refine ⟨fun m hlt hm hroom _ hfree => ends_guarded rfl hop hb ?_, fun m hlt hm hfull => stops_guarded rfl hop hb ?_,
    fun hm => stops_guarded rfl hop hb (send_nobody hread hk hm)⟩
  · rw [send_member hread hk hlt hm, if_neg (Nat.not_le.2 hroom)]
    exact command_starts (by rw [cmds_of_onlyRead hreads, List.length_nil, Nat.add_zero]; exact hfree) _
  · rw [send_member hread hk hlt hm, if_pos hfull]

theorem xrld_outcomes (hb : (Instr.xrld g o).begins g s) {m : Nat} (hx : (s.pre.getG o.s2.toNat).toNat < 32)
    (hm : s.opened.memberAt s.cur (s.pre.getG o.s2.toNat).toNat = some m) :
    let k := Instr.xrld g o
    let off := (s.pre.getA o.s1.toNat).toNat
    let tile := (s.opened.core m).tile (off / 2 ^ 15)
    (off % 128 ≠ 0 → k.stops s (.trap 7 (BitVec.ofNat 64 off))) ∧
    (off % 128 = 0 → off < 2 ^ 20 → s.pre.slow.getLsbD k.opn.place = false → s.pre.entry (96 + k.opn.place) = none →
      (tile.st = .ready ∨ tile.st = .draining) → poisoned ((s.opened.core m).spad.tag (off / 64)) = false →
      poisoned ((s.opened.core m).spad.tag (off / 64 + 1)) = false →
      let lo := ((k.opening s).tileSeen m off).spadRead m off 64
      let hi := lo.2.spadRead m (off + 64) 64
      ∀ t, hi.2.toV o.d.toNat o.dnil (BitVec.ofNat 1024 (lo.1 + 2 ^ 512 * hi.1)) 16 = .ok t → k.ends s t) := by
  intro k off tile
  have hopen : (k.opening s).AtOpening s := atOpening_opening k s
  have hop : slotOp (.x (.xrld g o)) = guarded g none (fun i => i.remoteLoad o) := rfl
  refine ⟨fun hmis => stops_guarded rfl hop hb (remoteLoad_stop (remote_misaligned hopen rfl rfl hx hm hmis)), ?_⟩
  intro halign hin hslow hentry htile h1 h2 lo hi t ht
  have hr : (k.opening s).remote o false = .ok (m, off) := remote_reaches hopen rfl rfl hx hm halign hin (.inr ⟨rfl, takesLoad_of htile, h1, h2⟩)
  exact ends_guarded rfl hop hb ((remoteLoad_reaches hr hentry hslow).trans ht)

theorem xrst_outcomes (hb : (Instr.xrst g o).begins g s) {m : Nat} (hx : (s.pre.getG o.s2.toNat).toNat < 32)
    (hm : s.opened.memberAt s.cur (s.pre.getG o.s2.toNat).toNat = some m) :
    let k := Instr.xrst g o
    let i := k.opening s
    let off := (s.pre.getA o.s1.toNat).toNat
    let tile := (s.opened.core m).tile (off / 2 ^ 15)
    (off % 128 ≠ 0 → s.pre.isLent (s.pre.physV o.d.toNat) = false → k.stops s (.trap 7 (BitVec.ofNat 64 off))) ∧
    (off % 128 = 0 → off < 2 ^ 20 → tile.st = .ready → ∀ v, i.readReg .v o.d.toNat = .ok v →
      k.ends s (((i.tileSeen m off).spadWrite m off 64 (v.toNat % 2 ^ 512)).spadWrite m (off + 64) 64 (v.toNat / 2 ^ 512))) := by
  intro k i off tile
  have hopen : i.AtOpening s := atOpening_opening k s
  have hop : slotOp (.x (.xrst g o)) = guarded g none (fun i => i.remoteStore o) := rfl
  refine ⟨fun hmis hlent => stops_guarded rfl hop hb ?_, fun halign hin htile v hv => ends_guarded rfl hop hb ?_⟩
  · exact remoteStore_stop (readReg_opening (.inr hlent)) (remote_misaligned hopen rfl rfl hx hm hmis)
  · exact remoteStore_reaches hv (remote_reaches hopen rfl rfl hx hm halign hin (.inl ⟨rfl, takesStore_of htile⟩))

end

/-- Settles O25: each row by what its channel, or the member's tile, answers. -/
theorem networkOperations : Obligations.NetworkOperations := by
  refine fun g o s => ⟨fun hb v j hread => xsend_outcomes hb hread, fun hb => ?_, fun e he hb a i hread => ?_, fun k store hk hb m => ?_⟩
  · have hop : slotOp (.x (.xrecv g o)) = guarded g none (fun i => i.recv o) := rfl
    exact ⟨fun h => stops_guarded rfl hop hb (recv_empty h), fun x l h t ht => ends_guarded rfl hop hb ((recv_oldest h).trans ht)⟩
  · obtain ⟨l, hslot, hop⟩ := receivesSum_recvAddRows e he g o
    obtain ⟨hn, -⟩ := onlyRead_facts (onlyRead_source (i := (e.1 g o).opn) onlyRead_opening hread)
    refine ⟨fun h => stops_guarded hslot hop hb (recvAdd_empty hread h), fun x l h t ht => ends_guarded hslot hop hb ((recvAdd_oldest hread h).trans ?_)⟩
    rw [← ht, ← hn]
    rfl
  · intro i off x tile hx hm
    rcases hk with ⟨rfl, rfl⟩ | ⟨rfl, rfl⟩
    · obtain ⟨hmis, hreach⟩ := xrld_outcomes hb hx hm
      exact ⟨fun h _ => hmis h, fun halign hin _ => hreach halign hin, fun _ _ h => absurd h Bool.false_ne_true⟩
    · obtain ⟨hmis, hreach⟩ := xrst_outcomes hb hx hm
      exact ⟨fun h hlent => hmis h (hlent rfl), fun _ _ h => absurd h.symm Bool.false_ne_true, fun halign hin _ => hreach halign hin⟩

end Sys2Proof.Machine
end

section
/-! Atomics (08_transfer.md R235; 09_memory_model.md R264): what each row makes of the old word, the command of one without destination, and the
read-modify-write of one whose bundle waits for it. -/

namespace Sys2Proof.Machine

/-! ### The new word and the one returned (R235 Table 7) -/

theorem sext_of_lt {x w : Nat} (h : x < 2 ^ w) : sext x w = if x < 2 ^ (w - 1) then (x : Int) else (x : Int) - 2 ^ w := by
  rw [sext, Nat.mod_eq_of_lt h]
  push_cast
  rfl

/-- On words of `w` bits operation `p` makes `f` of the old word, the source and the comparand, and returns the old word as `r`. -/
def AmoOp.Makes (p : AmoOp) (w : Nat) (f : Nat → Nat → Nat → Nat) (r : Nat → Int) : Prop :=
  ∀ m < 2 ^ w, (∀ x c, p.new w m x c = f m (x % 2 ^ w) (c % 2 ^ w)) ∧ p.ret w m = BitVec.ofInt 64 (r m)

/-- The row is the atomic of that opcode: operation, width, and what it makes. -/
def Atomics (k : Instr) (g : Guard) (o : XA) (opc w : Nat) (f : Nat → Nat → Nat → Nat) (r : Nat → Int) : Prop :=
  ∃ l p, k.slot = some l ∧ slotOp l = guarded g (incOf o.a o.am) (fun i => i.amo o opc) ∧ amoOf opc = (p, w) ∧ (w = 32 ∨ w = 64) ∧ p.Makes w f r

theorem ofNat_eq_ofInt (m : Nat) : BitVec.ofNat 64 m = BitVec.ofInt 64 (m : Int) := (BitVec.ofInt_natCast ..).symm

section
variable (w : Nat)

/-- A word as two's complement. -/
def signedWord (x : Nat) : Int := if x < 2 ^ (w - 1) then (x : Int) else (x : Int) - 2 ^ w

theorem makes_add : AmoOp.add.Makes w (fun m x _ => (m + x) % 2 ^ w) (signedWord w) := fun _ hm => ⟨fun _ _ => rfl, congrArg w64 (sext_of_lt hm)⟩

theorem makes_min : AmoOp.min.Makes w (fun m x _ => if signedWord w m ≤ signedWord w x then m else x) (signedWord w) := fun m hm =>
  ⟨fun x _ => by rw [AmoOp.new, sext_of_lt hm, sext_of_lt (Nat.mod_lt _ (Nat.two_pow_pos w))]; rfl, congrArg w64 (sext_of_lt hm)⟩

theorem makes_max : AmoOp.max.Makes w (fun m x _ => if signedWord w x ≤ signedWord w m then m else x) (signedWord w) := fun m hm =>
  ⟨fun x _ => by rw [AmoOp.new, sext_of_lt hm, sext_of_lt (Nat.mod_lt _ (Nat.two_pow_pos w))]; rfl, congrArg w64 (sext_of_lt hm)⟩

/-- The operations that return the old word as it is. -/
theorem makes_of_new {p : AmoOp} {f : Nat → Nat → Nat → Nat} (hp : p ≠ .add ∧ p ≠ .min ∧ p ≠ .max)
    (h : ∀ m x c, p.new w m x c = f m (x % 2 ^ w) (c % 2 ^ w)) : p.Makes w f (fun x => x) := by
  refine fun m _ => ⟨h m, ?_⟩
  obtain ⟨hadd, hmin, hmax⟩ := hp
  cases p
  case add => exact absurd rfl hadd
  case min => exact absurd rfl hmin
  case max => exact absurd rfl hmax
  all_goals exact ofNat_eq_ofInt m

theorem makes_minn : AmoOp.minn.Makes w (fun m x _ => min m x) (fun x => x) := makes_of_new w (by decide) fun _ _ _ => (Nat.min_def ..).symm

theorem makes_maxn : AmoOp.maxn.Makes w (fun m x _ => max m x) (fun x => x) := makes_of_new w (by decide) fun m x _ => by
  rw [AmoOp.new, Nat.max_comm, Nat.max_def]

end

theorem atomics_amoRows : ∀ e ∈ Claims.amoRows, ∀ g o, Atomics (e.1 g o) g o e.2.1 e.2.2.1 e.2.2.2.1 e.2.2.2.2 := by
  simp only [Claims.amoRows, List.forall_mem_cons, List.not_mem_nil, false_implies, implies_true, and_true]
  exact ⟨fun g o => ⟨.x (.xamoAdd32 g o), _, rfl, rfl, rfl, .inl rfl, makes_add 32⟩, fun g o => ⟨.x (.xamoAdd64 g o), _, rfl, rfl, rfl, .inr rfl, makes_add 64⟩,
    fun g o => ⟨.x (.xamoFaddF32 g o), _, rfl, rfl, rfl, .inl rfl, makes_of_new 32 (by decide) fun _ _ _ => rfl⟩,
    fun g o => ⟨.x (.xamoMin32 g o), _, rfl, rfl, rfl, .inl rfl, makes_min 32⟩, fun g o => ⟨.x (.xamoMin64 g o), _, rfl, rfl, rfl, .inr rfl, makes_min 64⟩,
    fun g o => ⟨.x (.xamoMax32 g o), _, rfl, rfl, rfl, .inl rfl, makes_max 32⟩, fun g o => ⟨.x (.xamoMax64 g o), _, rfl, rfl, rfl, .inr rfl, makes_max 64⟩,
    fun g o => ⟨.x (.xamoMinn32 g o), _, rfl, rfl, rfl, .inl rfl, makes_minn 32⟩, fun g o => ⟨.x (.xamoMinn64 g o), _, rfl, rfl, rfl, .inr rfl, makes_minn 64⟩,
    fun g o => ⟨.x (.xamoMaxn32 g o), _, rfl, rfl, rfl, .inl rfl, makes_maxn 32⟩, fun g o => ⟨.x (.xamoMaxn64 g o), _, rfl, rfl, rfl, .inr rfl, makes_maxn 64⟩,
    fun g o => ⟨.x (.xamoAnd32 g o), _, rfl, rfl, rfl, .inl rfl, makes_of_new 32 (by decide) fun _ _ _ => rfl⟩,
    fun g o => ⟨.x (.xamoAnd64 g o), _, rfl, rfl, rfl, .inr rfl, makes_of_new 64 (by decide) fun _ _ _ => rfl⟩,
    fun g o => ⟨.x (.xamoOr32 g o), _, rfl, rfl, rfl, .inl rfl, makes_of_new 32 (by decide) fun _ _ _ => rfl⟩,
    fun g o => ⟨.x (.xamoOr64 g o), _, rfl, rfl, rfl, .inr rfl, makes_of_new 64 (by decide) fun _ _ _ => rfl⟩,
    fun g o => ⟨.x (.xamoXor32 g o), _, rfl, rfl, rfl, .inl rfl, makes_of_new 32 (by decide) fun _ _ _ => rfl⟩,
    fun g o => ⟨.x (.xamoXor64 g o), _, rfl, rfl, rfl, .inr rfl, makes_of_new 64 (by decide) fun _ _ _ => rfl⟩,
    fun g o => ⟨.x (.xamoSwap32 g o), _, rfl, rfl, rfl, .inl rfl, makes_of_new 32 (by decide) fun _ _ _ => rfl⟩,
    fun g o => ⟨.x (.xamoSwap64 g o), _, rfl, rfl, rfl, .inr rfl, makes_of_new 64 (by decide) fun _ _ _ => rfl⟩,
    fun g o => ⟨.x (.xamoCas32 g o), _, rfl, rfl, rfl, .inl rfl, makes_of_new 32 (by decide) fun _ _ _ => rfl⟩,
    fun g o => ⟨.x (.xamoCas64 g o), _, rfl, rfl, rfl, .inr rfl, makes_of_new 64 (by decide) fun _ _ _ => rfl⟩⟩

/-! ### At issue -/

theorem rd_upd (s : State) (n : Nat) (f : Core → Core) (a k : Nat) : (s.upd n f).rd a k = s.rd a k := rfl

theorem rd_opened (s : State) (a k : Nat) : s.opened.rd a k = s.rd a k := rfl

theorem tagOf_opened (s : State) (a : Nat) : s.opened.tagOf a = s.tagOf a := rfl

theorem tagged_first (s : State) (home x n sp tag : Nat) (apply : State → W64 × State) :
    s.tagged home x n sp tag false apply = (.value (apply s).1, { (apply s).2 with tags := (apply s).2.tags.insert home ⟨x, n, sp, tag, (apply s).1⟩ }) := rfl

section
variable {i : Issue} {s : State} {o : XA} {opc w : Nat} {p : AmoOp}

/-- An atomic without destination starts its command. -/
theorem amo_starts (h : i.AtOpening s) (hopc : amoOf opc = (p, w)) (hd : o.d = 0) (hfree : s.pre.commands.length < 96)
    (hr : Claims.rangeOk s (s.pre.getA o.a.toNat) (w / 8) (w / 8)) :
    i.amo o opc = .ok (Claims.starting i (.new .tagged 2 (opndAmo (s.pre.getA o.a.toNat) (s.pre.getG o.s.toNat) (s.pre.getG o.s3.toNat) opc 0) [])) := by
  simp only [Issue.amo, hd, ne_eq, not_true_eq_false, if_false, hopc, h.pre, h.range hr, bind, Except.bind, h.command hfree]

theorem amo_misaligned (h : i.AtOpening s) (hopc : amoOf opc = (p, w)) (hd : o.d = 0) (hmis : (s.pre.getA o.a.toNat).toNat % (w / 8) ≠ 0) :
    i.amo o opc = .error (.trap 7 (s.pre.getA o.a.toNat)) := by
  simp only [Issue.amo, hd, ne_eq, not_true_eq_false, if_false, hopc, h.pre, range_misaligned i _ hmis, bind, Except.bind]

/-- An atomic that its bundle waits for, answered in the cycle it leaves the core: the word is read, the new one stored as an access of the core, and the
tag that answered is gone with the answer. -/
theorem amo_performs (h : i.AtOpening s) (hopc : amoOf opc = (p, w)) (hd : o.d ≠ 0) {pa : Nat} {repl : Bool} (hentry : s.pre.entry (96 + i.slot) = none)
    (hx : i.examine (s.pre.getA o.a.toNat) (w / 8) (permXR + permXW) true false = .ok (.mem pa repl))
    (hkv : kvSays (s.opened.ctx s.pre.ctx) (s.opened.grpOf s.cur) true (s.pre.getA o.a.toNat) ≠ .refuse) (hslow : s.pre.slow.getLsbD i.slot = false)
    (hpend : s.pre.amoPending (s.pre.getA o.a.toNat) s.pre.nextSeq = false) (hclean : poisoned (s.tagOf pa) = false) :
    let va := s.pre.getA o.a.toNat
    let new := p.new w (s.rd pa (w / 8)) (s.pre.getG o.s.toNat).toNat (s.pre.getG o.s3.toNat).toNat
    let v := p.ret w (s.rd pa (w / 8))
    let t := s.opened.upd s.cur (fun c => { c with nextSeq := (c.nextSeq + 1) % 2 ^ 24 })
    let u := t.coreStore s.cur pa (w / 8) (t.ringValue s.pre.ctx va pa (w / 8) new)
    i.amo o opc = .ok ({ i with s := { u with tags :=
      (u.tags.insert (homeOf pa) ⟨s.pre.ctx, s.cur, 0, s.pre.nextSeq, v⟩).forget s.pre.ctx s.cur 0 s.pre.nextSeq } }.resultG o.d.toNat v 4) := by
  intro va new v t u
  have hsent (e : IfrEntry) : i.sent e = .ok () := sent_now (by rw [h.pre]; exact hentry) (by rw [h.pre]; exact hslow) e
  have hctx : i.ctx = s.opened.ctx s.pre.ctx := by rw [Issue.ctx, h.state, h.pre]
  simp only [Issue.amo, hd, ne_eq, not_false_eq_true, if_true, Issue.amoWait, h.pre, hentry, hopc, Bool.false_eq_true, if_false, hx, bind, Except.bind,
    hctx, h.state, h.n, hkv, h.core, hpend, tagOf_opened, hclean, hsent, tagged_first, amoApply, rd_upd, rd_opened, h.ctxNo]
  rfl

end

/-- Settles O26: without destination the row starts a command; with one, its bundle makes the read-modify-write of the row's operation. -/
theorem atomicsReadModifyAndWrite : Obligations.AtomicsReadModifyAndWrite := by
  intro e he g o s hb va x c size i
  obtain ⟨l, p, hslot, hop, hopc, hw, hmakes⟩ := atomics_amoRows e he g o
  have hopen : i.AtOpening s := atOpening_openingAt _ s o.a o.am
  refine ⟨fun hd hfree hr => ends_guardedAt hslot hop hb (amo_starts hopen hopc hd hfree hr),
    fun hd hmis => stops_guardedAt hslot hop hb (amo_misaligned hopen hopc hd hmis), ?_⟩
  intro pa repl hd hentry hx hkv hslow hpend hclean old new w u v
  have hplace : i.slot = (e.1 g o).opn.place := (openingAt_eq ..).2
  have hold : old < 2 ^ e.2.2.1 := by
    have hlt := rd_lt s pa size
    rwa [show 8 * size = e.2.2.1 by rcases hw with h | h <;> simp only [size, h]] at hlt
  obtain ⟨hnew, hret⟩ := hmakes old hold
  have hrun := amo_performs hopen hopc hd (hplace ▸ hentry) hx hkv (hplace ▸ hslow) hpend hclean
  rw [hnew, hret] at hrun
  exact ends_guardedAt hslot hop hb hrun

end Sys2Proof.Machine
end

section
/-! Fences, releases and acquires, near-memory commands and block tags (08_transfer.md R236 to R241, R245, R246). -/

namespace Sys2Proof.Machine

section
variable {i : Issue} {s : State}

/-! ### Fences and releases (R236 to R238, R245) -/

/-- The next entry allocated is the first after a fence that stands alone. -/
theorem Issue.AtOpening.pointSeq (h : i.AtOpening s) : i.pointSeq = s.pre.nextSeq % 2 ^ 24 := by
  simp only [Issue.pointSeq, h.core, h.cmds, List.filter_nil, List.length_nil, Nat.add_zero]

theorem fence_eq (h : i.AtOpening s) (scope : Nat) :
    i.fence scope = i.upd (fun c => { c with fenceX := true, fseq := s.pre.nextSeq % 2 ^ 24, fscope := scope }) := by
  rw [Issue.fence, h.pointSeq]

theorem nmFence_eq (h : i.AtOpening s) : i.nmFence = i.upd (fun c => { c with fenceN := true, fseqN := s.pre.nextSeq % 2 ^ 24 }) := by
  rw [Issue.nmFence, h.pointSeq]

theorem release_starts (h : i.AtOpening s) (o : XO) (hr : Claims.rangeOk s (s.pre.getA o.a.toNat) 8 8)
    (hbar : wvBars (s.ctx s.me.ctx) (s.pre.getA o.a.toNat) = false) (hfree : s.pre.commands.length < 96) :
    i.release o = .ok ((Claims.starting i (.new .tagged 8
      (BitVec.ofNat 512 ((s.pre.getA o.a.toNat).toNat + (s.pre.getG o.g.toNat).toNat * 2 ^ 64 + o.scope.toNat * 2 ^ 128)) [])).upd
        (fun c => { c with fenceR := true, relblk := c.relblk ++ [(s.pre.getA o.a.toNat).toNat / 64 * 64] })) := by
  simp only [Issue.release, h.pre, h.range hr, h.ctx, hbar, Bool.false_eq_true, if_false, h.command hfree, bind, Except.bind]

theorem release_misaligned (h : i.AtOpening s) (o : XO) (hmis : (s.pre.getA o.a.toNat).toNat % 8 ≠ 0) :
    i.release o = .error (.trap 7 (s.pre.getA o.a.toNat)) := by
  simp only [Issue.release, h.pre, range_misaligned i _ hmis, bind, Except.bind]

/-! ### Acquires (R239, R240) -/

theorem xLoad_mem {j : Issue} {d pa v : Nat} {va : W64} {repl : Bool} (hx : i.examine va 8 permXR false false = .ok (.mem pa repl))
    (hl : i.loadAt va pa 8 permXR = .ok (v, j)) : i.xLoad d va = .ok (j.resultG d (BitVec.ofNat 64 v) 4) := by
  simp only [Issue.xLoad, hx, hl, bind, Except.bind]

theorem xLoad_dev {d off : Nat} {va : W64} {p : DevPage} (hx : i.examine va 8 permXR false false = .ok (.dev p off)) :
    i.xLoad d va = .ok ({ i with s := (i.s.devRead i.n p off 8).2 }.resultG d (BitVec.ofNat 64 (i.s.devRead i.n p off 8).1) 4) := by
  simp only [Issue.xLoad, hx, bind, Except.bind]

/-- How far the version in force is past the one asked for, counted modulo 2^32. -/
theorem toNat_sub_extractHigh (v : W32) (x : W64) : (v - x.extractLsb' 32 32).toNat = (v.toNat + 2 ^ 32 - x.toNat / 2 ^ 32) % 2 ^ 32 := by
  have hx := x.isLt
  rw [BitVec.toNat_sub, BitVec.extractLsb'_toNat, Nat.shiftRight_eq_div_pow]
  omega

section
variable {o : XA} {x : W64} {e : WvEntry} (h : i.AtOpening s) (hg : s.pre.getG o.s.toNat = x) (he : Tbl.get .none (s.ctx s.me.ctx).wvt (x.toNat % 2 ^ 12) = e)
include h hg he

theorem xvld_undefined (hbad : x.toNat / 2 ^ 12 % 2 ^ 20 ≠ 0 ∨ e.ver = 0) : i.xvld o = .error (.trap 4 0) := by
  simp only [Issue.xvld, h.pre, hg, h.ctx, he, bits_eq]
  exact if_pos hbad

/-- A version not yet reached makes the bundle wait, once its word has been examined. -/
theorem xvld_waits (hword : x.toNat / 2 ^ 12 % 2 ^ 20 = 0) (hver : e.ver ≠ 0) {pa : Nat} {repl : Bool}
    (hx : i.examine (s.pre.getA o.a.toNat) 8 permXR false false = .ok (.mem pa repl)) (hbehind : 2 ^ 31 ≤ (e.ver - x.extractLsb' 32 32).toNat) :
    i.xvld o = .error .wait := by
  rw [toNat_sub_extractHigh] at hbehind
  simp only [Issue.xvld, h.pre, hg, h.ctx, he, bits_eq, hword, hver, hx, hbehind, bind, Except.bind]
  rfl

/-- With the version reached the core acquires, then loads the word. -/
theorem xvld_reached (hword : x.toNat / 2 ^ 12 % 2 ^ 20 = 0) (hver : e.ver ≠ 0) {pa v : Nat} {repl : Bool} {j : Issue}
    (hx : i.examine (s.pre.getA o.a.toNat) 8 permXR false false = .ok (.mem pa repl)) (hreached : (e.ver - x.extractLsb' 32 32).toNat < 2 ^ 31)
    (hl : ({ i with s := i.s.acquire s.cur e.time } : Issue).loadAt (s.pre.getA o.a.toNat) pa 8 permXR = .ok (v, j)) :
    i.xvld o = .ok (j.resultG o.d.toNat (BitVec.ofNat 64 v) 4) := by
  rw [toNat_sub_extractHigh] at hreached
  simp only [h.n, h.pre] at hl
  simp only [Issue.xvld, h.pre, hg, h.ctx, he, bits_eq, hword, hver, hx, Nat.not_le.2 hreached, h.n, hl, bind, Except.bind]
  rfl

end

/-! ### Near-memory commands (R241) -/

section
variable {o : RR} {off : Nat} (h : i.AtOpening s) (hoff : (s.pre.getA o.s1.toNat).toNat = off)
include h hoff

theorem nmCommand_layout (hin : off + 64 ≤ spadSize s.cur) (hbar : i.layoutBars off 64 0 = true) :
    i.nmCommand o = .error (.trap 11 (BitVec.ofNat 64 (off / 64 * 64))) := by
  simp only [Issue.nmCommand, h.pre, hoff, h.n, hbar, Bool.and_true]
  exact if_pos (decide_eq_true hin)

theorem nmCommand_misaligned (hmis : off % 64 ≠ 0) (hbar : spadSize s.cur < off + 64 ∨ i.layoutBars off 64 0 = false) :
    i.nmCommand o = .error (.trap 7 (BitVec.ofNat 64 off)) := by
  have hpass : (decide (off + 64 ≤ spadSize s.cur) && i.layoutBars off 64 0) = false := by
    rcases hbar with h | h
    · rw [decide_eq_false (Nat.not_le.2 h), Bool.false_and]
    · rw [h, Bool.and_false]
  simp only [Issue.nmCommand, h.pre, hoff, h.n, hpass, Bool.false_eq_true, if_false]
  exact if_pos hmis

theorem nmCommand_outside (halign : off % 64 = 0) (hout : spadSize s.cur < off + 64) : i.nmCommand o = .error (.trap 9 (BitVec.ofNat 64 off)) := by
  simp only [Issue.nmCommand, h.pre, hoff, h.n, Nat.not_le.2 hout, decide_false, Bool.false_and, Bool.false_eq_true, if_false, halign]
  exact if_pos hout

theorem nmCommand_starts (halign : off % 64 = 0) (hin : off + 64 ≤ spadSize s.cur) (hbar : i.layoutBars off 64 0 = false)
    (hread : i.tilesReadable off 64 = .ok ()) (hclean : i.notPoisoned off 64 = .ok ()) (hfree : s.pre.commands.length < 96) :
    i.nmCommand o = .ok (Claims.starting i (.new .tagged 9 (s.pre.spad.block (off / 64)) [])) := by
  simp only [Issue.nmCommand, h.pre, hoff, h.n, hbar, Bool.and_false, Bool.false_eq_true, if_false, halign, Nat.not_lt.2 hin, hread, hclean, h.core,
    h.command hfree, bind, Except.bind]
  rfl

end

/-! ### Tags of blocks (R246) -/

theorem tagLoad_mem {j : Issue} {o : RR} {va : W64} {pa : Nat} {repl : Bool} {t : BitVec 16} (hva : i.pre.getA o.s1.toNat = va)
    (hx : i.examine va 64 permXR false false = .ok (.mem pa repl)) (ht : i.tagAt va pa permXR = .ok (t, j)) :
    i.tagLoad o = .ok (j.resultG o.d.toNat (t.setWidth 64) 4) := by
  simp only [Issue.tagLoad, hva, hx, ht, bind, Except.bind]

section
variable {j : Issue} {o : RR} {x : W64}

theorem tagStore_undefined (hread : i.rrG2 o = .ok (x, j)) (hx : 2 ^ 16 ≤ x.toNat ∨ codeDefined (x.toNat / 256) = false) :
    i.tagStore o = .error (.trap 4 0) := by
  simp only [Issue.tagStore, hread, bind, Except.bind]
  exact if_pos (hx.imp_right fun h => by rw [h]; rfl)

/-- A defined tag at a block that is not poisoned is stored there, or committed to every replica. -/
theorem tagStore_mem {va : W64} {pa : Nat} {repl : Bool} (hva : i.pre.getA o.s1.toNat = va) (hread : i.rrG2 o = .ok (x, j)) (hlt : x.toNat < 2 ^ 16)
    (hcode : codeDefined (x.toNat / 256) = true) (hx : j.examine va 64 permXW true false = .ok (.mem pa repl))
    (hkv : kvSays j.ctx (j.s.grpOf j.n) true va ≠ .refuse) (hclean : poisoned (j.s.tagOf pa) = false) :
    let store (u : State) : State := (u.coreWriteTime j.n (globalLine pa)).putTag pa (x.setWidth 16)
    i.tagStore o = if repl then j.commitLine va pa store (fun u a => u.putTag a (x.setWidth 16)) else .ok { j with s := store j.s } := by
  simp only [Issue.tagStore, hva, hread, Nat.not_le.2 hlt, hcode, hx, hkv, hclean, bind, Except.bind]
  rfl

end

end

/-! ### The rows -/

/-- A second g source, read, leaves the issue at its core. -/
theorem n_of_rrG2 {l : SlotInstr} {s : State} {o : RR} {x : W64} {i : Issue} (h : (l.opening s).rrG2 o = .ok (x, i)) : i.n = s.cur := by
  obtain ⟨y, j, hread⟩ := sourceG_ok (l.opening s) 1 (smode o.mode).2 o.s2.toNat
  rw [Issue.rrG2, hread] at h
  obtain ⟨-, rfl⟩ := Prod.mk.inj (Except.ok.inj h)
  exact (onlyRead_facts (onlyRead_source onlyRead_opening hread)).1

section
variable {g : Guard} {s : State}

theorem xrel_outcomes {o : XO} (hb : (Instr.xrel g o).begins g s) :
    let va := s.pre.getA o.a.toNat
    let x := s.pre.getG o.g.toNat
    (Claims.rangeOk s va 8 8 → wvBars (s.ctx s.me.ctx) va = false → s.pre.commands.length < 96 →
      (Instr.xrel g o).ends s ((Claims.starting ((Instr.xrel g o).openingAt s o.a o.am)
        (.new .tagged 8 (BitVec.ofNat 512 (va.toNat + x.toNat * 2 ^ 64 + o.scope.toNat * 2 ^ 128)) [])).upd
          (fun c => { c with fenceR := true, relblk := c.relblk ++ [va.toNat / 64 * 64] }))) ∧
    (va.toNat % 8 ≠ 0 → (Instr.xrel g o).stops s (.trap 7 va)) := by
  have hop : slotOp (.x (.xrel g o)) = guarded g (incOf o.a o.am) (fun i => i.release o) := rfl
  have hopen := atOpening_openingAt (.xrel g o) s o.a o.am
  exact ⟨fun hr hbar hfree => ends_guardedAt rfl hop hb (release_starts hopen o hr hbar hfree),
    fun hmis => stops_guardedAt rfl hop hb (release_misaligned hopen o hmis)⟩

/-- XACQ is the 64-bit load at its address register. -/
theorem xacq_ends {o : XO} (hb : (Instr.xacq g o).begins g s) {j : Issue}
    (h : ((Instr.xacq g o).openingAt s o.a o.am).xLoad o.g.toNat (s.pre.getA o.a.toNat) = .ok j) : (Instr.xacq g o).ends s j := by
  have hop : slotOp (.x (.xacq g o)) = guarded g (incOf o.a o.am) (fun i => i.xLoad o.g.toNat (i.pre.getA o.a.toNat)) := rfl
  rw [← (atOpening_openingAt (.xacq g o) s o.a o.am).pre] at h
  exact ends_guardedAt rfl hop hb h

theorem xvld_outcomes {o : XA} (hb : (Instr.xvld g o).begins g s) :
    let va := s.pre.getA o.a.toNat
    let x := s.pre.getG o.s.toNat
    let i := (Instr.xvld g o).openingAt s o.a o.am
    let e := Tbl.get .none (s.ctx s.me.ctx).wvt (x.toNat % 2 ^ 12)
    (x.toNat / 2 ^ 12 % 2 ^ 20 ≠ 0 ∨ e.ver = 0 → (Instr.xvld g o).stops s (.trap 4 0)) ∧
    (∀ pa repl, x.toNat / 2 ^ 12 % 2 ^ 20 = 0 → e.ver ≠ 0 → i.examine va 8 permXR false false = .ok (.mem pa repl) →
      (2 ^ 31 ≤ (e.ver - x.extractLsb' 32 32).toNat → (Instr.xvld g o).stops s .wait) ∧
      (∀ v j, (e.ver - x.extractLsb' 32 32).toNat < 2 ^ 31 → ({ i with s := i.s.acquire s.cur e.time } : Issue).loadAt va pa 8 permXR = .ok (v, j) →
        (Instr.xvld g o).ends s (j.resultG o.d.toNat (BitVec.ofNat 64 v) 4))) := by
  intro va x i e
  have hop : slotOp (.x (.xvld g o)) = guarded g (incOf o.a o.am) (fun i => i.xvld o) := rfl
  have hopen : i.AtOpening s := atOpening_openingAt (.xvld g o) s o.a o.am
  exact ⟨fun hbad => stops_guardedAt rfl hop hb (xvld_undefined hopen rfl rfl hbad), fun pa repl hword hver hx =>
    ⟨fun hbehind => stops_guardedAt rfl hop hb (xvld_waits hopen rfl rfl hword hver hx hbehind),
      fun v j hreached hl => ends_guardedAt rfl hop hb (xvld_reached hopen rfl rfl hword hver hx hreached hl)⟩⟩

theorem xnmc_outcomes {o : RR} (hb : (Instr.xnmc g o).begins g s) :
    let off := (s.pre.getA o.s1.toNat).toNat
    let i := (Instr.xnmc g o).opening s
    (off % 64 = 0 → off + 64 ≤ spadSize s.cur → i.layoutBars off 64 0 = false → i.tilesReadable off 64 = .ok () → i.notPoisoned off 64 = .ok () →
      s.pre.commands.length < 96 →
      (Instr.xnmc g o).ends s (Claims.starting i (.new .tagged 9 (s.pre.spad.block (off / 64)) []))) ∧
    (off + 64 ≤ spadSize s.cur → i.layoutBars off 64 0 = true → (Instr.xnmc g o).stops s (.trap 11 (BitVec.ofNat 64 (off / 64 * 64)))) ∧
    (off % 64 ≠ 0 → spadSize s.cur < off + 64 ∨ i.layoutBars off 64 0 = false → (Instr.xnmc g o).stops s (.trap 7 (BitVec.ofNat 64 off))) ∧
    (off % 64 = 0 → spadSize s.cur < off + 64 → (Instr.xnmc g o).stops s (.trap 9 (BitVec.ofNat 64 off))) := by
  intro off i
  have hop : slotOp (.x (.xnmc g o)) = guarded g none (fun i => i.nmCommand o) := rfl
  have hopen : i.AtOpening s := atOpening_opening (.xnmc g o) s
  exact ⟨fun halign hin hbar hread hclean hfree => ends_guarded rfl hop hb (nmCommand_starts hopen rfl halign hin hbar hread hclean hfree),
    fun hin hbar => stops_guarded rfl hop hb (nmCommand_layout hopen rfl hin hbar),
    fun hmis hbar => stops_guarded rfl hop hb (nmCommand_misaligned hopen rfl hmis hbar),
    fun halign hout => stops_guarded rfl hop hb (nmCommand_outside hopen rfl halign hout)⟩

theorem xtagst_outcomes {o : RR} (hb : (Instr.xtagst g o).begins g s) {x : W64} {i : Issue} (hread : ((Instr.xtagst g o).opening s).rrG2 o = .ok (x, i)) :
    let va := s.pre.getA o.s1.toNat
    (2 ^ 16 ≤ x.toNat ∨ codeDefined (x.toNat / 256) = false → (Instr.xtagst g o).stops s (.trap 4 0)) ∧
    (∀ pa r, x.toNat < 2 ^ 16 → codeDefined (x.toNat / 256) = true → i.examine va 64 permXW true false = .ok (.mem pa r) →
      kvSays i.ctx (i.s.grpOf s.cur) true va ≠ .refuse → poisoned (i.s.tagOf pa) = false →
      let store (u : State) : State := (u.coreWriteTime s.cur (globalLine pa)).putTag pa (x.setWidth 16)
      (r = false → (Instr.xtagst g o).ends s { i with s := store i.s }) ∧
      (∀ j, r = true → i.commitLine va pa store (fun u a => u.putTag a (x.setWidth 16)) = .ok j → (Instr.xtagst g o).ends s j)) := by
  intro va
  have hop : slotOp (.x (.xtagst g o)) = guarded g none (fun i => i.tagStore o) := rfl
  have hva : ((Instr.xtagst g o).opening s).pre.getA o.s1.toNat = va := by rw [(atOpening_opening (.xtagst g o) s).pre]
  rw [← n_of_rrG2 hread]
  refine ⟨fun hx => stops_guarded rfl hop hb (tagStore_undefined hread hx), fun pa r hlt hcode hx hkv hclean => ?_⟩
  have hrun := tagStore_mem hva hread hlt hcode hx hkv hclean
  refine ⟨fun hr => ends_guarded rfl hop hb (hrun.trans ?_), fun j hr hj => ends_guarded rfl hop hb (hrun.trans ?_)⟩
  · rw [hr]; rfl
  · rw [hr]; exact hj

end

/-- Settles O27: each row by what its address, its operand or the block it reads answers. -/
theorem orderingAndTagOperations : Obligations.OrderingAndTagOperations := by
  refine fun g s => ⟨fun o hb => ?_, fun hb => ?_, fun o hb => xrel_outcomes hb, fun o hb pa repl v j hx hl => ?_, fun o hb d off hx => ?_,
    fun o hb => xvld_outcomes hb, fun o hb => xnmc_outcomes hb, fun o hb pa repl t j hx ht => ?_, fun o hb x i hread => xtagst_outcomes hb hread⟩
  · have hop : slotOp (.x (.xfence g o)) = guarded g (incOf o.a o.am) (fun i => .ok (i.fence o.scope.toNat)) := rfl
    exact ends_guardedAt rfl hop hb (congrArg Except.ok (fence_eq (atOpening_openingAt _ s o.a o.am) _))
  · have hop : slotOp (.x (.xnmfence g)) = guarded g none (fun i => .ok i.nmFence) := rfl
    exact ends_guarded rfl hop hb (congrArg Except.ok (nmFence_eq (atOpening_opening _ s)))
  · exact xacq_ends hb (xLoad_mem hx hl)
  · exact xacq_ends hb (xLoad_dev hx)
  · have hop : slotOp (.x (.xtagld g o)) = guarded g none (fun i => i.tagLoad o) := rfl
    have hva : ((Instr.xtagld g o).opening s).pre.getA o.s1.toNat = s.pre.getA o.s1.toNat := by rw [(atOpening_opening (.xtagld g o) s).pre]
    exact ends_guarded rfl hop hb (tagLoad_mem hva hx ht)

end Sys2Proof.Machine
end

section
/-! Commands at work: what one event of an entry does, the block it brings, the tag it brings it with, and the end of a wait for a page
(08_transfer.md R224 to R227, R230; 03_numbers.md R65, R70, R71). -/

namespace Sys2Proof.Machine

/-! ### One event of an entry at work (R224, R225) -/

section
variable {s t : State} {n k : Nat} {e : IfrEntry} {row : String} {want : IfrEntry → Bool}

theorem engRow_done (hw : s.working n k = some e) (hwant : want e = true) (hp : e.posted = none) (hnext : s.engNext n k e = .done t) :
    s.engRow n k row want = .next (t.entrySent n k (s.entryHome n e)) := by
  simp only [State.engRow, hw, hwant, State.engEvent, hp, hnext, Option.isSome_none, Bool.false_eq_true, if_false, if_true]

theorem engRow_absent {va : W64} {kd need : Nat} {write : Bool} (hw : s.working n k = some e) (hwant : want e = true) (hp : e.posted = none)
    (hk : k < 96) (hnext : s.engNext n k e = .absent va kd need write) :
    s.engRow n k row want = .next ((s.postFault ⟨va, (s.core n).ctx, kd, s.engSrc n e, need + (if write then 2 ^ 15 else 0), k⟩).updEntry n k
      (fun e => { e with posted := some (pageOf va) })) := by
  simp only [State.engRow, hw, hwant, State.engEvent, hp, hnext, Option.isSome_none, Bool.false_eq_true, if_false, if_true, Nat.not_le.2 hk]

theorem reach_go {va : W64} {need pa : Nat} {write : Bool} {f : Option Nat → EngOut} (h : s.engineAt n va need write = .go pa) :
    s.reach n va need write f = f (some pa) := by
  rw [State.reach, h]

theorem reach_absent {va : W64} {need kd : Nat} {write : Bool} {f : Option Nat → EngOut} (h : s.engineAt n va need write = .absent kd) :
    s.reach n va need write f = .absent va kd need write := by
  rw [State.reach, h]

/-- A copying command whose blocks are not all confirmed takes its next block. -/
theorem engNext_copies (hc : e.copies = true) (hlt : e.prog < e.total) : s.engNext n k e = s.copyStep n k e := by
  have hkind : e.kind = 3 ∨ e.kind = 4 ∨ e.kind = 5 ∨ e.kind = 6 ∨ e.kind = 13 := by simpa [IfrEntry.copies, or_assoc] using hc
  rcases hkind with h | h | h | h | h <;> simp only [State.engNext, h, hc, if_true, Nat.not_le.2 hlt, if_false]

end

/-! ### The block brought (R226, R227, R230) -/

section
variable {s : State} {n k : Nat} {e : IfrEntry} (hw : s.working n k = some e) (hlt : e.prog < e.total) (hp : e.posted = none)
include hw hlt hp

/-- ENGINE_BLOCK_CONFIRM of a copying command whose next block can be brought. -/
theorem blockConfirm_done {t : State} (hc : e.copies = true) (hstep : s.copyStep n k e = .done t) :
    exec (.engineBlockConfirm n k) s = .next (t.entrySent n k (s.entryHome n e)) := by
  refine engRow_done hw ?_ hp ((engNext_copies hc hlt).trans hstep)
  rw [hc, decide_eq_true hlt, Bool.and_self]

end

theorem blockIn_stores {s : State} {n b j tile pa : Nat} {d : Desc} {reint : Bool} {va : W64} {tag : BitVec 16} {next : State → EngOut}
    (hgo : s.engineAt n va (permXR + permVT) false = .go pa)
    (htag : storedTag (d.layout % 256) b reint (s.tagOf pa) (s.core n).spad tile (s.leadTag n b j va) = some tag) :
    s.blockIn n d tile b j reint va next = next ((s.writeTime 0 (spadLine n (64 * (512 * tile + b)))).1.upd n
      (fun c => { c with spad := c.spad.setBlock (512 * tile + b) (s.rdBlock pa) tag })) := by
  rw [State.blockIn, reach_go hgo]
  simp only [State.arriving, htag]

theorem blockOut_writes {s : State} {n k b tile pa : Nat} {reint : Bool} {va : W64} {next : State → EngOut}
    (hleave : leavesOk ((s.core n).tile tile).layout.toNat b reint ((s.core n).spad.tag (512 * tile + b - b % 8)) ((s.core n).spad.tag (512 * tile + b)) = true)
    (hgo : s.engineAt n va (permXW + permVT) true = .go pa) :
    s.blockOut n k tile b reint va next =
      next (s.commandBlock n k va pa ((s.core n).spad.block (512 * tile + b)) ((s.core n).spad.tag (512 * tile + b))) := by
  simp only [State.blockOut, hleave, Bool.not_true, Bool.false_eq_true, if_false, reach_go hgo]

theorem blockWb_stores {s : State} {n j pa : Nat} {d : Desc} {reint : Bool} {va : W64} {next : State → EngOut}
    (hgo : s.engineAt n va permWB false = .go pa) (hcode : codeDefined (tagCode (s.tagOf pa)) = true)
    (hfmt : d.fmt = 0 ∨ tagCode (s.tagOf pa) = d.fmt ∨ tagCode (s.tagOf pa) = 0 ∨ reint = true) :
    s.blockWb n d j reint va next = next (s.upd n (fun c => { c with wbuf := c.wbuf.setBlock (d.woff + j) (s.rdBlock pa) (s.tagOf pa) })) := by
  rw [State.blockWb, reach_go hgo]
  refine if_neg ?_
  simp only [hcode]
  rcases hfmt with h | h | h | h <;> simp [h]

theorem copies_of_kind {e : IfrEntry} (h : e.kind = 3 ∨ e.kind = 4 ∨ e.kind = 13) : e.copies = true := by
  rcases h with h | h | h <;> simp only [IfrEntry.copies, h] <;> rfl

theorem copiesBringTheirBlocks : Claims.CopiesBringTheirBlocks := by
  intro s n k e hw hlt hp d t reint j b va sp moved
  refine ⟨fun pa tag hkind hgo htag => ?_, fun pa hkind hleave hgo => ?_, fun pa hkind hgo hcode hfmt => ?_, fun kd hkind hk hgo => ?_⟩
  · refine blockConfirm_done hw hlt hp (copies_of_kind (.inl hkind)) ?_
    simp only [State.copyStep, hkind]
    exact blockIn_stores hgo htag
  · refine blockConfirm_done hw hlt hp (copies_of_kind (.inr (.inl hkind))) ?_
    simp only [State.copyStep, hkind]
    exact blockOut_writes hleave hgo
  · refine blockConfirm_done hw hlt hp (copies_of_kind (.inr (.inr hkind))) ?_
    simp only [State.copyStep, hkind]
    exact blockWb_stores hgo hcode hfmt
  · have hc := copies_of_kind (.inl hkind)
    have hnext : s.engNext n k e = .absent va kd (permXR + permVT) false := by
      rw [engNext_copies hc hlt]
      simp only [State.copyStep, hkind]
      exact reach_absent hgo
    have hsrc : s.engSrc n e = srcOf n := by simp only [State.engSrc, hkind]
    rw [← hsrc]
    exact engRow_absent hw (by rw [hc, decide_eq_true hlt, Bool.and_self]) hp hk hnext

/-! ### The tag of a block brought into a tile (R226; 03_numbers.md R65, R70, R71) -/

section
variable {f b t : Nat} {reint : Bool} {tag head : BitVec 16} {sp : Memory} {lead : Option (BitVec 16)}

/-- Block 0 of a nested stripe holds plane 7. -/
theorem planeCode_zero (hnest : nestedCode f = true) : planeCode f 0 = 0x17 := by simp only [planeCode, hnest, if_true, Nat.zero_mod, Nat.sub_zero]

theorem scaleTorn_of_plane (hnest : nestedCode f = true) (hclean : poisoned head = false) (hcode : tagCode head = planeCode f 0) :
    scaleTorn f head tag = decide (tagScale tag ≠ tagScale head) := by
  have hz : decide (tagCode head = 0) = false := by rw [hcode, planeCode_zero hnest]; rfl
  simp only [scaleTorn, hclean, hz, decide_eq_true hcode, Bool.not_false, Bool.true_and, Bool.false_and, Bool.or_false]

theorem scaleTorn_of_untagged (hnest : nestedCode f = true) (hclean : poisoned head = false) (hcode : tagCode head = 0) :
    scaleTorn f head tag = decide (tagScale tag ≠ 0x7F) := by
  simp only [scaleTorn, hclean, hcode, planeCode_zero hnest]
  rfl

theorem storedTag_poisoned (h : poisoned tag = true) : storedTag f b reint tag sp t lead = some tag := by
  simp only [storedTag, h, if_true]

section
variable (hclean : poisoned tag = false)
include hclean

theorem storedTag_undefined (hcode : codeDefined (tagCode tag) = false) : storedTag f b reint tag sp t lead = none := by
  simp only [storedTag, hclean, hcode, Bool.false_eq_true, if_false, Bool.not_false, if_true]

variable (hcode : codeDefined (tagCode tag) = true)
include hcode

theorem storedTag_format_zero : storedTag 0 b reint tag sp t lead = some tag := by
  simp only [storedTag, hclean, hcode, Bool.false_eq_true, if_false, Bool.not_true, if_true]

variable (hf : f ≠ 0)
include hf

/-- A block of another code is stored under the tile's own, or not at all. -/
theorem storedTag_other (hother : tagCode tag ≠ planeCode f b) : storedTag f b reint tag sp t lead =
    if tagCode tag = 0 ∨ reint = true then some (mkTag (planeCode f b)
      (if nestedCode f = true ∧ b % 8 ≠ 0 ∧ poisoned (sp.tag (512 * t + b - b % 8)) = false then tagScale (sp.tag (512 * t + b - b % 8)) else 0x7F))
    else none := by
  simp only [storedTag, hclean, hcode, Bool.false_eq_true, if_false, Bool.not_true, hf, hother, Bool.not_eq_true']

variable (hown : tagCode tag = planeCode f b)
include hown

/-- A block of the tile's own code that no other scale can contradict. -/
theorem storedTag_own (h : nestedCode f = false ∨ reint = true ∨ b % 8 = 0) : storedTag f b reint tag sp t lead = some tag := by
  have hskip : (nestedCode f && !reint && decide (b % 8 ≠ 0)) = false := by
    rcases h with h | h | h <;> simp [h]
  simp only [storedTag, hclean, hcode, Bool.false_eq_true, if_false, Bool.not_true, hf, if_pos hown, hskip, Bool.false_and]

variable (hnest : nestedCode f = true) (hreint : reint = false) (hb : b % 8 ≠ 0)
include hnest hreint hb

theorem storedTag_own_lead {l : BitVec 16} : storedTag f b reint tag sp t (some l) = if scaleTorn f l tag = true then none else some tag := by
  simp only [storedTag, hclean, hcode, Bool.false_eq_true, if_false, Bool.not_true, hf, if_pos hown, hnest, hreint, Bool.not_false,
    decide_eq_true hb, Bool.true_and]

theorem storedTag_own_head : storedTag f b reint tag sp t none =
    if tagCode (sp.tag (512 * t + b - b % 8)) = planeCode f 0 ∧ scaleTorn f (sp.tag (512 * t + b - b % 8)) tag = true then none else some tag := by
  simp only [storedTag, hclean, hcode, Bool.false_eq_true, if_false, Bool.not_true, hf, if_pos hown, hnest, hreint, Bool.not_false,
    decide_eq_true hb, Bool.true_and, Bool.and_eq_true, decide_eq_true_eq]

end

end

theorem blocksTakeTheirTileTags : Claims.BlocksTakeTheirTileTags := by
  intro f b t reint tag sp lead head
  refine ⟨storedTag_poisoned, storedTag_undefined, fun hclean hcode => ⟨?_, fun hf hown => ⟨storedTag_own hclean hcode hf hown,
    fun hnest hreint hb => ⟨?_, ?_, ?_⟩⟩, fun hf hother hraw hreint => ?_, fun hf hother htake => ?_⟩⟩
  · rintro rfl
    exact storedTag_format_zero hclean hcode
  · rintro l rfl hl
    have hlead := storedTag_own_lead (t := t) (sp := sp) hclean hcode hf hown hnest hreint hb (l := l)
    refine ⟨fun hplane => ?_, fun hun => ?_⟩
    · rw [hlead, scaleTorn_of_plane hnest hl hplane]
      simp
    · rw [hlead, scaleTorn_of_untagged hnest hl hun]
      simp
  · rintro rfl hh hplane
    rw [storedTag_own_head hclean hcode hf hown hnest hreint hb, scaleTorn_of_plane hnest hh hplane]
    simp [head, hplane]
  · rintro rfl hplane
    rw [storedTag_own_head hclean hcode hf hown hnest hreint hb]
    exact if_neg fun h => hplane h.1
  · rw [storedTag_other hclean hcode hf hother]
    exact if_neg (by simp [hraw, hreint])
  · rw [storedTag_other hclean hcode hf hother]
    exact if_pos htake

/-! ### The end of a wait (R225) -/

theorem aWaitEndsWithItsPage : Claims.AWaitEndsWithItsPage := by
  intro s n k p e hw hp hpage
  show s.engResume n k = _
  simp only [State.engResume, hw, hp]
  split
  next va kd need write h => exact if_neg (hpage va kd need write h)
  · rfl

/-- Settles O31: what the next step of an entry at work is, block by block, and the tag by cases on the block's own code. -/
theorem copiesBringBlocksAndTags : Obligations.CopiesBringBlocksAndTags := ⟨copiesBringTheirBlocks, blocksTakeTheirTileTags, aWaitEndsWithItsPage⟩

end Sys2Proof.Machine
end

section
/-! The end of a command and the answers of the home (08_transfer.md R220, R224, R225, R235, R238; 09_memory_model.md R262 to R264;
13_inflight_record.md R318, R320, R331). -/

namespace Sys2Proof.Machine

/-! ### A command ends (R220, R224, R225) -/

section
variable {s : State} {n k : Nat} {e : IfrEntry}

/-- A copying command whose blocks are all confirmed completes. -/
theorem engNext_complete (hc : e.copies = true) (hle : e.total ≤ e.prog) : s.engNext n k e = s.completeStep n k e := by
  have hkind : e.kind = 3 ∨ e.kind = 4 ∨ e.kind = 5 ∨ e.kind = 6 ∨ e.kind = 13 := by simpa [IfrEntry.copies, or_assoc] using hc
  rcases hkind with h | h | h | h | h <;> simp only [State.engNext, h, hc, if_true, hle]

/-- COMMAND_COMPLETE of a copying command whose last step can be made. -/
theorem commandComplete_done {t : State} (hw : s.working n k = some e) (hc : e.copies = true) (hle : e.total ≤ e.prog) (hp : e.posted = none)
    (hstep : s.completeStep n k e = .done t) : exec (.commandComplete n k) s = .next (t.entrySent n k (s.entryHome n e)) := by
  refine engRow_done hw ?_ hp ((engNext_complete hc hle).trans hstep)
  rw [hc, decide_eq_true hle, Bool.and_self]

theorem completeStep_uncounted (hva : BitVec.ofNat 64 (e.field 16 8) = 0) : s.completeStep n k e = .done ((s.tileDone n k e).freeCommand n k) := by
  simp only [State.completeStep, hva, if_true]

/-- With a counter its add is made first, under the entry's tag. -/
theorem completeStep_counted {va : W64} {pa : Nat} (hva : BitVec.ofNat 64 (e.field 16 8) = va) (hne : va ≠ 0) (hgo : s.engineAt n va permXW true = .go pa)
    (hclean : poisoned (s.tagOf pa) = false) (hrpl : e.rpl = false) :
    let u := s.commandStore n k va pa 8 (s.rd pa 8 + 1)
    let v : State := { u with tags := u.tags.insert (homeOf pa) ⟨(s.core n).ctx, n, 0, e.seq, 0⟩ }
    s.completeStep n k e = .done (if v.choose.1 then (v.choose.2.tileDone n k e).freeCommand n k else v.choose.2.answer n k 0) := by
  intro u v
  rw [State.completeStep, hva]
  simp only [hne, if_false, reach_go hgo, hclean, Bool.false_eq_true, hrpl, tagged_first]
  rfl

/-- COMMAND_END_ERROR of a fill: its tile is marked and the report waits at the core. -/
theorem endError_fill {a : W64} {c : Nat} (hw : s.working n k = some e) (hk : k < 96) (hfail : s.engNext n k e = .fail a c) (hkind : e.kind = 3) :
    s.endError n k c = .next ((s.tileChange n k e Tile.fail).report n k c a) := by
  have h9 : ¬ e.kind = 9 := by rw [hkind]; decide
  have h8 : ¬ e.kind = 8 := by rw [hkind]; decide
  simp only [State.endError, hw, Nat.not_le.2 hk, hfail, h9, h8, ne_eq, not_true_eq_false, false_and, if_false]

end

theorem commandsEnd : Claims.CommandsEnd := by
  intro s n k e hw va sent
  exact ⟨fun hc hle hp hva => commandComplete_done hw hc hle hp (completeStep_uncounted hva),
    fun pa hc hle hp hva hgo hclean hrpl => commandComplete_done hw hc hle hp (completeStep_counted rfl hva hgo hclean hrpl),
    fun a c hk hfail hkind => endError_fill hw hk hfail hkind⟩

/-! ### Answers (R318, R320, R331; 02_core.md R30) -/

section
variable {s : State} {n k : Nat} {e : IfrEntry}

theorem requestAnswer_command (he : (s.core n).entry k = some e) (hrec : (s.core n).replay = false) (hk : k < 96) (hans : e.ans = true)
    (hend : e.ended = false) : s.requestAnswer n k = .next ((if e.copies then s.tileDone n k e else s).freeCommand n k) := by
  simp only [State.requestAnswer, he, hrec, hk, hans, hend, Bool.false_eq_true, if_false, if_true, Bool.not_false, Bool.and_self]

theorem requestAnswer_slow (he : (s.core n).entry k = none) (hk : 96 ≤ k) (hk' : k < 100) (hheld : (s.core n).heldBundle = true)
    (hrun : (s.core n).run = .running) (hslow : (s.core n).slow.getLsbD (k - 96) = true) : s.requestAnswer n k = .next (s.answerCame n k) := by
  simp only [State.requestAnswer, he]
  exact if_pos ⟨hk, hk', hheld, hrun, hslow⟩

theorem requestAnswer_request (he : (s.core n).entry k = some e) (hrec : (s.core n).replay = false) (hk : 96 ≤ k) :
    s.requestAnswer n k = s.requestRead n k e := by
  simp only [State.requestAnswer, he, hrec, Nat.not_lt.2 hk, Bool.false_eq_true, if_false]

/-- A held request for up to 8 bytes takes them as they stand at the home. -/
theorem requestRead_bytes {va : W64} {size pa : Nat} (hva : BitVec.ofNat 64 (e.field 0 8) = va) (hsize : e.field 8 1 = size) (hkind : e.kind = 1)
    (hans : e.ans = false) (hpos : 0 < size) (hle : size ≤ 8) (hbar : (s.core n).replayBars e.seq [(va.toNat, size)] = false)
    (hgo : s.engineAt n va 0 false = .go pa) (hclean : poisoned (s.homeLoad n pa size).1.2 = false) :
    s.requestRead n k e = .next (((s.homeLoad n pa size).2.readMark n (s.core n).ctx va (pa / 64)).answerRead n k (pa / 64)
      (BitVec.ofNat 64 (s.homeLoad n pa size).1.1)) := by
  have h0 : size ≠ 0 := hpos.ne'
  have h64 : size ≠ 64 := by omega
  have h128 : size ≠ 128 := by omega
  simp only [State.requestRead, hva, hsize, hkind, hans, hbar, h0, h64, h128, hgo, hclean, ne_eq, not_true_eq_false, not_false_eq_true,
    Bool.false_eq_true, and_false, false_and, or_self, if_false]

end

/-! ### Atomics and releases at their home (R235, R238; 09_memory_model.md R262 to R264) -/

section
variable {s : State} {n k pa : Nat} {e : IfrEntry} {va : W64}

/-- A request that is not sent again is this device's own. -/
theorem foreign_of_first (hrpl : e.rpl = false) : s.foreign e = false := by rw [State.foreign, hrpl, Bool.false_and]

theorem amoStep_performs (hva : BitVec.ofNat 64 (e.field 0 8) = va) {o : AmoOp} {w : Nat} (hopc : amoOf (e.field 24 1) = (o, w)) (hrpl : e.rpl = false)
    (hpend : (s.core n).amoPending va e.seq = false) (hgo : s.engineAt n va (permXR + permXW) true = .go pa) (hclean : poisoned (s.tagOf pa) = false) :
    let old := s.rd pa (w / 8)
    let new := o.new w old (BitVec.ofNat 64 (e.field 8 8)).toNat (BitVec.ofNat 64 (e.field 16 8)).toNat
    let u := if 96 ≤ k then s.coreStore n pa (w / 8) (s.ringValue (s.core n).ctx va pa (w / 8) new) else s.commandStore n k va pa (w / 8) new
    s.amoStep n k e = .done (({ u with tags := u.tags.insert (homeOf pa) ⟨(s.core n).ctx, n, 0, e.seq, o.ret w old⟩ } : State).answer n k (o.ret w old)) := by
  intro old new u
  rw [State.amoStep, hva]
  simp only [foreign_of_first hrpl, hpend, Bool.false_eq_true, if_false, reach_go hgo, hclean, hrpl, tagged_first, amoApply, hopc]
  rfl

/-- The core that acquires stays in its context. -/
theorem ctx_acquire (s : State) (n t : Nat) : ((s.acquire n t).core n).ctx = (s.core n).ctx := by rw [State.acquire, core_upd, if_pos rfl]

theorem relStep_performs (hva : BitVec.ofNat 64 (e.field 0 8) = va) (hrpl : e.rpl = false) (hwritten : (s.core n).allWritten e.seq = true)
    (hgo : s.engineAt n va permXW true = .go pa) {scope : Nat} (hscope : e.field 16 1 = scope) :
    let a := if 2 ≤ scope then s.acquire n (s.relTime n) else s
    let u := a.coreStore n pa 8 (a.ringValue (s.core n).ctx va pa 8 (e.field 8 8))
    let r : List RelMark := if 2 ≤ scope then [] else [⟨pa, e.field 8 8, n, scope, a.relTime n⟩]
    let v : State := { u with rels := u.rels.filter (fun r => loc r.word ≠ loc pa) ++ r }
    s.relStep n k e = .done ((({ v with tags := v.tags.insert (homeOf pa) ⟨(s.core n).ctx, n, 0, e.seq, 0⟩ } : State).answer n k 0).upd n
      (fun c => c.dropRelblk (va.toNat / 64 * 64))) := by
  intro a u r v
  have hctx : (a.core n).ctx = (s.core n).ctx := by
    by_cases hwide : 2 ≤ scope
    · simp only [a, if_pos hwide, ctx_acquire]
    · simp only [a, if_neg hwide]
  rw [State.relStep, hva]
  simp only [foreign_of_first hrpl, hwritten, Bool.not_true, Bool.false_eq_true, if_false, reach_go hgo, hrpl, hscope, tagged_first, decide_eq_true_eq]
  simp only [a] at hctx
  rw [hctx]

/-- ATOMIC_AT_HOME of an entry of kind 2 whose step can be made. -/
theorem atomicAtHome_done {t : State} (hw : s.working n k = some e) (hkind : e.kind = 2) (hp : e.posted = none) (hstep : s.amoStep n k e = .done t) :
    exec (.atomicAtHome n k) s = .next (t.entrySent n k (s.entryHome n e)) :=
  engRow_done hw (decide_eq_true hkind) hp (by simp only [State.engNext, hkind, hstep])

/-- XREL_PERFORM of an entry of kind 8 whose step can be made. -/
theorem xrelPerform_done {t : State} (hw : s.working n k = some e) (hkind : e.kind = 8) (hp : e.posted = none) (hstep : s.relStep n k e = .done t) :
    exec (.xrelPerform n k) s = .next (t.entrySent n k (s.entryHome n e)) :=
  engRow_done hw (decide_eq_true hkind) hp (by simp only [State.engNext, hkind, hstep])

end

theorem answersAtomicsAndReleases : Claims.AnswersAtomicsAndReleases := by
  intro s n k e x va sent tagged
  refine ⟨requestAnswer_command, requestAnswer_slow, fun pa he hrec hk hkind hans hpos hle hbar hgo hclean => ?_,
    fun pa hw hkind hrpl hp hpend hgo hclean => ?_, fun pa hw hkind hrpl hp hwritten hgo => ?_⟩
  · exact (requestAnswer_request he hrec hk).trans (requestRead_bytes rfl rfl hkind hans hpos hle hbar hgo hclean)
  · exact atomicAtHome_done hw hkind hp (amoStep_performs rfl rfl hrpl hpend hgo hclean)
  · exact xrelPerform_done hw hkind hp (relStep_performs rfl hrpl hwritten hgo rfl)

/-- Settles O32: the last step of a command, and each answer, as the engines make it. -/
theorem commandsEndAndAreAnswered : Obligations.CommandsEndAndAreAnswered := ⟨commandsEnd, answersAtomicsAndReleases⟩

end Sys2Proof.Machine
end

section
/-! Line locks, landings, fences, barriers, replays and near-memory commands (09_memory_model.md R257, R258, R268; 08_transfer.md R232, R237,
R241 to R245; 13_inflight_record.md R330; 18_barrier.md R388 to R391). -/

namespace Sys2Proof.Machine

/-! ### Bytes written under a seal (12_context.md R304) -/

section
variable {s : State} {a n v : Nat}

/-- Decrypting a piece touches its own 16 bytes. -/
theorem byte_openPiece_out (z : Nat) (m : Memory) {p c : Nat} (h : c / 16 ≠ p) : (s.openPiece z m p).byte c = m.byte c := by
  unfold State.openPiece
  split
  · rfl
  · exact byte_write_out _ _ _ _ _ (by omega)

theorem tag_openPiece (z : Nat) (m : Memory) (p k : Nat) : (s.openPiece z m p).tag k = m.tag k := by
  unfold State.openPiece
  split
  · rfl
  · exact tag_write ..

theorem tag_put (k : Nat) : (s.put a n v).mem.tag k = s.mem.tag k := by
  refine (tag_write ..).trans ?_
  exact List.foldlRecOn (motive := fun m : Memory => m.tag k = s.mem.tag k) _ _ rfl fun m hm p _ => (tag_openPiece _ m p k).trans hm

/-- An access that lies in one 16-byte piece meets that piece alone. -/
theorem piecesOf_within (hpos : 0 < n) (hin : loc a % 16 + n ≤ 16) : piecesOf a n = [loc a / 16] := by
  have hlen : (loc a + n - 1) / 16 + 1 - loc a / 16 = 1 := by omega
  rw [piecesOf, hlen]
  rfl

theorem byte_put_in {b : Nat} (hb : b < n) : (s.put a n v).mem.byte (loc a + b) = BitVec.ofNat 8 (v / 256 ^ b) := byte_write_in _ _ _ _ _ hb

theorem byte_put_otherPiece (hpos : 0 < n) (hin : loc a % 16 + n ≤ 16) {c : Nat} (hc : c / 16 ≠ loc a / 16) :
    (s.put a n v).mem.byte c = s.mem.byte c := by
  refine (byte_write_out n _ _ _ _ (by omega)).trans ?_
  rw [State.decrypted, piecesOf_within hpos hin]
  exact byte_openPiece_out _ _ hc

/-- The `n` bytes of `v` stand at `a`. -/
def State.holdsAt (s : State) (n v a : Nat) : Prop := ∀ b < n, s.mem.byte (loc a + b) = BitVec.ofNat 8 (v / 256 ^ b)

theorem holdsAt_put : (s.put a n v).holdsAt n v a := fun _ hb => byte_put_in hb

/-- A write within a piece leaves the same bytes standing at the same offset of any piece: it is that very piece, or another. -/
theorem holdsAt_put_of_sameOffset (hpos : 0 < n) (hin : loc a % 16 + n ≤ 16) {x : Nat} (hx : loc x % 16 = loc a % 16) (h : s.holdsAt n v x) :
    (s.put a n v).holdsAt n v x := by
  intro b hb
  by_cases hloc : loc x = loc a
  · rw [hloc]
    exact byte_put_in hb
  · rw [byte_put_otherPiece hpos hin (by omega)]
    exact h b hb

end

/-! ### One write to every replica (R257) -/

/-- The store of a commit at one of its places, whose line takes the commit's time. -/
def State.commitAt (ts : Nat) (put : State → Nat → State) (s : State) (a : Nat) : State :=
  put { s with lineTimes := Tbl.set (0, 0) s.lineTimes (globalLine a) (ts, ts) } a

/-- What a commit makes of the memories its stores at its places make, in turn. -/
theorem commit_memories (s : State) (n : Nat) (places : List Nat) (put : State → Nat → State) :
    ∃ ts, (s.commit n places put).memories = (places.foldl (State.commitAt ts put) s).memories := ⟨_, rfl⟩

section
variable {k v r ts : Nat}

/-- Stores at one offset of their pieces: whatever place has been stored to, or held the bytes before, holds them. -/
theorem holdsAt_foldl_commitAt (hpos : 0 < k) (hin : r + k ≤ 16) {x : Nat} (hx : loc x % 16 = r) {l : List Nat}
    (hl : ∀ a ∈ l, loc a % 16 = r) {s : State} (h : s.holdsAt k v x ∨ x ∈ l) :
    (l.foldl (State.commitAt ts (fun t a => t.put a k v)) s).holdsAt k v x := by
  induction l generalizing s with
  | nil => exact h.resolve_right List.not_mem_nil
  | cons a l ih =>
    have ha : loc a % 16 = r := hl a List.mem_cons_self
    refine ih (fun b hb => hl b (List.mem_cons_of_mem _ hb)) ?_
    rcases h with h | h
    · exact .inl (holdsAt_put_of_sameOffset hpos (by omega) (by omega) h)
    · rcases List.mem_cons.1 h with rfl | h
      · exact .inl holdsAt_put
      · exact .inr h

theorem tag_foldl_commitAt (l : List Nat) (s : State) (j : Nat) :
    (l.foldl (State.commitAt ts (fun t a => t.put a k v)) s).mem.tag j = s.mem.tag j :=
  List.foldlRecOn (motive := fun t : State => t.mem.tag j = s.mem.tag j) l _ rfl fun _ ht _ _ => (tag_put j).trans ht

theorem hostMem_foldl_commitAt (l : List Nat) (s : State) :
    (l.foldl (State.commitAt ts (fun t a => t.put a k v)) s).hostMem = s.hostMem :=
  List.foldlRecOn (motive := fun t : State => t.hostMem = s.hostMem) l _ rfl fun _ ht _ _ => ht

end

/-- A commit at one offset of every place leaves its bytes in all of them, and every tag and the host's memory alone. -/
theorem commit_stores {s : State} {n k v r : Nat} {places : List Nat} (hpos : 0 < k) (hin : r + k ≤ 16) (hr : ∀ a ∈ places, loc a % 16 = r) :
    let t := s.commit n places (fun t a => t.put a k v)
    (∀ a ∈ places, t.holdsAt k v a) ∧ (∀ j, t.mem.tag j = s.mem.tag j) ∧ t.hostMem = s.hostMem := by
  intro t
  obtain ⟨ts, hts⟩ := commit_memories s n places (fun t a => t.put a k v)
  obtain ⟨hmem, hhost⟩ := memories_eq_iff.1 hts
  refine ⟨fun a ha => ?_, fun j => ?_, hhost.trans (hostMem_foldl_commitAt ..)⟩
  · unfold State.holdsAt
    rw [hmem]
    exact holdsAt_foldl_commitAt hpos hin (hr a ha) hr (.inr ha)
  · rw [hmem]
    exact tag_foldl_commitAt ..

/-! ### The replicas of a place lie at its offset (11_page.md R283, R284) -/

theorem translate_offset {s : State} {tu x need pa : Nat} {va : W64} {repl : Bool} (h : translate s tu x va need = .ok pa repl) :
    pa % 2 ^ 22 = va.toNat % 2 ^ 22 := by
  simp only [translate, Bool.not_eq_eq_eq_not, Bool.not_true] at h
  repeat' split at h
  all_goals cases h
  omega

theorem inFrame_offset (a f : Nat) : inFrame a f % 2 ^ 22 = a % 2 ^ 22 := by
  have hphys : phys a / 2 ^ 22 * 2 ^ 22 ≤ a := (Nat.div_mul_le_self _ _).trans (Nat.mod_le _ _)
  rw [inFrame]
  omega

theorem replicas_offset {s : State} {n x pa a : Nat} {va : W64} (h : a ∈ s.replicas n x va pa) : a % 2 ^ 22 = pa % 2 ^ 22 := by
  simp only [State.replicas, List.mem_cons, List.mem_map] at h
  obtain rfl | ⟨f, -, rfl⟩ := h
  · rfl
  · exact inFrame_offset pa f

/-- An aligned access of a size that divides 16 lies in one piece. -/
theorem aligned_within {a size : Nat} (hdvd : size ∣ 16) (hal : a % size = 0) : a % 16 + size ≤ 16 := by
  have hmod : size ∣ a % 16 := (Nat.dvd_mod_iff hdvd).2 (Nat.dvd_of_mod_eq_zero hal)
  have hlt : a % 16 < 16 := Nat.mod_lt _ (by decide)
  exact Nat.le_of_lt_add_of_dvd (by omega) ((Nat.dvd_add_right hmod).2 dvd_rfl) hdvd

theorem size_storeRows : ∀ e ∈ Claims.storeRows, 0 < e.2 ∧ e.2 ∣ 16 := by
  simp only [Claims.storeRows, List.forall_mem_cons, List.not_mem_nil, false_implies, implies_true, and_true]
  decide

/-- Byte `b` of what a store of `k` bytes writes is byte `b` of the register. -/
theorem byte_of_stored (x : W64) {k b : Nat} (hb : b < k) : BitVec.ofNat 8 (x.toNat % 2 ^ (8 * k) / 256 ^ b) = x.extractLsb' (8 * b) 8 := by
  apply BitVec.eq_of_toNat_eq
  have hsplit : 2 ^ (8 * k) = 256 ^ b * (256 * 256 ^ (k - b - 1)) := by
    rw [← pow_succ', ← pow_add, pow_mul]
    congr 1
    omega
  rw [BitVec.toNat_ofNat, BitVec.extractLsb'_toNat, Nat.shiftRight_eq_div_pow, hsplit, pow_mul, show (2 : Nat) ^ 8 = 256 from rfl,
    Nat.mod_mul_right_div_self, Nat.mod_mod_of_dvd _ (Dvd.intro _ rfl)]

/-! ### A store under its lock (R257, R268) -/

section
variable {i : Issue} {va : W64} {pa size v : Nat}

/-- With every lock of its core granted, a store to a line that has one is the commit. -/
theorem commitLine_granted {primary : State → State} {put : State → Nat → State} (hslot : wvSlotAt i.ctx va = none)
    (hgranted : ∀ l ∈ i.s.locks, l.core = i.n → l.granted = true) (hlock : ∃ l ∈ i.s.locks, l.core = i.n ∧ l.line = globalLine pa) :
    i.commitLine va pa primary put = .ok { i with s := i.s.commit i.n (i.s.replicas i.n i.ctxNo va pa) put } := by
  obtain ⟨l, hmem, hcore, hline⟩ := hlock
  have hsome : (i.s.locks.find? (fun l => l.core = i.n && l.line = globalLine pa)).isSome = true :=
    List.find?_isSome.2 ⟨l, hmem, by simp only [hcore, hline, decide_true, Bool.and_self]⟩
  obtain ⟨m, hm⟩ := Option.isSome_iff_exists.1 hsome
  have hmine : m.core = i.n := by
    have h := List.find?_some hm
    simp only [Bool.and_eq_true, decide_eq_true_eq] at h
    exact h.1
  simp only [Issue.commitLine, hslot, hm, hgranted m (List.mem_of_find?_eq_some hm) hmine, Option.isSome_none, Bool.false_eq_true, if_false, if_true]

theorem storeAt_granted (hring : i.ctx.ring = none) (hkv : kvSays i.ctx (i.s.grpOf i.n) true va ≠ .refuse) (hslot : wvSlotAt i.ctx va = none)
    (hgranted : ∀ l ∈ i.s.locks, l.core = i.n → l.granted = true) (hlock : ∃ l ∈ i.s.locks, l.core = i.n ∧ l.line = globalLine pa) :
    i.storeAt va pa size v true = .ok { i with s := i.s.commit i.n (i.s.replicas i.n i.ctxNo va pa) (fun t a => t.put a size v) } := by
  have hvalue : i.s.ringValue i.ctxNo va pa size v = v := by
    have hring' : (i.s.ctx i.ctxNo).ring = none := hring
    simp only [State.ringValue, hring']
  unfold Issue.storeAt
  split
  next hrefuse => exact absurd hrefuse hkv
  next => simp only [hvalue, if_true, commitLine_granted hslot hgranted hlock]

end

/-! ### The commit engine (R257, R258, R268) -/

section
variable {s : State} {n : Nat} {w : BitVec 128}

theorem mem_setLocks {b : Bool} {k : LineLock} :
    k ∈ (s.setLocks n b).locks ↔ ∃ l ∈ s.locks, (if l.core = n then { l with granted := b } else l) = k :=
  List.mem_map

theorem granted_of_mem_setLocks {b : Bool} {k : LineLock} (hk : k ∈ (s.setLocks n b).locks) (hcore : k.core = n) : k.granted = b := by
  obtain ⟨l, -, rfl⟩ := mem_setLocks.1 hk
  split at hcore
  · rename_i h
    rw [if_pos h]
  · exact absurd hcore ‹_›

/-- Granting or giving up its locks leaves a core the lines it asks for. -/
theorem asked_setLocks {b : Bool} {line : Nat} (h : ∃ l ∈ s.locks, l.core = n ∧ l.line = line) :
    ∃ l ∈ (s.setLocks n b).locks, l.core = n ∧ l.line = line := by
  obtain ⟨l, hl, hcore, hline⟩ := h
  exact ⟨_, mem_setLocks.2 ⟨l, hl, if_pos hcore⟩, hcore, hline⟩

theorem fetched_locks_hostMem : (s.fetched n w).locks = s.locks ∧ (s.fetched n w).hostMem = s.hostMem := by
  unfold State.fetched
  dsimp only
  split
  · exact ⟨rfl, rfl⟩
  · split <;> exact ⟨rfl, rfl⟩

/-- The issue that a fetched bundle opens finds the locks and the memories as the fetch did. -/
theorem Issue.AtOpening.fetched {i : Issue} (h : i.AtOpening (s.fetched n w)) : i.s.locks = s.locks ∧ i.s.mem = s.mem ∧ i.s.hostMem = s.hostMem := by
  rw [h.state]
  exact ⟨fetched_locks_hostMem.1, fetched_mem, fetched_locks_hostMem.2⟩

/-- The bundle is examined with every lock of its core granted. -/
theorem replicaCommit_next {j : Nat} {l : LineLock} {t : State} (hl : s.locks[j]? = some l) (hturn : s.inTurn l.core = true)
    (hb : boundary l.core (fetchAndIssue l.core) { s.setLocks l.core true with cur := l.core } = .next t) :
    exec (.replicaCommit j) s = .next (if (t.core l.core).heldBundle = true then t.setLocks l.core false
      else { t with locks := t.locks.filter (fun k => k.core ≠ l.core) }) := by
  show s.replicaCommit j = _
  simp only [State.replicaCommit, hl, hturn, Bool.not_true, Bool.false_eq_true, if_false, hb]

/-- A core at a boundary whose fetch gives one operation runs the meaning of its row. -/
theorem boundary_exec {k : Instr} {i : SlotInstr} (hcur : s.cur = n) (hk : k.slot = some i) (h0 : i.enc.1 ≠ 0) (hok : i.ok = true)
    (hf : s.fetch n = .word (soloWord i)) (hr : s.runs) : boundary n (fetchAndIssue n) s = exec k (s.fetched n (soloWord i)) := by
  subst hcur
  have hruns : (s.fetched s.cur (soloWord i)).runs := fetched_runs.2 hr
  calc boundary s.cur (fetchAndIssue s.cur) s
      = fetchAndIssue s.cur s := runs_boundary s _ hr
    _ = issueBundle s.cur (readBundle (soloWord i)) (s.fetched s.cur (soloWord i)) := by rw [fetchAndIssue, hf]
    _ = issueBundle s.cur (soloBundle i (slotOp i)) (s.fetched s.cur (soloWord i)) := issueBundle_soloWord hok h0
    _ = issueSolo i (slotOp i) (s.fetched s.cur (soloWord i)) := by
        have h := runs_boundary _ (issueBundle (s.fetched s.cur (soloWord i)).cur (soloBundle i (slotOp i))) hruns
        rw [fetched_cur] at h
        rw [issueSolo, fetched_cur]
        exact h.symm
    _ = exec k (s.fetched s.cur (soloWord i)) := (exec_slot k i _ hk h0).symm

end

/-! ### A scalar store under its lock -/

theorem openingAt_plain (k : Instr) (s : State) (a : BitVec 4) (am : BitVec 2) : (k.openingAt s a am).plain := by
  unfold Instr.openingAt
  split <;> exact ⟨rfl, rfl, rfl, rfl, rfl, rfl, rfl, rfl⟩

/-- A core that has issued its bundle holds none. -/
theorem closing_heldBundle {i : SlotInstr} {s : State} {j : Issue} (h : j.plain) (hn : j.n = s.cur) :
    ((i.closing s j).core s.cur).heldBundle = false := by
  obtain ⟨run, stop, ifr, hcore⟩ := closing_core (i := i) h hn
  obtain ⟨a, clk, ticks, slow, hgoes⟩ := goesOn_eq j
  rw [hcore, hgoes]

theorem closing_memories {i : SlotInstr} {s : State} {j : Issue} (h : j.plain) : (i.closing s j).memories = j.s.memories := by
  have hkept := congrArg State.memories (closing_sansCores i s j h)
  exact hkept

/-- A bundle that issues under its locks has none of them left. -/
theorem replicaCommit_issued {s v : State} {idx : Nat} {l : LineLock} {i : SlotInstr} {j : Issue} (hl : s.locks[idx]? = some l)
    (hturn : s.inTurn l.core = true) (hcur : v.cur = l.core) (hplain : j.plain) (hn : j.n = v.cur)
    (hb : boundary l.core (fetchAndIssue l.core) { s.setLocks l.core true with cur := l.core } = .next (i.closing v j)) :
    ∃ t, exec (.replicaCommit idx) s = .next t ∧ (∀ k ∈ t.locks, k.core ≠ l.core) ∧ t.memories = j.s.memories := by
  have hheld : ¬ ((i.closing v j).core l.core).heldBundle = true := by
    rw [← hcur, closing_heldBundle hplain hn]
    exact Bool.false_ne_true
  refine ⟨_, (replicaCommit_next hl hturn hb).trans (congrArg _ (if_neg hheld)), fun k hk => ?_, closing_memories hplain⟩
  exact of_decide_eq_true (List.mem_filter.1 hk).2

/-- The replicas of an aligned place that an access has been translated to lie at one offset of their pieces, and the access lies within them. -/
theorem replicas_within {i : Issue} {va : W64} {size need n x pa : Nat} {w u r : Bool} (hdvd : size ∣ 16)
    (hx : i.examine va size need w u = .ok (.mem pa r)) (s : State) :
    (∀ a ∈ s.replicas n x va pa, loc a % 16 = va.toNat % 16) ∧ va.toNat % 16 + size ≤ 16 := by
  obtain ⟨hal, htrans, -⟩ := examine_mem i va size need pa w u r hx
  refine ⟨fun a ha => ?_, aligned_within hdvd hal⟩
  have hpage : a % 2 ^ 22 = va.toNat % 2 ^ 22 := (replicas_offset ha).trans (translate_offset htrans)
  rw [loc]
  omega

/-- A store examined under the granted locks of its line stands in every replica of its page. -/
theorem storeAt_everywhere {i : Issue} {va : W64} {pa size : Nat} (v : Nat) (hpos : 0 < size) (hdvd : size ∣ 16)
    (hx : i.examine va size permSS true true = .ok (.mem pa true)) (hring : i.ctx.ring = none)
    (hkv : kvSays i.ctx (i.s.grpOf i.n) true va ≠ .refuse) (hslot : wvSlotAt i.ctx va = none)
    (hgranted : ∀ l ∈ i.s.locks, l.core = i.n → l.granted = true) (hlock : ∃ l ∈ i.s.locks, l.core = i.n ∧ l.line = globalLine pa) :
    ∃ j, i.storeAt va pa size v true = .ok j ∧ (i.plain → j.plain) ∧ j.n = i.n ∧
      (∀ a ∈ i.s.replicas i.n i.ctxNo va pa, j.s.holdsAt size v a) ∧ (∀ k, j.s.mem.tag k = i.s.mem.tag k) ∧ j.s.hostMem = i.s.hostMem := by
  obtain ⟨hoff, hwithin⟩ := replicas_within (n := i.n) (x := i.ctxNo) hdvd hx i.s
  exact ⟨_, storeAt_granted hring hkv hslot hgranted hlock, id, rfl, commit_stores hpos hwithin hoff⟩

/-- A scalar store whose line is locked issues under the lock, gives it up, and stands in every replica of its page. -/
theorem scalarStore_commits {s : State} {e : (Guard → MEM → Instr) × Nat} (he : e ∈ Claims.storeRows) (g : Guard) (o : MEM) {idx pa : Nat}
    {l : LineLock} (hl : s.locks[idx]? = some l) (hturn : s.inTurn l.core = true) :
    let row := e.1 g o
    let u : State := { s.setLocks l.core true with cur := l.core }
    u.fetch l.core = .word (soloWord row.opn) →
    let v := u.fetched l.core (soloWord row.opn)
    row.begins g v → v.pre.slow.getLsbD row.opn.place = false →
    let i := row.openingAt v o.a o.am
    let va := i.address o 11 e.2
    i.examine va e.2 permSS true true = .ok (.mem pa true) → (v.ctx v.me.ctx).ring = none →
    kvSays (v.ctx v.me.ctx) (v.opened.grpOf v.cur) true va ≠ .refuse → wvSlotAt (v.ctx v.me.ctx) va = none →
    (∃ k ∈ s.locks, k.core = l.core ∧ k.line = globalLine pa) →
    ∃ t, exec (.replicaCommit idx) s = .next t ∧ (∀ k ∈ t.locks, k.core ≠ l.core) ∧
      (∀ a ∈ v.opened.replicas l.core v.me.ctx va pa, ∀ b < e.2,
        t.mem.byte (loc a + b) = (v.pre.getG o.data.toNat).extractLsb' (8 * b) 8) ∧
      (∀ k, t.mem.tag k = s.mem.tag k) ∧ t.hostMem = s.hostMem := by
  intro row u hfetch v hb hslow i va hx hring hkv hslot hlock
  obtain ⟨hpos, hdvd⟩ := size_storeRows e he
  obtain ⟨op, hop, -⟩ := stores_storeRows e he g o
  obtain rfl := opn_of_slot hop
  have ⟨⟨hruns, hword, hok, _⟩, _⟩ := hb
  have hcur : v.cur = l.core := fetched_cur
  have hopen : i.AtOpening v := atOpening_openingAt row v o.a o.am
  have hplain : i.plain := openingAt_plain row v o.a o.am
  have hn : i.n = l.core := hopen.n.trans hcur
  have hctx : i.ctxNo = v.me.ctx := hopen.ctxNo.trans (pre_ctx v)
  obtain ⟨hlocks, hmem, hhost⟩ : i.s.locks = (s.setLocks l.core true).locks ∧ i.s.mem = s.mem ∧ i.s.hostMem = s.hostMem := hopen.fetched
  obtain ⟨j, hstore, hj, hjn, hbytes, htags, hhosts⟩ := storeAt_everywhere ((v.pre.getG o.data.toNat).toNat % 2 ^ (8 * e.2)) hpos hdvd hx
    (by rw [hopen.ctx]; exact hring) (by rw [hopen.ctx, hopen.state, hopen.n]; exact hkv) (by rw [hopen.ctx]; exact hslot)
    (by rw [hlocks, hn]; exact fun k hk => granted_of_mem_setLocks hk) (by rw [hlocks, hn]; exact asked_setLocks hlock)
  have hends := (((scalarStoresStoreTheirBytes e he g o v hb).1 pa true hx).2 hslow).1 j hstore
  have hbound := (boundary_exec (s := u) rfl hop hword hok hfetch (fetched_runs.1 hruns)).trans hends
  obtain ⟨t, hexec, hfree, hkept⟩ := replicaCommit_issued hl hturn hcur (hj hplain) (hjn.trans hopen.n) hbound
  obtain ⟨htmem, hthost⟩ := memories_eq_iff.1 hkept
  rw [hopen.state, hn, hctx] at hbytes
  refine ⟨t, hexec, hfree, fun a ha b hlt => ?_, fun k => ?_, hthost.trans (hhosts.trans hhost)⟩
  · rw [htmem, ← byte_of_stored _ hlt]
    exact hbytes a ha b hlt
  · rw [htmem, ← hmem]
    exact htags k

/-! ### Landings, fences, barriers and replays (08_transfer.md R232, R237, R245; 18_barrier.md R388 to R391; 13_inflight_record.md R330) -/

section
variable {s : State} {n k : Nat}

theorem sendLand_lands {x : Send} (hfind : s.sends.find? (fun x => x.src = n && x.entry = k) = some x) (hland : x.land ≤ s.now)
    (hfirst : firstSend (s.sends.filter (fun y => y.dst = x.dst && y.chan = x.chan)) = some x) : s.sendLand n k = .next (s.landSend x) := by
  simp only [State.sendLand, hfind]
  exact if_pos ⟨hland, hfirst⟩

/-- A fence whose condition holds is over. -/
theorem clearFences_fenceX {c : Core} (h : c.allPerformed c.fseq = true) : c.clearFences.fenceX = false := by
  show (c.fenceX && !c.allPerformed c.fseq) = false
  rw [h, Bool.not_true, Bool.and_false]

theorem fenceClear_clears (hfence : (s.core n).fenceX = true) (hdone : (s.core n).allPerformed (s.core n).fseq = true) :
    s.fenceClear n = .next (s.setCore n (s.core n).clearFences) := by
  refine if_neg fun heq => ?_
  have hover := clearFences_fenceX hdone
  rw [← heq, hfence] at hover
  exact Bool.noConfusion hover

theorem memberLeave_leaves (hrun : (s.core n).run = .halted) (hended : ∀ e ∈ (s.core n).commands, e.2.kind = 10 → e.2.ended = true)
    (hexp : ∃ b ∈ s.barsOf n, (s.bar b).exp.getLsbD (s.barBit n b) = true) : s.memberLeave n = .next (s.leaveBarriers n) := by
  have hmade : (s.core n).commands.any (fun e => e.2.kind = 10 && !e.2.ended) = false := by
    simpa only [List.any_eq_false, Bool.and_eq_true, Bool.not_eq_true', not_and, Bool.not_eq_false, decide_eq_true_eq] using hended
  have hin : (s.barsOf n).any (fun b => (s.bar b).exp.getLsbD (s.barBit n b)) = true := List.any_eq_true.2 hexp
  refine if_neg ?_
  simp only [hrun, hmade, hin, ne_eq, not_true_eq_false, Bool.false_eq_true, Bool.not_true, or_self, not_false_eq_true]

/-- An arrival that nothing of its core precedes reaches its barrier. -/
theorem arrive_reaches {e : IfrEntry} {b : BarName} (he : (s.core n).entry k = some e) (hkind : e.kind = 10) (hend : e.ended = false)
    (hrec : (s.core n).replay = false) (hrel : (s.core n).released e = true) (hwritten : (s.core n).allWritten e.seq = true)
    (hbar : s.arrivalBar n e = some (.bar b)) (hheld : ∀ h ∈ (s.bar b).held, ¬ (h.core = n ∧ h.entry = k))
    (hbefore : (s.core n).arrivalBefore e (s.bar b).held n = false) : s.arrive n k =
      .next (s.barDo b ((s.bar b).arrival ⟨n, k, s.barBit n b, BitVec.ofNat 32 (e.field 8 4), BitVec.ofNat 32 (e.field 4 4), s.relTime n⟩)) := by
  have hfree : (s.bar b).held.any (fun h => h.core = n && h.entry = k) = false := by
    simpa using hheld
  simp only [State.arrive, he, hkind, hend, hrec, hrel, hwritten, hbar, hfree, hbefore, ne_eq, not_true_eq_false, Bool.false_eq_true,
    Bool.not_true, or_self, if_false]

theorem resumeReplay_sends (hrec : (s.core n).replay = true)
    (hrun : (s.core n).run = .running ∨ (s.core n).run = .halted ∨ (s.core n).run = .aborted)
    (hpart : (s.ctx (s.core n).ctx).part (quarterOf n) = .running) :
    s.resumeReplay n = .next (s.upd n (fun c => { c with
      replay := false
      ifr := c.ifr.map (fun e => if e.2.ended then e else (e.1, { e.2 with rpl := true, sent := !(e.2.waitX || e.2.waitN) })) })) := by
  have hok : ((s.core n).run = .running || (s.core n).run = .halted || (s.core n).run = .aborted) = true := by
    rcases hrun with h | h | h <;> rw [h] <;> rfl
  refine if_neg ?_
  simp only [hrec, hok, hpart, Bool.not_true, Bool.false_eq_true, ne_eq, not_true_eq_false, or_self, not_false_eq_true]

end

theorem locksSendsFencesAndArrivals : Claims.LocksSendsFencesAndArrivals := fun _ =>
  ⟨fun _ _ _ => replicaCommit_next, fun _ he g o _ _ _ => scalarStore_commits he g o, fun _ _ _ => sendLand_lands,
    fun _ hfence hdone => ⟨fenceClear_clears hfence hdone, clearFences_fenceX hdone⟩, fun _ => memberLeave_leaves,
    fun _ _ _ _ => arrive_reaches, fun _ => resumeReplay_sends⟩

/-! ### Near-memory commands (08_transfer.md R241 to R244) -/

section
variable {s : State} {n k h : Nat} {e : IfrEntry}

/-- Of a command that is not sent again no tag table is asked. -/
theorem nmKnown_of_first (hrpl : e.rpl = false) : s.nmKnown n e = none := by
  simp only [State.nmKnown, hrpl, Bool.not_false, if_true]

/-- A command on pages of one stack that was not rejected is over with its last group. -/
theorem nmOver_of_stack (hrej : e.rejected = false) (hrpl : e.rpl = false) (hstack : s.nmExamine n e.nm = .stack h) :
    s.nmOver n e = decide (e.nm.groups ≤ e.prog / 64) := by
  simp only [State.nmOver, hrej, foreign_of_first hrpl, nmKnown_of_first hrpl, hstack, Option.isSome_none, Bool.false_or, Bool.or_false]

/-- The next group, with every page it works on there. -/
theorem nmStep_group {unc : Bool} {pw pg pm ps : Nat} {off : W64} (hoff : BitVec.ofNat 64 (64 * (e.prog / 64)) = off) (hrpl : e.rpl = false)
    (hstack : s.nmExamine n e.nm = .stack h) (hleft : e.prog / 64 < e.nm.groups) (hearly : s.nmEarlier n e h = false)
    (hw : s.engineAt n (e.nm.bw + off) permNM true = .go pw)
    (hg : s.engineAt n ((if e.nm.usesG then e.nm.bg else e.nm.bw) + off) permNM false = .go pg)
    (hm : s.engineAt n ((if e.nm.usesM then e.nm.bm else e.nm.bw) + off) permNM true = .go pm)
    (hs : s.engineAt n (if e.nm.opc = 3 then e.nm.bm + BitVec.ofNat 64 (4 * e.nm.count) + off else e.nm.bw + off) permNM true = .go ps) :
    s.nmStep n k e unc = .done (s.groupDo n k e.nm h (e.prog / 64) unc pw (some pg) pm ps) := by
  simp only [State.nmStep, hstack, hoff, foreign_of_first hrpl, hearly, decide_eq_false (Nat.not_le.2 hleft), Bool.or_self, Bool.false_eq_true,
    if_false, reach_go hw, reach_go hg, reach_go hm, reach_go hs]

/-- NM_GROUP of a command whose next step can be made. -/
theorem nmGroup_done {unc : Bool} {t : State} (hw : s.working n k = some e) (hkind : e.kind = 9) (hover : s.nmOver n e = false) (hp : e.posted = none)
    (hstep : s.nmStep n k e unc = .done t) : exec (.nmGroup n k unc) s = .next (t.entrySent n k (s.entryHome n e)) := by
  show s.nmGroup n k unc = _
  simp only [State.nmGroup, hw, hkind, hover, State.engEvent, hp, hstep, ne_eq, not_true_eq_false, Bool.false_eq_true, or_self, if_false,
    Option.isSome_none]

/-- Where the record's page is there, or the command has no record, its end is not held up. -/
theorem nmRecordAt_open {cca : W64} {go : Bool → EngOut} (hrec : cca = 0 ∨ ∃ pa, s.engineAt n cca permNM true = .go pa) :
    s.nmRecordAt n cca go = go false := by
  unfold State.nmRecordAt
  split
  · rfl
  next hcca =>
    obtain ⟨pa, hgo⟩ := hrec.resolve_left fun h0 => hcca (.inl h0)
    rw [hgo]

theorem nmEnd_done (hrej : e.rejected = false) (hrpl : e.rpl = false) (hstack : s.nmExamine n e.nm = .stack h) (hall : e.nm.groups ≤ e.prog / 64)
    (hrec : e.nm.cca = 0 ∨ ∃ pa, s.engineAt n e.nm.cca permNM true = .go pa) :
    let u := s.nmRecord n k e.nm.cca e.failed (if e.failed = 0 then 0 else 1)
    s.nmEnd n k e = .done (({ u with tags := u.tags.insert h ⟨(s.core n).ctx, n, 1, e.nm.seq, 0⟩ } : State).freeCommand n k) := by
  simp only [State.nmEnd, foreign_of_first hrpl, nmKnown_of_first hrpl, hstack, nmRecordAt_open hrec, hrej, hrpl, Nat.not_lt.2 hall, tagged_first,
    Bool.false_eq_true, if_false]

end

theorem nearMemoryCommandsRun : Claims.NearMemoryCommandsRun := by
  intro s n k h e hw hkind hrej hrpl hp hstack c j off sent
  have hover := nmOver_of_stack hrej hrpl hstack
  refine ⟨fun pw pg pm ps unc hleft hearly hpw hpg hpm hps => ?_, fun hall hrec => ?_⟩
  · exact nmGroup_done hw hkind (hover.trans (decide_eq_false (Nat.not_le.2 hleft))) hp (nmStep_group rfl hrpl hstack hleft hearly hpw hpg hpm hps)
  · have hends : s.nmOver n e = true := hover.trans (decide_eq_true hall)
    refine engRow_done hw ?_ hp ?_
    · simp only [hkind, hends, decide_true, Bool.and_self]
    · simp only [State.engNext, hkind, hends, if_true]
      exact nmEnd_done hrej hrpl hstack hall hrec

/-- Settles O33: a store under its lock is one commit, which stores at one offset of every replica; the other events arise by the checks of
their rows, and a near-memory command's next step is its next group, or its end. -/
theorem locksLandingsAndNearMemory : Obligations.LocksLandingsAndNearMemory := ⟨locksSendsFencesAndArrivals, nearMemoryCommandsRun⟩

end Sys2Proof.Machine
end

section
/-! Operations on tiles, records and job posts, and operations that do nothing (10_tile.md R275, R278, R279; 08_transfer.md R247, R248;
04_encoding.md R94, R96, R118). -/

namespace Sys2Proof.Machine

/-! ### TLAYOUT (10_tile.md R278, R279) -/

section
variable {i₀ i : Issue} {o : RR} {x y : W64}

/-- What TLAYOUT makes of an operand whose layout may be stated: its outcomes by operation and state of the tile. -/
theorem tlayout_outcomes (hread : i₀.rrG2 o = .ok (x, i)) (hmiddle : x.extractLsb' 16 44 = 0) (htop : x.extractLsb' 62 2 = 0)
    (hlayout : layoutOk (x.extractLsb' 0 16).toNat = true) :
    let n := o.s1.toNat
    let l := x.extractLsb' 0 16
    let t := i.core.tile n
    let old := i.resultG o.d.toNat ((i.pre.tile n).layout.setWidth 64) 2
    (x.extractLsb' 60 2 = 0 → t.st = .empty →
      i₀.tlayout o = .ok ((old.upd (fun c => c.claimTile n (l.toNat % 256))).putTile n { t with st := .ready, layout := l })) ∧
    (x.extractLsb' 60 2 = 1 → t.st = .ready → i₀.tlayout o = .ok (old.putTile n { t with layout := l })) ∧
    (x.extractLsb' 60 2 = 2 → t.st ≠ .empty →
      i₀.tlayout o = if layoutMatches l.toNat t.layout.toNat then .ok old else .error (.trap 11 (BitVec.ofNat 64 (n * 2 ^ 15)))) ∧
    (x.extractLsb' 60 2 = 0 ∧ t.st ≠ .empty ∨ x.extractLsb' 60 2 = 1 ∧ t.st ≠ .ready ∨ x.extractLsb' 60 2 = 2 ∧ t.st = .empty ∨
      x.extractLsb' 60 2 = 3 → i₀.tlayout o = .error (.trap 4 0)) := by
  intro n l t old
  have hfields : bits x.toNat 59 16 = 0 ∧ bits x.toNat 63 62 = 0 := by
    have h16 : bits x.toNat 59 16 = (x.extractLsb' 16 44).toNat := (BitVec.extractLsb'_toNat ..).symm
    have h62 : bits x.toNat 63 62 = (x.extractLsb' 62 2).toNat := (BitVec.extractLsb'_toNat ..).symm
    rw [h16, h62, hmiddle, htop]
    exact ⟨rfl, rfl⟩
  have hoperation : bits x.toNat 61 60 = (x.extractLsb' 60 2).toNat := (BitVec.extractLsb'_toNat ..).symm
  have hword : x.toNat % 2 ^ 16 = l.toNat := (BitVec.extractLsb'_toNat 0 16 x).symm
  have hl : BitVec.ofNat 16 l.toNat = l := by rw [BitVec.ofNat_toNat, BitVec.setWidth_eq]
  have hpass : ¬ (bits x.toNat 59 16 ≠ 0 ∨ bits x.toNat 63 62 ≠ 0 ∨ (!layoutOk l.toNat) = true) := by
    rw [show layoutOk l.toNat = true from hlayout]
    simp [hfields]
  simp only [Issue.tlayout, hread, bind, Except.bind, hword, hoperation, if_neg hpass, hl]
  refine ⟨fun hop hst => ?_, fun hop hst => ?_, fun hop hst => ?_, ?_⟩
  · rw [hop, hst]; rfl
  · rw [hop, hst]; rfl
  · rw [hop]
    cases h : t.st
    case empty => exact absurd h hst
    all_goals rfl
  · rintro (⟨hop, hst⟩ | ⟨hop, hst⟩ | ⟨hop, hst⟩ | hop) <;> rw [hop]
    · cases h : t.st
      case empty => exact absurd h hst
      all_goals rfl
    · cases h : t.st
      case ready => exact absurd h hst
      all_goals rfl
    · rw [hst]; rfl
    · rfl

/-! ### TRELEASE (10_tile.md R275 Table 4) -/

section
variable {n : Nat} {t : Tile} (ht : i.core.tile n = t)
include ht

theorem trelease_empty (hst : t.st = .empty) : i.trelease n = .ok i := by
  simp only [Issue.trelease, ht, hst]

theorem trelease_ready (hst : t.st = .ready) : i.trelease n = .ok (i.putTile n { t with st := .empty }) := by
  simp only [Issue.trelease, ht, hst]

theorem trelease_filling (hst : t.st = .filling) (hidle : t.ncmd = 0) :
    i.trelease n = .ok (i.putTile n { t with st := .empty, err := false }) := by
  simp only [Issue.trelease, ht, hst, hidle, ne_eq, not_true_eq_false, if_false]

theorem trelease_draining (hst : t.st = .draining) (hidle : t.ncmd = 0) :
    i.trelease n = .ok (i.putTile n { t with st := .empty, err := false, relp := false }) := by
  simp only [Issue.trelease, ht, hst, hidle, ne_eq, not_true_eq_false, if_false]

/-- A tile that a command is on is not released. -/
theorem trelease_busy (hst : t.st = .filling ∨ t.st = .draining) (hbusy : t.ncmd ≠ 0) : i.trelease n = .error (.trap 4 0) := by
  rcases hst with hst | hst <;> simp only [Issue.trelease, ht, hst, if_pos hbusy, illegalOperand]

end

/-! ### TRJREC and BFPOST (08_transfer.md R247, R248) -/

theorem bits_top12 (y : W64) : bits y.toNat 63 52 = y.toNat / 2 ^ 52 := by
  have hy := y.isLt
  rw [bits_eq]
  omega

theorem trjrec_illegal (hread : i₀.rrG o = .ok (x, y, i)) (hbad : y.toNat / 2 ^ 52 ≠ 0 ∨ i.ctx.ring = none) : i₀.trjrec o = .error (.trap 4 0) := by
  simp only [Issue.trjrec, hread, bind, Except.bind, bits_top12, Option.isNone_iff_eq_none]
  exact if_pos hbad

/-- With a ring, an entry free and a slot in hand the record's command starts, and the stamps are those of the next record. -/
theorem trjrec_records {r : Ring} (hread : i₀.rrG o = .ok (x, y, i)) (hfields : y.toNat / 2 ^ 52 = 0) (hring : i.ctx.ring = some r)
    (hfree : i.core.commands.length + i.cmds.length < 96) (hslots : i.core.nleft ≠ 0) :
    let w := i.core.trajOf i.n (Tbl.get Bind.none i.pre.bnd 0) i.pre.mix x.toNat y.toNat
    i₀.trjrec o = .ok ((Claims.starting i (.new .idem 11 (BitVec.ofNat 512 (i.core.nslot % 2 ^ 64 + w * 2 ^ 64)) [])).upd
      (fun c => { c with nslot := c.nslot + 1, nleft := c.nleft - 1, spa := c.spa - 1, xearly := false, xl := 0 })) := by
  simp only [Issue.trjrec, hread, bind, Except.bind, bits_top12, hfields, hring, Option.isNone_some, command_starts hfree, if_neg hslots]
  rfl

theorem bfpost_range {va : W64} {e : Stop} (hread : i₀.rrG1 o = .ok (va, i)) (hrange : i.range va 64 64 = .error e) : i₀.bfpost o = .error e := by
  simp only [Issue.bfpost, hread, hrange, bind, Except.bind]

theorem bfpost_posts {va : W64} (hread : i₀.rrG1 o = .ok (va, i)) (hrange : i.range va 64 64 = .ok ())
    (hfree : i.core.commands.length + i.cmds.length < 96) :
    i₀.bfpost o = .ok (Claims.starting i (.new .keyed 12 (BitVec.ofNat 512 va.toNat) [])) := by
  simp only [Issue.bfpost, hread, hrange, command_starts hfree, bind, Except.bind]

end

/-! ### The rows -/

section
variable {g : Guard} {o : RR} {s : State}

/-- TLAYOUT is one operation, whichever row its operand makes it. -/
theorem slotOp_of_tlayout {k : Instr} (hk : k ∈ [Instr.tlayoutClaim g o, .tlayoutRelabel g o, .tlayoutCheck g o]) :
    ∃ l, k.slot = some l ∧ slotOp l = guarded g none (fun i => i.tlayout o) := by
  simp only [List.mem_cons, List.not_mem_nil, or_false] at hk
  rcases hk with rfl | rfl | rfl <;> exact ⟨_, rfl, rfl⟩

/-- Reading two g sources does nothing else. -/
theorem onlyRead_rrG {l : SlotInstr} {x y : W64} {i : Issue} (h : (l.opening s).rrG o = .ok (x, y, i)) : l.onlyRead s i := by
  unfold Issue.rrG at h
  cases hs : (l.opening s).rrSources o .g .g with
  | error e => simp only [hs, bind, Except.bind, reduceCtorEq] at h
  | ok v =>
    simp only [hs, bind, Except.bind, Except.ok.injEq, Prod.mk.injEq] at h
    obtain ⟨-, -, rfl⟩ := h
    exact (sources_of_rrSources hs).1

end

theorem tileAndRecordOperations : Claims.TileAndRecordOperations := by
  refine fun g o s => ⟨fun hb => ?_, fun k hk hb x i hread => ?_, fun hb => ?_, fun hb x y i hread => ?_, fun hb va i hread => ?_⟩
  · have hop : slotOp (.x (.tstate g o)) = guarded g none (fun i => .ok (i.resultG o.d.toNat (i.core.tile o.s1.toNat).word 2)) := rfl
    exact ends_guarded rfl hop hb (by rw [(atOpening_opening (.tstate g o) s).core])
  · intro n l t old hmiddle htop hlayout
    obtain ⟨m, hslot, hop⟩ := slotOp_of_tlayout hk
    obtain ⟨hclaim, hrelabel, hcheck, hbad⟩ := tlayout_outcomes hread hmiddle htop hlayout
    rw [rrG2_pre hread] at hclaim hrelabel hcheck
    refine ⟨fun h hst => ends_guarded hslot hop hb (hclaim h hst), fun h hst => ends_guarded hslot hop hb (hrelabel h hst),
      fun h hst hmatch => ends_guarded hslot hop hb ((hcheck h hst).trans (if_pos hmatch)),
      fun h hst hmatch => stops_guarded hslot hop hb ((hcheck h hst).trans (if_neg (Bool.eq_false_iff.1 hmatch))),
      fun h => stops_guarded hslot hop hb (hbad h)⟩
  · intro n t i
    have hop : slotOp (.x (.trelease g o)) = guarded g none (fun i => i.trelease n) := rfl
    have ht : i.core.tile n = t := by rw [(atOpening_opening (.trelease g o) s).core]
    exact ⟨fun hst => ends_guarded rfl hop hb (trelease_empty ht hst), fun hst => ends_guarded rfl hop hb (trelease_ready ht hst),
      fun hst hidle => ends_guarded rfl hop hb (trelease_filling ht hst hidle),
      fun hst hidle => ends_guarded rfl hop hb (trelease_draining ht hst hidle),
      fun hst hbusy => stops_guarded rfl hop hb (trelease_busy ht hst hbusy)⟩
  · have hop : slotOp (.x (.trjrec g o)) = guarded g none (fun i => i.trjrec o) := rfl
    obtain ⟨hn, hpre, -⟩ := onlyRead_facts (onlyRead_rrG hread)
    refine ⟨fun hbad => stops_guarded rfl hop hb (trjrec_illegal hread hbad), fun r hfields hring hfree hslots => ?_⟩
    rw [← hn, ← hpre]
    exact ends_guarded rfl hop hb (trjrec_records hread hfields hring hfree hslots)
  · have hop : slotOp (.x (.bfpost g o)) = guarded g none (fun i => i.bfpost o) := rfl
    exact ⟨fun hrange hfree => ends_guarded rfl hop hb (bfpost_posts hread hrange hfree),
      fun e hrange => stops_guarded rfl hop hb (bfpost_range hread hrange)⟩

/-! ### Bundles that do nothing (04_encoding.md R94, R96, R118) -/

/-- A bundle of empty slots ends as it was opened. -/
theorem exec_nop {s : State} (h : s.runs) : exec .nop s = .next ((Instr.nop.opening s).finish false) := by
  show boundary s.cur (issueBundle s.cur emptyBundle) s = _
  rw [runs_boundary s _ h, issueBundle_run s emptyBundle (decodeFault_nil _ _) rfl]
  rfl

theorem xnopAndEmptySlotsDoNothing : Claims.XnopAndEmptySlotsDoNothing := fun _ => ⟨fun hi => ends_of rfl hi rfl, exec_nop⟩

/-- Settles O28: each row by what its tile, or the operand it reads, answers; a bundle that runs nothing ends as it was opened. -/
theorem tileRecordAndEmptyOperations : Obligations.TileRecordAndEmptyOperations := ⟨tileAndRecordOperations, xnopAndEmptySlotsDoNothing⟩

end Sys2Proof.Machine
end

section
/-! Requests on contexts as a core makes them (12_context.md R314 to R316): what each operation makes of the operands it has read, and the
rows that ask for it. -/

namespace Sys2Proof.Machine

/-! ### The operations, once their operands are read -/

section
variable {i₀ i : Issue} {o : RR} {x y : W64} {c op : Nat} {qm : BitVec 16}

theorem ctxstat_delivers (hread : i₀.rrG1 o = .ok (x, i)) (hsel : i.s.ctxSelect x = some (c, qm)) :
    i₀.ctxstat o = .ok (i.resultG o.d.toNat (i.s.ctx c).word 4) := by
  simp only [Issue.ctxstat, hread, bind, Except.bind, hsel]

theorem ctxstat_illegal (hread : i₀.rrG1 o = .ok (x, i)) (hsel : i.s.ctxSelect x = none) : i₀.ctxstat o = .error (.trap 4 0) := by
  simp only [Issue.ctxstat, hread, bind, Except.bind, hsel, illegalOperand]

/-- The operand of CTXFREEZE by its fields (R314): the operation, the target of a cut stop, and the bits reserved between them. -/
theorem freezeFields (y : W64) :
    bits y.toNat 2 0 = y.toNat % 8 ∧ bits y.toNat 63 16 = y.toNat / 2 ^ 16 ∧ (bits y.toNat 15 3 = 0 ↔ y.extractLsb' 3 13 = 0) := by
  have hy := y.isLt
  have hreserved : (y.extractLsb' 3 13).toNat = bits y.toNat 15 3 := BitVec.extractLsb'_toNat ..
  refine ⟨by rw [bits_eq]; omega, by rw [bits_eq]; omega, ?_⟩
  rw [← hreserved, BitVec.toNat_eq]
  rfl

/-- What CTXFREEZE makes of a context that exists: an illegal operand, or the status with the request that status 0 begins. -/
theorem ctxfreeze_outcome (hread : i₀.rrG o = .ok (x, y, i)) (hop : y.toNat % 8 = op) (hlt : op < 5) (hsel : i.s.ctxSelect x = some (c, qm)) :
    i₀.ctxfreeze o =
      if qm = 0 ∨ i.ownPart c qm = true ∨ y.extractLsb' 3 13 ≠ 0 ∨ (op ≠ 4 ∧ 2 ^ 16 ≤ y.toNat) then .error (.trap 4 0) else
      let st := i.s.freezeStatus c op (i.s.widen c qm)
      let j := i.resultG o.d.toNat (BitVec.ofNat 64 st) 1
      .ok (if st = 0 then j.after (fun t => t.beginFreeze c op (i.s.widen c qm) qm (y.toNat / 2 ^ 16)) else j) := by
  obtain ⟨hlow, htarget, hreserved⟩ := freezeFields y
  have hbeyond : y.toNat / 2 ^ 16 ≠ 0 ↔ 2 ^ 16 ≤ y.toNat := by omega
  simp only [Issue.ctxfreeze, hread, bind, Except.bind, hsel, hlow, hop, htarget, hbeyond, ne_eq, hreserved, illegalOperand, Nat.not_le.2 hlt,
    false_or]

theorem ctxfreeze_unselected (hread : i₀.rrG o = .ok (x, y, i)) (hsel : i.s.ctxSelect x = none) : i₀.ctxfreeze o = .error (.trap 4 0) := by
  simp only [Issue.ctxfreeze, hread, bind, Except.bind, hsel, illegalOperand]

/-- What CTXRESUME makes of a context that exists. -/
theorem ctxresume_outcome (hread : i₀.rrG o = .ok (x, y, i)) (hop : y.toNat = op) (hlt : op < 3) (hsel : i.s.ctxSelect x = some (c, qm)) :
    i₀.ctxresume o =
      if qm = 0 ∨ i.ownPart c qm = true then .error (.trap 4 0) else
      let st := i.s.resumeStatus c op qm
      let j := i.resultG o.d.toNat (BitVec.ofNat 64 st) 1
      .ok (if st = 0 then j.after (fun t => t.beginResume c op qm) else j) := by
  simp only [Issue.ctxresume, hread, bind, Except.bind, hsel, hop, illegalOperand, Nat.not_le.2 hlt, or_false]

theorem ctxresume_unselected (hread : i₀.rrG o = .ok (x, y, i)) (hsel : i.s.ctxSelect x = none) : i₀.ctxresume o = .error (.trap 4 0) := by
  simp only [Issue.ctxresume, hread, bind, Except.bind, hsel, illegalOperand]

end

/-! ### The rows -/

/-- A row that asks completes with either issue that a condition chooses. -/
theorem ends_asking_ite {k : Instr} {l : SlotInstr} {g : Guard} {op : Op} {s : State} {p : Prop} [Decidable p] {a b : Issue}
    (hslot : k.slot = some l) (hop : slotOp l = guarded g none (asking op)) (hb : k.asks g s)
    (h : op (k.opening s) = .ok (if p then a else b)) :
    (p → k.ends s a) ∧ (¬ p → k.ends s b) :=
  ⟨fun hp => ends_asking hslot hop hb (h.trans (congrArg _ (if_pos hp))), fun hp => ends_asking hslot hop hb (h.trans (congrArg _ (if_neg hp)))⟩

theorem lt_of_freezeRows : ∀ e ∈ Claims.freezeRows, e.2 < 5 := by simp [Claims.freezeRows]

theorem lt_of_resumeRows : ∀ e ∈ Claims.resumeRows, e.2 < 3 := by simp [Claims.resumeRows]

/-- The rows of CTXFREEZE ask with one operation: which form it is, its operand says. -/
theorem slotOp_of_freezeRows : ∀ e ∈ Claims.freezeRows, ∀ g o,
    ∃ l, (e.1 g o).slot = some l ∧ slotOp l = guarded g none (asking (fun i => i.ctxfreeze o)) := by
  simp only [Claims.freezeRows, List.forall_mem_cons, List.not_mem_nil, false_implies, implies_true, and_true]
  and_intros <;> exact fun _ _ => ⟨_, rfl, rfl⟩

/-- The same of the rows of CTXRESUME. -/
theorem slotOp_of_resumeRows : ∀ e ∈ Claims.resumeRows, ∀ g o,
    ∃ l, (e.1 g o).slot = some l ∧ slotOp l = guarded g none (asking (fun i => i.ctxresume o)) := by
  simp only [Claims.resumeRows, List.forall_mem_cons, List.not_mem_nil, false_implies, implies_true, and_true]
  and_intros <;> exact fun _ _ => ⟨_, rfl, rfl⟩

theorem contextStateAndFreezeRequests : Claims.ContextStateAndFreezeRequests := by
  refine fun g o s => ⟨fun hb x j hread => ?_, fun e he hb x y j hread hform => ?_⟩
  · have hop : slotOp (.s (.ctxstat g o)) = guarded g none (asking (fun i => i.ctxstat o)) := rfl
    exact ⟨fun c qm hsel => ends_asking rfl hop hb (ctxstat_delivers hread hsel), fun hsel => stops_asking rfl hop hb (ctxstat_illegal hread hsel)⟩
  · obtain ⟨l, hslot, hop⟩ := slotOp_of_freezeRows e he g o
    have houtcome := fun c qm => ctxfreeze_outcome (c := c) (qm := qm) hread hform (lt_of_freezeRows e he)
    refine ⟨fun c qm hsel hqm hown hreserved htarget => ?_, fun hsel => stops_asking hslot hop hb (ctxfreeze_unselected hread hsel),
      fun c qm hsel hbad => stops_asking hslot hop hb ((houtcome c qm hsel).trans (if_pos hbad))⟩
    have hlegal : ¬ (qm = 0 ∨ j.ownPart c qm = true ∨ y.extractLsb' 3 13 ≠ 0 ∨ (e.2 ≠ 4 ∧ 2 ^ 16 ≤ y.toNat)) :=
      not_or.2 ⟨hqm, by simpa [hown, hreserved] using htarget⟩
    exact ends_asking_ite hslot hop hb ((houtcome c qm hsel).trans (if_neg hlegal))

theorem contextResumeRequests : Claims.ContextResumeRequests := by
  intro e he g o s hb x y j hread hform
  obtain ⟨l, hslot, hop⟩ := slotOp_of_resumeRows e he g o
  have houtcome := fun c qm => ctxresume_outcome (c := c) (qm := qm) hread hform (lt_of_resumeRows e he)
  refine ⟨fun c qm hsel hqm hown => ?_, fun c qm hsel hbad => stops_asking hslot hop hb ((houtcome c qm hsel).trans (if_pos hbad)),
    fun hsel => stops_asking hslot hop hb (ctxresume_unselected hread hsel)⟩
  have hlegal : ¬ (qm = 0 ∨ j.ownPart c qm = true) := not_or.2 ⟨hqm, Bool.eq_false_iff.1 hown⟩
  exact ends_asking_ite hslot hop hb ((houtcome c qm hsel).trans (if_neg hlegal))

/-- Settles O11: each operation by its selector and its second operand; each row asks with its operation. -/
theorem contextRequestsAreTaken : Obligations.ContextRequestsAreTaken := ⟨contextStateAndFreezeRequests, contextResumeRequests⟩

end Sys2Proof.Machine
end

section
/-! Requests on contexts as they end (12_context.md R301, R309, R310, R312): parts that freeze, saves and restores, each by what its save area
answers. -/

namespace Sys2Proof.Machine

/-! ### Parts that freeze (R301, R312) -/

/-- Updates of cores take no time: each is made at the time that stands before the first. -/
theorem foldl_upd_atNow (f : Nat → Core → Core) (l : List Nat) (s : State) :
    l.foldl (fun u n => u.upd n (f u.now)) s = l.foldl (fun u n => u.upd n (f s.now)) s := by
  induction l generalizing s with
  | nil => rfl
  | cons n l ih => simp only [List.foldl_cons, ih, upd_now]

/-- The request in progress is a cut, of a context that has not failed. -/
def cutAsked (c : Ctx) : Bool :=
  match c.req with
  | some r => decide (c.st ≠ .faulted) && !r.resume && (r.op = 3 || r.op = 4)
  | none => false

/-- The position at which the request in progress, a cut stop, has the cores stop. -/
def cutTarget (c : Ctx) : Option Nat :=
  match c.req with
  | some r => if c.st ≠ .faulted && !r.resume && r.op = 4 then some r.target else none
  | none => none

theorem noCut_of_req {c : Ctx} (h : c.req = none ∨ c.st = .faulted ∨ ∃ r, c.req = some r ∧ r.resume = false ∧ r.op < 3) :
    cutAsked c = false ∧ cutTarget c = none := by
  unfold cutAsked cutTarget
  rcases h with hreq | hst | ⟨r, hreq, -, hop⟩
  · rw [hreq]
    exact ⟨rfl, rfl⟩
  · cases c.req <;> simp [hst]
  · have h3 : r.op ≠ 3 := by omega
    have h4 : r.op ≠ 4 := by omega
    simp [hreq, h3, h4]

theorem cut_of_req {c : Ctx} {r : Request} (hreq : c.req = some r) (hres : r.resume = false) (hst : c.st ≠ .faulted) (hop : r.op = 3 ∨ r.op = 4) :
    cutAsked c = true ∧ cutTarget c = if r.op = 4 then some r.target else none := by
  simp [cutAsked, cutTarget, hreq, hres, hst, hop]

section
variable {s : State} {x q : Nat}

/-- What is left of a part's freeze once the context is in state `t`: its cores stand, its groups freeze, its request goes on. -/
def State.frozenFrom (s : State) (x q : Nat) (t : State) : State :=
  (((s.partCores x q).foldl (fun (u : State) n => u.upd n (Core.stopAgain s.now)) t).freezeGroups x q).freezeProgress x

theorem partFrozen_freezes (hpart : (s.ctx x).part q = .freezing) (hformed : ∀ g ∈ s.groupsOn x q, g.2.st ≠ .forming)
    (hstopped : ∀ n ∈ s.partCores x q, (s.core n).run ≠ .running)
    (hcommands : cutTarget (s.ctx x) = none ∨ ∀ n ∈ s.partCores x q, (s.core n).commands = []) :
    s.partFrozen x q = .next (s.frozenFrom x q (s.updCtx x (fun c => { c.setPart q .frozen with
      cutHeld := if cutAsked (s.ctx x) then c.cutHeld ||| BitVec.ofNat 16 (2 ^ q) else c.cutHeld
      cutAt := Tbl.set none c.cutAt q (cutTarget (s.ctx x)) }))) := by
  have hended : (cutTarget (s.ctx x)).isSome = true → ∀ n ∈ s.partCores x q, (s.core n).commands = [] :=
    fun h => hcommands.resolve_left (Option.isSome_iff_ne_none.1 h)
  have hopen : ¬ ((s.ctx x).part q ≠ .freezing ∨ (s.groupsOn x q).any (fun g => g.2.st = .forming) = true ∨
      (s.partCores x q).any (fun n => (s.core n).run = .running) = true ∨
      ((cutTarget (s.ctx x)).isSome = true ∧ (s.partCores x q).any (fun n => (s.core n).commands ≠ []) = true)) := by
    simpa [hpart] using ⟨fun k g => hformed (k, g), hstopped, hended⟩
  have hfold := foldl_upd_atNow Core.stopAgain (s.partCores x q)
  exact (if_neg hopen).trans (congrArg (fun u => Host.Outcome.next ((State.freezeGroups u x q).freezeProgress x)) (hfold _))

end

/-! ### Saves and restores (R309, R310) -/

section
variable {s : State} {x : Nat} {r : Request}

/-- The check that an end of a save makes of its request. -/
theorem save_open (hres : r.resume = false) (hsaving : ∀ q ∈ quartersIn r.parts, (s.ctx x).part q = .saving) :
    ¬ (r.resume = true ∨ (!(quartersIn r.parts).all (fun q => (s.ctx x).part q = .saving)) = true) := by
  simpa [hres] using hsaving

theorem saveDone_open (hres : r.resume = false) (hsaving : ∀ q ∈ quartersIn r.parts, (s.ctx x).part q = .saving)
    (hready : s.saveReady x r.parts = true) :
    ¬ (r.resume = true ∨ (!(quartersIn r.parts).all (fun q => (s.ctx x).part q = .saving)) = true ∨ (!s.saveReady x r.parts) = true) := by
  simpa [hres, hready] using hsaving

/-- The check that an end of a restore makes of its request. -/
theorem restore_open (hres : r.resume = true) (hop : r.op ≠ 0) : ¬ ((!r.resume) = true ∨ r.op = 0) := by
  simp [hres, hop]

end

/-- A part freezes by the kind of request in progress; a save or a restore ends by the first piece of its area that it cannot use. -/
theorem contextRequestsEnd : Claims.ContextRequestsEnd := by
  refine fun s x => ⟨fun q hpart hformed hstopped => ⟨fun hreq => ?_, fun r hreq hres hst hop => ?_⟩,
    fun r hreq => ⟨fun hres hsaving => ⟨fun hready hstop => ?_, fun done va hready hstop => ?_, fun done va hstop => ?_⟩,
      fun hres hop => ⟨fun hstop hclean hroom hslots => ?_, fun done va hstop => ?_⟩⟩⟩
  · obtain ⟨hasked, htarget⟩ := noCut_of_req hreq
    have h := partFrozen_freezes hpart hformed hstopped (.inl htarget)
    rw [hasked, htarget] at h
    exact h
  · obtain ⟨hasked, htarget⟩ := cut_of_req hreq hres hst (hop.imp_right And.left)
    have h := partFrozen_freezes hpart hformed hstopped (by
      rcases hop with h3 | ⟨-, hcommands⟩
      · exact .inl (by rw [htarget, h3]; rfl)
      · exact .inr hcommands)
    rw [hasked, htarget] at h
    exact h
  · show s.saveDone x = _
    simp only [State.saveDone, hreq, if_neg (saveDone_open hres hsaving hready), hstop]
  · show s.saveDone x = _
    simp only [State.saveDone, hreq, if_neg (saveDone_open hres hsaving hready), hstop]
  · show s.saveFault x = _
    simp only [State.saveFault, hreq, if_neg (save_open hres hsaving), hstop]
  · show s.restoreDone x = _
    simp only [State.restoreDone, hreq, if_neg (restore_open hres hop), hstop, hclean, hroom, hslots, Bool.not_true, Bool.false_eq_true, if_false]
  · show s.restoreFault x = _
    simp only [State.restoreFault, hreq, if_neg (restore_open hres hop), hstop]

end Sys2Proof.Machine
end

section
/-! Contexts that load and are scrubbed, shoot-downs and frame copies (12_context.md R298 to R300, R304; 11_page.md R295 to R297). -/

namespace Sys2Proof.Machine

/-! ### Loads and scrubs (R298 to R300, R304) -/

section
variable {s : State} {x : Nat}

/-- A completion is written into host memory and its function's registers, and leaves every context as it was. -/
theorem ctx_completeFor (y opc status : Nat) : (s.completeFor y opc status).ctx x = s.ctx x := by
  unfold State.completeFor
  split <;> rfl

/-- What a scrub does to the other units, it does before the context is made free. -/
theorem scrubbed_frees (hst : (s.ctx x).st = .dead) (hover : s.over x = true) : ∃ t, s.scrubbed x = .next t ∧ t.ctx x = .none := by
  have hopen : ¬ ((s.ctx x).st ≠ .dead ∨ (!s.over x) = true) := by simp [hst, hover]
  exact ⟨_, if_neg hopen, (ctx_completeFor x 2 0).trans (ctx_setCtx_self _ x _)⟩

end

/-! ### Shoot-downs and frame copies (11_page.md R295 to R297) -/

/-- The first of a list, where it passes the test, is the first that does. -/
theorem firstIdx_head {α : Type} {f : α → Bool} {a : α} {l : List α} (h : f a = true) : firstIdx f (a :: l) 0 = some (0, a) := if_pos h

section
variable {s : State} {o p : PgOp} {l : List PgOp}

theorem setPgop_head (h : s.pgops = o :: l) : s.setPgop 0 p = { s with pgops := p :: l } := by
  rw [State.setPgop, h]
  rfl

theorem pgops_foldl {f : State → Nat → State} (hf : ∀ s n, (f s n).pgops = s.pgops) (ns : List Nat) (s : State) :
    (ns.foldl f s).pgops = s.pgops :=
  List.foldlRecOn (motive := fun t : State => t.pgops = s.pgops) ns f rfl fun t ht n _ => (hf t n).trans ht

/-- A unit that takes an entry changes its copy and its cores. -/
theorem unitTakes_pgops (tu x page : Nat) (old e : W64) : (s.unitTakes tu x page old e).pgops = s.pgops := by
  refine (pgops_foldl (fun t n => ?_) _ _).trans (setEntry_pgops s tu x page e)
  split <;> rfl

theorem timedStore_pgops (clk pa n v : Nat) : (s.timedStore clk pa n v).pgops = s.pgops := by
  unfold State.timedStore
  dsimp only
  split <;> rfl

theorem payCcnt_pgops (x : Nat) : (s.payCcnt x).pgops = s.pgops := by
  unfold State.payCcnt
  dsimp only
  split
  · rfl
  · split
    · exact (updCtx_pgops ..).trans (timedStore_pgops ..)
    · rfl
    · rfl

theorem copyFrame_pgops (src dst len : Nat) : (s.copyFrame src dst len).pgops = s.pgops := rfl

theorem moveRels_pgops (src dst : Nat) : (s.moveRels src dst).pgops = s.pgops := rfl

theorem setMaster_pgops (x page : Nat) (e : W64) : (s.setMaster x page e).pgops = s.pgops := rfl

/-- The oldest operation waits for the unit: its entry is taken, and once no unit is left the operation goes on. -/
theorem ackUnit_oldest {u : Nat} (hops : s.pgops = o :: l) (hphase : o.phase = pgFirst ∨ o.phase = pgLast) (hu : u ∈ o.units) :
    let t := s.unitTakes u o.ctx o.page o.old o.entry
    let us := o.units.filter (· ≠ u)
    let r := (t.reexamine o.ctx o.page).payCcnt o.ctx
    s.ackUnit u =
      if us ≠ [] then .next { t with pgops := { o with units := us } :: l }
      else if o.phase = pgFirst then .next { r with pgops := { o with units := [], phase := pgCopy } :: l }
      else .next (State.pgKick { r with pgops := { o with units := [], phase := pgDone } :: l }) := by
  have hfirst : firstIdx (fun o => (o.phase = pgFirst || o.phase = pgLast) && o.units.contains u) s.pgops 0 = some (0, o) := by
    rw [hops]
    exact firstIdx_head (by simpa using ⟨hphase, hu⟩)
  have htaken : (s.unitTakes u o.ctx o.page o.old o.entry).pgops = o :: l := (unitTakes_pgops ..).trans hops
  have hpaid : (((s.unitTakes u o.ctx o.page o.old o.entry).reexamine o.ctx o.page).payCcnt o.ctx).pgops = o :: l :=
    (payCcnt_pgops _).trans htaken
  simp only [State.ackUnit, hfirst, setPgop_head htaken, setPgop_head hpaid]

/-- A frame without poison is copied without a report. -/
theorem moveDone_copies (hops : s.pgops = o :: l) (hphase : o.phase = pgCopy)
    (hclean : ∀ c ∈ s.mem.tags, pePfn o.old * 2 ^ 22 / 64 ≤ c.1 → c.1 < pePfn o.old * 2 ^ 22 / 64 + 2 ^ 16 → poisoned c.2 = false) :
    let src := pePfn o.old * 2 ^ 22
    let dst := o.npfn * 2 ^ 22
    let e := peWithPfn o.old o.npfn
    s.moveDone = .next { ((s.copyFrame src dst (2 ^ 22)).moveRels src dst).setMaster o.ctx o.page e with
      pgops := { o with entry := e, status := 0, units := allUnits, phase := pgLast } :: l } := by
  intro src dst e
  have hfirst : firstIdx (fun o => o.phase = pgCopy) s.pgops 0 = some (0, o) := by
    rw [hops]
    exact firstIdx_head (decide_eq_true hphase)
  have hbad : s.mem.tags.filter (fun c => src / 64 ≤ c.1 && decide (c.1 < src / 64 + 2 ^ 16) && poisoned c.2) = [] := by
    simp only [List.filter_eq_nil_iff, Bool.and_eq_true, decide_eq_true_eq, not_and, Bool.not_eq_true, and_imp]
    exact hclean
  have hmoved : (((s.copyFrame src dst (2 ^ 22)).moveRels src dst).setMaster o.ctx o.page e).pgops = o :: l := by
    rw [setMaster_pgops, moveRels_pgops, copyFrame_pgops, hops]
  simp only [State.moveDone, hfirst]
  rw [hbad, List.map_nil, List.foldl_nil, if_pos rfl, setPgop_head hmoved]

end

/-- The two ends of a load ask only that the context loads; the services that a privileged one starts are those of log entry 101. -/
theorem contextLoadsAndShootdowns : Claims.ContextLoadsAndShootdowns := by
  refine fun s => ⟨fun x hst => ⟨if_neg (not_not.2 hst), if_neg (not_not.2 hst)⟩, fun x hst hover => scrubbed_frees hst hover,
    fun u o l hops hphase hu => ⟨fun hleft => ?_, fun hleft hfirst => ?_, fun hleft hlast => ?_⟩,
    fun o l hops hphase hclean => moveDone_copies hops hphase hclean⟩
  · exact (ackUnit_oldest hops hphase hu).trans (if_pos hleft)
  · exact (ackUnit_oldest hops hphase hu).trans ((if_neg (not_not.2 hleft)).trans (if_pos hfirst))
  · have hnot : o.phase ≠ pgFirst := by rw [hlast]; decide
    exact (ackUnit_oldest hops hphase hu).trans ((if_neg (not_not.2 hleft)).trans (if_neg hnot))

/-- Settles O34: each event arises by the checks of its row; a shoot-down and a frame copy change nothing of the page operations but their
own. -/
theorem contextRequestsLoadsAndShootdowns : Obligations.ContextRequestsLoadsAndShootdowns :=
  ⟨contextRequestsEnd, contextLoadsAndShootdowns⟩

end Sys2Proof.Machine
end
